-- ==== Sys2Proof/Word.lean ====
section
/-! DEFINITION. The word types of the ATH-LX20 and their plainest arithmetic. Registers are 32 bits wide and
bit fields are numbered from the least significant bit (00_scope R7). -/

namespace Sys2Proof

/-- One byte. -/
abbrev Byte := BitVec 8

/-- A register: 32 bits (R7). -/
abbrev Word := BitVec 32

/-- Sparse data by key: strictly rising keys, no entry equal to the map's default. The operations that keep this
form are in Machine/Ops.lean. -/
abbrev SMap (α : Type) := List (Nat × α)

/-- A bay of the package: die·72 + bay (R3). -/
abbrev BayIx := Fin 1152

/-- A panel of a bay. -/
abbrev PanelIx := Fin 32

end Sys2Proof
end

