-- ==== Sys2Proof/Config.lean ====
section
/-! DEFINITION. What the manual leaves open: free values (opaque constants, applied to a plain counter of the state
or to the operands they depend on) and the functions that standards or the toolchain define outside the manual.
No proof can evaluate them; a claim holds whatever they are. -/

namespace Sys2Proof

/-- DESIGN CHOICE (log 3). A value the manual leaves open, drawn by the `n`-th use of the free counter. -/
opaque Config.freeNat : Nat → Nat

/-- DESIGN CHOICE (log 4). The cells of a row that nothing has written since power-up (02 R45): 1,136 bits for
(power-up number, panel, bank, row). -/
opaque Config.rowCells : Nat → Nat → Nat → Nat → BitVec 1136

/-- SHAKE256 with 64-byte output (12 R330: FIPS 202, outside this manual). -/
opaque Config.shake256 : List Byte → BitVec 512

/-- DESIGN CHOICE (log 165). The toolchain's software model of EXP, RECIP, RSQRT, GELU and SILU (04 R120), which the manual does not hold: of the
results within the stated bound, the one it gives for an operation code and an operand (odd part and exponent). -/
opaque Config.elemPick : Nat → Int → Int → Nat

/-- DESIGN CHOICE (log 165). Its result for an operand for which the manual states neither a result nor a bound: an infinity, or RSQRT of a
zero. -/
opaque Config.elemOpen : Nat → BitVec 32 → BitVec 32

/-- DESIGN CHOICE (log 22). The larger (true) or smaller of two binary32 values where the manual states no result: a NaN
operand, or zeros of unlike sign. -/
opaque Config.cmpOpen : Bool → BitVec 32 → BitVec 32 → BitVec 32

/-- DESIGN CHOICE (log 41). Entries of a tenant's page table beyond the first (07 R207): Novko sets the length, and the manual gives none. -/
opaque Config.pageTableMore : Nat → Nat

/-- Entries of a tenant's page table: at least one (log 41). -/
def Config.pageTableLen (tenant : Nat) : Nat := Config.pageTableMore tenant + 1

/-- DESIGN CHOICE (log 41). The page of the firmware regions where Novko puts a tenant's page table (07 R207), as a number of 0 to 65,535: the die
times 32,768 plus the page. -/
opaque Config.tablePage : Nat → Nat

/-! ### The algorithms of the Keep (12 R330), which their own standards define outside this manual -/

/-- Falcon-1024 key generation: the public key of a key pair, from the seed its generation takes. -/
opaque Config.falconPub : List Byte → List Byte

/-- Falcon-1024 signing: seed of the key pair, message and randomness give a padded signature of 1,280 bytes. -/
opaque Config.falconSign : List Byte → List Byte → Nat → List Byte

/-- Falcon-1024 verification of a signature: public key, message, signature. -/
opaque Config.falconOk : List Byte → List Byte → List Byte → Bool

/-- ML-KEM-1024 key generation: the encapsulation key of a key pair, from its seed. -/
opaque Config.kemPub : List Byte → List Byte

/-- The FIPS 203 input check on an encapsulation key. -/
opaque Config.kemCheck : List Byte → Bool

/-- ML-KEM-1024 encapsulation: encapsulation key and randomness give the shared secret (32 bytes) and the ciphertext (1,568). -/
opaque Config.kemEncaps : List Byte → Nat → List Byte × List Byte

/-- ML-KEM-1024 decapsulation: seed of the key pair and ciphertext. -/
opaque Config.kemDecaps : List Byte → List Byte → List Byte

/-- AES-256-GCM encryption: key, nonce, additional data and plaintext give ciphertext and tag. -/
opaque Config.gcm : List Byte → List Byte → List Byte → List Byte → List Byte × BitVec 128

/-- AES-256-GCM decryption: key, nonce and ciphertext. -/
opaque Config.gcmOpen : List Byte → List Byte → List Byte → List Byte

/-- XTS-AES-256 encryption: data key, tweak key, tweak and plaintext. -/
opaque Config.xts : List Byte → List Byte → Nat → List Byte → List Byte

/-- The eight SEC-DED check bits of a 64-bit word (04 R113): the manual names the code's strength, and no code (DESIGN CHOICE, log 195). -/
opaque Config.secded : BitVec 64 → BitVec 8

/-! ### What is fixed as a module is made -/

/-- DESIGN CHOICE (log 42). The Keep NVM's PUF helper data and identity certificate chain (12 R329). -/
opaque Config.helperData : List Byte
opaque Config.certChain : List Byte

/-- DESIGN CHOICE (log 42). The physically unclonable function: the root it gives from its helper data (12 R326). -/
opaque Config.puf : List Byte → List Byte

/-- The SHAKE256 digests in the primer ROM (12 R328): of up to four firmware signing keys, the provisioning key and the manufacturing CA key. -/
opaque Config.fwKeyDigests : List (BitVec 512)
opaque Config.provisioningDigest : BitVec 512
opaque Config.caDigest : BitVec 512

/-- DESIGN CHOICE (log 196). The provisioning key, of which the ROM holds the digest: where the Keep has the key itself from the manual does not say. -/
opaque Config.provisioningKey : List Byte

/-- DESIGN CHOICE (log 196). X.509 (12 R329): the public key that a certificate chain names in its identity certificate, and whether the chain leads to
the CA key with a digest. -/
opaque Config.certKey : List Byte → List Byte
opaque Config.chainLeads : BitVec 512 → List Byte → Bool

end Sys2Proof
end

