-- ==== Sys2Proof/Syntax.lean ====
section
/-! DEFINITION. The commands of the block: one constructor of `Instr` for each row of spec/opcode_table.json, and the
data their operands carry. Every command carries `t`, the time in ns at which it comes about (log 1). -/

namespace Sys2Proof

/-- A 64-byte line as a scratchpad, queue or handshake holds it: the bytes as written and the bits of its eight 72-bit
SEC-DED words that have changed since (04 R113, 06 R176). Bit i < 512 is data bit i; bit 512 + 8w + k is check bit k
of word w. -/
structure Line where
  data : BitVec 512 := 0
  flips : BitVec 576 := 0
  deriving DecidableEq, Repr, Inhabited

/-- One mesh handshake: link header (06 R178) and line. -/
structure MLine where
  hdr : BitVec 64 := 0
  line : Line := {}
  deriving DecidableEq, Repr, Inhabited

/-- The answer of a host memory read (11 R305): cause 0 UR, 1 CA, 2 poisoned, 3 timeout. -/
inductive HostRead where
  | bytes (b : List Byte)
  | fail (cause : Nat)
  deriving DecidableEq, Repr, Inhabited

/-- A converter that misses its ideal code (02 R52) by `off` codes: plane, segment, column (1,024 + w for witness w). -/
structure Dev where
  plane : Nat
  seg : Nat
  col : Nat
  off : Int
  deriving DecidableEq, Repr, Inhabited

/-- A residue that a check of a panel edge finds (03 R99, R100, R103): stage 0–5, output index, plane, segment, the column of the
output at stage 0 or the requantiser's step at stage 5, and the 3-bit code reduced from the stage's output. -/
structure ResFault where
  panel : Nat
  stage : Nat
  output : Nat
  plane : Nat := 0
  seg : Nat := 0
  sub : Nat := 0
  code : BitVec 3
  deriving DecidableEq, Repr, Inhabited

/-- A residue that a check of the vector or matrix unit finds (03 R100, 04 R124): the element, a term of its sum (k of the matrix unit), the
step of its computation, and the 3-bit code. -/
structure ResAt where
  elem : Nat
  term : Nat := 0
  step : Nat := 0
  code : BitVec 3
  deriving DecidableEq, Repr, Inhabited

/-- A bit that has changed (04 R113, 07 R205): scratchpad line, position in a queue or line of a Context die, and bit of
`Line.flips`. -/
structure Upset where
  line : Nat
  bit : Nat
  deriving DecidableEq, Repr, Inhabited

/-- One entry of a step's slot table (05 R141). -/
structure SlotEnt where
  seed : BitVec 64 := 0
  pos : BitVec 32 := 0
  valid : Bool := false
  deriving DecidableEq, Repr, Inhabited

/-- A Novko image in a firmware bank (15 R411): header fields, the digest that is signed, the signing key and
its signature; `ok` is false for an empty bank or malformed header. -/
structure FwImage where
  ok : Bool := false
  version : Nat := 0
  svn : Nat := 0
  mask : Nat := 3
  digest : BitVec 512 := 0
  key : List Byte := []
  sig : List Byte := []
  deriving DecidableEq, Repr, Inhabited

/-- The outcome of the Keep's self-tests (12 R351): 0 passed, else CAUSE 1–4 of 15 R412 and the failing algorithm. -/
structure SelfTest where
  cause : Nat := 0
  alg : Nat := 0
  deriving DecidableEq, Repr, Inhabited

/-- A panel record of a weight set image (09 R259): record head fields, the head's reserved bits, the 1,024 rows, and the record's entry of the panel
digest table. -/
structure PanelRec where
  die : Nat
  bay : Nat
  panel : Nat
  width : Nat
  sgn : Bool
  layer : Nat
  rsv : BitVec 85 := 0
  rows : SMap (BitVec 1024) := []
  digest : BitVec 512 := 0
  deriving DecidableEq, Repr, Inhabited

/-- A weight set image (09 R259, R260): header fields, the header's reserved bits in order, and the records with their digests. -/
structure WImage where
  magic : Nat := 0x54455357
  format : Nat := 1
  nPanels : Nat := 0
  layers : Nat := 0
  name : BitVec 256 := 0
  model : BitVec 128 := 0
  slice : Nat := 0
  slices : Nat := 1
  layoutDigest : BitVec 512 := 0
  setDigest : BitVec 512 := 0
  rsv : BitVec 2560 := 0
  records : List PanelRec := []
  deriving DecidableEq, Repr, Inhabited

/-- An authorisation object (09 R262). -/
structure Auth where
  magic : Nat := 0x48545541
  action : Nat := 1
  key : Nat := 0
  dirIndex : Nat := 0xFFFF
  rsv : BitVec 192 := 0
  nonce : BitVec 256 := 0
  device : BitVec 512 := 0
  setDigest : BitVec 512 := 0
  sig : List Byte := []
  deriving DecidableEq, Repr, Inhabited

/-- What a host memory read of an object gives (11 R305): the object, or the failure's cause. -/
inductive Fetch (α : Type) where
  | got (a : α)
  | fail (cause : Nat)
  deriving DecidableEq, Repr, Inhabited

/-- A flit (10 R278): its fields, its lines in the clear, its reserved bits (bytes 1, 3, 5, 15, 29–31, 632–639 in order), tag and CRC; and of its
codeword (R276) whether it was uncorrectable, else how many symbols were corrected. -/
structure Flit where
  ftype : Nat := 1
  vc : Nat := 0
  first : Bool := true
  last : Bool := true
  nlines : Nat := 1
  genAny : Bool := false
  enc : Bool := false
  seq : Nat := 0
  ack : Nat := 0
  credit : List Nat := [0, 0, 0, 0]
  dst : Nat := 0
  src : Nat := 0
  genSrc : BitVec 8 := 0
  genDst : BitVec 8 := 0
  session : Nat := 0
  iv : BitVec 64 := 0
  target : BitVec 40 := 0
  lines : List Line := []
  rsv : BitVec 102 := 0
  tag : BitVec 128 := 0
  crc : BitVec 64 := 0
  lost : Bool := false
  corr : Nat := 0
  deriving DecidableEq, Repr, Inhabited

/-- A setup or retire record of a STEP_ORDER (10 R294). -/
structure StepRec where
  kind : Nat
  slot : Nat
  cls : Nat
  flags : Nat
  n : Nat
  seed : BitVec 64
  handle : BitVec 64
  deriving DecidableEq, Repr, Inhabited

/-- A session set-up message (12 R339): SESSION, the module address it names, the sender's (SRC_MOD), owner root digest, start key and the signature of
its certificate (KEY_REQUEST), ciphertext and wrapped secret (KEY_GRANT), identity certificate chain and identity signature. -/
structure KeyMsg where
  session : Nat
  sender : Nat
  addr : Nat := 0
  root : BitVec 512 := 0
  ek : List Byte := []
  ekSig : List Byte := []
  ct : List Byte := []
  wrapped : List Byte := []
  chain : List Byte := []
  sig : List Byte := []
  deriving DecidableEq, Repr, Inhabited

/-- A register address: PF BAR0 offset, or a PCIe register without a row of its own (Bus Master Enable, NumVFs with
VF Enable, an MSI-X vector's mask). -/
inductive RegAddr where
  | bar0 (off : Nat)
  | busMaster (fn : Nat)
  | numVfs
  | msixMask (fn vec : Nat)
  deriving DecidableEq, Repr, Inhabited

/-- A TLP addressed to a function (11 R301, R304; 12 R337): its BARs, by command slot, register or offset of the mailbox window, or its configuration
space. -/
inductive Tlp where
  | slotWrite (slot off : Nat) (b : List Byte)
  | regWrite (off : Nat) (v : Word)
  | regRead (off : Nat)
  | slotRead (completion : Bool) (slot off len : Nat)
  | winWrite (off : Nat) (b : List Byte)
  | winRead (off len : Nat)
  | cfgRead (dword : Nat)
  | malformed (aerBit : Nat) (dw0 dw1 : Word)
  deriving DecidableEq, Repr, Inhabited

/-- The commands: one constructor per row of spec/opcode_table.json. -/
inductive Instr where
  | inputPowerOn (t : Nat)
  | inputPowerLoss (t : Nat)
  | supplyWarningAssert (t mv : Nat)
  | supplyWarningRelease (t mv : Nat)
  | sagHoldExpiry (t : Nat)
  | resetThreshold (t : Nat)
  | resetThresholdRelease (t : Nat)
  | overvoltageCut (t : Nat)
  | overvoltageRelease (t : Nat)
  | overcurrentCut (t : Nat)
  | modRstNAssert (t : Nat)
  | modRstNRelease (t : Nat)
  | stage1InRegulation (t : Nat)
  | stage2InRegulation (t : Nat)
  | stage3GroupInRegulation (t : Nat)
  | railFault (t : Nat) (rail : Fin 79) (mv : Nat)
  | railRampTimeout (t : Nat) (rail : Fin 79) (mv : Nat)
  | vauxFault (t : Nat)
  | thermalTrip (t : Nat) (die : Fin 32)
  | sagThrottleWrite (t : Nat) (v : Bool)
  | ctlPwrLeafVsetWrite (t : Nat) (n : Fin 16) (v : Word)
  | vsetCommit (t : Nat)
  | vsetRampDone (t : Nat)
  | getTid (t : Nat)
  | getPldmVersion (t ty : Nat)
  | getPldmTypes (t : Nat)
  | getPldmCommands (t ty : Nat)
  | pldmFirmwareUpdate (t : Nat) (bankB : Bool) (img : FwImage)
  | setCoords (t : Nat) (rec : List Byte)
  | getCoords (t : Nat)
  | getPowerStatus (t : Nat)
  | sidebandSnagRead (t cursor max : Nat)
  | getPrimerStatus (t : Nat)
  | pldmUnsupportedCommand (t ty code : Nat)
  | primerVerifyDone (t mv : Nat) (st : SelfTest)
  | configReadDone (t : Nat) (digestOk : Bool)
  | d2dLinkTrainingDone (t : Nat) (b : BayIx) (port : Fin 4) (ok : Bool)
  | hbmStackTrainingDone (t : Nat) (stack : Fin 12) (ok : Bool)
  | startupCalibrationDone (t : Nat) (res : BitVec 8) (exc : List (Nat × BitVec 8)) (lad : List (Nat × Int))
  | readyEntry (t : Nat)
  | panelOpStart (t : Nat) (b : BayIx) (p : PanelIx)
  | computeOpComplete (t : Nat) (b : BayIx) (p : PanelIx) (devs : List Dev) (rf : List ResFault)
  | skimComplete (t : Nat) (b : BayIx) (p : PanelIx) (res : BitVec 8)
  | rowAccessStart (t : Nat) (b : BayIx) (p : PanelIx)
  | rowWriteCommit (t : Nat) (b : BayIx) (p : PanelIx)
  | rowReadComplete (t : Nat) (b : BayIx) (p : PanelIx) (flips : List Nat)
  | pnlCntClr (t : Nat) (b : BayIx) (p : PanelIx)
  | pnlWitMismatchClear (t : Nat) (b : BayIx) (p : PanelIx)
  | pnlWinDataClear (t : Nat) (b : BayIx) (p : PanelIx) (v : Word)
  | pnlLiveWrite (t : Nat) (b : BayIx) (p : PanelIx) (live : Bool)
  | strokeStart (t : Nat) (b : BayIx) (ups : List Upset)
  | scratchpadAccessesComplete (t : Nat) (b : BayIx)
  | segmentWakeDone (t : Nat) (b : BayIx) (seg : Fin 4)
  | segmentSleep (t : Nat) (b : BayIx) (seg : Fin 4)
  | drainComplete (t : Nat) (b : BayIx) (rf : List ResFault)
  | add (t : Nat) (b : BayIx) (rf : List ResAt)
  | sub (t : Nat) (b : BayIx) (rf : List ResAt)
  | mul (t : Nat) (b : BayIx) (rf : List ResAt)
  | fma (t : Nat) (b : BayIx) (rf : List ResAt)
  | max (t : Nat) (b : BayIx)
  | min (t : Nat) (b : BayIx)
  | requant (t : Nat) (b : BayIx) (rf : List ResAt)
  | cvt (t : Nat) (b : BayIx)
  | relu (t : Nat) (b : BayIx)
  | exp (t : Nat) (b : BayIx)
  | recip (t : Nat) (b : BayIx)
  | rsqrt (t : Nat) (b : BayIx)
  | gelu (t : Nat) (b : BayIx)
  | silu (t : Nat) (b : BayIx)
  | rsum (t : Nat) (b : BayIx) (rf : List ResAt)
  | rmax (t : Nat) (b : BayIx)
  | rsumsq (t : Nat) (b : BayIx) (rf : List ResAt)
  | mmLoadb (t : Nat) (b : BayIx)
  | mmMul (t : Nat) (b : BayIx) (rf : List ResAt)
  | mmDrain (t : Nat) (b : BayIx) (rf : List ResAt)
  | send (t : Nat) (b : BayIx) (k : Nat)
  | recv (t : Nat) (b : BayIx) (k : Nat)
  | push (t : Nat) (b : BayIx) (k : Nat)
  | pop (t : Nat) (b : BayIx) (k : Nat) (ups : List Upset)
  | copy (t : Nat) (b : BayIx) (k : Nat)
  | flagsend (t : Nat) (b : BayIx) (k : Nat)
  | faultWindowClose (t : Nat) (b : BayIx)
  | mgmtAccessServe (t : Nat) (b : BayIx)
  | baySpDataAccess (t : Nat) (b : BayIx) (wr : Option Word)
  | bayCntClr (t : Nat) (b : BayIx)
  | bayFlagsWrite (t : Nat) (b : BayIx) (n : Fin 8) (v : Word)
  | baySegCtrlWrite (t : Nat) (b : BayIx) (v : Word)
  | bayAllocInvalidate (t : Nat) (b : BayIx)
  | bayStrokeCntRead (t : Nat) (b : BayIx)
  | flagSetMessage (t src : Nat) (b : BayIx) (m : MLine)
  | stepRelease (t src : Nat) (b : BayIx) (gen : BitVec 8) (prog : Fin 16) (slots : List SlotEnt)
  | swapArm (t src : Nat) (b : BayIx) (gen : BitVec 8) (ents : List (Nat × BitVec 32))
  | swapFlip (t src : Nat) (b : BayIx) (gen : BitVec 8) (layer : Nat)
  | auditArm (t src : Nat) (b : BayIx) (gen : BitVec 8) (stroke : Nat)
  | mgmtQueuePush (t src : Nat) (b : BayIx) (m : MLine)
  | scratchpadWriteMessage (t src : Nat) (b : BayIx) (ms : List MLine)
  | scratchpadReadMessage (t src : Nat) (b : BayIx) (m : MLine)
  | weightRow (t src : Nat) (b : BayIx) (ms : List MLine)
  | rowReadback (t src : Nat) (b : BayIx) (m : MLine)
  | dataLineAccept (t src : Nat) (b : BayIx) (m : MLine)
  | lineForward (t : Nat) (b : BayIx) (out : Fin 5)
  | linkCrcFail (t : Nat) (b : BayIx) (port : Fin 4)
  | rtrHardFenceWrite (t : Nat) (b : BayIx)
  | rtrLocalCloseWrite (t : Nat) (b : BayIx) (v : Bool)
  | rtrCntClr (t : Nat) (b : BayIx)
  | contextRequestArrival (t : Nat) (k : Fin 2) (link : Fin 36) (ms : List MLine)
  | attend (t : Nat) (k : Fin 2) (e : Fin 16) (iss : List Nat) (ups : List Upset)
  | append (t : Nat) (k : Fin 2) (e : Fin 16) (iss : List Nat) (ups : List Upset)
  | commitSet (t : Nat) (k : Fin 2)
  | kvRead (t : Nat) (k : Fin 2) (iss : List Nat) (ups : List Upset)
  | kvWrite (t : Nat) (k : Fin 2) (iss : List Nat) (ups : List Upset)
  | spillRead (t : Nat) (k : Fin 2) (iss : List Nat) (ups : List Upset)
  | spillWrite (t : Nat) (k : Fin 2) (iss : List Nat)
  | fwRead (t : Nat) (k : Fin 2) (iss : List Nat) (ups : List Upset)
  | fwWrite (t : Nat) (k : Fin 2) (iss : List Nat)
  | pageZero (t : Nat) (k : Fin 2) (iss : List Nat)
  | pageCopy (t : Nat) (k : Fin 2) (iss : List Nat) (ups : List Upset)
  | refreshDue (t : Nat) (k : Fin 2) (stack : Fin 6) (ch : Fin 32)
  | forcedRefresh (t : Nat) (k : Fin 2) (stack : Fin 6) (ch : Fin 32)
  | arbStarve (t : Nat) (k : Fin 2) (stack : Fin 6) (ch : Fin 32) (req : Fin 18) (level : Fin 3)
  | ctxPoolPush (t : Nat) (k : Fin 2) (v : Word)
  | ctxCntClr (t : Nat) (k : Fin 2)
  | ctxStarveCapClear (t : Nat) (k : Fin 2)
  | submit (t fn slot : Nat) (dma : HostRead)
  | cancel (t fn slot : Nat)
  | prefixKeep (t fn slot : Nat)
  | prefixDrop (t fn slot : Nat)
  | stepDoneNotice (t : Nat) (b : BayIx) (gen : BitVec 8)
  | resultMessage (t : Nat) (ms : List MLine)
  | schedulingPoint (t : Nat) (plan : Nat)
  | deadlineExpiry (t fn id : Nat)
  | weightsInstallNonce (t fn slot : Nat)
  | installNonceExpiry (t : Nat)
  | weightsInstallWrite (t fn slot : Nat) (auth : Fetch Auth) (img : Fetch WImage)
  | weightsInstallErase (t fn slot : Nat) (auth : Fetch Auth)
  | weightsSelect (t fn slot : Nat)
  | panelDoneNotice (t : Nat) (b : BayIx) (p : PanelIx) (gen : BitVec 8)
  | weightsDigest (t fn slot : Nat)
  | storeReadError (t : Nat) (dev : Fin 16) (block op : Nat)
  | storeDeviceFail (t : Nat) (dev : Fin 16)
  | portTrainingDone (t : Nat) (p : Fin 16) (lanes : BitVec 8) (plane rack down : Nat)
  | linkIdFlit (t : Nat) (p : Fin 16) (plane rack down : Nat)
  | widthFlit (t : Nat) (p : Fin 16) (w : Nat)
  | nakFlit (t : Nat) (p : Fin 16) (reason seq vc ack : Nat)
  | idleFlit (t : Nat) (p : Fin 16) (f : Flit)
  | dataFlit (t : Nat) (p : Fin 16) (f : Flit)
  | mgmtFlit (t : Nat) (p : Fin 16) (f : Flit)
  | fabricReplayTimeout (t : Nat) (p : Fin 16)
  | portAutoRetrain (t : Nat) (p : Fin 16)
  | laneBad (t : Nat) (p : Fin 16) (lane : Fin 8) (uncorr ratio : Nat)
  | widthChangeDone (t : Nat) (p : Fin 16)
  | controlFlitRepeat (t : Nat) (p : Fin 16)
  | fabricEgressMessage (t : Nat) (link : Fin 32) (ms : List MLine)
  | genNotice (t src plan st : Nat) (gen : BitVec 8) (auth : Bool)
  | genNoticeTimer (t : Nat)
  | stepOrder (t src plan stepNo : Nat) (prog : Fin 16) (swap rerun : Bool) (slots : List SlotEnt) (recs : List StepRec)
  | stepReport (t src plan stepNo : Nat) (done late resident : Bool) (measured : Nat)
  | stepAbort (t src plan stepNo : Nat)
  | peerTimeoutExpiry (t plan peer : Nat)
  | keyRequest (t : Nat) (m : KeyMsg)
  | keyGrant (t : Nat) (m : KeyMsg)
  | keyAck (t session sender : Nat) (auth : Bool)
  | keyRequestResend (t session : Nat)
  | sessionSetupTimeout (t session : Nat)
  | fabPortRelease (t : Nat) (p : Fin 16)
  | fabPortRetrain (t : Nat) (p : Fin 16)
  | fabPortCntClr (t : Nat) (p : Fin 16)
  | fabCntClr (t : Nat)
  | endpointReset (t : Nat) (linkLoss : Bool)
  | functionLevelReset (t fn : Nat)
  | d3hotEntry (t fn : Nat)
  | vfDisable (t : Nat)
  | commandPost (t fn slot off : Nat) (b : List Byte)
  | tlpReceive (t fn : Nat) (onStream : Bool) (x : Tlp)
  | ideKSetGo (t fn : Nat)
  | ideKSetStop (t fn : Nat)
  | ideKeyProg (t : Nat)
  | deviceInfo (t fn slot : Nat)
  | configLoad (t fn slot : Nat) (dma : HostRead)
  | configCommit (t fn slot : Nat)
  | planLoad (t fn slot : Nat) (dma : HostRead)
  | planUnload (t fn slot : Nat)
  | planStart (t fn slot : Nat)
  | planStop (t fn slot : Nat)
  | sessionOpenHost (t fn slot : Nat)
  | sessionOpenLeader (t fn slot : Nat)
  | sessionOpenFollower (t fn slot : Nat)
  | sessionCloseHost (t fn slot : Nat)
  | sessionCloseFabric (t fn slot : Nat)
  | counters (t fn slot : Nat)
  | snagRead (t fn slot : Nat)
  | attest (t fn slot : Nat)
  | attestCert (t fn slot : Nat)
  | fence (t fn slot : Nat)
  | fenceRouter (t fn slot : Nat)
  | unfence (t fn slot : Nat)
  | resetCompute (t fn slot : Nat)
  | expertEnable (t fn slot : Nat)
  | mbCntClr (t : Nat)
  | keepCntClr (t : Nat)
  | entropyHealthFail (t : Nat) (test : Fin 2)
  | entropyRetest (t : Nat) (ok : Bool)
  | drbgReseed (t : Nat)
  | faultNotice (t : Nat) (b : BayIx) (gen : BitVec 8) (kinds : BitVec 4) (panels : BitVec 32) (cnt : Nat)
  | auditSignature (t : Nat) (b : BayIx) (gen : BitVec 8) (stroke : Nat) (crc : BitVec 64)
  | auditSignatureTimeout (t plan : Nat)
  | hangSample (t : Nat)
  | coreWatchdogExpiry (t : Nat) (core : Fin 4)
  | quiesceDone (t : Nat)
  | computeResetDone (t : Nat) (skims : List (Nat × BitVec 8))
  | weightRedigestDone (t : Nat) (bad : List (Nat × Bool))
  | hbmRetrainDone (t : Nat) (failed : List (Fin 12))
  | fabricRetrainDone (t : Nat)
  | resumeDone (t : Nat)
  | recoveryTimeout (t : Nat)
  | adcConversion (t : Nat) (ch : Fin 32) (code : Int) (ovr : Bool) (merged : Nat)
  | adcCalPeriod (t : Nat)
  | hkSelfCal (t : Nat)
  | adcSelfCalDone (t : Nat) (offset gain : Int) (refMv bgMv : Nat)
  | ladderTrimTick (t : Nat)
  | ladderStepApply (t : Nat) (die : Fin 16)
  | sensorReading (t : Nat) (n : Fin 48) (v : Int) (merged : Nat)
  | sensorSilent (t : Nat) (n : Fin 48)
  | skipHoldEnd (t : Nat) (b : BayIx)
  | powerWindow (t : Nat) (leaves : List Nat)
  | tenantSnapshotWindow (t : Nat)
  | manualDivWrite (t : Nat) (leaf : Fin 32) (v : BitVec 2)
  | hkXingCntClr (t : Nat)
  | registerWrite (t : Nat) (a : RegAddr) (v : Word)
  | pcieLinkUp (t : Nat) (speed : Fin 7)
  | mctpControlMessage (t : Nat) (code : Byte)
  | planStartPeerTimeout (t plan : Nat)
  | doeSpdmRequest (t : Nat) (code : Byte)
  | msixVectorUnmask (t fn vec : Nat)
  deriving DecidableEq, Repr

/-- The time at which a command comes about, in ns (log 1). -/
def Instr.time : Instr → Nat
  | .inputPowerOn t | .inputPowerLoss t | .supplyWarningAssert t .. | .supplyWarningRelease t .. | .sagHoldExpiry t | .resetThreshold t |
    .resetThresholdRelease t | .overvoltageCut t | .overvoltageRelease t | .overcurrentCut t | .modRstNAssert t | .modRstNRelease t |
    .stage1InRegulation t | .stage2InRegulation t | .stage3GroupInRegulation t | .railFault t .. | .railRampTimeout t .. | .vauxFault t |
    .thermalTrip t .. | .sagThrottleWrite t .. | .ctlPwrLeafVsetWrite t .. | .vsetCommit t | .vsetRampDone t | .getTid t |
    .getPldmVersion t .. | .getPldmTypes t | .getPldmCommands t .. | .pldmFirmwareUpdate t .. | .setCoords t .. | .getCoords t |
    .getPowerStatus t | .sidebandSnagRead t .. | .getPrimerStatus t | .pldmUnsupportedCommand t .. | .primerVerifyDone t .. |
    .configReadDone t .. | .d2dLinkTrainingDone t .. | .hbmStackTrainingDone t .. | .startupCalibrationDone t .. | .readyEntry t |
    .panelOpStart t .. | .computeOpComplete t .. | .skimComplete t .. | .rowAccessStart t .. | .rowWriteCommit t .. |
    .rowReadComplete t .. | .pnlCntClr t .. | .pnlWitMismatchClear t .. | .pnlWinDataClear t .. | .pnlLiveWrite t .. |
    .strokeStart t .. | .scratchpadAccessesComplete t .. | .segmentWakeDone t .. | .segmentSleep t .. | .drainComplete t .. | .add t .. |
    .sub t .. | .mul t .. | .fma t .. | .max t .. | .min t .. | .requant t .. | .cvt t .. | .relu t .. | .exp t .. | .recip t .. |
    .rsqrt t .. | .gelu t .. | .silu t .. | .rsum t .. | .rmax t .. | .rsumsq t .. | .mmLoadb t .. | .mmMul t .. | .mmDrain t .. |
    .send t .. | .recv t .. | .push t .. | .pop t .. | .copy t .. | .flagsend t .. | .faultWindowClose t .. | .mgmtAccessServe t .. |
    .baySpDataAccess t .. | .bayCntClr t .. | .bayFlagsWrite t .. | .baySegCtrlWrite t .. | .bayAllocInvalidate t .. |
    .bayStrokeCntRead t .. | .flagSetMessage t .. | .stepRelease t .. | .swapArm t .. | .swapFlip t .. | .auditArm t .. |
    .mgmtQueuePush t .. | .scratchpadWriteMessage t .. | .scratchpadReadMessage t .. | .weightRow t .. | .rowReadback t .. |
    .dataLineAccept t .. | .lineForward t .. | .linkCrcFail t .. | .rtrHardFenceWrite t .. | .rtrLocalCloseWrite t .. | .rtrCntClr t .. |
    .contextRequestArrival t .. | .attend t .. | .append t .. | .commitSet t .. | .kvRead t .. | .kvWrite t .. | .spillRead t .. |
    .spillWrite t .. | .fwRead t .. | .fwWrite t .. | .pageZero t .. | .pageCopy t .. | .refreshDue t .. | .forcedRefresh t .. |
    .arbStarve t .. | .ctxPoolPush t .. | .ctxCntClr t .. | .ctxStarveCapClear t .. | .submit t .. | .cancel t .. | .prefixKeep t .. |
    .prefixDrop t .. | .stepDoneNotice t .. | .resultMessage t .. | .schedulingPoint t .. | .deadlineExpiry t .. |
    .weightsInstallNonce t .. | .installNonceExpiry t | .weightsInstallWrite t .. | .weightsInstallErase t .. | .weightsSelect t .. |
    .panelDoneNotice t .. | .weightsDigest t .. | .storeReadError t .. | .storeDeviceFail t .. | .portTrainingDone t .. |
    .linkIdFlit t .. | .widthFlit t .. | .nakFlit t .. | .idleFlit t .. | .dataFlit t .. | .mgmtFlit t .. | .fabricReplayTimeout t .. |
    .portAutoRetrain t .. | .laneBad t .. | .widthChangeDone t .. | .controlFlitRepeat t .. | .fabricEgressMessage t .. |
    .genNotice t .. | .genNoticeTimer t | .stepOrder t .. | .stepReport t .. | .stepAbort t .. | .peerTimeoutExpiry t .. |
    .keyRequest t .. | .keyGrant t .. | .keyAck t .. | .keyRequestResend t .. | .sessionSetupTimeout t .. | .fabPortRelease t .. |
    .fabPortRetrain t .. | .fabPortCntClr t .. | .fabCntClr t | .endpointReset t .. | .functionLevelReset t .. | .d3hotEntry t .. |
    .vfDisable t | .commandPost t .. | .tlpReceive t .. | .ideKSetGo t .. | .ideKSetStop t .. | .ideKeyProg t | .deviceInfo t .. |
    .configLoad t .. | .configCommit t .. | .planLoad t .. | .planUnload t .. | .planStart t .. | .planStop t .. |
    .sessionOpenHost t .. | .sessionOpenLeader t .. | .sessionOpenFollower t .. | .sessionCloseHost t .. | .sessionCloseFabric t .. |
    .counters t .. | .snagRead t .. | .attest t .. | .attestCert t .. | .fence t .. | .fenceRouter t .. | .unfence t .. |
    .resetCompute t .. | .expertEnable t .. | .mbCntClr t | .keepCntClr t | .entropyHealthFail t .. | .entropyRetest t .. |
    .drbgReseed t | .faultNotice t .. | .auditSignature t .. | .auditSignatureTimeout t .. | .hangSample t | .coreWatchdogExpiry t .. |
    .quiesceDone t | .computeResetDone t .. | .weightRedigestDone t .. | .hbmRetrainDone t .. | .fabricRetrainDone t | .resumeDone t |
    .recoveryTimeout t | .adcConversion t .. | .adcCalPeriod t | .hkSelfCal t | .adcSelfCalDone t .. | .ladderTrimTick t |
    .ladderStepApply t .. | .sensorReading t .. | .sensorSilent t .. | .skipHoldEnd t .. | .powerWindow t .. | .tenantSnapshotWindow t |
    .manualDivWrite t .. | .hkXingCntClr t | .registerWrite t .. | .pcieLinkUp t .. | .mctpControlMessage t .. |
    .planStartPeerTimeout t .. | .doeSpdmRequest t .. | .msixVectorUnmask t .. => t

end Sys2Proof
end

