-- ==== Sys2Proof/Machine/Flags.lean ====
section
/-! DEFINITION. Exact arithmetic, rounding and saturation (chapter 03): the rounding generator, rounding of an exact
value onto a grid, IEEE 754 binary16 and binary32, requantisation and block-scaled exponents. -/

namespace Sys2Proof.Machine

/-- One round of the rounding generator (03 R96). -/
def rngRound (x k : BitVec 64) : BitVec 64 :=
  let x := x + k
  let x := x ^^^ (x >>> 30)
  let x := x * 0xBF58476D1CE4E5B9
  let x := x ^^^ (x >>> 27)
  let x := x * 0x94D049BB133111EB
  x ^^^ (x >>> 31)

/-- The rounding generator (03 R96): 16 bits from request seed, layer, token position, tensor id, element index. -/
def rng (seed : BitVec 64) (layer : BitVec 16) (pos : BitVec 32) (tid : BitVec 16) (idx : BitVec 32) : Nat :=
  let g : BitVec 64 := 0x9E3779B97F4A7C15
  let x : BitVec 64 := (pos.zeroExtend 64 <<< 32) ||| idx.zeroExtend 64
  let x := x ^^^ (((layer.zeroExtend 64 <<< 16) ||| tid.zeroExtend 64) * g)
  let x := rngRound x seed
  let x := rngRound x (seed + g)
  let x := rngRound x (seed + g + g)
  let x := rngRound x (seed + g + g + g)
  (x >>> 48).toNat

/-- How a value is rounded: to nearest, ties to even, or stochastically with the generator's output `r` (03 R95). -/
inductive Rnd where
  | rne
  | sr (r : Nat)
  deriving DecidableEq, Repr

/-- An integer shifted right by `d`, rounded (03 R93); `d = 0` rounds nothing (03 R92). -/
def roundShift (t : Int) (d : Nat) (m : Rnd) : Int :=
  let q := t / (2 ^ d : Int)
  let rem := t - q * 2 ^ d
  match m with
  | .rne => if 2 * rem > 2 ^ d ∨ (d ≠ 0 ∧ 2 * rem = 2 ^ d ∧ q % 2 = 1) then q + 1 else q
  | .sr r => if (r : Int) < rem * 2 ^ 16 / 2 ^ d then q + 1 else q

/-- Saturation to a range: the value, and whether it was below or above (03 R72, R87). -/
def saturate (x lo hi : Int) : Int × Option Bool :=
  if x < lo then (lo, some false) else if x > hi then (hi, some true) else (x, none)

/-- The range of an n-bit integer (03 R72). -/
def intRange (n : Nat) (signed : Bool) : Int × Int :=
  if signed then (-(2 ^ (n - 1) : Int), 2 ^ (n - 1) - 1) else (0, 2 ^ n - 1)

/-- A 40-bit accumulator addition (03 R87). -/
def accAdd (a x : Int) : Int × Option Bool := saturate (a + x) (-(2 ^ 39)) (2 ^ 39 - 1)

/-- A value an arithmetic stage holds: (−1)^neg · m · 2^e, an infinity, or a NaN. Zeros are signed (03 R77). -/
inductive Num where
  | fin (neg : Bool) (m : Nat) (e : Int)
  | inf (neg : Bool)
  | nan
  deriving DecidableEq, Repr, Inhabited

/-- An integer as a value; zero is +0. -/
def Num.ofInt (x : Int) : Num := .fin (x < 0) x.natAbs 0

/-- x · 2^e as a value. -/
def Num.scaled (x : Int) (e : Int) : Num := .fin (x < 0) x.natAbs e

/-- The signed significand. -/
def signed (neg : Bool) (m : Nat) : Int := if neg then -(m : Int) else m

/-- A finite value rounded to a multiple of 2^g: the multiple (03 R95). -/
def roundGrid (neg : Bool) (m : Nat) (e g : Int) (r : Rnd) : Int :=
  if g ≤ e then signed neg m * 2 ^ (e - g).toNat else roundShift (signed neg m) (g - e).toNat r

/-- A floating-point format: precision, largest exponent and width (03 R77). -/
structure FloatFmt where
  p : Nat
  emax : Nat
  width : Nat
  deriving DecidableEq, Repr

/-- binary16. -/
def fmt16 : FloatFmt := ⟨11, 15, 16⟩

/-- binary32. -/
def fmt32 : FloatFmt := ⟨24, 127, 32⟩

/-- The infinity of a sign. -/
def FloatFmt.infBits (f : FloatFmt) (neg : Bool) : Nat :=
  (if neg then 2 ^ (f.width - 1) else 0) + (2 * f.emax + 1) * 2 ^ (f.p - 1)

/-- The canonical quiet NaN (03 R77). -/
def FloatFmt.nanBits (f : FloatFmt) : Nat := f.infBits false + 2 ^ (f.p - 2)

/-- The exponent of the grid on which a finite non-zero value is rounded (03 R77, R95). -/
def FloatFmt.grid (f : FloatFmt) (m : Nat) (e : Int) : Int :=
  max ((Nat.log2 m : Int) + e) (1 - (f.emax : Int)) - ((f.p : Int) - 1)

/-- Encode k · 2^g, a value on the format's grid or beyond its largest finite one (03 R77). -/
def FloatFmt.encodeGrid (f : FloatFmt) (neg : Bool) (k : Nat) (g : Int) : Nat :=
  let s := if neg then 2 ^ (f.width - 1) else 0
  if k = 0 then s
  else
    let top := (Nat.log2 k : Int) + g
    if top > f.emax then f.infBits neg
    else if top < 1 - (f.emax : Int) then
      s + k * 2 ^ (g - (2 - (f.emax : Int) - f.p)).toNat
    else
      let sig := if Nat.log2 k < f.p then k * 2 ^ (f.p - 1 - Nat.log2 k) else k / 2 ^ (Nat.log2 k - (f.p - 1))
      s + (top + f.emax).toNat * 2 ^ (f.p - 1) + (sig - 2 ^ (f.p - 1))

/-- Round a value into a floating-point format (03 R77, R95). A zero keeps its sign, and so does a value that rounds
to zero (DESIGN CHOICE, log 14). -/
def FloatFmt.encode (f : FloatFmt) (x : Num) (r : Rnd) : Nat :=
  match x with
  | .nan => f.nanBits
  | .inf neg => f.infBits neg
  | .fin neg m e =>
    if m = 0 then (if neg then 2 ^ (f.width - 1) else 0)
    else
      let g := f.grid m e
      f.encodeGrid neg (roundGrid neg m e g r).natAbs g

/-- The value of an encoding (03 R77). -/
def FloatFmt.decode (f : FloatFmt) (b : Nat) : Num :=
  let neg := b / 2 ^ (f.width - 1) % 2 = 1
  let ex := b / 2 ^ (f.p - 1) % (2 * f.emax + 2)
  let fr := b % 2 ^ (f.p - 1)
  if ex = 2 * f.emax + 1 then (if fr = 0 then .inf neg else .nan)
  else if ex = 0 then .fin neg fr (2 - (f.emax : Int) - f.p)
  else .fin neg (fr + 2 ^ (f.p - 1)) ((ex : Int) - f.emax - (f.p - 1))

/-- Round to binary32 and back: a lane's result (04 R117). -/
def Num.to32 (x : Num) (r : Rnd) : Num := fmt32.decode (fmt32.encode x r)

/-- Negation. -/
def Num.neg : Num → Num
  | .fin n m e => .fin (!n) m e
  | .inf n => .inf (!n)
  | .nan => .nan

/-- Exact sum; an exact zero of two values of unlike sign is +0 (IEEE 754; 03 R77). -/
def Num.add : Num → Num → Num
  | .nan, _ => .nan
  | _, .nan => .nan
  | .inf a, .inf b => if a = b then .inf a else .nan
  | .inf a, _ => .inf a
  | _, .inf b => .inf b
  | .fin a m e, .fin b n d =>
    let g := min e d
    let s := signed a m * 2 ^ (e - g).toNat + signed b n * 2 ^ (d - g).toNat
    if s = 0 then .fin (a && b) 0 g else .fin (s < 0) s.natAbs g

/-- Exact product. -/
def Num.mul : Num → Num → Num
  | .nan, _ => .nan
  | _, .nan => .nan
  | .inf a, .inf b => .inf (a != b)
  | .inf a, .fin b n _ => if n = 0 then .nan else .inf (a != b)
  | .fin a m _, .inf b => if m = 0 then .nan else .inf (a != b)
  | .fin a m e, .fin b n d => .fin (a != b) (m * n) (e + d)

/-- x < y for values that are not NaN; zeros compare equal. -/
def Num.lt : Num → Num → Bool
  | .nan, _ => false
  | _, .nan => false
  | .inf a, .inf b => a && !b
  | .inf a, .fin _ _ _ => a
  | .fin _ _ _, .inf b => !b
  | .fin a m e, .fin b n d =>
    let g := min e d
    decide (signed a m * 2 ^ (e - g).toNat < signed b n * 2 ^ (d - g).toNat)

/-- Both values are zeros. -/
def Num.isZero : Num → Bool
  | .fin _ 0 _ => true
  | _ => false

/-- The value is an integer's: its integer part by floor, for a finite value. -/
def Num.toInt? : Num → Rnd → Option Int
  | .fin n m e, r => some (roundGrid n m e 0 r)
  | _, _ => none

/-- A value converted to an integer range (03 R78, R92): NaN becomes 0; an infinity or a value out of range saturates
and counts. -/
def Num.toRange (x : Num) (lo hi : Int) (r : Rnd) : Int × Option Bool :=
  match x with
  | .nan => (0, none)
  | .inf true => (lo, some false)
  | .inf false => (hi, some true)
  | .fin n m e => saturate (roundGrid n m e 0 r) lo hi

/-- A scale table entry (03 R92): BIAS, MULT, SHIFT. -/
structure Scale where
  bias : Int
  mult : Int
  shift : Nat
  deriving DecidableEq, Repr

/-- Decode a scale table entry (03 R92). -/
def Scale.ofBits (b : BitVec 64) : Scale :=
  { bias := (b.extractLsb' 0 32).toInt, mult := (b.extractLsb' 32 16).toInt, shift := (b.extractLsb' 48 6).toNat }

/-- The requantiser's exact value t·2^(−s), t = (x + b)·m (03 R92). -/
def Scale.apply (c : Scale) (x : Int) : Num := .scaled ((x + c.bias) * c.mult) (-(c.shift : Int))

/-- Does every element, scaled by 2^(127 − E) and rounded under RNE, have magnitude at most `l` (03 R94)? -/
def bxFits (xs : List Num) (l : Nat) (ex : Nat) : Bool :=
  xs.all fun x => match x with
    | .fin n m e => decide ((roundGrid n m e ((ex : Int) - 127) .rne).natAbs ≤ l)
    | _ => true

/-- The smallest exponent from `ex` on that fits, searched over `fuel` values. -/
def bxSearch (xs : List Num) (l : Nat) : Nat → Nat → Nat
  | 0, ex => ex
  | k + 1, ex => if bxFits xs l ex then ex else bxSearch xs l k (ex + 1)

/-- The exponent of a BX block (03 R94). -/
def bxExp (xs : List Num) (l : Nat) : Nat :=
  if xs.any fun x => match x with | .inf _ => true | _ => false then 254 else bxSearch xs l 254 0

/-- An element of a BX block at exponent `ex` (03 R94): the element, and the saturation an infinity counts as. -/
def bxElem (x : Num) (l ex : Nat) (r : Rnd) : Int × Option Bool :=
  match x with
  | .nan => (0, none)
  | .inf n => (signed n l, some (!n))
  | .fin n m e => ((saturate (roundGrid n m e ((ex : Int) - 127) r) (-(l : Int)) l).1, none)

/-- BX input alignment of element `q` at exponent difference `d` to P bits (03 R82): the value, and whether it
saturated. -/
def bxAlign (q : Int) (d : Int) (p : Nat) : Int × Bool :=
  if 0 ≤ d then
    let y := saturate (q * 2 ^ d.toNat) (-(2 ^ (p - 1))) (2 ^ (p - 1) - 1)
    (y.1, y.2.isSome)
  else (roundShift q (-d).toNat .rne, false)

/-! ### The residue code (03 R99, R100) -/

/-- The 3-bit code of x mod 7 (03 R99). -/
def residue (x : Int) : BitVec 3 := BitVec.ofInt 3 (x % 7)

/-- The residue of a sum, from the residues of its terms. -/
def resAdd (a b : BitVec 3) : BitVec 3 := BitVec.ofNat 3 ((a.toNat + b.toNat) % 7)

/-- The residue of a difference. -/
def resSub (a b : BitVec 3) : BitVec 3 := BitVec.ofNat 3 ((a.toNat + 7 - b.toNat) % 7)

/-- The residue of a product, from the residues of its factors. -/
def resMul (a b : BitVec 3) : BitVec 3 := BitVec.ofNat 3 (a.toNat * b.toNat % 7)

/-- The residue of a sum of terms. -/
def resSum (l : List (BitVec 3)) : BitVec 3 := l.foldl resAdd 0

/-- A stage's check (03 R99, R100): the residue `found` in its output against the one predicted; 0b111 is a mismatch wherever it
appears. -/
def resMismatch (predicted found : BitVec 3) : Bool := predicted == 7 || found == 7 || predicted != found

/-- The signed significand of a finite value. -/
def Num.sig? : Num → Option Int
  | .fin n m _ => some (signed n m)
  | _ => none

/-- The predicted residue of a product: of the integers, or of the floats' significands (03 R100). -/
def resProd (x y : Num) : Option (BitVec 3) := do some (resMul (residue (← x.sig?)) (residue (← y.sig?)))

/-- The predicted residue of a sum: of the significands aligned to the smaller exponent, before normalisation (03 R100). -/
def resAligned : Num → Num → Option (BitVec 3)
  | .fin a m e, .fin b n d =>
    let g := min e d
    some (resAdd (resMul (residue (signed a m)) (residue (2 ^ (e - g).toNat)))
      (resMul (residue (signed b n)) (residue (2 ^ (d - g).toNat))))
  | _, _ => none

/-- The predicted residue of a step of the requantiser (03 R100): 0 the bias add, 1 the multiply, and into an integer destination
2 the right shift (the shifted value's parts against t) and 3 the rounding increment. -/
def Scale.predicted (c : Scale) (x : Int) (int : Bool) (r : Rnd) (step : Nat) : Option (BitVec 3) :=
  let t := resMul (resAdd (residue x) (residue c.bias)) (residue c.mult)
  match step with
  | 0 => some (resAdd (residue x) (residue c.bias))
  | 1 => some t
  | 2 => if int ∧ c.shift ≠ 0 then some t else none
  | 3 =>
    if int ∧ c.shift ≠ 0 then
      let v := (x + c.bias) * c.mult
      let q := v / (2 ^ c.shift : Int)
      some (resAdd (residue q) (residue (roundShift v c.shift r - q)))
    else none
  | _ => none

/-- A zero of an integer operation is +0 (03 R77). -/
def Num.plusZero : Num → Num
  | .fin _ 0 e => .fin false 0 e
  | x => x

/-- The sign of a value. -/
def Num.sign : Num → Bool
  | .fin n _ _ => n
  | .inf n => n
  | .nan => false

end Sys2Proof.Machine
end

