-- ==== Sys2Proof/Machine/State.lean ====
section
/-! DEFINITION. The state of the module: every register, buffer, counter, mode and pin the manual gives it, as plain
data, and the queue of commands that wait. The default of each field is its value at reset; a sparse map lists only
what differs from its default. -/

namespace Sys2Proof.Machine

/-- The module states (00 R5). -/
inductive Mode where
  | off | primed | awaitingConfig | haltedConfig | awaitingCoords | ready | serving | recovering | withdrawn
  deriving DecidableEq, Repr, Inhabited

/-- A rail (01 R30, R32, R34): off, waiting for its turn in a stage that ramps, ramping, in regulation, switched off by a fault of its
own, or switched off together with a faulted rail. -/
inductive Rail where
  | off | wait | ramp | up | fault | cut
  deriving DecidableEq, Repr, Inhabited

/-- A staged leaf set point (01 R43, 00 R13): the code written last, the time of that write, and the code staged before that
instant, which a commit of the same instant takes. -/
structure LeafStg where
  code : Option Nat := none
  at_ : Nat := 0
  old : Option Nat := none
  deriving DecidableEq, Repr, Inhabited

/-- The power stage and its registers (chapter 01). `wasArmed` holds the comparators that were armed when the module reset was asserted,
`rampAt` and `upAt` when each rail's ramp starts and when it came into regulation. Rails are keyed by rail id; leaf set points by leaf (rail id
0–31), code 20 where unlisted. -/
structure Power where
  inputOn : Bool := false
  vauxLatched : Bool := false
  underVolt : Bool := true
  overVolt : Bool := false
  ocLatch : Bool := false
  thermLatch : Bool := false
  railLatch : Bool := false
  rstN : Bool := true
  offCause : Nat := 0
  offRail : Nat := 0xFF
  offAt : Nat := 0
  wasArmed : BitVec 32 := 0
  vinWarn : Bool := false
  warnAt : Nat := 0
  warnOff : Nat := 0
  minMv : Nat := 0
  rails : SMap Rail := []
  rampAt : SMap Nat := []
  upAt : SMap Nat := []
  stage1Up : Bool := false
  stage2Req : Bool := false
  stage2Up : Bool := false
  groups : Nat := 0
  faultRail : Nat := 0xFF
  railFaultSeen : Bool := false
  vinWarnSeen : Bool := false
  warnIrqEn : Bool := true
  sagThrottle : Bool := true
  sagActing : Bool := false
  sagHold : Bool := false
  vset : SMap Nat := []
  vsetStg : SMap LeafStg := []
  vsetRamping : Bool := false
  deriving DecidableEq, Repr, Inhabited

/-- A trim set of a panel (02 R53, 14 R394): the residual its last skim or calibration measured, the sum mode that
skim calibrated, and the module time of the last skim of each sum mode. -/
structure Trim where
  res : BitVec 8 := 0xFF
  mode : Bool := false
  cur : Option Nat := none
  tim : Option Nat := none
  deriving DecidableEq, Repr, Inhabited

/-- A bank as an operation or a row access names it (02 R63, 05 R143). -/
inductive BankSel where
  | live | back | a | b
  deriving DecidableEq, Repr, Inhabited

/-- A panel operation issued by a stroke (02 R65): the raw parameter field W2 of its stroke, its input descriptor, and,
once it has started, its bank, the bands it runs exactly, and the P-bit input of each row. -/
structure PanelOp where
  w2 : BitVec 32
  desc : BitVec 32
  started : Bool := false
  skimming : Bool := false
  bank : Nat := 0
  exactBands : BitVec 4 := 0
  inp : List Nat := []
  deriving DecidableEq, Repr, Inhabited

/-- Where a row access came from, and so where its answer goes (05 R143, 06 R428, 09 R265). -/
inductive RowFrom where
  | stroke
  | message (last : Bool)
  | readback (route : BitVec 64)
  deriving DecidableEq, Repr, Inhabited

/-- A row access (02 R60–R62): `data` is none for a read. -/
structure RowAcc where
  bank : BankSel
  row : Nat
  data : Option (BitVec 1024)
  src : RowFrom
  deriving DecidableEq, Repr, Inhabited

/-- Fields of a panel written while its bay runs, waiting for the stroke boundary (00 R12, 02 R70). -/
structure PanelStg where
  tol : Option (BitVec 8) := none
  sgnB : Option Bool := none
  sgnA : Option Bool := none
  wB : Option (BitVec 2) := none
  wA : Option (BitVec 2) := none
  winSel : Option (BitVec 8) := none
  live : Option Bool := none
  exactLimit : Option (BitVec 8) := none
  deriving DecidableEq, Repr, Inhabited

/-- A panel (chapters 02 and 03). Cells are keyed by 1,024·bank + row: 1,024 data bits, then 112 witness bits; a row
nothing has written since power-up is unlisted. -/
structure Panel where
  cells : SMap (Option (BitVec 1136)) := []
  tol : BitVec 8 := 0x28
  witEn : Bool := true
  sgnB : Bool := true
  sgnA : Bool := true
  wB : BitVec 2 := 2
  wA : BitVec 2 := 2
  winSel : BitVec 8 := 0
  live : Bool := false
  stg : PanelStg := {}
  wrHeld : Bool := false
  cfgLocked : Bool := false
  opErr : Bool := false
  exactLost : Bool := false
  witStoreErr : Bool := false
  witMismatch : Bool := false
  sat : Bool := false
  satCnt : Nat := 0
  misCnt : Nat := 0
  skipCnt : Nat := 0
  skimCnt : Nat := 0
  exactLimit : BitVec 8 := 4
  trimSet : Option (BitVec 2) := none
  trims : SMap (Option Trim) := []
  guardB : BitVec 4 := 0
  guardA : BitVec 4 := 0
  sats : BitVec 1136 := 0
  cap : List Nat := [0, 0, 0, 0]
  op : Option PanelOp := none
  rowQ : List RowAcc := []
  rowCur : Option (Nat × RowAcc) := none
  acc : SMap Int := []
  deriving DecidableEq, Repr, Inhabited

/-- A segment's mode (04 R114). -/
inductive SegMode where
  | on | retain | off
  deriving DecidableEq, Repr, Inhabited

/-- A scratchpad segment: the mode in effect, whether it is waking and from which mode, and a mode it is to enter
once the accesses granted to it have completed (04 R115). -/
structure Seg where
  mode : SegMode := .on
  waking : Bool := false
  zeroing : Bool := false
  goal : Option SegMode := none
  deriving DecidableEq, Repr, Inhabited

/-- A scalar register (04 R121): 32 bits and a type. -/
structure Scalar where
  float : Bool := false
  bits : BitVec 32 := 0
  deriving DecidableEq, Repr, Inhabited

/-- A hardware queue (04 R128): the entries held in order of arrival, the storage slot of the next push, and the sources of the entries
that arrived together at the last instant of a push (04 R129). -/
structure Queue where
  items : List Line := []
  tail : Nat := 0
  ovr : Bool := false
  at_ : Nat := 0
  fresh : List Nat := []
  deriving DecidableEq, Repr, Inhabited

/-- A management access waiting for a stroke boundary (04 R111, 06 R428); each takes one line of the budget. -/
inductive Mgmt where
  | head
  | write (line : Nat) (x : Line)
  | read (line : Nat) (route : BitVec 64) (last : Bool)
  | spRead
  | spWrite (v : Word)
  | rowData
  | rowWrite (panel : Nat) (a : RowAcc)
  | rowRead (panel : Nat) (a : RowAcc)
  deriving DecidableEq, Repr, Inhabited

/-- The fault detector's open gathering window and when it opened (04 R132). -/
structure Gather where
  at_ : Nat
  kinds : BitVec 4
  panels : BitVec 32
  cnt : Nat
  deriving DecidableEq, Repr, Inhabited

/-- A scratchpad write of a stroke (04 R109): client, line, data, byte mask. -/
structure SpWrite where
  client : Nat
  line : Nat
  data : BitVec 512
  mask : BitVec 64 := BitVec.allOnes 64
  flips : BitVec 576 := 0
  deriving DecidableEq, Repr, Inhabited

/-- A transfer record of the stroke in flight: its bits, how many lines it has moved, and whether it is complete. -/
structure Xfer where
  word : BitVec 64
  moved : Nat := 0
  finished : Bool := false
  deriving DecidableEq, Repr, Inhabited

/-- The stroke in flight (05 R137): its effective word, the scratchpad and its segments as they stood at its start
(04 R108), the parts still open, the drain's captured accumulators and the writes not yet landed; `begun` is when it started. -/
structure Running where
  word : BitVec 256
  snap : SMap Line := []
  segs : BitVec 4 := 15
  panels : List Nat := []
  rows : List Nat := []
  drain : Option (List (Nat × List Int)) := none
  unit : Bool := false
  xfers : List Xfer := []
  sp : Bool := false
  writes : List SpWrite := []
  watch : Bool := false
  crc : Option (BitVec 64) := none
  begun : Nat := 0
  deriving DecidableEq, Repr, Inhabited

/-- The stroke sequencer (chapter 05). `prog` is the program that runs; none while the bay waits for a release. -/
structure Seq where
  strokes : List (BitVec 256) := []
  tensors : List (BitVec 64) := []
  ops : List (BitVec 128) := []
  xfers : List (BitVec 64) := []
  routes : List (BitVec 64) := []
  entries : List Nat := []
  running : Bool := false
  halted : Bool := false
  prog : Option Nat := none
  pc : Nat := 0
  cur : Option Running := none
  slots : List SlotEnt := []
  held : Option (Nat × List SlotEnt × BitVec 8) := none
  stop : Bool := false
  served : Nat := 0
  deriving DecidableEq, Repr, Inhabited

/-- An audit watch of a bay (13 R362): the stroke whose drain CRC is to be sent, and the generation it was armed in. -/
structure Watch where
  stroke : Nat
  gen : BitVec 8
  deriving DecidableEq, Repr, Inhabited

/-- A bay but for its panels and its router (chapter 04). `flagsKept` holds the sets of this instant that outlast the clear of a stroke start
(04 R126), `asm` the lines of a firmware message that have arrived, by VC (06 R428). `movedAt` is when its stroke count last moved or its program
started (13 R364), `holdTill` when its skip-mode hold is over (14 R403). -/
structure Bay where
  sp : SMap Line := []
  segs : SMap Seg := []
  sc : SMap Scalar := []
  mmB : List Nat := []
  mmFloat : Bool := false
  mmSigned : Bool := true
  mmC : SMap Int := []
  flags : BitVec 256 := 0
  flagsKept : BitVec 256 := 0
  queues : SMap Queue := []
  eject : SMap (List MLine) := []
  asm : SMap (List MLine) := []
  det : Option Gather := none
  mgmt : List Mgmt := []
  spUncorr : Bool := false
  boundErr : Bool := false
  segErr : Bool := false
  queueOvr : Bool := false
  flagOvr : Bool := false
  staleDrop : Bool := false
  cfgLocked : Bool := false
  inSat : Bool := false
  accOvf : Bool := false
  bxInvalid : Bool := false
  reqSat : Bool := false
  resErr : Bool := false
  budget : BitVec 3 := 4
  budgetStg : Option (BitVec 3) := none
  allocValid : Bool := false
  flagFirst : Nat := 0
  flagLast : Nat := 0
  queueFirst : Nat := 0
  queueLast : Nat := 0
  strokeCnt : Nat := 0
  cntHi : BitVec 32 := 0
  conflicts : Nat := 0
  reqSatCnt : Nat := 0
  accOvfCnt : Nat := 0
  inSatCnt : Nat := 0
  flagOvrCnt : Nat := 0
  staleCnt : Nat := 0
  uncorr : Nat := 0
  corr : Nat := 0
  autoInc : Bool := false
  spAddr : BitVec 19 := 0
  autoIncStg : Option Bool := none
  spAddrStg : Option (BitVec 19) := none
  seq : Seq := {}
  holds : SMap (BitVec 32) := []
  flipsDue : BitVec 32 := 0
  watches : List Watch := []
  skipHold : Bool := false
  holdTill : Nat := 0
  skipCnt : Nat := 0
  movedAt : Nat := 0
  deriving DecidableEq, Repr, Inhabited

/-- A router (chapter 06). Input buffers are keyed by 4·input + VC and hold each line with its time of arrival; `held` are lines their bay or edge die
holds for a full buffer; output
locks and round-robin positions by 4·output + VC. Ports: 0 N, 1 E, 2 S, 3 W, 4 local. -/
structure Router where
  bufs : SMap (List (Nat × MLine)) := []
  held : SMap (List MLine) := []
  lock : SMap (Option Nat) := []
  rr : SMap Nat := []
  burst : SMap Nat := []
  localIn : SMap (Option MLine) := []
  localFrom : SMap Nat := []
  fails : SMap Nat := []
  replay : SMap (Option Nat) := []
  hardFenced : Bool := false
  localClose : Bool := false
  linkDown : BitVec 4 := 0
  hdrErr : Bool := false
  noMatch : Bool := false
  fenceDrop : Bool := false
  sinkDrop : Bool := false
  retrySeen : Bool := false
  retryLimit : BitVec 4 := 15
  sinkCnt : Nat := 0
  localCnt : Nat := 0
  retry : SMap Nat := []
  mcIndex : BitVec 8 := 0
  mc : SMap (BitVec 5) := []
  deriving DecidableEq, Repr, Inhabited

/-- A placement entry of a plan (05 R155), its tables resolved; `bay` is die·72 + bay. -/
structure PBay where
  bay : Nat
  flagFirst : Nat
  flagLast : Nat
  queueFirst : Nat
  queueLast : Nat
  segInit : Nat
  strokes : List (BitVec 256)
  tensors : List (BitVec 64)
  ops : List (BitVec 128)
  xfers : List (BitVec 64)
  routes : List (BitVec 64)
  entries : List Nat
  deriving DecidableEq, Repr, Inhabited

/-- A multicast tree record (06 R191): plan-local id, root router and nodes, each by bay number. -/
structure Tree where
  id : Nat
  root : Nat
  nodes : List (Nat × BitVec 5)
  deriving DecidableEq, Repr, Inhabited

/-- A fabric stream record (10 R285). -/
structure FStream where
  id : Nat
  slice : Nat
  plane : Nat
  vc : Nat
  target : BitVec 40
  deriving DecidableEq, Repr, Inhabited

/-- A detour set (06 R197): items (kind, x or die, y), replacement routes (bay, index, entry) and trees. -/
structure Detour where
  items : List (Nat × Nat × Nat)
  routes : List (Nat × Nat × BitVec 64)
  trees : List Tree
  deriving DecidableEq, Repr, Inhabited

/-- A fence placement (13 R374): items and bays by bay number, fills as (target, source) panel keys. -/
structure FencePl where
  items : List Nat
  fills : List (Nat × Nat)
  budget : List Nat
  inputs : List (Nat × Nat × Nat)
  bays : List PBay
  trees : List Tree
  deriving DecidableEq, Repr, Inhabited

/-- A program entry of the slot layout (08 R237). -/
structure Prog where
  role : Nat := 0
  chunk : Nat := 1
  die : Nat := 0
  bay : Nat := 0
  line : Nat := 0
  lines : Nat := 0
  deriving DecidableEq, Repr, Inhabited

/-- A slot layout (08 R237); slots are (RES_C0, CTX). -/
structure Layout where
  slots : List (Bool × Bool) := []
  tensor : Bool := false
  inLines : Nat := 1
  outLines : Nat := 1
  peer : Bool := false
  marked : Bool := false
  endToken : Nat := 0xFFFFFFFF
  maxPrompt : Nat := 0
  maxSeq : Nat := 0
  spill : Nat := 0
  format : Nat := 0
  dsel : Nat := 0
  heads : Nat := 0
  layers : Nat := 0
  window : Nat := 0
  jMax : Nat := 0
  stream : Nat := 0
  progs : List Prog := []
  cycle : List Nat := []
  deriving DecidableEq, Repr, Inhabited

/-- A latency certificate (05 R165): pace entries (class, ps) and step entries (program, D_STEP ns, C0_SLOTS). -/
structure Cert where
  allowance : Nat
  cover : BitVec 2
  pace : List (Nat × Nat)
  steps : List (Nat × Nat × Nat)
  deriving DecidableEq, Repr, Inhabited

/-- A plan image as loaded (05 R153–R157). -/
structure PlanImg where
  id : Nat
  layers : Nat := 0
  auditPer : Nat := 0
  usesCtx : Bool := false
  weight : BitVec 512 := 0
  digest : BitVec 512 := 0
  bays : List PBay := []
  trees : List Tree := []
  streams : List FStream := []
  detours : List Detour := []
  fences : List FencePl := []
  budget : List Nat := []
  layout : Layout := {}
  cert : Option Cert := none
  deriving DecidableEq, Repr, Inhabited

/-- An audit pair (13 R360): origin bay and stroke, auditing bay, first stroke of the run and the stroke that drains. -/
structure Pair where
  obay : Nat
  ostroke : Nat
  abay : Nat
  afirst : Nat
  astroke : Nat
  prog : Nat
  deriving DecidableEq, Repr, Inhabited

/-- An armed pair of a step and the signatures that have arrived (13 R362). -/
structure Armed where
  pair : Pair
  osig : Option (BitVec 64) := none
  asig : Option (BitVec 64) := none
  judged : Bool := false
  again : Bool := false
  deriving DecidableEq, Repr, Inhabited

/-- A slot's result (08 R242): the flags, the context status, and the produced positions' bytes. -/
structure Result where
  endTok : Bool
  ctxErr : Bool
  ctx : Nat
  outs : List (List Byte)
  deriving DecidableEq, Repr, Inhabited

/-- The step in flight of a plan (05 R169; 08 R239): its program, slot table and number, on a peer the module that ordered
it, its release, the anchor bays and peers that have still to report, and what has arrived. -/
structure StepRun where
  prog : Nat
  slots : List SlotEnt
  no : Nat := 0
  order : Nat := 0
  released : Nat := 0
  waiting : List Nat := []
  results : SMap (Option Result) := []
  peers : List Nat := []
  measured : Nat := 0
  doneAt : Option Nat := none
  faulted : Bool := false
  late : Bool := false
  arms : List Armed := []
  swap : Bool := false
  resident : Bool := false
  deriving DecidableEq, Repr, Inhabited

/-- A loaded plan (05 R142, R162; 08 R239; 10 R293); `wlayout` is the layout digest of its weight set (09 R264), `recs` the
set-up and retire records of the next step order (10 R294). -/
structure Loaded where
  img : PlanImg
  owner : Nat := 0
  access : List (Nat × Bool) := []
  admitted : Bool := false
  treeIds : List Nat := []
  streamIds : List Nat := []
  started : Bool := false
  stopping : Bool := false
  unloading : Bool := false
  starting : Bool := false
  startedAt : Nat := 0
  map : Option Nat := none
  spillBase : Nat := 0
  session : Nat := 0
  wlayout : BitVec 512 := 0
  peers : List Nat := []
  heard : SMap (Option (Nat × Nat × BitVec 8)) := []
  placement : Option Nat := none
  detour : Option Nat := none
  slots : SMap (Option (Nat × Nat)) := []
  closed : List Nat := []
  pos : Nat := 0
  stepNo : Nat := 0
  step : Option StepRun := none
  rerun : Option StepRun := none
  lateAt : Option Nat := none
  folded : Nat := 0
  hangs : List (Nat × Nat) := []
  peerResident : List Nat := []
  recs : List StepRec := []
  deriving DecidableEq, Repr, Inhabited

/-- A request (08 R234–R250), by function and REQ_ID. -/
structure Req where
  fn : Nat
  id : Nat
  plan : Nat
  seed : BitVec 64
  cls : Nat
  outAddr : Nat
  outLen : Nat
  maxTok : Nat
  keepN : Nat
  lateDel : Bool
  stream : Bool
  drawn : Bool
  keep : Bool
  tag : Nat
  deadline : Option Nat
  input : List Byte
  prompt : Nat
  handle : Nat := 0
  base : Nat := 0
  promised : Option Nat := none
  slot : Option Nat := none
  seq : Nat := 0
  lpn : Nat := 0
  sent : Nat := 0
  outs : List (List Byte) := []
  given : Nat := 0
  late : Bool := false
  lateSteps : Nat := 0
  cancel : Bool := false
  removed : Bool := false
  tAccept : Nat := 0
  tFirst : Nat := 0
  deriving DecidableEq, Repr, Inhabited

/-- A sequence table entry (07 R208). -/
structure SeqEnt where
  valid : Bool := false
  fault : Bool := false
  fromPrefix : Bool := false
  format : Nat := 0
  dsel : Nat := 0
  heads : Nat := 0
  tenant : Nat := 0
  layers : Nat := 0
  lpnBase : Nat := 0
  jMax : Nat := 0
  commit : Nat := 0
  window : Nat := 0
  deriving DecidableEq, Repr, Inhabited

/-- A context map entry (07 R216). -/
structure MapEnt where
  valid : Bool := false
  seq : Nat := 0
  cls : Nat := 0
  seed : BitVec 64 := 0
  deriving DecidableEq, Repr, Inhabited

/-- A request at a Context die (07 R217): attach link, VC, generation, UNIT, header and data lines; once it runs, the rounds after its start at
which its transfers reach their channels. -/
structure CtxReq where
  link : Nat
  vc : Nat
  gen : BitVec 8
  unit : Nat
  hdr : BitVec 512
  lines : List Line
  iss : List Nat := []
  deriving DecidableEq, Repr, Inhabited

/-- A kept prefix (07 R214): whole pages and partial copies, each as (layer·H + head, page index, PPN). -/
structure Prefix where
  tenant : Nat
  die : Nat
  format : Nat
  dsel : Nat
  heads : Nat
  layers : Nat
  n : Nat
  tag : Nat
  pages : List (Nat × Nat × Nat)
  copies : List (Nat × Nat)
  lead : Option Nat := none
  deriving DecidableEq, Repr, Inhabited

/-- A transfer pending at an HBM channel (07 R226): requester, level, arrival and beats left. -/
structure HbmXfer where
  req : Nat := 0
  level : Nat := 0
  at_ : Nat := 0
  beats : Nat := 0
  deriving DecidableEq, Repr, Inhabited

/-- The arbiter of an HBM channel (07 R206, R226–R229): pending transfers in order of arrival, the requester and level whose transfer holds the
channel, the requester last granted at each level, rounds pending without winning by 4·requester + level, counts that have reached
STARVE_ROUNDS, rounds of refresh left, refreshes due, and the next round to decide. -/
structure Chan where
  xfers : List HbmXfer := []
  hold : Option (Nat × Nat) := none
  last : SMap Nat := []
  waits : SMap Nat := []
  starved : List Nat := []
  refresh : Nat := 0
  due : Nat := 0
  at_ : Nat := 0
  refAt : Option Nat := none
  deriving DecidableEq, Repr, Inhabited

/-- A tenant record of the CMM (07 R207): base PPN and length in entries of the tenant's page table. -/
structure TenantRec where
  base : Nat := 0
  len : Nat := 0
  deriving DecidableEq, Repr, Inhabited

/-- A Context die (chapter 07). `mem` is keyed by line within the die (CA[38:6]); queues by 4·unit + VC; context maps by
256·map + slot; channels by 32·stack + channel. Of a line that holds page table entries `mem` keeps the changed bits alone: the entries are
`State.pages`. -/
structure CtxDie where
  mem : SMap Line := []
  seqs : SMap SeqEnt := []
  maps : SMap MapEnt := []
  ring : List Nat := []
  queues : SMap (List CtxReq) := []
  tenants : SMap TenantRec := []
  chans : SMap Chan := []
  stackOut : BitVec 6 := 0
  lost : Bool := false
  cfgLocked : Bool := false
  badReq : Bool := false
  poolEmpty : Bool := false
  permErr : Bool := false
  windowErr : Bool := false
  uncorrSeen : Bool := false
  staleDrop : Bool := false
  arbStarve : Bool := false
  starveIrq : Bool := true
  refPostpone : BitVec 4 := 8
  starveRounds : BitVec 16 := 4096
  cap : Option (Nat × Nat × Nat) := none
  capLast : Nat × Nat × Nat := (0, 0, 0)
  poolPush : BitVec 24 := 0
  seqSel : BitVec 15 := 0
  stale : Nat := 0
  uncorr : Nat := 0
  corr : Nat := 0
  preempt : Nat := 0
  starve : Nat := 0
  badReads : SMap Nat := []
  deriving DecidableEq, Repr, Inhabited

/-- A directory entry of the Tilent store (09 R257): STATE 1 writing, 2 stored. -/
structure DirEnt where
  st : Nat
  first : Nat
  blocks : Nat
  nPanels : Nat
  name : BitVec 256
  model : BitVec 128
  setDigest : BitVec 512
  layout : BitVec 512
  slice : Nat
  slices : Nat
  key : Nat
  seq : Nat
  deriving DecidableEq, Repr, Inhabited

/-- The library part of the Tilent store (09 R255, R257), non-volatile: both directory copies with their sequence numbers, each copy's trailer
digest as its difference from the digest of the entries, and images by first block. -/
structure Store where
  seq0 : Nat := 0
  dir0 : SMap (Option DirEnt) := []
  diff0 : BitVec 512 := 0
  seq1 : Nat := 0
  dir1 : SMap (Option DirEnt) := []
  diff1 : BitVec 512 := 0
  lib : SMap (Option WImage) := []
  deriving DecidableEq, Repr, Inhabited

/-- The state of a bank record (09 R264). -/
inductive BankSt where
  | empty | loading | resident | live
  deriving DecidableEq, Repr, Inhabited

/-- A bank record (09 R264). -/
structure BankRec where
  st : BankSt := .empty
  set : BitVec 512 := 0
  layout : BitVec 512 := 0
  panel : BitVec 512 := 0
  layer : Nat := 0
  head : Nat := 0
  deriving DecidableEq, Repr, Inhabited

/-- A select in progress (09 R264–R270). `cmd` is none for a start-up weight set. -/
structure Select where
  idx : Nat
  loadOnly : Bool
  switch : Bool
  cmd : Option Nat
  cover : List Nat
  load : List Nat
  left : List Nat
  flips : List Nat
  swapping : Bool := false
  plans : List Nat := []
  toFlip : List Nat := []
  stepNs : Nat := 0
  deriving DecidableEq, Repr, Inhabited

/-- The weight library's volatile part (chapter 09). Bank records are keyed by 2·panel + bank; measured digests by set
directory index: (time, digest). -/
structure Weights where
  devBad : BitVec 16 := 0
  uncorr : Bool := false
  devFail : Bool := false
  nonce : Option (BitVec 256 × Nat) := none
  banks : SMap BankRec := []
  sel : Option Select := none
  startQ : List (Nat × Bool × Bool) := []
  measured : SMap (Option (Nat × BitVec 512)) := []
  checkErr : Bool := false
  deriving DecidableEq, Repr, Inhabited

/-- A message between modules (10 R294, 12 R339). -/
inductive FabMsg where
  | genNotice (plan : Nat) (st : Nat) (gen : BitVec 8)
  | stepOrder (plan stepNo prog : Nat) (swap rerun : Bool) (slots : List SlotEnt) (recs : List StepRec)
  | stepReport (plan stepNo : Nat) (late resident : Bool) (measured : Nat)
  | stepAbort (plan stepNo : Nat)
  | keyRequest (m : KeyMsg)
  | keyGrant (m : KeyMsg)
  | keyAck (session : Nat)
  deriving DecidableEq, Repr, Inhabited

/-- A coordinate record (10 R281). -/
structure Coords where
  rack : Nat
  slot : Nat
  planes : List Nat
  deriving DecidableEq, Repr, Inhabited

/-- A port's state (10 R300). -/
inductive PortSt where
  | dark | training | up | down | quarantined | wiringErr
  deriving DecidableEq, Repr, Inhabited

/-- A framed flit that waits to be sent: the logical plane and the attach link of its message (10 R279, R290; 32 for Novko's own). -/
structure TxFlit where
  plane : Nat
  link : Nat
  f : Flit
  deriving DecidableEq, Repr, Inhabited

/-- A fabric port (10 R276–R291). Credits are per VC: `tx` what the port may send, `rx` what its partner may. `open_`
counts the flits of the message that comes in on a VC, `asm` holds them until its last; `drop` marks the rest of a message to be discarded;
`owed` counts buffers freed and not yet returned; `queue` holds framed flits that wait for credit, `sent` those not acknowledged. By VC, `txOpen`
is the attach link (+ 1) whose message is going out and `rr` the one last granted. `ackAt` is when an ACK last advanced or flits became
outstanding, `ctrlAt` when a CONTROL flit was last sent; `stripe` the SEQ where striping last started. -/
structure Port where
  st : PortSt := .dark
  width : Nat := 0
  lanes : BitVec 8 := 0
  rack : Nat := 0
  linkId : Option (Nat × Nat × Nat) := none
  disable : BitVec 8 := 0
  minWidth : BitVec 2 := 0
  retrain : Bool := false
  trainAt : Nat := 0
  trainedOnce : Bool := false
  changing : Bool := false
  txSeq : Nat := 0
  acked : Nat := 0xFFF
  sent : List (Nat × Flit) := []
  queue : List TxFlit := []
  txOpen : SMap Nat := []
  rr : SMap Nat := []
  stripe : Nat := 0
  ackAt : Nat := 0
  ctrlAt : Nat := 0
  owed : List Nat := [0, 0, 0, 0]
  asm : SMap (List Flit) := []
  burst : Nat := 0
  replays : Nat := 0
  rxSeq : Nat := 0
  nakPending : Bool := false
  tx : List Nat := [32, 32, 32, 32]
  rx : List Nat := [32, 32, 32, 32]
  open_ : SMap Nat := []
  drop : SMap Bool := []
  ctrl : Bool := false
  degraded : Bool := false
  retrySeen : Bool := false
  violSeen : Bool := false
  viol : Nat := 0
  retry : Nat := 0
  uncorr : Nat := 0
  corrK : Nat := 0
  eyes : BitVec 64 := 0
  winAt : Nat := 0
  winN : Nat := 0
  deriving DecidableEq, Repr, Inhabited

/-- An entry of the Fabric die's stream table (10 R285). -/
structure FsEnt where
  plan : Nat
  plane : Nat
  vc : Nat
  dst : Nat
  target : BitVec 40
  session : Nat
  deriving DecidableEq, Repr, Inhabited

/-- The Fabric die (chapter 10). `mgmtQ` holds Novko's messages to be framed: destination, session, VC. -/
structure Fabric where
  held : Option Coords := none
  coords : Option Coords := none
  addr : Nat := 0
  violLimit : BitVec 8 := 16
  peerTimeout : BitVec 8 := 10
  noPeer : Bool := false
  targetErr : Bool := false
  authFail : Bool := false
  staleDrop : Bool := false
  cfgLocked : Bool := false
  noPeerCnt : Nat := 0
  staleCnt : Nat := 0
  targetCnt : Nat := 0
  authCnt : Nat := 0
  ports : SMap Port := []
  streams : SMap (Option FsEnt) := []
  peers : SMap (Option (BitVec 8)) := []
  mgmtQ : List (Nat × Nat × Nat × FabMsg) := []
  deriving DecidableEq, Repr, Inhabited

/-- A captured command (11 R306, R307). -/
structure Cmd where
  id : Nat
  op : Nat
  flags : Nat
  argLen : Nat
  tag : Nat
  seq : Nat
  args : List Byte
  headerOk : Bool
  taken : Bool := false
  at_ : Nat := 0
  deriving DecidableEq, Repr, Inhabited

/-- A completion slot's contents (11 R306). -/
structure Compl where
  op : Nat
  status : Nat
  detail : Nat
  tag : Nat
  result : List Byte
  seq : Nat
  deriving DecidableEq, Repr, Inhabited

/-- A mailbox slot pair: the command slot's bytes, its last taken sequence value and the command it holds, and the
completion slot. -/
structure Slot where
  mem : SMap Byte := []
  last : Nat := 0
  cmd : Option Cmd := none
  comp : Option Compl := none
  deriving DecidableEq, Repr, Inhabited

/-- What a taken command waits for. -/
inductive WaitKind where
  | planStart (plan : Nat)
  | planStop (plan : Nat)
  | planUnload (plan : Nat)
  | select
  | leader (session : Nat)
  | follower (session : Nat)
  | resume
  deriving DecidableEq, Repr, Inhabited

/-- A taken command that has not completed. -/
structure Wait where
  id : Nat
  fn : Nat
  slot : Nat
  kind : WaitKind
  since : Nat
  deriving DecidableEq, Repr, Inhabited

/-- The host interface (chapter 11). Slots are keyed by 4·function + slot, MSI-X bits by 64·function + vector, function
counters by 4,096·function + offset. -/
structure HostIf where
  linkUp : Bool := false
  speed : Nat := 0
  busMaster : SMap Bool := []
  numVfs : Nat := 0
  unmasked : SMap Bool := []
  msixPend : SMap Bool := []
  msix : SMap Byte := []
  expert : SMap Bool := []
  slots : SMap Slot := []
  order : List (Nat × Nat) := []
  nextCmd : Nat := 0
  waits : List Wait := []
  lastReq : SMap Nat := []
  cnts : SMap Nat := []
  sevSel : BitVec 2 := 1
  perst : Bool := false
  tlpErr : Bool := false
  dmaErr : Bool := false
  busyWrite : Bool := false
  dmaCnt : Nat := 0
  busyCnt : Nat := 0
  fnSel : BitVec 11 := 0
  deriving DecidableEq, Repr, Inhabited

/-- The Keep NVM (12 R329): owner keys as (roles, public key), voucher counter and minimum security version. -/
structure KeepNvm where
  owners : SMap (Option (Nat × List Byte)) := []
  voucher : Nat := 0
  minSvn : Nat := 0
  deriving DecidableEq, Repr, Inhabited

/-- A host session (12 R336–R338), by function: `keys` holds K(s, d) at 2·s + d. -/
structure HostSess where
  stream : Nat
  require : Bool
  active : Bool := false
  keys : List (List Byte) := []
  deriving DecidableEq, Repr, Inhabited

/-- A fabric session (12 R339–R342), by index; `secret` is a leader's S, `key` the session key. -/
structure FabSess where
  leader : Bool
  owner : Nat
  addr : Nat
  peers : List Nat := []
  acks : List Nat := []
  opened : Bool := false
  keyed : Bool := false
  secret : List Byte := []
  key : List Byte := []
  reqAt : Nat := 0
  deriving DecidableEq, Repr, Inhabited

/-- The Keep (chapter 12). Send counters are keyed by 64·session + 4·plane + VC, receive counters by
(session·2^16 + source)·64 + 4·plane + VC. `startSeed` is the start key pair's, `draws` counts requests to the DRBG since it was last seeded. -/
structure Keep where
  identityOk : Bool := false
  selftestOk : Bool := false
  entropyOk : Bool := false
  unsealed : Bool := false
  failSeen : Bool := false
  ideDrop : Bool := false
  drops : Nat := 0
  failAt : Nat := 0
  draws : Nat := 0
  reseedAt : Nat := 0
  retestAt : Option Nat := none
  startSeed : List Byte := []
  hostSess : SMap (Option HostSess) := []
  fabSess : SMap (Option FabSess) := []
  ivTx : SMap Nat := []
  ivRx : SMap Nat := []
  deriving DecidableEq, Repr, Inhabited

/-- A strike (13 R355): detector row, unit (bay number, 1,152 + k for CTX k, or 2,048 + panel key), and its time. -/
structure Strike where
  row : Nat
  unit : Nat
  at_ : Nat
  deriving DecidableEq, Repr, Inhabited

/-- Recovery and its evidence (chapter 13). `fences` holds cause + 1 by bay; `newFences` those that take effect at the
next compute reset stage; `redig` and `hbmDue` ask for their stages; `redigest` holds panels that raised row 3. Stages are
numbered as in CTL_RES_STATUS.STAGE; `planned` and `ran` are masks in the order of the table of stages (13 R378); `sampled` is when the
stroke counts were last sampled (R364), `retrainQ` the ports the fabric retrain stage still has to train, the one in training first. -/
structure Resil where
  strikes : List Strike := []
  fences : SMap Nat := []
  newFences : List (Nat × Nat) := []
  unfences : List Nat := []
  coresUp : BitVec 4 := 15
  expiries : List (Nat × Nat) := []
  stage : Nat := 0
  planned : BitVec 8 := 0
  ran : BitVec 8 := 0
  cause : Nat := 0
  abort : Bool := false
  entered : Nat := 0
  resets : List Nat := []
  allResets : List Nat := []
  again : Bool := false
  fencedNow : Nat := 0
  redig : Bool := false
  hbmDue : Bool := false
  redigest : List Nat := []
  degraded : List Nat := []
  hangWindow : BitVec 8 := 50
  redigestAlways : Bool := false
  armRate : BitVec 9 := 128
  armed : Nat := 0
  missing : Nat := 0
  mismatch : Nat := 0
  sampled : Option Nat := none
  retrainQ : List Nat := []
  deriving DecidableEq, Repr, Inhabited

/-- A channel of the housekeeping ADC (14 R388): the converter's clamped code and its register's other fields. -/
structure AdcCh where
  code : Int := 0
  ovr : Bool := false
  stale : Bool := true
  cnt : Nat := 0
  deriving DecidableEq, Repr, Inhabited

/-- A reference ladder (14 R391, R392): trim, its channel's last 64 codes, a step asked for, whether its limit was
logged, and when the last step has settled. -/
structure Ladder where
  trim : Int := 0
  codes : List Int := []
  step : Int := 0
  limited : Bool := false
  settled : Nat := 0
  deriving DecidableEq, Repr, Inhabited

/-- A temperature sensor (14 R398–R400), values in 1/16 °C, and the time of its last reading. -/
structure Sensor where
  seen : Bool := false
  val : Int := 0
  good : Int := 0
  band : Nat := 0
  broken : Bool := false
  differs : Nat := 0
  at_ : Option Nat := none
  deriving DecidableEq, Repr, Inhabited

/-- A leaf's throttling (14 R401, R402): level, mode in force, and when it last rose, changed and logged 0x8030. -/
structure LeafThr where
  level : Nat := 0
  skip : Bool := false
  rose : Option Nat := none
  changed : Option Nat := none
  logged : Option Nat := none
  manual : BitVec 2 := 0
  power : Nat := 0
  deriving DecidableEq, Repr, Inhabited

/-- The start-up calibration's result (14 R393): its module time, each leaf's band then, and the residuals measured. -/
structure StartCal where
  at_ : Nat
  bands : SMap (Option Nat)
  res : BitVec 8
  exc : SMap (Option (BitVec 8))
  deriving DecidableEq, Repr, Inhabited

/-- Sensing, throttling and calibration (chapter 14). `convAt` and `convLow` are the start and the mode of the conversion under way, `calAt`
and `trimAt` when the CAL_PERIOD timer started and the ladders were last compared; `winAt` is the start of the 1 ms window, `areaV` and
`areaP` the integrals over it, to `areaAt`, of channel 1's code and of `power`, the last product of the codes of channels 2 and 1. -/
structure Sense where
  scanning : Bool := false
  calBusy : Bool := false
  cur : Nat := 0
  lowPower : Bool := false
  leftAlign : Bool := false
  calPeriod : Nat := 10
  chen : BitVec 32 := BitVec.allOnes 32
  calFail : Bool := false
  offset : Int := 0
  gain : Int := 0
  refState : Nat := 0
  refEver : Bool := false
  refLost : Nat := 0
  chans : SMap AdcCh := []
  ladders : SMap Ladder := []
  temps : SMap Sensor := []
  thrMode : Bool := false
  thrOff : BitVec 8 := 96
  thrOn : BitVec 8 := 100
  over105 : Bool := false
  t3 : Bool := false
  throttle : Bool := false
  brokenSeen : Bool := false
  skimMaxAge : BitVec 8 := 10
  leaves : SMap LeafThr := []
  vin : Nat := 0
  pin : Nat := 0
  xingMerged : Nat := 0
  xingOvr : BitVec 6 := 0
  convAt : Nat := 0
  convLow : Bool := false
  calAt : Nat := 0
  trimAt : Option Nat := none
  winAt : Nat := 0
  areaAt : Nat := 0
  areaV : Int := 0
  areaP : Int := 0
  power : Int := 0
  startCal : Option StartCal := none
  deriving DecidableEq, Repr, Inhabited

/-- The failure that holds the module in PRIMED (15 R412). -/
structure PrimerRec where
  cause : Nat
  alg : Nat
  bankA : Nat
  bankB : Nat
  minSvn : Nat
  keepBits : BitVec 4
  deriving DecidableEq, Repr, Inhabited

/-- A configuration slot of the Tilent store (15 R414); `committed` is its marker. -/
structure CfgSlot where
  seq : Nat
  image : List Byte
  digest : BitVec 512
  committed : Bool
  deriving DecidableEq, Repr, Inhabited

/-- A bay's home CTL attachment and the route entries to and from it (06 R427). -/
structure Home where
  att : Nat
  up : BitVec 64
  down : BitVec 64
  deriving DecidableEq, Repr, Inhabited

/-- Start-up state (chapter 15), lost at OFF. `homes` lists the bays whose home is not the direct one of a mesh without faults (06 R427). `joined`: the module has joined the I3C bus (01 R20). Die-crossing links are keyed by link: 1 trained, 2 failed. -/
structure Boot where
  joined : Bool := false
  homes : SMap (Option (Option Home)) := []
  hold : Option PrimerRec := none
  fwBank : Nat := 0
  runSvn : Nat := 0
  runVer : Nat := 0
  fwDigest : BitVec 512 := 0
  cfgCheck : Nat := 0
  slot : Nat := 0
  inForce : Bool := false
  staged : Option (List Byte) := none
  cfgDigest : BitVec 512 := 0
  plimit : SMap Nat := []
  portEnable : BitVec 16 := 0xFFFF
  auditMin : Nat := 16
  auditSalt : BitVec 64 := 0
  d2d : SMap Nat := []
  hbmUp : BitVec 12 := 0
  hbmEnded : BitVec 12 := 0
  startFences : List Nat := []
  startSets : List (Nat × Bool × Bool) := []
  deriving DecidableEq, Repr, Inhabited

/-- What outlives OFF in the on-package flash and the configuration area (15 R411, R414). As made, both banks hold Novko
and no configuration image is enrolled (15 R418; log 93). -/
structure Flash where
  bankA : FwImage := { ok := true }
  bankB : FwImage := { ok := true }
  active : Nat := 0
  slot0 : Option CfgSlot := none
  slot1 : Option CfgSlot := none
  deriving DecidableEq, Repr, Inhabited

/-- A snag record (00 R15), without its number and its reserved bytes. -/
structure Snag where
  code : Nat
  sev : Nat
  gen : BitVec 8
  src : BitVec 32
  ts : Nat
  args : List Nat
  deriving DecidableEq, Repr, Inhabited

/-- The stepping (00 R1, 15 R423). -/
inductive Stepping where
  | a0 | b0
  deriving DecidableEq, Repr, Inhabited

/-- PLDM completion codes by name; their numbers are DSP0240's (01 R429, 10 R282). -/
inductive PldmCode where
  | success | errorNotReady | errorUnsupportedPldmCmd | errorInvalidPldmType | errorInvalidLength | errorInvalidData
  deriving DecidableEq, Repr, Inhabited

/-- A message of a bay to CTL on VC2 (04 R132, 05 R169, 09 R265, 13 R362). -/
inductive BayMsg where
  | fault (gen : BitVec 8) (kinds : BitVec 4) (panels : BitVec 32) (cnt : Nat)
  | stepDone (gen : BitVec 8)
  | panelDone (panel : Nat) (gen : BitVec 8)
  | audit (gen : BitVec 8) (stroke : Nat) (crc : BitVec 64)
  deriving DecidableEq, Repr, Inhabited

/-- A message of Novko to a bay (05 R141, 09 R265, R268; 13 R362; 06 R428). -/
inductive NovkoMsg where
  | release (gen : BitVec 8) (prog : Nat) (slots : List SlotEnt)
  | swapArm (gen : BitVec 8) (ents : List (Nat × BitVec 32))
  | swapFlip (gen : BitVec 8) (layer : Nat)
  | auditArm (gen : BitVec 8) (stroke : Nat)
  | spWrite (gen : BitVec 8) (line : Nat) (data : List Byte)
  | weightRows (gen : BitVec 8) (panel bank : Nat) (rows : SMap (BitVec 1024))
  deriving DecidableEq, Repr, Inhabited

/-- What a port sends: a framed message, a replay, or a control flit (10 R279–R291). -/
inductive PortOut where
  | data (lane : Nat) (f : Flit)
  | idle (ack : Nat) (credit : List Nat)
  | replay (seq : Nat)
  | linkId (buffers : Nat)
  | width (w : Nat)
  | nak (reason seq vc : Nat)
  deriving DecidableEq, Repr, Inhabited

/-- What the module sends, newest first in `State.out` (the model's own record: no rule reads it). -/
inductive Output where
  | irq (fn vec : Nat)
  | hostWrite (fn addr : Nat) (b : List Byte) (stream : Option Nat)
  | pldm (ty cmd : Nat) (cc : PldmCode) (b : List Byte)
  | hotJoin
  | mctp (code : Byte) (b : Nat)
  | bayMsg (bay : Nat) (m : BayMsg)
  | novko (bay : Nat) (m : NovkoMsg)
  | fabric (dst : Nat) (m : FabMsg)
  | port (p : Nat) (x : PortOut)
  | fabIn (src : Nat) (ls : List Line)
  | regRead (off : Nat) (v : Word) (stream : Option Nat)
  | slotRead (fn slot : Nat) (b : List Byte) (stream : Option Nat)
  | winRead (fn off : Nat) (b : List Byte) (stream : Option Nat)
  | cfgRead (fn dword : Nat) (v : Word)
  | unsupported (fn : Nat)
  | ide (fn : Nat) (status : Nat)
  | spdm (b : Nat)
  deriving DecidableEq, Repr, Inhabited

/-- The tenants' snapshot at the last 10 ms boundary and the power means of the last 100 ms (12 R346, R347). Power
is summed in 0.125 W (input) and 0.01 W (leaves) over the 1 ms windows. -/
structure Snapshot where
  time : Nat := 0
  panels : SMap Panel := []
  bays : SMap Bay := []
  rtrs : SMap Router := []
  ctx0 : CtxDie := {}
  ctx1 : CtxDie := {}
  fab : Fabric := {}
  resil : Resil := {}
  sense : Sense := {}
  windows : Nat := 0
  sumIn : Nat := 0
  sumLeaf : SMap Nat := []
  meanIn : Nat := 0
  meanLeaf : SMap Nat := []
  deriving DecidableEq, Repr, Inhabited

/-- The whole machine. Sparse maps: bays and routers by bay number die·72 + bay, panels by 32·bay number + panel,
lines at an edge die by 64·die + attach link, tenants' page table entries (07 R207) by 2^25·tenant + LPN, loaded plans in order of loading, requests in order of acceptance. -/
structure State where
  part : Stepping := .b0
  epoch : Nat := 0
  now : Nat := 0
  leftOff : Nat := 0
  free : Nat := 0
  mode : Mode := .off
  gen : BitVec 8 := 1
  pwr : Power := {}
  boot : Boot := {}
  flash : Flash := {}
  nvm : KeepNvm := {}
  store : Store := {}
  sense : Sense := {}
  panels : SMap Panel := []
  bays : SMap Bay := []
  rtrs : SMap Router := []
  edgeQ : SMap (List MLine) := []
  ctx0 : CtxDie := {}
  ctx1 : CtxDie := {}
  pages : SMap (BitVec 32) := []
  prefixes : SMap (Option Prefix) := []
  plans : List Loaded := []
  reqs : List Req := []
  weights : Weights := {}
  fab : Fabric := {}
  host : HostIf := {}
  keep : Keep := {}
  snap : Snapshot := {}
  resil : Resil := {}
  intr : SMap Nat := []
  snags : List Snag := []
  snagNext : Nat := 0
  out : List Output := []
  pending : List Instr := []
  deriving DecidableEq, Repr, Inhabited

/-- The machine right after reset: no input power, OFF, every register at its reset value. -/
def State.reset : State := {}

/-- Faults of the model. No command of the table ends in one: every row has its effect. -/
inductive Fault where
  /-- Raised by no command; it keeps the type inhabited. Safe. -/
  | none
  deriving DecidableEq, Repr

/-- Refusals of the model. -/
inductive Refusal where
  /-- Raised by the arms of `exec` that have no meaning yet. Safe: the model stops where the module goes on. -/
  | notModelled (mnemonic : String)
  deriving DecidableEq, Repr

end Sys2Proof.Machine
end

