-- ==== Sys2Proof/Machine/Operands.lean ====
section
/-! DEFINITION. Bit fields, bytes, number formats and tensors in scratchpad lines (chapters 03–05). -/

namespace Sys2Proof.Machine

/-- Bits [lo + n − 1 : lo] as a number (00 R7). -/
def fld {w : Nat} (v : BitVec w) (lo n : Nat) : Nat := (v.extractLsb' lo n).toNat

/-- The indices below `n` whose bit is set. -/
def bitsOf {w : Nat} (v : BitVec w) (n : Nat) : List Nat := (List.range n).filter fun i => v.getLsbD i

/-- The first value of a sparse map at `k`, else the default. -/
def mget {α : Type} (d : α) : SMap α → Nat → α
  | [], _ => d
  | (j, v) :: m, k => if j = k then v else mget d m k

/-- An entry put into a sparse map, its keys rising. -/
def minsert {α : Type} : SMap α → Nat → α → SMap α
  | [], k, v => [(k, v)]
  | (j, u) :: m, k, v => if k < j then (k, v) :: (j, u) :: m else (j, u) :: minsert m k v

/-- Write a sparse map: keys stay rising, and the default value leaves no entry. -/
def mset {α : Type} [DecidableEq α] (d : α) (m : SMap α) (k : Nat) (v : α) : SMap α :=
  let m := m.filter fun e => e.1 != k
  if v = d then m else minsert m k v

/-- The one form of a sparse map: its keys rise strictly and no entry holds the default, so that equal contents are equal
data. -/
abbrev Canonical {α : Type} (d : α) (m : SMap α) : Prop := m.Pairwise (fun a b => a.1 < b.1) ∧ ∀ e ∈ m, e.2 ≠ d

/-- Little-endian bytes of a number (00 R7). -/
def leBytes : Nat → Nat → List Byte
  | 0, _ => []
  | n + 1, x => BitVec.ofNat 8 x :: leBytes n (x / 256)

/-- The number little-endian bytes spell (00 R7). -/
def leNat : List Byte → Nat
  | [] => 0
  | b :: bs => b.toNat + 256 * leNat bs

/-- `n` bytes from offset `o`, zero past the end. -/
def bytesAt (bs : List Byte) (o n : Nat) : List Byte :=
  let r := (bs.drop o).take n
  r ++ List.replicate (n - r.length) 0

/-- The little-endian number of `n` bytes at offset `o`. -/
def natAt (bs : List Byte) (o n : Nat) : Nat := leNat (bytesAt bs o n)

/-- Add to a counter that saturates. -/
def satAdd (x k lim : Nat) : Nat := min (x + k) lim

/-- One byte of a CRC-64 with the ECMA-182 polynomial (13 R362); start value 0, no reflection (PRESUMED, log 31). -/
def crc64Byte (c : BitVec 64) (b : Byte) : BitVec 64 :=
  (List.range 8).foldl (fun c _ => if c.getLsbD 63 then (c <<< 1) ^^^ 0x42F0E1EBA9EA3693 else c <<< 1)
    (c ^^^ (b.setWidth 64 <<< 56))

/-! ### Formats -/

/-- A tensor's format (03 R79). -/
inductive Fmt where
  | int (n : Nat) (sgn : Bool)
  | bx (wide : Bool)
  | f16
  | f32
  | i32
  | bad
  deriving DecidableEq, Repr

/-- The format a descriptor names (03 R79). -/
def Fmt.ofDesc (d : BitVec 32) : Fmt :=
  let f := fld d 0 4
  if f < 8 then .int (f + 1) (d.getLsbD 4 && f != 0)
  else if f = 8 then .bx false
  else if f = 9 then .bx true
  else if f = 10 then .f16
  else if f = 11 then .f32
  else if f = 12 then .i32
  else .bad

/-- TENSOR_ID (03 R79). -/
def descId (d : BitVec 32) : BitVec 16 := d.extractLsb' 16 16

/-- EREF (03 R79). -/
def descEref (d : BitVec 32) : Nat := fld d 8 8

/-- SR (03 R79). -/
def descSr (d : BitVec 32) : Bool := d.getLsbD 5

/-- Bits an element occupies (03 R74, R76, R77). -/
def Fmt.bits : Fmt → Nat
  | .int n _ => if n ≤ 2 then n else if n ≤ 4 then 4 else 8
  | .bx w => if w then 8 else 4
  | .f16 => 16
  | _ => 32

/-- The format's values are integers (04 R117). -/
def Fmt.isInt : Fmt → Bool
  | .int _ _ => true
  | .i32 => true
  | _ => false

/-- The format is block-scaled. -/
def Fmt.isBx : Fmt → Bool
  | .bx _ => true
  | _ => false

/-- The largest element magnitude the device writes in a BX block (03 R94). -/
def Fmt.limit : Fmt → Nat
  | .bx true => 127
  | _ => 7

/-- Lines of the element array of `v` elements. -/
def Fmt.elemLines (f : Fmt) (v : Nat) : Nat := (v * f.bits + 511) / 512

/-- Lines of the exponent side vector (03 R76). -/
def Fmt.expLines (f : Fmt) (v : Nat) : Nat := if f.isBx then ((v + 31) / 32 + 63) / 64 else 0

/-- Lines of a tensor of `v` elements (05 R147). -/
def Fmt.lines (f : Fmt) (v : Nat) : Nat := f.elemLines v + f.expLines v

/-! ### Reading -/

/-- `n` lines from `l`, as one little-endian number. -/
def gather (rd : Nat → BitVec 512) (l n : Nat) : Nat :=
  (List.range n).foldr (fun i acc => (rd (l + i)).toNat + 2 ^ 512 * acc) 0

/-- Element `i`'s container (03 R74). -/
def slotOf (x c i : Nat) : Nat := x / 2 ^ (c * i) % 2 ^ c

/-- A two's-complement number of n bits. -/
def twos (n x : Nat) : Int := if x % 2 ^ n < 2 ^ (n - 1) then (x % 2 ^ n : Nat) else (x % 2 ^ n : Nat) - (2 ^ n : Int)

/-- An element read from its container; upper container bits are ignored (03 R74). Not for BX. -/
def Fmt.readElem (f : Fmt) (raw : Nat) : Num :=
  match f with
  | .int n sgn => .ofInt (if sgn then twos n raw else (raw % 2 ^ n : Nat))
  | .f16 => fmt16.decode raw
  | .f32 => fmt32.decode raw
  | .i32 => .ofInt (twos 32 raw)
  | _ => .fin false 0 0

/-- The values of a tensor of `v` elements at line `l` (03 R74–R77). -/
def readTensor (rd : Nat → BitVec 512) (f : Fmt) (l v : Nat) : List Num :=
  let x := gather rd l (f.elemLines v)
  match f with
  | .bx w =>
    let c := if w then 8 else 4
    let e := gather rd (l + f.elemLines v) (f.expLines v)
    (List.range v).map fun i =>
      let ex := slotOf e 8 (i / 32)
      if ex = 255 then .fin false 0 0 else .scaled (twos c (slotOf x c i)) ((ex : Int) - 127)
  | _ => (List.range v).map fun i => f.readElem (slotOf x f.bits i)

/-- The integers of a tensor of an integer format. -/
def readInts (rd : Nat → BitVec 512) (f : Fmt) (l v : Nat) : List Int :=
  (readTensor rd f l v).map fun x => match x with | .fin n m _ => signed n m | _ => 0

/-- `n` scale table entries from line `l` (03 R92). -/
def readScales (rd : Nat → BitVec 512) (l n : Nat) : List Scale :=
  let x := gather rd l ((n * 64 + 511) / 512)
  (List.range n).map fun i => .ofBits (BitVec.ofNat 64 (slotOf x 64 i))

/-! ### Narrowing and writing -/

/-- The inputs of a stroke's rounding stages (05 R145). -/
structure RoundCtx where
  seed : BitVec 64
  layer : BitVec 16
  pos : BitVec 32
  deriving DecidableEq, Repr

/-- How element `idx` of a tensor is rounded (03 R95–R98). -/
def RoundCtx.mode (c : RoundCtx) (d : BitVec 32) (idx : Nat) : Rnd :=
  if descSr d then .sr (rng c.seed c.layer c.pos (descId d) (BitVec.ofNat 32 idx)) else .rne

/-- Narrowed values: element containers, exponents, and the positions that saturated (false low, true high). -/
structure Narrowed where
  elems : List Nat
  exps : List Nat := []
  sats : List (Nat × Bool) := []
  deriving DecidableEq, Repr

/-- Narrow one BX block whose first element has position `k0` in the result (03 R94). -/
def narrowBlock (c : RoundCtx) (d : BitVec 32) (f : Fmt) (base k0 : Nat) (xs : List Num) : Nat × List (Int × Option Bool) :=
  let ex := bxExp xs f.limit
  (ex, xs.zipIdx.map fun e => bxElem e.1 f.limit ex (c.mode d (base + k0 + e.2)))

/-- Cut a list into blocks of 32, `n` of them. -/
def blocks32 {α : Type} : Nat → List α → List (List α)
  | 0, _ => []
  | n + 1, l => l.take 32 :: blocks32 n (l.drop 32)

/-- Positions that saturated. -/
def satsOf (l : List (Option Bool)) : List (Nat × Bool) :=
  (l.zipIdx.filterMap fun e => e.1.map fun h => (e.2, h))

/-- Narrow a result into the tensor of entry `te` (03 R90–R95, 04 R117): element k has index ELEM_BASE + `off` + k. -/
def narrow (c : RoundCtx) (te : BitVec 64) (off : Nat) (xs : List Num) : Narrowed :=
  let d : BitVec 32 := te.extractLsb' 0 32
  let base := fld te 32 32 + off
  match Fmt.ofDesc d with
  | .int n sgn =>
    let r := intRange n sgn
    let ys := xs.zipIdx.map fun e => e.1.toRange r.1 r.2 (c.mode d (base + e.2))
    { elems := ys.map fun y => (y.1 % 2 ^ (Fmt.int n sgn).bits).toNat, sats := satsOf (ys.map (·.2)) }
  | .i32 =>
    let ys := xs.zipIdx.map fun e => e.1.toRange (-(2 ^ 31)) (2 ^ 31 - 1) (c.mode d (base + e.2))
    { elems := ys.map fun y => (y.1 % 2 ^ 32).toNat, sats := satsOf (ys.map (·.2)) }
  | .f16 => { elems := xs.zipIdx.map fun e => fmt16.encode e.1 (c.mode d (base + e.2)) }
  | .f32 => { elems := xs.zipIdx.map fun e => fmt32.encode e.1 (c.mode d (base + e.2)) }
  | .bx w =>
    let bs := (blocks32 ((xs.length + 31) / 32) xs).zipIdx.map fun b =>
      narrowBlock c d (.bx w) base (32 * b.2) b.1
    let ys := bs.flatMap (·.2)
    { elems := ys.map fun y => (y.1 % (if w then 2 ^ 8 else 2 ^ 4)).toNat, exps := bs.map (·.1),
      sats := satsOf (ys.map (·.2)) }
  | .bad => { elems := [] }

/-- Pack containers of `c` bits, little-endian, with `fill` above them. -/
def packElems (c fill : Nat) (xs : List Nat) : Nat := xs.foldr (fun v acc => v % 2 ^ c + 2 ^ c * acc) fill

/-- A byte mask of the first `n` bytes of a line. -/
def lineMask (n : Nat) : BitVec 64 := BitVec.ofNat 64 (2 ^ min n 64 - 1)

/-- The line writes that store `nbytes` bytes of a little-endian number from line `l` (04 R109). -/
def splitWrites (client l nbytes x : Nat) : List SpWrite :=
  (List.range ((nbytes + 63) / 64)).map fun i =>
    { client := client, line := l + i, data := BitVec.ofNat 512 (x / 2 ^ (512 * i)), mask := lineMask (nbytes - 64 * i) }

/-- The writes that store narrowed values as a tensor at line `l` (03 R74, R76). -/
def Narrowed.writes (n : Narrowed) (client : Nat) (f : Fmt) (l fill : Nat) : List SpWrite :=
  splitWrites client l ((n.elems.length * f.bits + 7) / 8) (packElems f.bits fill n.elems) ++
    (if f.isBx then splitWrites client (l + f.elemLines n.elems.length) n.exps.length (packElems 8 0 n.exps) else [])

/-- Overlay the bytes a mask selects. -/
def overlay (old new : BitVec 512) (mask : BitVec 64) : BitVec 512 :=
  BitVec.ofNat 512 ((List.range 64).foldr
    (fun i acc => (if mask.getLsbD i then fld new (8 * i) 8 else fld old (8 * i) 8) + 256 * acc) 0)

end Sys2Proof.Machine

namespace Sys2Proof
open Machine

/-! ### SEC-DED words (04 R113) -/

/-- Changed bits of word `w`: data bits 64w to 64w + 63 and check bits 512 + 8w to 512 + 8w + 7. -/
def Line.wordFlips (x : Line) (w : Nat) : Nat :=
  ((List.range 64).filter fun i => x.flips.getLsbD (64 * w + i)).length +
    ((List.range 8).filter fun i => x.flips.getLsbD (512 + 8 * w + i)).length

/-- What a read of a word reports: no error, corrected, or uncorrectable. For three changed bits or more the spec
leaves it open: `free` chooses (DESIGN CHOICE, log 15). -/
def Line.wordErr (x : Line) (w free : Nat) : Nat :=
  let n := x.wordFlips w
  if n ≤ 2 then n else [2, 1, 0].getD (free % 3) 0

/-- The data a read returns: a word with one changed bit is corrected; another comes as it stands, and a miscorrected
one (three changed bits or more, taken for one) with one more bit wrong. -/
def Line.value (x : Line) (free : Nat) : BitVec 512 :=
  if x.flips = 0 then x.data
  else
    BitVec.ofNat 512 ((List.range 8).foldr (fun w acc =>
      let n := x.wordFlips w
      let d := fld x.data (64 * w) 64
      let raw := d ^^^ fld x.flips (64 * w) 64
      let v := if n ≤ 1 then d else if n = 2 then raw
        else if x.wordErr w free = 1 then raw ^^^ 2 ^ (free / 3 % 64) else raw
      v + 2 ^ 64 * acc) 0)

/-- The words of a line that a read finds in error: word number and error. -/
def Line.errs (x : Line) (free : Nat) : List (Nat × Nat) :=
  if x.flips = 0 then []
  else (List.range 8).filterMap fun w => let e := x.wordErr w free; if e = 0 then none else some (w, e)

/-- A bit of a line changes in its cells (04 R113). -/
def Line.flip (x : Line) (bit : Nat) : Line :=
  if bit < 576 then { x with flips := x.flips ^^^ BitVec.ofNat 576 (2 ^ bit) } else x

/-- A line as a scratchpad read port hands it on: words with one changed bit are corrected, the others keep their check
bits as stored (04 R113, 06 R176). -/
def Line.handOn (x : Line) : Line :=
  if x.flips = 0 then x
  else { x with flips := BitVec.ofNat 576 ((List.range 576).foldr (fun i acc =>
    let w := if i < 512 then i / 64 else (i - 512) / 8
    (if x.flips.getLsbD i && x.wordFlips w != 1 then 1 else 0) + 2 * acc) 0) }

/-- Words that a byte mask touches lose their changed bits: they are encoded anew. -/
def clearFlips (x : BitVec 576) (mask : BitVec 64) : BitVec 576 :=
  BitVec.ofNat 576 ((List.range 576).foldr (fun i acc =>
    let w := if i < 512 then i / 64 else (i - 512) / 8
    (if x.getLsbD i && fld mask (8 * w) 8 == 0 then 1 else 0) + 2 * acc) 0)

end Sys2Proof
end

