-- ==== Sys2Proof/Machine/Crypto.lean ====
section
/-! DEFINITION. The Keep's key derivation, its fixed keys, and the flit as bytes (12 R326, R330, R341; 10 R277, R278). -/

namespace Sys2Proof.Machine

/-- A digest (12 R330): 64 bytes of SHAKE256. -/
def digest (b : List Byte) : List Byte := leBytes 64 (Config.shake256 b).toNat

/-- The bytes of an ASCII string. -/
def ascii (s : String) : List Byte := s.toList.map fun c => BitVec.ofNat 8 c.toNat

/-- KDF (12 R326), n at most 64: the first n bytes of SHAKE256 over label, a zero byte, context and secret. -/
def kdf (label : String) (context secret : List Byte) (n : Nat) : List Byte :=
  (digest (ascii label ++ [0] ++ context ++ secret)).take n

/-- The PUF root, a 256-bit secret (12 R326). -/
def pufRoot : List Byte := bytesAt (Config.puf Config.helperData) 0 32

/-- The seed of the identity key (12 R326). -/
def identitySeed : List Byte := kdf "LX20 IDENTITY" [] pufRoot 64

/-- The identity public key (12 R326, R343). -/
def identityKey : List Byte := Config.falconPub identitySeed

/-- The store key and the XTS keys made from it (12 R326). -/
def storeKey : List Byte := kdf "LX20 STORE" [] pufRoot 32
def xtsDataKey : List Byte := kdf "LX20 XTS DATA" [] storeKey 32
def xtsTweakKey : List Byte := kdf "LX20 XTS TWEAK" [] storeKey 32

/-! ### The flit (10 R277, R278) -/

/-- Bytes 0 to 31 of a flit. -/
def headOf (f : Flit) : List Byte :=
  let bit (b : Bool) (n : Nat) : Nat := if b then n else 0
  let c (v : Nat) : Nat := f.credit.getD v 0 % 16 * 16 ^ v
  leBytes 1 (f.ftype % 16 + f.vc % 4 * 16 + bit f.first 64 + bit f.last 128) ++
  leBytes 1 (f.nlines % 16 + bit f.genAny 16 + bit f.enc 32 + fld f.rsv 0 2 * 64) ++
  leBytes 2 (f.seq % 4096 + fld f.rsv 2 4 * 4096) ++ leBytes 2 (f.ack % 4096 + fld f.rsv 6 4 * 4096) ++
  leBytes 2 (c 0 + c 1 + c 2 + c 3) ++ leBytes 2 f.dst ++ leBytes 2 f.src ++ leBytes 1 f.genSrc.toNat ++ leBytes 1 f.genDst.toNat ++
  leBytes 2 (f.session % 4096 + fld f.rsv 10 4 * 4096) ++ leBytes 8 f.iv.toNat ++ leBytes 5 f.target.toNat ++ leBytes 3 (fld f.rsv 14 24)

/-- A line slot: the line's 64 bytes and its 8 check bytes, as stored (04 R113). -/
def lineSlot (x : Line) : List Byte :=
  let words := (List.range 8).map fun w => x.data.extractLsb' (64 * w) 64
  leBytes 64 (fld x.data 0 512 ^^^ fld x.flips 0 512) ++
    words.zipIdx.map fun e => Config.secded e.1 ^^^ x.flips.extractLsb' (512 + 8 * e.2) 8

/-- Bytes 32 to 607 of a flit before encryption: the eight line slots, unused ones zero. -/
def slotsOf (f : Flit) : List Byte := bytesAt ((f.lines.take f.nlines).flatMap lineSlot) 0 576

/-- The GCM nonce (12 R341): IV_CTR, SRC_MOD and two zero bytes. -/
def nonceOf (f : Flit) : List Byte := leBytes 8 f.iv.toNat ++ leBytes 2 f.src ++ [0, 0]

/-- Ciphertext and tag of a flit under a session key (10 R278): the additional data is bytes 0–1 and 8–31. -/
def sealOf (key : List Byte) (f : Flit) : List Byte × BitVec 128 :=
  Config.gcm key (nonceOf f) ((headOf f).take 2 ++ (headOf f).drop 8) (slotsOf f)

/-- Bytes 0 to 623 of a flit. -/
def coveredOf (key : List Byte) (f : Flit) : List Byte :=
  headOf f ++ (if f.enc then (sealOf key f).1 else slotsOf f) ++ leBytes 16 f.tag.toNat

/-- The CRC-64 of a flit (10 R278). -/
def crcOf (key : List Byte) (f : Flit) : BitVec 64 := (coveredOf key f).foldl crc64Byte 0

/-- The 640 bytes of a flit (10 R278). -/
def flitBytes (key : List Byte) (f : Flit) : List Byte := coveredOf key f ++ leBytes 8 f.crc.toNat ++ leBytes 8 (fld f.rsv 38 64)

/-- The payload of the codeword that carries a flit on a logical lane (10 R277): marker, then flit. -/
def codeword (lane : Nat) (flit : List Byte) : BitVec 5140 :=
  BitVec.ofNat 5140 (0xA5C + lane % 8 * 2 ^ 12 + 2 ^ 20 * leNat flit)

end Sys2Proof.Machine
end

