-- ==== Sys2Proof/Machine/Ops.lean ====
section
/-! DEFINITION. Named operations over the state: time, free values, snags, outputs, and access to bays, panels and
routers. -/

namespace Sys2Proof.Machine

/-- A command comes about at time `t` (log 1); the clock never runs back. -/
def State.tick (s : State) (t : Nat) : State := { s with now := max s.now t }

/-- Module time: ns since the module last left OFF (00 R15). -/
def State.mtime (s : State) : Nat := s.now - s.leftOff

/-- The free value of this moment (log 3). -/
def State.freeVal (s : State) : Nat := Config.freeNat s.free

/-- A free value has been used. -/
def State.drawn (s : State) : State := { s with free := s.free + 1 }

/-- Novko runs, on at least one control core (01 R42, 13 R366, 15 R413). -/
def State.novkoUp (s : State) : Bool := s.mode != .off && s.mode != .primed && s.resil.coresUp != 0

/-- Record an output. -/
def State.emit (s : State) (o : Output) : State := { s with out := o :: s.out }

/-- The module address (10 R281, R282). Until coordinates are in force it is 0, also in the source of a snag (DESIGN CHOICE, log 174: the
manual gives 0xFFFF for DEVICE_INFO and attestation, and nothing for snags). -/
def State.moduleAddr (s : State) : Nat := s.fab.addr

/-- An intrusion of the source of this bit is recorded (05 R171). -/
def State.intrude (s : State) (bit : Nat) : State :=
  { s with intr := s.intr.filter (·.1 != bit) ++ [(bit, s.now)] }

/-! ### Functions, interrupts and visibility (11 R304, R318–R322) -/

/-- The function exists: the PF, or a VF that VF Enable and NumVFs cover (11 R325). -/
def State.fnExists (s : State) (fn : Nat) : Bool := decide (fn ≤ s.host.numVfs)

/-- The function holds expert level (11 R320). -/
def State.expert (s : State) (fn : Nat) : Bool := fn == 0 || mget false s.host.expert fn

/-- Raise an MSI-X vector (11 R321, R322): sent at once, or left pending while the vector is masked or the function
may not write host memory (log 28). -/
def State.raise (s : State) (fn vec : Nat) : State :=
  if !s.fnExists fn then s
  else
    let k := 64 * fn + vec
    if mget false s.host.unmasked k && mget false s.host.busMaster fn && s.host.linkUp then s.emit (.irq fn vec)
    else { s with host := { s.host with msixPend := mset false s.host.msixPend k true } }

/-- The IDE stream that a TLP of a function travels on: that of its session, once activated (12 R337). -/
def State.streamOf (s : State) (fn : Nat) : Option Nat :=
  match mget none s.keep.hostSess fn with
  | some x => if x.active then some x.stream else none
  | none => none

/-- The bays a plan's placement names: the plan's own, or a fence placement's (05 R155, 13 R374). -/
def Loaded.bays (p : Loaded) : List PBay :=
  match p.placement with
  | none => p.img.bays
  | some i => match p.img.fences[i]? with | some f => f.bays | none => p.img.bays

/-- A plan is open to a function (11 R316). -/
def Loaded.openTo (p : Loaded) (fn : Nat) : Bool := fn == 0 || p.access.any fun e => e.1 == fn || e.1 == 0xFFFF

/-- A bay is visible to a function: placed for a plan open to it (11 R318). -/
def State.bayVisible (s : State) (fn b : Nat) : Bool :=
  fn == 0 || s.plans.any fun p => p.openTo fn && p.bays.any fun e => e.bay == b

/-- A function may read a snag (11 R319). A VF's own are the host and Keep snags whose unit is its number (DEDUCED,
log 29). -/
def State.snagReadable (s : State) (fn : Nat) (r : Snag) : Bool :=
  let die := fld r.src 11 5
  let unit := fld r.src 0 11
  let top := r.code / 4096
  fn == 0 || (die == 19 && unit == fn && (top == 6 || top == 7)) ||
    (s.expert fn &&
      ((decide (die < 16 ∧ unit < 72) && s.bayVisible fn (72 * die + unit)) || die == 17 || die == 18 || (die == 16 && decide (unit < 16))))

/-- Log a snag (00 R15, R16); nothing is logged before Novko runs (01 R42). Vector 6 tells the functions (11 R321). Every
record is kept here; the log itself is the newest 65,536 (11 R319). -/
def State.snag (s : State) (code sev die unit : Nat) (args : List Nat) : State :=
  if s.novkoUp then
    let src := BitVec.ofNat 32 (s.moduleAddr * 2 ^ 16 + die * 2 ^ 11 + unit)
    let r : Snag := { code := code, sev := sev, gen := s.gen, src := src, ts := s.mtime,
                      args := (args ++ [0, 0, 0, 0]).take 4 }
    let s := { s with snags := r :: s.snags, snagNext := s.snagNext + 1 }
    let s := if s.host.sevSel.toNat ≤ sev then s.raise 0 6 else s
    (List.range s.host.numVfs).foldl (fun s i => if s.snagReadable (i + 1) r then s.raise (i + 1) 6 else s) s
  else s

/-- A snag of CTL, unit 0x7FF. -/
def State.snagCtl (s : State) (code sev : Nat) (args : List Nat) : State := s.snag code sev 19 0x7FF args

/-! ### Places (00 R2–R4) -/

/-- The Array die of a bay number. -/
def dieOf (b : Nat) : Nat := b / 72

/-- The bay index within its die. -/
def bayOf (b : Nat) : Nat := b % 72

/-- Mesh x (00 R4). -/
def meshX (b : Nat) : Nat := 8 * (dieOf b % 4) + bayOf b % 8

/-- Mesh y (00 R4). -/
def meshY (b : Nat) : Nat := 9 * (dieOf b / 4) + bayOf b / 8

/-- The bay at a mesh coordinate. -/
def bayAt (x y : Nat) : Nat := (4 * (y / 9) + x / 8) * 72 + 8 * (y % 9) + x % 8

/-- The leaf (VLEAF rail id) of a bay number (01 R30, 00 R3). -/
def leafOf (b : Nat) : Nat := 2 * dieOf b + (if bayOf b % 8 < 4 then 0 else 1)

/-! ### Parts -/

def State.bay (s : State) (b : Nat) : Bay := mget {} s.bays b
def State.setBay (s : State) (b : Nat) (x : Bay) : State := { s with bays := mset {} s.bays b x }
def State.rtr (s : State) (b : Nat) : Router := mget {} s.rtrs b
def State.setRtr (s : State) (b : Nat) (x : Router) : State := { s with rtrs := mset {} s.rtrs b x }
def State.panel (s : State) (k : Nat) : Panel := mget {} s.panels k
def State.setPanel (s : State) (k : Nat) (x : Panel) : State := { s with panels := mset {} s.panels k x }

/-- The key of panel `p` of bay `b`. -/
def pkey (b p : Nat) : Nat := 32 * b + p

/-- A bank name resolved to A (0) or B (1) (02 R63). -/
def Panel.resolve (x : Panel) : BankSel → Nat
  | .a => 0
  | .b => 1
  | .live => if x.live then 1 else 0
  | .back => if x.live then 0 else 1

/-- Every addressed memory is in its one form: the bays' scratchpads by line (04 R106), the panels' cells by bank and row
(02 R46), the Context dies' stacks by line (07 R202) and the command slots by byte (11 R306). -/
abbrev State.memWf (s : State) : Prop :=
  (∀ e ∈ s.bays, Canonical {} e.2.sp) ∧ (∀ e ∈ s.panels, Canonical none e.2.cells) ∧
  Canonical {} s.ctx0.mem ∧ Canonical {} s.ctx1.mem ∧ ∀ e ∈ s.host.slots, Canonical 0 e.2.mem

/-- The bays, panels and routers that differ from their reset values are listed once each, by number. -/
abbrev State.mapsWf (s : State) : Prop := Canonical {} s.bays ∧ Canonical {} s.panels ∧ Canonical {} s.rtrs

/-- Log a snag of a bay (00 R16). -/
def State.snagBay (s : State) (b code sev : Nat) (args : List Nat) : State :=
  s.snag code sev (dieOf b) (bayOf b) args

/-- Update a bay. -/
def State.modBay (s : State) (b : Nat) (f : Bay → Bay) : State := s.setBay b (f (s.bay b))

/-- Update a panel. -/
def State.modPanel (s : State) (k : Nat) (f : Panel → Panel) : State := s.setPanel k (f (s.panel k))

/-- Update a router. -/
def State.modRtr (s : State) (b : Nat) (f : Router → Router) : State := s.setRtr b (f (s.rtr b))

/-- A bay's sticky status bit sets; the snag is logged when it was 0 (04 R135, 03 R103). -/
def State.stickyBay (s : State) (b : Nat) (was : Bool) (set : Bay → Bay) (code sev : Nat) (args : List Nat) : State :=
  let s' := s.modBay b set
  if was then s' else s'.snagBay b code sev args

/-- A panel's sticky status bit sets; the snag is logged when it was 0, with the panel index first (02 R69). -/
def State.stickyPanel (s : State) (b p : Nat) (was : Bool) (set : Panel → Panel) (code sev : Nat) (args : List Nat) :
    State :=
  let s' := s.modPanel (pkey b p) set
  if was then s' else s'.snagBay b code sev (p :: args)

/-- A bay is idle: it runs no plan or waits for a release (05 R173). -/
def Bay.idle (y : Bay) : Bool := !y.seq.running || y.seq.prog.isNone

/-- A bay is at a stroke boundary (05 R172). -/
def Bay.atBoundary (y : Bay) : Bool := y.seq.cur.isNone

/-! ### Strikes (13 R355) -/

/-- The strike window, in ns. -/
def strikeWindow : Nat := 900000000000

/-- Strikes against a unit within the window. -/
def State.strikesOf (s : State) (unit : Nat) : List Strike :=
  s.resil.strikes.filter fun x => x.unit == unit && decide (s.now ≤ x.at_ + strikeWindow)

/-- Record a strike against a unit, with snag 0x2080 (13 R355, R384). -/
def State.strike (s : State) (row unit panel : Nat) : State :=
  let s := { s with resil := { s.resil with strikes := s.resil.strikes ++ [Strike.mk row unit s.now] } }
  let n := (s.strikesOf unit).length
  if 1152 ≤ unit ∧ unit < 2048 then s.snag 0x2080 1 (17 + (unit - 1152)) 0x7FF [row, panel, n, 0]
  else
    let b := if unit < 1152 then unit else (unit - 2048) / 32
    s.snagBay b 0x2080 1 [row, panel, n, (s.bay b).strokeCnt]

/-- A stored witness disagreement (02 R59; 13 R355 row 3): a strike against the panel, which the next weight re-digest rewrites.
In WITHDRAWN it is logged only (13 R372). -/
def State.witnessStored (s : State) (b p : Nat) : State :=
  if s.mode = .withdrawn then s
  else
    let s := s.strike 3 (2048 + pkey b p) p
    { s with resil := { s.resil with
      redigest := if s.resil.redigest.contains (pkey b p) then s.resil.redigest else s.resil.redigest ++ [pkey b p],
      redig := s.resil.redig || (s.mode == .recovering && s.resil.stage != 3) } }

end Sys2Proof.Machine
end

