-- ==== Sys2Proof/Machine/Links.lean ====
section
/-! DEFINITION. Link headers, what the ports of the routers face, sinks, paths, Novko's own routes, and the messages between the bays and CTL
(chapter 06; 04 R132). -/

namespace Sys2Proof.Machine

/-! ### Link headers (06 R178) -/

def hVc (h : BitVec 64) : Nat := fld h 0 2
def hKind (h : BitVec 64) : Nat := fld h 2 2
def hLast (h : BitVec 64) : Bool := h.getLsbD 4
def hMcast (h : BitVec 64) : Bool := h.getLsbD 5
def hOrder (h : BitVec 64) : Bool := h.getLsbD 6
def hWp (h : BitVec 64) : Bool := h.getLsbD 7
def hWpr (h : BitVec 64) : Bool := h.getLsbD 8
def hDx (h : BitVec 64) : Nat := fld h 9 5
def hDy (h : BitVec 64) : Nat := fld h 14 6
def hTree (h : BitVec 64) : Nat := fld h 9 8
def hExit (h : BitVec 64) : Nat := fld h 20 3
def hWx (h : BitVec 64) : Nat := fld h 23 5
def hWy (h : BitVec 64) : Nat := fld h 28 6
def hGen (h : BitVec 64) : BitVec 8 := h.extractLsb' 34 8
def hStream (h : BitVec 64) : Nat := fld h 42 12
def hUnit (h : BitVec 64) : Nat := fld h 54 8

/-- The type of a route table entry (06 R184). -/
def rtType (r : BitVec 64) : Nat := fld r 0 2

/-- The header a send builds from its route entry, VC, generation, stream and kind; LAST as given (06 R184). -/
def mkHdr (r : BitVec 64) (vc kind stream : Nat) (gen : BitVec 8) (last : Bool) : BitVec 64 :=
  let bits (v lo : Nat) : BitVec 64 := BitVec.ofNat 64 (v * 2 ^ lo)
  let common := bits vc 0 ||| bits kind 2 ||| bits (if last then 1 else 0) 4 ||| bits gen.toNat 34 |||
    bits (stream % 4096) 42 ||| bits (fld r 49 8) 54
  if rtType r = 1 then common ||| bits 1 5 ||| bits (fld r 29 8) 9
  else common ||| bits (fld r 2 1) 6 ||| bits (fld r 3 1) 7 ||| bits (fld r 4 5) 9 ||| bits (fld r 9 6) 14 |||
    bits (fld r 15 3) 20 ||| bits (fld r 18 5) 23 ||| bits (fld r 23 6) 28

/-! ### Places (06 R181) -/

/-- What a router port faces: a router, an edge die (die index of 00 R16) by its attach link, or nothing. -/
inductive Nbr where
  | router (b : Nat)
  | edge (die link : Nat)
  | absent
  deriving DecidableEq, Repr

/-- What port `p` of the router at bay `b` faces (06 R176, R181). -/
def nbr (b p : Nat) : Nbr :=
  let x := meshX b
  let y := meshY b
  match p with
  | 0 => if y = 0 then .edge 16 x else .router (bayAt x (y - 1))
  | 1 => if x = 31 then .edge 18 y else .router (bayAt (x + 1) y)
  | 2 => if y = 35 then
           (match x with | 11 => .edge 19 0 | 12 => .edge 19 1 | 19 => .edge 19 2 | 20 => .edge 19 3 | _ => .absent)
         else .router (bayAt x (y + 1))
  | 3 => if x = 0 then .edge 17 y else .router (bayAt (x - 1) y)
  | _ => .absent

/-- The port that faces port `p`. -/
def opposite (p : Nat) : Nat := (p + 2) % 4

/-- The port crosses a die boundary (06 R181, R182). -/
def portD2d (b p : Nat) : Bool :=
  match nbr b p with
  | .router c => dieOf c != dieOf b
  | .edge _ _ => true
  | .absent => false

/-- The key of the link at port `p`: the end that sees it on E or S, or the only router end. -/
def linkKey (b p : Nat) : Nat :=
  match nbr b p with
  | .router c => if p = 0 ∨ p = 3 then 4 * c + opposite p else 4 * b + p
  | _ => 4 * b + p

/-- Port of an EXIT code (06 R178). -/
def exitPort (e : Nat) : Nat := if e = 0 then 4 else e - 1

/-! ### Links (06 R179, R182, R195, R196) -/

/-- The router's die has lost VMESH, or the router is hard-fenced. -/
def State.rtrFenced (s : State) (b : Nat) : Bool := (s.rtr b).hardFenced

/-- An edge die is lost: a rail it runs on has faulted or is cut (01 R34). -/
def State.edgeLost (s : State) (die : Nat) : Bool :=
  let bad r := match mget Rail.off s.pwr.rails r with | .fault | .cut => true | _ => false
  if die = 16 then bad 64 || bad 65
  else if die = 17 then bad 66
  else if die = 18 then bad 67
  else false

/-- The link at a port is down after failed handshakes or failed training, at either end (06 R179, R182). -/
def State.linkDown (s : State) (b p : Nat) : Bool :=
  (s.rtr b).linkDown.getLsbD p ||
    (match nbr b p with | .router c => (s.rtr c).linkDown.getLsbD (opposite p) | _ => false)

/-- LINK_UP of a port: trained and open (06 R200). Links inside a die need no training (DEDUCED, log 19). -/
def State.linkUp (s : State) (b p : Nat) : Bool :=
  mget .off s.pwr.rails (32 + dieOf b) == .up && !s.rtrFenced b && !s.linkDown b p &&
  (!portD2d b p || mget 0 s.boot.d2d (linkKey b p) == 1) &&
  (match nbr b p with
    | .router c => !s.rtrFenced c
    | .edge d _ => !s.edgeLost d
    | .absent => false)

/-- The port is a sink: its neighbour is absent from service (06 R196). -/
def State.isSink (s : State) (b p : Nat) : Bool :=
  match nbr b p with
  | .router c => s.rtrFenced c || s.linkDown b p
  | .edge d _ => s.edgeLost d || s.linkDown b p
  | .absent => false

/-- The local port is closed (06 R194, R195). -/
def State.localClosed (s : State) (b : Nat) : Bool := (s.rtr b).localClose || (s.rtr b).hardFenced

/-- Log a router's snag when its status bit was 0 (06 R199). -/
def State.stickyRtr (s : State) (b : Nat) (was : Bool) (set : Router → Router) (code sev : Nat) (args : List Nat) :
    State :=
  let s' := s.modRtr b set
  if was then s' else s'.snagBay b code sev args

/-- A sink discards a line at port `p` (06 R196). -/
def State.sinkLine (s : State) (b p : Nat) (h : BitVec 64) : State :=
  s.stickyRtr b (s.rtr b).sinkDrop (fun r => { r with sinkDrop := true, sinkCnt := satAdd r.sinkCnt 1 0xFFFF })
    0x3012 0 [p, hStream h, hVc h]

/-- A sink on an edge die's side of the attach link at port `p` (06 R196): counted at the Array-side router, unless that was lost with its
die's VMESH. -/
def State.edgeSink (s : State) (b p : Nat) (h : BitVec 64) : State :=
  if mget .off s.pwr.rails (32 + dieOf b) == .up then s.sinkLine b p h else s

/-! ### Paths (06 R183) -/

/-- The waypoint is marked reached at its router (06 R183). -/
def markWaypoint (b : Nat) (h : BitVec 64) : BitVec 64 :=
  if !hMcast h && hWp h && !hWpr h && meshX b == hWx h && meshY b == hWy h then h ||| 0x100 else h

/-- The output port of a unicast line whose waypoint has been marked (06 R183). -/
def routePort (b : Nat) (h : BitVec 64) : Nat :=
  let toWp := hWp h && !hWpr h
  let tx := if toWp then hWx h else hDx h
  let ty := if toWp then hWy h else hDy h
  let x := meshX b
  let y := meshY b
  let ew := if x < tx then 1 else 3
  let ns := if y < ty then 2 else 0
  if x = tx ∧ y = ty then exitPort (hExit h)
  else if hOrder h then (if y = ty then ew else ns)
  else if x = tx then ns else ew

/-- The unicast path of a line from router `b`: its (router, port) channels; none if it leaves the mesh or uses an
absent port, or its exit leads to no edge die (06 R183, R192). -/
def walk : Nat → Nat → BitVec 64 → Option (List (Nat × Nat))
  | 0, _, _ => none
  | n + 1, b, h =>
    let h := markWaypoint b h
    let p := routePort b h
    if p = 4 then some [(b, 4)]
    else match nbr b p with
      | .absent => none
      | .edge _ _ => if meshX b = hDx h ∧ meshY b = hDy h ∧ hExit h ≠ 0 then some [(b, p)] else none
      | .router c =>
        if meshX b = hDx h ∧ meshY b = hDy h ∧ hExit h ≠ 0 ∧ (hWp h = false ∨ hWpr h = true) then none
        else (walk n c h).map ((b, p) :: ·)

/-! ### Home attachments and Novko's routes (06 R192, R427) -/

/-- The router of a CTL attachment (06 R181). -/
def ctlRouter (att : Nat) : Nat := bayAt ([11, 12, 19, 20].getD (att % 4) 11) 35

/-- A route table entry of Novko's (06 R184, R192): X first, to a router and exit, through at most one waypoint. -/
def novkoEntry (dst exit : Nat) (wp : Option Nat) : BitVec 64 :=
  let w := match wp with | some w => 2 ^ 3 + 2 ^ 18 * meshX w + 2 ^ 23 * meshY w | none => 0
  BitVec.ofNat 64 (w + 2 ^ 4 * meshX dst + 2 ^ 9 * meshY dst + 2 ^ 15 * exit)

/-- Its header on a VC (06 R186): a control message. -/
def novkoHdr (r : BitVec 64) (vc : Nat) (gen : BitVec 8) : BitVec 64 := mkHdr r vc 2 0 gen true

/-- The entry's path from a router avoids every hard-fenced router and absent port (06 R192): its channels. -/
def State.clearPath (s : State) (src : Nat) (r : BitVec 64) : Option (List (Nat × Nat)) :=
  match walk 256 src (novkoHdr r 2 0) with
  | some l => if l.all fun e => !s.rtrFenced e.1 then some l else none
  | none => none

/-- A channel of the mesh, as a number. -/
def chan (b p : Nat) : Nat := 5 * b + p

/-- Dependencies between consecutive channels of a path. -/
def pathDeps : List (Nat × Nat) → List (Nat × Nat)
  | a :: b :: l => (chan a.1 a.2, chan b.1 b.2) :: pathDeps (b :: l)
  | _ => []

/-- Drop dependencies whose source nothing leads to, `n` times over; what is left lies on or behind a cycle. -/
def peel : Nat → List (Nat × Nat) → List (Nat × Nat)
  | 0, l => l
  | n + 1, l => peel n (l.filter fun e => l.any fun f => f.2 == e.1)

/-- The dependencies form a cycle. -/
def cyclic (l : List (Nat × Nat)) : Bool := peel l.length l != []

/-- Hops between two routers. -/
def hops (a b : Nat) : Nat := (meshX a - meshX b) + (meshX b - meshX a) + (meshY a - meshY b) + (meshY b - meshY a)

/-- The waypoints of X-first routes from `src` to `dst`, fewest hops first, then smallest y, then smallest x (06 R192). -/
def waypoints (src dst : Nat) : List Nat :=
  (List.range 135).flatMap fun n => (List.range 36).flatMap fun y => (List.range 32).filterMap fun x =>
    let w := bayAt x y
    if hops src w + hops w dst = n then some w else none

/-- Novko's route from `src` to a router and exit (06 R192): the direct X-first one, or else the first through one waypoint; a route
that would close a cycle with `deps` is passed over. The entry and its path. -/
def State.novkoRoute (s : State) (src dst exit : Nat) (deps : List (Nat × Nat)) : Option (BitVec 64 × List (Nat × Nat)) :=
  match s.clearPath src (novkoEntry dst exit none) with
  | some l => some (novkoEntry dst exit none, l)
  | none => (waypoints src dst).findSome? fun w =>
    match s.clearPath src (novkoEntry dst exit (some w)) with
    | some l => if cyclic (pathDeps l ++ deps) then none else some (novkoEntry dst exit (some w), l)
    | none => none

/-- The attachment's router and attach link are in service (06 R427). -/
def State.attachUp (s : State) (att : Nat) : Bool := !s.rtrFenced (ctlRouter att) && !s.linkDown (ctlRouter att) 2

/-- The home of bay `b` as the mesh stands (06 R427): the first attachment from ⌊x/8⌋ on, wrapping, that is in service and that the bay has a
route to and from. None: the bay has no path to CTL. -/
def State.homeNow (s : State) (b : Nat) (deps : List (Nat × Nat)) : Option Home :=
  ((List.range 4).map fun i => (meshX b / 8 + i) % 4).findSome? fun a =>
    if s.attachUp a then
      match s.novkoRoute b (ctlRouter a) 3 deps, s.novkoRoute (ctlRouter a) b 0 deps with
      | some x, some y => some { att := a, up := x.1, down := y.1 }
      | _, _ => none
    else none

/-- The home a bay has on a mesh without faults: attachment ⌊x/8⌋, by the direct routes. -/
def directHome (b : Nat) : Home :=
  let a := meshX b / 8
  { att := a, up := novkoEntry (ctlRouter a) 3 none, down := novkoEntry b 0 none }

/-- Something keeps Novko from the direct routes: a hard-fenced router, or a CTL attachment out of service. -/
def State.meshHurt (s : State) : Bool := s.rtrs.any (fun e => e.2.hardFenced) || (List.range 4).any fun a => !s.attachUp a

/-- Dependencies of a home's two routes. -/
def State.homeDeps (s : State) (b : Nat) (h : Home) : List (Nat × Nat) :=
  pathDeps ((s.clearPath b h.up).getD []) ++ pathDeps ((s.clearPath (ctlRouter h.att) h.down).getD [])

/-- Novko loads every bay's route to its home attachment, and its own tables (06 R427): once the mesh has trained at start-up, and at every
compute reset stage. Only homes that are not the direct ones are listed; `some none` is a bay without a path. The direct routes come
first, and each further route is held against those before it. -/
def State.loadHomes (s : State) : State :=
  if s.meshHurt then
    let direct := (List.range 1152).filter fun b => s.homeNow b [] == some (directHome b)
    let deps := direct.flatMap fun b => s.homeDeps b (directHome b)
    let r := ((List.range 1152).filter fun b => !direct.contains b).foldl (fun (a : SMap (Option (Option Home)) × List (Nat × Nat)) b =>
      let h := s.homeNow b a.2
      (mset none a.1 b (some h), match h with | some h => s.homeDeps b h ++ a.2 | none => a.2)) ([], deps)
    { s with boot := { s.boot with homes := r.1 } }
  else { s with boot := { s.boot with homes := [] } }

/-- The home loaded for a bay; none: it has no path to CTL. -/
def State.homeOf (s : State) (b : Nat) : Option Home := (mget none s.boot.homes b).getD (some (directHome b))

/-- The bay can reach CTL as the mesh stands (06 R427, 13 R382). -/
def State.reachesCtl (s : State) (b : Nat) : Bool := (s.homeNow b []).isSome

/-- The sink at which lines on a path stop, as (router, port): none where they arrive (06 R196). -/
def State.sinkOn (s : State) : List (Nat × Nat) → Option (Nat × Nat)
  | [] => none
  | (b, p) :: l => if s.rtrFenced b then none else if p ≠ 4 ∧ s.isSink b p = true then some (b, p) else s.sinkOn l

/-- `n` lines with header `h` sent along a path (06 R196): they are sunk where a sink lies on it. Left: they are lost. -/
def State.sendAlong (s : State) (n src : Nat) (h : BitVec 64) : Except State State :=
  match walk 256 src h with
  | none => .error s
  | some l =>
    match s.sinkOn l with
    | some (b, p) => .error ((List.range n).foldl (fun s _ => s.sinkLine b p h) s)
    | none => .ok s

/-- A bay sends a message to CTL on VC2 along its home route (06 R186, R427): lost where the route crosses a sink, where the bay's port is
closed (R194), or where the bay has no path. What arrives is handed to CTL at once (DESIGN CHOICE, log 187). -/
def State.toCtl (s : State) (b : Nat) (m : BayMsg) : State :=
  match s.homeOf b with
  | none => s
  | some x =>
    if s.localClosed b then s
    else match s.sendAlong 1 b (novkoHdr x.up 2 s.gen) with
      | .error d => d
      | .ok s => s.emit (.bayMsg b m)

/-- Lines of a message of Novko's (06 R428; 09 R265). -/
def NovkoMsg.lines : NovkoMsg → Nat
  | .spWrite _ _ d => 1 + (d.length + 63) / 64
  | .weightRows _ _ _ _ => 3 * 1024
  | _ => 1

/-- The VC of a message of Novko's (06 R186). -/
def NovkoMsg.vc : NovkoMsg → Nat
  | .weightRows _ _ _ _ => 3
  | _ => 2

/-- Novko sends a bay a message from the bay's home attachment (06 R186, R427), lost as a bay's is. At an attach link that is down the
lines are counted at the Array-side router (R196). -/
def State.toBay (s : State) (b : Nat) (m : NovkoMsg) : State :=
  match s.homeOf b with
  | none => s
  | some x =>
    let r := ctlRouter x.att
    let h := novkoHdr x.down m.vc s.gen
    if s.linkDown r 2 || s.rtrFenced r then (List.range m.lines).foldl (fun s _ => s.edgeSink r 2 h) s
    else match s.sendAlong m.lines r h with
      | .error d => d
      | .ok s => s.emit (.novko b m)

/-! ### The fault detector (04 R132) -/

/-- The gathering window, in ns (04 R132). -/
def gatherNs : Nat := 1000

/-- The gathering window of bay `b` closes: one fault notice leaves the bay (04 R132). -/
def State.closeWindow (s : State) (b : Nat) : State :=
  match (s.bay b).det with
  | some g => (s.modBay b fun y => { y with det := none }).toCtl b (.fault s.gen g.kinds g.panels g.cnt)
  | none => s

/-- The bay's fault detector takes a signal: kind bit (0 witness, 1 residue, 2 uncorrectable, 3 BOUND_ERR) and, for a
panel's signal, the panel. A signal after the window's 1 µs opens a new one (04 R132). -/
def State.signalFault (s : State) (b kind : Nat) (panel : Option Nat) : State :=
  let s := match (s.bay b).det with | some g => if g.at_ + gatherNs < s.now then s.closeWindow b else s | none => s
  s.modBay b fun y =>
    let g : Gather := y.det.getD { at_ := s.now, kinds := 0, panels := 0, cnt := y.strokeCnt }
    { y with det := some { g with
        kinds := g.kinds ||| BitVec.ofNat 4 (2 ^ kind),
        panels := match panel with | some p => g.panels ||| BitVec.ofNat 32 (2 ^ p) | none => g.panels } }

end Sys2Proof.Machine
end

