-- ==== Sys2Proof/Machine/Sequencer.lean ====
section
/-! DEFINITION. The power sequencer's shared operations: reset conditions, the off-cause record, OFF, stage ramps, leaf
set points and the sag request (chapter 01). -/

namespace Sys2Proof.Machine

/-- VAUX is in regulation (01 R28). -/
def Power.vauxUp (p : Power) : Bool := p.inputOn && !p.vauxLatched

/-- The module reset is asserted (01 R21, R25, R26, R28). -/
def Power.resetAsserted (p : Power) : Bool :=
  !p.vauxUp || p.underVolt || p.overVolt || p.ocLatch || p.thermLatch || p.railLatch || p.rstN

/-- The hot-swap switch conducts: stage 1 may ramp (01 R31). -/
def Power.conducting (p : Power) : Bool := !p.resetAsserted

/-- PWR_GOOD (01 R19, R28, R33); DEDUCED (log 11). -/
def State.pwrGood (s : State) : Bool := s.pwr.vauxUp && !s.pwr.resetAsserted && s.pwr.stage1Up

/-- ALERT_N is driven low (01 R23, R28). In OFF a fault of a stage 1 rail is recorded as cause 4 (01 R34; DEDUCED, log 171). -/
def State.alertLow (s : State) : Bool :=
  s.pwr.vauxUp && (s.boot.hold.isSome || s.mode == .haltedConfig || s.pwr.vinWarn || s.pwr.faultRail != 0xFF ||
    (s.mode == .off && s.pwr.offCause == 4) || s.pwr.thermLatch)

/-- Sensor `n` (14 R398): 0–31 leaves, 32 FD, 33 and 34 CTX0 and CTX1, 35 CTL, 36–47 HBM stacks. -/
def State.sensor (s : State) (n : Nat) : Sensor := mget {} s.sense.temps n

/-- The over-temperature comparator of a die or stack is masked by a broken sensor (14 R400). DEDUCED for an Array die's
two leaf sensors: either masks it (log 25). -/
def State.dieSensorBroken (s : State) (die : Nat) : Bool :=
  if die < 16 then (s.sensor (2 * die)).broken || (s.sensor (2 * die + 1)).broken else (s.sensor (die + 16)).broken

/-- An over-temperature comparator is armed: rails that feed its die or stack are in regulation and its sensor is not
flagged broken (01 R40); DEDUCED for dies with several rails (log 13). -/
def State.comparatorArmed (s : State) (die : Nat) : Bool :=
  let up r := mget Rail.off s.pwr.rails r == .up
  let powered :=
    if die < 16 then up (2 * die) || up (2 * die + 1) || up (32 + die) || up (48 + die)
    else if die = 16 then up 64 || up 65
    else if die < 19 then up (66 + (die - 17))
    else if die = 19 then s.pwr.stage1Up
    else let k := (die - 20) / 6; up (68 + k) || up (70 + k) || up (72 + k)
  powered && !s.dieSensorBroken die

/-- What the auxiliary rail keeps through a module reset (01 R28). -/
def Power.keepAux (p : Power) : Power :=
  { inputOn := p.inputOn, vauxLatched := p.vauxLatched, underVolt := p.underVolt, overVolt := p.overVolt,
    ocLatch := p.ocLatch, thermLatch := p.thermLatch, railLatch := p.railLatch, rstN := p.rstN,
    offCause := p.offCause, offRail := p.offRail, offAt := p.offAt, wasArmed := p.wasArmed, vinWarn := p.vinWarn,
    warnAt := p.warnAt, minMv := p.minMv }

/-- The module goes to OFF: a power loss for the package (01 R27, R33). What stays: the auxiliary domain, the
non-volatile objects, the part, the model's clock, its queue, its free counter and its outputs. -/
def State.goOff (s : State) : State :=
  { ({} : State) with
    now := s.now, leftOff := s.leftOff, free := s.free, epoch := s.epoch + 1, part := s.part, out := s.out,
    pending := s.pending, flash := s.flash, nvm := s.nvm, store := s.store, pwr := s.pwr.keepAux }

/-- Write the off-cause record (01 R26). -/
def State.recordOff (s : State) (cause rail : Nat) : State :=
  { s with pwr := { s.pwr with offCause := cause, offRail := rail, offAt := s.now } }

/-- A reset condition arises: `f` sets its flag. The record is written when the reset goes from released to asserted; of causes at one
instant it holds the lowest code (01 R26), and a rail fault of stage 1 gives way to any other (01 R35; DEDUCED for its latch, log 172). -/
def State.assertReset (s : State) (cause rail : Nat) (f : Power → Power) : State :=
  let was := s.pwr.resetAsserted
  let now := s.pwr.offAt == s.now && decide (0 < s.pwr.offCause)
  if was then
    let s := { s with pwr := f s.pwr }
    if now && s.pwr.offCause == 4 then State.recordOff { s with pwr := { s.pwr with railLatch := false } } cause rail
    else if now && decide (cause < s.pwr.offCause) then s.recordOff cause rail
    else s
  else
    let armed := (List.range 32).foldl (fun m d => if s.comparatorArmed d then m ||| BitVec.ofNat 32 (2 ^ d) else m) 0
    (State.goOff { s with pwr := { f s.pwr with wasArmed := armed } }).recordOff cause rail

/-- The rails of stage 1 (01 R30). -/
def stage1Rails : List Nat := [74, 75, 76, 77, 78]

/-- The rails of stage 2 in ramp order (01 R32). -/
def stage2Rails : List Nat := (List.range 36).map (32 + ·) ++ [68, 70, 72, 69, 71, 73]

/-- Set the rails `l` that are in state `a` to state `b`. -/
def Power.moveRails (p : Power) (l : List Nat) (a b : Rail) : Power :=
  { p with rails := l.foldl (fun m r => if mget .off m r = a then mset .off m r b else m) p.rails }

/-- The rails `l` of a stage start to ramp: the first ramps, and the others wait for their turn (01 R32). -/
def Power.startRamp (p : Power) (l : List Nat) (now : Nat) : Power :=
  let p := { p with rampAt := l.foldl (fun m r => if mget Rail.off p.rails r = Rail.off then mset 0 m r now else m) p.rampAt }
  (p.moveRails (l.take 1) .off .ramp).moveRails (l.drop 1) .off .wait

/-- The rails `l` are in regulation, but for those a fault has switched off. -/
def Power.raiseRails (p : Power) (l : List Nat) (now : Nat) : Power :=
  let p := { p with upAt := l.foldl (fun m r => mset 0 m r now) p.upAt }
  ((p.moveRails l .off .up).moveRails l .wait .up).moveRails l .ramp .up

/-- The eight groups of leaf rails start to ramp 1 ms apart: group g holds rails 4g to 4g + 3 (01 R32). -/
def Power.startLeaves (p : Power) (now : Nat) : Power :=
  let p := { p with rampAt := (List.range 32).foldl (fun m r => mset 0 m r (now + 1000000 * (r / 4))) p.rampAt }
  (p.moveRails (List.range 4) .off .ramp).moveRails ((List.range 28).map (4 + ·)) .off .wait

/-- Rail `r` has its turn: those before it in the stage's order have had theirs (01 R32). -/
def Power.reachRail (p : Power) (r : Nat) : Power :=
  let l := if r < 32 then (List.range 32).filter (· / 4 ≤ r / 4) else if r < 74 then stage2Rails else stage1Rails
  p.moveRails (if r < 32 then l else l.takeWhile (· ≠ r) ++ [r]) .wait .ramp

/-- A rail whose turn may have come (01 R32): within a stage the manual gives the order and no times, but for the groups of leaves;
while the supply warning is asserted the ramp stands (01 R31). -/
def State.turnCame (s : State) (r : Nat) : Bool :=
  decide (mget 0 s.pwr.rampAt r ≤ if s.pwr.vinWarn && decide (r < 74) then min s.now s.pwr.warnAt else s.now)

/-- Once no reset condition holds, the switch conducts and stage 1 ramps (01 R31). -/
def State.tryStart (s : State) : State :=
  if s.pwr.resetAsserted || s.pwr.stage1Up then s else { s with pwr := s.pwr.startRamp stage1Rails s.now }

/-- Firmware requests stage 2; it ramps once the supply warning is released (01 R31). -/
def State.requestStage2 (s : State) : State :=
  if s.pwr.stage2Req then s
  else
    let p := { s.pwr with stage2Req := true }
    { s with pwr := if p.vinWarn then p else p.startRamp stage2Rails s.now }

/-- The supply warning's release lets a requested stage 2 start, and the groups of leaves whose turn had not come ramp that much later
(01 R31, R32). -/
def State.resumeRamps (s : State) : State :=
  if s.pwr.stage2Up then
    let late := s.now - s.pwr.warnAt
    { s with pwr := { s.pwr with rampAt := (List.range 32).foldl (fun m r =>
        if mget .off s.pwr.rails r = .wait ∧ s.pwr.warnAt < mget 0 m r then mset 0 m r (mget 0 m r + late) else m) s.pwr.rampAt } }
  else if s.pwr.stage2Req then { s with pwr := s.pwr.startRamp stage2Rails s.now } else s

/-- The set point of a rail in mV (01 R30, R43). -/
def Power.setPoint (p : Power) (r : Nat) : Nat :=
  if r < 32 then 650 + 5 * mget 20 p.vset r
  else if r < 48 then 750
  else if r < 64 then 1000
  else match r with
    | 64 => 800 | 65 => 900 | 66 => 800 | 67 => 800 | 68 => 1800 | 69 => 1800 | 70 => 1050 | 71 => 1050
    | 72 => 750 | 73 => 750 | 74 => 800 | 75 => 800 | 76 => 1800 | 77 => 900 | 78 => 1200 | _ => 3300

/-- The die a rail feeds, as a snag source (01 R42, R30); DEDUCED for the stack rails (log 12). -/
def railDie (r : Nat) : Nat :=
  if r < 32 then r / 2 else if r < 48 then r - 32 else if r < 64 then r - 48
  else if r < 66 then 16 else if r < 74 then 17 + r % 2 else 19

/-- The rails switched off together with a faulted rail of stage 2 or 3 (01 R34). -/
def railDependents (r : Nat) : List Nat :=
  if r < 32 then []
  else if r < 48 then [2 * (r - 32), 2 * (r - 32) + 1, r + 16]
  else if r < 64 then [2 * (r - 48), 2 * (r - 48) + 1]
  else if r = 64 then [65]
  else if r = 65 then [64]
  else if r < 74 then [66 + r % 2, 68 + r % 2, 70 + r % 2, 72 + r % 2].filter (· ≠ r)
  else []

/-- A leaf is idle for a staged set point: its rail is not up, or none of its bays runs a program (01 R43, 05 R173). -/
def State.leafIdle (s : State) (leaf : Nat) : Bool :=
  mget .off s.pwr.rails leaf != .up ||
    s.bays.all fun e => leafOf e.1 != leaf || e.2.idle

/-- The staged code of a leaf takes effect (01 R43). -/
def Power.settleLeaf (p : Power) (leaf : Nat) : Power :=
  match (mget {} p.vsetStg leaf).code with
  | none => p
  | some c => { p with vset := mset 20 p.vset leaf c, vsetStg := mset {} p.vsetStg leaf {} }

/-- A code is staged for a leaf: the one a commit of this instant would take stays beside it (00 R13). -/
def LeafStg.write (x : LeafStg) (now code : Nat) : LeafStg :=
  { code := some code, at_ := now, old := if x.at_ < now then x.code else x.old }

/-- The code that a commit takes: the last one staged before its instant (00 R13). -/
def LeafStg.taken (x : LeafStg) (now : Nat) : Option Nat := if x.at_ < now then x.code else x.old

/-- A leaf's part of a commit (00 R12, R13). -/
def Power.commitLeaf (p : Power) (now leaf : Nat) : Power :=
  let x := mget {} p.vsetStg leaf
  { p with
    vset := (match x.taken now with | some c => mset 20 p.vset leaf c | none => p.vset),
    vsetStg := mset {} p.vsetStg leaf (if x.at_ < now then {} else { x with old := none }) }

/-- Staged codes of idle leaves take effect (00 R12). -/
def State.settleLeaves (s : State) : State :=
  { s with pwr := s.pwr.vsetStg.foldl (fun p e => if s.leafIdle e.1 then p.settleLeaf e.1 else p) s.pwr }

/-- A write of a leaf's set point code: code 31 is clamped to 30 with snag 0x8021; the value is staged, and takes
effect at once on an idle leaf (01 R43). -/
def State.writeLeafVset (s : State) (leaf code : Nat) : State :=
  let s := if code = 31 then s.snagCtl 0x8021 1 [leaf / 2, leaf % 2] else s
  let s := { s with pwr := { s.pwr with vsetStg := mset {} s.pwr.vsetStg leaf ((mget ({} : LeafStg) s.pwr.vsetStg leaf).write s.now (min code 30)) } }
  if s.leafIdle leaf then { s with pwr := s.pwr.settleLeaf leaf } else s

/-- The commit of the staged set points: each ramps at 1 mV/µs (01 R43). -/
def State.commitVset (s : State) : State :=
  let moved := s.pwr.vsetStg.any fun e => match e.2.taken s.now with
    | some c => mget .off s.pwr.rails e.1 == .up && c != mget 20 s.pwr.vset e.1
    | none => false
  let p := s.pwr.vsetStg.foldl (fun p e => p.commitLeaf s.now e.1) s.pwr
  { s with pwr := { p with vsetRamping := p.vsetRamping || moved } }

/-- A write of SAG_THROTTLE (01 R29). -/
def State.writeSagThrottle (s : State) (v : Bool) : State :=
  { s with pwr :=
      if v then { s.pwr with sagThrottle := true, sagActing := s.pwr.sagActing || s.pwr.vinWarn }
      else { s.pwr with sagThrottle := false, sagActing := false, sagHold := false } }

end Sys2Proof.Machine
end

