-- ==== Sys2Proof/Machine/Sensors.lean ====
section
/-! DEFINITION. Temperature sensors, bands, trim sets and pace dividers: the shared operations (chapter 14; 02 R53). -/

namespace Sys2Proof.Machine

/-- The die of a sensor, as in a snag source (14 R408, 00 R16). -/
def sensorDie (n : Nat) : Nat := if n < 32 then n / 2 else if n < 36 then n - 16 else n - 16

/-- The rails that feed a sensor's die are up (14 R398). -/
def State.sensorPowered (s : State) (n : Nat) : Bool :=
  let up r := mget Rail.off s.pwr.rails r == .up
  if n < 32 then up n
  else if n = 32 then up 64 || up 65
  else if n < 35 then up (66 + (n - 33))
  else if n = 35 then s.pwr.stage1Up
  else let k := (n - 36) / 6; up (68 + k) || up (70 + k) || up (72 + k)

/-- The rail whose regulation starts a sensor's die (14 R398). -/
def sensorRail (n : Nat) : Nat :=
  if n < 32 then n else if n = 32 then 64 else if n < 35 then 66 + (n - 33) else if n = 35 then 74 else 68 + (n - 36) / 6

/-- When a sensor last gave a reading or, before its first, when its die's rails came up (14 R398, R400). -/
def State.sensorSince (s : State) (n : Nat) : Nat := (s.sensor n).at_.getD (mget 0 s.pwr.upAt (sensorRail n))

/-- A leaf's band, once its sensor has given a first reading or its substitute serves (02 R53, 14 R398). -/
def State.leafBand (s : State) (leaf : Nat) : Option Nat :=
  let x := s.sensor leaf
  if x.seen then some x.band else none

/-! ### Trim sets (02 R53; 14 R393, R394, R396) -/

/-- The panel was skimmed by the start-up calibration in this set. -/
def State.startTrim (s : State) (k set : Nat) : Option Trim :=
  match s.sense.startCal with
  | none => none
  | some c =>
    if mget none c.bands (leafOf (k / 32)) = some set then
      some { res := (mget none c.exc k).getD c.res, mode := true, cur := some c.at_, tim := some c.at_ }
    else none

/-- Trim set `set` of panel `k`. -/
def State.trimOf (s : State) (k set : Nat) : Trim :=
  match mget none (s.panel k).trims set with
  | some x => x
  | none => (s.startTrim k set).getD {}

/-- The set panel `k` latched last: TRIM_SET (02). -/
def State.trimSetOf (s : State) (k : Nat) : Nat :=
  match (s.panel k).trimSet with
  | some x => x.toNat
  | none =>
    match s.sense.startCal with
    | some c => (mget none c.bands (leafOf (k / 32))).getD 0
    | none => 0

/-- RESIDUAL of panel `k`: that of the set latched last (02 R53). -/
def State.residual (s : State) (k : Nat) : BitVec 8 := (s.trimOf k (s.trimSetOf k)).res

/-- CAL_DEGRADED (02 R54). -/
def State.calDegraded (s : State) (k : Nat) : Bool := decide ((s.panel k).exactLimit < s.residual k)

/-- SKIM_CNT: the start-up calibration skims in both sum modes (14 R393). -/
def State.skimCount (s : State) (k : Nat) : Nat :=
  let c := match s.sense.startCal with
    | some c => if (mget none c.bands (leafOf (k / 32))).isSome then 2 else 0
    | none => 0
  ((s.panel k).skimCnt + c) % 256

/-- A catch-up skim is due before an operation of this sum mode (14 R396). -/
def State.skimDue (s : State) (k set : Nat) (time : Bool) : Bool :=
  let x := s.trimOf k set
  let age := max 1 s.sense.skimMaxAge.toNat * 1000000
  match if time then x.tim else x.cur with
  | none => true
  | some u => decide (age < s.mtime - u)

/-- A skim runs on a panel of the die (14 R392). -/
def State.skimRunning (s : State) (die : Nat) : Bool :=
  s.panels.any fun e => e.1 / 32 / 72 == die &&
    match e.2.op with
    | some o => o.skimming || (o.started && fld o.w2 0 2 != 1)
    | none => false

/-- A skim starts on a panel of the die: one that meets a ladder step that settles waits for it (14 R392). -/
def State.skimStarts (s : State) (die : Nat) : State :=
  if s.now < (mget ({} : Ladder) s.sense.ladders die).settled then s.intrude 7 else s

/-! ### Throttling (14 R401–R403) -/

/-- The leaf's throttling state. -/
def State.leaf (s : State) (l : Nat) : LeafThr := mget {} s.sense.leaves l

/-- Log2 of the pace divider in force on a leaf (14 R402). -/
def State.leafDiv (s : State) (l : Nat) : Nat :=
  let x := s.leaf l
  max (if x.skip then 0 else x.level) (max (if s.pwr.sagActing then 1 else 0) x.manual.toNat)

/-- SKIP of a leaf: the level in skip mode (14 R401). -/
def State.leafSkip (s : State) (l : Nat) : Nat := let x := s.leaf l; if x.skip then x.level else 0

/-- A stroke that began at `begun` has completed: in skip mode the sequencer holds after every N − 1, for as long as that stroke took, up to
10 µs (14 R403). -/
def State.skipAfter (s : State) (b begun : Nat) : State :=
  let k := s.leafSkip (leafOf b)
  if k = 0 then s
  else s.modBay b fun y =>
    if y.skipCnt + 1 ≥ 2 ^ (4 - k) - 1 then
      { y with skipCnt := 0, skipHold := true, holdTill := s.now + min 10000 (s.now - begun) }
    else { y with skipCnt := y.skipCnt + 1 }

end Sys2Proof.Machine
end

