-- ==== Sys2Proof/Machine/Mailbox.lean ====
section
/-! DEFINITION. The mailbox engine's shared operations: command slots, taking and completing a command, the checks every
command passes first, host memory reads and writes, and changes of the module state (chapter 11). -/

namespace Sys2Proof.Machine

/-- Update the host interface. -/
def State.modHost (s : State) (f : HostIf → HostIf) : State := { s with host := f s.host }

/-- MSI-X vectors of the PF (11 R321). -/
def vecPower : Nat := 7
def vecPort : Nat := 10
def vecFault : Nat := 11

/-- Raise a vector of the PF. -/
def State.pfIrq (s : State) (vec : Nat) : State := s.raise 0 vec

/-- A module state's number (00 R5, 11 R315). -/
def Mode.num : Mode → Nat
  | .off => 0 | .primed => 1 | .awaitingConfig => 2 | .haltedConfig => 3 | .awaitingCoords => 4
  | .ready => 5 | .serving => 6 | .recovering => 7 | .withdrawn => 8

/-- The peers of a spread plan: the other modules of its peer map (10 R293). -/
def State.othersOf (s : State) (p : Loaded) : List Nat := (p.peers.filter (· != s.moduleAddr)).dedup

/-- The message is a GEN_NOTICE. -/
def FabMsg.notice : FabMsg → Bool
  | .genNotice _ _ _ => true
  | _ => false

/-- Novko hands a message for another module to the Fabric die (10 R286, R294), where it waits to be framed; a GEN_NOTICE, which goes out at once,
ahead of the others (R293). -/
def State.sendFab (s : State) (dst session vc : Nat) (m : FabMsg) : State :=
  let s := s.emit (.fabric dst m)
  let q := s.fab.mgmtQ
  let front := q.takeWhile fun e => e.2.2.2.notice
  { s with fab := { s.fab with
      mgmtQ := if m.notice then front ++ (dst, session, vc, m) :: q.drop front.length else q ++ [(dst, session, vc, m)] } }

/-- A GEN_NOTICE of a plan to each of its peers, on VC2 under the plan's session (10 R293–R295). -/
def State.noticePlan (s : State) (p : Loaded) : State :=
  (s.othersOf p).foldl (fun s a => s.sendFab a p.session 2 (.genNotice p.img.id s.mode.num s.gen)) s

/-- A GEN_NOTICE to every peer of every started spread plan (10 R293). -/
def State.noticeAll (s : State) : State :=
  s.plans.foldl (fun s p => if p.started || p.starting then s.noticePlan p else s) s

/-- The module state changes: every function is told on vector 5 (11 R321), and peers by a GEN_NOTICE (10 R293). -/
def State.setMode (s : State) (m : Mode) : State :=
  if s.mode = m then s
  else
    let s := { s with mode := m }
    ((List.range (s.host.numVfs + 1)).foldl (fun s fn => s.raise fn 5) s).noticeAll

/-- States that offer management service (00 R5). -/
def Mode.management (m : Mode) : Bool := m != .off && m != .primed

/-- The mailboxes are served: management service, and the link is up. -/
def State.mailboxUp (s : State) : Bool := s.mode.management && s.host.linkUp && s.resil.coresUp != 0

/-! ### Statuses (11 R313) -/

def stOk : Nat := 0
def stLate : Nat := 1
def stRefused : Nat := 2
def stBadArg : Nat := 3
def stNotPerm : Nat := 4
def stBusy : Nat := 5
def stStale : Nat := 6
def stFault : Nat := 7
def stWithdrawn : Nat := 8

/-! ### Slots (11 R306–R310) -/

/-- The key of a slot pair. -/
def slotKey (fn slot : Nat) : Nat := 4 * fn + slot

/-- A slot pair. -/
def State.slot (s : State) (fn slot : Nat) : Slot := mget {} s.host.slots (slotKey fn slot)

/-- Replace a slot pair. -/
def State.setSlot (s : State) (fn slot : Nat) (x : Slot) : State :=
  s.modHost fun h => { h with slots := mset {} h.slots (slotKey fn slot) x }

/-- Bytes of a command slot as it stands. -/
def Slot.bytes (x : Slot) (off n : Nat) : List Byte := (List.range n).map fun i => mget 0 x.mem (off + i)

/-- The command a slot holds, as captured (11 R306, R307): `id` numbers commands in order of posting. -/
def Slot.capture (x : Slot) (id now : Nat) : Cmd :=
  let h := x.bytes 0 64
  let len := natAt h 2 2
  { id := id, at_ := now, op := natAt h 0 1, flags := natAt h 1 1, argLen := len, tag := natAt h 4 4,
    seq := leNat (x.bytes 4092 4), args := x.bytes 64 (min len 4028),
    headerOk := decide (natAt h 1 1 < 4) && (h.drop 8).all (· == 0) && decide (len ≤ 4028) }

/-- FLAGS.EXPERT. -/
def Cmd.expert (c : Cmd) : Bool := c.flags % 2 == 1

/-- FLAGS.IRQ. -/
def Cmd.irq (c : Cmd) : Bool := c.flags / 2 % 2 == 1

/-- An argument. -/
def Cmd.arg (c : Cmd) (o n : Nat) : Nat := natAt c.args o n

/-- Every argument byte outside the listed (offset, length) ranges is zero (11 R314). -/
def Cmd.onlyArgs (c : Cmd) (l : List (Nat × Nat)) : Bool :=
  c.args.zipIdx.all fun e => e.1 == 0 || l.any fun r => decide (r.1 ≤ e.2) && decide (e.2 < r.1 + r.2)

/-- When the command of a slot was posted. -/
def State.postedAt (s : State) (e : Nat × Nat) : Option Nat := ((s.slot e.1 e.2).cmd).map (·.at_)

/-- The slot that is taken next (11 R309): posted PF commands before any other, each group in order of arrival, and those that arrived together in
order of function and slot. -/
def State.nextTake (s : State) : Option (Nat × Nat) :=
  let pf := s.host.order.filter fun e => e.1 == 0
  match (if pf = [] then s.host.order else pf) with
  | [] => none
  | e :: l => some ((l.takeWhile fun d => s.postedAt d == s.postedAt e).foldl (fun m d =>
      if slotKey d.1 d.2 < slotKey m.1 m.2 then d else m) e)

/-- The next command to be taken, if it stands in this slot. -/
def State.posted (s : State) (fn slot : Nat) : Option Cmd :=
  if s.mailboxUp && s.nextTake == some (fn, slot) then
    match (s.slot fn slot).cmd with
    | some c => if c.taken then none else some c
    | none => none
  else none

/-- A command's completion is written, unless a function reset has freed its slot (11 R303, R306, R310, R321). -/
def State.complete (s : State) (fn slot : Nat) (id status detail : Nat) (result : List Byte) : State :=
  let x := s.slot fn slot
  match x.cmd with
  | some c =>
    if c.id = id then
      let s := s.setSlot fn slot { x with
        cmd := none,
        comp := some { op := c.op, status := status, detail := if status = stRefused ∨ status = stFault then detail else 0,
                       tag := c.tag, result := result, seq := c.seq } }
      if c.irq then s.raise fn slot else s
    else s
  | none => s

/-- The opcodes of the commands (11 R312). -/
def opcodes : List Nat :=
  [0x01, 0x02, 0x03, 0x10, 0x11, 0x12, 0x13, 0x20, 0x21, 0x22, 0x30, 0x31, 0x40, 0x41, 0x42, 0x43, 0x50, 0x51, 0x60, 0x70, 0x71, 0x72,
   0x7F]

/-- The command of a slot leaves the posted ones: its SEQ becomes the slot's last taken value (11 R307, R309). -/
def State.taking (s : State) (fn slot : Nat) (c : Cmd) : State :=
  let s := s.modHost fun h => { h with order := h.order.filter (· != (fn, slot)) }
  let x := s.slot fn slot
  s.setSlot fn slot { x with last := c.seq, cmd := some { c with taken := true } }

/-- Commands with a reserved opcode have no row of their own: each is taken and completed once it is the next (11 R309, R311; DEDUCED, log 89). -/
def State.takeReserved (s : State) : Nat → State
  | 0 => s
  | n + 1 =>
    match s.nextTake with
    | some (fn, slot) =>
      match s.posted fn slot with
      | some c => if opcodes.contains c.op then s else ((s.taking fn slot c).complete fn slot c.id stBadArg 0 []).takeReserved n
      | none => s
    | none => s

/-- The command of a slot is taken (11 R307, R309), and with it any reserved one that is then next. -/
def State.take (s : State) (fn slot : Nat) (c : Cmd) : State :=
  let s := s.taking fn slot c
  s.takeReserved s.host.order.length

/-- A taken command goes on in the background. -/
def State.wait (s : State) (fn slot : Nat) (id : Nat) (k : WaitKind) : State :=
  s.modHost fun h => { h with waits := h.waits ++ [{ id := id, fn := fn, slot := slot, kind := k, since := s.now }] }

/-- Complete every waiting command whose kind satisfies `p`. -/
def State.completeWaits (s : State) (p : WaitKind → Bool) (status detail : Nat) (result : List Byte) : State :=
  let l := s.host.waits.filter fun w => p w.kind
  let s := s.modHost fun h => { h with waits := h.waits.filter fun w => !p w.kind }
  l.foldl (fun s w => s.complete w.fn w.slot w.id status detail result) s

/-! ### The checks of every command (11 R311, R312) -/

/-- What R312 says of a command: PF only, the states it is available in, and whether it has expert arguments. -/
structure CmdRow where
  pf : Bool := false
  states : List Mode
  expert : Bool := false
  deriving DecidableEq, Repr

def modesManagement : List Mode :=
  [.awaitingConfig, .haltedConfig, .awaitingCoords, .ready, .serving, .recovering, .withdrawn]
def modesConfig : List Mode := [.haltedConfig, .awaitingCoords, .ready, .withdrawn]
def modesCompute : List Mode := [.ready, .serving]
def modesSession : List Mode := [.ready, .serving, .recovering]

/-- Steps 1 to 6 of R311: the status of the first check that fails. `argsOk` is step 1's check of the argument bytes. -/
def State.preCheck (s : State) (fn : Nat) (c : Cmd) (r : CmdRow) (argsOk : Bool) : Option Nat :=
  if !c.headerOk || !argsOk || (c.expert && !r.expert) then some stBadArg
  else if s.mode = .withdrawn ∧ ¬ s.mode ∈ r.states then some stWithdrawn
  else if r.pf ∧ fn ≠ 0 then some stNotPerm
  else if c.expert && !s.expert fn then some stNotPerm
  else if s.mode = .recovering ∧ ¬ s.mode ∈ r.states then some stBusy
  else if ¬ s.mode ∈ r.states then some stRefused
  else none

/-- How a command's own work ends: completed with a status, or still going on. -/
inductive Done where
  | comp (s : State) (status detail : Nat) (result : List Byte)
  | waits (s : State)

/-- Run the command of a slot: it is due when it is the next to be taken and has this opcode and form. -/
def State.runCmd (s : State) (fn slot op : Nat) (form : Cmd → Bool) (r : CmdRow) (argsOk : Cmd → Bool)
    (body : State → Cmd → Done) : State :=
  match s.posted fn slot with
  | none => s
  | some c =>
    if c.op = op ∧ form c = true then
      let s := s.take fn slot c
      match s.preCheck fn c r (argsOk c) with
      | some st => s.complete fn slot c.id st 0 []
      | none =>
        match body s c with
        | .comp s st d res => s.complete fn slot c.id st d res
        | .waits s => s
    else s

/-- Run a command whose own rules take the place of steps 2 to 7 (11 R311). -/
def State.runOwn (s : State) (fn slot op : Nat) (form : Cmd → Bool) (argsOk : Cmd → Bool)
    (body : State → Cmd → Done) : State :=
  match s.posted fn slot with
  | none => s
  | some c =>
    if c.op = op ∧ form c = true then
      let s := s.take fn slot c
      if !c.headerOk || !argsOk c || c.expert then s.complete fn slot c.id stBadArg 0 []
      else
        match body s c with
        | .comp s st d res => s.complete fn slot c.id st d res
        | .waits s => s
    else s

/-! ### Host memory (11 R305) -/

/-- A failed host memory read (11 R305, R324): the snag's code if it was logged. -/
def State.dmaFail (s : State) (fn op addr cause req : Nat) : State × Nat :=
  let was := s.host.dmaErr
  let s := s.modHost fun h => { h with dmaErr := true, dmaCnt := satAdd h.dmaCnt 1 0xFFFF }
  if was then (s, 0) else (s.snag 0x6020 2 19 fn [op, addr, cause, req], 0x6020)

/-- A read of host memory for a command: REFUSED while Bus Master Enable is 0, FAULT when the read fails. -/
def State.dmaRead {α : Type} (s : State) (fn : Nat) (c : Cmd) (addr : Nat) (x : Fetch α) (k : State → α → Done) : Done :=
  if mget false s.host.busMaster fn then
    match x with
    | .got a => k s a
    | .fail cause =>
      let r := s.dmaFail fn c.op addr cause 0
      .comp r.1 stFault (r.2 * 2 ^ 16) []
  else .comp s stRefused 0 []

/-- A read of bytes. -/
def fetchBytes : HostRead → Fetch (List Byte)
  | .bytes b => .got b
  | .fail c => .fail c

/-- A function may write host memory (11 R305). -/
def State.mayWrite (s : State) (fn : Nat) : Bool := mget false s.host.busMaster fn && s.host.linkUp

/-- A write of host memory for a function's request: discarded while Bus Master Enable is 0 (11 R305). -/
def State.hostWrite (s : State) (fn addr : Nat) (b : List Byte) : State :=
  if s.mayWrite fn then s.emit (.hostWrite fn addr b (s.streamOf fn)) else s

end Sys2Proof.Machine
end

