-- ==== Sys2Proof/Machine/Pages.lean ====
section
/-! DEFINITION. Context dies: access, addresses, page table entries, page zeroing and copying, and the free ring (chapter 07). -/

namespace Sys2Proof.Machine

/-- Context die `k`. -/
def State.ctx (s : State) (k : Nat) : CtxDie := if k = 0 then s.ctx0 else s.ctx1

/-- Replace Context die `k`. -/
def State.setCtx (s : State) (k : Nat) (c : CtxDie) : State := if k = 0 then { s with ctx0 := c } else { s with ctx1 := c }

/-- Update Context die `k`. -/
def State.modCtx (s : State) (k : Nat) (f : CtxDie → CtxDie) : State := s.setCtx k (f (s.ctx k))

/-- A Context die's sticky status bit sets; the snag is logged when it was 0 (07 R232). -/
def State.stickyCtx (s : State) (k : Nat) (was : Bool) (set : CtxDie → CtxDie) (code sev unit : Nat) (args : List Nat) :
    State :=
  let s' := s.modCtx k set
  if was then s' else s'.snag code sev (17 + k) unit args

/-! ### Addresses (07 R203, R204, R207) -/

/-- The die-local stack of a page. -/
def ppnStack (p : Nat) : Nat := p / 2 ^ 20 % 8

/-- The die of a page. -/
def ppnDie (p : Nat) : Nat := p / 2 ^ 23 % 2

/-- A page of the firmware region (07 R204). -/
def ppnFirmware (p : Nat) : Bool := ppnStack p == 0 && decide (p % 2 ^ 20 < 32768)

/-- A page of die `k` outside the firmware region, on a stack that exists. -/
def ppnUsable (k p : Nat) : Bool := ppnDie p == k && decide (ppnStack p < 6) && !ppnFirmware p

/-- The key of line `l` of page `p` in a die's memory. -/
def lineKey (p l : Nat) : Nat := p % 2 ^ 23 * 1024 + l

/-- The channel of a line key (07 R203). -/
def keyChannel (a : Nat) : Nat := (a / 16 % 32 + a / 1024 % 32) % 32

/-- A stack is in service (07 R231). -/
def State.stackUp (s : State) (k st : Nat) : Bool :=
  s.boot.hbmUp.getLsbD (6 * k + st) && !(s.ctx k).stackOut.getLsbD st && !(s.ctx k).lost

/-- A Context die is in service (07 R231): its rails up, its attach links trained, a stack in service. -/
def State.ctxInService (s : State) (k : Nat) : Bool :=
  !(s.ctx k).lost && mget Rail.off s.pwr.rails (66 + k) == .up &&
  (List.range 36).any (fun y => mget 0 s.boot.d2d (4 * bayAt (31 * k) y + (if k = 0 then 3 else 1)) == 1) &&
  (List.range 6).any (s.stackUp k)

/-- Page table entry of a tenant (07 R207). -/
def State.pte (s : State) (tenant lpn : Nat) : BitVec 32 := mget 0 s.pages (2 ^ 25 * tenant + lpn)

/-- Write a page table entry. -/
def State.setPte (s : State) (tenant lpn : Nat) (v : BitVec 32) : State :=
  { s with pages := mset 0 s.pages (2 ^ 25 * tenant + lpn) v }

def pteValid (v : BitVec 32) : Bool := v.getLsbD 28
def pteRo (v : BitVec 32) : Bool := v.getLsbD 29 || v.getLsbD 30
def ptePpn (v : BitVec 32) : Nat := fld v 0 24

/-- A VALID entry for a page. -/
def mkPte (ppn : Nat) (shared : Bool) : BitVec 32 := BitVec.ofNat 32 (2 ^ 28 + (if shared then 2 ^ 30 else 0) + ppn)

/-- The tenant gets its record in the CMMs, if it has none (07 R207; log 41). -/
def State.openTable (s : State) (tenant : Nat) : State :=
  if (mget ({} : TenantRec) s.ctx0.tenants tenant).len ≠ 0 then s
  else
    let p := Config.tablePage tenant
    let r : TenantRec := { base := 2 ^ 23 * (p / 32768 % 2) + p % 32768, len := Config.pageTableLen tenant }
    { s with ctx0 := { s.ctx0 with tenants := mset {} s.ctx0.tenants tenant r },
             ctx1 := { s.ctx1 with tenants := mset {} s.ctx1.tenants tenant r } }

/-- The tenant and the first entry that a line of die `k` holds, if it is a page table's (07 R204, R207). -/
def State.tableAt (s : State) (k key : Nat) : Option (Nat × Nat) :=
  (s.ctx k).tenants.findSome? fun e =>
    let b := lineKey e.2.base 0
    if ppnDie e.2.base = k ∧ b ≤ key ∧ key < b + (e.2.len + 15) / 16 then some (e.1, 16 * (key - b)) else none

/-- The line of a tenant's page table that holds an entry, where it lies on die `k`. -/
def State.pteKey (s : State) (k tenant lpn : Nat) : Option Nat :=
  let r := mget ({} : TenantRec) (s.ctx k).tenants tenant
  if ppnDie r.base = k ∧ lpn < r.len then some (lineKey r.base 0 + lpn / 16) else none

/-- A line of die `k` as it stands in memory: a page table's line is made of its entries (07 R204). -/
def State.fwLine (s : State) (k key : Nat) : Line :=
  let x := mget {} (s.ctx k).mem key
  match s.tableAt k key with
  | some (t, j) =>
    { x with data := BitVec.ofNat 512 ((List.range 16).foldr (fun i acc => (s.pte t (j + i)).toNat + 2 ^ 32 * acc) 0) }
  | none => x

/-- A line is written to die `k`'s firmware region: a page table's entries, or memory (07 R204, R218). -/
def State.fwStore (s : State) (k key : Nat) (x : Line) : State :=
  match s.tableAt k key with
  | some (t, j) =>
    (List.range 16).foldl (fun s i => s.setPte t (j + i) (x.data.extractLsb' (32 * i) 32))
      (s.modCtx k fun c => { c with mem := mset {} c.mem key { flips := x.flips } })
  | none => s.modCtx k fun c => { c with mem := mset {} c.mem key x }

/-- A page table entry as the CMM of die `k` reads it from HBM: with what is wrong in its line (07 R205, R207). -/
def State.readPte (s : State) (k tenant lpn : Nat) : BitVec 32 :=
  match s.pteKey k tenant lpn with
  | some key =>
    let x := s.fwLine k key
    if x.flips = 0 then s.pte tenant lpn else (x.value s.freeVal).extractLsb' (32 * (lpn % 16)) 32
  | none => s.pte tenant lpn

/-- The CMM writes an entry (07 R210): the check bits of its word are computed anew. -/
def State.cmmPte (s : State) (k tenant lpn : Nat) (v : BitVec 32) : State :=
  (match s.pteKey k tenant lpn with
    | some key => s.modCtx k fun c =>
        let x := mget ({} : Line) c.mem key
        { c with mem := mset ({} : Line) c.mem key { x with flips := clearFlips x.flips (BitVec.ofNat 64 (2 ^ 8 - 1) <<< (8 * (lpn % 16 / 2))) } }
    | none => s).setPte tenant lpn v

/-! ### Pages (07 R211, R217) -/

/-- A page becomes all zeros, its SEC-DED bits too (07 R211, R217). -/
def CtxDie.zeroPage (c : CtxDie) (p : Nat) : CtxDie := { c with mem := c.mem.filter fun e => e.1 / 1024 != p % 2 ^ 23 }

/-- A page is copied whole, line by line. -/
def CtxDie.copyPage (c : CtxDie) (dst src : Nat) : CtxDie :=
  let ls := (c.mem.filter fun e => e.1 / 1024 == src % 2 ^ 23).map fun e => (e.1 % 1024, e.2.handOn)
  let c := c.zeroPage dst
  { c with mem := ls.foldl (fun m e => mset {} m (lineKey dst e.1) e.2) c.mem }

/-- A page is held: a kept prefix or a page table entry names it (07 R211, R215). -/
def State.pageHeld (s : State) (ppn : Nat) : Bool :=
  s.pages.any (fun e => pteValid e.2 && ptePpn e.2 == ppn) ||
    s.prefixes.any fun e => match e.2 with
      | some p => p.pages.any (fun x => x.2.2 == ppn) || p.copies.any (fun x => x.2 == ppn)
      | none => false

/-- A page that nothing holds is zeroed and goes back to its die's free ring (07 R211); one on a stack out of service is
lost with it. -/
def State.freePage (s : State) (ppn : Nat) : State :=
  let k := ppnDie ppn
  if s.pageHeld ppn || !ppnUsable k ppn || !s.stackUp k (ppnStack ppn) then s
  else s.modCtx k fun c => { c.zeroPage ppn with ring := c.ring ++ [ppn] }

/-- The page table entries of `n` logical pages from `lpn` are cleared, and their pages freed. -/
def State.freeLpns (s : State) (tenant lpn n : Nat) : State :=
  let lo := 2 ^ 25 * tenant + lpn
  let l := s.pages.filter fun e => decide (lo ≤ e.1 ∧ e.1 < lo + n)
  let s := { s with pages := s.pages.filter fun e => !decide (lo ≤ e.1 ∧ e.1 < lo + n) }
  l.foldl (fun s e => if pteValid e.2 then s.freePage (ptePpn e.2) else s) s

/-- Release a sequence (07 R211): its pages, then its table entry. -/
def State.releaseSeq (s : State) (k seq : Nat) : State :=
  let q := mget ({} : SeqEnt) (s.ctx k).seqs seq
  if q.valid then
    (s.modCtx k fun c => { c with seqs := mset {} c.seqs seq {} }).freeLpns q.tenant q.lpnBase (q.layers * q.heads * q.jMax)
  else s

end Sys2Proof.Machine
end

