-- ==== Sys2Proof/Machine/Arbiter.lean ====
section
/-! DEFINITION. The arbiters of the HBM channels (07 R206, R226–R229): pending transfers, rounds, pre-emption, refresh and starvation counts. A
round is 1 ns and moves one line of a transfer; `at_` is the next round to be decided. -/

namespace Sys2Proof.Machine

/-- Transfers latched for the decision of round `r`: made in the round before, from the requests at that round's start (07 R228). -/
def Chan.latched (c : Chan) (r : Nat) : List HbmXfer := c.xfers.filter fun x => decide (x.at_ + 2 ≤ r)

/-- A P0 transfer is pending, so that a due refresh waits (07 R206). -/
def Chan.p0 (c : Chan) (r : Nat) : Bool := (c.latched r).any fun x => x.level == 0

/-- The transfer that wins round `r` where no refresh holds it (07 R227): the highest level, there the requester that holds the channel, else round
robin after the one last granted at that level (DEDUCED, log 192: a pre-empted requester no longer holds it). -/
def Chan.winner (c : Chan) (r : Nat) : Option HbmXfer :=
  let l := c.latched r
  match (List.range 3).find? fun v => l.any fun x => x.level == v with
  | none => none
  | some v =>
    let l := l.filter fun x => x.level == v
    let held := match c.hold with | some (q, u) => if u = v then l.find? fun x => x.req == q else none | none => none
    match held with
    | some x => some x
    | none =>
      ((List.range 18).map fun i => (mget 17 c.last v + 1 + i) % 18).findSome? fun q => l.find? fun x => x.req == q

/-- One beat of a transfer is made; it leaves the list with its last (07 R228). -/
def beat (x : HbmXfer) : List HbmXfer → List HbmXfer
  | [] => []
  | y :: l => if y = x then (if x.beats ≤ 1 then l else { x with beats := x.beats - 1 } :: l) else y :: beat x l

/-- Rounds pending without winning (07 R229), by 4·requester + level: a requester that wins starts anew. -/
def Chan.wait (c : Chan) (r : Nat) (win : Option HbmXfer) : SMap Nat :=
  (((c.xfers.filter fun x => decide (x.at_ < r)).map fun x => 4 * x.req + x.level).dedup).foldl (fun m k =>
    mset 0 m k (if win.any fun x => 4 * x.req + x.level == k then 0 else mget 0 m k + 1)) c.waits

/-- Round `at_` of a channel: a refresh, which runs 28 rounds without interruption, or the winner. True: the transfer in progress was pre-empted
(07 R227, R228). `limit` is STARVE_ROUNDS. -/
def Chan.round (c : Chan) (limit : Nat) : Chan × Bool :=
  let r := c.at_
  let c := if c.refresh = 0 ∧ c.due ≠ 0 ∧ c.p0 r = false then { c with refresh := 28, due := c.due - 1 } else c
  let w := if c.refresh = 0 then c.winner r else none
  let waits := c.wait r w
  let reach := (waits.filter fun e => limit != 0 && e.2 == limit && mget 0 c.waits e.1 != limit).map (·.1)
  let pre := match c.hold, w with
    | some h, some x => (x.req, x.level) != h
    | some _, none => c.refresh != 0
    | none, _ => false
  let done := match w with | some x => decide (x.beats ≤ 1) | none => true
  ({ c with
      at_ := r + 1, refresh := c.refresh - 1, waits := waits, starved := c.starved ++ reach,
      hold := if done then none else w.map fun x => (x.req, x.level),
      last := match w with | some x => mset 17 c.last x.level x.req | none => c.last,
      xfers := match w with | some x => beat x c.xfers | none => c.xfers }, pre)

/-- Nothing is pending on the channel. -/
def Chan.idle (c : Chan) : Bool := c.xfers == [] && c.refresh == 0 && c.due == 0

/-- The channel with its rounds up to `now` played, at most `n` of them, and the transfers pre-empted meanwhile. -/
def Chan.advance (limit now : Nat) : Nat → Chan → Chan × Nat
  | 0, c => (c, 0)
  | n + 1, c =>
    if c.idle then ({ c with at_ := 0, hold := none, waits := [] }, 0)
    else if now ≤ c.at_ then (c, 0)
    else
      let x := c.round limit
      let y := Chan.advance limit now n x.1
      (y.1, y.2 + if x.2 then 1 else 0)

/-- Channel `i` (32·stack + channel) of a die. -/
def CtxDie.chan (c : CtxDie) (i : Nat) : Chan := mget {} c.chans i

/-- Every channel's rounds up to `now` are played; the pre-emptions are counted (07 R228). -/
def CtxDie.arbitrate (c : CtxDie) (now : Nat) : CtxDie :=
  c.chans.foldl (fun d e =>
    let x := Chan.advance d.starveRounds.toNat now (now - e.2.at_ + 1) e.2
    { d with chans := mset {} d.chans e.1 x.1, preempt := satAdd d.preempt x.2 0xFFFFFFFF }) c

/-- The die as it stands at `now`, its channels at rest: how its registers read then. -/
def CtxDie.stopped (c : CtxDie) (now : Nat) : CtxDie := { c.arbitrate now with chans := [] }

/-- A channel about to take something new at `now`. -/
def Chan.wake (c : Chan) (now : Nat) : Chan := if c.idle then { c with at_ := now } else c

/-- A transfer reaches its channel. -/
def CtxDie.addXfer (c : CtxDie) (now i : Nat) (x : HbmXfer) : CtxDie :=
  let y := (c.chan i).wake now
  { c with chans := mset {} c.chans i { y with xfers := y.xfers ++ [x] } }

/-- The transfers of a list of lines (07 R226): per 1 KiB chunk, at most 16 beats. The j-th reaches its channel `iss[j]` rounds from now: an
engine's pace is not the manual's (DESIGN CHOICE, log 36). -/
def CtxDie.issue (c : CtxDie) (now req level : Nat) (iss keys : List Nat) : CtxDie :=
  (keys.map (· / 16)).dedup.zipIdx.foldl (fun c e =>
    c.addXfer now (32 * (e.1 / 2 ^ 26) + keyChannel (16 * e.1))
      { req := req, level := level, at_ := now + iss.getD e.2 0, beats := (keys.dedup.filter fun k => k / 16 == e.1).length }) c

/-- A compute reset abandons every request: queues and pending transfers (07 R230). -/
def CtxDie.abandon (c : CtxDie) (now : Nat) : CtxDie :=
  let c := c.arbitrate now
  { c with queues := [], chans := c.chans.foldl (fun m e => mset {} m e.1 { e.2 with xfers := [], hold := none, waits := [] }) c.chans }

end Sys2Proof.Machine
end

