-- ==== Sys2Proof/Machine/Stops.lean ====
section
/-! DEFINITION. Plans leaving the set of started plans, and plans unloaded: the shared operations (05 R142; 04 R133; 06 R191;
07 R201; 09 R272; 10 R285). -/

namespace Sys2Proof.Machine

/-- Scratchpad, flags, queues and ejection buffers are zeroed (04 R133). -/
def Bay.zeroStores (y : Bay) : Bay :=
  { y with sp := [], flags := 0, queues := y.queues.map fun e => (e.1, { ovr := e.2.ovr : Queue }), eject := [] }

/-- Drop entries equal to the default. -/
def mclean {α : Type} [DecidableEq α] (d : α) (m : SMap α) : SMap α := m.filter fun e => e.2 ≠ d

/-- BAY_ALLOC.VALID goes from 1 to 0 (04 R133): the stores are zeroed and HALTED clears. -/
def Bay.invalidate (y : Bay) : Bay :=
  if y.allocValid then
    let z := y.zeroStores
    { z with allocValid := false, queues := mclean {} z.queues, seq := { y.seq with halted := false } }
  else y

/-- Update the loaded plan of an id. -/
def State.modPlan (s : State) (id : Nat) (f : Loaded → Loaded) : State :=
  { s with plans := s.plans.map fun p => if p.img.id = id then f p else p }

/-- The loaded plan of an id. -/
def State.plan (s : State) (id : Nat) : Option Loaded := s.plans.find? fun p => p.img.id == id

/-- The fence placement active for a plan (13 R374): one in force while the plan is started. -/
def Loaded.active (p : Loaded) : Option FencePl :=
  if p.started then match p.placement with | some i => p.img.fences[i]? | none => none else none

/-- The key of a panel's bank record (09 R264). -/
def bankKey (k bank : Nat) : Nat := 2 * k + bank

/-- A bank record. -/
def State.bankRec (s : State) (k bank : Nat) : BankRec := mget {} s.weights.banks (bankKey k bank)

/-- Write a bank record. -/
def State.setBank (s : State) (k bank : Nat) (r : BankRec) : State :=
  { s with weights := { s.weights with banks := mset {} s.weights.banks (bankKey k bank) r } }

/-- A placement ends: the back banks its fills used return to EMPTY (09 R272). -/
def State.endPlacement (s : State) (p : Loaded) : State :=
  match p.active with
  | some f => f.fills.foldl (fun s x => s.setBank x.1 ((s.panel x.1).resolve .back) {}) s
  | none => s

/-- Bays a started plan other than `id` holds (05 R162). -/
def State.heldByOther (s : State) (id b : Nat) : Bool :=
  s.plans.any fun p => p.started && p.img.id != id && p.bays.any fun e => e.bay == b

/-- A plan is unloaded (05 R142): its bays' BAY_ALLOC becomes invalid, and its tree ids, context map id, fabric stream ids and
spill area are freed. -/
def State.unloadPlan (s : State) (p : Loaded) : State :=
  let s := p.bays.foldl (fun s e => if s.heldByOther p.img.id e.bay then s else s.modBay e.bay Bay.invalidate) s
  let s := (s.rtrs.map (·.1)).foldl (fun s b =>
    s.modRtr b fun r => { r with mc := r.mc.filter fun e => !p.treeIds.contains e.1 }) s
  let s := { s with fab := { s.fab with streams := s.fab.streams.filter fun e => !p.streamIds.contains e.1 } }
  let s := match p.map with
    | some m =>
      let s := [0, 1].foldl (fun (s : State) k => s.modCtx k fun c => { c with maps := c.maps.filter fun e => e.1 / 256 != m }) s
      s.freeLpns p.owner p.spillBase p.img.layout.spill
    | none => s
  { s with plans := s.plans.filter fun q => q.img.id != p.img.id }

/-- Waiting commands that name a plan. -/
def WaitKind.stops (id : Nat) : WaitKind → Bool
  | .planStop i => i == id
  | .planUnload i => i == id
  | _ => false

/-- A plan whose bays have all stopped leaves the set of started plans; PLAN_STOP completes, and PLAN_UNLOAD goes on to unload
it (05 R142). -/
def State.leaveStarted (s : State) (p : Loaded) : State :=
  let s := s.endPlacement p
  let s := s.modPlan p.img.id fun q =>
    { q with started := false, stopping := false, step := none, rerun := none, closed := [], slots := [] }
  let s := if p.unloading then s.unloadPlan { p with started := false } else s
  let s := s.completeWaits (WaitKind.stops p.img.id) stOk 0 []
  if s.mode = .serving ∧ s.plans.all (fun q => !q.started) = true then s.setMode .ready else s

/-- Stops that are due take place: RUNNING has cleared on every bay of the plan (05 R142). -/
def State.settleStops (s : State) : State :=
  s.plans.foldl (fun s p =>
    if p.stopping && p.bays.all fun e => !(s.bay e.bay).seq.running then s.leaveStarted p else s) s

end Sys2Proof.Machine
end

