-- ==== Sys2Proof/Machine/Stroke.lean ====
section
/-! DEFINITION. The stroke sequencer's shared operations: stroke fields, scratchpad accesses, flags, queues, segments, the
completion of a stroke and the start of a program (chapters 04 and 05). -/

namespace Sys2Proof.Machine

/-! ### Scratchpad (04 R106, R113, R116) -/

/-- The segment of a line (04 R106). -/
def segOf (l : Nat) : Nat := l / 1536

/-- The bank of a line (04 R106). -/
def bankOf (l : Nat) : Nat := 4 * segOf l + l % 4

/-- The line can be accessed: it exists and its segment is ON (04 R116). -/
def Bay.lineOn (y : Bay) (l : Nat) : Bool := decide (l < 6144) && (mget {} y.segs (segOf l)).mode == .on

/-- Segments that are ON, as a mask. -/
def Bay.segMask (y : Bay) : BitVec 4 :=
  BitVec.ofNat 4 ((List.range 4).foldr (fun i a => (if (mget {} y.segs i).mode == .on then 1 else 0) + 2 * a) 0)

/-- The line as it stands; zero where nothing was written. -/
def Bay.line (y : Bay) (l : Nat) : Line := mget {} y.sp l

/-- The line with the words a byte mask touches as a read gives them, and the others as they are stored: what a masked write keeps
(04 R113). -/
def lineBeneath (x : Line) (mask : BitVec 64) (free : Nat) : BitVec 512 :=
  let v := x.value free
  BitVec.ofNat 512 ((List.range 8).foldr (fun w acc =>
    (if fld mask (8 * w) 8 = 0 then fld x.data (64 * w) 64 else fld v (64 * w) 64) + 2 ^ 64 * acc) 0)

/-- Write bytes of a line; a line whose segment is not ON discards the write (04 R116). Words the mask does not touch stay as they are
stored, errors and all (04 R113). -/
def Bay.writeLine (y : Bay) (l : Nat) (d : BitVec 512) (mask : BitVec 64) (flips : BitVec 576) (free : Nat) : Bay :=
  if y.lineOn l then
    let x := y.line l
    let new : Line :=
      if mask = BitVec.allOnes 64 then { data := d, flips := flips }
      else if x.flips = 0 then { data := overlay x.data d mask }
      else { data := overlay (lineBeneath x mask free) d mask, flips := clearFlips x.flips mask }
    { y with sp := mset {} y.sp l new }
  else y

/-- Store a line as it arrives, its check bits as carried (06 R177). -/
def Bay.storeLine (y : Bay) (l : Nat) (x : Line) : Bay :=
  if y.lineOn l then { y with sp := mset {} y.sp l x } else y

/-- Bits of the scratchpad that have changed. -/
def Bay.upset (y : Bay) (ups : List Upset) : Bay :=
  ups.foldl (fun y u => if u.line < 6144 then { y with sp := mset {} y.sp u.line ((y.line u.line).flip u.bit) } else y) y

/-- Report the words of a line found in error by a read (04 R113); `addr w` is word w's snag address. -/
def State.reportEcc (s : State) (b : Nat) (errs : List (Nat × Nat)) (addr : Nat → Nat) : State :=
  errs.foldl (fun s e =>
    let y := s.bay b
    if e.2 = 1 then s.modBay b fun y => { y with corr := satAdd y.corr 1 0xFFFF }
    else
      let s := s.stickyBay b y.spUncorr (fun y => { y with spUncorr := true, uncorr := satAdd y.uncorr 1 0xFFFF })
        0x2021 2 [addr e.1, 0, 0, y.strokeCnt]
      s.signalFault b 2 none) s

/-- A read of a scratchpad line outside a stroke: its value, with errors reported (04 R113, R116). -/
def State.readSp (s : State) (b l : Nat) : BitVec 512 × State :=
  let y := s.bay b
  if y.lineOn l then
    let x := y.line l
    (x.value s.freeVal, s.reportEcc b (x.errs s.freeVal) fun w => 64 * l + 8 * w)
  else (0, s)

/-- An access to a segment that is not ON (04 R116): byte address and client number. -/
def State.segError (s : State) (b addr client : Nat) : State :=
  let y := s.bay b
  s.stickyBay b y.segErr (fun y => { y with segErr := true }) 0x2020 2 [segOf (addr / 64), addr, client, y.strokeCnt]

/-! ### Segments (04 R114, R115) -/

/-- Contents of a segment are lost. -/
def Bay.dropSeg (y : Bay) (g : Nat) : Bay := { y with sp := y.sp.filter fun e => segOf e.1 != g }

/-- The mode bits of BAY_SEG_CTRL and SEG_MODE (04): 0b11 acts as ON. -/
def segModeOf (v : Nat) : SegMode := if v = 1 then .retain else if v = 2 then .off else .on

/-- The bits of a mode. -/
def SegMode.bits : SegMode → Nat
  | .on => 0
  | .retain => 1
  | .off => 2

/-- A segment enters a mode: leaving RETAIN or OFF for ON it wakes, and from OFF it is zeroed (04 R115). -/
def Bay.enterSeg (y : Bay) (g : Nat) (m : SegMode) : Bay :=
  let x := mget ({} : Seg) y.segs g
  let y := if m = .off then y.dropSeg g else y
  let new : Seg :=
    if m = .on then
      if x.mode = .on then { x with goal := none } else { mode := .on, waking := true, zeroing := x.mode == .off }
    else { mode := m }
  { y with segs := mset {} y.segs g new }

/-- A segment is to take a mode; entry to RETAIN or OFF from ON waits for SEGMENT_SLEEP (04 R115). -/
def Bay.askSeg (y : Bay) (g : Nat) (m : SegMode) : Bay :=
  let x := mget ({} : Seg) y.segs g
  if m ≠ .on ∧ x.mode = .on then { y with segs := mset {} y.segs g { x with goal := some m } } else y.enterSeg g m

/-! ### Flags (04 R125) -/

/-- A flag is 1. -/
def Bay.flag (y : Bay) (f : Nat) : Bool := y.flags.getLsbD f

/-- Bits [lo + n − 1 : lo] of word Wi of a stroke word (05 R143). -/
def sw (w : BitVec 256) (i lo n : Nat) : Nat := fld w (32 * i + lo) n

/-- The flags a stroke waits on (05 R143). -/
def stWaits (w : BitVec 256) : List Nat := (bitsOf (BitVec.ofNat 8 (sw w 0 8 8)) 8).map (sw w 0 0 8 + ·)

/-- Commands waiting that come about at this instant. -/
def State.sameInstant (s : State) : List Instr := s.pending.takeWhile fun c => decide (c.time ≤ s.now)

/-- The bay's next stroke waits on nothing else than STROKE_START (05 R137). -/
def Bay.startable (y : Bay) : Bool :=
  y.seq.prog.isSome && y.seq.running && !y.seq.halted && y.seq.cur.isNone && !y.skipHold &&
    match y.seq.strokes[y.seq.pc]? with | some w => (stWaits w).all y.flag | none => false

/-- At this same instant a stroke start clears flag `f` (04 R126): its command waits, and its waits are satisfied. -/
def State.clearsNow (s : State) (b f : Nat) : Bool :=
  let y := s.bay b
  y.startable && (match y.seq.strokes[y.seq.pc]? with | some w => (stWaits w).contains f | none => false) &&
    !y.flagsKept.getLsbD f &&
    s.sameInstant.any fun c => match c with | .strokeStart _ b' _ => (b' : Nat) == b | _ => false

/-- Set a flag: source 0 stroke, 1 message, 2 firmware, 3 audit, with the message's source coordinate (04 R125). Where a clear reaches the
flag at the same instant, the clear is applied first, and this set leaves the flag at 1 (04 R126). -/
def State.setFlag (s : State) (b f src coord : Nat) : State :=
  let y := s.bay b
  if y.flag f && s.clearsNow b f then s.modBay b fun y => { y with flagsKept := y.flagsKept ||| BitVec.ofNat 256 (2 ^ f) }
  else if y.flag f then
    s.stickyBay b y.flagOvr (fun y => { y with flagOvr := true, flagOvrCnt := satAdd y.flagOvrCnt 1 0xFFFF })
      0x2010 2 [f, src, coord, y.strokeCnt]
  else s.modBay b fun y => { y with flags := y.flags ||| BitVec.ofNat 256 (2 ^ f) }

/-! ### Queues (04 R128) -/

/-- Queue `q`. -/
def Bay.queue (y : Bay) (q : Nat) : Queue := mget {} y.queues q

/-- The order of pushes that arrive together (04 R129): a stroke, link receives N, E, S, W, local, management. -/
inductive PushFrom where
  | stroke
  | link (port : Nat)
  | mgmt
  deriving DecidableEq, Repr

/-- A place in that order. -/
def PushFrom.rank : PushFrom → Nat
  | .stroke => 0
  | .link p => 1 + p
  | .mgmt => 6

/-- Push an entry at time `now` if the queue has room; `pops` entries are popped at the same instant, before the push (04 R128, R129). Of
the entries that arrive together, those of a later source stand behind. -/
def Queue.push? (q : Queue) (x : Line) (src : PushFrom) (now pops : Nat) : Option Queue :=
  if q.items.length < 16 + pops then
    let fresh := if q.at_ = now then q.fresh else []
    let late := fresh.filter fun r => decide (src.rank < r)
    let n := q.items.length - late.length
    some { q with
      items := q.items.take n ++ x :: q.items.drop n, tail := (q.tail + 1) % 16, at_ := now,
      fresh := (fresh.filter fun r => decide (r ≤ src.rank)) ++ src.rank :: late }
  else none

/-- The storage slot of the entry at the head. -/
def Queue.headSlot (q : Queue) : Nat := (q.tail + 16 - q.items.length) % 16

/-- Replace queue `q`. -/
def Bay.setQueue (y : Bay) (q : Nat) (x : Queue) : Bay := { y with queues := mset {} y.queues q x }

/-! ### The stroke word (05 R143) -/

def stSets (w : BitVec 256) : List Nat := (bitsOf (BitVec.ofNat 8 (sw w 0 24 8)) 8).map (sw w 0 16 8 + ·)
def stPanels (w : BitVec 256) : List Nat := bitsOf (BitVec.ofNat 32 (sw w 1 0 32)) 32
def stKind (w : BitVec 256) : Nat := sw w 2 0 2
def stInLine (w : BitVec 256) : Nat := sw w 2 19 13
def stUnit (w : BitVec 256) : Nat := sw w 5 12 2
def stEnd (w : BitVec 256) : Bool := w.getLsbD 224
def stAnchor (w : BitVec 256) : Bool := w.getLsbD 225
def stAudit (w : BitVec 256) : Bool := w.getLsbD 226
def stBarrier (w : BitVec 256) : Bool := w.getLsbD 227
def stLayer (w : BitVec 256) : Nat := sw w 7 16 16

/-- Panels a stroke drains, in ascending order (05 R147). -/
def stDrained (w : BitVec 256) : List Nat :=
  let d := sw w 3 20 2
  if d = 1 then [sw w 3 22 5] else if d = 2 then stPanels w else []

/-- Accumulators drained per panel (05 R147). -/
def stDrainCount (w : BitVec 256) : Nat := 64 * (sw w 5 20 4 + 1)

/-- An unarmed audit stroke runs as if PKIND, DRAIN, UNIT and XFER_COUNT were zero (05 R151). -/
def disarm (w : BitVec 256) : BitVec 256 :=
  w &&& ~~~(BitVec.ofNat 256 (3 * 2 ^ 64 + 3 * 2 ^ 116 + 3 * 2 ^ 172 + 15 * 2 ^ 204))

/-- The tensor table entry of an index (05 R146); a table that ends before it gives zeros. -/
def Seq.tensor (q : Seq) (i : Nat) : BitVec 64 := q.tensors.getD i 0

/-- The descriptor of a tensor table entry. -/
def teDesc (te : BitVec 64) : BitVec 32 := te.extractLsb' 0 32

/-- The format of a tensor table entry. -/
def teFmt (te : BitVec 64) : Fmt := .ofDesc (teDesc te)

/-- The transfer records a stroke names (05 R149). -/
def Seq.strokeXfers (q : Seq) (w : BitVec 256) : List (BitVec 64) := (q.xfers.drop (sw w 6 0 12)).take (sw w 6 12 4)

/-- The operation record a stroke names (05 R148). -/
def Seq.opRec (q : Seq) (w : BitVec 256) : BitVec 128 := q.ops.getD (sw w 5 0 12) 0

/-- The rounding generator's inputs of a stroke (05 R145). -/
def Seq.roundCtx (q : Seq) (w : BitVec 256) : RoundCtx :=
  let e := q.slots.getD (sw w 7 4 8) {}
  if e.valid then
    { seed := e.seed, layer := BitVec.ofNat 16 (stLayer w), pos := e.pos + BitVec.ofNat 32 (sw w 5 24 8) }
  else { seed := 0, layer := BitVec.ofNat 16 (stLayer w), pos := 0 }

/-! ### Operation records (05 R148) -/

def opCode (o : BitVec 128) : Nat := fld o 0 8
def opLen (o : BitVec 128) : Nat := 64 * (fld o 8 6 + 1)
def opBKind (o : BitVec 128) : Nat := fld o 14 2

/-- Vector codes that take a b operand (05 R148). -/
def codeBinary (c : Nat) : Bool := c ∈ [1, 2, 3, 4, 5, 6]

/-- Vector codes of 04 R118. -/
def codeVector (c : Nat) : Bool := decide (1 ≤ c ∧ c ≤ 0xE) || decide (0x10 ≤ c ∧ c ≤ 0x12)

/-- Reductions. -/
def codeReduce (c : Nat) : Bool := decide (0x10 ≤ c ∧ c ≤ 0x12)

/-- Matrix codes. -/
def codeMatrix (c : Nat) : Bool := c ∈ [0x40, 0x41, 0x42]

/-- The stroke has a vector or matrix operation that is present (05 R143); DEDUCED for a code of the other unit
(log 16). -/
def unitPresent (q : Seq) (w : BitVec 256) : Bool :=
  let o := q.opRec w
  opBKind o != 3 &&
    ((stUnit w == 1 && codeVector (opCode o)) || (stUnit w == 2 && codeMatrix (opCode o)))

/-! ### Panel parameters (02 R47) -/

/-- The operation's segments: number, first row, rows, bands as a mask; none for an illegal combination. -/
def panelSegs (w2 : BitVec 32) : Option (List (Nat × Nat × Nat × Nat)) :=
  let mask := fld w2 7 4
  let gain := fld w2 15 2
  if w2.getLsbD 4 then
    if w2.getLsbD 14 || gain == 3 then none
    else match fld w2 5 2 with
      | 1 =>
        if mask = 3 ∨ mask = 12 ∨ mask = 15 then
          some ((if mask % 4 = 3 then [(0, 0, 512, 3)] else []) ++ (if mask / 4 = 3 then [(1, 512, 512, 12)] else []))
        else none
      | 2 => if mask = 15 then some [(0, 0, 1024, 15)] else none
      | _ => none
  else if fld w2 5 2 ≠ 0 ∨ gain ≠ 0 ∨ mask = 0 then none
  else some ((bitsOf (BitVec.ofNat 4 mask) 4).map fun k => (k, 256 * k, 256, 2 ^ k))

/-- Planes P. -/
def panelPlanes (w2 : BitVec 32) : Nat := fld w2 11 3 + 1

/-! ### Scratchpad accesses of a stroke (04 R107, R112) -/

/-- A scratchpad access: port, client number, line, byte mask of a write. -/
structure Access where
  write : Bool
  client : Nat
  line : Nat
  mask : BitVec 64 := BitVec.allOnes 64
  deriving DecidableEq, Repr

/-- Reads of `n` lines. -/
def reads (client l n : Nat) : List Access := (List.range n).map fun i => ⟨false, client, l + i, BitVec.allOnes 64⟩

/-- Writes of a tensor of `v` elements. -/
def tensorWrites (client : Nat) (f : Fmt) (l v : Nat) : List Access :=
  ((splitWrites client l ((v * f.bits + 7) / 8) 0) ++
    (if f.isBx then splitWrites client (l + f.elemLines v) ((v + 31) / 32) 0 else [])).map
    fun x => ⟨true, client, x.line, x.mask⟩

/-- Lines of a panel input (04 R112): those of the masked bands' rows, and for BX the exponent side vector after 1,024
elements (DEDUCED, log 17). For n = 3, 5, 6 and 7 the lines of the elements' 4- and 8-bit containers (03 R74) are counted, not
16·n bytes per 128 rows (DESIGN CHOICE, log 180). -/
def inputLines (f : Fmt) (l mask : Nat) : List Nat :=
  let per := 256 * f.bits
  ((bitsOf (BitVec.ofNat 4 mask) 4).flatMap fun k =>
    (List.range ((per * (k + 1) + 511) / 512 - per * k / 512)).map (l + per * k / 512 + ·)).dedup ++
    (if f.isBx then [l + f.elemLines 1024] else [])

/-- Accesses of tensor `i`'s lines: none where the tensor table ends before it (05 R161 check 9). -/
def Seq.ofTensor (q : Seq) (i : Nat) (f : Fmt → List Access) : List Access :=
  if i < q.tensors.length then f (teFmt (q.tensor i)) else []

/-- Accesses of the panel part. -/
def panelAccesses (q : Seq) (w : BitVec 256) : List Access :=
  if stPanels w = [] then []
  else match stKind w with
    | 1 => q.ofTensor (sw w 3 0 10) fun f =>
             (inputLines f (stInLine w) (sw w 2 7 4)).map fun l => ⟨false, 1, l, BitVec.allOnes 64⟩
    | 3 => if w.getLsbD 68 then
             (List.range 3).map fun i => ⟨true, 4, stInLine w + i, BitVec.allOnes 64⟩
           else reads 2 (stInLine w) 2
    | _ => []

/-- Accesses of the drain (05 R147). A drain to I32 takes no scale table (03 R90). -/
def drainAccesses (q : Seq) (w : BitVec 256) : List Access :=
  let n := stDrainCount w
  q.ofTensor (sw w 3 10 10) fun f => (stDrained w).zipIdx.flatMap fun e =>
    (if f = .i32 then [] else reads 1 (sw w 4 13 13 + n / 8 * e.2) (n / 8)) ++
      tensorWrites 1 f (sw w 4 0 13 + f.lines n * e.2) n

/-- Accesses of the vector or matrix operation (05 R148). -/
def unitAccesses (q : Seq) (w : BitVec 256) : List Access :=
  if !unitPresent q w then []
  else
    let o := q.opRec w
    let c := opCode o
    let v := opLen o
    let d := fld o 110 10
    if stUnit w = 1 then
      q.ofTensor (fld o 90 10) (fun f => reads 3 (fld o 32 13) (f.lines v)) ++
      (if codeBinary c && opBKind o == 0 then q.ofTensor (fld o 100 10) (fun f => reads 3 (fld o 45 13) (f.lines v)) else []) ++
      (if c = 4 then q.ofTensor d (fun f => reads 3 (fld o 64 13) (f.lines v)) else []) ++
      (if c = 7 then reads 3 (fld o 64 13) (v / 8) else []) ++
      (if codeReduce c && !o.getLsbD 22 then []
       else q.ofTensor d (fun f => tensorWrites 2 f (fld o 77 13) (if codeReduce c then 1 else v)))
    else if c = 0x42 then reads 4 (fld o 64 13) 8 ++ q.ofTensor d (fun f => tensorWrites 3 f (fld o 77 13) 4096)
    else q.ofTensor (fld o 90 10) (fun f => reads 4 (fld o 32 13) (f.lines 4096))

/-- Fields of a transfer record (05 R149). -/
def xKind (r : BitVec 64) : Nat := fld r 0 4
def xVc (r : BitVec 64) : Nat := fld r 4 2
def xQueue (r : BitVec 64) : Nat := fld r 6 5
def xToQueue (r : BitVec 64) : Bool := r.getLsbD 11
def xLines (r : BitVec 64) : Nat := fld r 12 8 + 1
def xLine (r : BitVec 64) : Nat := fld r 20 13
def xRoute (r : BitVec 64) : Nat := fld r 33 12
def xDst (r : BitVec 64) : Nat := fld r 45 13

/-- Accesses of a transfer record (05 R149). -/
def xferAccesses (r : BitVec 64) : List Access :=
  let n := xLines r
  let wr c l : List Access := (List.range n).map fun i => ⟨true, c, l + i, BitVec.allOnes 64⟩
  match xKind r with
  | 0 => reads 6 (xLine r) n
  | 1 => if xToQueue r then [] else wr 6 (xLine r)
  | 2 => reads 5 (xLine r) n
  | 3 => wr 5 (xLine r)
  | 4 => reads 5 (xLine r) n ++ wr 5 (xDst r)
  | _ => []

/-- All scratchpad accesses of a stroke. -/
def strokeAccesses (q : Seq) (w : BitVec 256) : List Access :=
  panelAccesses q w ++ drainAccesses q w ++ unitAccesses q w ++ (q.strokeXfers w).flatMap xferAccesses

/-- Accesses in ascending address order, those of one address as they stand. -/
def byLine : List Access → List Access
  | [] => []
  | a :: l =>
    let r := byLine l
    r.takeWhile (fun c => decide (c.line < a.line)) ++ a :: r.dropWhile (fun c => decide (c.line < a.line))

/-- The accesses in the order a bank port serves them (04 R107): by client, and within a client by address; those of the link transfers by
link, N, E, S, W, local, where `link` gives a record's link. -/
def servedOrder (q : Seq) (w : BitVec 256) (link : BitVec 64 → Nat) : List Access :=
  let l := strokeAccesses q w
  let linked := (List.range 5).flatMap fun p =>
    byLine (((q.strokeXfers w).filter fun r => decide (xKind r ≤ 1) && link r == p).flatMap xferAccesses |>.filter (·.client == 6))
  (List.range 8).flatMap fun c => if c = 6 then linked else byLine (l.filter (·.client == c))

/-- An access waits for a waking segment (04 R115). -/
def Bay.waking (y : Bay) (l : List Access) : Bool := l.any fun a => (mget ({} : Seg) y.segs (segOf a.line)).waking

/-- The rise of BAY_CONFLICT_CNT: k − 1 for each bank port that receives k > 1 accesses (04 R110). -/
def conflictsOf (l : List Access) : Nat :=
  ((List.range 16).flatMap fun k => [true, false].map fun wr =>
    (l.filter fun a => a.write == wr && bankOf a.line == k && decide (a.line < 6144)).length - 1).sum

/-! ### Reads of the stroke in flight (04 R108) -/

/-- A line as it stood when the stroke started; a segment not ON reads zeros. -/
def Running.rd (r : Running) (free l : Nat) : BitVec 512 :=
  if l < 6144 ∧ r.segs.getLsbD (segOf l) then (mget {} r.snap l).value free else 0

/-- The raw line as it stood when the stroke started, check bits and all. -/
def Running.raw (r : Running) (l : Nat) : Line :=
  if l < 6144 ∧ r.segs.getLsbD (segOf l) then mget {} r.snap l else {}

/-- Every part of the stroke has completed (05 R137). -/
def Running.complete (r : Running) : Bool :=
  r.panels.isEmpty && r.rows.isEmpty && r.drain.isNone && !r.unit && r.xfers.all (·.finished) && !r.sp

/-- Update the stroke in flight. -/
def Bay.modCur (y : Bay) (f : Running → Running) : Bay :=
  { y with seq := { y.seq with cur := y.seq.cur.map f } }

/-! ### Halts, programs and completion -/

/-- BOUND_ERR stops the bay (04 R127): kind 0 flag, 1 queue, 2 release for an unused program, 3 past the list's end. -/
def State.haltBay (s : State) (b kind idx : Nat) : State :=
  let y := s.bay b
  let s := s.stickyBay b y.boundErr (fun y => { y with boundErr := true }) 0x2012 2 [kind, idx, 0, y.strokeCnt]
  let s := s.modBay b fun y => { y with seq :=
    if y.seq.stop then { y.seq with halted := true, running := false, stop := false, held := none, prog := none }
    else { y.seq with halted := true } }
  (s.signalFault b 3 none).settleLeaves.settleStops

/-- A program starts (05 R141): its slot table, and its first stroke next. -/
def State.beginProgram (s : State) (b prog : Nat) (slots : List SlotEnt) : State :=
  let s := s.modBay b fun y => { y with movedAt := s.now, seq := { y.seq with
    prog := some prog, pc := y.seq.entries.getD prog 0xFFFF, slots := slots, held := none, served := 0 } }
  if (s.bay b).seq.pc = 0xFFFF then s.haltBay b 2 prog else s

/-- The panel fields waiting for a boundary take effect (00 R12). -/
def Panel.applyStg (x : Panel) : Panel :=
  if x.stg = {} then x
  else { x with
    tol := x.stg.tol.getD x.tol, sgnB := x.stg.sgnB.getD x.sgnB, sgnA := x.stg.sgnA.getD x.sgnA,
    wB := x.stg.wB.getD x.wB, wA := x.stg.wA.getD x.wA, winSel := x.stg.winSel.getD x.winSel,
    live := x.stg.live.getD x.live, exactLimit := x.stg.exactLimit.getD x.exactLimit, stg := {} }

/-- The bay fields waiting for a boundary take effect. -/
def Bay.applyStg (y : Bay) : Bay :=
  { y with
    budget := y.budgetStg.getD y.budget, budgetStg := none, autoInc := y.autoIncStg.getD y.autoInc, autoIncStg := none,
    spAddr := y.spAddrStg.getD y.spAddr, spAddrStg := none }

/-- Panels of bay `b` that are listed. -/
def State.panelKeys (s : State) (b : Nat) : List Nat :=
  (s.panels.map (·.1)).filter fun k => k / 32 == b

/-- A stroke boundary of bay `b` (05 R172): L fields take effect, and due swap flips toggle LIVE (09 R268). -/
def State.boundary (s : State) (b : Nat) : State :=
  let due := (s.bay b).flipsDue
  let s := s.modBay b fun y => { y.applyStg with flipsDue := 0 }
  let s := (s.panelKeys b).foldl (fun s k => s.modPanel k Panel.applyStg) s
  (bitsOf due 32).foldl (fun s p => s.modPanel (pkey b p) fun x => { x with live := !x.live }) s

/-- If the bay is at a boundary, what waits for one takes effect (05 R172). -/
def State.boundaryIf (s : State) (b : Nat) : State := if (s.bay b).atBoundary then s.boundary b else s

/-- The bay stops running its plan (05 R142). -/
def State.stopBay (s : State) (b : Nat) : State :=
  (s.modBay b fun y => { y with seq := { y.seq with
    running := false, stop := false, held := none, prog := none } }).settleLeaves.settleStops

/-- A program ends (05 R141, R142): the bay stops, acts on a held release, or waits for one. -/
def State.endProgram (s : State) (b : Nat) : State :=
  let s := s.modBay b fun y => { y with watches := [] }
  let q := (s.bay b).seq
  if q.stop then s.stopBay b
  else match q.held with
    | some (p, sl, _) => s.beginProgram b p sl
    | none => (s.modBay b fun y => { y with seq := { y.seq with prog := none } }).settleLeaves

/-- The stroke in flight completes (05 R137, R141, R150, R169; 04 R109, R134): its writes land in client order, segment
modes change, its flags set, L fields take effect, and with END the program ends. -/
def State.finishStroke (s : State) (b : Nat) (r : Running) : State :=
  let w := r.word
  let free := s.freeVal
  let s := s.modBay b fun y =>
    let y := (List.range 8).foldl (fun y c =>
      (r.writes.filter (·.client == c)).foldl (fun y x => y.writeLine x.line x.data x.mask x.flips free) y) y
    let y := (bitsOf (BitVec.ofNat 4 (sw w 6 24 4)) 4).foldl
      (fun y g => y.enterSeg g (segModeOf (sw w 6 (16 + 2 * g) 2))) y
    { y with strokeCnt := (y.strokeCnt + 1) % 2 ^ 64, movedAt := s.now, seq := { y.seq with cur := none, served := 0 } }
  let s := (stSets w).foldl (fun s f => s.setFlag b f 0 0) s
  let s := (s.boundary b).skipAfter b r.begun
  let s := match r.crc with
    | some c =>
      (s.modBay b fun y => { y with watches := y.watches.filter (·.stroke != y.seq.pc) }).toCtl b
        (.audit s.gen (s.bay b).seq.pc c)
    | none => s
  if stEnd w then
    let s := if stAnchor w then s.toCtl b (.stepDone s.gen) else s
    s.endProgram b
  else s.modBay b fun y => { y with seq := { y.seq with pc := y.seq.pc + 1 } }

/-- Complete the stroke in flight once every part has completed (05 R137). -/
def State.strokeCheck (s : State) (b : Nat) : State :=
  match (s.bay b).seq.cur with
  | some r => if r.complete then s.finishStroke b r else s
  | none => s

end Sys2Proof.Machine
end

