-- ==== Sys2Proof/Machine/Mesh.lean ====
section
/-! DEFINITION. The package mesh (chapter 06): link headers, routing, arbitration, sinks, the local port, and the
commands of the routers. -/

namespace Sys2Proof.Machine

/-- A router is hard-fenced (06 R195): cause 0 link down, 1 VMESH fault, 2 firmware. -/
def State.hardFence (s : State) (b cause arg : Nat) : State :=
  if s.rtrFenced b then s
  else
    let s := s.modRtr b fun r =>
      { r with hardFenced := true, bufs := [], lock := [], localIn := [], localFrom := [], replay := [], held := [] }
    s.snagBay b 0x3010 2 [cause, arg]

/-! ### Lines -/

/-- Lines in an input buffer. -/
def Router.buf (r : Router) (input vc : Nat) : List (Nat × MLine) := mget [] r.bufs (4 * input + vc)

/-- Put a line at the end of an input buffer. -/
def State.enqueue (s : State) (b input : Nat) (m : MLine) : State :=
  s.modRtr b fun r =>
    let k := 4 * input + hVc m.hdr
    { r with bufs := mset [] r.bufs k (mget [] r.bufs k ++ [(s.now, m)]) }

/-- A line offered to an input buffer: it waits at its sender, behind those that wait already, while the buffer holds 4 lines (06 R187). -/
def State.offer (s : State) (b input : Nat) (m : MLine) : State :=
  let r := s.rtr b
  let k := 4 * input + hVc m.hdr
  if (r.buf input (hVc m.hdr)).length < 4 ∧ mget [] r.held k = [] then s.enqueue b input m
  else s.modRtr b fun r => { r with held := mset [] r.held k (mget [] r.held k ++ [m]) }

/-- A place in an input buffer has come free: the sender's next waiting line moves up. -/
def State.moveUp (s : State) (b input vc : Nat) : State :=
  let k := 4 * input + vc
  match mget [] (s.rtr b).held k with
  | m :: q => (s.modRtr b fun r => { r with held := mset [] r.held k q }).enqueue b input m
  | [] => s

/-- A bay injects a line at its router's local port; a closed port takes none (06 R194). -/
def State.inject (s : State) (b : Nat) (m : MLine) : State := if s.localClosed b then s else s.offer b 4 m

/-- An edge die injects a line at an attach link, which ends a run of failed handshakes (06 R179); a link that leads to no router in service
sinks it (06 R196). -/
def State.edgeInject (s : State) (b p : Nat) (m : MLine) : State :=
  if s.rtrFenced b || s.linkDown b p then s.edgeSink b p m.hdr
  else (s.modRtr b fun r => { r with fails := mset 0 r.fails p 0 }).offer b p m

/-- A bay sends lines on VC3 along a reply route (06 R428). -/
def State.bayReply (s : State) (b : Nat) (route : BitVec 64) (stream : Nat) (ls : List Line) : State :=
  ls.zipIdx.foldl (fun s e =>
    s.inject b { hdr := mkHdr route 3 0 stream s.gen (e.2 + 1 == ls.length), line := e.1 }) s

/-- The line is malformed at router `b` (06 R185). -/
def State.badHeader (s : State) (b : Nat) (h : BitVec 64) : Bool :=
  hKind h == 3 ||
  (if hMcast h then mget 0 (s.rtr b).mc (hTree h) == 0
   else decide (hExit h ≥ 5) || decide (hDy h > 35) || (hWp h && decide (hWy h > 35)) ||
     (meshX b == hDx h && meshY b == hDy h && hExit h != 0 &&
       (match nbr b (exitPort (hExit h)) with | .edge _ _ => false | _ => true)))

/-- The output ports of a line at router `b`, as a mask (06 R183, R191). -/
def State.outPorts (s : State) (b : Nat) (h : BitVec 64) : BitVec 5 :=
  if hMcast h then mget 0 (s.rtr b).mc (hTree h)
  else BitVec.ofNat 5 (2 ^ routePort b (markWaypoint b h))

/-- Drop a malformed line (06 R185). -/
def State.dropHeader (s : State) (b input : Nat) (h : BitVec 64) : State :=
  s.stickyRtr b (s.rtr b).hdrErr (fun r => { r with hdrErr := true, localCnt := satAdd r.localCnt 1 0xFFFF })
    0x3021 2 [fld h 0 32, fld h 32 32, input]

/-- The input port through which the line at the local port came (06 R185; log 96). -/
def State.localInput (s : State) (b : Nat) (h : BitVec 64) : Nat := mget 4 (s.rtr b).localFrom (hVc h)

/-- Drop the malformed lines at the heads of the buffers of router `b` (06 R185). -/
def State.dropBad (s : State) (b : Nat) : State :=
  (List.range 20).foldl (fun s k =>
    match (s.rtr b).buf (k / 4) (k % 4) with
    | (_, m) :: q =>
      if s.badHeader b m.hdr then
        ((s.modRtr b fun r => { r with bufs := mset [] r.bufs k q }).moveUp b (k / 4) (k % 4)).dropHeader b (k / 4) m.hdr
      else s
    | [] => s) s

/-- Output `p` of router `b` can take a line on a VC: room in the neighbour's buffer or the local latch, an edge die, or
a sink (06 R187, R189, R196). -/
def State.canTake (s : State) (b p vc : Nat) : Bool :=
  if p = 4 then (mget none (s.rtr b).localIn vc).isNone
  else if s.isSink b p then true
  else s.linkUp b p &&
    (match nbr b p with
      | .router c => decide (((s.rtr c).buf (opposite p) vc).length < 4)
      | .edge _ _ => true
      | .absent => false)

/-- The head line of a buffer can leave: every output it takes is free of another message (06 R188), has no other line to replay
(06 R179), and can take it. -/
def State.ready (s : State) (b input vc : Nat) : Bool :=
  match (s.rtr b).buf input vc with
  | (_, m) :: _ =>
    let ps := bitsOf (s.outPorts b m.hdr) 5
    !ps.isEmpty && ps.all fun p =>
      (match mget none (s.rtr b).lock (4 * p + vc) with | some i => i == input | none => true) &&
      (match mget none (s.rtr b).replay p with | some k => k == 4 * input + vc | none => true) && s.canTake b p vc
  | [] => false

/-- A buffer's head line wants output `out`. -/
def State.wants (s : State) (b input vc out : Nat) : Bool :=
  match (s.rtr b).buf input vc with
  | (_, m) :: _ => (s.outPorts b m.hdr).getLsbD out
  | [] => false

/-- The VCs with a line waiting for an output that can leave, ascending. -/
def State.waiting (s : State) (b out : Nat) : List Nat :=
  (List.range 4).filter fun v => (List.range 5).any fun i => s.wants b i v out && s.ready b i v

/-- The arrival of the longest-waiting line for an output on a VC. -/
def State.waitedSince (s : State) (b out vc : Nat) : Nat :=
  (List.range 5).foldl (fun a i => match (s.rtr b).buf i vc with
    | (t, _) :: _ => if s.wants b i vc out && s.ready b i vc then min a t else a
    | [] => a) s.now

/-- The VC an output serves next, and whether a lower one waited and lost (06 R187): a replay's, else the lowest-numbered, but after 256
handshakes in a row while a lower VC waited the longest-waiting lower one. -/
def State.turn (s : State) (b out : Nat) : Option (Nat × Bool) :=
  match mget none (s.rtr b).replay out with
  | some k => some (k % 4, false)
  | none =>
    match s.waiting b out with
    | [] => none
    | v :: low =>
      if low ≠ [] ∧ 256 ≤ mget 0 (s.rtr b).burst out then
        some (low.foldl (fun x u => if s.waitedSince b out u < s.waitedSince b out x then u else x) (low.headD v), false)
      else some (v, !low.isEmpty)

/-- The head line of a buffer may move: it can leave, and at every output it takes it is its VC's turn; among inputs of that VC a multicast
that the forwarding output grants is taken by its other outputs (06 R187, R191; DEDUCED, log 191). -/
def State.canMove (s : State) (b input vc : Nat) : Bool :=
  s.ready b input vc &&
  match (s.rtr b).buf input vc with
  | (_, m) :: _ => (bitsOf (s.outPorts b m.hdr) 5).all fun p => match s.turn b p with | some x => x.1 == vc | none => false
  | [] => false

/-- The input granted at output `out` on a VC: a replay's, else round robin after the one last granted (06 R187). -/
def State.grantInput (s : State) (b out vc : Nat) : Option Nat :=
  match mget none (s.rtr b).replay out with
  | some k => if s.canMove b (k / 4) vc then some (k / 4) else none
  | none =>
    let last := mget 4 (s.rtr b).rr (4 * out + vc)
    ((List.range 5).map fun i => (last + 1 + i) % 5).find? fun i => s.wants b i vc out && s.canMove b i vc

/-- The (input, VC) an output picks (06 R187), and whether a lower VC waited and lost. -/
def State.pickLine (s : State) (b out : Nat) : Option (Nat × Nat × Bool) :=
  match s.turn b out with
  | some (v, low) => (s.grantInput b out v).map fun i => (i, v, low)
  | none => none

/-- Deliver a line at an output: a sink, the neighbour, an edge die's attach link, or the local port. -/
def State.deliver (s : State) (b p : Nat) (m : MLine) : State :=
  if p = 4 then s.modRtr b fun r => { r with localIn := mset none r.localIn (hVc m.hdr) (some m) }
  else if s.isSink b p then s.sinkLine b p m.hdr
  else match nbr b p with
    | .router c =>
      (s.enqueue c (opposite p) m).modRtr c fun r => { r with fails := mset 0 r.fails (opposite p) 0 }
    | .edge d l => { s with edgeQ := mset [] s.edgeQ (64 * d + l) (mget [] s.edgeQ (64 * d + l) ++ [m]) }
    | .absent => s

/-- A line of (input, VC) moves to every output it takes (06 R183, R187, R188, R191); each counts it in its run of handshakes while a
lower VC waits. -/
def State.moveLine (s : State) (b input vc : Nat) : State :=
  match (s.rtr b).buf input vc with
  | (_, m) :: q =>
    let ps := bitsOf (s.outPorts b m.hdr) 5
    let m' := { m with hdr := markWaypoint b m.hdr }
    let lost := ps.filter fun p => match s.turn b p with | some x => x.2 | none => false
    let s := s.modRtr b fun r => ps.foldl (fun r p =>
      { r with
        rr := mset 4 r.rr (4 * p + vc) input, replay := mset none r.replay p none,
        burst := mset 0 r.burst p (if lost.contains p then mget 0 r.burst p + 1 else 0),
        lock := mset none r.lock (4 * p + vc) (if hLast m.hdr then none else some input) })
      { r with
        bufs := mset [] r.bufs (4 * input + vc) q,
        localFrom := if ps.contains 4 then mset 4 r.localFrom vc input else r.localFrom }
    ps.foldl (fun s p => s.deliver b p m') (s.moveUp b input vc)
  | [] => s

/-- LINE_FORWARD (06 R183–R188, R191, R196): output `out` of router `b` takes the next line. -/
def execLineForward (t : Nat) (b : BayIx) (out : Fin 5) (s : State) : Host.Outcome State Fault Refusal :=
  let s := s.tick t
  .next (if s.rtrFenced b || mget .off s.pwr.rails (32 + dieOf b) != .up then s
    else
      let s := s.dropBad b
      match s.pickLine b out with
      | none => s
      | some (i, v, _) => s.moveLine b i v)

/-- A write of LOCAL_CLOSE (06 R194, R200): ignored once hard-fenced. -/
def State.setLocalClose (s : State) (b : Nat) (v : Bool) : State :=
  s.modRtr b fun r => if r.hardFenced then r else { r with localClose := v }

/-- RTR_LOCAL_CLOSE_WRITE (06 R194, R200). -/
def execRtrLocalCloseWrite (t : Nat) (b : BayIx) (v : Bool) (s : State) : Host.Outcome State Fault Refusal :=
  .next ((s.tick t).setLocalClose b v)

/-- RTR_CNT_CLR (06 R200). -/
def execRtrCntClr (t : Nat) (b : BayIx) (s : State) : Host.Outcome State Fault Refusal :=
  .next ((s.tick t).modRtr b fun r => { r with sinkCnt := 0, localCnt := 0, retry := [] })

/-! ### The local port (06 R189) -/

/-- A line at the local port is the one waiting there, or comes from outside the modelled mesh: take it from the latch.
None: another line waits, and this one is not due. -/
def State.takeLocal (s : State) (b : Nat) (m : MLine) : Option State :=
  match mget none (s.rtr b).localIn (hVc m.hdr) with
  | none => some (s.modRtr b fun r => { r with localFrom := mset 4 r.localFrom (hVc m.hdr) 4 })
  | some m' => if m' = m then
      some (s.modRtr b fun r => { r with localIn := mset none r.localIn (hVc m.hdr) none }) else none

/-- A stale message is dropped on arrival (04 R130). -/
def State.dropStale (s : State) (b : Nat) (gen : BitVec 8) (src : Nat) : State :=
  let y := s.bay b
  s.stickyBay b y.staleDrop (fun y => { y with staleDrop := true, staleCnt := satAdd y.staleCnt 1 0xFFFF })
    0x2030 0 [gen.toNat, s.gen.toNat, src, y.strokeCnt]

/-- A closed local port drops a line (06 R189). -/
def State.dropClosed (s : State) (b : Nat) (h : BitVec 64) : State :=
  s.stickyRtr b (s.rtr b).fenceDrop (fun r => { r with fenceDrop := true, localCnt := satAdd r.localCnt 1 0xFFFF })
    0x3011 0 [hStream h, hVc h, (hGen h).toNat]

/-- No receive entry, or a reserved firmware stream (06 R189, R428). -/
def State.dropNoMatch (s : State) (b : Nat) (h : BitVec 64) : State :=
  s.stickyRtr b (s.rtr b).noMatch (fun r => { r with noMatch := true, localCnt := satAdd r.localCnt 1 0xFFFF })
    0x3020 2 [hStream h, hVc h, (hGen h).toNat, (s.bay b).strokeCnt]

/-- A bay takes part in the mesh: its leaf rail is up. -/
def State.bayAlive (s : State) (b : Nat) : Bool := mget .off s.pwr.rails (leafOf b) == .up

/-- The bay is held in reset (13 R381): lines for its local port wait in the router as for a full buffer (06 R190). -/
def State.heldInReset (s : State) : Bool := s.mode == .withdrawn

/-- The first two steps of R189: a closed port and a stale generation. Left: the line was dropped. -/
def State.localGate (s : State) (b src : Nat) (h : BitVec 64) : Except State State :=
  if s.localClosed b then .error (s.dropClosed b h)
  else if hGen h ≠ s.gen then .error (s.dropStale b (hGen h) src)
  else .ok s

/-- A control message for the bay itself, carried with its generation (06 R189 step 4): the state if it is taken. -/
def State.ctlGate (s : State) (b src : Nat) (gen : BitVec 8) : Except State State :=
  if s.heldInReset then .error s
  else if s.localClosed b then .error (s.dropClosed b (mkHdr 0 2 2 0 gen true))
  else if gen ≠ s.gen then .error (s.dropStale b gen src)
  else .ok s

/-- The bay's route table holds a receive entry for the stream and VC (06 R189). -/
def Seq.receives (q : Seq) (stream vc : Nat) : Bool :=
  q.routes.any fun r => rtType r == 2 && fld r 37 12 == stream && fld r 57 2 == vc

/-- Entries of a full queue that strokes pop at this same instant (04 R129). -/
def State.popsNow (s : State) (b qi : Nat) : Nat :=
  let q := (s.bay b).queue qi
  match (s.bay b).seq.cur with
  | some r =>
    if q.items.length < 16 then 0
    else (s.sameInstant.map fun c => match c with
      | .pop _ b' k _ =>
        (match r.xfers[k]? with
          | some x => if (b' : Nat) = b ∧ xKind x.word = 3 ∧ xQueue x.word = qi ∧ x.finished = false then xLines x.word - x.moved else 0
          | none => 0)
      | _ => 0).sum
  | none => 0

/-- A management push to queue STREAM − 0xF00, applied on arrival (04 R128, 06 R189 step 5). -/
def State.mgmtPush (s : State) (b src : Nat) (m : MLine) : State :=
  let qi := hStream m.hdr - 0xF00
  let y := s.bay b
  match (y.queue qi).push? m.line .mgmt s.now (s.popsNow b qi) with
  | some q => s.setBay b (y.setQueue qi q)
  | none =>
    s.stickyBay b y.queueOvr
      (fun y => { y.setQueue qi { y.queue qi with ovr := true } with queueOvr := true }) 0x2011 1 [qi, src, 0, y.strokeCnt]

/-- Handle a line at the local port, after the gate (06 R189 steps 3–8): none if the ejection buffer
is full and the line waits. Of a control message the line is taken here, and its effect is its own command's (DESIGN CHOICE, log 190: the
manual gives its contents no layout). Lines of a firmware message are collected until its last (R428). A flag set on VC2 or VC3 is the audit controller's (04 R125, 06 R186; DEDUCED, log 183). -/
def State.localLine (s : State) (b src : Nat) (m : MLine) : Option State :=
  let h := m.hdr
  let st := hStream h
  if hKind h = 1 then some (if 2 ≤ hVc h then s.setFlag b (st % 256) 3 0 else s.setFlag b (st % 256) 1 src)
  else if hKind h = 3 then some (s.dropHeader b (s.localInput b h) h)
  else if (hKind h = 2 ∧ hVc h ≠ 2) ∨ (hKind h = 0 ∧ 0xF00 ≤ st ∧ hVc h < 2) then some (s.dropHeader b (s.localInput b h) h)
  else if hKind h = 2 then some s
  else if 0xF00 ≤ st ∧ st < 0xF20 then some (s.mgmtPush b src m)
  else if st = 0xF20 ∨ st = 0xF21 ∨ st = 0xFE0 ∨ st = 0xFE1 then
    some (s.modBay b fun y => { y with asm := mset [] y.asm (hVc h) (mget [] y.asm (hVc h) ++ [m]) })
  else if 0xF00 ≤ st then some (s.dropNoMatch b h)
  else if !(s.bay b).seq.receives st (hVc h) then some (s.dropNoMatch b h)
  else
    let q := mget [] (s.bay b).eject (hVc h)
    if q.length < 8 then some (s.modBay b fun y => { y with eject := mset [] y.eject (hVc h) (q ++ [m]) }) else none

/-- A line reaches the local port and is handled, or waits. -/
def State.localArrive (s : State) (b src : Nat) (m : MLine) : State :=
  match s.takeLocal b m with
  | none => s
  | some s' =>
    match s'.localGate b src m.hdr with
    | .error d => d
    | .ok u => if u.heldInReset then s else (u.localLine b src m).getD s

/-- FLAG_SET_MESSAGE (04 R125, 06 R189). -/
def execFlagSetMessage (t src : Nat) (b : BayIx) (m : MLine) (s : State) : Host.Outcome State Fault Refusal :=
  let s := s.tick t
  .next (if hKind m.hdr = 1 then s.localArrive b src m else s)

/-- MGMT_QUEUE_PUSH (04 R128, 06 R189). -/
def execMgmtQueuePush (t src : Nat) (b : BayIx) (m : MLine) (s : State) : Host.Outcome State Fault Refusal :=
  let s := s.tick t
  let st := hStream m.hdr
  .next (if hKind m.hdr = 0 ∧ 0xF00 ≤ st ∧ st < 0xF20 ∧ 2 ≤ hVc m.hdr then s.localArrive b src m else s)

end Sys2Proof.Machine
end

