-- ==== Sys2Proof/Machine/Pace.lean ====
section
/-! DEFINITION. Pace tables, the classes a plan uses and its step bounds (05 R163–R166; 04 R118, R122; 07; 10 R298). -/

namespace Sys2Proof.Machine

/-- Worst latency and beat interval of the vector codes on B0, in ps (04 R118). -/
def vectorPace : List (Nat × Nat × Nat) :=
  [(0x01, 6000, 1500), (0x02, 6000, 1500), (0x03, 9000, 1500), (0x04, 12000, 1500), (0x05, 6000, 1500),
   (0x06, 6000, 1500), (0x07, 9000, 1500), (0x08, 6000, 1500), (0x09, 6000, 1500), (0x0A, 18000, 6000),
   (0x0B, 18000, 6000), (0x0C, 18000, 6000), (0x0D, 24000, 6000), (0x0E, 24000, 6000), (0x10, 15000, 1500),
   (0x11, 15000, 1500), (0x12, 18000, 1500)]

/-- Classes whose figure is 1.2 times as long on A0: panels, edges and the vector unit (05 R163). -/
def paceFast : List (Nat × Nat) :=
  [(0x0100, 1500), (0x0101, 750), (0x0102, 3000), (0x0103, 1500), (0x0104, 15000), (0x0105, 600000),
   (0x0200, 3000), (0x0201, 1500), (0x0202, 3000)] ++
  vectorPace.map (fun e => (0x0300 + e.1, e.2.1)) ++ vectorPace.map (fun e => (0x0400 + e.1, e.2.2))

/-- Classes that are the same on both steppings. -/
def paceSame : List (Nat × Nat) :=
  [(0x0500, 12000), (0x0501, 24000), (0x0502, 96000), (0x0503, 192000), (0x0504, 96000), (0x0505, 192000),
   (0x0600, 1500), (0x0601, 3000), (0x0602, 3000), (0x0603, 300000), (0x0604, 1500000), (0x0605, 576000),
   (0x0700, 3000), (0x0800, 1500), (0x0801, 9000),
   (0x0900, 260000), (0x0901, 1250), (0x0902, 1000), (0x0903, 4000), (0x0904, 60000), (0x0905, 30000),
   (0x0906, 220000), (0x0907, 1000), (0x0908, 180000),
   (0x0A00, 60000), (0x0A01, 130000), (0x0A02, 25600), (0x0A03, 3200), (0x0A04, 220000), (0x0A05, 6000000)]

/-- A stepping's pace table: (class, worst ps), ascending (05 R163). -/
def paceTable (p : Stepping) : List (Nat × Nat) :=
  (match p with
    | .b0 => paceFast
    | .a0 => paceFast.map fun e => (e.1, e.2 * 6 / 5)) ++ paceSame

/-- The pace table value of a class. -/
def paceOf (p : Stepping) (c : Nat) : Nat :=
  match (paceTable p).find? fun e => e.1 == c with | some e => e.2 | none => 0

/-- A placement entry's tables, as the sequencer holds them. -/
def PBay.seq (e : PBay) : Seq :=
  { strokes := e.strokes, tensors := e.tensors, ops := e.ops, xfers := e.xfers, routes := e.routes, entries := e.entries }

/-- Classes a stroke uses, but for die crossings (05 R158, R163). -/
def strokeClasses (q : Seq) (w : BitVec 256) : List Nat :=
  let k := stKind w
  let o := q.opRec w
  let c := opCode o
  let xs := q.strokeXfers w
  [0x0700] ++
  (if stWaits w = [] then [] else [0x0601]) ++
  (if k = 1 then
      (if w.getLsbD 68 then [0x0102, 0x0103] else [0x0100, 0x0101]) ++
      (if (teFmt (q.tensor (sw w 3 0 10))).isBx then [0x0200] else [])
    else if k = 2 then [0x0105] else if k = 3 then [0x0104] else []) ++
  (if stDrained w = [] then [] else [if (teFmt (q.tensor (sw w 3 10 10))).isBx then 0x0202 else 0x0201]) ++
  (if !unitPresent q w then []
    else if stUnit w = 1 then [0x0300 + c, 0x0400 + c]
    else
      let f16 : Bool := teFmt (q.tensor (fld o 90 10)) == .f16
      if c = 0x40 then [if f16 then 0x0501 else 0x0500]
      else if c = 0x41 then [if f16 then 0x0503 else 0x0502]
      else [if (teFmt (q.tensor (fld o 110 10))).isBx then 0x0505 else 0x0504]) ++
  (if strokeAccesses q w = [] then [] else [0x0600]) ++
  (if xs = [] then [] else [0x0800]) ++
  (if xs.any fun r => xKind r == 2 || xKind r == 3 || (xKind r == 1 && xToQueue r) then [0x0602] else []) ++
  (if sw w 6 24 4 = 0 then [] else [0x0603, 0x0604])

/-- The path of a unicast route entry from its bay. -/
def routePath (b : Nat) (r : BitVec 64) : Option (List (Nat × Nat)) :=
  if fld r 15 3 ≥ 5 ∨ fld r 9 6 > 35 ∨ (r.getLsbD 3 = true ∧ fld r 23 6 > 35) then none
  else walk 256 b (mkHdr r 0 0 0 0 true)

/-- A path crosses a die boundary. -/
def crossesDie (l : List (Nat × Nat)) : Bool := l.any fun e => portD2d e.1 e.2

/-- A bay's route entries cross a die boundary. -/
def PBay.crosses (e : PBay) : Bool :=
  e.routes.any fun r => rtType r == 0 && (match routePath e.bay r with | some l => crossesDie l | none => false)

/-- The classes a plan's strokes use and its waits depend on (05 R166). DEDUCED (log 32): a plan that uses context memory
depends on every 0x09 class, and a plan with fabric streams on every 0x0A class. -/
def PlanImg.classes (p : PlanImg) : List Nat :=
  (p.bays.flatMap fun e => e.strokes.flatMap (strokeClasses e.seq)) ++
  (if p.bays.any PBay.crosses || p.trees.any (fun t => t.nodes.any fun n => (bitsOf n.2 4).any (portD2d n.1))
    then [0x0801] else []) ++
  (if p.usesCtx then (List.range 9).map (0x0900 + ·) else []) ++
  (if p.streams = [] then [] else (List.range 6).map (0x0A00 + ·))

/-- The first class, ascending by id, that keeps class-0 service from being admitted: (class, assumed ps, table ps) (05 R166). The order of the
classes, and 0 as the assumed ps of a class without an entry, are DESIGN CHOICE (log 186). -/
def PlanImg.unfit (p : PlanImg) (c : Cert) (part : Stepping) : Option (Nat × Nat × Nat) :=
  let used := p.classes
  (paceTable part).findSome? fun e =>
    if used.contains e.1 then
      match c.pace.find? fun x => x.1 == e.1 with
      | some x => if e.2 ≤ x.2 then none else some (e.1, x.2, e.2)
      | none => some (e.1, 0, e.2)
    else none

/-- The exact step bound of a program in units of 1/1,000 ns (05 R165). -/
def Cert.bound (c : Cert) (prog : Nat) : Nat :=
  match c.steps.find? fun x => x.1 == prog with
  | some x => x.2.1 * (1000 + c.allowance)
  | none => 0

/-- A measured duration in ns is late (05 R170). -/
def Cert.late (c : Cert) (prog measured : Nat) : Bool :=
  match c.steps.find? fun x => x.1 == prog with
  | some x => decide (x.2.1 * (1000 + c.allowance) < 1000 * measured)
  | none => false

end Sys2Proof.Machine
end

