-- ==== Sys2Proof/Machine/Loader.lean ====
section
/-! DEFINITION. The plan loader: the plan image's sections, and the checks PLAN_LOAD makes (05 R153–R161; 06 R191, R192,
R197, R426; 08 R237; 10 R285; 13 R360, R374). -/

namespace Sys2Proof.Machine

/-! ### Sections (05 R153, R154) -/

/-- A section table entry: type, offset, length. -/
structure Sec where
  ty : Nat
  off : Nat
  len : Nat
  resZero : Bool
  deriving DecidableEq, Repr

/-- The section table. -/
def secTable (b : List Byte) (n : Nat) : List Sec :=
  (List.range n).map fun i =>
    let o := 256 + 16 * i
    { ty := natAt b o 2, off := natAt b (o + 8) 8, len := natAt b (o + 4) 4, resZero := natAt b (o + 2) 2 == 0 }

/-- The section of a type. -/
def secOf (l : List Sec) (ty : Nat) : Option Sec := l.find? (·.ty == ty)

/-- The bytes of a section; none gives an empty list. -/
def secBytes (b : List Byte) (l : List Sec) (ty : Nat) : List Byte :=
  match secOf l ty with | some x => bytesAt b x.off x.len | none => []

/-- Where the signature section starts, if it can be found as the last of the image (05 R157, R161 check 1). -/
def findSig (b : List Byte) : Option Nat :=
  let n := natAt b 6 2
  if b.length < 256 ∨ b.length < 256 + 16 * n then none
  else
    let l := secTable b n
    match secOf l 0x0F with
    | some x => if x.len = 1280 ∧ x.off + x.len ≤ b.length ∧ l.all (fun y => decide (y.off ≤ x.off)) = true then some x.off
                else none
    | none => none

/-- Sections do not overlap. -/
def disjointSecs : List Sec → Bool
  | [] => true
  | x :: l => l.all (fun y => decide (x.off + x.len ≤ y.off) || decide (y.off + y.len ≤ x.off) || x.len == 0 || y.len == 0) &&
      disjointSecs l

/-- Header and section table are well formed (05 R153, R154). -/
def headerOk (b : List Byte) : Bool :=
  let n := natAt b 6 2
  let l := secTable b n
  natAt b 0 4 == 0x4E414C50 && natAt b 4 2 == 1 && decide (1 ≤ n ∧ n ≤ 32) && natAt b 16 8 == b.length &&
  decide (1 ≤ natAt b 24 2 ∧ natAt b 24 2 ≤ 1152) && decide (1 ≤ natAt b 26 2 ∧ natAt b 26 2 ≤ 16) &&
  decide (natAt b 32 4 < 4) && natAt b 36 4 == 0 && (bytesAt b 104 152).all (· == 0) &&
  l.all (fun x => x.resZero && decide ((1 ≤ x.ty ∧ x.ty ≤ 11) ∨ x.ty = 15) && x.off % 64 == 0 &&
    decide (256 + 16 * n ≤ x.off) && decide (x.off + x.len ≤ b.length)) &&
  decide ((l.map (·.ty)).Nodup) && disjointSecs l &&
  [1, 2, 3, 9, 10, 15].all (fun t => (secOf l t).isSome) && (natAt b 32 1 % 2 == 1) == (secOf l 0x0B).isSome &&
  (match secOf l 0x0F with | some x => x.off + x.len == b.length | none => false)

/-! ### Placement (05 R155) -/

/-- `cnt` records of `size` bytes from record `off`; none if they pass the end. -/
def recs (src : List Byte) (off cnt size : Nat) : Option (List Nat) :=
  if cnt = 0 then some []
  else if (off + cnt) * size ≤ src.length then some ((List.range cnt).map fun i => natAt src ((off + i) * size) size)
  else none

/-- The areas a placement entry's tables lie in. -/
structure Areas where
  strokes : List Byte
  tensors : List Byte
  ops : List Byte
  xfers : List Byte
  routes : List Byte

/-- A bay number; one that does not exist lies beyond 1,151. -/
def bayNum (die bay : Nat) : Nat := if die < 16 ∧ bay < 72 then 72 * die + bay else 0x10000 + 256 * die + bay

/-- The die and bay as die·256 + bay. -/
def bayLoc (b : Nat) : Nat := if b < 0x10000 then 256 * (b / 72) + b % 72 else b - 0x10000

/-- A placement entry of 80 bytes; none if it is malformed. `keep` is the route table kept for ROUTE_CNT 0. -/
def parseBay (e : List Byte) (a : Areas) (keep : Nat → List (BitVec 64)) : Option PBay :=
  let n := bayNum (natAt e 0 1) (natAt e 1 1)
  let sc := natAt e 12 2
  let rc := natAt e 76 2
  if natAt e 7 1 ≠ 0 ∨ natAt e 14 2 ≠ 0 ∨ natAt e 22 2 ≠ 0 ∨ natAt e 30 2 ≠ 0 ∨ natAt e 38 2 ≠ 0 ∨ natAt e 78 2 ≠ 0 ∨
      sc = 0 ∨ 4096 < sc ∨ 1024 < natAt e 20 2 ∨ 4096 < natAt e 28 2 ∨ 4096 < natAt e 36 2 ∨ 4096 < rc then none
  else
    match recs a.strokes (natAt e 8 4) sc 32, recs a.tensors (natAt e 16 4) (natAt e 20 2) 8,
          recs a.ops (natAt e 24 4) (natAt e 28 2) 16, recs a.xfers (natAt e 32 4) (natAt e 36 2) 8,
          recs a.routes (natAt e 72 4) rc 8 with
    | some s, some te, some o, some x, some r =>
      some { bay := n, flagFirst := natAt e 2 1, flagLast := natAt e 3 1, queueFirst := natAt e 4 1,
             queueLast := natAt e 5 1, segInit := natAt e 6 1,
             strokes := s.map (BitVec.ofNat 256), tensors := te.map (BitVec.ofNat 64), ops := o.map (BitVec.ofNat 128),
             xfers := x.map (BitVec.ofNat 64), routes := if rc = 0 then keep n else r.map (BitVec.ofNat 64),
             entries := (List.range 16).map fun k => natAt e (40 + 2 * k) 2 }
    | _, _, _, _, _ => none

/-- All of a list of options, or none. -/
def allSome {α : Type} : List (Option α) → Option (List α)
  | [] => some []
  | none :: _ => none
  | some x :: l => (allSome l).map (x :: ·)

/-! ### Routes, trees and streams (06 R191, R426; 10 R285) -/

/-- A bay number by mesh coordinates; outside the mesh, beyond 1,151. -/
def bayXY (x y : Nat) : Nat := if x < 32 ∧ y < 36 then bayAt x y else 0x20000 + 256 * x + y

/-- `n` tree records from offset `o`; none if they pass the end or hold a non-zero reserved byte or a bad count. -/
def parseTrees (b : List Byte) : Nat → Nat → Option (List Tree × Nat)
  | 0, o => some ([], o)
  | n + 1, o =>
    let k := natAt b (o + 4) 2
    if b.length < o + 8 ∨ k = 0 ∨ 1152 < k ∨ b.length < o + 8 + 4 * k ∨ natAt b (o + 3) 1 ≠ 0 ∨ natAt b (o + 6) 2 ≠ 0 then none
    else
      let t : Tree := { id := natAt b o 1, root := bayXY (natAt b (o + 1) 1) (natAt b (o + 2) 1),
                        nodes := (List.range k).map fun i =>
                          let p := o + 8 + 4 * i
                          (bayXY (natAt b p 1) (natAt b (p + 1) 1), BitVec.ofNat 5 (natAt b (p + 2) 1)) }
      (parseTrees b n (o + 8 + 4 * k)).map fun r => (t :: r.1, r.2)

/-- The route section (06 R426): entry area, trees and streams. -/
def parseRoutes (b : List Byte) : Option (List Byte × List Tree × List FStream) :=
  if b = [] then some ([], [], [])
  else
    let n := natAt b 0 4
    let nt := natAt b 4 2
    let to_ := natAt b 8 4
    let so := natAt b 12 4
    let fin := 16 + 8 * n
    if b.length < fin ∨ 256 < nt ∨ natAt b 6 2 ≠ 0 ∨ to_ % 8 ≠ 0 ∨ (nt ≠ 0 ∧ to_ < fin) then none
    else match parseTrees b nt (if nt = 0 then fin else to_) with
      | none => none
      | some (ts, e) =>
        if so = 0 then some (bytesAt b 16 (8 * n), ts, [])
        else
          let k := natAt b so 4
          if so < e ∨ b.length < so + 4 + 16 * k then none
          else
            let fs := (List.range k).map fun i =>
              let p := so + 4 + 16 * i
              ({ id := natAt b p 2, slice := natAt b (p + 2) 2, plane := natAt b (p + 4) 1, vc := natAt b (p + 5) 1,
                 target := BitVec.ofNat 40 (natAt b (p + 8) 5) } : FStream)
            let resOk := (List.range k).all fun i =>
              natAt b (so + 4 + 16 * i + 6) 2 == 0 && natAt b (so + 4 + 16 * i + 13) 3 == 0
            if resOk && fs.all fun x => decide (x.id ≤ 0xEFF ∧ x.plane < 16 ∧ x.vc < 2) then
              some (bytesAt b 16 (8 * n), ts, fs)
            else none

/-! ### Slot layout (08 R237) and certificate (05 R165) -/

/-- The slot layout section; none if it is malformed. -/
def parseLayout (b : List Byte) (usesCtx : Bool) : Option Layout :=
  let ns := natAt b 0 2
  let nc := natAt b 2 1
  let po := 64 + 2 * ns
  let co := po + 256
  let tensor := natAt b 3 1 == 1
  let progs := (List.range 16).map fun k =>
    let o := po + 16 * k
    ({ role := natAt b o 1, chunk := natAt b (o + 1) 1 + 1, die := natAt b (o + 2) 1, bay := natAt b (o + 3) 1,
       line := natAt b (o + 4) 2, lines := natAt b (o + 6) 2 } : Prog)
  let cyc := (List.range nc).map fun i => natAt b (co + i) 1
  if ns = 0 ∨ 256 < ns ∨ nc = 0 ∨ 64 < nc ∨ 1 < natAt b 3 1 ∨ 1 < natAt b 6 1 ∨ 1 < natAt b 7 1 ∨ natAt b 27 1 ≠ 0 ∨
      (bytesAt b 38 26).any (· != 0) = true ∨ 0xEFF < natAt b 36 2 ∨
      (tensor = true ∧ (natAt b 4 1 = 0 ∨ 16 < natAt b 4 1 ∨ natAt b 5 1 = 0 ∨ 16 < natAt b 5 1)) ∨
      (usesCtx = true ∧ (2 < natAt b 24 1 ∨ 2 < natAt b 25 1)) ∨ b.length < co + nc then none
  else if (List.range ns).any (fun i => decide (3 < natAt b (64 + 2 * i) 1) || natAt b (65 + 2 * i) 1 != 0) ||
      (List.range 16).any (fun k => natAt b (po + 16 * k + 8) 8 != 0) ||
      progs.any (fun p => decide (2 < p.role) || (p.role == 2 && decide (14 < p.chunk)) ||
        (p.role != 0 && decide (16 ≤ p.die ∨ 72 ≤ p.bay))) ||
      cyc.any (fun k => decide (16 ≤ k) || (progs.getD k {}).role == 0) then none
  else some {
    slots := (List.range ns).map fun i => (natAt b (64 + 2 * i) 1 % 2 == 1, natAt b (64 + 2 * i) 1 / 2 == 1)
    tensor := tensor, inLines := natAt b 4 1, outLines := natAt b 5 1, peer := natAt b 6 1 == 1,
    marked := natAt b 7 1 == 1, endToken := natAt b 8 4, maxPrompt := natAt b 12 4, maxSeq := natAt b 16 4,
    spill := natAt b 20 4, format := natAt b 24 1, dsel := natAt b 25 1, heads := natAt b 26 1, layers := natAt b 28 2,
    window := natAt b 30 2, jMax := natAt b 32 4, stream := natAt b 36 2, progs := progs, cycle := cyc }

/-- The certificate; none if it is malformed (05 R161 check 13, 08 R237). -/
def parseCert (b : List Byte) (id c0 : Nat) : Option Cert :=
  let np := natAt b 8 2
  let ns := natAt b 10 2
  if b.length < 32 ∨ natAt b 0 4 ≠ 0x54524543 ∨ natAt b 4 2 ≠ 1 ∨ 100 < natAt b 6 2 ∨ ns = 0 ∨ 16 < ns ∨
      natAt b 16 8 ≠ id ∨ b.length < 32 + 8 * np + 16 * ns then none
  else
    let so := 32 + 8 * np
    let steps := (List.range ns).map fun i => (natAt b (so + 16 * i) 1, natAt b (so + 16 * i + 4) 4, natAt b (so + 16 * i + 8) 2)
    if steps.any fun x => decide (15 < x.1) || x.2.2 != c0 then none
    else some {
      allowance := natAt b 6 2, cover := BitVec.ofNat 2 (natAt b 12 1), steps := steps,
      pace := (List.range np).map fun i => (natAt b (32 + 8 * i) 2, natAt b (32 + 8 * i + 4) 4) }

/-! ### Detours (06 R197) and fence placements (13 R374) -/

/-- `n` detour sets from offset `o`. -/
def parseDetours (b : List Byte) : Nat → Nat → Option (List Detour)
  | 0, _ => some []
  | n + 1, o =>
    let ni := natAt b o 1
    let nr := natAt b (o + 2) 2
    let len := natAt b (o + 8) 4
    let ro := o + 16 + 4 * ni
    if b.length < o + 16 ∨ b.length < o + len ∨ len < 16 ∨ ni = 0 ∨ 4 < ni ∨ o + len < ro + 16 * nr ∨
        natAt b (o + 1) 1 ≠ 0 ∨ natAt b (o + 6) 2 ≠ 0 ∨ natAt b (o + 12) 4 ≠ 0 then none
    else match parseTrees (b.take (o + len)) (natAt b (o + 4) 2) (ro + 16 * nr) with
      | none => none
      | some (ts, _) =>
        let d : Detour := {
          items := (List.range ni).map fun i =>
            let p := o + 16 + 4 * i
            (natAt b p 1, natAt b (p + 1) 1, natAt b (p + 2) 1)
          routes := (List.range nr).map fun i =>
            let p := ro + 16 * i
            (bayNum (natAt b p 1) (natAt b (p + 1) 1), natAt b (p + 4) 2, BitVec.ofNat 64 (natAt b (p + 8) 8))
          trees := ts }
        (parseDetours b n (o + len)).map (d :: ·)

/-- A placement's bays (13 R374): its entries replace or add to the plan's, and its items are placed nowhere. -/
def mergeBays (base new : List PBay) (items : List Nat) : List PBay :=
  (base.filter fun e => !items.contains e.bay && !new.any (·.bay == e.bay)) ++ new.filter fun e => !items.contains e.bay

/-- `n` fence placements from offset `o`; offsets of the tables count from the start of Tables (DEDUCED, log 33). -/
def parseFences (b : List Byte) (base : List PBay) : Nat → Nat → Option (List FencePl)
  | 0, _ => some []
  | n + 1, o =>
    let ni := natAt b o 1
    let nf := natAt b (o + 2) 2
    let nb := natAt b (o + 4) 2
    let len := natAt b (o + 8) 4
    let fo := o + 16 + 4 * ni
    let go := fo + 8 * nf
    let io := go + 64
    let bo := io + 64
    let to_ := bo + 80 * nb
    if b.length < o + 16 ∨ b.length < o + len ∨ ni = 0 ∨ 4 < ni ∨ 128 < nf ∨ nb = 0 ∨ 1152 < nb ∨ o + len < to_ ∨
        natAt b (o + 1) 1 ≠ 0 ∨ natAt b (o + 12) 4 ≠ 0 then none
    else match parseTrees (b.take (o + len)) (natAt b (o + 6) 2) to_ with
      | none => none
      | some (ts, te) =>
        let tabs := bytesAt b te (o + len - te)
        let keep (k : Nat) : List (BitVec 64) := match base.find? (·.bay == k) with | some e => e.routes | none => []
        match allSome ((List.range nb).map fun i => parseBay (bytesAt b (bo + 80 * i) 80) ⟨tabs, tabs, tabs, tabs, tabs⟩ keep) with
        | none => none
        | some bs =>
          let items := (List.range ni).map fun i => bayNum (natAt b (o + 16 + 4 * i) 1) (natAt b (o + 17 + 4 * i) 1)
          let f : FencePl := {
            items := items
            fills := (List.range nf).map fun i =>
              let p := fo + 8 * i
              (pkey (bayNum (natAt b p 1) (natAt b (p + 1) 1)) (natAt b (p + 2) 1),
               pkey (bayNum (natAt b (p + 4) 1) (natAt b (p + 5) 1)) (natAt b (p + 6) 1))
            budget := (List.range 32).map fun i => natAt b (go + 2 * i) 2
            inputs := (List.range 16).map fun i =>
              (natAt b (io + 4 * i) 1, natAt b (io + 4 * i + 1) 1, natAt b (io + 4 * i + 2) 2)
            bays := mergeBays base bs items
            trees := ts }
          (parseFences b base n (o + len)).map (f :: ·)

/-- Each fill's source is a panel of an item, and its target is not (13 R374). -/
def FencePl.fillsOk (f : FencePl) : Bool :=
  f.fills.all fun x => f.items.contains (x.2 / 32) && !f.items.contains (x.1 / 32) && decide (x.1 / 32 < 1152)

/-- The plan image but for check 13's certificate; none if a section is malformed (check 2). -/
def parsePlan (b : List Byte) (sig : Nat) : Option PlanImg :=
  if !headerOk b then none
  else
    let l := secTable b (natAt b 6 2)
    let usesCtx := natAt b 32 1 / 2 % 2 == 1
    match parseRoutes (secBytes b l 6), parseLayout (secBytes b l 10) usesCtx with
    | some (rt, ts, fs), some lay =>
      let a : Areas := ⟨secBytes b l 2, secBytes b l 3, secBytes b l 4, secBytes b l 5, rt⟩
      let pb := secBytes b l 1
      let nb := natAt b 24 2
      match allSome ((List.range nb).map fun i => parseBay (bytesAt pb (80 * i) 80) a fun _ => []) with
      | none => none
      | some bays =>
        let db := secBytes b l 7
        let fb := secBytes b l 8
        match parseDetours db (natAt db 0 2) 4, parseFences fb bays (natAt fb 0 2) 4 with
        | some ds, some fps =>
          if pb.length < 80 * nb ∨ (secBytes b l 9).length < 64 ∨ 64 < natAt db 0 2 ∨ 64 < natAt fb 0 2 ∨
              fps.all FencePl.fillsOk = false ∨
              (List.range 16).any (fun k => (lay.progs.getD k {}).role != 0 &&
                bays.all fun e => e.entries.getD k 0xFFFF == 0xFFFF) = true then none
          else some {
            id := natAt b 8 8, layers := natAt b 28 2, auditPer := natAt b 30 2, usesCtx := usesCtx,
            weight := BitVec.ofNat 512 (natAt b 40 64), digest := Config.shake256 (b.take sig), bays := bays, trees := ts,
            streams := fs, detours := ds, fences := fps,
            budget := (List.range 32).map fun i => natAt (secBytes b l 9) (2 * i) 2, layout := lay }
        | _, _ => none
    | _, _ => none

/-! ### Per-stroke checks -/

/-- The first stroke of a bay's list a test finds: its location and index. -/
def badStroke (e : PBay) (f : BitVec 256 → Bool) : Option (Nat × Nat) :=
  (e.strokes.zipIdx.find? fun x => f x.1).map fun x => (bayLoc e.bay, x.2)

/-- The first table record a test finds. -/
def badRec {α : Type} (e : PBay) (l : List α) (f : α → Bool) : Option (Nat × Nat) :=
  (l.zipIdx.find? fun x => f x.1).map fun x => (bayLoc e.bay, x.2)

/-- A reserved field or encoding of a stroke, whatever its PKIND; in a row access bits [6:5] are ROW's (check 4; R143). -/
def strokeReserved (w : BitVec 256) : Bool :=
  w.getLsbD 82 || sw w 3 27 5 != 0 || sw w 4 26 6 != 0 || sw w 5 14 2 != 0 || sw w 6 28 4 != 0 || sw w 7 12 4 != 0 ||
  sw w 3 20 2 == 3 || stUnit w == 3 || decide (10 < sw w 6 12 4) ||
  sw w 2 15 2 == 3 || (stKind w != 3 && sw w 2 5 2 == 3)

/-- A reserved field or encoding of an operation record, or a B_KIND that does not suit its CODE (check 4; R148). -/
def opReserved (o : BitVec 128) : Bool :=
  let c := opCode o
  fld o 25 7 != 0 || fld o 58 6 != 0 || fld o 120 8 != 0 || opBKind o == 3 || !(codeVector c || codeMatrix c) ||
  (codeBinary c && opBKind o == 2) ||
  (codeVector c && !codeBinary c && (opBKind o != 2 || fld o 45 13 != 0 || fld o 16 3 != 0 || fld o 100 10 != 0)) ||
  (codeMatrix c && (fld o 8 15 != 0 || fld o 45 13 != 0 || fld o 100 10 != 0))

/-- A reserved field or encoding of a transfer record (check 4; R149). -/
def xferReserved (r : BitVec 64) : Bool := decide (6 ≤ xKind r) || fld r 58 6 != 0

/-- Check 5: illegal panel parameters (02 R47). -/
def panelIllegal (w : BitVec 256) : Bool := stKind w == 1 && (panelSegs (w.extractLsb' 64 32)).isNone

/-- A panel input's format and plane count are allowed (03 R80). -/
def inputOk (d : BitVec 32) (p : Nat) : Bool :=
  match Fmt.ofDesc d with
  | .int n _ => p == n && !(n == 1 && d.getLsbD 4)
  | .bx false => decide (4 ≤ p)
  | .bx true => p == 8
  | _ => false

/-- A format of an operand or of a drain output (03 R79, R80; 04 R117). -/
def formatOk (d : BitVec 32) : Bool := Fmt.ofDesc d != .bad && !(fld d 0 4 == 0 && d.getLsbD 4)

/-- A tensor the stroke names is of an allowed format; one beyond the table is check 9's. -/
def tensorTest (q : Seq) (i : Nat) (f : BitVec 32 → Bool) : Bool :=
  match q.tensors[i]? with | some te => f (teDesc te) | none => true

/-- An I8 or binary16 operand of the matrix unit (04 R122): none for another format. -/
def matrixKind (d : BitVec 32) : Option Bool :=
  match Fmt.ofDesc d with | .int 8 _ => some false | .f16 => some true | _ => none

/-- Check 6 of one operation record. -/
def opFormatsOk (q : Seq) (o : BitVec 128) : Bool :=
  let c := opCode o
  let a := fld o 90 10
  let d := fld o 110 10
  if codeVector c then
    tensorTest q a formatOk && (c != 7 || tensorTest q a fun x => (Fmt.ofDesc x).isInt) &&
    (!(codeBinary c && opBKind o == 0) || tensorTest q (fld o 100 10) formatOk) &&
    ((codeReduce c && !o.getLsbD 22) || tensorTest q d formatOk)
  else if c = 0x42 then tensorTest q d formatOk
  else if codeMatrix c then tensorTest q a fun x => (matrixKind x).isSome
  else true

/-- Check 6 of one stroke (03 R80; 04 R117, R122). -/
def strokeFormatsOk (q : Seq) (w : BitVec 256) : Bool :=
  (stKind w != 1 || tensorTest q (sw w 3 0 10) fun d => inputOk d (panelPlanes (w.extractLsb' 64 32))) &&
  (stDrained w == [] || tensorTest q (sw w 3 10 10) formatOk) &&
  (!(stUnit w == 1 || stUnit w == 2) || match q.ops[sw w 5 0 12]? with | some o => opFormatsOk q o | none => true)

/-- An MM_MUL whose format does not match the B loaded before it in the list (04 R122; DEDUCED, log 34). -/
def badMul (q : Seq) : List (BitVec 256 × Nat) → Option Bool → Option Nat
  | [], _ => none
  | (w, i) :: l, b =>
    if stUnit w = 2 then
      match q.ops[sw w 5 0 12]? with
      | some o =>
        let k := match q.tensors[fld o 90 10]? with | some te => matrixKind (teDesc te) | none => none
        if opCode o = 0x40 then badMul q l k
        else if opCode o = 0x41 ∧ b.isSome ∧ k.isSome ∧ b ≠ k then some i
        else badMul q l b
      | none => badMul q l b
    else badMul q l b

/-- Check 7 of one stroke (05 R144; 04 R127). -/
def strokeBoundsBad (e : PBay) (w : BitVec 256) : Bool :=
  let fl := stWaits w ++ stSets w
  let k := stKind w
  let ps := stPanels w
  fl.any (fun f => !(decide (e.flagFirst ≤ f ∧ f ≤ e.flagLast)) || decide (255 < f)) ||
  (stWaits w).any ((stSets w).contains ·) ||
  ((k == 1 || k == 3) && ps == []) ||
  (k == 2 && (sw w 2 5 27 != 0 || sw w 3 0 10 != 0)) ||
  (k == 3 && w.getLsbD 68 && ps.length != 1) ||
  (e.seq.strokeXfers w).any fun r =>
    (xKind r == 2 || xKind r == 3 || (xKind r == 1 && xToQueue r)) &&
      !(decide (e.queueFirst ≤ xQueue r ∧ xQueue r ≤ e.queueLast))

/-- Check 9 of one stroke: an index beyond its table, or a drain range beyond accumulator 1,023 (05 R147). -/
def strokeIndexBad (e : PBay) (w : BitVec 256) : Bool :=
  let te (i : Nat) : Bool := decide (e.tensors.length ≤ i)
  (stKind w == 1 && te (sw w 3 0 10)) ||
  (stDrained w != [] && (te (sw w 3 10 10) || decide (1024 < 64 * (sw w 5 16 4 + sw w 5 20 4 + 1)))) ||
  ((stUnit w == 1 || stUnit w == 2) &&
    (match e.ops[sw w 5 0 12]? with
      | none => true
      | some o =>
        let c := opCode o
        (c != 0x42 && te (fld o 90 10)) || (codeBinary c && opBKind o == 0 && te (fld o 100 10)) ||
        (c != 0x40 && c != 0x41 && !(codeReduce c && !o.getLsbD 22) && te (fld o 110 10)))) ||
  (sw w 6 12 4 != 0 && decide (e.xfers.length < sw w 6 0 12 + sw w 6 12 4)) ||
  (e.seq.strokeXfers w).any fun r => (xKind r == 0 || xKind r == 1 || xKind r == 5) && decide (e.routes.length ≤ xRoute r)

/-- Two writes of one stroke to one byte (04 R109). -/
def writesClash : List Access → Bool
  | [] => false
  | a :: l => (a.write && l.any fun c => c.write && c.line == a.line && (c.mask &&& a.mask) != 0) || writesClash l

/-- The strokes of step program `k` of a bay: from its entry to its first END (05 R141). -/
def PBay.program (e : PBay) (k : Nat) : List (BitVec 256 × Nat) :=
  let n := e.entries.getD k 0xFFFF
  if n < e.strokes.length then
    let l := e.strokes.zipIdx.drop n
    l.take ((l.findIdx fun x => stEnd x.1) + 1)
  else []

/-- The mode a stroke leaves a segment in, if it writes it (05 R150). -/
def segWritten (w : BitVec 256) (g : Nat) : Option Nat :=
  if (BitVec.ofNat 4 (sw w 6 24 4)).getLsbD g then some (sw w 6 (16 + 2 * g) 2) else none

/-- The modes segment `g` can hold at a program's first stroke, over every order the cycle allows (04 R116). -/
def PBay.entryModes (e : PBay) (cycle : List Nat) (g : Nat) : List Nat :=
  e.segInit / 4 ^ g % 4 :: cycle.filterMap fun k => (e.program k).reverse.findSome? fun x => segWritten x.1 g

/-- The first stroke of a program that can access a segment not ON; `modes` are what each segment can hold. -/
def segBad (q : Seq) : List (BitVec 256 × Nat) → (Nat → List Nat) → Option Nat
  | [], _ => none
  | (w, i) :: l, modes =>
    if (strokeAccesses q w).any fun a => decide (a.line < 6144) &&
        (modes (segOf a.line)).any fun m => segModeOf m != .on then some i
    else segBad q l fun g => match segWritten w g with | some m => [m] | none => modes g

/-- Check 8 of one bay (04 R109, R116), made whether or not check 9 will fail. -/
def segCheck (e : PBay) (cycle : List Nat) : Option (Nat × Nat) :=
  (badStroke e fun w => (strokeAccesses e.seq w).any (fun a => decide (6143 < a.line)) || writesClash (strokeAccesses e.seq w)).or
    ((cycle.findSome? fun k => segBad e.seq (e.program k) (e.entryModes cycle)).map fun i => (bayLoc e.bay, i))

/-- Check 12's spread of audit strokes (05 R161). -/
def auditSpread (l : List (BitVec 256)) (per : Nat) : Bool :=
  let n := l.length
  if n < 1024 then decide (n * per / 1024 ≤ (l.filter stAudit).length)
  else (List.range (n - 1023)).all fun i => decide (per ≤ (((l.drop i).take 1024).filter stAudit).length)

/-! ### Audit pairing (13 R360) -/

/-- The audit runs of a list: first stroke and the stroke that drains; `start` is the open run's first. -/
def auditRuns : List (BitVec 256) → Nat → Option Nat → List (Nat × Nat)
  | [], _, _ => []
  | w :: l, i, start =>
    if !stAudit w then auditRuns l (i + 1) none
    else
      let s := start.getD i
      if stDrained w = [] then auditRuns l (i + 1) (some s) else (s, i) :: auditRuns l (i + 1) none

/-- What an audit run's drain and its origin's have in common (13 R360). -/
def drainKey (q : Seq) (w : BitVec 256) : List Nat :=
  let te := q.tensor (sw w 3 10 10)
  [stLayer w, sw w 7 4 8, sw w 5 24 8, (descId (teDesc te)).toNat, fld te 32 32, fld (teDesc te) 0 4,
   if (teDesc te).getLsbD 4 then 1 else 0, stDrainCount w * (stDrained w).length]

/-- Stroke `i` of a bay is in its program `k`. -/
def PBay.inProgram (e : PBay) (k i : Nat) : Bool := (e.program k).any fun x => x.2 == i

/-- The origins of an audit run in program `k`. -/
def originsOf (bays : List PBay) (e : PBay) (k drain : Nat) : List (Nat × Nat) :=
  let key := drainKey e.seq (e.strokes.getD drain 0)
  bays.flatMap fun o =>
    if o.bay = e.bay then []
    else (o.program k).filterMap fun x =>
      if !stAudit x.1 && stDrained x.1 != [] && drainKey o.seq x.1 == key then some (o.bay, x.2) else none

/-- Every audit pair of a placement; `none` where a run has not exactly one origin. -/
def pairsOf (bays : List PBay) : List (Option Pair × Nat × Nat) :=
  bays.flatMap fun e => (auditRuns e.strokes 0 none).flatMap fun r =>
    ((List.range 16).filter fun k => e.inProgram k r.2).map fun k =>
      match originsOf bays e k r.2 with
      | [o] => (some { obay := o.1, ostroke := o.2, abay := e.bay, afirst := r.1, astroke := r.2, prog := k }, bayLoc e.bay, r.1)
      | _ => (none, bayLoc e.bay, r.1)

/-! ### The mesh (06 R192) -/

/-- A tree's record by plan-local id. -/
def treeOf (ts : List Tree) (id : Nat) : Option Tree := ts.find? (·.id == id)

/-- Dependencies of a tree's channels. -/
def treeDeps (t : Tree) : List (Nat × Nat) :=
  t.nodes.flatMap fun n => (bitsOf n.2 4).flatMap fun p =>
    match nbr n.1 p with
    | .router c => (t.nodes.filter (·.1 == c)).flatMap fun m => (bitsOf m.2 5).map fun r => (chan n.1 p, chan c r)
    | _ => []

/-- The channel dependencies of a placement's sends on one VC. -/
def chanDeps (bays : List PBay) (ts : List Tree) (vc : Nat) : List (Nat × Nat) :=
  bays.flatMap fun e => (e.xfers.filter fun r => (xKind r == 0 || xKind r == 5) && xVc r == vc).flatMap fun r =>
    match e.routes[xRoute r]? with
    | none => []
    | some rt =>
      if rtType rt = 0 then (match routePath e.bay rt with | some l => pathDeps l | none => [])
      else if rtType rt = 1 then (match treeOf ts (fld rt 29 8) with | some t => treeDeps t | none => [])
      else []

/-- Nodes a tree's root reaches, `n` hops out. -/
def treeReach (t : Tree) : Nat → List Nat → List Nat
  | 0, l => l
  | n + 1, l =>
    treeReach t n ((l ++ l.flatMap fun b => (t.nodes.filter (·.1 == b)).flatMap fun m => (bitsOf m.2 4).filterMap fun p =>
      match nbr b p with | .router c => some c | _ => none).dedup)

/-- A tree is a tree (06 R192). -/
def Tree.ok (t : Tree) : Bool :=
  let ids := t.nodes.map (·.1)
  let edges := t.nodes.flatMap fun n => (bitsOf n.2 4).map fun p => (n.1, p)
  let hops := edges.filter fun e => match nbr e.1 e.2 with | .router _ => true | _ => false
  let exits := (edges.filter fun e => match nbr e.1 e.2 with | .edge _ _ => true | _ => false).length +
    (t.nodes.filter fun n => n.2.getLsbD 4).length
  decide ids.Nodup && ids.all (fun b => decide (b < 1152)) && ids.contains t.root &&
  edges.all (fun e => match nbr e.1 e.2 with | .router c => ids.contains c | .edge _ _ => true | .absent => false) &&
  hops.length + 1 == ids.length && (let r := treeReach t ids.length [t.root]; ids.all r.contains) &&
  t.nodes.all (fun n => n.1 != t.root || !n.2.getLsbD 4) && decide (exits ≤ 64)

/-- A route entry is valid at its bay (06 R192). -/
def State.routeOk (s : State) (ts : List Tree) (b : Nat) (r : BitVec 64) : Bool :=
  fld r 59 5 == 0 && decide (fld r 15 3 < 5) &&
  match rtType r with
  | 0 => (match routePath b r with | some l => l.all fun e => !s.rtrFenced e.1 | none => false)
  | 1 => (treeOf ts (fld r 29 8)).isSome
  | 2 => decide (fld r 57 2 < 2)
  | _ => false

/-- The bays where a send's lines leave the mesh at a local port. -/
def sendTargets (ts : List Tree) (b : Nat) (rt : BitVec 64) : List Nat :=
  if rtType rt = 0 then
    match routePath b rt with
    | some l => (match l.getLast? with | some (c, 4) => [c] | _ => [])
    | none => []
  else match treeOf ts (fld rt 29 8) with
    | some t => (t.nodes.filter fun n => n.2.getLsbD 4).map (·.1)
    | none => []

/-- A transfer record breaks R192: its VC, its route entry's type, or no receive entry at a destination. -/
def xferRouteBad (bays : List PBay) (ts : List Tree) (e : PBay) (r : BitVec 64) : Bool :=
  let k := xKind r
  ((k == 0 || k == 5) && decide (2 ≤ xVc r)) ||
  match e.routes[xRoute r]? with
  | none => false
  | some rt =>
    if k = 1 then rtType rt != 2
    else if k = 0 ∨ k = 5 then
      rtType rt == 2 ||
      (k == 0 && (sendTargets ts e.bay rt).any fun c =>
        !(match bays.find? (·.bay == c) with | some d => d.seq.receives (fld rt 37 12) (xVc r) | none => false))
    else false

/-- A bay holds two receive entries for one stream and VC. -/
def twoReceives (e : PBay) : Bool :=
  !decide (((e.routes.filter fun r => rtType r == 2).map fun r => (fld r 37 12, fld r 57 2)).Nodup)

/-- Check 10 but for tree ids and cycles. -/
def State.meshCheck (s : State) (bays : List PBay) (ts : List Tree) : Option (Nat × Nat) :=
  (bays.findSome? fun e =>
    ((badRec e e.routes fun r => !s.routeOk ts e.bay r).or
      (if twoReceives e then some (bayLoc e.bay, 0) else none)).or
      (badRec e e.xfers (xferRouteBad bays ts e))).or
    (if ts.all Tree.ok then none else some (0xFFFF, 0))

/-- A detour set's routes applied (06 R198). -/
def Detour.apply (d : Detour) (bays : List PBay) : List PBay :=
  bays.map fun e => { e with routes := d.routes.foldl (fun l r => if r.1 = e.bay then l.set r.2.1 r.2.2 else l) e.routes }

/-- Replacement trees by plan-local id. -/
def mergeTrees (base new : List Tree) : List Tree := (base.filter fun t => !new.any (·.id == t.id)) ++ new

/-- A detour set names bays and entries that exist. -/
def Detour.namesOk (d : Detour) (bays : List PBay) : Bool :=
  d.items.all (fun x => (x.1 == 0 && decide (x.2.1 < 32 ∧ x.2.2 < 36)) || (x.1 == 1 && decide (x.2.1 < 16) && x.2.2 == 0)) &&
  d.routes.all fun r => match bays.find? (·.bay == r.1) with | some e => decide (r.2.1 < e.routes.length) | none => false

/-- The trees of a plan under its placement and detour in force. -/
def Loaded.trees (p : Loaded) : List Tree :=
  let a := match p.placement with | some i => (match p.img.fences[i]? with | some f => f.trees | none => []) | none => []
  let d := match p.detour with | some i => (match p.img.detours[i]? with | some f => f.trees | none => []) | none => []
  mergeTrees (mergeTrees p.img.trees a) d

/-- The bays of a plan under its placement and detour in force. -/
def Loaded.live (p : Loaded) : List PBay :=
  match p.detour with
  | some i => (match p.img.detours[i]? with | some d => d.apply p.bays | none => p.bays)
  | none => p.bays

/-- Plan-local tree ids of an image, each once (06 R191). -/
def PlanImg.treeIds (p : PlanImg) : List Nat :=
  ((p.trees ++ p.fences.flatMap (·.trees) ++ p.detours.flatMap (·.trees)).map (·.id)).dedup

/-- Module-wide tree ids that are free (06 R191). -/
def State.freeTrees (s : State) : List Nat :=
  let used := s.plans.flatMap (·.treeIds)
  (List.range 256).filter fun i => !used.contains i

/-- Check 10 for one placement: its entries, and cycles with every loaded plan, with and without each detour set. -/
def State.check10 (s : State) (p : PlanImg) (bays : List PBay) (ts : List Tree) : Option (Nat × Nat) :=
  let others (vc : Nat) : List (Nat × Nat) := s.plans.flatMap fun q => chanDeps q.live q.trees vc
  let cyc (bs : List PBay) (tr : List Tree) : Bool := [0, 1].any fun vc => cyclic (others vc ++ chanDeps bs tr vc)
  (s.meshCheck bays ts).or
    (if (s.freeTrees).length < p.treeIds.length ∨ cyc bays ts = true then some (0xFFFF, 0)
     else p.detours.zipIdx.findSome? fun d =>
       let bs := d.1.apply bays
       let tr := mergeTrees ts d.1.trees
       if !d.1.namesOk bays || cyc bs tr then some (0xFFFF, d.2) else s.meshCheck bs tr)

/-- A FLAGSEND whose flag lies outside the range placed at its destination (check 7; 04 R127; DEDUCED, log 35). -/
def flagSendBad (bays : List PBay) (ts : List Tree) (e : PBay) (r : BitVec 64) : Bool :=
  xKind r == 5 &&
  match e.routes[xRoute r]? with
  | none => false
  | some rt =>
    let f := fld r 45 8
    (sendTargets ts e.bay rt).any fun c =>
      match bays.find? (·.bay == c) with | some d => !decide (d.flagFirst ≤ f ∧ f ≤ d.flagLast) | none => true

/-! ### The checks in table order (05 R161) -/

/-- Power limits of R37 for a budget: leaf limits in W by rail id, others' budgets summed. -/
def State.budgetBad (s : State) (budget : List Nat) (others : Nat) : Option (Nat × Nat) :=
  match budget.zipIdx.find? fun e => decide (10 * mget 130 s.boot.plimit e.2 < e.1) with
  | some e => some (0xFFFF, e.2)
  | none => if 37600 < others + budget.sum then some (0xFFFF, 32) else none

/-- The budget of a plan under its placement in force. -/
def Loaded.budget (p : Loaded) : List Nat :=
  match p.placement with
  | some i => (match p.img.fences[i]? with | some f => f.budget | none => p.img.budget)
  | none => p.img.budget

/-- Checks 3 and 5 to 12 of one placement of a plan, in order: (check, location, index). -/
def State.placementCheck (s : State) (p : PlanImg) (bays : List PBay) (ts : List Tree) (budget : List Nat) (n : Nat) :
    Option (Nat × Nat) :=
  let cyc := p.layout.cycle
  match n with
  | 3 => (bays.zipIdx.find? fun e => decide (1152 ≤ e.1.bay) || s.rtrFenced e.1.bay ||
           (bays.filter (·.bay == e.1.bay)).length != 1).map fun e => (bayLoc e.1.bay, e.2)
  | 5 => bays.findSome? fun e => badStroke e panelIllegal
  | 6 => bays.findSome? fun e => (badStroke e fun w => !strokeFormatsOk e.seq w).or
           ((badMul e.seq e.strokes.zipIdx none).map fun i => (bayLoc e.bay, i))
  | 7 => bays.findSome? fun e => (badStroke e (strokeBoundsBad e)).or (badRec e e.xfers (flagSendBad bays ts e))
  | 8 => bays.findSome? fun e => segCheck e cyc
  | 9 => bays.findSome? fun e => (badStroke e (strokeIndexBad e)).or
           (if e.routes = [] then badRec e e.xfers (fun r => xKind r == 0 || xKind r == 1 || xKind r == 5) else none)
  | 10 => s.check10 p bays ts
  | 11 => s.budgetBad budget ((s.plans.map fun q => q.budget.sum).sum)
  | 12 => if p.auditPer < s.boot.auditMin then some (0xFFFF, 0)
          else (bays.findSome? fun e => if auditSpread e.strokes p.auditPer then none else some (bayLoc e.bay, 0)).or
            ((pairsOf bays).findSome? fun x => if x.1.isSome then none else some x.2)
  | _ => none

/-- Check `n` over a plan's own placement and every fence placement, from 3 on. -/
def State.loadCheck (s : State) (p : PlanImg) (cert : Option (Option Cert)) (n : Nat) : Option (Nat × Nat) :=
  match n with
  | 4 => p.bays.findSome? fun e =>
      ((badStroke e strokeReserved).or (badRec e e.ops opReserved)).or (badRec e e.xfers xferReserved)
  | 13 => if cert = some none then some (0xFFFF, 0) else none
  | 14 => p.bays.findSome? fun e => (List.range 16).findSome? fun k =>
      let i := e.entries.getD k 0xFFFF
      if i ≠ 0xFFFF ∧ ((e.strokes.drop i).any stEnd) = false then some (bayLoc e.bay, i) else none
  | n => (s.placementCheck p p.bays p.trees p.budget n).or
      (p.fences.findSome? fun f => s.placementCheck p f.bays (mergeTrees p.trees f.trees) f.budget n)

/-- The first of checks 3 to 14 that fails: (check, location, index). -/
def State.firstFail (s : State) (p : PlanImg) (cert : Option (Option Cert)) : Option (Nat × Nat × Nat) :=
  (List.range 12).findSome? fun i => (s.loadCheck p cert (i + 3)).map fun x => (i + 3, x.1, x.2)

/-- The Keep tries the enrolled keys that hold a role, in ascending order, and accepts the first under which the signature of a digest verifies (12 R331,
R332). -/
def State.signer (s : State) (d : BitVec 512) (sig : List Byte) (role : Nat) : Option Nat :=
  (List.range 16).find? fun k =>
    match mget none s.nvm.owners k with
    | some o => (k == 0 || o.1 / 2 ^ role % 2 == 1) && Config.falconOk o.2 (leBytes 64 d.toNat) sig
    | none => false

/-- A loader check has failed: snag 0x9101 and REFUSED (05 R161). The detail word is not given: a free value. -/
def State.loadRefused (s : State) (check loc idx : Nat) : Done :=
  let s := (s.snagCtl 0x9101 1 [check, loc, idx, s.freeVal % 2 ^ 64]).drawn
  .comp s stRefused (0x9101 * 2 ^ 16 + check) []

/-- The class-0 service a plan gets when it loads (05 R166): the state, and whether it is admitted. -/
def State.admitPlan (s : State) (p : PlanImg) : State × Bool :=
  match p.cert with
  | none => (s, false)
  | some c =>
    match p.unfit c s.part with
    | none => (s, true)
    | some (k, a, w) => (s.snagCtl 0x2072 0 [p.id, k, a, w], false)

/-- The image has been read: checks 1 to 14 (05 R157, R161, 11 R316). -/
def State.loadPlan (s : State) (c : Cmd) (b : List Byte) : Done :=
  match findSig b with
  | none => s.loadRefused 1 0xFFFF 0
  | some sig =>
    if (s.signer (Config.shake256 (b.take sig)) (b.drop sig) 1).isNone then s.loadRefused 1 0xFFFF 0
    else match parsePlan b sig with
      | none => s.loadRefused 2 0xFFFF 0
      | some p =>
        if s.plans.any fun q => q.img.id == p.id then .comp s stBadArg 0 []
        else
          let l := secTable b (natAt b 6 2)
          let cert := (secOf l 0x0B).map fun _ =>
            parseCert (secBytes b l 0x0B) p.id ((p.layout.slots.filter (·.1)).length)
          match s.firstFail p cert with
          | some (n, loc, i) => s.loadRefused n loc i
          | none =>
            let p := { p with cert := cert.join }
            let a := s.admitPlan p
            let acc := (List.range (c.arg 18 2)).map fun i => (c.arg (24 + 4 * i) 2, c.arg (26 + 4 * i) 1 % 2 == 1)
            let q : Loaded := { img := p, owner := c.arg 16 2, access := acc, admitted := a.2,
                                treeIds := s.freeTrees.take p.treeIds.length }
            .comp { a.1 with plans := a.1.plans ++ [q] } stOk 0 (leBytes 8 p.id ++ leBytes 1 (if a.2 then 1 else 0))

/-- PLAN_LOAD (11 R314, R316). `dma` is the image as read from host memory. -/
def execPlanLoad (t fn slot : Nat) (dma : HostRead) (s : State) : Host.Outcome State Fault Refusal :=
  .next ((s.tick t).runCmd fn slot 0x10 (fun _ => true) { pf := true, states := modesCompute }
    (fun c => c.onlyArgs [(0, 20), (24, 4 * c.arg 18 2)] &&
      (List.range (c.arg 18 2)).all fun i => decide (c.arg (26 + 4 * i) 2 < 2))
    fun s c =>
      if 1024 < c.arg 16 2 ∨ 1000 < c.arg 18 2 then .comp s stBadArg 0 []
      else if 16 ≤ s.plans.length then .comp s stRefused 0 []
      else s.dmaRead fn c (c.arg 0 8) (fetchBytes dma) fun s b => s.loadPlan c (bytesAt b 0 (c.arg 8 8)))

end Sys2Proof.Machine
end

