-- ==== Sys2Proof/Machine/Panels.lean ====
section
/-! DEFINITION. The compute-in-memory panels (chapter 02) and their digital edges (03 R81–R88). -/

namespace Sys2Proof.Machine

/-! ### Banks and cells -/

/-- The bank code of a stroke (05 R143). -/
def bankSel (v : Nat) : BankSel := if v = 0 then .live else if v = 1 then .back else if v = 2 then .a else .b

/-- The guard bits of a bank (02 R48). -/
def Panel.guard (x : Panel) (bank : Nat) : BitVec 4 := if bank = 0 then x.guardA else x.guardB

/-- The weight width of a bank (02 R46, R70). -/
def Panel.width (x : Panel) (bank : Nat) : Nat := 2 ^ (if bank = 0 then x.wA else x.wB).toNat

/-- The signedness of a bank. -/
def Panel.weightSigned (x : Panel) (bank : Nat) : Bool := if bank = 0 then x.sgnA else x.sgnB

/-- The 1,136 cells of a row; a row nothing has written since power-up is open (02 R45, log 4). -/
def State.rowOf (s : State) (k bank row : Nat) : BitVec 1136 :=
  (mget none (s.panel k).cells (1024 * bank + row)).getD (Config.rowCells s.epoch k bank row)

/-- The witness bits of a row: bit k of group g is bit k of the sum of the group's 64 data bits (02 R56). -/
def witnessOf (d : BitVec 1024) : Nat :=
  (List.range 16).foldr (fun g acc => ((bitsOf (d.extractLsb' (64 * g) 64) 64).length) + 2 ^ 7 * acc) 0

/-- A row's cells: its data and the witness bits computed from them. -/
def cellsOf (d : BitVec 1024) : BitVec 1136 := BitVec.ofNat 1136 (d.toNat + 2 ^ 1024 * witnessOf d)

/-- A row write commits: data, witness bits and guard bit change together (02 R48, R56, R60). -/
def Panel.commitRow (x : Panel) (bank row : Nat) (d : BitVec 1024) : Panel :=
  let x := { x with cells := mset none x.cells (1024 * bank + row) (some (cellsOf d)) }
  if row % 256 = 255 then
    let m : BitVec 4 := BitVec.ofNat 4 (2 ^ (row / 256))
    let upd (g : BitVec 4) := if d = 0 then g ||| m else g &&& ~~~m
    if bank = 0 then { x with guardA := upd x.guardA } else { x with guardB := upd x.guardB }
  else x

/-! ### Starting an operation -/

/-- The operation is a compute operation. -/
def PanelOp.compute (o : PanelOp) : Bool := fld o.w2 0 2 == 1

/-- A bank's operation is in flight (02 R62); a skim touches no bank. -/
def Panel.opOn (x : Panel) (bank : Nat) : Bool :=
  match x.op with
  | some o => o.compute && o.started && o.bank == bank
  | none => false

/-- BUSY (02): an operation, skim or row access is in flight. -/
def Panel.busy (x : Panel) : Bool :=
  x.rowCur.isSome || (match x.op with | some o => o.started || o.skimming | none => false)

/-- A row's input: an In element's low n bits, or a BX element aligned to EREF (03 R81, R82). Rows of unmasked bands
are not read. Returns the P-bit patterns, the invalid blocks, and the saturated elements as (block, d). -/
def panelInput (rd : Nat → BitVec 512) (d : BitVec 32) (l planes mask : Nat) :
    List Nat × List Nat × List (Nat × Int) :=
  match Fmt.ofDesc d with
  | .bx w =>
    let f : Fmt := .bx w
    let q := gather rd l (f.elemLines 1024)
    let e := gather rd (l + f.elemLines 1024) 1
    let rows := (List.range 1024).map fun r =>
      let ex := slotOf e 8 (r / 32)
      if mask / 2 ^ (r / 256) % 2 = 0 ∨ ex = 255 then ((0 : Int), false)
      else bxAlign (twos f.bits (slotOf q f.bits r)) ((ex : Int) - descEref d) planes
    let blocks := (List.range 32).filter fun k => mask / 2 ^ (k / 8) % 2 = 1
    (rows.map fun y => (y.1 % 2 ^ planes).toNat,
     blocks.filter fun k => slotOf e 8 k = 255,
     rows.zipIdx.filterMap fun y =>
       if y.1.2 then some (y.2 / 32, (slotOf e 8 (y.2 / 32) : Int) - descEref d) else none)
  | f =>
    let q := gather rd l (f.elemLines 1024)
    ((List.range 1024).map fun r => if mask / 2 ^ (r / 256) % 2 = 0 then 0 else slotOf q f.bits r % 2 ^ planes, [], [])

/-- Illegal parameters reach the panel (02 R66): the handshake completes at once. -/
def State.illegalPanelOp (s : State) (b p : Nat) (o : PanelOp) : State :=
  let x := s.panel (pkey b p)
  let s := s.modPanel (pkey b p) fun x => { x with op := none }
  let s := s.stickyPanel b p x.opErr (fun x => { x with opErr := true }) 0x1002 2 [o.w2.toNat, (s.bay b).strokeCnt, 0]
  (s.modBay b fun y => y.modCur fun r => { r with panels := r.panels.erase p }).strokeCheck b

/-- The operation starts on its bank: the trim set is latched, guardless bands lose exactness, and the input is
aligned (02 R49, R53; 03 R82). A row access to the bank that waits is now held behind the operation (02 R62). -/
def State.startCompute (s : State) (b p : Nat) (o : PanelOp) (r : Running) (set bank : Nat) : State :=
  let k := pkey b p
  let x := s.panel k
  let mask := fld o.w2 7 4
  let exact : BitVec 4 := if o.w2.getLsbD 14 then BitVec.ofNat 4 mask &&& x.guard bank else 0
  let lost : BitVec 4 := if o.w2.getLsbD 14 then BitVec.ofNat 4 mask &&& ~~~(x.guard bank) else 0
  let inp := panelInput (r.rd s.freeVal) o.desc (fld o.w2 19 13) (panelPlanes o.w2) mask
  let cnt := (s.bay b).strokeCnt
  let s := s.setPanel k { x with
    trimSet := some (BitVec.ofNat 2 set), wrHeld := x.wrHeld || x.rowQ.any fun a => x.resolve a.bank == bank,
    op := some { o with started := true, skimming := false, bank := bank, exactBands := exact, inp := inp.1 } }
  let s := if lost = 0 then s
    else s.stickyPanel b p x.exactLost (fun x => { x with exactLost := true }) 0x1001 1 [bank, lost.toNat, cnt]
  let s := match inp.2.1 with
    | [] => s
    | blk :: _ => s.stickyBay b (s.bay b).bxInvalid (fun y => { y with bxInvalid := true }) 0x2061 1
        [(descId o.desc).toNat, blk, p, cnt]
  match inp.2.2 with
  | [] => s
  | (blk, d) :: l => s.stickyBay b (s.bay b).inSat
      (fun y => { y with inSat := true, inSatCnt := satAdd y.inSatCnt (l.length + 1) 0xFFFF }) 0x2063 0
      [(descId o.desc).toNat, blk, (d % 2 ^ 64).toNat, cnt]

/-- PANEL_OP_START (02 R62, R53, R66; 14 R392, R396). An input in a waking segment is waited for (04 R115). -/
def execPanelOpStart (t : Nat) (b : BayIx) (p : PanelIx) (s : State) : Host.Outcome State Fault Refusal :=
  let s := s.tick t
  let k := pkey b p
  let x := s.panel k
  .next (match x.op, (s.bay b).seq.cur with
    | some o, some r =>
      if o.started || o.skimming || (s.bay b).waking (panelAccesses (s.bay b).seq r.word) then s
      else if o.compute && (panelSegs o.w2).isNone then s.illegalPanelOp b p o
      else match s.leafBand (leafOf b) with
        | none => s
        | some set =>
          let mode := o.w2.getLsbD 4
          if !o.compute then
            (s.setPanel k { x with trimSet := some (BitVec.ofNat 2 set), op := some { o with started := true } }).skimStarts (dieOf b)
          else
            let bank := x.resolve (bankSel (fld o.w2 2 2))
            match x.rowCur with
            | some (rb, _) =>
              if rb = bank then (s.setPanel k { x with wrHeld := true }).intrude 2
              else if s.skimDue k set mode then
                s.setPanel k { x with trimSet := some (BitVec.ofNat 2 set), op := some { o with skimming := true } }
              else s.startCompute b p o r set bank
            | none =>
              if s.skimDue k set mode then
                s.setPanel k { x with trimSet := some (BitVec.ofNat 2 set), op := some { o with skimming := true } }
              else s.startCompute b p o r set bank
    | _, _ => s)

/-! ### Conversion (02 R50–R58) -/

/-- Add the bits of a row to the column counts. -/
def addRow : List Nat → Nat → List Nat
  | [], _ => []
  | c :: cs, x => (c + x % 2) :: addRow cs (x / 2)

/-- Active products of every column over the driven rows (02 R47). -/
def columnCounts (rows : List Nat) : List Nat := rows.foldl addRow (List.replicate 1136 0)

/-- The code a converter gives (02 R52): `g` is log2 of 1/gain; `off` is its miss. -/
def convert (time : Bool) (g n : Nat) (off : Int) : Nat :=
  let ideal := if time then min 255 ((2 * n + 2 ^ g) / 2 ^ (g + 1)) else min n 255
  ((saturate (ideal + off) 0 255).1).toNat

/-- What the conversions of an operation leave in the panel. -/
structure Conv where
  sats : BitVec 1136 := 0
  clips : Nat := 0
  first : Option Nat := none
  skips : Nat := 0
  miss : Nat := 0
  cap : Option (List Nat) := none
  deriving DecidableEq, Repr

/-- The mux phase of a column (02 R44): data column c, or 1,024 + w for witness column w. -/
def muxPhase (c : Nat) : Nat := c % 8

/-- The first of several clips of one plane and segment: earliest phase, then lowest column (02 R69). -/
def firstClip (l : List Nat) : Option Nat :=
  (List.range 8).findSome? fun ph => l.find? fun c => muxPhase c == ph

/-- The witness comparison of one group (02 R57): `cap0` is window word 0x40. -/
def witnessGroup (codes : List Nat) (exact : Bool) (tol cap0 g : Nat) (c : Conv) (cnt : Nat) : Conv :=
  let ds := (codes.drop (64 * g)).take 64
  let ws := (codes.drop (1024 + 7 * g)).take 7
  if !exact && (ds.contains 255 || ws.contains 255) then { c with skips := c.skips + 1 }
  else
    let d := ds.sum
    let w := ws.foldr (fun v acc => v + 2 * acc) 0
    let bad := if exact then d ≠ w else (d - w) + (w - d) > tol
    if bad then
      { c with miss := c.miss + 1, cap := if c.cap.isSome then c.cap else some [cap0 + g, d, w, cnt % 2 ^ 32] }
    else c

/-- The rows of a segment that are driven in plane `k` (02 R50, 03 R83): in an exact band row 255 is not. -/
def drivenRows (inp : List Nat) (first n k : Nat) (exact : Bool) : List Nat :=
  ((inp.drop first).take n).zipIdx.filterMap fun e =>
    if e.1 / 2 ^ k % 2 = 1 ∧ ¬(exact ∧ e.2 % 256 = 255) then some (first + e.2) else none

/-- One plane of one segment: the passed values of the data columns (02 R52), the active-row count, and the effects. Where several
groups mismatch in one plane and segment the lowest-numbered is captured (DESIGN CHOICE, log 175: the manual orders planes and segments
only). -/
def convertSeg (rows : Nat → Nat) (o : PanelOp) (devs : List Dev) (witEn : Bool) (tol cnt k : Nat)
    (seg : Nat × Nat × Nat × Nat) (c : Conv) : List Nat × Nat × Conv :=
  let time := o.w2.getLsbD 4
  let g := if time then fld o.w2 15 2 else 0
  let exact := !time && o.exactBands.getLsbD seg.1
  let driven := drivenRows o.inp seg.2.1 seg.2.2.1 k exact
  if driven.isEmpty then (List.replicate 1024 0, 0, c)
  else
    let codes := (columnCounts (driven.map rows)).zipIdx.map fun e =>
      let off := match devs.find? fun v => v.plane == k && v.seg == seg.1 && v.col == e.2 with
        | some v => v.off
        | none => 0
      convert time g e.1 off
    let clipped := if exact then [] else codes.zipIdx.filterMap fun e => if e.1 = 255 then some e.2 else none
    let c := { c with
      sats := c.sats ||| BitVec.ofNat 1136 (clipped.foldl (fun a i => a + 2 ^ i) 0),
      clips := c.clips + clipped.length, first := c.first.or (firstClip clipped) }
    let cap0 := 2 ^ 31 + k * 2 ^ 16 + seg.1 * 2 ^ 12 + (if exact then 2 ^ 9 else 0) + (if time then 2 ^ 8 else 0)
    let c := if witEn then (List.range 16).foldl (fun c gr => witnessGroup codes exact tol cap0 gr c cnt) c else c
    ((codes.take 1024).map (· * 2 ^ g), driven.length, c)

/-- The column weight ω_j of a weight width (02 R46). -/
def colWeight (w : Nat) (sgn : Bool) (j : Nat) : Int := if sgn && j + 1 == w then -(2 ^ j) else 2 ^ j

/-- The plane weight π_k of P planes (03 R85). -/
def planeWeight (p : Nat) (sgn : Bool) (k : Nat) : Int := if sgn && k + 1 == p then -(2 ^ k) else 2 ^ k

/-- The plane partials u(o, k) of a weight width (03 R86): `v` sums the segments' passed values, `a` their rows. -/
def planePartials (w : Nat) (sgn : Bool) (v : List Nat) (a : Nat) : List Int :=
  if w = 1 then v.map fun x => 2 * (x : Int) - a
  else (List.range (1024 / w)).map fun o =>
    ((List.range w).map fun j => colWeight w sgn j * ((v.getD (w * o + j) 0 : Nat) : Int)).sum

/-- Add increments to the accumulators; which of them saturated (03 R87). -/
def addAccs (acc : SMap Int) (incs : List Int) : SMap Int × List (Nat × Bool) :=
  incs.zipIdx.foldl (fun st e =>
    let y := accAdd (mget 0 st.1 e.2) e.1
    (mset 0 st.1 e.2 y.1, match y.2 with | some h => st.2 ++ [(e.2, h)] | none => st.2)) (acc, [])

/-- What a compute operation converts and adds with: its rows, converters, witness setting, signs, weight width, tolerance, stroke
count and segments. -/
structure Edge where
  rows : Nat → Nat
  op : PanelOp
  devs : List Dev
  witEn : Bool
  sgnIn : Bool
  sgnW : Bool
  w : Nat
  tol : Nat
  cnt : Nat
  segs : List (Nat × Nat × Nat × Nat)

/-- One plane: the sums over the segments of the passed values and of the active rows, and the effects. -/
def Edge.plane (e : Edge) (k : Nat) (c : Conv) : List Nat × Nat × Conv :=
  e.segs.foldl (fun a sg =>
    let x := convertSeg e.rows e.op e.devs e.witEn e.tol e.cnt k sg a.2.2
    (List.zipWith (· + ·) a.1 x.1, a.2.1 + x.2.1, x.2.2)) (List.replicate 1024 0, 0, c)

/-- The first `n` planes of an operation, least significant first (02 R65; 03 R85–R87). The additions are made plane by plane
(DEDUCED, log 18). -/
def Edge.run (e : Edge) (n : Nat) (acc : SMap Int) : SMap Int × Conv × List (Nat × Bool) :=
  (List.range n).foldl (fun st k =>
    let r := e.plane k st.2.1
    let y := addAccs st.1 ((planePartials e.w e.sgnW r.1 r.2.1).map (planeWeight (panelPlanes e.op.w2) e.sgnIn k * ·))
    (y.1, r.2.2, st.2.2 ++ y.2)) (acc, ({} : Conv), [])

/-- The residue an edge stage predicts for its output (03 R100), from the residues of its inputs: 0 column weighting of one column, 1 the
sums over columns and segments, 2 plane weighting, 3 accumulation, 4 saturation, whose input is the sum. None where the operation
has no such output. -/
def Edge.predicted (e : Edge) (acc : SMap Int) (f : ResFault) : Option (BitVec 3) :=
  let p := panelPlanes e.op.w2
  if p ≤ f.plane ∨ 1024 / e.w ≤ f.output then none
  else
    let one := fun (sg : Nat × Nat × Nat × Nat) =>
      let x := convertSeg e.rows e.op e.devs false e.tol e.cnt f.plane sg {}
      (x.1, x.2.1)
    let term (v : List Nat) (j : Nat) : BitVec 3 :=
      resMul (residue (colWeight e.w e.sgnW j)) (residue ((v.getD (e.w * f.output + j) 0 : Nat) : Int))
    let u : BitVec 3 := resSum ((e.segs.map one).map fun x =>
      if e.w = 1 then resSub (resMul 2 (residue ((x.1.getD f.output 0 : Nat) : Int))) (residue (x.2 : Int))
      else resSum ((List.range e.w).map (term x.1)))
    match f.stage with
    | 0 => if e.w = 1 ∨ e.w ≤ f.sub then none else (e.segs.find? (·.1 == f.seg)).map fun sg => term (one sg).1 f.sub
    | 1 => some u
    | 2 => some (resMul (residue (planeWeight p e.sgnIn f.plane)) u)
    | 3 | 4 => some (resAdd (residue (mget 0 (e.run f.plane acc).1 f.output)) (resMul (residue (planeWeight p e.sgnIn f.plane)) u))
    | _ => none

/-- A check of a panel edge (03 R100, R102, R103): a mismatch of the residue found with the one predicted sets RES_ERR and is signalled;
the result passes on unchanged. -/
def State.edgeResidue (s : State) (b : Nat) (predicted : Option (BitVec 3)) (f : ResFault) : State :=
  match predicted with
  | none => s
  | some r =>
    if resMismatch r f.code then
      let y := s.bay b
      (s.stickyBay b y.resErr (fun y => { y with resErr := true }) 0x1050 2
        [f.panel, f.stage, f.output, y.strokeCnt]).signalFault b 1 (some f.panel)
    else s

/-- Accumulators saturated (03 R87, R103): the panel argument is 32 for the matrix unit (04 R123). -/
def State.accOverflow (s : State) (b panel : Nat) (l : List (Nat × Bool)) : State :=
  match l with
  | [] => s
  | (o, h) :: tl =>
    let y := s.bay b
    s.stickyBay b y.accOvf (fun y => { y with accOvf := true, accOvfCnt := satAdd y.accOvfCnt (tl.length + 1) 0xFFFF })
      0x2062 1 [panel, o, if h then 1 else 0, y.strokeCnt]

/-- Clear the accumulators an operation that does not accumulate starts from zero (02 R65, 03 R85). -/
def clearAccs (acc : SMap Int) (n : Nat) : SMap Int := acc.filter fun e => decide (n ≤ e.1)

/-- The panel's part of the stroke has completed. -/
def State.panelPartDone (s : State) (b p : Nat) : State :=
  (s.modBay b fun y => y.modCur fun r => { r with panels := r.panels.erase p }).strokeCheck b

/-- A compute operation completes (02 R55, R57, R58, R67; 03 R85–R87, R102). -/
def State.completeCompute (s : State) (b p : Nat) (o : PanelOp) (devs : List Dev) (rf : List ResFault) : State :=
  let k := pkey b p
  let x := s.panel k
  let cnt := (s.bay b).strokeCnt
  let w := x.width o.bank
  let fd := Fmt.ofDesc o.desc
  let sgnIn := match fd with | .int _ g => g | .bx _ => true | _ => false
  let acc0 := if o.w2.getLsbD 17 then x.acc else clearAccs x.acc (1024 / w)
  let e : Edge := {
    rows := fun r => (s.rowOf k o.bank r).toNat, op := o, devs := devs, witEn := x.witEn, sgnIn := sgnIn,
    sgnW := x.weightSigned o.bank, w := w, tol := x.tol.toNat, cnt := cnt, segs := (panelSegs o.w2).getD [] }
  let res := e.run (panelPlanes o.w2) acc0
  let c := res.2.1
  let time := o.w2.getLsbD 4
  let s := s.setPanel k { x with
    op := none, acc := res.1, sats := x.sats ||| c.sats, satCnt := satAdd x.satCnt c.clips 0xFFFFFFFF,
    skipCnt := satAdd x.skipCnt c.skips 0xFFFF, misCnt := satAdd x.misCnt c.miss 0xFFFF }
  let s := match c.first with
    | none => s
    | some col => s.stickyPanel b p x.sat (fun x => { x with sat := true }) 0x1020 0
        [col, if time then 1 + fld o.w2 15 2 else 0, cnt]
  let s := match c.cap with
    | none => s
    | some cap =>
      let s := s.stickyPanel b p x.witMismatch
        (fun x => if x.witMismatch then x else { x with witMismatch := true, cap := cap }) 0x1010 2 (cap.take 3)
      s.signalFault b 0 (some p)
  let s := s.accOverflow b p res.2.2
  let s := (rf.filter (·.panel == p)).foldl (fun s f => s.edgeResidue b (e.predicted acc0 f) f) s
  s.panelPartDone b p

/-- COMPUTE_OP_COMPLETE (02 R67). `devs` are the converters that miss their ideal code; `rf` the residues its checks find (03 R100). -/
def execComputeOpComplete (t : Nat) (b : BayIx) (p : PanelIx) (devs : List Dev) (rf : List ResFault) (s : State) :
    Host.Outcome State Fault Refusal :=
  let s := s.tick t
  .next (match (s.panel (pkey b p)).op with
    | some o => if o.compute && o.started then s.completeCompute b p o devs rf else s
    | none => s)

/-- A skim ends on the set latched last (02 R53, R54): residual, sum mode and time are updated. -/
def State.skimEnds (s : State) (b p : Nat) (time : Bool) (res : BitVec 8) : State :=
  let k := pkey b p
  let x := s.panel k
  let set := s.trimSetOf k
  let was := s.calDegraded k
  let old := s.trimOf k set
  let new : Trim := { old with
    res := res, mode := time, cur := if time then old.cur else some s.mtime,
    tim := if time then some s.mtime else old.tim }
  let s := s.setPanel k { x with
    trims := mset none x.trims set (some new), skimCnt := (x.skimCnt + 1) % 256, trimSet := some (BitVec.ofNat 2 set) }
  let s := if s.calDegraded k && !was then
      s.snagBay b 0x1030 1 [p, res.toNat, x.exactLimit.toNat, set]
    else s
  s

/-- SKIM_COMPLETE (02 R53, 14 R394): a stroke's skim, or the catch-up skim before an operation (14 R396). -/
def execSkimComplete (t : Nat) (b : BayIx) (p : PanelIx) (res : BitVec 8) (s : State) :
    Host.Outcome State Fault Refusal :=
  let s := s.tick t
  let k := pkey b p
  .next (match (s.panel k).op with
    | some o =>
      if o.skimming then
        ((s.skimEnds b p (o.w2.getLsbD 4) res).modPanel k fun x => { x with op := some { o with skimming := false } }).intrude 7
      else if o.started && !o.compute then
        ((s.skimEnds b p (o.w2.getLsbD 4) res).modPanel k fun x => { x with op := none }).panelPartDone b p
      else s
    | none => s)

/-! ### The row port (02 R59–R63) -/

/-- A row access arrives (02 R62): it waits if an operation on its bank is in flight. -/
def State.rowArrives (s : State) (k : Nat) (a : RowAcc) : State :=
  s.modPanel k fun x =>
    { x with rowQ := x.rowQ ++ [a], wrHeld := x.wrHeld || x.opOn (x.resolve a.bank) }

/-- An issued operation that only waits to start holds its bank against the next row access (02 R62). -/
def State.opFirst (s : State) (b k bank : Nat) : Bool :=
  let x := s.panel k
  match x.op with
  | some o => o.compute && !o.started && !o.skimming && (panelSegs o.w2).isSome &&
      x.resolve (bankSel (fld o.w2 2 2)) == bank && (s.leafBand (leafOf b)).isSome
  | none => false

/-- ROW_ACCESS_START (02 R62, R63): accesses start in arrival order; the bank name is resolved now. -/
def execRowAccessStart (t : Nat) (b : BayIx) (p : PanelIx) (s : State) : Host.Outcome State Fault Refusal :=
  let s := s.tick t
  let k := pkey b p
  let x := s.panel k
  .next (match x.rowCur, x.rowQ with
    | none, a :: q =>
      let bank := x.resolve a.bank
      let waits := match a.src, (s.bay b).seq.cur with
        | .stroke, some r => (s.bay b).waking (panelAccesses (s.bay b).seq r.word)
        | _, _ => false
      if waits then s
      else if x.opOn bank || s.opFirst b k bank then s.setPanel k { x with wrHeld := true }
      else s.setPanel k { x with rowQ := q, rowCur := some (bank, a) }
    | _, _ => s)

/-- The row access of a stroke has ended. -/
def State.rowPartDone (s : State) (b p : Nat) (ws : List SpWrite) : State :=
  (s.modBay b fun y => y.modCur fun r => { r with rows := r.rows.erase p, writes := r.writes ++ ws }).strokeCheck b

/-- ROW_WRITE_COMMIT (02 R60). After the last row of a load the bay sends a panel-done notice (09 R265). -/
def execRowWriteCommit (t : Nat) (b : BayIx) (p : PanelIx) (s : State) : Host.Outcome State Fault Refusal :=
  let s := s.tick t
  let k := pkey b p
  let x := s.panel k
  .next (match x.rowCur with
    | some (bank, a) =>
      match a.data with
      | some d =>
        let s := s.setPanel k { x.commitRow bank a.row d with rowCur := none }
        match a.src with
        | .stroke => s.rowPartDone b p []
        | .message last => if last then s.toCtl b (.panelDone p s.gen) else s
        | .readback _ => s
      | none => s
    | none => s)

/-- The three lines a row read gives (04 R112). -/
def rowLines (cells : BitVec 1136) (groups : Nat) : List (BitVec 512) :=
  [cells.extractLsb' 0 512, cells.extractLsb' 512 512,
   BitVec.ofNat 512 (fld cells 1024 112 + 2 ^ 112 * groups)]

/-- ROW_READ_COMPLETE (02 R59, R61): `flips` are the columns of the row that have changed in their cells. -/
def execRowReadComplete (t : Nat) (b : BayIx) (p : PanelIx) (flips : List Nat) (s : State) :
    Host.Outcome State Fault Refusal :=
  let s := s.tick t
  let k := pkey b p
  let x := s.panel k
  .next (match x.rowCur with
    | some (bank, a) =>
      match a.data with
      | none =>
        let old := s.rowOf k bank a.row
        let cells := flips.foldl (fun c i => if i < 1136 then c ^^^ BitVec.ofNat 1136 (2 ^ i) else c) old
        let wit := witnessOf (cells.extractLsb' 0 1024)
        let groups := (List.range 16).foldr (fun g acc =>
          (if wit / 2 ^ (7 * g) % 128 = fld cells (1024 + 7 * g) 7 then 0 else 1) + 2 * acc) 0
        let s := s.setPanel k { x with
          rowCur := none,
          cells := if flips = [] then x.cells else mset none x.cells (1024 * bank + a.row) (some cells) }
        let s := if groups = 0 then s
          else (s.stickyPanel b p x.witStoreErr (fun x => { x with witStoreErr := true }) 0x1011 2
            [bank, a.row, groups]).witnessStored b p
        let ls := rowLines cells groups
        match a.src with
        | .stroke =>
          let l := match (s.bay b).seq.cur with | some r => stInLine r.word | none => 0
          s.rowPartDone b p (ls.zipIdx.map fun e => { client := 4, line := l + e.2, data := e.1 })
        | .message _ => s
        | .readback route => s.bayReply b route 0xFE1 (ls.map fun d => { data := d })
      | some _ => s
    | none => s)

/-! ### Registers with a row of their own (02 R70, R71) -/

/-- PNL_CNT_CLR (02 R70). -/
def execPnlCntClr (t : Nat) (b : BayIx) (p : PanelIx) (s : State) : Host.Outcome State Fault Refusal :=
  .next ((s.tick t).modPanel (pkey b p) fun x => { x with satCnt := 0, misCnt := 0, skipCnt := 0 })

/-- PNL_WIT_MISMATCH_CLEAR (02 R58): the capture's VALID bit clears and the capture is re-armed. -/
def execPnlWitMismatchClear (t : Nat) (b : BayIx) (p : PanelIx) (s : State) : Host.Outcome State Fault Refusal :=
  .next ((s.tick t).modPanel (pkey b p) fun x =>
    { x with witMismatch := false, cap := (x.cap.getD 0 0 % 2 ^ 31) :: x.cap.drop 1 })

/-- Clear bits of the saturation word WIN_SEL names; other words ignore the write (02 R71). -/
def Panel.clearWin (x : Panel) (v : Word) : Panel :=
  let n := x.winSel.toNat
  let lo := if n < 0x20 then 32 * n else 1024 + 32 * (n - 0x20)
  if n < 0x24 then { x with sats := x.sats &&& ~~~(BitVec.ofNat 1136 (v.toNat * 2 ^ lo)) } else x

/-- PNL_WIN_DATA_CLEAR (02 R71). -/
def execPnlWinDataClear (t : Nat) (b : BayIx) (p : PanelIx) (v : Word) (s : State) : Host.Outcome State Fault Refusal :=
  .next ((s.tick t).modPanel (pkey b p) fun x => x.clearWin v)

/-- PNL_LIVE_WRITE (02 R63): LIVE changes at the panel's next stroke boundary. -/
def execPnlLiveWrite (t : Nat) (b : BayIx) (p : PanelIx) (live : Bool) (s : State) : Host.Outcome State Fault Refusal :=
  let s := s.tick t
  .next (if (s.bay b).atBoundary then s.modPanel (pkey b p) fun x => { x with live := live }
    else s.modPanel (pkey b p) fun x => { x with stg := { x.stg with live := some live } })

end Sys2Proof.Machine
end

