-- ==== Sys2Proof/Machine/Transfers.lean ====
section
/-! DEFINITION. The transfer records of a stroke (05 R149; 04 R128; 06 R184, R190). -/

namespace Sys2Proof.Machine

/-- Record `k` of the stroke in flight, if it has kind `kind`, is open, and waits for no waking segment (04 R115). -/
def State.openXfer (s : State) (b k kind : Nat) : Option (Running × Xfer) :=
  match (s.bay b).seq.cur with
  | some r =>
    match r.xfers[k]? with
    | some x =>
      if xKind x.word = kind ∧ x.finished = false ∧ (s.bay b).waking (xferAccesses x.word) = false then some (r, x) else none
    | none => none
  | none => none

/-- Record `k` has moved `n` lines in all, with the writes `ws`; the stroke may complete. -/
def State.xferMoved (s : State) (b k n : Nat) (ws : List SpWrite) : State :=
  (s.modBay b fun y => y.modCur fun r =>
    { r with
      writes := r.writes ++ ws,
      xfers := r.xfers.zipIdx.map fun e =>
        if e.2 = k then { e.1 with moved := n, finished := decide (xLines e.1.word ≤ n) } else e.1 }).strokeCheck b

/-- Another send of the stroke on this VC is in the middle of its message. -/
def Running.vcBusy (r : Running) (k vc : Nat) : Bool :=
  r.xfers.zipIdx.any fun e =>
    e.2 != k && xKind e.1.word == 0 && xVc e.1.word == vc && decide (0 < e.1.moved) && !e.1.finished

/-- SEND (05 R149, 06 R184): the router takes as many lines as its local input has room for; the record completes with
the last. A closed local port takes and drops the lines (06 R194). -/
def execSend (t : Nat) (b : BayIx) (k : Nat) (s : State) : Host.Outcome State Fault Refusal :=
  let s := s.tick t
  .next (match s.openXfer b k 0 with
    | none => s
    | some (r, x) =>
      let vc := xVc x.word
      if r.vcBusy k vc then s
      else
        let n := xLines x.word
        let room := if s.localClosed b then n else 4 - ((s.rtr b).buf 4 vc).length
        let upto := min n (x.moved + room)
        let route := (s.bay b).seq.routes.getD (xRoute x.word) 0
        let s := (List.range (upto - x.moved)).foldl (fun s i =>
          let j := x.moved + i
          s.inject b { hdr := mkHdr route vc 0 (fld route 37 12) s.gen (j + 1 == n),
                       line := (r.raw (xLine x.word + j)).handOn }) s
        s.xferMoved b k upto [])

/-- Lines of stream and VC at the head of the ejection buffer, at most `n` (06 R190). -/
def headRun (q : List MLine) (stream n : Nat) : List MLine :=
  match n, q with
  | n + 1, m :: q => if hStream m.hdr = stream then m :: headRun q stream n else []
  | _, _ => []

/-- Push lines into a queue while it has room: the queue and how many went in (04 R128). -/
def Queue.pushAll (q : Queue) (src : PushFrom) (now pops : Nat) : List Line → Queue × Nat
  | [] => (q, 0)
  | x :: xs =>
    match q.push? x src now pops with
    | none => (q, 0)
    | some q' => let r := q'.pushAll src now pops xs; (r.1, r.2 + 1)

/-- RECV (06 R190, 05 R149): lines of the stream at the head of its VC's ejection buffer go to the scratchpad or, while
it has room, to the queue. -/
def execRecv (t : Nat) (b : BayIx) (k : Nat) (s : State) : Host.Outcome State Fault Refusal :=
  let s := s.tick t
  .next (match s.openXfer b k 1 with
    | none => s
    | some (_, x) =>
      let y := s.bay b
      let route := y.seq.routes.getD (xRoute x.word) 0
      let vc := fld route 57 2
      let q := mget [] y.eject vc
      let run := headRun q (fld route 37 12) (xLines x.word - x.moved)
      if xToQueue x.word then
        let p := (y.queue (xQueue x.word)).pushAll (.link (mget 4 (s.rtr b).localFrom vc)) s.now (s.popsNow b (xQueue x.word))
          (run.map (·.line))
        let y := { y.setQueue (xQueue x.word) p.1 with eject := mset [] y.eject vc (q.drop p.2) }
        (s.setBay b y).xferMoved b k (x.moved + p.2) []
      else
        let y := { y with eject := mset [] y.eject vc (q.drop run.length) }
        (s.setBay b y).xferMoved b k (x.moved + run.length)
          (run.zipIdx.map fun e =>
            { client := 6, line := xLine x.word + x.moved + e.2, data := e.1.line.data, flips := e.1.line.flips }))

/-- PUSH (04 R128): lines from the scratchpad as it stood, while the queue has room. -/
def execPush (t : Nat) (b : BayIx) (k : Nat) (s : State) : Host.Outcome State Fault Refusal :=
  let s := s.tick t
  .next (match s.openXfer b k 2 with
    | none => s
    | some (r, x) =>
      let y := s.bay b
      let ls := (List.range (xLines x.word - x.moved)).map fun i => (r.raw (xLine x.word + x.moved + i)).handOn
      let p := (y.queue (xQueue x.word)).pushAll .stroke s.now (s.popsNow b (xQueue x.word)) ls
      (s.setBay b (y.setQueue (xQueue x.word) p.1)).xferMoved b k (x.moved + p.2) [])

/-- POP (04 R128, R113): entries of the queue, in order, go to the scratchpad. `ups` are bits of the entries, by position
from the head, that have changed. -/
def execPop (t : Nat) (b : BayIx) (k : Nat) (ups : List Upset) (s : State) : Host.Outcome State Fault Refusal :=
  let s := s.tick t
  .next (match s.openXfer b k 3 with
    | none => s
    | some (_, x) =>
      let qi := xQueue x.word
      let y := s.bay b
      let q := y.queue qi
      let items := q.items.zipIdx.map fun e =>
        (ups.filter (·.line == e.2)).foldl (fun (l : Line) u => l.flip u.bit) e.1
      let n := min items.length (xLines x.word - x.moved)
      let free := s.freeVal
      let got := items.take n
      let slot := q.headSlot
      let s := s.setBay b (y.setQueue qi { q with items := items.drop n })
      let s := got.zipIdx.foldl (fun s e =>
        s.reportEcc b (e.1.errs free) fun _ => 0x100000 + 64 * qi + (slot + e.2) % 16) s
      s.xferMoved b k (x.moved + n)
        (got.zipIdx.map fun e =>
          { client := 5, line := xLine x.word + x.moved + e.2, data := e.1.value free }))

/-- COPY (05 R149). -/
def execCopy (t : Nat) (b : BayIx) (k : Nat) (s : State) : Host.Outcome State Fault Refusal :=
  let s := s.tick t
  .next (match s.openXfer b k 4 with
    | none => s
    | some (r, x) =>
      let n := xLines x.word
      s.xferMoved b k n ((List.range n).map fun i =>
        { client := 5, line := xDst x.word + i, data := r.rd s.freeVal (xLine x.word + i) }))

/-- FLAGSEND (06 R184): one handshake with a zero payload; it waits for room and for a message in progress. -/
def execFlagsend (t : Nat) (b : BayIx) (k : Nat) (s : State) : Host.Outcome State Fault Refusal :=
  let s := s.tick t
  .next (match s.openXfer b k 5 with
    | none => s
    | some (r, x) =>
      let vc := xVc x.word
      if r.vcBusy k vc || (!s.localClosed b && decide (4 ≤ ((s.rtr b).buf 4 vc).length)) then s
      else
        let route := (s.bay b).seq.routes.getD (xRoute x.word) 0
        (s.inject b { hdr := mkHdr route vc 1 (xDst x.word % 256) s.gen true }).xferMoved b k (xLines x.word) [])

end Sys2Proof.Machine
end

