-- ==== Sys2Proof/Machine/Bays.lean ====
section
/-! DEFINITION. The bay's stroke starts, drains, scratchpad accesses, segments, control messages and registers
(chapters 04 and 05). -/

namespace Sys2Proof.Machine

/-! ### Starting a stroke (05 R137) -/

/-- The first flag or queue a stroke names outside BAY_ALLOC: kind 0 flag, 1 queue (04 R127). -/
def Bay.outOfBounds (y : Bay) (w : BitVec 256) : Option (Nat × Nat) :=
  match (stWaits w ++ stSets w).find? fun f => !(decide (y.flagFirst ≤ f ∧ f ≤ y.flagLast)) with
  | some f => some (0, f)
  | none =>
    ((y.seq.strokeXfers w).find? fun r =>
      (xKind r == 2 || xKind r == 3 || (xKind r == 1 && xToQueue r)) &&
        !(decide (y.queueFirst ≤ xQueue r ∧ xQueue r ≤ y.queueLast))).map fun r => (1, xQueue r)

/-- A swap hold is set on the bay for the stroke's layer (05 R152, 09 R268). -/
def Bay.held (y : Bay) (w : BitVec 256) : Bool := stBarrier w && mget 0 y.holds (stLayer w) != 0

/-- The accumulators a drain captures (03 R89). -/
def State.capture (s : State) (b : Nat) (w : BitVec 256) : Option (List (Nat × List Int)) :=
  let l := stDrained w
  if l = [] then none
  else
    let first := 64 * sw w 5 16 4
    some (l.map fun p =>
      let acc := (s.panel (pkey b p)).acc
      (p, (List.range (stDrainCount w)).map fun i => if first + i < 1024 then mget 0 acc (first + i) else 0))

/-- A panel operation is issued (02 R62): one that meets a row access in progress on its bank is held by it, which is an intrusion
(05 R171). -/
def State.panelIssued (s : State) (k : Nat) (o : PanelOp) : State :=
  let x := s.panel k
  let held := o.compute &&
    match x.rowCur with | some (rb, _) => rb == x.resolve (bankSel (fld o.w2 2 2)) | none => false
  let s := s.setPanel k { x with op := some o, wrHeld := x.wrHeld || held }
  if held then s.intrude 2 else s

/-- The panel operations and row accesses a stroke issues (05 R143, R144). -/
def State.issuePanels (s : State) (b : Nat) (w : BitVec 256) (r : Running) : State :=
  let ps := stPanels w
  match stKind w with
  | 0 => s
  | 3 =>
    let bank := bankSel (sw w 2 2 2)
    let row := sw w 2 5 10
    if w.getLsbD 68 then
      match ps with
      | p :: _ => s.rowArrives (pkey b p) { bank := bank, row := row, data := none, src := .stroke }
      | [] => s
    else
      let l := stInLine w
      let d : BitVec 1024 := BitVec.ofNat 1024
        ((r.rd s.freeVal l).toNat + 2 ^ 512 * (r.rd s.freeVal (l + 1)).toNat)
      ps.foldl (fun s p => s.rowArrives (pkey b p) { bank := bank, row := row, data := some d, src := .stroke }) s
  | _ =>
    let te := (s.bay b).seq.tensor (sw w 3 0 10)
    let o : PanelOp := { w2 := w.extractLsb' 64 32, desc := teDesc te }
    ps.foldl (fun s p => s.panelIssued (pkey b p) o) s

/-- The open parts of a stroke (05 R137). -/
def startParts (q : Seq) (w : BitVec 256) (snap : SMap Line) (segs : BitVec 4) (drain : Option (List (Nat × List Int)))
    (watch : Bool) : Running :=
  let ps := stPanels w
  { word := w, snap := snap, segs := segs,
    panels := if stKind w = 1 ∨ stKind w = 2 then ps else [],
    rows := if stKind w = 3 then (if w.getLsbD 68 then ps.take 1 else ps) else [],
    drain := drain, unit := unitPresent q w,
    xfers := (q.strokeXfers w).map fun x => { word := x, finished := decide (6 ≤ xKind x) },
    sp := true, writes := [], watch := watch }

/-- The next stroke starts: it clears its wait flags, takes the scratchpad as it stands, captures its drain and issues its
parts (05 R137; 04 R108, R125, R126; 03 R89). -/
def State.startStroke (s : State) (b : Nat) (w : BitVec 256) (watch : Bool) : State :=
  let s := s.modBay b fun y =>
    { y with
      flags := (stWaits w).foldl (fun f i => f &&& ~~~(BitVec.ofNat 256 (2 ^ i))) y.flags ||| y.flagsKept, flagsKept := 0 }
  let y := s.bay b
  let r := startParts y.seq w y.sp y.segMask (s.capture b w) watch
  let s := s.setBay b { y with seq := { y.seq with cur := some { r with begun := s.now }, served := 0 } }
  s.issuePanels b w r

/-- The stroke that drains an audit run, looking on from stroke `i` (13 "Audit replay"): a run is armed by the watch on
that stroke (DEDUCED, log 30). -/
def auditEnd : List (BitVec 256) → Nat → Option Nat
  | [], _ => none
  | w :: l, i => if !stAudit w then none else if stDrained w = [] then auditEnd l (i + 1) else some i

/-- STROKE_START (05 R137, R143, R151, R152; 04 R127). `ups` are the scratchpad bits that have changed since the last
stroke. A stroke that cannot start yet leaves the bay as it is. -/
def execStrokeStart (t : Nat) (b : BayIx) (ups : List Upset) (s : State) : Host.Outcome State Fault Refusal :=
  let s := (s.tick t).modBay b fun y => y.upset ups
  let y := s.bay b
  .next (match y.seq.prog with
    | none => s
    | some prog =>
      if !y.seq.running || y.seq.halted || y.seq.cur.isSome || y.skipHold then s
      else match y.seq.strokes[y.seq.pc]? with
        | none => s.haltBay b 3 prog
        | some raw =>
          let armed (i : Nat) : Bool := y.watches.any fun x => x.stroke == i && x.gen == s.gen
          let watch := armed y.seq.pc
          let run := match auditEnd (y.seq.strokes.drop y.seq.pc) y.seq.pc with | some i => armed i | none => false
          let w := if stAudit raw && !run then disarm raw else raw
          match y.outOfBounds w with
          | some (k, i) => s.haltBay b k i
          | none =>
            if !(stWaits w).all y.flag then s
            else if y.held w then s.intrude 4
            else s.startStroke b w watch)

/-! ### Drains (05 R147, 03 R89–R94) -/

/-- Elements that saturate in the requantiser (03 R92, R103; 04 R136): the counter, REQ_SAT and snag 0x2060. Of several elements of one drain
or operation the lowest panel's lowest index counts as the first (DESIGN CHOICE, log 181). -/
def State.requantSat (s : State) (b : Nat) (te : BitVec 64) (off : Nat) (l : List (Nat × Bool)) : State :=
  match l with
  | [] => s
  | (i, h) :: _ =>
    let y := s.bay b
    s.stickyBay b y.reqSat
      (fun y => { y with reqSat := true, reqSatCnt := satAdd y.reqSatCnt l.length 0xFFFFFFFF }) 0x2060 0
      [(descId (teDesc te)).toNat, (fld te 32 32 + off + i) % 2 ^ 32, if h then 1 else 0, y.strokeCnt]

/-- The residue a check of the drain predicts (03 R90, R100): the I32 saturation's input, or a step of the requantiser. None where the drain
does not give that output. -/
def drainPredicted (q : Seq) (w : BitVec 256) (rd : Nat → BitVec 512) (vals : List (Nat × List Int)) (f : ResFault) :
    Option (BitVec 3) :=
  let te := q.tensor (sw w 3 10 10)
  let n := stDrainCount w
  let i := f.output - 64 * sw w 5 16 4
  match vals.zipIdx.find? fun e => e.1.1 == f.panel with
  | none => none
  | some ((_, acc), j) =>
    if f.output < 64 * sw w 5 16 4 then none
    else match acc[i]?, teFmt te with
      | none, _ => none
      | some x, .i32 => if f.stage = 4 then some (residue x) else none
      | some x, fm =>
        if f.stage = 5 then
          ((readScales rd (sw w 4 13 13 + n / 8 * j) n)[i]?).bind fun c =>
            c.predicted x fm.isInt ((q.roundCtx w).mode (teDesc te) (fld te 32 32 + n * j + i)) f.sub
        else none

/-- The values one drained panel hands the requantiser: the j-th panel's accumulators through its scale entries, or as
they are for I32 (03 R90, R92). -/
def drainValues (rd : Nat → BitVec 512) (f : Fmt) (scaleLine n j : Nat) (acc : List Int) : List Num :=
  if f = .i32 then acc.map .ofInt
  else List.zipWith (fun (c : Scale) x => c.apply x) (readScales rd (scaleLine + n / 8 * j) n) acc

/-- Narrow and lay out every drained panel (05 R147): the writes and, per panel, what saturated. -/
def drainAll (q : Seq) (w : BitVec 256) (rd : Nat → BitVec 512) (vals : List (Nat × List Int)) :
    List SpWrite × List (Nat × List (Nat × Bool)) :=
  let te := q.tensor (sw w 3 10 10)
  let f := teFmt te
  let n := stDrainCount w
  let parts := vals.zipIdx.map fun e =>
    let nw := narrow (q.roundCtx w) te (n * e.2) (drainValues rd f (sw w 4 13 13) n e.2 e.1.2)
    (nw.writes 1 f (sw w 4 0 13 + f.lines n * e.2) 0, (n * e.2, nw.sats))
  (parts.flatMap (·.1), parts.map (·.2))

/-- The bytes line writes store, in order. -/
def writtenBytes (l : List SpWrite) : List Byte :=
  l.flatMap fun x => (bitsOf x.mask 64).map fun i => x.data.extractLsb' (8 * i) 8

/-- The CRC-64 an armed drain sends (13 R362): its written bytes, in ascending element index. -/
def auditCrc (l : List SpWrite) : BitVec 64 := (writtenBytes l).foldl crc64Byte 0

/-- DRAIN_COMPLETE (03 R89, R100): the drain's outputs are converted and written; an armed stroke's drain sends its CRC
(13 R362). -/
def execDrainComplete (t : Nat) (b : BayIx) (rf : List ResFault) (s : State) : Host.Outcome State Fault Refusal :=
  let s := s.tick t
  let y := s.bay b
  .next (match y.seq.cur with
    | some r =>
      match r.drain with
      | some vals =>
        let te := y.seq.tensor (sw r.word 3 10 10)
        let rd := r.rd s.freeVal
        let d := drainAll y.seq r.word rd vals
        if y.waking (drainAccesses y.seq r.word) then s else
        let s := s.modBay b fun y => y.modCur fun r =>
          { r with drain := none, writes := r.writes ++ d.1, crc := if r.watch then some (auditCrc d.1) else none }
        let s := d.2.foldl (fun s e => s.requantSat b te e.1 e.2) s
        let s := rf.foldl (fun s f => s.edgeResidue b (drainPredicted y.seq r.word rd vals f) f) s
        s.strokeCheck b
      | none => s
    | none => s)

/-! ### Scratchpad accesses (04 R110, R113, R115, R116) -/

/-- The link a transfer record uses (04 R107; 06 R183): of a send, the port its route leaves the bay's router by; of a receive, the port the last
line of its channel came in by (DEDUCED, log 178). -/
def State.xferLink (s : State) (b : Nat) (r : BitVec 64) : Nat :=
  let route := (s.bay b).seq.routes.getD (xRoute r) 0
  if xKind r = 0 then (bitsOf (s.outPorts b (mkHdr route (xVc r) 0 0 s.gen true)) 5).headD 4
  else mget 4 (s.rtr b).localFrom (fld route 57 2)

/-- SCRATCHPAD_ACCESSES_COMPLETE (04 R110): conflicts are counted, and in the order the ports serve them (04 R107) errors read are reported and
accesses to segments not ON are recorded. An access to a waking segment waits (04 R115). An access beyond line 6,143, which no check lets
through, reads 0 or writes nothing and sets no SEG_ERR (DESIGN CHOICE, log 179). -/
def execScratchpadAccessesComplete (t : Nat) (b : BayIx) (s : State) : Host.Outcome State Fault Refusal :=
  let s := s.tick t
  let y := s.bay b
  .next (match y.seq.cur with
    | some r =>
      let acc := servedOrder y.seq r.word (s.xferLink b)
      if !r.sp || y.waking acc then s
      else
        let free := s.freeVal
        let s := s.modBay b fun y =>
          { y.modCur fun r => { r with sp := false } with
            conflicts := satAdd y.conflicts (conflictsOf acc) 0xFFFFFFFF }
        let s := acc.foldl (fun s a =>
          if a.line ≥ 6144 then s
          else if !r.segs.getLsbD (segOf a.line) then s.segError b (64 * a.line) a.client
          else if a.write then s
          else s.reportEcc b ((r.raw a.line).errs free) fun wd => 64 * a.line + 8 * wd) s
        s.strokeCheck b
    | none => s)

/-- SEGMENT_WAKE_DONE (04 R115): the segment becomes accessible; a segment that was OFF has been zeroed. -/
def execSegmentWakeDone (t : Nat) (b : BayIx) (seg : Fin 4) (s : State) : Host.Outcome State Fault Refusal :=
  .next ((s.tick t).modBay b fun y =>
    let x := mget ({} : Seg) y.segs seg
    if x.waking then { y with segs := mset {} y.segs seg { x with waking := false, zeroing := false } } else y)

/-- SEGMENT_SLEEP (04 R115): a segment enters RETAIN or OFF once the accesses granted to it have completed. -/
def execSegmentSleep (t : Nat) (b : BayIx) (seg : Fin 4) (s : State) : Host.Outcome State Fault Refusal :=
  .next ((s.tick t).modBay b fun y =>
    match (mget ({} : Seg) y.segs seg).goal with
    | some m => if y.seq.cur.isNone then y.enterSeg seg m else y
    | none => y)

/-! ### The fault detector (04 R132) -/

/-- FAULT_WINDOW_CLOSE (04 R132): after the window's 1 µs, one fault notice leaves the bay. -/
def execFaultWindowClose (t : Nat) (b : BayIx) (s : State) : Host.Outcome State Fault Refusal :=
  let s := s.tick t
  .next (match (s.bay b).det with
    | some g => if g.at_ + gatherNs ≤ s.now then s.closeWindow b else s
    | none => s)

/-! ### Management accesses (04 R111, 06 R428) -/

/-- Lines a boundary may serve (04 R111): MGMT_BUDGET, 0 acting as 1. A boundary that lasts, while the bay idles or waits on flags, gives each
MGMT_ACCESS_SERVE the whole budget anew (DESIGN CHOICE, log 182: the rule gives no period). -/
def Bay.budgetNow (y : Bay) : Nat :=
  let n := if y.budget = 0 then 1 else y.budget.toNat
  if y.startable then n - y.seq.served else n

/-- The 32-bit word at ADDR of a line. -/
def wordOf (d : BitVec 512) (addr : Nat) : Word := d.extractLsb' (8 * (addr % 64 / 4 * 4)) 32

/-- The byte address at which an access through the window is served (04 R136). -/
def Bay.spByte (y : Bay) : Nat := y.spAddr.toNat / 4 * 4

/-- An access through the window has been served: AUTO_INC adds 4 to ADDR (04 R136). -/
def State.spStep (s : State) (b : Nat) : State :=
  s.modBay b fun y => if y.autoInc then { y with spAddr := y.spAddr + 4 } else y

/-- The line a management access goes to. -/
def Bay.mgmtLine (y : Bay) : Mgmt → Option Nat
  | .write l _ => some l
  | .read l _ _ => some l
  | .spRead => some (y.spByte / 64)
  | .spWrite _ => some (y.spByte / 64)
  | _ => none

/-- The access waits: its segment is waking (04 R115). -/
def Bay.mgmtWaits (y : Bay) (m : Mgmt) : Bool :=
  match y.mgmtLine m with | some l => (mget ({} : Seg) y.segs (segOf l)).waking | none => false

/-- Serve one management access. -/
def State.serveMgmt (s : State) (b : Nat) (m : Mgmt) : State :=
  let guard (addr : Nat) (f : State → State) : State :=
    if (s.bay b).lineOn (addr / 64) then f s else s.segError b addr 7
  let a := (s.bay b).spByte
  match m with
  | .head => s
  | .rowData => s
  | .write l x => guard (64 * l) fun s => s.modBay b fun y => y.storeLine l x
  | .read l route last =>
    let x : Line := if (s.bay b).lineOn l then ((s.bay b).line l).handOn else {}
    let s := guard (64 * l) fun s => (s.readSp b l).2
    s.inject b { hdr := mkHdr route 3 0 0xF21 s.gen last, line := x }
  | .spRead =>
    (if a / 64 < 6144 then
      let r := s.readSp b (a / 64)
      (guard a fun _ => r.2).emit (.regRead 0x44 (wordOf r.1 a) (s.streamOf 0))
    else s.emit (.regRead 0x44 0 (s.streamOf 0))).spStep b
  | .spWrite v =>
    (if a / 64 < 6144 then
      guard a fun s =>
        let o := a % 64 / 4 * 4
        s.modBay b fun y => y.writeLine (a / 64) (BitVec.ofNat 512 (v.toNat * 2 ^ (8 * o)))
          (BitVec.ofNat 64 (15 * 2 ^ o)) 0 s.freeVal
    else s).spStep b
  | .rowWrite p a => s.rowArrives (pkey b p) a
  | .rowRead p a => s.rowArrives (pkey b p) a

/-- Serve up to `n` waiting accesses, in order. -/
def State.serveUpTo (s : State) (b : Nat) : Nat → State
  | 0 => s
  | n + 1 =>
    match (s.bay b).mgmt with
    | [] => s
    | m :: q =>
      if (s.bay b).mgmtWaits m then s
      else
        ((s.modBay b fun y =>
          { y with mgmt := q, seq := { y.seq with served := y.seq.served + 1 } }).serveMgmt b m).serveUpTo b n

/-- MGMT_ACCESS_SERVE (04 R111): at a stroke boundary; an intrusion where a stroke was about to start, which what is served now delays
(05 R140; DEDUCED, log 98). -/
def execMgmtAccessServe (t : Nat) (b : BayIx) (s : State) : Host.Outcome State Fault Refusal :=
  let s := s.tick t
  .next (if (s.bay b).atBoundary then
      let s := s.boundary b
      let s := if (s.bay b).mgmt != [] && (s.bay b).startable then s.intrude 3 else s
      s.serveUpTo b (s.bay b).budgetNow
    else s)

/-- Queue management accesses. -/
def State.queueMgmt (s : State) (b : Nat) (l : List Mgmt) : State :=
  s.modBay b fun y => { y with mgmt := y.mgmt ++ l }

/-- BAY_SP_DATA_ACCESS (04 R111, R136): the access waits for a stroke boundary and is made at the ADDR in force then. -/
def execBaySpDataAccess (t : Nat) (b : BayIx) (wr : Option Word) (s : State) : Host.Outcome State Fault Refusal :=
  .next ((s.tick t).queueMgmt b [match wr with | some v => .spWrite v | none => .spRead])

/-! ### Firmware messages (06 R428) -/

/-- The bytes of a head line. -/
def headBytes (m : MLine) (o n : Nat) : Nat := fld m.line.data (8 * o) (8 * n)

/-- A firmware message's head line is malformed: it is dropped with the rest, each line counted (06 R428, R185). -/
def State.dropMessage (s : State) (b : Nat) (ms : List MLine) : State :=
  ms.foldl (fun s m => s.dropHeader b (s.localInput b m.hdr) m.hdr) s

/-- SCRATCHPAD_WRITE (06 R428, stream 0xF20): one management access per line. -/
def State.writeMessage (s : State) (b : Nat) (ms : List MLine) : State :=
  match ms with
  | h :: q =>
    let l := headBytes h 0 2
    let n := headBytes h 2 2
    if headBytes h 4 60 ≠ 0 ∨ n = 0 ∨ 256 < n ∨ 6144 < l + n ∨ q.length ≠ n then s.dropMessage b ms
    else s.queueMgmt b (.head :: q.zipIdx.map fun e => .write (l + e.2) e.1.line)
  | [] => s

/-- SCRATCHPAD_READ (06 R428, stream 0xF21). -/
def State.readMessage (s : State) (b : Nat) (ms : List MLine) : State :=
  match ms with
  | [m] =>
    let l := headBytes m 0 2
    let n := headBytes m 2 2
    if headBytes m 4 4 ≠ 0 ∨ headBytes m 16 48 ≠ 0 ∨ n = 0 ∨ 256 < n ∨ 6144 < l + n then s.dropMessage b ms
    else s.queueMgmt b (.head :: (List.range n).map fun i => .read (l + i) (BitVec.ofNat 64 (headBytes m 8 8)) (i + 1 == n))
  | _ => s.dropMessage b ms

/-- WEIGHT_ROW (09 R265, stream 0xFE0): three lines; the row port writes the row when the last is served. -/
def State.weightMessage (s : State) (b : Nat) (ms : List MLine) : State :=
  match ms with
  | [h, l0, l1] =>
    let p := headBytes h 0 1
    let bank := headBytes h 1 1
    let row := headBytes h 2 2
    if headBytes h 4 60 ≠ 0 ∨ 32 ≤ p ∨ 2 ≤ bank ∨ 1024 ≤ row then s.dropMessage b ms
    else
      let d : BitVec 1024 := BitVec.ofNat 1024
        ((l0.line.value s.freeVal).toNat + 2 ^ 512 * (l1.line.value s.freeVal).toNat)
      s.queueMgmt b [.head, .rowData, .rowWrite p
        { bank := if bank = 0 then .a else .b, row := row, data := some d, src := .message (row == 1023) }]
  | _ => s.dropMessage b ms

/-- ROW_READBACK (06 R428, stream 0xFE1): the row is read through the row port at a stroke boundary. -/
def State.rowMessage (s : State) (b : Nat) (ms : List MLine) : State :=
  match ms with
  | [m] =>
    let p := headBytes m 0 1
    let bank := headBytes m 1 1
    let row := headBytes m 2 2
    if headBytes m 4 4 ≠ 0 ∨ headBytes m 16 48 ≠ 0 ∨ 32 ≤ p ∨ 2 ≤ bank ∨ 1024 ≤ row then s.dropMessage b ms
    else s.queueMgmt b [.rowRead p { bank := if bank = 0 then .a else .b, row := row, data := none,
                                     src := .readback (BitVec.ofNat 64 (headBytes m 8 8)) }]
  | _ => s.dropMessage b ms

/-- A firmware message is whole (06 R428). -/
def State.fwMessage (s : State) (b stream : Nat) (ms : List MLine) : State :=
  match stream with
  | 0xF20 => s.writeMessage b ms
  | 0xF21 => s.readMessage b ms
  | 0xFE0 => s.weightMessage b ms
  | _ => s.rowMessage b ms

/-- A firmware message on VC2 or VC3 of the given stream comes to the bay whole: the gate (06 R189 steps 1 and 2) drops each line; a bay held
in reset takes none (R190), and one whose lines wait behind another in the router is not due. -/
def State.messageComes (s : State) (b src stream : Nat) (ms : List MLine) : State :=
  match ms with
  | [] => s
  | m :: _ =>
    if s.heldInReset || !(ms.all fun x => hKind x.hdr == 0 && hStream x.hdr == stream && decide (2 ≤ hVc x.hdr)) then s
    else match s.takeLocal b m with
      | none => s
      | some u =>
        if u.localClosed b then ms.foldl (fun s x => s.dropClosed b x.hdr) u
        else if hGen m.hdr ≠ u.gen then ms.foldl (fun s x => s.dropStale b (hGen x.hdr) src) u
        else u.fwMessage b stream ms

/-- The lines collected on a VC end in the last line of a message: it is carried out (06 R428). -/
def State.collected (s : State) (b vc : Nat) : State :=
  let ms := mget [] (s.bay b).asm vc
  match ms, ms.getLast? with
  | h :: _, some m =>
    if !hLast m.hdr then s
    else
      let s := s.modBay b fun y => { y with asm := mset [] y.asm vc [] }
      if ms.all fun x => hStream x.hdr == hStream h.hdr then s.fwMessage b (hStream h.hdr) ms else s.dropMessage b ms
  | _, _ => s

/-- DATA_LINE_ACCEPT (06 R189, R190, R428): a line that joined a firmware message may be its last. -/
def execDataLineAccept (t src : Nat) (b : BayIx) (m : MLine) (s : State) : Host.Outcome State Fault Refusal :=
  let u := (s.tick t).localArrive b src m
  .next (if mget [] (u.bay b).asm (hVc m.hdr) = mget [] (s.bay b).asm (hVc m.hdr) then u else u.collected b (hVc m.hdr))

/-- SCRATCHPAD_WRITE_MESSAGE (06 R428). -/
def execScratchpadWriteMessage (t src : Nat) (b : BayIx) (ms : List MLine) (s : State) :
    Host.Outcome State Fault Refusal :=
  .next ((s.tick t).messageComes b src 0xF20 ms)

/-- SCRATCHPAD_READ_MESSAGE (06 R428). -/
def execScratchpadReadMessage (t src : Nat) (b : BayIx) (m : MLine) (s : State) : Host.Outcome State Fault Refusal :=
  .next ((s.tick t).messageComes b src 0xF21 [m])

/-- ROW_READBACK (06 R428). -/
def execRowReadback (t src : Nat) (b : BayIx) (m : MLine) (s : State) : Host.Outcome State Fault Refusal :=
  .next ((s.tick t).messageComes b src 0xFE1 [m])

/-- WEIGHT_ROW (09 R265). -/
def execWeightRow (t src : Nat) (b : BayIx) (ms : List MLine) (s : State) : Host.Outcome State Fault Refusal :=
  .next ((s.tick t).messageComes b src 0xFE0 ms)

/-! ### Control messages (05 R141, 06 R189) -/

/-- STEP_RELEASE (05 R141): starts the program, is held, or is discarded. -/
def execStepRelease (t src : Nat) (b : BayIx) (gen : BitVec 8) (prog : Fin 16) (slots : List SlotEnt) (s : State) :
    Host.Outcome State Fault Refusal :=
  let s := s.tick t
  .next (match s.ctlGate b src gen with
    | .error d => d
    | .ok s =>
      let q := (s.bay b).seq
      if !q.running || q.halted then s
      else match q.prog, q.held with
        | none, _ => s.beginProgram b prog slots
        | some _, none => s.modBay b fun y => { y with seq := { y.seq with held := some (prog, slots, gen) } }
        | some _, some (hp, _, _) => s.snagBay b 0x2071 2 [hp, prog, gen.toNat, (s.bay b).strokeCnt])

/-- SWAP_ARM (09 R268): fills swap-hold entries, each a layer and its panels. -/
def execSwapArm (t src : Nat) (b : BayIx) (gen : BitVec 8) (ents : List (Nat × BitVec 32)) (s : State) :
    Host.Outcome State Fault Refusal :=
  let s := s.tick t
  .next (match s.ctlGate b src gen with
    | .error d => d
    | .ok s => s.modBay b fun y => { y with holds := ents.foldl (fun m e => mset 0 m e.1 e.2) y.holds })

/-- SWAP_FLIP (09 R268): the entry's panels toggle LIVE at the next stroke boundary, and the entry clears. -/
def execSwapFlip (t src : Nat) (b : BayIx) (gen : BitVec 8) (layer : Nat) (s : State) :
    Host.Outcome State Fault Refusal :=
  let s := s.tick t
  .next (match s.ctlGate b src gen with
    | .error d => d
    | .ok s =>
      (s.modBay b fun y =>
        { y with flipsDue := y.flipsDue ^^^ mget 0 y.holds layer, holds := mset 0 y.holds layer 0 }).boundaryIf b)

/-- AUDIT_ARM (13 R361, R362): a watch on a stroke; a bay holds at most 16. -/
def execAuditArm (t src : Nat) (b : BayIx) (gen : BitVec 8) (stroke : Nat) (s : State) :
    Host.Outcome State Fault Refusal :=
  let s := s.tick t
  .next (match s.ctlGate b src gen with
    | .error d => d
    | .ok s => s.modBay b fun y =>
      if y.watches.length < 16 then { y with watches := y.watches ++ [{ stroke := stroke, gen := gen }] } else y)

/-! ### Registers with a row of their own (04 R136) -/

/-- BAY_CNT_CLR (04 R136). -/
def execBayCntClr (t : Nat) (b : BayIx) (s : State) : Host.Outcome State Fault Refusal :=
  .next ((s.tick t).modBay b fun y =>
    { y with conflicts := 0, reqSatCnt := 0, accOvfCnt := 0, inSatCnt := 0, flagOvrCnt := 0, staleCnt := 0,
             uncorr := 0, corr := 0 })

/-- A write of 1s to BAY_FLAGSn: firmware sets (04 R125). -/
def State.writeFlags (s : State) (b n : Nat) (v : Word) : State :=
  (bitsOf v 32).foldl (fun s i => s.setFlag b (32 * n + i) 2 0) s

/-- BAY_FLAGS_WRITE (04 R125, R136). -/
def execBayFlagsWrite (t : Nat) (b : BayIx) (n : Fin 8) (v : Word) (s : State) : Host.Outcome State Fault Refusal :=
  .next ((s.tick t).writeFlags b n v)

/-- A K field's write was locked out while the bay runs (05 R174, 04 R135). -/
def State.lockBay (s : State) (b off : Nat) (v : Word) : State :=
  let y := s.bay b
  s.stickyBay b y.cfgLocked (fun y => { y with cfgLocked := true }) 0x2001 1 [off, v.toNat]

/-- The modes BAY_SEG_CTRL reads. -/
def Bay.segCtrl (y : Bay) : Nat :=
  (List.range 4).foldr (fun i acc => (mget ({} : Seg) y.segs i).mode.bits + 4 * acc) 0

/-- A write of BAY_SEG_CTRL (04 R114, R136; 05 R174): field by field, locked while the bay runs. A segment that still waits to
sleep and is written ON stays ON. -/
def State.writeSegCtrl (s : State) (b : Nat) (v : Word) : State :=
  let y := s.bay b
  let changed := (List.range 4).filter fun g =>
    segModeOf (fld v (2 * g) 2) ≠ (mget ({} : Seg) y.segs g).mode || (mget ({} : Seg) y.segs g).goal.isSome
  if y.seq.running then
    (if (List.range 4).all fun g => segModeOf (fld v (2 * g) 2) == (mget ({} : Seg) y.segs g).mode then s else s.lockBay b 0x00C v)
  else s.modBay b fun y => changed.foldl (fun y g => y.askSeg g (segModeOf (fld v (2 * g) 2))) y

/-- BAY_SEG_CTRL_WRITE (04 R114). -/
def execBaySegCtrlWrite (t : Nat) (b : BayIx) (v : Word) (s : State) : Host.Outcome State Fault Refusal :=
  .next ((s.tick t).writeSegCtrl b v)

/-- BAY_ALLOC_INVALIDATE (04 R133, R136): VALID is locked while the bay runs. -/
def execBayAllocInvalidate (t : Nat) (b : BayIx) (s : State) : Host.Outcome State Fault Refusal :=
  let s := s.tick t
  let y := s.bay b
  .next (if y.seq.running then
      (if y.allocValid then s.lockBay b 0x010 (BitVec.ofNat 32 (y.flagFirst + 2 ^ 8 * y.flagLast +
        2 ^ 16 * y.queueFirst + 2 ^ 24 * y.queueLast)) else s)
    else s.modBay b Bay.invalidate)

/-- BAY_STROKE_CNT_READ (04 R134): COUNT_HI is latched. -/
def execBayStrokeCntRead (t : Nat) (b : BayIx) (s : State) : Host.Outcome State Fault Refusal :=
  let s := (s.tick t).modBay b fun y => { y with cntHi := BitVec.ofNat 32 (y.strokeCnt / 2 ^ 32) }
  .next (s.emit (.regRead 0x20 (BitVec.ofNat 32 (s.bay b).strokeCnt) (s.streamOf 0)))

end Sys2Proof.Machine
end

