-- ==== Sys2Proof/Machine/Elementary.lean ====
section
/-! DEFINITION. The vector unit's EXP, RECIP, RSQRT, GELU and SILU (04 R120): the exact function to more than 150 bits, and a result within the
stated bound of it, chosen by the toolchain's model, which the manual does not hold. -/

namespace Sys2Proof.Machine

/-- Fixed point: the value 1. -/
def fixOne : Int := 2 ^ 400

/-- A finite value in fixed point. -/
def toFix (x : Num) : Int :=
  match x with
  | .fin n m e => if 0 ≤ e + 400 then signed n m * 2 ^ (e + 400).toNat else signed n m / 2 ^ (-(e + 400)).toNat
  | _ => 0

/-- e^x in fixed point, for |x| up to about 128: the power series at x/256, squared eight times. -/
def expFix (x : Int) : Int :=
  let y := x / 256
  let s := (List.range 60).foldl (fun (a : Int × Int) k =>
    let term := a.2 * y / ((k + 1 : Int) * fixOne)
    (a.1 + term, term)) (fixOne, fixOne)
  (List.range 8).foldl (fun z _ => z * z / fixOne) s.1

/-- The integer square root, bit by bit. -/
def isqrt (n : Nat) : Nat :=
  ((List.range (Nat.log2 n / 2 + 1)).reverse).foldl (fun r i => if (r + 2 ^ i) * (r + 2 ^ i) ≤ n then r + 2 ^ i else r) 0

/-- x / (1 + e^(−v)), with x and v in fixed point. -/
def logistic (x v : Int) : Int :=
  if v > 120 * fixOne then x
  else if v < -(120 * fixOne) then 0
  else x * fixOne / (fixOne + expFix (-v))

/-- 2√(2/π) in fixed point (the tanh form of GELU; PRESUMED, log 184). -/
def geluScale : Int := 0x19884533D436508D0FCB3C500BAB8E2FF4E0A7CC1449C1B63011C6D20098E74BA77E2B15511F4F6DC8FD74EAECDD3A237AC50

/-- The argument v of GELU's tanh form, x·(1 + tanh u)/2 = x/(1 + e^(−2u)): v = 2u = 2√(2/π)·(x + 0.044715·x³) (PRESUMED, log 184). -/
def geluArg (x : Int) : Int :=
  if x > 1024 * fixOne then 1024 * fixOne
  else if x < -(1024 * fixOne) then -(1024 * fixOne)
  else geluScale * (x + 44715 * (x * x / fixOne * x / fixOne) / 1000000) / fixOne

/-- The functions of 04 R120. -/
inductive Elem where
  | exp | recip | rsqrt | gelu | silu
  deriving DecidableEq, Repr

/-- The operation code of a function (04 R118). -/
def Elem.code : Elem → Nat
  | .exp => 0xA
  | .recip => 0xB
  | .rsqrt => 0xC
  | .gelu => 0xD
  | .silu => 0xE

/-- The bound on the result, in units in the last place of binary32 (04 R120). -/
def Elem.ulps : Elem → Nat
  | .gelu | .silu => 4
  | _ => 2

/-- The exact function of a finite value, to more than 150 bits. -/
def Elem.exact (f : Elem) (x : Num) : Num :=
  match f, x with
  | .exp, _ => .scaled (expFix (toFix x)) (-400)
  | .recip, .fin n m e =>
    let p := Nat.log2 m + 200
    .fin n (2 ^ p / m) (-(p : Int) - e)
  | .rsqrt, .fin _ m e =>
    let odd := e % 2 = 1
    let m' := if odd then 2 * m else m
    let e' := if odd then e - 1 else e
    let p := Nat.log2 m' + 200
    .fin false (isqrt (2 ^ (2 * p) / m')) (-(p : Int) - e' / 2)
  | .gelu, _ => .scaled (logistic (toFix x) (geluArg (toFix x))) (-400)
  | .silu, _ => .scaled (logistic (toFix x) (toFix x)) (-400)
  | _, _ => x

/-- The binary32 values k·2^g within `u` units in the last place of an exact value (04 R120), as multiples of its unit 2^g. -/
def nearby (u : Nat) (neg : Bool) (m : Nat) (e : Int) : Int × List Int :=
  let g := if m = 0 then -149 else fmt32.grid m e
  let lo := min g e
  let x := signed neg m * 2 ^ (e - lo).toNat
  let unit : Int := 2 ^ (g - lo).toNat
  (g, ((List.range (2 * u + 3)).map fun i => x / unit + (i : Int) - (u + 1 : Int)).filter fun k =>
    decide (k * unit - x ≤ u * unit ∧ x - k * unit ≤ u * unit ∧ (k.natAbs ≤ 2 ^ 24 ∨ k % 2 = 0)))

/-- The odd part and the exponent of a finite value: one name for each value. -/
def Num.key : Num → Int × Int
  | .fin n m e => let g := Nat.gcd m (2 ^ 300); (signed n (m / g), e + Nat.log2 g)
  | _ => (0, 0)

/-- The result of a function (04 R120) outside its special inputs: the toolchain's choice among the values within the bound, and for an input
whose result the manual does not state, an open value (DESIGN CHOICE, log 165). -/
def Elem.apply (f : Elem) (x : Num) : Num :=
  let openAt := fmt32.decode (Config.elemOpen f.code (BitVec.ofNat 32 (fmt32.encode x .rne))).toNat
  match x, f with
  | .fin _ 0 _, .rsqrt => openAt
  | .fin _ _ _, _ =>
    match f.exact x with
    | .fin n m e =>
      let c := nearby f.ulps n m e
      let k := c.2.getD (Config.elemPick f.code x.key.1 x.key.2 % c.2.length) 0
      .fin (if k = 0 then n else k < 0) k.natAbs c.1
    | _ => openAt
  | _, _ => openAt

/-- x > n/d, for a finite or infinite x. -/
def gtRat (x : Num) (n d : Int) : Bool :=
  match x with
  | .nan => false
  | .inf neg => !neg
  | .fin neg m e =>
    if 0 ≤ e then decide (signed neg m * 2 ^ e.toNat * d > n) else decide (signed neg m * d > n * 2 ^ (-e).toNat)

/-- x < n/d. -/
def ltRat (x : Num) (n d : Int) : Bool :=
  match x with
  | .nan => false
  | .inf neg => neg
  | .fin neg m e =>
    if 0 ≤ e then decide (signed neg m * 2 ^ e.toNat * d < n) else decide (signed neg m * d < n * 2 ^ (-e).toNat)

/-- EXP (04 R120), with the special inputs the manual states. -/
def expNum (x : Num) : Num :=
  if x = .nan then .nan
  else if gtRat x 8872 100 then .inf false
  else if ltRat x (-10397) 100 then .fin false 0 0
  else Elem.exp.apply x

/-- RECIP (04 R120). -/
def recipNum (x : Num) : Num :=
  match x with
  | .nan => .nan
  | .fin neg 0 _ => .inf neg
  | _ => Elem.recip.apply x

/-- RSQRT (04 R120). -/
def rsqrtNum (x : Num) : Num :=
  match x with
  | .nan => .nan
  | .inf true => .nan
  | .fin true (_ + 1) _ => .nan
  | _ => Elem.rsqrt.apply x

/-- GELU (04 R120). -/
def geluNum (x : Num) : Num := if x = .nan then .nan else Elem.gelu.apply x

/-- SILU (04 R120). -/
def siluNum (x : Num) : Num := if x = .nan then .nan else Elem.silu.apply x

end Sys2Proof.Machine
end

