-- ==== Sys2Proof/Machine/Vector.lean ====
section
/-! DEFINITION. The vector unit and the dynamic matrix unit (04 R117–R124). -/

namespace Sys2Proof.Machine

/-! ### Operands (04 R117, R118, R121; 05 R148) -/

/-- The value of a scalar register. -/
def Scalar.num (c : Scalar) : Num := if c.float then fmt32.decode c.bits.toNat else .ofInt c.bits.toInt

/-- An operation's operands and its kind. -/
structure VecArgs where
  int : Bool
  a : List Num
  b : List Num
  deriving DecidableEq, Repr

/-- Operand widening for a float operation: an I32 beyond 2^24 rounds under RNE, all else, a BX element of any exponent among it, is exact
(04 R117). -/
def widen (int : Bool) (f : Fmt) (x : Num) : Num := if int || f.isBx then x else x.to32 .rne

/-- The operation is an integer one: every operand it takes is an integer (04 R117; DEDUCED, log 20). -/
def vecInt (y : Bay) (o : BitVec 128) : Bool :=
  let c := opCode o
  let floatOnly := c = 4 ∨ (0xA ≤ c ∧ c ≤ 0xE) ∨ c = 0x12
  !floatOnly && (teFmt (y.seq.tensor (fld o 90 10))).isInt &&
    (!codeBinary c || (match opBKind o with
      | 0 => (teFmt (y.seq.tensor (fld o 100 10))).isInt
      | 1 => !(mget ({} : Scalar) y.sc (fld o 16 3)).float
      | _ => true))

/-- The operands of the operation in flight. -/
def vecArgs (y : Bay) (r : Running) (free : Nat) (o : BitVec 128) : VecArgs :=
  let v := opLen o
  let int := vecInt y o
  let rd := r.rd free
  let fa := teFmt (y.seq.tensor (fld o 90 10))
  let fb := teFmt (y.seq.tensor (fld o 100 10))
  let b := match opBKind o with
    | 0 => (readTensor rd fb (fld o 45 13) v).map (widen int fb)
    | 1 => List.replicate v (widen int .i32 (mget ({} : Scalar) y.sc (fld o 16 3)).num)
    | _ => List.replicate v (.fin false 0 0)
  { int := int, a := (readTensor rd fa (fld o 32 13) v).map (widen int fa), b := b }

/-! ### Lanes (04 R118, R120) -/

/-- A float lane's result: rounded to binary32 under RNE, unless the destination is binary32 and rounds it itself
(04 R117; DEDUCED, log 21). -/
def lane (f32dst : Bool) (x : Num) : Num := if f32dst then x else x.to32 .rne

/-- The larger of two values. Where the manual states no result (a NaN operand, zeros of unlike sign) the result is
open (DESIGN CHOICE, log 22). -/
def maxNum (x y : Num) : Num :=
  if x = .nan ∨ y = .nan ∨ (x.isZero && y.isZero && x.sign != y.sign) then
    fmt32.decode (Config.cmpOpen true (BitVec.ofNat 32 (fmt32.encode x .rne)) (BitVec.ofNat 32 (fmt32.encode y .rne))).toNat
  else if x.lt y then y else x

/-- The smaller of two values, open as `maxNum`. -/
def minNum (x y : Num) : Num :=
  if x = .nan ∨ y = .nan ∨ (x.isZero && y.isZero && x.sign != y.sign) then
    fmt32.decode (Config.cmpOpen false (BitVec.ofNat 32 (fmt32.encode x .rne)) (BitVec.ofNat 32 (fmt32.encode y .rne))).toNat
  else if y.lt x then y else x

/-- Larger or smaller of integers, or of floats. -/
def maxLane (int : Bool) (x y : Num) : Num := if int then (if x.lt y then y else x) else maxNum x y
def minLane (int : Bool) (x y : Num) : Num := if int then (if y.lt x then y else x) else minNum x y

/-- The binary32 encoding of a lane value. -/
def bits32 (x : Num) : BitVec 32 := BitVec.ofNat 32 (fmt32.encode x .rne)

/-! ### Reductions (04 R119) -/

/-- Lane `i`'s elements: i, i + 64, … . -/
def laneElems (xs : List Num) (i : Nat) : List Num :=
  (List.range (xs.length / 64)).map fun j => xs.getD (64 * j + i) .nan

/-- Combine 64 lane values in six levels: lane i takes lane i + 32, then i + 16, … (04 R119). -/
def treeReduce (f : Num → Num → Num) (xs : List Num) : Num :=
  let level (l : List Num) (h : Nat) : List Num := List.zipWith f (l.take h) (l.drop h)
  (level (level (level (level (level (level xs 32) 16) 8) 4) 2) 1).headD .nan

/-- Reduce in the fixed order of R119. -/
def reduceLanes (f : Num → Num → Num) (xs : List Num) : Num :=
  treeReduce f ((List.range 64).map fun i =>
    match laneElems xs i with
    | [] => .nan
    | x :: l => l.foldl f x)

/-- A float addition under RNE. -/
def add32 (x y : Num) : Num := (x.add y).to32 .rne

/-- RSUM, RMAX, RSUMSQ of the operand values: the value, exact for an integer operation (04 R119). -/
def reduceNum (code : Nat) (int : Bool) (xs : List Num) : Num :=
  if code = 0x11 then
    if int then xs.foldl (maxLane true) (xs.headD (.fin false 0 0)) else reduceLanes maxNum xs
  else if code = 0x12 then reduceLanes add32 (xs.map fun x => (x.mul x).to32 .rne)
  else if int then xs.foldl Num.add (.fin false 0 0)
  else reduceLanes add32 xs

/-! ### Completion -/

/-- A check of the vector unit (03 R100, R102, R103): the first mismatch of a residue found with the one predicted is logged with its lane; every
one is signalled, and results pass on unchanged. -/
def State.vecResidue (s : State) (b code : Nat) (predicted : ResAt → Option (BitVec 3)) (rf : List ResAt) : State :=
  rf.foldl (fun s r =>
    match predicted r with
    | none => s
    | some p =>
      if resMismatch p r.code then
        let y := s.bay b
        (s.stickyBay b y.resErr (fun y => { y with resErr := true }) 0x2050 2
          [r.elem % 64, code, 0, y.strokeCnt]).signalFault b 1 none
      else s) s

/-- The unit's part of the stroke has completed, with its writes. -/
def State.unitPartDone (s : State) (b : Nat) (ws : List SpWrite) : State :=
  (s.modBay b fun y => y.modCur fun r => { r with unit := false, writes := r.writes ++ ws }).strokeCheck b

/-- The vector or matrix operation of the stroke in flight, if its code is `code`, it is open, and its operands and result wait for no waking
segment (04 R115). -/
def State.openUnit (s : State) (b unit code : Nat) : Option (Running × BitVec 128) :=
  match (s.bay b).seq.cur with
  | some r =>
    let y := s.bay b
    let o := y.seq.opRec r.word
    if r.unit ∧ stUnit r.word = unit ∧ opCode o = code ∧ y.waking (unitAccesses y.seq r.word) = false then some (r, o) else none
  | none => none

/-- A lane operation completes (04 R117, R118): `f` gives each lane's exact result. Narrowing counts saturations, and the residues `rf` are held
against `pr`'s. -/
def State.laneOp (s : State) (b code : Nat) (rf : List ResAt) (pr : VecArgs → ResAt → Option (BitVec 3))
    (f : VecArgs → List Num) : State :=
  match s.openUnit b 1 code with
  | none => s
  | some (r, o) =>
    let y := s.bay b
    let te := y.seq.tensor (fld o 110 10)
    let args := vecArgs y r s.freeVal o
    let f32 := teFmt te == .f32
    let vals := if args.int then (f args).map Num.plusZero else (f args).map (lane f32)
    let n := narrow (y.seq.roundCtx r.word) te 0 vals
    let s := s.requantSat b te 0 n.sats
    let s := s.vecResidue b code (pr args) rf
    s.unitPartDone b (n.writes 2 (teFmt te) (fld o 77 13) 0)

/-- A lane operation that the residue code does not cover (03 R100, R101). -/
def State.plainOp (s : State) (b code : Nat) (f : VecArgs → List Num) : State := s.laneOp b code [] (fun _ _ => none) f

/-- The lane sum or tree value a reduction has reached (04 R119): step 0 adds element `elem` to the sum of its lane so far; step k = 1–6 is the
tree's level that adds lane elem + 2^(6 − k); step 7 is the square of an element of RSUMSQ; step 8 the saturation of an integer
RSUM, whose input is the whole sum (03 R100). -/
def reducePredicted (code : Nat) (int : Bool) (xs : List Num) (r : ResAt) : Option (BitVec 3) :=
  let add := if int then Num.add else add32
  let sq := if code = 0x12 then xs.map fun x => (x.mul x).to32 .rne else xs
  let lanes := (List.range 64).map fun i => match laneElems sq i with | [] => .nan | x :: l => l.foldl add x
  let sum (x y : Num) : Option (BitVec 3) := if int then do some (resAdd (residue (← x.sig?)) (residue (← y.sig?))) else resAligned x y
  if r.step = 0 then
    if r.elem < 64 then none
    else
      match (laneElems sq (r.elem % 64)).take (r.elem / 64), sq[r.elem]? with
      | x :: l, some y => sum (l.foldl add x) y
      | _, _ => none
  else if r.step ≤ 6 then
    let h := 2 ^ (6 - r.step)
    let before := (List.range (r.step - 1)).foldl (fun (l : List Num) k =>
      List.zipWith add (l.take (2 ^ (5 - k))) (l.drop (2 ^ (5 - k)))) lanes
    match (if r.elem < h then before[r.elem]? else none), before[r.elem + h]? with
    | some x, some y => sum x y
    | _, _ => none
  else if r.step = 7 then
    if code = 0x12 then xs[r.elem]?.bind fun x => resProd x x else none
  else if int then ((sq.foldl Num.add (.fin false 0 0)).sig?).map residue
  else none

/-- A reduction completes into its scalar register and, with DST_TENSOR, element 0 of the destination (04 R119, R121).
Bits of the byte beside a narrow element are open (DESIGN CHOICE, log 23). An integer RSUM that saturates with no DST_TENSOR logs snag 0x2060 with
TENSOR_ID 0 and element index 0 (DESIGN CHOICE, log 185: there is no tensor). -/
def State.reduceOp (s : State) (b code : Nat) (rf : List ResAt) : State :=
  match s.openUnit b 1 code with
  | none => s
  | some (r, o) =>
    let y := s.bay b
    let te := y.seq.tensor (fld o 110 10)
    let args := vecArgs y r s.freeVal o
    let x := reduceNum code args.int args.a
    let sat := match x with
      | .fin n m _ => if args.int then (saturate (signed n m) (-(2 ^ 31)) (2 ^ 31 - 1)).2 else none
      | _ => none
    let sc : Scalar :=
      if args.int then
        let v := match x with | .fin n m _ => (saturate (signed n m) (-(2 ^ 31)) (2 ^ 31 - 1)).1 | _ => 0
        { float := false, bits := BitVec.ofInt 32 v }
      else { float := true, bits := bits32 x }
    let s := match sat with
      | some h => s.requantSat b (if o.getLsbD 22 then te else 0) 0 [(0, h)]
      | none => s
    let s := s.modBay b fun y => { y with sc := mset {} y.sc (fld o 19 3) sc }
    let s := s.vecResidue b code (reducePredicted code args.int args.a) rf
    if o.getLsbD 22 then
      let n := narrow (y.seq.roundCtx r.word) te 0 [sc.num]
      let s := s.requantSat b te 0 n.sats
      s.drawn.unitPartDone b (n.writes 2 (teFmt te) (fld o 77 13)
        (match teFmt te with | .int k _ => if (Fmt.int k false).bits < 8 then s.freeVal else 0 | .bx false => s.freeVal | _ => 0))
    else s.unitPartDone b []

def zip2 (f : Num → Num → Num) (v : VecArgs) : List Num := List.zipWith f v.a v.b

/-- The lane values of element `elem`. -/
def VecArgs.pair (v : VecArgs) (r : ResAt) : Option (Num × Num) := do some (← v.a[r.elem]?, ← v.b[r.elem]?)

/-- The predicted residue of an addition: of integers, or of aligned significands (03 R100). -/
def addPredicted (int : Bool) (x y : Num) : Option (BitVec 3) :=
  if int then do some (resAdd (residue (← x.sig?)) (residue (← y.sig?))) else resAligned x y

/-- ADD (04 R118). -/
def execAdd (t : Nat) (b : BayIx) (rf : List ResAt) (s : State) : Host.Outcome State Fault Refusal :=
  .next ((s.tick t).laneOp b 1 rf (fun v r => (v.pair r).bind fun e => addPredicted v.int e.1 e.2) (zip2 Num.add))

/-- SUB (04 R118). -/
def execSub (t : Nat) (b : BayIx) (rf : List ResAt) (s : State) : Host.Outcome State Fault Refusal :=
  .next ((s.tick t).laneOp b 2 rf (fun v r => (v.pair r).bind fun e => addPredicted v.int e.1 e.2.neg)
    (zip2 fun x y => x.add y.neg))

/-- MUL (04 R118). -/
def execMul (t : Nat) (b : BayIx) (rf : List ResAt) (s : State) : Host.Outcome State Fault Refusal :=
  .next ((s.tick t).laneOp b 3 rf (fun v r => (v.pair r).bind fun e => resProd e.1 e.2) (zip2 Num.mul))

/-- FMA (04 R118): one rounding; c is read in the destination's format (05 R148). Its checks are of the product (step 0) and of the sum with c. -/
def execFma (t : Nat) (b : BayIx) (rf : List ResAt) (s : State) : Host.Outcome State Fault Refusal :=
  let s := s.tick t
  let cs : List Num := match s.openUnit b 1 4 with
    | some (r, o) =>
      let fd := teFmt ((s.bay b).seq.tensor (fld o 110 10))
      (readTensor (r.rd s.freeVal) fd (fld o 64 13) (opLen o)).map (widen false fd)
    | none => []
  .next (s.laneOp b 4 rf
    (fun v r => (v.pair r).bind fun e => if r.step = 0 then resProd e.1 e.2 else cs[r.elem]?.bind fun z => resAligned (e.1.mul e.2) z)
    (fun v => List.zipWith Num.add (zip2 Num.mul v) cs))

/-- MAX (04 R118). -/
def execMax (t : Nat) (b : BayIx) (s : State) : Host.Outcome State Fault Refusal :=
  .next ((s.tick t).plainOp b 5 fun v => zip2 (maxLane v.int) v)

/-- MIN (04 R118). -/
def execMin (t : Nat) (b : BayIx) (s : State) : Host.Outcome State Fault Refusal :=
  .next ((s.tick t).plainOp b 6 fun v => zip2 (minLane v.int) v)

/-- REQUANT (04 R118, 03 R92): the exact requantised value is narrowed to the destination. -/
def execRequant (t : Nat) (b : BayIx) (rf : List ResAt) (s : State) : Host.Outcome State Fault Refusal :=
  let s := s.tick t
  let free := s.freeVal
  .next (match s.openUnit b 1 7 with
    | none => s
    | some (r, o) =>
      let y := s.bay b
      let te := y.seq.tensor (fld o 110 10)
      let xs := readInts (r.rd free) (teFmt (y.seq.tensor (fld o 90 10))) (fld o 32 13) (opLen o)
      let sc := readScales (r.rd free) (fld o 64 13) (opLen o)
      let c := y.seq.roundCtx r.word
      let n := narrow c te 0 (List.zipWith (fun (k : Scale) x => k.apply x) sc xs)
      let s := s.requantSat b te 0 n.sats
      let s := s.vecResidue b 7 (fun r => sc[r.elem]?.bind fun k => xs[r.elem]?.bind fun x =>
        k.predicted x (teFmt te).isInt (c.mode (teDesc te) (fld te 32 32 + r.elem)) r.step) rf
      s.unitPartDone b (n.writes 2 (teFmt te) (fld o 77 13) 0))

/-- CVT (04 R118). -/
def execCvt (t : Nat) (b : BayIx) (s : State) : Host.Outcome State Fault Refusal :=
  .next ((s.tick t).plainOp b 8 fun v => v.a)

/-- RELU (04 R118): max(a, 0). -/
def execRelu (t : Nat) (b : BayIx) (s : State) : Host.Outcome State Fault Refusal :=
  .next ((s.tick t).plainOp b 9 fun v => v.a.map fun x => maxLane v.int x (.fin false 0 0))

/-- EXP (04 R120). -/
def execExp (t : Nat) (b : BayIx) (s : State) : Host.Outcome State Fault Refusal :=
  .next ((s.tick t).plainOp b 0xA fun v => v.a.map expNum)

/-- RECIP (04 R120). -/
def execRecip (t : Nat) (b : BayIx) (s : State) : Host.Outcome State Fault Refusal :=
  .next ((s.tick t).plainOp b 0xB fun v => v.a.map recipNum)

/-- RSQRT (04 R120). -/
def execRsqrt (t : Nat) (b : BayIx) (s : State) : Host.Outcome State Fault Refusal :=
  .next ((s.tick t).plainOp b 0xC fun v => v.a.map rsqrtNum)

/-- GELU (04 R120). -/
def execGelu (t : Nat) (b : BayIx) (s : State) : Host.Outcome State Fault Refusal :=
  .next ((s.tick t).plainOp b 0xD fun v => v.a.map geluNum)

/-- SILU (04 R120). -/
def execSilu (t : Nat) (b : BayIx) (s : State) : Host.Outcome State Fault Refusal :=
  .next ((s.tick t).plainOp b 0xE fun v => v.a.map siluNum)

/-- RSUM (04 R119). -/
def execRsum (t : Nat) (b : BayIx) (rf : List ResAt) (s : State) : Host.Outcome State Fault Refusal :=
  .next ((s.tick t).reduceOp b 0x10 rf)

/-- RMAX (04 R119). -/
def execRmax (t : Nat) (b : BayIx) (s : State) : Host.Outcome State Fault Refusal :=
  .next ((s.tick t).reduceOp b 0x11 [])

/-- RSUMSQ (04 R119). -/
def execRsumsq (t : Nat) (b : BayIx) (rf : List ResAt) (s : State) : Host.Outcome State Fault Refusal :=
  .next ((s.tick t).reduceOp b 0x12 rf)

/-! ### The matrix unit (04 R122–R124) -/

/-- A check of the matrix unit (04 R124, 03 R102): `op` 0 MM_MUL, 1 MM_DRAIN; the element of C is row·64 + column. -/
def State.mmResidue (s : State) (b op : Nat) (predicted : ResAt → Option (BitVec 3)) (rf : List ResAt) : State :=
  rf.foldl (fun s r =>
    match predicted r with
    | none => s
    | some p =>
      if resMismatch p r.code then
        let y := s.bay b
        (s.stickyBay b y.resErr (fun y => { y with resErr := true }) 0x2052 2
          [r.elem / 64, r.elem % 64, op, y.strokeCnt]).signalFault b 1 none
      else s) s

/-- MM_LOADB (04 R122): B is loaded row by row, or transposed. -/
def execMmLoadb (t : Nat) (b : BayIx) (s : State) : Host.Outcome State Fault Refusal :=
  let s := s.tick t
  .next (match s.openUnit b 2 0x40 with
    | none => s
    | some (r, o) =>
      let f := teFmt ((s.bay b).seq.tensor (fld o 90 10))
      let x := gather (r.rd s.freeVal) (fld o 32 13) (f.elemLines 4096)
      let raw := (List.range 4096).map fun i =>
        slotOf x f.bits (if o.getLsbD 23 then 64 * (i % 64) + i / 64 else i)
      let s := s.modBay b fun y =>
        { y with mmB := raw, mmFloat := f == .f16, mmSigned := match f with | .int _ g => g | _ => true }
      s.unitPartDone b [])

/-- Row `i` of a 64 × 64 operand. -/
def matRow (m : List Num) (i : Nat) : List Num := (m.drop (64 * i)).take 64

/-- Column `j` of a 64 × 64 operand. -/
def matCol (m : List Num) (j : Nat) : List Num := (List.range 64).map fun k => m.getD (64 * k + j) (.fin false 0 0)

/-- The residue a check of MM_MUL predicts (03 R100, 04 R124) for one element of C, from its products in ascending k and the value it is added
to: step 0 product `term`, step 1 the sum that takes it in (of aligned significands for binary16), step 2 the addition into C of an
I32, whose sum is the saturation's input. -/
def mulPredicted (float : Bool) (row col : List Num) (c0 : Num) (r : ResAt) : Option (BitVec 3) :=
  let prods := List.zipWith Num.mul row col
  match r.step with
  | 0 => row[r.term]?.bind fun x => col[r.term]?.bind fun y => resProd x y
  | 1 =>
    prods[r.term]?.bind fun p =>
      if float then resAligned ((prods.take r.term).foldl add32 c0) p
      else addPredicted true ((prods.take r.term).foldl Num.add (.fin false 0 0)) p
  | 2 => if float then none else addPredicted true c0 (prods.foldl Num.add (.fin false 0 0))
  | _ => none

/-- MM_MUL (04 R123): I8 sums are exact and saturate when added into C; binary16 products are added in ascending k, each
addition rounding to binary32. C holds integers, or binary32 encodings. -/
def execMmMul (t : Nat) (b : BayIx) (rf : List ResAt) (s : State) : Host.Outcome State Fault Refusal :=
  let s := s.tick t
  .next (match s.openUnit b 2 0x41 with
    | none => s
    | some (r, o) =>
      let y := s.bay b
      let f := teFmt (y.seq.tensor (fld o 90 10))
      let am := readTensor (r.rd s.freeVal) f (fld o 32 13) 4096
      let fb : Fmt := if y.mmFloat then .f16 else .int 8 y.mmSigned
      let bm := y.mmB.map fb.readElem
      let accum := o.getLsbD 24
      let cols := (List.range 64).map (matCol bm)
      let start (e : Nat) : Num :=
        if accum then (if y.mmFloat then fmt32.decode (mget 0 y.mmC e).toNat else .ofInt (mget 0 y.mmC e)) else .fin false 0 0
      let prods (e : Nat) : List Num := List.zipWith Num.mul (matRow am (e / 64)) (cols.getD (e % 64) [])
      let pr (x : ResAt) := mulPredicted y.mmFloat (matRow am (x.elem / 64)) (cols.getD (x.elem % 64) []) (start x.elem) x
      if y.mmFloat then
        let c := (List.range 4096).map fun e => (e, ((fmt32.encode ((prods e).foldl add32 (start e)) .rne : Nat) : Int))
        let s := s.setBay b { y with mmC := c.filter fun e => e.2 ≠ 0 }
        (s.mmResidue b 0 pr rf).unitPartDone b []
      else
        let c := (List.range 4096).map fun e =>
          let d : Int := match (prods e).foldl Num.add (start e) with
            | .fin n m x => signed n m * 2 ^ x.toNat
            | _ => 0
          (e, saturate d (-(2 ^ 31)) (2 ^ 31 - 1))
        let ovf := c.filterMap fun e => e.2.2.map fun h => (e.1, h)
        let s := s.setBay b { y with mmC := (c.map fun e => (e.1, e.2.1)).filter fun e => e.2 ≠ 0 }
        let s := s.accOverflow b 32 ovf
        (s.mmResidue b 0 pr rf).unitPartDone b [])

/-- MM_DRAIN (04 R122, 03 R92): C row by row, one scale entry per column, into any destination, I32 too; with binary16 operands C's values take
the scale's addition and multiplication exactly (DEDUCED, log 24), and no residue (04 R124). -/
def execMmDrain (t : Nat) (b : BayIx) (rf : List ResAt) (s : State) : Host.Outcome State Fault Refusal :=
  let s := s.tick t
  .next (match s.openUnit b 2 0x42 with
    | none => s
    | some (r, o) =>
      let y := s.bay b
      let te := y.seq.tensor (fld o 110 10)
      let fd := teFmt te
      let sc := readScales (r.rd s.freeVal) (fld o 64 13) 64
      let at_ (e : Nat) : Scale := sc.getD (e % 64) ⟨0, 0, 0⟩
      let vals := (List.range 4096).map fun e =>
        let x := mget 0 y.mmC e
        let c := at_ e
        if y.mmFloat then (((fmt32.decode x.toNat).add (.ofInt c.bias)).mul (.ofInt c.mult)).mul (.scaled 1 (-(c.shift : Int)))
        else c.apply x
      let rc := y.seq.roundCtx r.word
      let n := narrow rc te 0 vals
      let pr (x : ResAt) : Option (BitVec 3) :=
        if y.mmFloat then none
        else (at_ x.elem).predicted (mget 0 y.mmC x.elem) fd.isInt (rc.mode (teDesc te) (fld te 32 32 + x.elem)) x.step
      let s := s.requantSat b te 0 n.sats
      (s.mmResidue b 1 pr rf).unitPartDone b (n.writes 3 fd (fld o 77 13) 0))

end Sys2Proof.Machine
end

