-- ==== Sys2Proof/Machine/Context.lean ====
section
/-! DEFINITION. The Context dies: page tables, sequences, requests and their replies, the engines, the copy engine and the
HBM arbiter (chapter 07). -/

namespace Sys2Proof.Machine

/-! ### Storage layout (07 R208, R209) -/

def headDim (dsel : Nat) : Nat := 64 * 2 ^ dsel

/-- Positions per page. -/
def posPerPage (fmt d : Nat) : Nat := if fmt = 0 then 16384 / d else if fmt = 1 then 32768 / d else 31744 / d

/-- K and V bytes of a position and head. -/
def posBytes (fmt d : Nat) : Nat := if fmt = 0 then 4 * d else if fmt = 1 then 2 * d else 2 * d + d / 16

/-- Byte runs of position `t` of a page within one half: elements, then exponents. -/
def halfRuns (fmt d t : Nat) : List (Nat × Nat) :=
  if fmt = 0 then [(2 * d * t, 2 * d)] else if fmt = 1 then [(d * t, d)] else [(d * t, d), (31744 + t * (d / 32), d / 32)]

/-- Byte runs of position `t`: K, then V. -/
def posRuns (fmt d t : Nat) : List (Nat × Nat) :=
  halfRuns fmt d t ++ (halfRuns fmt d t).map fun r => (32768 + r.1, r.2)

/-- A byte of a page. -/
def CtxDie.byte (c : CtxDie) (free p o : Nat) : Byte :=
  ((mget {} c.mem (lineKey p (o / 64))).value free).extractLsb' (8 * (o % 64)) 8

/-- The bytes of runs of a page. -/
def CtxDie.runBytes (c : CtxDie) (free p : Nat) (l : List (Nat × Nat)) : List Byte :=
  l.flatMap fun r => (List.range r.2).map fun i => c.byte free p (r.1 + i)

/-- Keys of the lines runs of a page lie in. -/
def runKeys (p : Nat) (l : List (Nat × Nat)) : List Nat :=
  l.flatMap fun r => (List.range ((r.1 + r.2 + 63) / 64 - r.1 / 64)).map fun i => lineKey p (r.1 / 64 + i)

/-! ### Bytes with their check bits (07 R205) -/

/-- A byte of a line, with what the line's check bits say of it: line and byte number. -/
abbrev Cell := Line × Nat

/-- The bytes of a line. -/
def lineCells (x : Line) : List Cell := (List.range 64).map fun i => (x, i)

/-- The bytes of a page's runs as the controller passes them on: corrected, or as read with their check bits. -/
def CtxDie.runCells (c : CtxDie) (p : Nat) (l : List (Nat × Nat)) : List Cell :=
  l.flatMap fun r => (List.range r.2).map fun i => ((mget {} c.mem (lineKey p ((r.1 + i) / 64))).handOn, (r.1 + i) % 64)

/-- A 64-bit word of eight bytes: data, changed data bits, changed check bits. A word taken whole keeps its check bits; one put together has check
bits computed anew, and a double error where a byte comes from a word with one (DEDUCED, log 193). -/
def packWord (free : Nat) (cs : List Cell) : Nat × Nat × Nat :=
  match cs with
  | [] => (0, 0, 0)
  | (x, o) :: _ =>
    if o % 8 = 0 ∧ cs = (List.range 8).map fun i => (x, o + i) then
      (fld x.data (8 * o) 64, fld x.flips (8 * o) 64, fld x.flips (512 + o) 8)
    else
      (leNat (cs.map fun e => (e.1.value free).extractLsb' (8 * e.2) 8), 0,
        if cs.any fun e => e.1.wordErr (e.2 / 8) free == 2 then 3 else 0)

/-- A line of up to 64 bytes. -/
def packLine (free : Nat) (cs : List Cell) : Line :=
  let ws := (List.range 8).map fun w => packWord free ((cs.drop (8 * w)).take 8)
  { data := BitVec.ofNat 512 (ws.foldr (fun e acc => e.1 + 2 ^ 64 * acc) 0),
    flips := BitVec.ofNat 576 (ws.foldr (fun e acc => e.2.1 + 2 ^ 64 * acc) 0 + 2 ^ 512 * ws.foldr (fun e acc => e.2.2 + 2 ^ 8 * acc) 0) }

/-- Lines of bytes. -/
def packLines (free : Nat) (cs : List Cell) : List Line :=
  (List.range ((cs.length + 63) / 64)).map fun i => packLine free ((cs.drop (64 * i)).take 64)

/-- Line `ln` of a page as a run (offset, length) of bytes leaves it. -/
def runLine (free : Nat) (old : Line) (r : Nat × Nat) (cs : List Cell) (ln : Nat) : Line :=
  packLine free ((List.range 64).map fun j =>
    let a := 64 * ln + j
    if r.1 ≤ a ∧ a < r.1 + r.2 then cs.getD (a - r.1) ({}, 0) else (lineCells old).getD j ({}, 0))

/-- Write bytes into runs of a page, in order. -/
def CtxDie.writeRuns (c : CtxDie) (free p : Nat) : List (Nat × Nat) → List Cell → CtxDie
  | [], _ => c
  | r :: l, cs =>
    let c := (List.range ((r.1 + r.2 + 63) / 64 - r.1 / 64)).foldl (fun c i =>
      let k := lineKey p (r.1 / 64 + i)
      { c with mem := mset {} c.mem k (runLine free (mget {} c.mem k) r cs (r.1 / 64 + i)) }) c
    CtxDie.writeRuns c free p l (cs.drop r.2)

/-! ### Requests (07 R217) -/

/-- Bytes [o, o + n) of a request header. -/
def CtxReq.f (r : CtxReq) (o n : Nat) : Nat := fld r.hdr (8 * o) (8 * n)

def CtxReq.op (r : CtxReq) : Nat := r.f 0 1
def CtxReq.slot (r : CtxReq) : Nat := r.f 1 1
def CtxReq.g (r : CtxReq) : Nat := r.f 3 1
def CtxReq.layer (r : CtxReq) : Nat := r.f 4 2
def CtxReq.vis (r : CtxReq) : Nat := r.f 6 2
def CtxReq.pos (r : CtxReq) : Nat := r.f 8 4
def CtxReq.count (r : CtxReq) : Nat := r.f 12 2
def CtxReq.map (r : CtxReq) : Nat := r.unit / 32
def CtxReq.fn (r : CtxReq) : Nat := r.unit % 32

/-- The Array router an attach link of Context die `k` leads to, and its port that faces the die (06 R181). -/
def ctxLink (k y : Nat) : Nat × Nat := if k = 0 then (bayAt 0 y, 3) else (bayAt 31 y, 1)

/-- The plan that holds a context map id (07 R201). -/
def State.planOfMap (s : State) (m : Nat) : Option Loaded := s.plans.find? fun p => p.map == some m

/-- The map entry of a request. -/
def State.mapOf (s : State) (k : Nat) (r : CtxReq) : MapEnt := mget {} (s.ctx k).maps (256 * r.map + r.slot)

/-- Sequence `q` of die `k`. -/
def State.seqOf (s : State) (k q : Nat) : SeqEnt := mget {} (s.ctx k).seqs q

/-- KV format and head dimension of a request: its sequence's, else its plan's. -/
def State.reqShape (s : State) (k : Nat) (r : CtxReq) : Nat × Nat :=
  let m := s.mapOf k r
  if m.valid then let q := s.seqOf k m.seq; (q.format, headDim q.dsel)
  else match s.planOfMap r.map with
    | some p => (p.img.layout.format, headDim p.img.layout.dsel)
    | none => (0, 64)

/-- Data lines of a request's reply (07 R219). -/
def State.replyLines (s : State) (k : Nat) (r : CtxReq) : Nat :=
  let sh := s.reqShape k r
  match r.op with
  | 0x01 => (r.g * sh.2 * (if r.f 40 1 = 1 then 4 else 2) + 63) / 64
  | 0x10 => (r.count * posBytes sh.1 sh.2 + 63) / 64
  | 0x12 => r.count
  | 0x20 => r.count
  | _ => 0

/-- A request's reply (07 R219): status line and data lines, sent at the attach link it came by (log 43). -/
def State.ctxReply (s : State) (k : Nat) (r : CtxReq) (status commit err : Nat) (data : List Line) : State :=
  let st : Line := { data := BitVec.ofNat 512 (status + 2 ^ 32 * (commit % 2 ^ 32) + 2 ^ 64 * (err % 2 ^ 32)) }
  let ls := st :: data
  let route := r.hdr.extractLsb' 224 64
  let a := ctxLink k r.link
  ls.zipIdx.foldl (fun s e =>
    s.edgeInject a.1 a.2 { hdr := mkHdr route r.vc 0 (fld route 37 12) r.gen (e.2 + 1 == ls.length), line := e.1 }) s

/-- A reply other than OK or ECC: zero data lines. -/
def State.ctxFail (s : State) (k : Nat) (r : CtxReq) (status commit err : Nat) : State :=
  s.ctxReply k r status commit err (List.replicate (s.replyLines k r) {})

/-- A permission error (07 R219, R232). -/
def State.ctxPerm (s : State) (k : Nat) (r : CtxReq) (seq where_ reason commit err : Nat) : State :=
  let s := s.stickyCtx k (s.ctx k).permErr (fun c => { c with permErr := true }) 0x4031 2 r.fn [seq, where_, reason, r.unit]
  s.ctxFail k r 2 commit err

/-- A window error (07 R212, R213). -/
def State.ctxWindow (s : State) (k : Nat) (r : CtxReq) (seq pos commit : Nat) : State :=
  let s := s.stickyCtx k (s.ctx k).windowErr (fun c => { c with windowErr := true }) 0x4030 1 r.fn [seq, r.op, pos, commit]
  s.ctxFail k r 1 commit pos

/-! ### Arrival (07 R201, R217–R220) -/

/-- Reserved bytes of the header are zero; FW and page ops have every field but their own zero. -/
def CtxReq.reservedOk (r : CtxReq) : Bool :=
  r.f 51 13 == 0 &&
  (!(r.op ∈ [0x20, 0x21, 0x30, 0x31]) ||
    (r.f 1 11 == 0 && r.f 14 14 == 0 && r.f 36 5 == 0 &&
      (r.op ∈ [0x20, 0x21] || r.f 12 2 == 0) && (r.op == 0x31 || r.f 46 5 == 0)))

/-- The op goes to this unit on this VC (07 R217, R218). -/
def CtxReq.placed (r : CtxReq) : Bool :=
  match r.op with
  | 0x01 => decide (r.fn < 16) && decide (r.vc < 2)
  | 0x02 => decide (r.fn < 16) && decide (r.vc < 2)
  | 0x03 => r.fn == 17 && decide (r.vc < 2)
  | 0x10 => r.fn == 16 && decide (r.vc < 2)
  | 0x11 => r.fn == 16 && decide (r.vc < 2)
  | 0x12 => r.fn == 16 && decide (r.vc < 2)
  | 0x13 => r.fn == 16 && decide (r.vc < 2)
  | 0x20 => r.fn == 16 && r.vc == 3
  | 0x21 => r.fn == 16 && r.vc == 3
  | 0x30 => r.fn == 18 && r.vc == 3
  | 0x31 => r.fn == 18 && r.vc == 3
  | _ => false

/-- Field values and the number of data lines suit the op (DEDUCED, log 44). -/
def State.ctxShapeOk (s : State) (k : Nat) (r : CtxReq) : Bool :=
  let sh := s.reqShape k r
  let n := r.lines.length
  match r.op with
  | 0x01 => decide (1 ≤ r.g ∧ r.g ≤ 16) && decide (r.f 40 1 < 2) && n == (r.g * sh.2 * 2 + 63) / 64
  | 0x02 => decide (1 ≤ r.g ∧ r.g ≤ 16) && n == (r.g * sh.2 * 4 + 63) / 64
  | 0x11 => n == (r.count * posBytes sh.1 sh.2 + 63) / 64
  | 0x12 => decide (1 ≤ r.count ∧ r.count ≤ 256) && n == 0
  | 0x13 => decide (1 ≤ r.count ∧ r.count ≤ 256) && n == r.count
  | 0x20 => decide (1 ≤ r.count ∧ r.count ≤ 256) && n == 0 && r.f 41 5 % 64 == 0
  | 0x21 => decide (1 ≤ r.count ∧ r.count ≤ 256) && n == r.count && r.f 41 5 % 64 == 0
  | 0x30 => n == 0 && r.f 41 5 % 65536 == 0
  | 0x31 => n == 0 && r.f 41 5 % 65536 == 0 && r.f 46 5 % 65536 == 0
  | _ => n == 0

/-- The queue of a unit on a VC. -/
def CtxDie.queue (c : CtxDie) (unit vc : Nat) : List CtxReq := mget [] c.queues (4 * unit + vc)

/-- Lines of a message that wait at an edge die's attach link are taken; none: others wait there, and the message is not
due. A message from outside the modelled mesh finds nothing waiting. -/
def State.takeEdge (s : State) (die link : Nat) (ms : List MLine) : Option State :=
  match ms with
  | [] => none
  | m :: _ =>
    let q := mget [] s.edgeQ (64 * die + link)
    let same := q.filter fun x => hVc x.hdr == hVc m.hdr
    if same = [] then some s
    else if same.take ms.length = ms then
      let rest := q.filter (fun x => hVc x.hdr != hVc m.hdr) ++ same.drop ms.length
      some { s with edgeQ := mset [] s.edgeQ (64 * die + link) rest }
    else none

/-- CONTEXT_REQUEST_ARRIVAL (07 R201, R218–R220). A full queue holds the message at its link. -/
def execContextRequestArrival (t : Nat) (k : Fin 2) (link : Fin 36) (ms : List MLine) (s : State) :
    Host.Outcome State Fault Refusal :=
  let s := s.tick t
  .next (match s.takeEdge (17 + k) link ms, ms with
    | some s', m :: ls =>
      let h := m.hdr
      let r : CtxReq := { link := link, vc := hVc h, gen := hGen h, unit := hUnit h, hdr := m.line.value s.freeVal,
                          lines := ls.map (·.line) }
      let a := ctxLink k link
      if !s.ctxInService k then s'
      else if 19 ≤ r.fn ∨ hKind h ≠ 0 then ms.foldl (fun s x => s.dropHeader a.1 a.2 x.hdr) s'
      else if r.gen ≠ s.gen then
        s'.stickyCtx k (s.ctx k).staleDrop (fun c => { c with staleDrop := true, stale := satAdd c.stale 1 0xFFFFFFFF })
          0x4001 0 r.fn [r.gen.toNat, s.gen.toNat, link, r.unit]
      else if !r.placed || !r.reservedOk || !s.ctxShapeOk k r then
        let s' := s'.stickyCtx k (s.ctx k).badReq (fun c => { c with badReq := true }) 0x4033 2 r.fn
          [r.f 0 8, r.f 8 8, link, r.unit]
        s'.ctxFail k r 5 0 0
      else
        let q := (s.ctx k).queue r.fn r.vc
        if (if r.fn = 18 then 16 else 4) ≤ q.length then s
        else s'.modCtx k fun c => { c with queues := mset [] c.queues (4 * r.fn + r.vc) (q ++ [r]) }
    | _, _ => s)

/-! ### Starting a request (07 R218) -/

/-- A unit's next request: VC0 first; firmware and copy requests on VC3. -/
def CtxDie.nextReq (c : CtxDie) (unit : Nat) (fw : Bool) : Option CtxReq :=
  if fw then (c.queue unit 3).head? else ((c.queue unit 0) ++ (c.queue unit 1)).head?

/-- Remove the unit's next request. -/
def CtxDie.popReq (c : CtxDie) (r : CtxReq) : CtxDie :=
  { c with queues := mset [] c.queues (4 * r.fn + r.vc) ((c.queue r.fn r.vc).drop 1) }

/-- Bits of a die's lines that have changed (07 R205). -/
def CtxDie.upset (c : CtxDie) (ups : List Upset) : CtxDie :=
  { c with mem := ups.foldl (fun m u => mset {} m u.line ((mget {} m u.line).flip u.bit)) c.mem }

/-- The rounds of die `k`'s channels up to this moment are played (07 R227, R228). -/
def State.arbitrate (s : State) (k : Nat) : State := s.modCtx k fun c => c.arbitrate s.now

/-- Run a unit's next request if it has this op (07 R218): its effect and its reply come at once, and its transfers then take their turns at the
channels, the j-th from `iss[j]` rounds after the start (DEDUCED, log 36). -/
def State.runUnit (s : State) (k unit op : Nat) (iss : List Nat) (ups : List Upset) (f : State → CtxReq → State) : State :=
  let s := (s.arbitrate k).modCtx k fun c => c.upset ups
  match (s.ctx k).nextReq unit (decide (0x20 ≤ op)) with
  | some r =>
    if r.op = op ∧ s.ctxInService k = true then f (s.modCtx k fun c => c.popReq r) { r with iss := iss } else s
  | none => s

/-- The level of a request's transfers (07 R226). -/
def State.reqLevel (s : State) (k : Nat) (r : CtxReq) : Nat :=
  if 0x20 ≤ r.op then 2 else if (s.mapOf k r).cls = 0 ∨ (r.fn = 16 ∧ r.vc = 0) then 0 else 1

/-- The requester index of a unit (07 R226). -/
def requester (fn : Nat) : Nat := if fn = 18 then 17 else fn

/-- The transfers of a request's lines are issued (07 R226). -/
def State.issue (s : State) (k : Nat) (r : CtxReq) (keys : List Nat) : State :=
  s.modCtx k fun c => c.issue s.now (requester r.fn) (s.reqLevel k r) r.iss keys

/-- Reads of lines report their errors (07 R205): corrected lines are counted, an uncorrectable one is counted and logged.
Returns the keys that were uncorrectable. -/
def State.readLines (s : State) (k : Nat) (r : CtxReq) (keys : List Nat) : State × List Nat :=
  let free := s.freeVal
  keys.dedup.foldl (fun (a : State × List Nat) key =>
    let e := (mget {} (a.1.ctx k).mem key).errs free
    if e.any fun x => x.2 == 2 then
      let st := key / 2 ^ 30
      let was := (a.1.ctx k).uncorrSeen
      let s' := a.1.modCtx k fun c => { c with
        uncorrSeen := true, uncorr := satAdd c.uncorr 1 0xFFFF, badReads := mset 0 c.badReads st (mget 0 c.badReads st + 1) }
      (if was then s' else s'.snag 0x4010 2 (20 + 6 * k + st) (keyChannel key)
        [2 ^ 39 * k + 64 * key, requester r.fn, a.1.reqLevel k r, 0], a.2 ++ [key])
    else if e = [] then a
    else (a.1.modCtx k fun c => { c with corr := satAdd c.corr 1 0xFFFF }, a.2)) (s.issue k r keys, [])

/-- A request that reads ends (07 R219): `parts` are its positions or lines with the keys each needs. -/
def State.readReply (s : State) (k : Nat) (r : CtxReq) (commit : Nat) (parts : List (Nat × List Nat)) (data : List Line) : State :=
  let u := s.readLines k r (parts.flatMap (·.2))
  match parts.find? fun e => e.2.any u.2.contains with
  | some e => u.1.ctxReply k r 4 commit e.1 data
  | none => u.1.ctxReply k r 0 commit 0 data

/-- Lines of bytes. -/
def bytesLines (bs : List Byte) : List Line :=
  (List.range ((bs.length + 63) / 64)).map fun i => { data := BitVec.ofNat 512 (leNat ((bs.drop (64 * i)).take 64)) }

/-- Bytes of a request's data lines. -/
def CtxReq.bytes (r : CtxReq) (free : Nat) : List Byte := r.lines.flatMap fun x => leBytes 64 (x.value free).toNat

/-! ### Translation (07 R207, R208, R210) -/

/-- How a logical page translates: a page, no page yet, or a permission error with its reason (07 R232). -/
inductive Trans where
  | page (ppn : Nat)
  | unmapped
  | perm (reason : Nat)
  deriving DecidableEq, Repr

/-- Translate a tenant's logical page on die `k`. -/
def State.translate (s : State) (k tenant lpn : Nat) (write : Bool) : Trans :=
  if (mget ({} : TenantRec) (s.ctx k).tenants tenant).len ≤ lpn then .perm 0
  else
    let e := s.readPte k tenant lpn
    if !pteValid e then .unmapped
    else if !ppnUsable k (ptePpn e) then .perm 1
    else if write && pteRo e then .perm 2
    else if !s.stackUp k (ppnStack (ptePpn e)) then .perm 4
    else .page (ptePpn e)

/-- The logical page of a position (07 R208). -/
def SeqEnt.lpn (q : SeqEnt) (layer head page : Nat) : Nat := q.lpnBase + (layer * q.heads + head) * q.jMax + page

/-- Positions per page of a sequence. -/
def SeqEnt.per (q : SeqEnt) : Nat := posPerPage q.format (headDim q.dsel)

/-- Translate a position of a request's sequence. A page at or beyond J_MAX, or a layer or head outside L and H (DEDUCED,
log 45), is a permission error. -/
def State.transPos (s : State) (k : Nat) (q : SeqEnt) (r : CtxReq) (p : Nat) (write : Bool) : Trans :=
  if q.jMax ≤ p / q.per ∨ q.heads ≤ r.f 2 1 ∨ q.layers ≤ r.layer then .perm 0
  else s.translate k q.tenant (q.lpn r.layer (r.f 2 1) (p / q.per)) write

/-- The first position of a list that gives a permission error: position and reason. -/
def State.firstPerm (s : State) (k : Nat) (q : SeqEnt) (r : CtxReq) (ps : List Nat) (write : Bool) : Option (Nat × Nat) :=
  ps.findSome? fun p => match s.transPos k q r p write with | .perm x => some (p, x) | _ => none

/-- Allocate a page for a logical page (07 R210): the head of the free ring. -/
def State.allocPage (s : State) (k tenant lpn : Nat) : Option (State × Nat) :=
  match (s.ctx k).ring with
  | p :: l => some ((s.modCtx k fun c => { c with ring := l }).cmmPte k tenant lpn (mkPte p false), p)
  | [] => none

/-- The page of a logical page for a write, allocated if need be; none: the ring is empty. -/
def State.pageFor (s : State) (k tenant lpn : Nat) : Option (State × Nat) :=
  let e := s.readPte k tenant lpn
  if pteValid e then some (s, ptePpn e) else s.allocPage k tenant lpn

/-- A sequence faults for want of a page (07 R210). -/
def State.poolEmpty (s : State) (k seq lpn unit : Nat) : State :=
  let s := s.modCtx k fun c => { c with seqs := mset {} c.seqs seq { mget ({} : SeqEnt) c.seqs seq with fault := true } }
  s.stickyCtx k (s.ctx k).poolEmpty (fun c => { c with poolEmpty := true }) 0x4032 1 unit [seq, lpn]

/-- Keys of the page table lines that hold entries of logical pages, where they lie on die `k` (07 R207). -/
def State.pteKeys (s : State) (k tenant : Nat) (lpns : List Nat) : List Nat := lpns.filterMap (s.pteKey k tenant)

/-- The logical page of a position of a request. -/
def posLpn (q : SeqEnt) (r : CtxReq) (p : Nat) : Nat := q.lpn r.layer (r.f 2 1) (p / q.per)

/-- The lines a position of a request needs: its page table entry's, and its own. -/
def State.posKeys (s : State) (k : Nat) (q : SeqEnt) (r : CtxReq) (p : Nat) : List Nat :=
  s.pteKeys k q.tenant [posLpn q r p] ++
    match s.transPos k q r p false with
    | .page ppn => runKeys ppn (posRuns q.format (headDim q.dsel) (p % q.per))
    | _ => []

/-- Write storage bytes to positions from `p` on. Stops where the ring is empty (false), or where the page it gives is on a stack out of service
(true; 07 R231): the state and the position it stopped at. -/
def State.writePositions (s : State) (k seq : Nat) (q : SeqEnt) (r : CtxReq) : Nat → List (List Cell) → State × Option (Nat × Bool)
  | _, [] => (s, none)
  | p, b :: l =>
    match s.pageFor k q.tenant (posLpn q r p) with
    | none => (s.poolEmpty k seq (posLpn q r p) r.fn, some (p, false))
    | some (s, ppn) =>
      if !s.stackUp k (ppnStack ppn) then (s, some (p, true))
      else
        let free := s.freeVal
        (s.modCtx k fun c => c.writeRuns free ppn (posRuns q.format (headDim q.dsel) (p % q.per)) b).writePositions k seq q r (p + 1) l

/-! ### Attention (07 R221) -/

/-- A half's elements of one position. -/
def halfNums (fmt d : Nat) (scale : Num) (bs : List Byte) : List Num :=
  (List.range d).map fun i =>
    if fmt = 0 then fmt16.decode (natAt bs (2 * i) 2)
    else if fmt = 1 then (Num.ofInt (twos 8 (natAt bs i 1))).mul scale
    else
      let e := natAt bs (d + i / 32) 1
      if e = 255 then .fin false 0 0 else .scaled (twos 8 (natAt bs i 1)) ((e : Int) - 127)

/-- K and V of a position as values; an unmapped page gives zeros. -/
def State.posKV (s : State) (k : Nat) (q : SeqEnt) (r : CtxReq) (p : Nat) : List Num × List Num :=
  let d := headDim q.dsel
  match s.transPos k q r p false with
  | .page ppn =>
    let rd (l : List (Nat × Nat)) := (s.ctx k).runBytes s.freeVal ppn l
    let h := halfRuns q.format d (p % q.per)
    (halfNums q.format d (fmt32.decode (r.f 20 4)) (rd h),
     halfNums q.format d (fmt32.decode (r.f 24 4)) (rd (h.map fun x => (32768 + x.1, x.2))))
  | _ => (List.replicate d (.fin false 0 0), List.replicate d (.fin false 0 0))

/-- The running state of one query head: maximum, sum, accumulator. -/
structure Soft where
  m : Num
  sum : Num
  acc : List Num
  deriving DecidableEq, Repr

/-- One block of positions: (score, V) pairs (07 R221; DEDUCED for the roundings the manual leaves unsaid, log 39). -/
def Soft.block (x : Soft) (l : List (Num × List Num)) : Soft :=
  let m' := l.foldl (fun m e => maxNum m e.1) x.m
  let f := expNum ((x.m.add m'.neg).to32 .rne)
  let x : Soft := { m := m', sum := (x.sum.mul f).to32 .rne, acc := x.acc.map fun a => (a.mul f).to32 .rne }
  l.foldl (fun x e =>
    let w := expNum ((e.1.add m'.neg).to32 .rne)
    { x with sum := add32 x.sum w, acc := List.zipWith (fun a v => (a.add (w.mul v)).to32 .rne) x.acc e.2 }) x

/-- Blocks of 16 positions, ascending. -/
def softBlocks : Nat → Soft → List (Num × List Num) → Soft
  | 0, x, _ => x
  | n + 1, x, l => if l = [] then x else softBlocks n (x.block (l.take 16)) (l.drop 16)

/-- One query head's output. -/
def attendHead (qv : List Num) (scale : Num) (kv : List (List Num × List Num)) (d : Nat) : List Num :=
  let l := kv.map fun e =>
    (((reduceLanes add32 (List.zipWith Num.mul qv e.1)).mul scale).to32 .rne, e.2)
  let x := softBlocks (l.length / 16 + 1)
    { m := .inf true, sum := .fin false 0 0, acc := List.replicate d (.fin false 0 0) } l
  let z := recipNum x.sum
  x.acc.map fun a => a.mul z

/-- The state before a request's own work: an invalid slot or a faulted sequence ends it (07 R216, R219). -/
def State.withSeq (s : State) (k : Nat) (r : CtxReq) (f : Nat → SeqEnt → State) : State :=
  let m := s.mapOf k r
  if !m.valid then s.ctxPerm k r 0xFFFF 0 3 0 0
  else
    let q := s.seqOf k m.seq
    if q.fault then s.ctxFail k r 6 q.commit 0 else f m.seq q

/-- ATTEND (07 R212, R221). -/
def execAttend (t : Nat) (k : Fin 2) (e : Fin 16) (iss : List Nat) (ups : List Upset) (s : State) :
    Host.Outcome State Fault Refusal :=
  .next ((s.tick t).runUnit k e 0x01 iss ups fun s r => s.withSeq k r fun seq q =>
    if q.window < r.vis then s.ctxWindow k r seq (q.commit + r.vis) q.commit
    else
      let ps := List.range (q.commit + r.vis)
      match s.firstPerm k q r ps false with
      | some (p, x) => s.ctxPerm k r seq (posLpn q r p) x q.commit p
      | none =>
        let d := headDim q.dsel
        let kv := ps.map fun p => s.posKV k q r p
        let bs := r.bytes s.freeVal
        let outs := (List.range r.g).flatMap fun g =>
          attendHead ((List.range d).map fun i => fmt16.decode (natAt bs (2 * (g * d + i)) 2)) (fmt32.decode (r.f 16 4)) kv d
        s.readReply k r q.commit (ps.map fun p => (p, s.posKeys k q r p)) (bytesLines (outs.flatMap fun x =>
          if r.f 40 1 = 1 then leBytes 4 (fmt32.encode x .rne) else leBytes 2 (fmt16.encode x .rne))))

/-! ### Writing positions (07 R222) -/

/-- Round a quotient of two values to an integer (07 R222): n/d in magnitude as N/D. -/
def roundRat (neg : Bool) (n d : Nat) (m : Rnd) : Int :=
  let x : Int := if neg then -(n : Int) else n
  let q := x / (d : Int)
  let rem := x - q * d
  match m with
  | .rne => if 2 * rem > d ∨ (2 * rem = d ∧ q % 2 = 1) then q + 1 else q
  | .sr r => if (r : Int) < rem * 2 ^ 16 / d then q + 1 else q

/-- A value divided by a scale and rounded to I8: a NaN quotient gives 0, an infinite one saturates (03 R78). -/
def quotI8 (x y : Num) (m : Rnd) : Int :=
  match x, y with
  | .nan, _ => 0
  | _, .nan => 0
  | .inf _, .inf _ => 0
  | .inf a, .fin b _ _ => if a = b then 127 else -128
  | .fin _ _ _, .inf _ => 0
  | .fin a n e, .fin b k f =>
    if k = 0 then (if n = 0 then 0 else if a = b then 127 else -128)
    else
      let g := min e f
      (saturate (roundRat (a != b) (n * 2 ^ (e - g).toNat) (k * 2 ^ (f - g).toNat) m) (-128) 127).1

/-- One half of a position rounded into the storage format: `rnd i` rounds element i. -/
def storeHalf (fmt d : Nat) (scale : Num) (rnd : Nat → Rnd) (xs : List Num) (raw : List Byte) : List Byte :=
  if fmt = 0 then raw
  else if fmt = 1 then xs.zipIdx.map fun e => BitVec.ofInt 8 (quotI8 e.1 scale (rnd e.2))
  else
    let bs := (blocks32 (d / 32) xs).zipIdx.map fun b =>
      let ex := bxExp b.1 127
      (ex, b.1.zipIdx.map fun e => (bxElem e.1 127 ex (rnd (32 * b.2 + e.2))).1)
    (bs.flatMap fun b => b.2.map fun v => BitVec.ofInt 8 v) ++ bs.map fun b => BitVec.ofNat 8 b.1

/-- The storage bytes of one appended token (07 R222). Values are rounded stochastically (DEDUCED, log 40). -/
def appendBytes (q : SeqEnt) (m : MapEnt) (r : CtxReq) (bs : List Byte) (i : Nat) : List Byte :=
  let d := headDim q.dsel
  let half (o tid : Nat) (scale : Num) : List Byte :=
    let raw := bytesAt bs (4 * d * i + o) (2 * d)
    let xs := (List.range d).map fun j => fmt16.decode (natAt raw (2 * j) 2)
    storeHalf q.format d scale (fun j => .sr (rng m.seed (BitVec.ofNat 16 r.layer) (BitVec.ofNat 32 (r.pos + i))
      (BitVec.ofNat 16 tid) (BitVec.ofNat 32 (r.f 2 1 * d + j)))) xs raw
  half 0 (r.f 14 2) (fmt32.decode (r.f 20 4)) ++ half (2 * d) (r.f 14 2 + 1) (fmt32.decode (r.f 24 4))

/-- Write positions of a request: the window, the permissions, then the writes (07 R210, R212). A page table line that reads uncorrectable is
reported (07 R205). -/
def State.kvStore (s : State) (k : Nat) (r : CtxReq) (seq : Nat) (q : SeqEnt) (bs : List (List Cell)) : State :=
  let ps := (List.range bs.length).map (r.pos + ·)
  match ps.find? fun p => !decide (q.commit ≤ p ∧ p < q.commit + q.window) with
  | some p => s.ctxWindow k r seq p q.commit
  | none =>
    match s.firstPerm k q r ps true with
    | some (p, x) => s.ctxPerm k r seq (posLpn q r p) x q.commit p
    | none =>
      match s.writePositions k seq q r r.pos bs with
      | (s, some (p, false)) => s.ctxFail k r 3 q.commit p
      | (s, some (p, true)) => s.ctxPerm k r seq (posLpn q r p) 4 q.commit p
      | (s, none) =>
        (s.issue k r (ps.flatMap (s.posKeys k q r))).readReply k r q.commit (ps.map fun p => (p, s.pteKeys k q.tenant [posLpn q r p])) []

/-- Bytes an engine has computed, with good check bits. -/
def bytesCells (bs : List Byte) : List Cell := ((bytesLines bs).flatMap lineCells).take bs.length

/-- APPEND (07 R222). -/
def execAppend (t : Nat) (k : Fin 2) (e : Fin 16) (iss : List Nat) (ups : List Upset) (s : State) :
    Host.Outcome State Fault Refusal :=
  .next ((s.tick t).runUnit k e 0x02 iss ups fun s r => s.withSeq k r fun seq q =>
    let bs := r.bytes s.freeVal
    s.kvStore k r seq q ((List.range r.g).map fun i => bytesCells (appendBytes q (s.mapOf k r) r bs i)))

/-- COMMIT_SET (07 R213). -/
def execCommitSet (t : Nat) (k : Fin 2) (s : State) : Host.Outcome State Fault Refusal :=
  .next ((s.tick t).runUnit k 17 0x03 [] [] fun s r => s.withSeq k r fun seq q =>
    if r.pos = q.commit then s.ctxReply k r 0 q.commit 0 []
    else if q.commit < r.pos ∧ r.pos ≤ q.commit + q.window then
      (s.modCtx k fun c => { c with seqs := mset {} c.seqs seq { q with commit := r.pos } }).ctxReply k r 0 r.pos 0 []
    else s.ctxWindow k r seq r.pos q.commit)

/-- KV_READ (07 R223). -/
def execKvRead (t : Nat) (k : Fin 2) (iss : List Nat) (ups : List Upset) (s : State) : Host.Outcome State Fault Refusal :=
  .next ((s.tick t).runUnit k 16 0x10 iss ups fun s r => s.withSeq k r fun seq q =>
    let ps := (List.range r.count).map (r.pos + ·)
    if q.window < r.vis then s.ctxWindow k r seq (q.commit + r.vis) q.commit
    else match ps.find? fun p => decide (q.commit + r.vis ≤ p) with
      | some p => s.ctxWindow k r seq p q.commit
      | none =>
        match s.firstPerm k q r ps false with
        | some (p, x) => s.ctxPerm k r seq (posLpn q r p) x q.commit p
        | none =>
          let d := headDim q.dsel
          let at_ (p : Nat) : List Cell := match s.transPos k q r p false with
            | .page ppn => (s.ctx k).runCells ppn (posRuns q.format d (p % q.per))
            | _ => List.replicate (posBytes q.format d) ({}, 0)
          s.readReply k r q.commit (ps.map fun p => (p, s.posKeys k q r p)) (packLines s.freeVal (ps.flatMap at_)))

/-- KV_WRITE (07 R222): the bytes are stored with the check bits they arrive with (07 R205). -/
def execKvWrite (t : Nat) (k : Fin 2) (iss : List Nat) (ups : List Upset) (s : State) : Host.Outcome State Fault Refusal :=
  .next ((s.tick t).runUnit k 16 0x11 iss ups fun s r => s.withSeq k r fun seq q =>
    let cs := r.lines.flatMap lineCells
    let n := posBytes q.format (headDim q.dsel)
    s.kvStore k r seq q ((List.range r.count).map fun i => (cs.drop (n * i)).take n))

/-! ### Spill, firmware and page operations (07 R217, R218, R223) -/

/-- The spill lines of a request: plan owner and logical pages, or the first line beyond the area. -/
def State.spillArea (s : State) (r : CtxReq) : Option (Nat × Nat) :=
  match s.planOfMap r.map with
  | some p => if r.f 36 4 + r.count ≤ 1024 * p.img.layout.spill then some (p.owner, p.spillBase) else none
  | none => none

/-- A line as the memory passes it on: corrected, or with its error (07 R205). -/
def CtxDie.handOn (c : CtxDie) (key : Nat) : Line := (mget {} c.mem key).handOn

/-- A spill line's place in memory: its key where it is mapped. -/
def State.spillKey (s : State) (k o base l : Nat) : Option Nat :=
  match s.translate k o (base + l / 1024) false with
  | .page p => some (lineKey p (l % 1024))
  | _ => none

/-- The lines a spill line needs: its page table entry's, and its own. -/
def State.spillKeys (s : State) (k o base l : Nat) : List Nat :=
  s.pteKeys k o [base + l / 1024] ++ (s.spillKey k o base l).toList

/-- SPILL_READ (07 R223). -/
def execSpillRead (t : Nat) (k : Fin 2) (iss : List Nat) (ups : List Upset) (s : State) : Host.Outcome State Fault Refusal :=
  .next ((s.tick t).runUnit k 16 0x12 iss ups fun s r => s.withSeq k r fun seq q =>
    match s.spillArea r with
    | none => s.ctxPerm k r seq (r.f 36 4) 0 q.commit (r.f 36 4)
    | some (o, base) =>
      let ls := (List.range r.count).map (r.f 36 4 + ·)
      match ls.findSome? fun l => match s.translate k o (base + l / 1024) false with | .perm x => some (l, x) | _ => none with
      | some (l, x) => s.ctxPerm k r seq l x q.commit l
      | none =>
        s.readReply k r q.commit (ls.map fun l => (l, s.spillKeys k o base l))
          (ls.map fun l => match s.spillKey k o base l with | some a => (s.ctx k).handOn a | none => {}))

/-- Write spill lines; stops where the ring is empty (false), or where the page it gives is on a stack out of service (true). -/
def State.writeSpill (s : State) (k o base : Nat) : Nat → List Line → State × Option (Nat × Bool)
  | _, [] => (s, none)
  | l, x :: ls =>
    match s.pageFor k o (base + l / 1024) with
    | none => (s, some (l, false))
    | some (s, p) =>
      if !s.stackUp k (ppnStack p) then (s, some (l, true))
      else (s.modCtx k fun c => { c with mem := mset {} c.mem (lineKey p (l % 1024)) x }).writeSpill k o base (l + 1) ls

/-- SPILL_WRITE (07 R223). -/
def execSpillWrite (t : Nat) (k : Fin 2) (iss : List Nat) (s : State) : Host.Outcome State Fault Refusal :=
  .next ((s.tick t).runUnit k 16 0x13 iss [] fun s r => s.withSeq k r fun seq q =>
    match s.spillArea r with
    | none => s.ctxPerm k r seq (r.f 36 4) 0 q.commit (r.f 36 4)
    | some (o, base) =>
      let ls := (List.range r.count).map (r.f 36 4 + ·)
      match ls.findSome? fun l => match s.translate k o (base + l / 1024) true with | .perm x => some (l, x) | _ => none with
      | some (l, x) => s.ctxPerm k r seq l x q.commit l
      | none =>
        match s.writeSpill k o base (r.f 36 4) r.lines with
        | (s, some (l, false)) => (s.poolEmpty k seq (base + l / 1024) r.fn).ctxFail k r 3 q.commit l
        | (s, some (l, true)) => s.ctxPerm k r seq l 4 q.commit l
        | (s, none) =>
          (s.issue k r (ls.flatMap (s.spillKeys k o base))).readReply k r q.commit
            (ls.map fun l => (l, s.pteKeys k o [base + l / 1024])) [])

/-- The lines of an FW op lie in the firmware region of die `k` (07 R204, R218). -/
def fwLegal (k : Nat) (r : CtxReq) : Bool :=
  let ca := r.f 41 5
  ca / 2 ^ 39 == k && decide (ca % 2 ^ 39 + 64 * r.count ≤ 2 ^ 31)

/-- FW_READ (07 R204, R218). -/
def execFwRead (t : Nat) (k : Fin 2) (iss : List Nat) (ups : List Upset) (s : State) : Host.Outcome State Fault Refusal :=
  .next ((s.tick t).runUnit k 16 0x20 iss ups fun s r =>
    let ca := r.f 41 5
    if !fwLegal k r then s.ctxPerm k r 0xFFFF ca 5 0 0
    else if !s.stackUp k 0 then s.ctxPerm k r 0xFFFF ca 4 0 0
    else
      let keys := (List.range r.count).map (ca % 2 ^ 39 / 64 + ·)
      s.readReply k r 0 (keys.zipIdx.map fun e => (e.2, [e.1])) (keys.map fun a => (s.fwLine k a).handOn))

/-- FW_WRITE (07 R204, R218). -/
def execFwWrite (t : Nat) (k : Fin 2) (iss : List Nat) (s : State) : Host.Outcome State Fault Refusal :=
  .next ((s.tick t).runUnit k 16 0x21 iss [] fun s r =>
    let ca := r.f 41 5
    let base := ca % 2 ^ 39 / 64
    if !fwLegal k r then s.ctxPerm k r 0xFFFF ca 5 0 0
    else if !s.stackUp k 0 then s.ctxPerm k r 0xFFFF ca 4 0 0
    else
      ((r.lines.zipIdx.foldl (fun s e => s.fwStore k (base + e.2) e.1) s).issue k r
        ((List.range r.count).map (base + ·))).ctxReply k r 0 0 0 [])

/-- A page op may use a page (07 R218). -/
def State.pageLegal (s : State) (k p : Nat) : Option Nat :=
  if !ppnUsable k p then some 1 else if !s.stackUp k (ppnStack p) then some 4 else none

/-- The keys of a page's lines. -/
def pageKeys (p : Nat) : List Nat := (List.range 1024).map (lineKey p)

/-- PAGE_ZERO (07 R217). -/
def execPageZero (t : Nat) (k : Fin 2) (iss : List Nat) (s : State) : Host.Outcome State Fault Refusal :=
  .next ((s.tick t).runUnit k 18 0x30 iss [] fun s r =>
    let p := r.f 41 5 / 65536
    match s.pageLegal k p with
    | some x => s.ctxPerm k r 0xFFFF (r.f 41 5) x 0 0
    | none => ((s.modCtx k fun c => c.zeroPage p).issue k r (pageKeys p)).ctxReply k r 0 0 0 [])

/-- The lines of a page that are not all zeros with good check bits: reading the others shows nothing. -/
def CtxDie.pageListed (c : CtxDie) (p : Nat) : List Nat := (c.mem.filter fun e => e.1 / 1024 == p % 2 ^ 23).map (·.1)

/-- PAGE_COPY (07 R217). -/
def execPageCopy (t : Nat) (k : Fin 2) (iss : List Nat) (ups : List Upset) (s : State) : Host.Outcome State Fault Refusal :=
  .next ((s.tick t).runUnit k 18 0x31 iss ups fun s r =>
    let p := r.f 41 5 / 65536
    let q := r.f 46 5 / 65536
    match s.pageLegal k p, s.pageLegal k q with
    | some x, _ => s.ctxPerm k r 0xFFFF (r.f 41 5) x 0 0
    | none, some x => s.ctxPerm k r 0xFFFF (r.f 46 5) x 0 0
    | none, none =>
      let ls := (s.ctx k).pageListed q
      ((s.modCtx k fun c => c.copyPage p q).issue k r (pageKeys q ++ pageKeys p)).readReply k r 0 (ls.map fun a => (a % 1024, [a])) [])

/-! ### Refresh and the arbiter (07 R206, R226–R229) -/

/-- Intervals a refresh may wait (07 R233). -/
def CtxDie.maxPostpone (c : CtxDie) : Nat := if c.refPostpone = 0 then 1 else min 8 c.refPostpone.toNat

/-- tREFI in ns (07 R206): half as long while the die's hottest stack is in band T3. -/
def State.tRefi (s : State) (k : Nat) : Nat :=
  let l := (List.range 6).map fun i => s.sensor (36 + 6 * k + i)
  let top := l.foldl (fun v x => max v x.val) ((l.headD {}).val)
  if l.any fun x => decide (x.val = top) && x.band == 3 then 1950 else 3900

/-- REFRESH_DUE (07 R206): a tREFI interval of a channel expires; the refresh waits while a P0 transfer is pending there, else it runs its 28
rounds. -/
def execRefreshDue (t : Nat) (k : Fin 2) (stack : Fin 6) (ch : Fin 32) (s : State) :
    Host.Outcome State Fault Refusal :=
  let s := (s.tick t).arbitrate k
  let key := 32 * stack.val + ch.val
  let due := match ((s.ctx k).chan key).refAt with | some a => decide (a + s.tRefi k ≤ s.now) | none => true
  .next (if !s.stackUp k stack || !due then s
    else s.modCtx k fun c =>
      let x := (c.chan key).wake s.now
      { c with chans := mset {} c.chans key { x with due := min c.maxPostpone (x.due + 1), refAt := some s.now } })

/-- FORCED_REFRESH (07 R206, R227): a refresh that has waited its intervals goes ahead of every requester, for 28 rounds. -/
def execForcedRefresh (t : Nat) (k : Fin 2) (stack : Fin 6) (ch : Fin 32) (s : State) : Host.Outcome State Fault Refusal :=
  let s := (s.tick t).arbitrate k
  let key := 32 * stack.val + ch.val
  .next (if (s.ctx k).maxPostpone ≤ ((s.ctx k).chan key).due then
      (s.modCtx k fun c =>
        let x := c.chan key
        { c with chans := mset {} c.chans key { x with due := x.due - 1, refresh := x.refresh + 28 } }).intrude 6
    else s)

/-- ARB_STARVE (07 R229): a requester's count has reached STARVE_ROUNDS. Nothing else changes. -/
def execArbStarve (t : Nat) (k : Fin 2) (stack : Fin 6) (ch : Fin 32) (req : Fin 18) (level : Fin 3) (s : State) :
    Host.Outcome State Fault Refusal :=
  let s := (s.tick t).arbitrate k
  let c := s.ctx k
  let key := 32 * stack.val + ch.val
  let y := c.chan key
  let w := 4 * req.val + level.val
  .next (if !y.starved.contains w then s
    else
      let x := (level.val, stack.val, ch.val)
      let s := s.stickyCtx k c.arbStarve
        (fun c => { c with arbStarve := true, cap := some (c.cap.getD x), starve := satAdd c.starve 1 0xFFFFFFFF, capLast := c.cap.getD x,
                           chans := mset {} c.chans key { y with starved := y.starved.erase w } })
        0x4020 1 (if req.val = 17 then 18 else req.val) [ch, req, level, c.starveRounds.toNat]
      if c.starveIrq then s.pfIrq (8 + k) else s)

/-- A write of CTX_POOL_PUSH (07 R233). -/
def State.poolPush (s : State) (k ppn : Nat) : State :=
  let s := s.modCtx k fun c => { c with poolPush := BitVec.ofNat 24 ppn }
  if ppnUsable k ppn then s.modCtx k fun c => { c with ring := c.ring ++ [ppn] }
  else s.stickyCtx k (s.ctx k).permErr (fun c => { c with permErr := true }) 0x4031 2 0x7FF [0xFFFF, 65536 * ppn, 1, 0]

/-- CTX_POOL_PUSH (07 R233). -/
def execCtxPoolPush (t : Nat) (k : Fin 2) (v : Word) (s : State) : Host.Outcome State Fault Refusal :=
  .next ((s.tick t).poolPush k (fld v 0 24))

/-- CTX_CNT_CLR (07 R233). -/
def execCtxCntClr (t : Nat) (k : Fin 2) (s : State) : Host.Outcome State Fault Refusal :=
  .next (((s.tick t).arbitrate k).modCtx k fun c => { c with stale := 0, uncorr := 0, corr := 0, preempt := 0, starve := 0 })

/-- CTX_STARVE_CAP_CLEAR (07 R229, R233). -/
def execCtxStarveCapClear (t : Nat) (k : Fin 2) (s : State) : Host.Outcome State Fault Refusal :=
  .next ((s.tick t).modCtx k fun c => { c with cap := none })

/-! ### Loss of stacks and dies (07 R231; 01 R34) -/

/-- Sequences of die `k` with a page on stack `st` (07 R231). -/
def State.seqsOnStack (s : State) (k st : Nat) : List Nat :=
  ((s.ctx k).seqs.filter fun e => e.2.valid &&
    (List.range (e.2.layers * e.2.heads * e.2.jMax)).any fun i =>
      let v := s.pte e.2.tenant (e.2.lpnBase + i)
      pteValid v && ppnDie (ptePpn v) == k && ppnStack (ptePpn v) == st).map (·.1)

/-- A stack leaves service (07 R231): cause 0 training, 1 rail fault, 2 retraining failed. -/
def State.stackLeaves (s : State) (k st cause : Nat) : State :=
  if (s.ctx k).stackOut.getLsbD st then s
  else
    let l := s.seqsOnStack k st
    let s := s.modCtx k fun c =>
      { c with
        stackOut := c.stackOut ||| BitVec.ofNat 6 (2 ^ st),
        seqs := l.foldl (fun m q => mset {} m q { mget ({} : SeqEnt) m q with fault := true }) c.seqs }
    s.snag 0x4011 2 (20 + 6 * k + st) 0x7FF [cause, l.length]

/-- A Context die is lost with its contents, sequences and prefixes (01 R34, 07 R231). -/
def State.loseCtx (s : State) (k : Nat) : State :=
  let s := (List.range 6).foldl (fun s st => s.stackLeaves k st 1) s
  let s := s.modCtx k fun c =>
    { c with lost := true, mem := [], seqs := [], maps := [], ring := [], queues := [], chans := [] }
  { s with
    pages := s.pages.filter fun e => !(pteValid e.2 && ppnDie (ptePpn e.2) == k),
    prefixes := s.prefixes.filter fun e => match e.2 with | some p => p.die != k | none => false }

end Sys2Proof.Machine
end

