-- ==== Sys2Proof/Machine/Requests.lean ====
section
/-! DEFINITION. Requests of the serving scheduler: acceptance, context for a request, prefixes and retirement (chapter 08; 07
R214, R215). -/

namespace Sys2Proof.Machine

/-! ### Requests and counts -/

/-- A request by function and REQ_ID. -/
def State.req (s : State) (fn id : Nat) : Option Req := s.reqs.find? fun r => r.fn == fn && r.id == id

/-- Update a request. -/
def State.modReq (s : State) (fn id : Nat) (f : Req → Req) : State :=
  { s with reqs := s.reqs.map fun r => if r.fn = fn ∧ r.id = id then f r else r }

/-- The request no longer exists. -/
def State.dropReq (s : State) (r : Req) : State :=
  { s with reqs := s.reqs.filter fun q => !(q.fn == r.fn && q.id == r.id) }

/-- A function counter rises by 1 (11 R318). -/
def State.countFn (s : State) (fn off : Nat) : State :=
  s.modHost fun h => { h with cnts := mset 0 h.cnts (4096 * fn + off) (mget 0 h.cnts (4096 * fn + off) + 1) }

/-- Pending requests of a function (08 R235, 11 R318). -/
def State.pendingOf (s : State) (fn : Nat) : Nat := (s.reqs.filter fun r => r.fn == fn && r.slot.isNone).length

/-- Placed requests of a function. -/
def State.placedOf (s : State) (fn : Nat) : Nat := (s.reqs.filter fun r => r.fn == fn && r.slot.isSome).length

/-- A random number of the DRBG (12 R350): a free value. After 1,024 requests the DRBG is reseeded. -/
def State.random (s : State) (bits : Nat) : State × Nat :=
  let k := s.keep
  ({ s.drawn with keep := if 1024 ≤ k.draws + 1 then { k with draws := 0, reseedAt := s.now } else { k with draws := k.draws + 1 } },
    s.freeVal % 2 ^ bits)

/-- Bytes of an output position (08 R234, R249). -/
def Layout.outBytes (l : Layout) : Nat := if l.tensor then 64 * l.outLines else 4

/-- Bytes of an input position. -/
def Layout.inBytes (l : Layout) : Nat := if l.tensor then 64 * l.inLines else 4

/-- Output positions the buffer of a request holds. -/
def Req.room (r : Req) (l : Layout) : Nat := (r.outLen - 64) / l.outBytes

/-- The deadline has passed (08 R247). -/
def State.passed (s : State) (r : Req) : Bool := match r.deadline with | some d => decide (d ≤ s.mtime) | none => false

/-! ### Logical pages and sequences (08 R245; 07 R208) -/

/-- Logical pages of a request of a plan: L·H·J_MAX; a plan that uses no context memory has none. -/
def PlanImg.lpns (p : PlanImg) : Nat := if p.usesCtx then p.layout.layers * p.layout.heads * p.layout.jMax else 0

/-- Ranges of a tenant's logical pages that are reserved: (first, count). -/
def State.reserved (s : State) (tenant : Nat) : List (Nat × Nat) :=
  (s.reqs.filterMap fun r => if r.fn = tenant then
    (match s.plan r.plan with | some p => some (r.lpn, p.img.lpns) | none => none) else none) ++
  ([s.ctx0, s.ctx1].flatMap fun c => c.seqs.filterMap fun e =>
    if e.2.valid && e.2.tenant == tenant then some (e.2.lpnBase, e.2.layers * e.2.heads * e.2.jMax) else none) ++
  s.plans.filterMap fun p =>
    if p.owner = tenant ∧ p.map.isSome = true then some (p.spillBase, p.img.layout.spill) else none

/-- The lowest `n` consecutive logical pages of a tenant that are free (08 R245). -/
def State.findLpns (s : State) (tenant n : Nat) : Option Nat :=
  let used := (s.reserved tenant).filter fun e => e.2 != 0
  let fits (a : Nat) : Bool := decide (a + n ≤ Config.pageTableLen tenant) &&
    used.all fun e => decide (a + n ≤ e.1) || decide (e.1 + e.2 ≤ a)
  if n = 0 then some 0
  else ((0 :: used.map fun e => e.1 + e.2).filter fits).min?

/-- The Context die of a slot (08 R237). -/
def Layout.die (l : Layout) (slot : Nat) : Nat := if (l.slots.getD slot (false, false)).2 then 1 else 0

/-- A slot is reserved for C0. -/
def Layout.resC0 (l : Layout) (slot : Nat) : Bool := (l.slots.getD slot (false, false)).1

/-- The first sequence table entry of a die that is not VALID (07 R208). -/
def CtxDie.freeSeq (c : CtxDie) : Option Nat := (List.range 4096).find? fun i => !(mget ({} : SeqEnt) c.seqs i).valid

/-! ### Prefixes (07 R214, R215) -/

/-- The entry a handle names for a tenant, checked (07 R215). -/
def State.prefixOf (s : State) (tenant handle : Nat) : Option (Nat × Prefix) :=
  let i := handle % 65536
  match mget none s.prefixes i with
  | some p => if p.tag = handle / 2 ^ 17 ∧ p.die = handle / 65536 % 2 ∧ p.tenant = tenant then some (i, p) else none
  | none => none

/-- A prefix suits a plan (07 R215). -/
def Prefix.fits (p : Prefix) (l : Layout) : Bool :=
  p.format == l.format && p.dsel == l.dsel && p.heads == l.heads && p.layers == l.layers

/-- The copy engine's request to copy page `src` to `dst` (07 R217). -/
def copyReq (dst src : Nat) : CtxReq :=
  { link := 0, vc := 3, gen := 0, unit := 18, lines := [], hdr := BitVec.ofNat 512 (0x31 + 2 ^ 328 * (65536 * dst) + 2 ^ 368 * (65536 * src)) }

/-- Copy each (layer · H + head, page) of a list into a fresh page of die `k`; none where the free ring is empty. Errors read are reported (07
R205). -/
def State.copyOut (s : State) (k : Nat) : List (Nat × Nat) → Option (State × List (Nat × Nat))
  | [] => some (s, [])
  | (i, src) :: l =>
    match (s.ctx k).ring with
    | [] => none
    | p :: q =>
      match (((s.modCtx k fun c => { c with ring := q }).readLines k (copyReq p src) ((s.ctx k).pageListed src)).1.modCtx k fun c =>
          c.copyPage p src).copyOut k l with
      | some (s, r) => some (s, (i, p) :: r)
      | none => none

/-- PREFIX_KEEP of `n` positions of sequence `seq` on die `k` (07 R214): the handle; none: the table is full, or the ring
cannot supply the copies. `lead` is the scheduling module's handle on a peer (10 R294). -/
def State.keepPrefix (s : State) (k seq n : Nat) (lead : Option Nat) : Option (State × Nat) :=
  let q := mget ({} : SeqEnt) (s.ctx k).seqs seq
  let per := posPerPage q.format (headDim q.dsel)
  let at_ (i j : Nat) : List (Nat × Nat × Nat) :=
    let v := s.pte q.tenant (q.lpnBase + i * q.jMax + j)
    if pteValid v then [(i, j, ptePpn v)] else []
  let whole := (List.range (q.layers * q.heads)).flatMap fun i => (List.range (n / per)).flatMap (at_ i)
  let part := if n % per = 0 then [] else (List.range (q.layers * q.heads)).flatMap fun i => at_ i (n / per)
  match (List.range 65536).find? fun i => (mget none s.prefixes i).isNone with
  | none => none
  | some idx =>
    match s.copyOut k (part.map fun x => (x.1, x.2.2)) with
    | none => none
    | some (s, copies) =>
      let s := whole.foldl (fun s x => s.setPte q.tenant (q.lpnBase + x.1 * q.jMax + x.2.1) (mkPte x.2.2 true)) s
      let (s, tag) := s.random 47
      let p : Prefix := { tenant := q.tenant, die := k, format := q.format, dsel := q.dsel, heads := q.heads,
                          layers := q.layers, n := n, tag := tag, pages := whole, copies := copies, lead := lead }
      some ({ s with prefixes := mset none s.prefixes idx (some p) }, idx + 65536 * k + 2 ^ 17 * tag)

/-- A prefix entry is removed; its pages return to the ring unless something else holds them (07 R211, R215). -/
def State.dropPrefix (s : State) (idx : Nat) (p : Prefix) : State :=
  let s := { s with prefixes := mset none s.prefixes idx none }
  (p.pages.map (·.2.2) ++ p.copies.map (·.2)).foldl (fun s x => s.freePage x) s

/-- A new sequence is built from a prefix (07 R215): false if a page cannot be mapped or copied there. -/
def State.usePrefix (s : State) (k tenant lpn jMax : Nat) (p : Prefix) : State × Bool :=
  let page := p.n / posPerPage p.format (headDim p.dsel)
  if p.die ≠ k ∨ jMax < page + (if p.copies = [] then 0 else 1) then (s, false)
  else
    let s := p.pages.foldl (fun s x => s.setPte tenant (lpn + x.1 * jMax + x.2.1) (mkPte x.2.2 true)) s
    match s.copyOut k p.copies with
    | none => (s, false)
    | some (s, l) => (l.foldl (fun s x => s.setPte tenant (lpn + x.1 * jMax + page) (mkPte x.2 false)) s, true)

/-- The sequence of a newly placed request and its map entry (08 R245; 07 R208, R216). `use` says that it starts from a
prefix; one that cannot be built there leaves the sequence with FAULT set (DEDUCED, log 46). `start` is a set-up record's starting COMMIT (10
R294). -/
def State.openSeq (s : State) (p : Loaded) (slot tenant lpn cls : Nat) (seed : BitVec 64) (use : Bool) (pre : Option Prefix)
    (start : Option Nat) : State :=
  let l := p.img.layout
  let k := l.die slot
  match p.map, (s.ctx k).freeSeq with
  | some m, some i =>
    let s := s.openTable tenant
    let r := match pre with | some x => s.usePrefix k tenant lpn l.jMax x | none => (s, !use)
    let q : SeqEnt := { valid := true, fault := !r.2, fromPrefix := use, format := l.format, dsel := l.dsel,
                        heads := l.heads, tenant := tenant, layers := l.layers, lpnBase := lpn, jMax := l.jMax,
                        commit := start.getD (match pre with | some x => x.n | none => 0), window := l.window }
    r.1.modCtx k fun c =>
      { c with seqs := mset {} c.seqs i q,
               maps := mset {} c.maps (256 * m + slot) { valid := true, seq := i, cls := cls, seed := seed } }
  | _, _ => s

/-- The sequence a plan's map gives a slot: die and index. -/
def State.slotSeq (s : State) (p : Loaded) (slot : Nat) : Option (Nat × Nat) :=
  match p.map with
  | some m =>
    let k := p.img.layout.die slot
    let e := mget ({} : MapEnt) (s.ctx k).maps (256 * m + slot)
    if e.valid then some (k, e.seq) else none
  | none => none

/-- The sequence of a slot is released, and its map entry cleared (07 R211, R216). -/
def State.closeSeq (s : State) (p : Loaded) (slot : Nat) : State :=
  match p.map, s.slotSeq p slot with
  | some m, some (k, i) =>
    (s.modCtx k fun c => { c with maps := mset {} c.maps (256 * m + slot) {} }).releaseSeq k i
  | _, _ => s

/-! ### Outputs and records (08 R249) -/

/-- The output positions of a request that have not been written are written; with STREAM, then the DELIVERED field. -/
def State.giveOuts (s : State) (r : Req) (l : Layout) : State × Req :=
  let new := r.outs.drop r.given
  if new = [] then (s, r)
  else
    let s := s.hostWrite r.fn (r.outAddr + 64 + r.given * l.outBytes) new.flatten
    let r := { r with given := r.outs.length, tFirst := if r.tFirst = 0 then s.mtime else r.tFirst }
    (if r.stream then s.hostWrite r.fn (r.outAddr + 24) (leBytes 4 r.given) else s, r)

/-- The completion record (08 R249). -/
def Req.record (r : Req) (status reason gen handle now : Nat) : List Byte :=
  leBytes 4 r.id ++ leBytes 1 status ++ leBytes 1 reason ++
  leBytes 1 ((if r.late then 1 else 0) + (if handle = 0 then 0 else 2) + (if r.drawn then 4 else 0) + 128) ++
  leBytes 1 gen ++ leBytes 8 r.seed.toNat ++ leBytes 8 handle ++ leBytes 4 r.given ++ leBytes 2 r.tag ++ leBytes 2 0 ++
  leBytes 8 r.tAccept ++ leBytes 8 r.tFirst ++ leBytes 8 now ++ leBytes 4 r.lateSteps ++ leBytes 4 0

/-- KEEP_PREFIX at retirement (08 R245): the handle, 0 if nothing is kept. -/
def State.keepAtEnd (s : State) (p : Loaded) (r : Req) : State × Nat :=
  match r.slot with
  | some slot =>
    match s.slotSeq p slot with
    | some (k, i) =>
      let c := (mget ({} : SeqEnt) (s.ctx k).seqs i).commit
      let n := if r.keepN = 0 then c else r.keepN
      if !r.keep || !s.keep.entropyOk || n = 0 || decide (c < n) then (s, 0)
      else match s.keepPrefix k i n none with | some x => x | none => (s, 0)
    | none => (s, 0)
  | none => (s, 0)

/-- Which retirements deliver what has been produced (08 R246, R247, R254). -/
def Req.delivers (r : Req) (reason : Nat) : Bool :=
  decide (reason < 4) || reason == 5 || (reason == 4 && r.lateDel)

/-- A placed request of a spread plan ends: its peers get a retire record, with the handle of a prefix kept (08 R244; 10 R294). -/
def State.tellRetired (s : State) (p : Loaded) (r : Req) (handle : Nat) : State :=
  match r.slot with
  | some slot =>
    if s.othersOf p = [] then s
    else
      let x : StepRec := { kind := 2, slot := slot, cls := r.cls, flags := if handle = 0 then 0 else 1,
                           n := r.keepN, seed := r.seed, handle := BitVec.ofNat 64 handle }
      s.modPlan p.img.id fun q => { q with recs := q.recs ++ [x] }
  | none => s

/-- A request of plan `p` retires (08 R245, R246, R249): its outputs, KEEP_PREFIX after a normal stop (R246 rows 2 to 4;
DEDUCED, log 47), then its record and vector 4, which announces a record that was written (11 R321, R322). Its slot still names it until `sweep`. -/
def State.retire (s : State) (p : Loaded) (r : Req) (status reason : Nat) : State :=
  let (s, r) := if r.delivers reason then s.giveOuts r p.img.layout else (s, r)
  let (s, h) := if reason ≤ 4 then s.keepAtEnd p r else (s, 0)
  let s := if s.mayWrite r.fn then (s.hostWrite r.fn r.outAddr (r.record status reason s.gen.toNat h s.mtime)).raise r.fn 4 else s
  ((s.countFn r.fn (0x100 + 16 * status + reason)).tellRetired p r h).dropReq r

/-- A request removed by a reset of its function ends at a scheduling point: no record, and no prefix kept (08 R254). -/
def State.removeReq (s : State) (p : Loaded) (r : Req) : State := (s.tellRetired p r 0).dropReq r

/-- A request ends: it is removed, if its function was reset, or retires (08 R254). -/
def State.endReq (s : State) (p : Loaded) (r : Req) (status reason : Nat) : State :=
  if r.removed then s.removeReq p r else s.retire p r status reason

/-- Sequences of retired requests are released and their slots freed (08 R239 step 3). -/
def State.sweep (s : State) (id : Nat) : State :=
  match s.plan id with
  | some p =>
    p.slots.foldl (fun s e =>
      match e.2 with
      | some (fn, rid) =>
        if (s.req fn rid).isSome then s
        else (s.closeSeq p e.1).modPlan id fun q => { q with slots := mset none q.slots e.1 none }
      | none => s) s
  | none => s

/-- Every request of a plan ends at once (08 R254). -/
def State.endRequests (s : State) (p : Loaded) (status reason : Nat) : State :=
  let s := (s.reqs.filter (·.plan == p.img.id)).foldl (fun s r => s.endReq p r status reason) s
  s.sweep p.img.id

/-! ### The class-0 bound and admission (08 R251; 05 R166, R168; 10 R290; 13 R383) -/

/-- The walk of R251 from cycle position `i`, in 1/1,000 ns. -/
def c0Walk (l : Layout) (tau : Nat → Nat) (m : Nat) : Nat → Nat → Nat → Nat → Nat → Option Nat
  | 0, _, _, _, _ => none
  | fuel + 1, i, left, out, t =>
    if m ≤ out then some t
    else
      let k := l.cycle.getD i 0
      let g := l.progs.getD k {}
      let left' := if g.role = 1 then left - g.chunk else left
      let out' :=
        if g.role = 1 then (if 0 < left ∧ left' = 0 then 1 else out)
        else if g.role = 2 ∧ left = 0 then out + 1 else out
      c0Walk l tau m fuel ((i + 1) % l.cycle.length) left' out' (t + tau k)

/-- The class-0 bound of p prompt positions and m tokens (08 R251), in 1/1,000 ns. None: a program of the cycle has no step
entry, or the cycle ends no prompt. -/
def PlanImg.c0Bound (g : PlanImg) (p m : Nat) : Option Nat :=
  match g.cert with
  | none => none
  | some c =>
    let l := g.layout
    let tau (k : Nat) : Nat := c.bound k + 8000000
    if l.cycle.any fun k => !(c.steps.any fun x => x.1 == k) then none
    else
      let walks := (List.range l.cycle.length).map fun i => c0Walk l tau m (l.cycle.length * (p + m) + 1) i p 0 0
      if walks.any (·.isNone) then none
      else some ((walks.filterMap fun x => x).foldl max 0 + (l.cycle.map tau).foldl max 0 + 20000000)

/-- The plane of port `p`, if the port is wired (10 R281). -/
def State.wiredPlane (s : State) (p : Nat) : Option Nat :=
  match s.fab.coords with
  | some c =>
    let x := c.planes.getD p 0xFF
    if x = 0xFF then none else some x
  | none => none

/-- The plane of port `p`, if the port is wired and the configuration image enables it (10 R281). -/
def State.portPlane (s : State) (p : Nat) : Option Nat := if s.boot.portEnable.getLsbD p then s.wiredPlane p else none

/-- Fabric port `p`. -/
def State.port (s : State) (p : Nat) : Port := mget {} s.fab.ports p

/-- The port of a plane is UP (10 R290). -/
def State.planeUp (s : State) (plane : Nat) : Bool :=
  (List.range 16).any fun p => s.portPlane p == some plane && (s.port p).st == .up

/-- Class-0 admission of a plan is suspended: a placement or detour its certificate does not cover (05 R168), a plane on
fallback (10 R290), or a closed C0 slot (13 R383). -/
def State.c0Suspended (s : State) (p : Loaded) : Bool :=
  let cov := match p.img.cert with | some c => c.cover | none => 0
  (p.active.isSome && !cov.getLsbD 0) || (p.started && p.detour.isSome && !cov.getLsbD 1) ||
  (p.img.streams.any fun x => !s.planeUp x.plane) || p.closed.any p.img.layout.resC0

/-- Class-0 service is admitted and not suspended. -/
def State.c0Admitted (s : State) (p : Loaded) : Bool := p.admitted && !s.c0Suspended p

/-- A function holds a class-0 grant (11 R316). -/
def Loaded.grants (p : Loaded) (fn : Nat) : Bool :=
  fn == 0 || p.access.any fun e => (e.1 == fn || e.1 == 0xFFFF) && e.2

/-- Every other module of the plan has reported the selected set RESIDENT (09 R269). -/
def State.peersReady (s : State) (p : Loaded) : Bool := (s.othersOf p).all p.peerResident.contains

/-- The plan drains for a swap: nothing is placed (09 R267, R269). -/
def State.draining (s : State) (p : Loaded) : Bool :=
  match s.weights.sel with
  | some x => x.swapping && !x.switch && x.plans.contains p.img.id && s.peersReady p
  | none => false

/-- The lowest reserved slot that is free (08 R235). -/
def State.freeC0 (s : State) (p : Loaded) : Option Nat :=
  (List.range p.img.layout.slots.length).find? fun i =>
    p.img.layout.resC0 i && (mget none p.slots i).isNone && !p.closed.contains i &&
      !s.reqs.any fun r => r.plan == p.img.id && r.promised == some i && r.slot.isNone

/-! ### Acceptance (08 R234–R236) -/

/-- A field of the request descriptor. -/
def Cmd.desc (c : Cmd) (o n : Nat) : Nat := c.arg o n

/-- Check 2 of R235 fails; an OUT_ADDR that is not 64-byte aligned counts as malformed (DEDUCED, log 48). -/
def State.submitBad (s : State) (fn : Nat) (c : Cmd) (p : Loaded) : Bool :=
  let l := p.img.layout
  let n := c.desc 40 4
  let m := c.desc 52 4
  let h := c.desc 16 8
  decide (2 < c.desc 60 1) || decide (16 ≤ c.desc 61 1) || n == 0 || n % l.inBytes != 0 ||
  decide (l.maxPrompt < n / l.inBytes) || m == 0 || decide (l.maxSeq < n / l.inBytes + m) ||
  (decide (1 < m) && !l.cycle.any fun k => (l.progs.getD k {}).role == 2) ||
  decide (c.desc 44 4 < 64 + l.outBytes) || c.desc 32 8 % 64 != 0 ||
  (h != 0 && !(match s.prefixOf fn h with | some x => x.2.fits l | none => false))

/-- The checks of R235 in order: a status and detail, or the started plan and the class-0 bound. -/
def State.submitCheck (s : State) (fn : Nat) (c : Cmd) : Except (Nat × Nat) (Loaded × Nat) :=
  if s.mode = .withdrawn then .error (stWithdrawn, 0)
  else match s.plans.find? fun p => p.img.id == c.desc 0 8 && p.started with
    | none => .error (stBadArg, 0)
    | some p =>
      let n := c.desc 40 4 / p.img.layout.inBytes
      let c0 := c.desc 60 1 == 0
      let bound := if c0 then p.img.c0Bound n (c.desc 52 4) else some 0
      let dl := c.desc 48 4
      if s.submitBad fn c p then .error (stBadArg, 0)
      else if !p.openTo fn || (c0 && !p.grants fn) || p.img.layout.peer then .error (stNotPerm, 0)
      else match bound with
        | none => .error (stRefused, 4)
        | some w =>
          if c0 && (!s.c0Admitted p || s.mode == .recovering || (dl != 0 && decide (1000000 * dl < w))) then
            .error (stRefused, 4)
          else if (c0 && ((s.freeC0 p).isNone || s.draining p)) || decide (256 ≤ s.pendingOf fn) ||
              decide (16384 ≤ (s.reqs.filter (·.slot.isNone)).length) || (s.findLpns fn p.img.lpns).isNone then
            .error (stBusy, 0)
          else .ok (p, w)

/-- The next REQ_ID of a function (08 R236). -/
def nextReqId (last : Nat) : Nat := if last % 2 ^ 32 = 0xFFFFFFFF then 1 else last % 2 ^ 32 + 1

/-- The request is accepted (08 R236): its record in the firmware region, and the result of SUBMIT. -/
def State.accept (s : State) (fn : Nat) (c : Cmd) (p : Loaded) (bound : Nat) (input : List Byte) : State × List Byte :=
  let l := p.img.layout
  let fl := c.desc 61 1
  let drawn := fl / 4 % 2 == 1
  let (s, seed) := if drawn then s.random 64 else (s, c.desc 8 8)
  let id := nextReqId (mget 0 s.host.lastReq fn)
  let h := c.desc 16 8
  let r : Req :=
    { fn := fn, id := id, plan := p.img.id, seed := BitVec.ofNat 64 seed, cls := c.desc 60 1, outAddr := c.desc 32 8,
      outLen := c.desc 44 4, maxTok := c.desc 52 4, keepN := c.desc 56 4, lateDel := fl % 2 == 1,
      stream := fl / 2 % 2 == 1, drawn := drawn, keep := fl / 8 % 2 == 1, tag := c.desc 62 2,
      deadline := if c.desc 48 4 = 0 then none else some (s.mtime + 1000 * c.desc 48 4),
      input := bytesAt input 0 (c.desc 40 4), prompt := c.desc 40 4 / l.inBytes, handle := h,
      base := (match s.prefixOf fn h with | some x => if h = 0 then 0 else x.2.n | none => 0),
      promised := if c.desc 60 1 = 0 then s.freeC0 p else none,
      lpn := (s.findLpns fn p.img.lpns).getD 0, tAccept := s.mtime }
  let s := { s.modHost fun h => { h with lastReq := mset 0 h.lastReq fn id } with reqs := s.reqs ++ [r] }
  (s.countFn fn 0, leBytes 4 id ++ leBytes 4 ((bound + 999999) / 1000000) ++ leBytes 8 seed)

end Sys2Proof.Machine
end

