-- ==== Sys2Proof/Machine/Swap.lean ====
section
/-! DEFINITION. Weight selects: loading, the swap and how a select ends (chapter 09, R264–R270). -/

namespace Sys2Proof.Machine

/-! ### The directory (09 R257) -/

/-- The newer of the copies whose digests are correct is copy 1. -/
def Store.second (x : Store) : Bool := x.diff1 == 0 && (x.diff0 != 0 || decide (x.seq0 < x.seq1))

/-- The directory copy in force: of those whose digest is correct, the one with the higher sequence number; with none, there is no entry. -/
def Store.dir (x : Store) : SMap (Option DirEnt) := if x.second then x.dir1 else if x.diff0 = 0 then x.dir0 else []

/-- A stored set (09 R257): STATE 2. -/
def Store.entry (x : Store) (i : Nat) : Option DirEnt :=
  match mget none x.dir i with | some e => if e.st = 2 then some e else none | none => none

/-- The image of a stored set. -/
def Store.image (x : Store) (i : Nat) : WImage :=
  match x.entry i with | some e => (mget none x.lib e.first).getD {} | none => {}

/-- The stored image of a set digest. -/
def Store.byDigest (x : Store) (d : BitVec 512) : Option WImage :=
  ((List.range 1024).find? fun i => match x.entry i with | some e => e.setDigest == d | none => false).map x.image

/-- The panel of a record. -/
def recKey (r : PanelRec) : Nat := pkey (72 * r.die + r.bay) r.panel

/-- A record head's 16 bytes, as a number (09 R259). -/
def recHead (r : PanelRec) : Nat :=
  r.die + 2 ^ 8 * r.bay + 2 ^ 16 * r.panel + 2 ^ 24 * (r.width + if r.sgn then 4 else 0) + 2 ^ 27 * fld r.rsv 0 5 + 2 ^ 32 * r.layer +
  2 ^ 48 * fld r.rsv 5 80

/-- A panel record's bytes (09 R259). -/
def recBytes9 (r : PanelRec) : List Byte :=
  leBytes 16 (recHead r) ++ (List.range 1024).flatMap fun i => leBytes 128 (mget 0 r.rows i).toNat

/-- The record matches its panel digest (09 R260). -/
def recOk (r : PanelRec) : Bool := Config.shake256 (recBytes9 r) == r.digest

/-- The header of an image (09 R259), with a value for SET_DIGEST. -/
def imgHeader (img : WImage) (set : BitVec 512) : List Byte :=
  leBytes 4 img.magic ++ leBytes 2 img.format ++ leBytes 2 (fld img.rsv 0 16) ++ leBytes 4 img.nPanels ++ leBytes 2 img.layers ++
  leBytes 2 (fld img.rsv 16 16) ++ leBytes 32 img.name.toNat ++ leBytes 16 img.model.toNat ++ leBytes 2 img.slice ++ leBytes 2 img.slices ++
  leBytes 4 (fld img.rsv 32 32) ++ leBytes 64 img.layoutDigest.toNat ++ leBytes 64 set.toNat ++ leBytes 312 (fld img.rsv 64 2496)

/-- The set digest over a panel digest table (09 R260). -/
def setDigestOf (img : WImage) (table : List (BitVec 512)) : BitVec 512 :=
  Config.shake256 (imgHeader img 0 ++ table.flatMap fun d => leBytes 64 d.toNat)

/-- The set digest recomputed from an image's own table (09 R266). -/
def imgSet (img : WImage) : BitVec 512 := setDigestOf img (img.records.map (·.digest))

/-- The layout digest (09 R260). -/
def imgLayout (img : WImage) : BitVec 512 := Config.shake256 (img.records.flatMap fun r => leBytes 16 (recHead r))

/-- The computed digests match the image's table and header (09 R263 step 5). -/
def imgDigestsOk (img : WImage) : Bool := img.records.all recOk && imgLayout img == img.layoutDigest && imgSet img == img.setDigest

/-- A record as the bank's record once it is loaded or while it loads. -/
def recBank (r : PanelRec) (img : WImage) (st : BankSt) : BankRec :=
  { st := st, set := img.setDigest, layout := img.layoutDigest, panel := r.digest, layer := r.layer, head := recHead r }

/-! ### Banks -/

/-- The live bank of a panel. -/
def State.liveBank (s : State) (k : Nat) : Nat := (s.panel k).resolve .live

/-- The back bank of a panel. -/
def State.backBank (s : State) (k : Nat) : Nat := (s.panel k).resolve .back

/-- A panel's live bank holds a set LIVE. -/
def State.holdsLive (s : State) (k : Nat) (d : BitVec 512) : Bool :=
  let r := s.bankRec k (s.liveBank k)
  r.st == .live && r.set == d

/-- A panel's back bank holds a set RESIDENT. -/
def State.holdsBack (s : State) (k : Nat) (d : BitVec 512) : Bool :=
  let r := s.bankRec k (s.backBank k)
  r.st == .resident && r.set == d

/-- The bank of a panel in which a select's set is RESIDENT. -/
def State.selBank (s : State) (k : Nat) (d : BitVec 512) : Nat :=
  let r := s.bankRec k 0
  if r.st = .resident ∧ r.set = d then 0 else 1

/-- The records of a panel flip: the selected set is LIVE, the set that was live is RESIDENT (09 R267). -/
def State.flipRec (s : State) (k : Nat) (d : BitVec 512) : State :=
  let n := s.selBank k d
  let o := s.bankRec k (1 - n)
  (s.setBank k n { s.bankRec k n with st := .live }).setBank k (1 - n) (if o.st = .live then { o with st := .resident } else o)

/-- A bay has no flip of a panel to come (09 R268, R270). -/
def Bay.forgetFlip (y : Bay) (p : Nat) : Bay :=
  let keep : BitVec 32 := ~~~(BitVec.ofNat 32 (2 ^ p))
  { y with flipsDue := y.flipsDue &&& keep, holds := y.holds.foldl (fun m e => mset 0 m e.1 (e.2 &&& keep)) y.holds }

/-- A panel flips at once: a flip that its bay still held is done with it (09 R270). -/
def State.flipNow (s : State) (k : Nat) (d : BitVec 512) : State :=
  let n := s.selBank k d
  ((s.flipRec k d).modPanel k fun x => { x with live := n == 1 }).modBay (k / 32) fun y => y.forgetFlip (k % 32)

/-- WIDTH and SIGNED of a bank are written (09 R265); they take effect at a stroke boundary (02 R70). -/
def State.setFormat (s : State) (k bank : Nat) (width : Nat) (sgn : Bool) : State :=
  let w := BitVec.ofNat 2 width
  (s.modPanel k fun x => { x with stg :=
    if bank = 0 then { x.stg with wA := some w, sgnA := some sgn } else { x.stg with wB := some w, sgnB := some sgn } }).boundaryIf
    (k / 32)

/-! ### How a select ends -/

/-- Update the select in progress. -/
def State.modSel (s : State) (f : Select → Select) : State :=
  { s with weights := { s.weights with sel := s.weights.sel.map f } }

/-- No select is in progress. -/
def State.clearSel (s : State) : State := { s with weights := { s.weights with sel := none } }

/-- The waiting command is WEIGHTS_SELECT. -/
def WaitKind.isSelect : WaitKind → Bool | .select => true | _ => false

/-- The select completes with OK; after a swap snag 0x9210 (09 R266, R267). -/
def State.finishSelect (s : State) : State :=
  match s.weights.sel with
  | some x =>
    let s := if x.swapping then s.snagCtl 0x9210 0 [x.idx, if x.switch then 1 else 0, x.flips.length, x.stepNs] else s
    s.clearSel.completeWaits WaitKind.isSelect stOk 0 []
  | none => s

/-- The select ends without OK: its back banks return to EMPTY; snag 0x9212, cause 0 fence, 1 withdrawn, 2 store read error
(09 R266, R270). -/
def State.endSelect (s : State) (status detail cause : Nat) : State :=
  match s.weights.sel with
  | some x =>
    let d := (s.store.image x.idx).setDigest
    let s := (if x.swapping then x.toFlip else x.cover).foldl (fun s k =>
      let b := s.backBank k
      let r := s.bankRec k b
      if r.set = d ∧ (r.st = .loading ∨ r.st = .resident) then s.setBank k b {} else s) s
    let s := s.snagCtl 0x9212 1 [x.idx, cause, x.load.length - x.left.length, 0]
    s.clearSel.completeWaits WaitKind.isSelect status detail []
  | none => s

/-! ### The swap (09 R267–R269) -/

/-- The select's set digest. -/
def State.selDigest (s : State) : BitVec 512 :=
  match s.weights.sel with | some x => (s.store.image x.idx).setDigest | none => 0

/-- Panels of a plan that the swap has still to flip. -/
def State.toFlipOf (s : State) (p : Loaded) : List Nat :=
  match s.weights.sel with
  | some x => x.toFlip.filter fun k => p.bays.any fun e => e.bay == k / 32
  | none => []

/-- A plan has passed its swap point; the select completes after the last. -/
def State.planSwapped (s : State) (p : Loaded) : State :=
  let l := s.toFlipOf p
  let s := s.modSel fun x => { x with plans := x.plans.filter (· != p.img.id), toFlip := x.toFlip.filter fun k => !l.contains k }
  match s.weights.sel with
  | some x => if x.plans = [] then s.finishSelect else s
  | none => s

/-- The panels of a plan flip at once: DRAIN, or the plan stops (09 R267, R270). -/
def State.flipPlan (s : State) (p : Loaded) : State :=
  let d := s.selDigest
  ((s.toFlipOf p).foldl (fun s k => s.flipNow k d) s).planSwapped p

/-- The plan has a swap point to come. -/
def State.swapDue (s : State) (p : Loaded) : Bool :=
  match s.weights.sel with | some x => x.swapping && x.plans.contains p.img.id | none => false

/-- A plan under DRAIN with nothing placed and no step in flight flips at once (09 R267); a spread plan waits for its step
order (R269). -/
def State.drainIdle (s : State) (p : Loaded) : State :=
  if s.draining p && s.othersOf p == [] && !p.img.layout.peer && p.step.isNone && p.rerun.isNone &&
      p.slots.all (fun e => e.2.isNone) then s.flipPlan p else s

/-- The swap begins (09 R267): panels no started plan uses flip at once; the others at their plans' swap points. -/
def State.beginSwap (s : State) : State :=
  match s.weights.sel with
  | some x =>
    let d := s.selDigest
    let used (k : Nat) : Bool := s.plans.any fun p => p.started && !p.stopping && p.bays.any fun e => e.bay == k / 32
    let ps := s.plans.filter fun p => p.started && !p.stopping && x.flips.any fun k => p.bays.any fun e => e.bay == k / 32
    let s := (x.flips.filter fun k => !used k).foldl (fun s k => s.flipNow k d) s
    let s := s.modSel fun x => { x with swapping := true, plans := ps.map (·.img.id), toFlip := x.flips.filter used }
    if ps = [] then s.finishSelect else ps.foldl (fun s p => s.drainIdle p) s
  | none => s

/-- Layers of a plan's panels still to flip on a bay, with their masks (09 R268). -/
def State.holdsFor (s : State) (p : Loaded) (b : Nat) : List (Nat × BitVec 32) :=
  let l := ((s.toFlipOf p).filter fun k => k / 32 == b).map fun k => ((s.bankRec k (s.selBank k s.selDigest)).layer, k % 32)
  ((l.map (·.1)).dedup).map fun y => (y, BitVec.ofNat 32 (((l.filter (·.1 == y)).map fun e => 2 ^ e.2).sum))

/-- SWAP_ARM to every covered bay of a plan (09 R268). -/
def State.armSwap (s : State) (p : Loaded) : State :=
  p.bays.foldl (fun s e =>
    let h := s.holdsFor p e.bay
    if h = [] then s else s.toBay e.bay (.swapArm s.gen h)) s

/-- SWAP_FLIP in ascending layer order (09 R268). -/
def State.sendFlips (s : State) (p : Loaded) : State :=
  let l := p.bays.flatMap fun e => (s.holdsFor p e.bay).map fun h => (h.1, e.bay)
  (l.mergeSort fun a b => decide (a.1 < b.1) || (a.1 == b.1 && decide (a.2 ≤ b.2))).foldl
    (fun s x => s.toBay x.2 (.swapFlip s.gen x.1)) s

/-- The SWITCH swap step of a plan has completed (09 R267): its panels' records flip. -/
def State.swapDone (s : State) (p : Loaded) (ns : Nat) : State :=
  if s.swapDue p then
    let d := s.selDigest
    (((s.toFlipOf p).foldl (fun s k => s.flipRec k d) s).modSel fun x => { x with stepNs := ns }).planSwapped p
  else s

/-- The rollback of an interrupted swap step (09 R270): every panel already flipped in it toggles back. -/
def State.rollback (s : State) (p : Loaded) : State :=
  let d := s.selDigest
  (s.toFlipOf p).foldl (fun s k =>
    let n := s.selBank k d
    s.modPanel k fun x => { x with live := n == 0 }) s

/-! ### Loading (09 R264–R266) -/

/-- The records of the select's set are sent for the panels of a list. -/
def State.sendRows (s : State) (l : List Nat) : State :=
  match s.weights.sel with
  | some x =>
    (s.store.image x.idx).records.foldl (fun s r =>
      if l.contains (recKey r) then
        s.toBay (recKey r / 32) (.weightRows s.gen r.panel (s.backBank (recKey r)) r.rows)
      else s) s
  | none => s

/-- A select starts, its checks passed (09 R264, R265). A failed device keeps every set from loading (R256): the select ends
with FAULT (DEDUCED, log 49). During a recovery no row is sent before resume (13 R378). -/
def State.beginSelect (s : State) (idx : Nat) (loadOnly switch : Bool) (cmd : Option Nat) : State :=
  let img := s.store.image idx
  let d := img.setDigest
  let cover := img.records.map recKey
  let flips := cover.filter fun k => !s.holdsLive k d
  let load := flips.filter fun k => !s.holdsBack k d
  if flips = [] then s.completeWaits WaitKind.isSelect stOk 0 []
  else
    let x : Select := { idx := idx, loadOnly := loadOnly, switch := switch, cmd := cmd, cover := cover, load := load,
                        left := load, flips := if loadOnly then [] else flips }
    let s := { s with weights := { s.weights with sel := some x } }
    if load = [] then (if loadOnly then s.finishSelect else s.beginSwap)
    else if s.weights.devBad ≠ 0 then s.endSelect stFault 0x92120000 2
    else
      let s : State := img.records.foldl (fun s r =>
        if load.contains (recKey r) then
          let b := s.backBank (recKey r)
          (s.setFormat (recKey r) b r.width r.sgn).setBank (recKey r) b (recBank r img .loading)
        else s) s
      if s.mode = .recovering then s else s.sendRows load

/-- A load completes (09 R266): every record has matched; the set digest is recomputed. -/
def State.loadDone (s : State) : State :=
  match s.weights.sel with
  | some x =>
    let img := s.store.image x.idx
    let s := x.load.foldl (fun s k =>
      let b := s.backBank k
      let r := s.bankRec k b
      if r.set = img.setDigest then s.setBank k b { r with st := .resident } else s) s
    if x.loadOnly then s.finishSelect else s.beginSwap
  | none => s

/-! ### What keeps a select from running (09 R264 check 5, R268) -/

/-- The stroke has a panel operation on the live bank. -/
def liveOp (w : BitVec 256) : Bool := (stKind w == 1 || stKind w == 2) && sw w 2 2 2 == 0 && stPanels w != []

/-- A bay's strokes from stroke `i` on keep the barrier rules; `run` is the layer of the run stroke `i` may continue and
whether its first stroke has BARRIER (09 R268). -/
def State.barrierOk (s : State) (e : PBay) : Nat → Option (Nat × Bool) → List (BitVec 256) → Bool
  | _, _, [] => true
  | i, run, w :: l =>
    let y := stLayer w
    let b := match run with
      | some (x, b) => if x = y ∧ e.entries.contains i = false then b else stBarrier w
      | none => stBarrier w
    (!liveOp w || (b && (stPanels w).all fun p =>
      let k := pkey e.bay p
      (s.bankRec k (s.liveBank k)).layer == y)) &&
    s.barrierOk e (i + 1) (if stEnd w then none else some (y, b)) l

/-- Check 5 of R264 fails for a set. -/
def State.selectBlocked (s : State) (img : WImage) (switch : Bool) : Bool :=
  let cover := img.records.map recKey
  s.plans.any fun p =>
    let hit (l : List Nat) : Bool := l.any fun k => p.bays.any fun e => e.bay == k / 32
    p.started && ((hit cover && (p.wlayout != img.layoutDigest || p.active.isSome)) ||
      (switch && hit (cover.filter fun k => !s.holdsLive k img.setDigest) &&
        !(p.img.layout.marked && p.bays.all fun e => s.barrierOk e 0 none e.strokes)))

/-- Start-up weight sets (15 R421): each stored set is selected in turn; a set that is not stored logs snag 0x9020, and
one that check 5 of R264 refuses is passed over. -/
def State.runStarts : List (Nat × Bool × Bool) → State → State
  | [], s => { s with weights := { s.weights with startQ := [] } }
  | e :: l, s =>
    if s.weights.sel.isSome then { s with weights := { s.weights with startQ := e :: l } }
    else if (s.store.entry e.1).isNone then State.runStarts l (s.snagCtl 0x9020 1 [e.1])
    else if s.selectBlocked (s.store.image e.1) false then State.runStarts l s
    else State.runStarts l (s.beginSelect e.1 (e.2.1 && !e.2.2) false none)

/-- The next start-up weight set starts when no select is in progress. -/
def State.pumpStarts (s : State) : State :=
  if s.weights.sel.isNone && s.weights.startQ != [] then State.runStarts s.weights.startQ s else s

end Sys2Proof.Machine
end

