-- ==== Sys2Proof/Machine/Steps.lean ====
section
/-! DEFINITION. Batch steps: releases, the step monitor, results, scheduling points (chapter 08; 05 R169–R171; 13 R361, R362;
10 R294–R296). -/

namespace Sys2Proof.Machine

/-! ### Arming audit runs (13 R361, R362) -/

/-- A bay is fenced (13 R373). -/
def State.fenced (s : State) (b : Nat) : Bool := mget 0 s.resil.fences b != 0 || s.rtrFenced b

/-- The keyed hash arms an audit run at a step (13 R361): the run's first stroke is two bytes (DEDUCED, log 50). -/
def State.armsRun (s : State) (p : Loaded) (step : Nat) (x : Pair) : Bool :=
  let h := Config.shake256 (leBytes 8 s.boot.auditSalt.toNat ++ leBytes 64 p.img.digest.toNat ++ leBytes 4 step ++
    leBytes 1 (dieOf x.abay) ++ leBytes 1 (bayOf x.abay) ++ leBytes 2 x.afirst)
  decide (fld h 0 8 < s.resil.armRate.toNat)

/-- Take pairs in order while both bays have a watch to spare (13 R361). -/
def takePairs : List Pair → (Nat → Nat) → List Pair
  | [], _ => []
  | x :: l, n =>
    if n x.obay < 16 ∧ n x.abay < 16 then
      x :: takePairs l (fun b => n b + (if b = x.obay then 1 else 0) + (if b = x.abay then 1 else 0))
    else takePairs l n

/-- The pairs armed for a step of a program; those of `again` are armed whatever the hash says (13 R361, R363). -/
def State.armed (s : State) (p : Loaded) (prog step : Nat) (again : List Pair) : List Armed :=
  let l := ((pairsOf p.live).filterMap (·.1)).filter fun x =>
    x.prog == prog && !s.fenced x.obay && !s.fenced x.abay && (again.contains x || s.armsRun p step x)
  (takePairs (l.mergeSort fun a b => decide (a.astroke ≤ b.astroke)) fun _ => 0).map fun x =>
    { pair := x, again := again.contains x }

/-- AUDIT_ARM to both bays of each armed pair (13 R362). -/
def State.sendArms (s : State) (l : List Armed) : State :=
  l.foldl (fun s a =>
    (s.toBay a.pair.abay (.auditArm s.gen a.pair.astroke)).toBay a.pair.obay (.auditArm s.gen a.pair.ostroke)) s

/-! ### Releases (05 R141, R169; 08 R240, R241) -/

/-- The bay is an anchor of program `k`: the stroke that ends it has ANCHOR (05 R169). -/
def PBay.anchor (e : PBay) (k : Nat) : Bool := match (e.program k).getLast? with | some w => stEnd w.1 && stAnchor w.1 | none => false

/-- A request is in the program's phase (08 R240). -/
def Prog.takes (g : Prog) (r : Req) : Bool :=
  if g.role = 1 then decide (r.sent < r.prompt) else if g.role = 2 then decide (r.prompt ≤ r.sent) else false

/-- The request in a slot. -/
def State.inSlot (s : State) (p : Loaded) (slot : Nat) : Option Req :=
  match mget none p.slots slot with | some (fn, id) => s.req fn id | none => none

/-- The next position of a request to compute (08 R240). Without context memory the commit pointer stands at the last output
position (DEDUCED, log 51). -/
def State.basePos (s : State) (p : Loaded) (slot : Nat) (r : Req) : Nat :=
  if r.sent < r.prompt then r.base + r.sent
  else match s.slotSeq p slot with
    | some (k, i) => (mget ({} : SeqEnt) (s.ctx k).seqs i).commit
    | none => r.base + r.prompt + r.outs.length - 1

/-- The slot table of a program (08 R240). -/
def State.slotTable (s : State) (p : Loaded) (prog : Nat) : List SlotEnt :=
  let g := p.img.layout.progs.getD prog {}
  (List.range p.img.layout.slots.length).map fun i =>
    match s.inSlot p i with
    | some r => if g.takes r then { seed := r.seed, pos := BitVec.ofNat 32 (s.basePos p i r), valid := true } else {}
    | none => {}

/-- Where a program's inputs go (08 R237, 13 R374): bay and first line. -/
def Loaded.inputAt (p : Loaded) (prog : Nat) : Nat × Nat :=
  let g := p.img.layout.progs.getD prog {}
  match p.active with
  | some f =>
    let x := f.inputs.getD prog (0xFF, 0, 0)
    if x.1 = 0xFF then (72 * g.die + g.bay, g.line) else (72 * x.1 + x.2.1, x.2.2)
  | none => (72 * g.die + g.bay, g.line)

/-- The bytes a slot's input consists of (08 R241). -/
def Req.stepInput (r : Req) (l : Layout) (g : Prog) : List Byte :=
  if g.role = 1 then (r.input.drop (r.sent * l.inBytes)).take (min g.chunk (r.prompt - r.sent) * l.inBytes)
  else if l.tensor then [] else r.outs.getLast?.getD []

/-- Whole lines of bytes, the last filled with zeros, in messages of up to 256 lines (06 R428). -/
def messages : Nat → Nat → List Byte → List (Nat × List Byte)
  | 0, _, _ => []
  | n + 1, line, b =>
    if b = [] then []
    else
      let x := b.take 16384
      (line, x ++ List.replicate ((64 - x.length % 64) % 64) 0) :: messages n (line + 256) (b.drop 16384)

/-- The step's inputs are written (08 R241). -/
def State.sendInputs (s : State) (p : Loaded) (run : StepRun) : State :=
  let g := p.img.layout.progs.getD run.prog {}
  let a := p.inputAt run.prog
  run.slots.zipIdx.foldl (fun s e =>
    match (if e.1.valid then s.inSlot p e.2 else none) with
    | some r =>
      let b := r.stepInput p.img.layout g
      (messages (b.length + 1) (a.2 + e.2 * g.lines) b).foldl (fun s m => s.toBay a.1 (.spWrite s.gen m.1 m.2)) s
    | none => s) s

/-- The step order to every other module of the plan (08 R244, 10 R294). -/
def State.sendOrders (s : State) (p : Loaded) (run : StepRun) (rerun : Bool) : State :=
  (s.othersOf p).foldl (fun s a =>
    s.sendFab a p.session (if p.admitted then 0 else 1)
      (.stepOrder p.img.id run.no run.prog run.swap rerun run.slots (if rerun then [] else p.recs))) s

/-- A step of a plan is released (08 R239 steps 6 and 7; 13 R361; 09 R267–R269). `run` gives its program, its slot table and
the pairs to be armed again; `drained` says that a spread plan under DRAIN has nothing placed. On a peer `run.swap` is the step
order's swap flag (09 R269). Bays whose entry for the
program is unused get no release (DEDUCED, log 52). -/
def State.sendStep (s : State) (p : Loaded) (run : StepRun) (rerun drained : Bool) : State :=
  let peer := p.img.layout.peer
  let due := s.swapDue p && !rerun && (if peer then run.swap else s.peersReady p)
  let sw := match s.weights.sel with | some x => due && x.switch | none => false
  let others := if peer then [] else s.othersOf p
  let bays := p.live.filter fun e => e.entries.getD run.prog 0xFFFF != 0xFFFF
  let arms := s.armed p run.prog run.no ((run.arms.filter (·.again)).map (·.pair))
  let flip := due && !sw && (drained || peer)
  let run : StepRun := { prog := run.prog, slots := run.slots, no := run.no, order := run.order, released := s.now, peers := others, arms := arms, swap := sw || flip,
                         waiting := (bays.filter fun e => e.anchor run.prog).map (·.bay) }
  let s := s.sendArms arms
  let s := if peer then s else s.sendInputs p run
  let s := if sw then s.armSwap p else if flip then s.flipPlan p else s
  let s := if peer then s else s.sendOrders p run rerun
  let s := bays.foldl (fun s e => s.toBay e.bay (.release s.gen run.prog run.slots)) s
  let s := if sw then s.sendFlips p else s
  s.modPlan p.img.id fun q =>
    { q with step := some run, rerun := none, stepNo := if rerun then q.stepNo else q.stepNo + 1,
             recs := if rerun then q.recs else [], peerResident := if sw || flip then [] else q.peerResident }

/-! ### The step monitor (05 R169–R171) -/

/-- Intrusion sources recorded since a moment (05 R171); those that act now count. -/
def State.intrusions (s : State) (p : Loaded) (since : Nat) : Nat :=
  let leaves := p.live.map fun e => leafOf e.bay
  let now (b : Nat) : Bool :=
    (b == 0 && s.pwr.sagActing) || (b == 1 && leaves.any fun l => s.leafDiv l != 0 || s.leafSkip l != 0)
  ((List.range 8).map fun b => if now b || (s.intr.any fun e => e.1 == b && decide (since ≤ e.2)) then 2 ^ b else 0).sum

/-- A step of a plan is late (05 R170, 08 R248): its C0 requests take a late mark, once; snag 0x2070 is logged, or the step is
folded into the next. -/
def State.markLate (s : State) (p : Loaded) (run : StepRun) (measured : Nat) : State :=
  if run.late then s
  else
    let s := run.slots.zipIdx.foldl (fun s e =>
      match (if e.1.valid then s.inSlot p e.2 else none) with
      | some r => if r.cls = 0 then s.modReq r.fn r.id fun r => { r with late := true, lateSteps := r.lateSteps + 1 } else s
      | none => s) s
    let bound := match p.img.cert with | some c => (c.bound run.prog + 999) / 1000 | none => 0
    let first := match p.lateAt with | some t => decide (t + 10000000 ≤ s.now) | none => true
    let s := if first then
        s.snagCtl 0x2070 1 [p.img.id, run.prog * 2 ^ 32 + p.folded, measured * 2 ^ 32 + bound, s.intrusions p run.released]
      else s
    s.modPlan p.img.id fun q =>
      { q with lateAt := if first then some s.now else q.lateAt, folded := if first then 0 else q.folded + 1,
               step := q.step.map fun r => { r with late := true } }

/-- A step's measured duration is known (05 R169, R170). -/
def State.measure (s : State) (id ns : Nat) : State :=
  let s := s.modPlan id fun q => { q with step := q.step.map fun r => { r with measured := ns } }
  match s.plan id with
  | some p =>
    match p.step, p.img.cert with
    | some run, some c => if c.late run.prog ns then s.markLate p run ns else s
    | _, _ => s
  | none => s

/-- Every VALID slot's result has arrived. -/
def StepRun.answered (r : StepRun) : Bool :=
  r.slots.zipIdx.all fun e => !e.1.valid || (mget none r.results e.2).isSome

/-- A peer's report of its step (10 R294, R295; 09 R269). -/
def State.sendReport (s : State) (id : Nat) : State :=
  match s.plan id with
  | some p =>
    match p.step with
    | some run => s.sendFab run.order p.session (if p.admitted then 0 else 1)
      (.stepReport id run.no run.late (s.swapDue p) run.measured)
    | none => s
  | none => s

/-- A step has completed (08 R239, R244); a program without anchor bays is measured to its last result (DEDUCED, log 53). A
peer reports (10 R295). -/
def State.stepCheck (s : State) (id : Nat) : State :=
  match s.plan id with
  | some p =>
    match p.step with
    | some run =>
      if run.doneAt.isSome || run.waiting != [] || run.peers != [] || !(run.answered || p.img.layout.peer) then s
      else
        let s := if p.live.any fun e => e.anchor run.prog then s else s.measure id (s.now - run.released)
        let s := s.modPlan id fun q => { q with step := q.step.map fun r => { r with doneAt := some s.now } }
        if p.img.layout.peer then
          match s.plan id with
          | some q => (if run.swap then s.swapDone q ((q.step.map (·.measured)).getD 0) else s).sendReport id
          | none => s
        else s
    | none => s
  | none => s

end Sys2Proof.Machine
end

