-- ==== Sys2Proof/Machine/Serving.lean ====
section
/-! DEFINITION. Scheduling points and the commands of requests, steps and prefixes (chapter 08; 11 R314, R317). -/

namespace Sys2Proof.Machine

/-! ### Results (08 R242, R246) -/

/-- The output positions a result adds to a request, and whether an END_TOKEN is among them (08 R246): those after an
END_TOKEN and those beyond MAX_TOKENS or the buffer are discarded. A token that is the plan's END_TOKEN ends the request,
and so does FLAGS[0] where no token is (08 R242, log 95). -/
def Req.takeOuts (r : Req) (l : Layout) (x : Result) : List (List Byte) × Bool :=
  let hit := if l.tensor || l.endToken == 0xFFFFFFFF then none else x.outs.findIdx? fun b => leNat b == l.endToken
  let cut := match hit with | some i => x.outs.take (i + 1) | none => x.outs
  let room := min r.maxTok (r.room l) - r.outs.length
  (cut.take room, (hit.isSome || x.endTok && !l.tensor) && decide (cut.length ≤ room))

/-- Status of a normal end (08 R246, R248). -/
def Req.status (r : Req) : Nat := if r.late then stLate else stOk

/-- The sequence of a slot has its FAULT bit, or its die has left service (08 R246, 13 R383). -/
def State.slotFault (s : State) (p : Loaded) (slot : Nat) : Bool :=
  p.closed.contains slot ||
    match s.slotSeq p slot with | some (k, i) => (mget ({} : SeqEnt) (s.ctx k).seqs i).fault | none => false

/-- A VALID slot's result is delivered and its request tested for retirement (08 R239 step 1, R246, R247). -/
def State.deliverSlot (s : State) (p : Loaded) (run : StepRun) (slot : Nat) : State :=
  match s.inSlot p slot with
  | none => s
  | some r =>
    let l := p.img.layout
    let g := l.progs.getD run.prog {}
    let x := (mget none run.results slot).getD default
    if r.removed then s.removeReq p r
    else if x.ctxErr || s.slotFault p slot then s.retire p r stFault 5
    else
      let o := r.takeOuts l x
      let r := { r with sent := if g.role = 1 then min r.prompt (r.sent + g.chunk) else r.sent, outs := r.outs ++ o.1 }
      if s.passed r then s.retire p r stLate 4
      else if o.2 then s.retire p r r.status 0
      else if r.maxTok ≤ r.outs.length then s.retire p r r.status 1
      else if r.room l ≤ r.outs.length then s.retire p r r.status 2
      else if r.cancel then s.retire p r r.status 3
      else
        let y := if r.stream then s.giveOuts r l else (s, r)
        y.1.modReq r.fn r.id fun _ => y.2

/-- A placed request that was not in the completed step: its slot has closed, its deadline has passed, or a CANCEL is pending
(DEDUCED from R247, R250 and 13 R383, log 54). -/
def State.testPlaced (s : State) (p : Loaded) (slot : Nat) : State :=
  match s.inSlot p slot with
  | none => s
  | some r =>
    if r.removed then s.removeReq p r
    else if s.slotFault p slot then s.retire p r stFault 5
    else if s.passed r then s.retire p r stLate 4
    else if r.cancel then s.retire p r r.status 3
    else s

/-- Slots of a plan. -/
def Loaded.slotList (p : Loaded) : List Nat := List.range p.img.layout.slots.length

/-- Steps 1 and 2 of a scheduling point (08 R239): results, retirement, and pending requests whose deadline has passed. -/
def State.deliverAll (s : State) (p : Loaded) : State :=
  let run := p.step.getD { prog := 0, slots := [] }
  let valid (i : Nat) : Bool := (run.slots.getD i {}).valid
  let s := (p.slotList.filter valid).foldl (fun s i => s.deliverSlot p run i) s
  let s := (p.slotList.filter fun i => !valid i).foldl (fun s i => s.testPlaced p i) s
  (s.reqs.filter fun r => r.plan == p.img.id && r.slot.isNone).foldl (fun s r =>
    if r.removed then s.removeReq p r else if s.passed r then s.retire p r stLate 4 else s) s

/-- The request a free slot takes (08 R238). -/
def State.nextFor (s : State) (p : Loaded) (slot : Nat) : Option Req :=
  let l := s.reqs.filter fun r => r.plan == p.img.id && r.slot.isNone
  if p.img.layout.resC0 slot then l.find? fun r => r.cls == 0 && r.promised == some slot
  else (l.find? fun r => r.cls == 1).or (l.find? fun r => r.cls == 2)

/-- A request is placed in a slot (08 R238, R245): its sequence and map entry; a spread plan's peers get a set-up record. -/
def State.place (s : State) (p : Loaded) (slot : Nat) : State :=
  if (mget none p.slots slot).isSome || p.closed.contains slot then s
  else match s.nextFor p slot with
    | none => s
    | some r =>
      let pre := if r.handle = 0 then none else (s.prefixOf r.fn r.handle).map (·.2)
      let s := (s.modReq r.fn r.id fun r => { r with slot := some slot }).modPlan p.img.id fun q =>
        { q with slots := mset none q.slots slot (some (r.fn, r.id)) }
      let s := s.openSeq p slot r.fn r.lpn r.cls r.seed (r.handle != 0) pre none
      if s.othersOf p = [] then s
      else
        let x : StepRec := { kind := 1, slot := slot, cls := r.cls,
                             flags := (if r.keep then 1 else 0) + (if r.handle = 0 then 0 else 2), n := r.base,
                             seed := r.seed, handle := BitVec.ofNat 64 r.handle }
        s.modPlan p.img.id fun q => { q with recs := q.recs ++ [x] }

/-- The next cycle position whose program has a slot in its phase (08 R240): the position after it, and the program. -/
def State.nextProg (s : State) (p : Loaded) : Option (Nat × Nat) :=
  let n := p.img.layout.cycle.length
  (((List.range n).map fun i => (p.pos + i) % n).find? fun i =>
    let g := p.img.layout.progs.getD (p.img.layout.cycle.getD i 0) {}
    p.slotList.any fun j => match s.inSlot p j with | some r => g.takes r | none => false).map fun i =>
      ((i + 1) % n, p.img.layout.cycle.getD i 0)

/-- Steps 6 and 7: the next cycle position, its inputs and its release. -/
def State.launch (s : State) (id : Nat) (drained : Bool) : State :=
  match s.plan id with
  | some p =>
    match s.nextProg p with
    | some (pos, k) =>
      (s.modPlan id fun q => { q with pos := pos }).sendStep p
        { prog := k, slots := s.slotTable p k, no := p.stepNo } false drained
    | none => s
  | none => s

/-- A scheduling point of a plan (08 R239; 09 R267): the completed step's SWITCH swap is done; results, retirement,
placement and the next release. -/
def State.schedule (s : State) (p : Loaded) : State :=
  let id := p.img.id
  let s := match p.step with | some run => if run.swap then s.swapDone p run.measured else s | none => s
  let s := ((s.deliverAll p).modPlan id fun q => { q with step := none }).sweep id
  match s.plan id with
  | none => s
  | some p =>
    let empty := p.slots.all fun e => e.2.isNone
    if s.draining p && !empty then s.launch id false
    else
      let spread := s.draining p && s.othersOf p != []
      let s := s.drainIdle p
      let s := p.slotList.foldl (fun s i => match s.plan id with | some p => s.place p i | none => s) s
      s.launch id spread

/-- The signatures of an armed pair have arrived, or 1 ms after the step the missing one has been reported (13 R357, R362). -/
def State.signed (s : State) (done : Nat) (a : Armed) : Bool :=
  (a.osig.isSome && a.asig.isSome) || (a.judged && decide (done + 1000000 ≤ s.now))

/-- A scheduling point is due (08 R239, 13 R357): the step has completed 2 µs ago, no detector has faulted it and its
signatures are in; or no step is in flight (log 55). -/
def State.pointDue (s : State) (p : Loaded) : Bool :=
  s.mode == .serving && p.started && !p.stopping && !p.img.layout.peer && p.rerun.isNone &&
  match p.step with
  | none => true
  | some run =>
    match run.doneAt with
    | some d => !run.faulted && decide (d + 2000 ≤ s.now) && run.arms.all (s.signed d)
    | none => false

/-- SCHEDULING_POINT (08 R239). -/
def execSchedulingPoint (t : Nat) (plan : Nat) (s : State) : Host.Outcome State Fault Refusal :=
  let s := s.tick t
  .next (match s.plan plan with
    | some p => if s.pointDue p then (s.schedule p).pumpStarts else s
    | none => s)

/-- DEADLINE_EXPIRY (08 R247): the deadline is a moment of module time; once the clock has reached it, the next scheduling
point retires the request LATE. -/
def execDeadlineExpiry (t fn id : Nat) (s : State) : Host.Outcome State Fault Refusal :=
  let s := s.tick t
  .next (match s.req fn id with
    | some r => match r.deadline with | some d => s.tick (s.leftOff + d) | none => s
    | none => s)

/-! ### The step monitor and results -/

/-- STEP_DONE_NOTICE (05 R169): a notice of the present generation from an anchor bay of a step in flight. -/
def execStepDoneNotice (t : Nat) (b : BayIx) (gen : BitVec 8) (s : State) : Host.Outcome State Fault Refusal :=
  let s := s.tick t
  .next (if gen ≠ s.gen then s
    else
      let hit (p : Loaded) : Bool := match p.step with | some r => r.waiting.contains b.val | none => false
      match s.plans.find? hit with
      | some p =>
        let id := p.img.id
        let s := s.modPlan id fun q => { q with step := q.step.map fun r => { r with waiting := r.waiting.filter (· != b.val) } }
        let s := match p.step with
          | some r => if r.waiting.all (· == b.val) then s.measure id (s.now - r.released) else s
          | none => s
        s.stepCheck id
      | none => s)

/-- A message that waits at one of CTL's attach links is taken, or one from outside the modelled mesh (06 R181). -/
def State.takeCtl (s : State) (ms : List MLine) : Option State :=
  match ms with
  | [] => none
  | m :: _ =>
    let waits (l : Nat) : Bool := (mget [] s.edgeQ (64 * 19 + l)).any fun x => hVc x.hdr == hVc m.hdr
    match [0, 1, 2, 3].findSome? fun l => if waits l then s.takeEdge 19 l ms else none with
    | some s' => some s'
    | none => if [0, 1, 2, 3].any waits then none else some s

/-- The content of a result message (08 R242). -/
def parseResult (l : Layout) (free : Nat) (m : MLine) (ls : List MLine) : Result :=
  let d := m.line.value free
  let n := min (fld d 8 8) 14
  let bytes := ls.flatMap fun x => leBytes 64 (x.line.value free).toNat
  { endTok := fld d 16 1 == 1, ctxErr := fld d 17 1 == 1 || fld d 24 8 != 0, ctx := fld d 24 8,
    outs := (List.range n).map fun i =>
      if l.tensor then bytesAt bytes (64 * l.outLines * i) (64 * l.outLines) else leBytes 4 (fld d (64 + 32 * i) 32) }

/-- RESULT_MESSAGE (08 R242): a data message on VC1 of the present generation; the message of a slot that is not VALID is
discarded. The plan is the one with a step in flight and this stream (DEDUCED, log 56). -/
def execResultMessage (t : Nat) (ms : List MLine) (s : State) : Host.Outcome State Fault Refusal :=
  let s := s.tick t
  .next (match s.takeCtl ms, ms with
    | some u, m :: ls =>
      let slot := fld (m.line.value s.freeVal) 0 8
      let hit (p : Loaded) : Bool := p.started && p.img.layout.stream == hStream m.hdr &&
        match p.step with
        | some r => (r.slots.getD slot {}).valid && (mget none r.results slot).isNone && r.doneAt.isNone
        | none => false
      if hKind m.hdr ≠ 0 ∨ hVc m.hdr ≠ 1 ∨ hGen m.hdr ≠ s.gen then u
      else match u.plans.find? hit with
        | some p =>
          let x := parseResult p.img.layout s.freeVal m ls
          (u.modPlan p.img.id fun q => { q with step := q.step.map fun r =>
            { r with results := mset none r.results slot (some x) } }).stepCheck p.img.id
        | none => u
    | _, _ => s)

/-! ### Commands (08 R234–R236, R250; 11 R317) -/

/-- The detail of a missing random value (12 R350). -/
def noEntropy : Nat := 0x70200000

/-- SUBMIT (08 R234–R236): the checks in order, the copy of the input, the acceptance; with no step in flight the acceptance
is a scheduling point (R239). A plan that stops is still in the set of started plans (05 R142): the request ends at once, as PLAN_STOP ends requests
(R254; DEDUCED, log 123). -/
def execSubmit (t fn slot : Nat) (dma : HostRead) (s : State) : Host.Outcome State Fault Refusal :=
  .next ((s.tick t).runOwn fn slot 0x40 (fun _ => true) (fun c => c.onlyArgs [(0, 64)]) fun s c =>
    match s.submitCheck fn c with
    | .error (st, d) => .comp s st d []
    | .ok (p, w) =>
      if c.desc 61 1 / 4 % 2 == 1 && !s.keep.entropyOk then .comp s stFault noEntropy []
      else s.dmaRead fn c (c.desc 24 8) (fetchBytes dma) fun s b =>
        let r := s.accept fn c p w b
        let s := match r.1.plan p.img.id with
          | some q =>
            if q.stopping then r.1.endRequests q stStale 6
            else if q.step.isNone && r.1.pointDue q then r.1.schedule q else r.1
          | none => r.1
        .comp s stOk 0 r.2)

/-- CANCEL (08 R250). -/
def execCancel (t fn slot : Nat) (s : State) : Host.Outcome State Fault Refusal :=
  .next ((s.tick t).runCmd fn slot 0x41 (fun _ => true) { states := modesManagement } (fun c => c.onlyArgs [(0, 4)])
    fun s c =>
      match s.req fn (c.arg 0 4) with
      | some r =>
        if r.removed then .comp s stBadArg 0 []
        else match r.slot, s.plan r.plan with
          | none, some p => .comp (s.retire p r stOk 3) stOk 0 []
          | _, _ => .comp (s.modReq fn r.id fun r => { r with cancel := true }) stOk 0 []
      | none => .comp s stBadArg 0 [])

/-- PREFIX_KEEP (07 R214, 11 R317). -/
def execPrefixKeep (t fn slot : Nat) (s : State) : Host.Outcome State Fault Refusal :=
  .next ((s.tick t).runCmd fn slot 0x42 (fun _ => true) { states := modesCompute } (fun c => c.onlyArgs [(0, 8)])
    fun s c =>
      match s.req fn (c.arg 0 4) with
      | none => .comp s stBadArg 0 []
      | some r =>
        match r.slot, s.plan r.plan with
        | some i, some p =>
          if r.removed then .comp s stBadArg 0 []
          else if s.othersOf p ≠ [] then .comp s stRefused 0 []
          else match s.slotSeq p i with
            | none => .comp s stBadArg 0 []
            | some (k, q) =>
              let x := mget ({} : SeqEnt) (s.ctx k).seqs q
              let n := if c.arg 4 4 = 0 then x.commit else c.arg 4 4
              if n = 0 ∨ x.commit < n then .comp s stBadArg 0 []
              else if !s.keep.entropyOk then .comp s stFault noEntropy []
              else match s.keepPrefix k q n none with
                | some (s, h) => .comp s stOk 0 (leBytes 8 h)
                | none => .comp s stRefused 0 []
        | _, _ => .comp s stBadArg 0 [])

/-- PREFIX_DROP (07 R215, 11 R317). -/
def execPrefixDrop (t fn slot : Nat) (s : State) : Host.Outcome State Fault Refusal :=
  .next ((s.tick t).runCmd fn slot 0x43 (fun _ => true) { states := modesManagement } (fun c => c.onlyArgs [(0, 8)])
    fun s c =>
      match s.prefixOf fn (c.arg 0 8) with
      | some (i, p) => .comp (s.dropPrefix i p) stOk 0 []
      | none => .comp s stBadArg 0 [])

end Sys2Proof.Machine
end

