-- ==== Sys2Proof/Machine/Plans.lean ====
section
/-! DEFINITION. Starting, stopping and unloading plans (05 R142, R162; 06 R191; 07 R201; 09 R271; 10 R285, R293; 13 R375,
R382, R383). -/

namespace Sys2Proof.Machine

/-! ### Stopping (05 R142; 08 R254) -/

/-- A bay is told to stop (05 R142). -/
def Bay.askStop (y : Bay) : Bay :=
  let q := y.seq
  if !q.running then y
  else if q.halted || q.prog.isNone then
    { y with seq := { q with running := false, stop := false, held := none, prog := none } }
  else { y with seq := { q with stop := true, held := none } }

/-- A started plan is stopped as PLAN_STOP does: its requests end with a status and reason, a swap flips what is left, and its
bays stop after their programs (05 R142; 08 R254; 09 R270). -/
def State.stopPlan (s : State) (p : Loaded) (status reason : Nat) : State :=
  if !p.started || p.stopping then s
  else
    let s := s.endRequests p status reason
    let s := p.slotList.foldl (fun s i => s.closeSeq p i) s
    let s := if s.swapDue p then s.flipPlan p else s
    let s := s.modPlan p.img.id fun q => { q with stopping := true, step := none, rerun := none, recs := [] }
    (p.bays.foldl (fun s e => s.modBay e.bay Bay.askStop) s).settleStops

/-- The plan is stopped, and unloaded once it has left the set of started plans (05 R142; 06 R198; 13 R365, R375). -/
def State.stopUnload (s : State) (p : Loaded) : State :=
  let s := s.modPlan p.img.id fun q => { q with unloading := true }
  if p.started then (if p.stopping then s.settleStops else s.stopPlan p stStale 6) else s.unloadPlan p

/-- PLAN_STOP (05 R142). -/
def execPlanStop (t fn slot : Nat) (s : State) : Host.Outcome State Fault Refusal :=
  .next ((s.tick t).runCmd fn slot 0x13 (fun _ => true) { pf := true, states := modesCompute } (fun c => c.onlyArgs [(0, 8)])
    fun s c =>
      match s.plan (c.arg 0 8) with
      | none => .comp s stBadArg 0 []
      | some p =>
        if p.started then .waits ((s.wait fn slot c.id (.planStop p.img.id)).stopPlan p stStale 6).settleStops.pumpStarts
        else .comp s stOk 0 [])

/-- PLAN_UNLOAD (05 R142). A plan whose PLAN_START still waits for its peers is busy (DEDUCED, log 57). -/
def execPlanUnload (t fn slot : Nat) (s : State) : Host.Outcome State Fault Refusal :=
  .next ((s.tick t).runCmd fn slot 0x11 (fun _ => true) { pf := true, states := modesCompute } (fun c => c.onlyArgs [(0, 8)])
    fun s c =>
      match s.plan (c.arg 0 8) with
      | none => .comp s stBadArg 0 []
      | some p =>
        if p.starting then .comp s stBusy 0 []
        else if p.started then .waits ((s.wait fn slot c.id (.planUnload p.img.id)).stopUnload p).pumpStarts
        else .comp (s.unloadPlan p) stOk 0 [])

/-! ### Which placement and detour a plan takes (05 R162; 13 R375; 06 R198) -/

/-- Replace `n` bits of a word from bit `lo`. -/
def setBits {w : Nat} (v : BitVec w) (lo n x : Nat) : BitVec w :=
  (v &&& ~~~(BitVec.ofNat w ((2 ^ n - 1) * 2 ^ lo))) ||| BitVec.ofNat w (x % 2 ^ n * 2 ^ lo)

/-- The record a fill takes from the store: that of the source panel in the set live on it, if it matches its panel digest (09 R271). -/
def State.fillRec (s : State) (src : Nat) : Option (WImage × PanelRec) :=
  let b := s.bankRec src (s.liveBank src)
  if b.st ≠ .live ∨ s.weights.devBad ≠ 0 then none
  else match s.store.byDigest b.set with
    | some img => (img.records.find? fun r => recKey r == src && recOk r).map fun r => (img, r)
    | none => none

/-- A fence placement can be made active for a plan: no other started plan holds its bays, its budget passes R37, and its fills
can be read (DEDUCED for the fills, log 58). -/
def State.fenceOk (s : State) (p : Loaded) (f : FencePl) : Bool :=
  let others := ((s.plans.filter fun q => q.img.id != p.img.id).map fun q => q.budget.sum).sum
  (f.bays.all fun e => !s.heldByOther p.img.id e.bay) && (s.budgetBad f.budget others).isNone &&
    f.fills.all fun x => (s.fillRec x.2).isSome

/-- The placement a plan takes (13 R375, R376): its own (none inside), a fence placement, or none at all. -/
def State.choose (s : State) (p : Loaded) (fenced : Nat → Bool) : Option (Option Nat) :=
  let f := ((p.img.bays ++ (match p.active with | some x => x.bays | none => [])).map (·.bay)).filter fenced
  if f = [] then some none
  else
    match (List.range p.img.fences.length).find? fun i =>
      match p.img.fences[i]? with | some x => f.all x.items.contains | none => false with
    | some i => match p.img.fences[i]? with | some x => if s.fenceOk p x then some (some i) else none | none => none
    | none => none

/-- Routers a plan uses: those on its routes, its trees and its bays (06 R198). -/
def planRouters (bays : List PBay) (ts : List Tree) : List Nat :=
  (bays.flatMap fun e => e.bay :: e.routes.flatMap fun r =>
    if rtType r = 0 then (match routePath e.bay r with | some l => l.map (·.1) | none => []) else []) ++
  ts.flatMap fun t => t.nodes.map (·.1)

/-- A detour item covers a router (06 R198). -/
def itemCovers (x : Nat × Nat × Nat) (b : Nat) : Bool :=
  if x.1 = 1 then dieOf b == x.2.1 else meshX b == x.2.1 && meshY b == x.2.2

/-- The detour a plan needs (06 R198): none (inside) where no hard-fenced router lies on its routes, trees or bays, the first
covering set, or nothing at all. Its own routes, those of its placement in force, and those of the placement it is to take all count
(DEDUCED, log 188). -/
def State.detourFor (s : State) (p : Loaded) (placement : Option Nat) : Option (Option Nat) :=
  let under (x : Option Nat) : List Nat := let q := { p with placement := x, detour := none }; planRouters q.bays q.trees
  let crossed := (under none ++ under p.placement ++ under placement).filter s.rtrFenced
  if crossed = [] then some none
  else ((List.range p.img.detours.length).find? fun i =>
    match p.img.detours[i]? with
    | some d => crossed.all fun b => d.items.any fun x => itemCovers x b
    | none => false).map some

/-! ### Tables of a plan's bays -/

/-- Edge dies a route entry's lines leave the mesh at. -/
def exitDies (ts : List Tree) (b : Nat) (r : BitVec 64) : List Nat :=
  let edge (c p : Nat) : List Nat := match nbr c p with | .edge d _ => [d] | _ => []
  if rtType r = 0 then
    (match routePath b r with
      | some l => (match l.getLast? with | some (c, p) => if p = 4 then [] else edge c p | none => [])
      | none => [])
  else if rtType r = 1 then
    (match treeOf ts (fld r 29 8) with
      | some t => t.nodes.flatMap fun n => (bitsOf n.2 4).flatMap (edge n.1)
      | none => [])
  else []

/-- A route entry as firmware rewrites it: TREE, UNIT[7:5] and STREAM (06 R191; 07 R201; 10 R285). -/
def Loaded.rewrite (p : Loaded) (b : Nat) (r : BitVec 64) : BitVec 64 :=
  let d := exitDies p.trees b r
  let r' := if rtType r = 1 then setBits r 29 8 (p.treeIds.getD (p.img.treeIds.idxOf (fld r 29 8)) 0) else r
  let r' := if d.any (fun x => x == 17 || x == 18) then setBits r' 54 3 (p.map.getD 0) else r'
  if d.contains 16 then setBits r' 37 12 (p.streamIds.getD ((p.img.streams.map (·.id)).idxOf (fld r 37 12)) 0) else r'

/-- The stores of one bay (05 R142): BAY_ALLOC, the stroke list and tables; RUNNING set, HALTED clear, the stroke count
cleared. -/
def Loaded.loadBay (p : Loaded) (e : PBay) (y : Bay) : Bay :=
  { y with
    allocValid := true, flagFirst := e.flagFirst, flagLast := e.flagLast, queueFirst := e.queueFirst, queueLast := e.queueLast,
    strokeCnt := 0,
    seq := { e.seq with routes := e.routes.map (p.rewrite e.bay), running := true } }

/-- Segments stand at SEG_INIT when a plan starts (04 R116). -/
def PBay.initSegs (e : PBay) (y : Bay) : Bay :=
  (List.range 4).foldl (fun y g => y.enterSeg g (segModeOf (e.segInit / 4 ^ g % 4))) y

/-- The stroke stores of a plan's bays are written (05 R142, R368). -/
def State.loadBays (s : State) (p : Loaded) : State := p.live.foldl (fun s e => s.modBay e.bay (p.loadBay e)) s

/-- The multicast entries of a plan are written (06 R191). -/
def State.loadTrees (s : State) (p : Loaded) : State :=
  let s := (s.rtrs.map (·.1)).foldl (fun s b =>
    s.modRtr b fun r => { r with mc := r.mc.filter fun e => !p.treeIds.contains e.1 }) s
  p.trees.foldl (fun s t =>
    let i := p.treeIds.getD (p.img.treeIds.idxOf t.id) 0
    t.nodes.foldl (fun s n => s.modRtr n.1 fun r => { r with mc := mset 0 r.mc i n.2 }) s) s

/-- A fill takes the back bank it needs, whatever it holds (09 R271): a select that covers it ends. -/
def State.takeBack (s : State) (k : Nat) : State :=
  match s.weights.sel with
  | some x =>
    if x.cover.contains k then
      let s := s.plans.foldl (fun s p => match p.step with | some r => if r.swap then s.rollback p else s | none => s) s
      s.endSelect stRefused 0x92120000 0
    else s
  | none => s

/-- One fill (09 R271): the target's back bank takes the rows, WIDTH and SIGNED of the source panel's record. -/
def State.fill (s : State) (x : Nat × Nat) : State :=
  match s.fillRec x.2 with
  | some (img, r) =>
    let s := s.takeBack x.1
    let b := s.backBank x.1
    let s := s.modPanel x.1 fun y => (List.range 1024).foldl (fun y i => y.commitRow b i (mget 0 r.rows i)) y
    (s.setFormat x.1 b r.width r.sgn).setBank x.1 b (recBank r img .resident)
  | none => s

/-- A plan's fence placement becomes active: its fills are made (09 R271). -/
def State.makeFills (s : State) (p : Loaded) : State :=
  match p.active with | some f => f.fills.foldl (fun s x => s.fill x) s | none => s

/-- Class-0 admission of a plan is suspended where it was not (05 R168): snag 0x2072 with class 0. -/
def State.noteSuspended (s : State) (was : Bool) (id : Nat) : State :=
  match s.plan id with
  | some p => if p.admitted && !was && s.c0Suspended p then s.snagCtl 0x2072 0 [id, 0, 0, 0] else s
  | none => s

/-! ### Starting (05 R162) -/

/-- The weight set of a plan is live on every panel its own set covers, or a set of the same layout is (05 R162, 09 R266): its
layout digest. -/
def State.planLayout (s : State) (p : Loaded) : Option (BitVec 512) :=
  let d := p.img.weight
  let held := s.weights.banks.filter fun e => e.2.set == d && (e.2.st == .live || e.2.st == .resident)
  let own : List Nat := match s.store.byDigest d with
    | some img => img.records.map recKey
    | none => (held.map fun e => e.1 / 2).dedup
  let y : Option (BitVec 512) := match s.store.byDigest d with
    | some img => some img.layoutDigest
    | none => held.head?.map fun e => e.2.layout
  match y with
  | some l =>
    if own.all fun k => let r := s.bankRec k (s.liveBank k); r.st == .live && r.layout == l then some l else none
  | none => none

/-- Stream ids of the Fabric die's table that no plan holds (10 R285). -/
def State.freeStreams (s : State) : List Nat :=
  let used := s.plans.flatMap (·.streamIds)
  (List.range 3840).filter fun i => !used.contains i

/-- Context map ids that are free (07 R201). -/
def State.freeMap (s : State) : Option Nat := (List.range 8).find? fun i => s.plans.all fun p => p.map != some i

/-- The module compute set is in service (13 R382; 06 R198, R427): an unfenced bay of a powered leaf, with a path to a CTL attachment. -/
def State.computeSet (s : State) : Bool :=
  (List.range 1152).any fun b => !s.fenced b && mget Rail.off s.pwr.rails (leafOf b) == .up && s.reachesCtl b

/-- PLAN_START completes with REFUSED before anything is assigned (05 R162; 10 R285; 12 R342; 13 R382): so it does where no port is UP
that could serve a plane of the plan, fallback included (R382; log 204). -/
def State.startRefused (s : State) (p : Loaded) (session : Nat) (peers : List Nat) : Bool :=
  let fs := p.img.streams
  p.started || p.starting || (s.planLayout p).isNone || !s.computeSet ||
  (match s.choose p s.fenced with
    | none => true
    | some x =>
      let q := { p with placement := x }
      (q.bays.any fun e => s.heldByOther p.img.id e.bay) || (s.detourFor p x).isNone) ||
  (p.img.usesCtx && ((p.map.isNone && s.freeMap.isNone) || !(s.ctxInService 0 || s.ctxInService 1) ||
    (List.range p.img.layout.slots.length).all (fun i => !s.ctxInService (p.img.layout.die i)) ||
    (p.map.isNone && (s.findLpns p.owner p.img.layout.spill).isNone))) ||
  (session != 0 && !(match mget none s.keep.fabSess session with | some x => x.opened | none => false)) ||
  (p.streamIds.isEmpty && decide (s.freeStreams.length < fs.length)) ||
  (!fs.isEmpty && (List.range 16).all fun i => (s.port i).st != .up) ||
  fs.any fun x => decide (peers.length ≤ x.slice) || peers.getD x.slice 0 == s.moduleAddr ||
    !(List.range 16).any fun i => s.wiredPlane i == some x.plane

/-- The resources of a plan that starts: placement, detour, map id, stream ids with their table entries, spill area. -/
def State.assign (s : State) (p : Loaded) (session : Nat) (peers : List Nat) : State :=
  let fs := p.img.streams
  let pl := (s.choose p s.fenced).join
  let q := { p with
    placement := pl, detour := (s.detourFor p pl).join, session := session, peers := peers, heard := [],
    map := if p.img.usesCtx then p.map.or s.freeMap else none,
    spillBase := if p.map.isSome then p.spillBase else (s.findLpns p.owner p.img.layout.spill).getD 0,
    streamIds := if p.streamIds.isEmpty then s.freeStreams.take fs.length else p.streamIds,
    wlayout := (s.planLayout p).getD 0, starting := true, startedAt := s.now }
  let ents := fs.zip q.streamIds
  let s := if p.img.usesCtx then s.openTable p.owner else s
  let s := s.modPlan p.img.id fun _ => q
  let row (x : FStream) : FsEnt :=
    { plan := p.img.id, plane := x.plane, vc := x.vc, dst := peers.getD x.slice 0, target := x.target, session := session }
  { s with fab := { s.fab with streams := ents.foldl (fun m e => mset none m e.2 (some (row e.1))) s.fab.streams } }

/-- The plan starts (05 R142, R162): fills, multicast entries, the stores of its bays; the module is SERVING. -/
def State.finishStart (s : State) (id : Nat) : State :=
  match s.plan id with
  | none => s
  | some p =>
    let shut := if p.img.usesCtx then p.slotList.filter fun i => !s.ctxInService (p.img.layout.die i) else []
    let q := { p with
      starting := false, started := true, stopping := false, unloading := false, pos := 0, stepNo := 0, step := none,
      rerun := none, slots := [], closed := shut, lateAt := none, folded := 0, peerResident := [], recs := [] }
    let s := ((s.modPlan id fun _ => q).makeFills q).loadTrees q
    let s := (s.loadBays q)
    let s := q.live.foldl (fun s e => s.modBay e.bay e.initSegs) s
    ((s.noteSuspended false id).setMode .serving).completeWaits
      (fun k => match k with | .planStart i => i == id | _ => false) stOk 0 []

/-- A plan starts in READY or SERVING (15 R410), a spread plan once a notice has arrived from every other module of its peer map
(10 R293). A bay another plan has been started on meanwhile refuses the start (05 R162; DEDUCED, log 189). -/
def State.tryStart2 (s : State) (id : Nat) : State :=
  match s.plan id with
  | some p =>
    if (s.mode = .ready ∨ s.mode = .serving) ∧
      (p.starting && (s.othersOf p).all fun a => (mget none p.heard a).isSome) = true then
      if p.bays.any fun e => s.heldByOther id e.bay then
        (s.modPlan id fun q => { q with starting := false }).completeWaits
          (fun k => match k with | .planStart i => i == id | _ => false) stRefused 0 []
      else s.finishStart id
    else s
  | none => s

/-- PLAN_START (05 R142, R162; 11 R314). -/
def execPlanStart (t fn slot : Nat) (s : State) : Host.Outcome State Fault Refusal :=
  .next ((s.tick t).runCmd fn slot 0x12 (fun _ => true) { pf := true, states := modesCompute }
    (fun c => c.onlyArgs [(0, 12), (16, 2 * c.arg 10 2)])
    fun s c =>
      let n := c.arg 10 2
      let peers := (List.range n).map fun i => c.arg (16 + 2 * i) 2
      match s.plan (c.arg 0 8) with
      | none => .comp s stBadArg 0 []
      | some p =>
        if n = 1 ∨ 2000 < n then .comp s stBadArg 0 []
        else if s.startRefused p (c.arg 8 2) peers then .comp s stRefused 0 []
        else
          let s := (s.wait fn slot c.id (.planStart p.img.id)).assign p (c.arg 8 2) peers
          let s := match s.plan p.img.id with | some q => s.noticePlan q | none => s
          .waits (s.tryStart2 p.img.id))

/-- PLAN_START_PEER_TIMEOUT (10 R293): PEER_TIMEOUT has passed without a notice from every peer. -/
def execPlanStartPeerTimeout (t plan : Nat) (s : State) : Host.Outcome State Fault Refusal :=
  let s := s.tick t
  .next (match s.plan plan with
    | some p =>
      if p.starting && decide (p.startedAt + 1000000000 * max 1 s.fab.peerTimeout.toNat ≤ s.now) then
        (s.modPlan plan fun q => { q with starting := false }).completeWaits
          (fun k => match k with | .planStart i => i == plan | _ => false) stRefused 0 []
      else s
    | none => s)

end Sys2Proof.Machine
end

