-- ==== Sys2Proof/Machine/Ports.lean ====
section
/-! DEFINITION. The states of the fabric ports and the start of their training (10 R283, R288–R290). -/

namespace Sys2Proof.Machine

/-! ### Port states (10 R283, R288–R290) -/

/-- Update the Fabric die. -/
def State.modFab (s : State) (f : Fabric → Fabric) : State := { s with fab := f s.fab }

/-- Update a port. -/
def State.modPort (s : State) (p : Nat) (f : Port → Port) : State :=
  s.modFab fun x => { x with ports := mset {} x.ports p (f (mget {} x.ports p)) }

/-- Log a snag of a port (10 R299). -/
def State.snagPort (s : State) (p code sev : Nat) (args : List Nat) : State := s.snag code sev 16 p args

/-- What a port sends. -/
def State.sendOut (s : State) (p : Nat) (x : PortOut) : State := s.emit (.port p x)

/-- A port changes state (10 R290, 11 R321): vector 10, and class-0 admission that a lost plane suspends. -/
def State.portTo (s : State) (p : Nat) (st : PortSt) (f : Port → Port) : State :=
  let was := s.plans.map fun q => (q.img.id, s.c0Suspended q)
  let old := (s.port p).st
  let s := s.modPort p fun x => { f x with st := st }
  let s := if old = st then s else s.pfIrq vecPort
  was.foldl (fun s e => s.noteSuspended e.2 e.1) s

/-- The flits of a message that was going out are taken from a queue, to its last (10 R290). -/
def cutOpen (v l : Nat) : List TxFlit → List TxFlit
  | [] => []
  | e :: q => if e.f.vc = v ∧ e.link = l then (if e.f.last then q else cutOpen v l q) else e :: cutOpen v l q

/-- A port that is lost: messages it was sending are lost, with what is outstanding and what was coming in; whole messages still wait (10 R290). -/
def Port.lose (x : Port) : Port :=
  { x with
    width := 0, changing := false, ctrl := false, sent := [], open_ := [], drop := [], asm := [], txOpen := [],
    queue := (List.range 4).foldl (fun q v => match mget 0 x.txOpen v with | 0 => q | l + 1 => cutOpen v l q) x.queue }

/-- Training starts afresh on every enabled lane (10 R283, R289), and offers the partner 32 buffers per VC (R279). -/
def State.trainPort (s : State) (p : Nat) : State :=
  (s.portTo p .training fun x =>
    { x.lose with
      lanes := 0, linkId := none, txSeq := 0, acked := 0xFFF, burst := 0, replays := 0, rxSeq := 0, nakPending := false, stripe := 0,
      tx := [32, 32, 32, 32], rx := [32, 32, 32, 32], owed := [0, 0, 0, 0], ctrl := true, ctrlAt := s.now, trainAt := s.now,
      eyes := 0 }).sendOut p (.linkId 32)

/-- Ports may leave DARK (10 R283): a valid image is in place, stage 2 is up and a record is in force. -/
def State.portsMayTrain (s : State) : Bool := s.boot.inForce && s.pwr.stage2Up && s.fab.coords.isSome && !s.edgeLost 16

/-- Ports train that are wired, enabled and DARK (10 R283). -/
def State.startPorts (s : State) : State :=
  if s.portsMayTrain then
    (List.range 16).foldl (fun s p => if (s.portPlane p).isSome && (s.port p).st == .dark then s.trainPort p else s) s
  else s

end Sys2Proof.Machine
end

