-- ==== Sys2Proof/Machine/Recovery.lean ====
section
/-! DEFINITION. Fencing, compute reset, recovery and withdrawal: the shared operations (chapter 13; 04 R133; 02 R64; 06 R198; 07
R230; 08 R253; 09 R270). -/

namespace Sys2Proof.Machine

/-- Update the recovery state. -/
def State.modResil (s : State) (f : Resil → Resil) : State := { s with resil := f s.resil }

/-! ### Fences (13 R373–R376, R382; 06 R194, R198) -/

/-- The plan's bays and routes in force pass a hard-fenced router (06 R198). -/
def State.crosses (s : State) (p : Loaded) : Bool := (planRouters p.live p.trees).any s.rtrFenced

/-- Snag 0x3031 for a plan that a hard fence ends (06 R198, R199). -/
def State.noDetour (s : State) (p : Loaded) : State :=
  match (planRouters p.live p.trees).find? s.rtrFenced with
  | some b =>
    let die := mget Rail.off s.pwr.rails (32 + dieOf b) != .up
    s.snagCtl 0x3031 1 [p.img.id, if die then 0x10000 + dieOf b else 256 * meshX b + meshY b]
  | none => s

/-- The plan is placed on a bay, normally or under its active placement. -/
def Loaded.places (p : Loaded) (b : Nat) : Bool :=
  p.img.bays.any (fun e => e.bay == b) || match p.active with | some f => f.bays.any fun e => e.bay == b | none => false

/-- Started plans that go on. -/
def State.running (s : State) : List Loaded := s.plans.filter fun p => p.started && !p.stopping && !p.unloading

/-- Fenced bays are closed (13 R375): LOCAL_CLOSE and FENCED. -/
def State.applyFences (s : State) : State :=
  let l := s.resil.newFences
  (l.foldl (fun s e => s.setLocalClose e.1 true) s).modResil fun x => { x with newFences := [] }

/-- A bay that has become fenced (13 R375): plans that it serves keep a placement or are stopped and unloaded; snag 0x2081. -/
def State.fenceOne (s : State) (b cause : Nat) : State :=
  let hit := s.running.filter (·.places b)
  let gone := hit.filter fun p => (s.choose p s.fenced).isNone
  let kept := hit.filterMap fun p => (s.choose p s.fenced).join
  let s := gone.foldl (fun s p => (s.noDetour p).stopUnload p) s
  s.snagBay b 0x2081 2 [cause, kept.headD 0xFFFF, gone.length]

/-- Plans whose routes no detour saves after a hard fence are stopped and unloaded (06 R198). -/
def State.hardPlans (s : State) : State :=
  (s.running.filter fun p => s.crosses p && match s.choose p s.fenced with
    | some x => (s.detourFor p x).isNone
    | none => true).foldl (fun s p => (s.noDetour p).stopUnload p) s

/-- A module without its compute set stops every plan (13 R382). -/
def State.checkCompute (s : State) : State :=
  if s.computeSet then s else s.running.foldl (fun s p => s.stopPlan p stStale 6) s

/-- Bays become fenced (13 R375): cause 0 detector, 1 FENCE, 2 rail fault, 3 hard fence, 4 configuration image. Outside
RECOVERING the fence takes effect at once (13 R356, R373). -/
def State.fenceBays (s : State) (l : List Nat) (cause : Nat) : State :=
  let l := l.dedup.filter fun b => mget 0 s.resil.fences b == 0
  let s := s.modResil fun x => { x with
    fences := l.foldl (fun m b => mset 0 m b (cause + 1)) x.fences, newFences := x.newFences ++ l.map fun b => (b, cause),
    fencedNow := x.fencedNow + l.length }
  let s := (l.foldl (fun s b => s.fenceOne b cause) s).hardPlans.checkCompute
  if s.mode = .recovering then s else s.applyFences

/-- A bay is unfenced (13 R376): its strikes are cleared. -/
def State.unfenceOne (s : State) (b replaced : Nat) : State :=
  let s := (s.setLocalClose b false).modResil fun x => { x with
    fences := mset 0 x.fences b 0, newFences := x.newFences.filter (·.1 != b), unfences := x.unfences.filter (· != b),
    strikes := x.strikes.filter fun k => k.unit != b && (decide (k.unit < 2048) || (k.unit - 2048) / 32 != b) }
  s.snagBay b 0x2082 0 [replaced]

/-! ### The compute reset (13 R368, R369; 02 R64; 04 R133; 07 R230) -/

/-- A panel at a compute reset (02 R64, R88): the operation, a row read, and every row write whose second beat has not arrived are
abandoned; the second beat of a write arrives with its ROW_WRITE_COMMIT (02 R60; DEDUCED, log 176). -/
def Panel.computeReset (x : Panel) : Panel := { x with rowCur := none, rowQ := [], op := none, acc := [] }

/-- A bay at a compute reset (04 R133; 13 R369). The matrix unit's B is cleared with its accumulator (DESIGN CHOICE, log 177: the rule
names the accumulator only). -/
def Bay.computeReset (y : Bay) : Bay :=
  let z := { y with flipsDue := 0 }.applyStg.zeroStores
  { z with
    queues := mclean {} z.queues, segs := [], sc := [], mmB := [], mmFloat := false, mmSigned := true, mmC := [], det := none,
    mgmt := [], asm := [], flagsKept := 0, holds := [], watches := [], skipHold := false, holdTill := 0,
    seq := { z.seq with running := false, halted := false, prog := none, pc := 0, cur := none, slots := [], held := none,
                        stop := false, served := 0 } }

/-- Reset is asserted on the compute domain (13 R368 step 2): lines that bays hold for their routers' local inputs go with it. -/
def State.resetCompute (s : State) : State :=
  State.settleLeaves { s with
    panels := mclean {} (s.panels.map fun e => (e.1, e.2.applyStg.computeReset)),
    bays := mclean {} (s.bays.map fun e => (e.1, e.2.computeReset)),
    rtrs := mclean {} (s.rtrs.map fun e => (e.1, { e.2 with held := e.2.held.filter fun h => decide (h.1 < 16) })),
    ctx0 := s.ctx0.abandon s.now, ctx1 := s.ctx1.abandon s.now }

/-- C0 requests with a VALID slot in an interrupted step take a late mark (08 R248), unless the step was late already. -/
def State.markInterrupted (s : State) (p : Loaded) (run : StepRun) : State :=
  if run.late then s
  else run.slots.zipIdx.foldl (fun s e =>
    match (if e.1.valid then s.inSlot p e.2 else none) with
    | some r => if r.cls = 0 then s.modReq r.fn r.id fun r => { r with late := true, lateSteps := r.lateSteps + 1 } else s
    | none => s) s

/-- A plan's step in flight is abandoned (08 R253): the panels a swap flipped in it toggle back (09 R270); it is to be sent
again, by the scheduling module, once every peer has again given notice of SERVING (10 R296). -/
def State.interrupt (s : State) (p : Loaded) : State :=
  match p.step with
  | none => s
  | some run =>
    let s := if run.swap then s.rollback p else s
    let s := s.markInterrupted p run
    s.modPlan p.img.id fun q => { q with
      step := none, rerun := if p.img.layout.peer then none else some run,
      heard := q.heard.map fun e => (e.1, e.2.map fun x => (x.1, 7, x.2.2)) }

/-- A started plan takes its placement and detour by the bays and routers fenced now (13 R375, R376; 06 R198; 09 R271, R272). -/
def State.rePlace (s : State) (p : Loaded) : State :=
  match s.choose p s.fenced with
  | none => (s.noDetour p).stopUnload p
  | some x =>
    match s.detourFor p x with
    | none => (s.noDetour p).stopUnload p
    | some d =>
      let was := s.c0Suspended p
      let s := if x = p.placement then s else s.endPlacement p
      let q := { p with placement := x, detour := d }
      let s := s.modPlan p.img.id fun _ => q
      let s := if x = p.placement then s else s.makeFills q
      let s := match (if d = p.detour then none else d) with
        | some i => s.snagCtl 0x3030 0 [p.img.id, i, match p.img.detours[i]? with | some t => t.items.length | none => 0]
        | none => s
      s.noteSuspended was p.img.id

/-- Commands cut off by a compute reset (13 R371): PLAN_START. -/
def State.cutStarts (s : State) : State :=
  (s.plans.filter (·.starting)).foldl (fun s p =>
    (s.modPlan p.img.id fun q => { q with starting := false }).completeWaits
      (fun k => match k with | .planStart i => i == p.img.id | _ => false) stStale 0 []) s

/-- Times of a list that lie in the last 15 minutes. -/
def State.recent (s : State) (l : List Nat) : Nat := (l.filter fun t => decide (s.now ≤ t + strikeWindow)).length

/-- Counted resets started in the last 15 minutes (13 R380). -/
def State.countedResets (s : State) : Nat := s.recent s.resil.resets

/-- Compute resets of the last 15 minutes, counted or not (12 R344). -/
def State.anyResets (s : State) : Nat := s.recent s.resil.allResets

/-- Stacks whose interface is to be retrained: they have read 4 or more uncorrectable lines since the last recovery, as
(die, stack) (13 R378). -/
def State.badStacks (s : State) : List (Nat × Nat) :=
  [(0, s.ctx0), (1, s.ctx1)].flatMap fun e =>
    (e.2.badReads.filter fun x => decide (4 ≤ x.2) && !e.2.stackOut.getLsbD x.1).map fun x => (e.1, x.1)

/-- Ports that the fabric retrain stage retrains: wired, on a plane of a started spread plan, and DOWN (13 R378). -/
def State.downPorts (s : State) : List Nat :=
  (List.range 16).filter fun i => (s.port i).st == .down && match s.portPlane i with
    | some x => s.plans.any fun p => p.started && s.othersOf p != [] && p.img.streams.any fun y => y.plane == x
    | none => false

/-- A conditional stage is still to run (13 R378): 3 re-digest, 4 HBM retrain, 5 fabric retrain. An abort reset runs none. -/
def State.stageDue (s : State) (n : Nat) : Bool :=
  let r := s.resil
  !r.abort && match n with
    | 3 => r.redig || (r.redigestAlways && !r.ran.getLsbD 3)
    | 4 => r.hbmDue || s.badStacks != []
    | 5 => !r.ran.getLsbD 5 && s.downPorts != []
    | _ => false

/-- The stages planned, as a mask in the order of the table of stages (13 R378, R384). -/
def State.plannedMask (s : State) : Nat := 0x47 + ([3, 4, 5].filter fun n => s.stageDue n).foldl (fun m n => m + 2 ^ n) 0

/-- The compute reset stage (13 R368, R371; 09 R270). -/
def State.resetStage (s : State) : State :=
  let s := State.modResil { s with gen := s.gen + 1 } fun x => { x with stage := 2, again := false, ran := x.ran ||| 6, allResets := x.allResets ++ [s.now] }
  let s := s.noticeAll
  let s := s.plans.foldl (fun s p => s.interrupt p) s
  let s := s.resetCompute.cutStarts.settleStops.applyFences
  let open_ := s.resil.unfences
  let moved := s.running.filter fun p => s.choose p (fun b => s.fenced b && !open_.contains b) != some p.placement
  let s := open_.foldl (fun s b => s.unfenceOne b moved.length) s
  let s := (s.running.foldl (fun s p => s.rePlace p) s).settleStops
  let s := (s.running.foldl (fun s p => (s.loadTrees p).loadBays p) s).loadHomes
  let s := s.modResil fun x => { x with planned := x.planned ||| BitVec.ofNat 8 s.plannedMask }
  s.snagCtl 0x20B0 1 [s.resil.cause, s.gen.toNat, s.countedResets, s.plannedMask]

/-! ### WITHDRAWN (13 R381) -/

/-- Commands that wait for a plan to start, for a select or for resume end WITHDRAWN when the module withdraws (13 R381; DEDUCED for
the first and last, log 61). -/
def WaitKind.cut : WaitKind → Bool
  | .planStart _ => true
  | .resume => true
  | _ => false

/-- The module enters WITHDRAWN (13 R379–R381; 09 R270): cause 0 third counted reset, 1 recovery overran. -/
def State.withdraw (s : State) (cause : Nat) : State :=
  let s := (s.setMode .withdrawn).snagCtl 0x20B2 3 [cause, s.countedResets]
  let s := s.plans.foldl (fun s p => match p.step with | some r => if r.swap then s.rollback p else s | none => s) s
  let s := if s.weights.sel.isSome then s.endSelect stWithdrawn 0 1 else s
  let s := (s.plans.filter (·.started)).foldl (fun s p => s.stopPlan p stWithdrawn 7) s
  let s := { s with plans := s.plans.map fun (p : Loaded) => { p with starting := false } }
  let s := s.resetCompute.settleStops.applyFences
  (s.modResil fun x => { x with stage := 0, again := false, abort := false }).completeWaits WaitKind.cut stWithdrawn 0 []

/-! ### Recovery (13 R356, R368, R372, R378, R380) -/

/-- A compute reset falls due in READY or SERVING, or at the commit that leaves WITHDRAWN (15 R410): the module enters RECOVERING and
quiesces, or withdraws instead of a third counted reset. -/
def State.startRecovery (s : State) (cause : Nat) (counted abort : Bool) : State :=
  if s.mode ≠ .ready ∧ s.mode ≠ .serving ∧ (s.mode ≠ .withdrawn ∨ counted = true) then s
  else if counted && decide (2 ≤ s.countedResets) then s.withdraw 0
  else
    let s := s.modResil fun x => { x with
      stage := 1, cause := cause, abort := abort, entered := s.now, planned := 0, ran := 3, again := false, fencedNow := 0,
      resets := if counted then x.resets ++ [s.now] else x.resets }
    s.setMode .recovering

/-- What a detector has found: its row; the bays it names, those it makes suspect and the
cause of their fence; panels to skim; whether it asks for the weight re-digest (13 R355, R358, R378). -/
structure Found where
  row : Nat
  hit : List Nat := []
  sus : List Nat := []
  fcause : Nat := 0
  redig : Bool := false
  skims : List Nat := []

/-- A step is in flight on the module. -/
def State.inFlight (s : State) : Bool := s.plans.any fun p => p.started && p.step.isSome

/-- A detection (13 R356, R357, R372): in RECOVERING it joins the recovery, whose compute reset runs again (log 202); with a step in flight, or a bay it names placed by a
started plan, a compute reset follows; otherwise its suspects are fenced at once. -/
def State.detected (s : State) (f : Found) : State :=
  let note (s : State) : State := s.modResil fun x => { x with redig := x.redig || f.redig, degraded := (x.degraded ++ f.skims).dedup }
  if s.mode = .withdrawn ∨ s.novkoUp = false then s
  else if s.mode = .recovering then
    let late := decide (2 ≤ s.resil.stage)
    ((note s).fenceBays f.sus f.fcause).modResil fun x => { x with again := x.again || late, abort := false }
  else
    let placed := s.plans.any fun p =>
      (p.started || p.starting) && ((f.hit ++ f.sus).any p.places || s.crosses p)
    if (s.mode == .ready || s.mode == .serving) && (s.inFlight || placed) then
      let s := { s with plans := s.plans.map fun (p : Loaded) => { p with step := p.step.map fun (r : StepRun) => { r with faulted := true } } }
      let s := s.startRecovery f.row true false
      (if s.mode = .recovering then note s else s).fenceBays f.sus f.fcause
    else (note s).fenceBays f.sus f.fcause

/-- A router's hard fence meets the detector of row 11 (13 R355; 06 R198). -/
def State.hardFound (s : State) (l : List Nat) : State := s.detected { row := 11, hit := l, sus := l, fcause := 3 }

/-- Ports that are DOWN, wired and enabled; a quarantined port is not DOWN (13 R378). -/
def State.portsDown (s : State) : List Nat := (List.range 16).filter fun i => (s.port i).st == .down && (s.portPlane i).isSome

/-- The fabric retrain stage trains the first of these ports, and the others one after another, in ascending order (13 R378; log 203). -/
def State.retrainFrom (s : State) (l : List Nat) : State :=
  let l := l.filter fun i => (s.port i).st == .down
  let s := s.modResil fun x => { x with retrainQ := l }
  match l with
  | p :: _ => if s.portsMayTrain then s.trainPort p else s
  | [] => s

/-- The port that the stage trains has ended its training: the next one starts (13 R378). -/
def State.retrainNext (s : State) (p : Nat) : State :=
  if s.mode = .recovering ∧ s.resil.stage = 5 ∧ s.resil.retrainQ.head? = some p then s.retrainFrom (s.resil.retrainQ.drop 1) else s

/-- A port of the stage is in training. -/
def State.retraining (s : State) : Bool := s.resil.retrainQ.any fun p => (s.port p).st == .training

/-- The next stage of the recovery (13 R372, R378): the compute reset again, a conditional stage, or resume. -/
def State.nextStage (s : State) : State :=
  if s.resil.again then s.resetStage
  else
    let n := match [3, 4, 5].find? fun n => s.stageDue n with | some n => n | none => 6
    let s := s.modResil fun x => { x with stage := n, ran := x.ran ||| BitVec.ofNat 8 (2 ^ n), redig := x.redig && n != 3 }
    if n = 5 then s.retrainFrom s.portsDown else s

/-- Interrupted steps of scheduling modules whose peers all serve are sent again (08 R253; 10 R296). -/
def State.sendReruns (s : State) : State :=
  if s.mode ≠ .serving then s
  else s.plans.foldl (fun s p =>
    match p.rerun with
    | some run =>
      let served := (s.othersOf p).all fun a => match mget none p.heard a with | some x => x.2.1 == 6 | none => false
      if p.started && !p.stopping && served then s.sendStep p run true false else s
    | none => s) s

/-- Start fences recorded by an image take effect and its start weight sets are queued on entry to READY, by READY_ENTRY or at the
end of a recovery (15 R421; DEDUCED, log 80). -/
def State.startUp (s : State) : State :=
  let l := s.boot.startFences
  let q := s.boot.startSets
  let s := { s with boot := { s.boot with startFences := [], startSets := [] },
                    weights := { s.weights with startQ := s.weights.startQ ++ q } }
  (s.fenceBays l 4).pumpStarts

/-- Resume (13 R378; 08 R253; 09 R270): SERVING, or READY with no started plan; interrupted steps are sent again, loading resumes,
and idle plans come to a scheduling point. -/
def State.finishRecovery (s : State) : State :=
  let n := (s.plans.filter fun p => p.started && p.rerun.isSome).length
  let s := s.setMode (if s.plans.any (·.started) then .serving else .ready)
  let s := s.snagCtl 0x20B1 0 [(s.now - s.resil.entered) / 1000, s.resil.ran.toNat, s.resil.fencedNow, n]
  let s := State.modResil { s with ctx0 := { s.ctx0 with badReads := [] }, ctx1 := { s.ctx1 with badReads := [] } } fun x =>
    { x with stage := 0, abort := false, hbmDue := false }
  let s := s.completeWaits (fun k => match k with | .resume => true | _ => false) stOk 0 []
  let s := if s.mode = .ready then s.startUp else s
  let s := match s.weights.sel with | some x => if x.swapping then s else s.sendRows x.left | none => s
  let s := s.sendReruns
  (s.plans.foldl (fun s p => match s.plan p.img.id with
    | some q => if q.step.isNone && s.pointDue q then s.schedule q else s
    | none => s) s).pumpStarts

/-! ### Context dies that leave service (13 R383) -/

/-- Slots of a Context die that is out of service are closed (13 R383): a plan with every slot closed stops. -/
def State.closeSlots (s : State) (k : Nat) : State :=
  if s.ctxInService k then s
  else s.running.foldl (fun s p =>
    let l := p.slotList.filter fun i => p.img.layout.die i == k && !p.closed.contains i
    if !p.img.usesCtx || l == [] then s
    else
      let was := s.c0Suspended p
      let q := { p with closed := p.closed ++ l }
      let s := (s.modPlan p.img.id fun _ => q).noteSuspended was p.img.id
      if p.slotList.all q.closed.contains then
        let s := p.slotList.foldl (fun s i => match s.inSlot q i with | some r => s.endReq q r stFault 5 | none => s) s
        s.stopPlan q stStale 6
      else s) s

end Sys2Proof.Machine
end

