-- ==== Sys2Proof/Machine/Weights.lean ====
section
/-! DEFINITION. The commands of the weight library (chapter 09; 11 R314). -/

namespace Sys2Proof.Machine

/-! ### The store (09 R255–R258, R263) -/

/-- Update the weight library's volatile part. -/
def State.modWeights (s : State) (f : Weights → Weights) : State := { s with weights := f s.weights }

/-- A directory update (09 R257): the older copy takes the new contents with the next sequence number. -/
def Store.update (x : Store) (f : SMap (Option DirEnt) → SMap (Option DirEnt)) : Store :=
  let d := f x.dir
  let n := max x.seq0 x.seq1 + 1
  if x.second then { x with seq0 := n, dir0 := d, diff0 := 0 } else { x with seq1 := n, dir1 := d, diff1 := 0 }

/-- A directory entry's 256 bytes (09 R257). -/
def DirEnt.bytes (e : DirEnt) : List Byte :=
  leBytes 4 e.st ++ leBytes 4 e.first ++ leBytes 4 e.blocks ++ leBytes 4 e.nPanels ++ leBytes 32 e.name.toNat ++ leBytes 16 e.model.toNat ++
  leBytes 64 e.setDigest.toNat ++ leBytes 64 e.layout.toNat ++ leBytes 2 e.slice ++ leBytes 2 e.slices ++ leBytes 4 e.key ++ leBytes 8 e.seq ++
  leBytes 48 0

/-- A directory copy's bytes (09 R257): 1,024 entries, then the sequence number and the trailer digest. -/
def dirBytes (d : SMap (Option DirEnt)) (seq : Nat) (diff : BitVec 512) : List Byte :=
  let ents := (List.range 1024).flatMap fun i => match mget none d i with | some e => e.bytes | none => leBytes 256 0
  ents ++ leBytes 8 seq ++ leBytes 64 (Config.shake256 ents ^^^ diff).toNat

/-- Blocks of 64 KiB an image occupies (09 R255, R259). -/
def imgBlocks (img : WImage) : Nat := (512 + 64 * img.nPanels + 131088 * img.nPanels + 65535) / 65536

/-- An image as it is stored, byte for byte (09 R259). -/
def imgBytes (img : WImage) : List Byte :=
  imgHeader img img.setDigest ++ (img.records.flatMap fun r => leBytes 64 r.digest.toNat) ++ img.records.flatMap recBytes9

/-- Data unit `u` of 4 KiB of the directory or the library, decrypted (09 R255, R256); none where nothing stored lies there. -/
def Store.plain (x : Store) (u : Nat) : Option (List Byte) :=
  let b := u / 16
  let cut (first : Nat) (l : List Byte) : List Byte := bytesAt l (4096 * (u - 16 * first)) 4096
  if b < 256 then none
  else if b < 384 then some (cut 256 (dirBytes x.dir0 x.seq0 x.diff0))
  else if b < 512 then some (cut 384 (dirBytes x.dir1 x.seq1 x.diff1))
  else x.lib.findSome? fun e => match e.2 with
    | some img => if e.1 ≤ b ∧ b < e.1 + imgBlocks img then some (cut e.1 (imgBytes img)) else none
    | none => none

/-- What the devices hold there (09 R256): XTS-AES-256 under the keys of the Keep, the tweak being the data unit's number. -/
def Store.atRest (x : Store) (u : Nat) : Option (List Byte) := (x.plain u).map (Config.xts xtsDataKey xtsTweakKey u)

/-- First block of the library's first free run of `n` blocks (09 R263). -/
def Store.firstFit (x : Store) (n : Nat) : Option Nat :=
  let used := x.dir.filterMap fun e => e.2.map fun d => (d.first, d.blocks)
  let fits (a : Nat) : Bool := decide (a + n ≤ 33554432) && used.all fun e => decide (a + n ≤ e.1) || decide (e.1 + e.2 ≤ a)
  ((512 :: used.map fun e => e.1 + e.2).filter fits).min?

/-- The first free directory entry. -/
def Store.freeEntry (x : Store) : Option Nat := (List.range 1024).find? fun i => (mget none x.dir i).isNone

/-- The directory entry of an image. -/
def dirEntOf (img : WImage) (st first key seq : Nat) : DirEnt :=
  { st := st, first := first, blocks := imgBlocks img, nPanels := img.nPanels, name := img.name, model := img.model,
    setDigest := img.setDigest, layout := img.layoutDigest, slice := img.slice, slices := img.slices, key := key, seq := seq }

/-- Record order, reserved fields and LAYER range (09 R259, R263 step 4). -/
def imgRecordsOk (img : WImage) : Bool :=
  img.records.length == img.nPanels &&
  img.records.all (fun r => decide (r.die < 16) && decide (r.bay < 72) && decide (r.panel < 32) && decide (r.width < 4) &&
    decide (r.layer < img.layers) && r.rsv == 0) &&
  (img.records.zip (img.records.drop 1)).all fun e => decide (recKey e.1 < recKey e.2)

/-- Bytes 0 to 191 of an authorisation object, which its signature covers (09 R262). -/
def authSigned (a : Auth) : List Byte :=
  leBytes 4 a.magic ++ leBytes 1 a.action ++ leBytes 1 a.key ++ leBytes 2 a.dirIndex ++ leBytes 24 a.rsv.toNat ++ leBytes 32 a.nonce.toNat ++
  leBytes 64 a.device.toNat ++ leBytes 64 a.setDigest.toNat

/-- An authorisation object's signature verifies under an owner key (09 R262). -/
def authVerifies (a : Auth) (key : List Byte) : Bool := Config.falconOk key (digest (authSigned a)) a.sig

/-- The object is one, and names this module (09 R262). -/
def authHere (a : Auth) : Bool := a.magic == 0x48545541 && a.rsv == 0 && a.device == Config.shake256 identityKey

/-- The authorisation object verifies (09 R262, R263 check 1; 12 R332): of an enrolled key with the WEIGHTS role, this module and the nonce. -/
def State.authOk (s : State) (a : Auth) (action : Nat) : Bool :=
  authHere a && a.action == action &&
  (match mget none s.nvm.owners a.key with
    | some o => decide (a.key < 16) && (a.key == 0 || o.1 / 4 % 2 == 1) && authVerifies a o.2
    | none => false) &&
  (match s.weights.nonce with | some n => a.nonce == n.1 && decide (s.now ≤ n.2 + 60000000000) | none => false)

/-- A command of WEIGHTS_INSTALL (09 R261): the checks in order, then the sub-operation. -/
def State.installCmd (s : State) (fn slot : Nat) (form : Nat → Bool) (spare : Cmd → Bool) (body : State → Cmd → Done) : State :=
  s.runOwn fn slot 0x20 (fun c => form (c.arg 0 1)) (fun c => c.onlyArgs [(0, 1), (2, 2), (8, 24)]) fun s c =>
    if s.mode = .withdrawn then .comp s stWithdrawn 0 []
    else if fn ≠ 0 then .comp s stNotPerm 0 []
    else if s.mode = .recovering ∨ s.weights.sel.isSome ∨ s.weights.startQ ≠ [] then .comp s stBusy 0 []
    else if s.mode ≠ .ready then .comp s stRefused 4 []
    else if 2 < c.arg 0 1 ∨ spare c = false then .comp s stBadArg 0 []
    else body s c

/-- WEIGHTS_INSTALL NONCE (09 R261); a reserved SUBOP is refused here too. -/
def execWeightsInstallNonce (t fn slot : Nat) (s : State) : Host.Outcome State Fault Refusal :=
  .next ((s.tick t).installCmd fn slot (fun k => k == 0 || decide (2 < k))
    (fun c => c.arg 2 2 == 0 && c.arg 8 24 == 0) fun s _ =>
      if !s.keep.entropyOk then .comp s stFault noEntropy []
      else
        let (s, n) := s.random 256
        .comp (s.modWeights fun w => { w with nonce := some (BitVec.ofNat 256 n, s.now) }) stOk 0 (leBytes 32 n))

/-- INSTALL_NONCE_EXPIRY (09 R261): 60 s have passed. -/
def execInstallNonceExpiry (t : Nat) (s : State) : Host.Outcome State Fault Refusal :=
  let s := s.tick t
  .next (match s.weights.nonce with
    | some n => if n.2 + 60000000000 ≤ s.now then s.modWeights fun w => { w with nonce := none } else s
    | none => s)

/-- An install or erase that ends without OK (09 R263, R274): snag 0x9202. -/
def State.installFails (s : State) (status check idx : Nat) : Done :=
  let s := s.snagCtl 0x9202 1 [check, idx]
  .comp s status (0x92020000 + check) []

/-- WRITE after its authorisation has been checked (09 R263). A record out of order, a reserved field or a LAYER out of range gives BAD_ARGUMENT, check
4 (DEDUCED, log 63); a read error of the check fails it as a digest that does not match does (R256; DEDUCED, log 198). -/
def State.installWrite (s : State) (a : Auth) (img : WImage) : Done :=
  let err := s.weights.checkErr
  let s := s.modWeights fun w => { w with checkErr := false }
  if img.magic ≠ 0x54455357 ∨ img.format ≠ 1 ∨ img.rsv ≠ 0 || img.nPanels == 0 || decide (36864 < img.nPanels) || decide (img.slices ≤ img.slice) then
    s.installFails stBadArg 2 0xFFFF
  else if (s.store.byDigest img.setDigest).isSome then s.installFails stBadArg 3 0xFFFF
  else match s.store.firstFit (imgBlocks img), s.store.freeEntry with
    | some first, some i =>
      let put (st seq : Nat) (x : Store) : Store := x.update fun d => mset none d i (some (dirEntOf img st first a.key seq))
      let s := { s with store := put 1 0 s.store }
      let free (s : State) : State := { s with store := s.store.update fun d => mset none d i none }
      if !imgRecordsOk img then (free s).installFails stBadArg 4 i
      else if err || !imgDigestsOk img || img.setDigest != a.setDigest then (free s).installFails stFault 5 i
      else
        let x := put 2 (max s.store.seq0 s.store.seq1 + 1) s.store
        let s := { s with store := { x with lib := mset none x.lib first (some img) } }
        .comp (s.snagCtl 0x9201 0 [i, first, imgBlocks img, fld img.setDigest 0 64]) stOk 0 (leBytes 2 i)
    | _, _ => s.installFails stRefused 4 0xFFFF

/-- WEIGHTS_INSTALL WRITE (09 R261, R263): the object is read and verified, then the image. -/
def execWeightsInstallWrite (t fn slot : Nat) (auth : Fetch Auth) (img : Fetch WImage) (s : State) :
    Host.Outcome State Fault Refusal :=
  .next ((s.tick t).installCmd fn slot (· == 1) (fun c => c.arg 2 2 == 0) fun s c =>
    s.dmaRead fn c (c.arg 24 8) auth fun s a =>
      let ok := s.authOk a 1
      let s := s.modWeights fun w => { w with nonce := none }
      if !ok then s.installFails stNotPerm 1 0xFFFF
      else s.dmaRead fn c (c.arg 8 8) img fun s g => s.installWrite a g)

/-- WEIGHTS_INSTALL ERASE (09 R261, R263): refused for a set live or resident on a panel. -/
def execWeightsInstallErase (t fn slot : Nat) (auth : Fetch Auth) (s : State) : Host.Outcome State Fault Refusal :=
  .next ((s.tick t).installCmd fn slot (· == 2) (fun c => c.arg 8 16 == 0) fun s c =>
    s.dmaRead fn c (c.arg 24 8) auth fun s a =>
      let i := c.arg 2 2
      let ok := s.authOk a 2
      let s := s.modWeights fun w => { w with nonce := none }
      match s.store.entry i with
      | none => s.installFails stBadArg 2 i
      | some e =>
        if !ok || a.dirIndex != i || a.setDigest != e.setDigest then s.installFails stNotPerm 1 i
        else if s.weights.banks.any fun b => b.2.set == e.setDigest && (b.2.st == .live || b.2.st == .resident) then
          s.installFails stRefused 4 i
        else
          let x := s.store.update fun d => mset none d i none
          let s := s.modWeights fun w => { w with measured := mset none w.measured i none }
          .comp { s with store := { x with lib := mset none x.lib e.first none } } stOk 0 [])

/-! ### Selecting (09 R264–R266) -/

/-- WEIGHTS_SELECT (09 R264). -/
def execWeightsSelect (t fn slot : Nat) (s : State) : Host.Outcome State Fault Refusal :=
  .next ((s.tick t).runOwn fn slot 0x21 (fun _ => true) (fun c => c.onlyArgs [(0, 3)]) fun s c =>
    let i := c.arg 0 2
    let o := c.arg 2 1
    let switch := o / 2 % 2 == 1
    if s.mode = .withdrawn then .comp s stWithdrawn 0 []
    else if fn ≠ 0 then .comp s stNotPerm 0 []
    else if (s.store.entry i).isNone ∨ 4 ≤ o then .comp s stBadArg 0 []
    else if s.weights.sel.isSome ∨ s.weights.startQ ≠ [] then .comp s stBusy 0 []
    else if s.selectBlocked (s.store.image i) switch then .comp s stRefused 5 []
    else if ¬ s.mode ∈ modesSession then .comp s stRefused 0 []
    else .waits (((s.wait fn slot c.id .select).beginSelect i (o % 2 == 1) switch (some c.id)).pumpStarts))

/-- A load ends with a digest that does not match (09 R266): snag 0x9211, and 0x9212, whose cause the manual does not say for it: that of a store
read (DEDUCED, log 199). -/
def State.loadMismatch (s : State) (idx where_ : Nat) : State :=
  ((s.snagCtl 0x9211 2 [idx, where_]).endSelect stFault 0x92110000 2).pumpStarts

/-- The record of a panel in an image matches its panel digest. -/
def imgPanelOk (img : WImage) (k : Nat) : Bool := match img.records.find? fun r => recKey r == k with | some r => recOk r | none => false

/-- PANEL_DONE_NOTICE (09 R265, R266): the record is held against its panel digest, and after the last the table against the directory's set
digest. -/
def execPanelDoneNotice (t : Nat) (b : BayIx) (p : PanelIx) (gen : BitVec 8) (s : State) : Host.Outcome State Fault Refusal :=
  let s := s.tick t
  let k := pkey b p
  .next (match s.weights.sel with
    | some x =>
      if gen ≠ s.gen ∨ x.swapping ∨ ¬ x.left.contains k then s
      else if !imgPanelOk (s.store.image x.idx) k then s.loadMismatch x.idx k
      else
        let s := s.modSel fun x => { x with left := x.left.filter (· != k) }
        if x.left.all (· == k) then
          if (s.store.entry x.idx).any fun e => imgSet (s.store.image x.idx) == e.setDigest then s.loadDone.pumpStarts
          else s.loadMismatch x.idx 0xFFFF
        else s
    | none => s)

/-! ### Reading banks back (09 R273; 02 R59) -/

/-- Stored witness bits of a row agree with its data (02 R59). -/
def rowAgrees (c : BitVec 1136) : Bool := witnessOf (c.extractLsb' 0 1024) == fld c 1024 112

/-- The panel digest recomputed from the panel's own bits (09 R260, R273). -/
def State.panelDigest (s : State) (k bank : Nat) : BitVec 512 :=
  Config.shake256 (leBytes 16 (s.bankRec k bank).head ++
    (List.range 1024).flatMap fun i => leBytes 128 (fld (s.rowOf k bank i) 0 1024))

/-- A bank's digest differs from the one its record keeps. -/
def State.bankDiffers (s : State) (k bank : Nat) : Bool := s.panelDigest k bank != (s.bankRec k bank).panel

/-- Panels whose live (0) or back (1) bank holds a set, with that bank. -/
def State.heldBanks (s : State) (back : Bool) : List (Nat × Nat) :=
  ((s.weights.banks.map fun e => e.1 / 2).dedup).filterMap fun k =>
    let b := if back then s.backBank k else s.liveBank k
    if (s.bankRec k b).st = .empty then none else some (k, b)

/-- The rows of a bank are read through the row port (02 R59): the first that disagrees sets WIT_STORE_ERR. -/
def State.readBank (s : State) (k bank : Nat) : State :=
  match (List.range 1024).find? fun i => !rowAgrees (s.rowOf k bank i) with
  | some i =>
    let c := s.rowOf k bank i
    let w := witnessOf (c.extractLsb' 0 1024)
    let groups := (List.range 16).foldr (fun g acc =>
      (if w / 2 ^ (7 * g) % 128 = fld c (1024 + 7 * g) 7 then 0 else 1) + 2 * acc) 0
    (s.stickyPanel (k / 32) (k % 32) (s.panel k).witStoreErr (fun x => { x with witStoreErr := true }) 0x1011 2
      [bank, i, groups]).witnessStored (k / 32) (k % 32)
  | none => s

/-- The set digest recomputed for a stored set from the panels' own bits (09 R260, R273); a panel that does not hold the set keeps its table entry. -/
def State.measure9 (s : State) (img : WImage) (back : Bool) : BitVec 512 :=
  let at_ (r : PanelRec) : Nat := if back then s.backBank (recKey r) else s.liveBank (recKey r)
  let holds (r : PanelRec) : Bool := (s.bankRec (recKey r) (at_ r)).set == img.setDigest
  setDigestOf img (img.records.map fun r => if holds r then s.panelDigest (recKey r) (at_ r) else r.digest)

/-- The live or back banks are read back (09 R273): the panels that differ; MEASURED of each stored set read is updated. -/
def State.readBanks (s : State) (back : Bool) : State × List Nat :=
  let l := s.heldBanks back
  let s := l.foldl (fun s e => s.readBank e.1 e.2) s
  let m := (List.range 1024).foldl (fun m i => match s.store.entry i with
    | some e =>
      if l.any fun x => (s.bankRec x.1 x.2).set == e.setDigest then
        mset none m i (some (s.mtime, s.measure9 (s.store.image i) back))
      else m
    | none => m) s.weights.measured
  (s.modWeights fun w => { w with measured := m }, (l.filter fun e => s.bankDiffers e.1 e.2).map (·.1))

/-- WEIGHTS_DIGEST (09 R273). -/
def execWeightsDigest (t fn slot : Nat) (s : State) : Host.Outcome State Fault Refusal :=
  .next ((s.tick t).runCmd fn slot 0x22 (fun _ => true) { pf := true, states := modesManagement } (fun c => c.onlyArgs [(0, 1)])
    fun s c =>
      if 1 < c.arg 0 1 then .comp s stBadArg 0 []
      else if s.weights.sel.isSome ∨ s.weights.startQ ≠ [] ∨ s.resil.stage = 3 then .comp s stBusy 0 []
      else
        let r := s.readBanks (c.arg 0 1 == 1)
        match r.2.mergeSort (· ≤ ·) with
        | [] => .comp r.1 stOk 0 (leBytes 4 0)
        | k :: l => .comp (r.1.snagCtl 0x9230 2 [c.arg 0 1, k, l.length + 1]) stFault 0x92300000 (leBytes 4 (l.length + 1)))

/-! ### Store errors (09 R256, R266, R270) -/

/-- A select that is loading ends with FAULT. -/
def State.loadFails (s : State) (detail : Nat) : State :=
  match s.weights.sel with
  | some x => if x.swapping || x.left == [] then s else (s.endSelect stFault detail 2).pumpStarts
  | none => s

/-- STORE_READ_ERROR (09 R256, R274): `op` 0 load, 1 fence fill, 2 install check. A plan whose fence fill fails goes as one without a
covering placement does (DEDUCED, log 64); the install that made the read fails at its end (log 198). -/
def execStoreReadError (t : Nat) (dev : Fin 16) (block op : Nat) (s : State) : Host.Outcome State Fault Refusal :=
  let s := s.tick t
  .next (if !s.pwr.stage1Up then s
    else
      let s := (s.modWeights fun w => { w with uncorr := true }).snagCtl 0x9220 2 [dev, block, op]
      if op = 0 then s.loadFails 0x92200000
      else if op = 1 ∧ s.resil.stage = 2 then
        (s.running.filter fun p => p.active.any fun f => f.fills != []).foldl (fun s p => s.stopUnload p) s
      else if op = 2 then s.modWeights fun w => { w with checkErr := true }
      else s)

/-- STORE_DEVICE_FAIL (09 R256): the device's DEV_OK clears, and a load in progress cannot go on. -/
def execStoreDeviceFail (t : Nat) (dev : Fin 16) (s : State) : Host.Outcome State Fault Refusal :=
  let s := s.tick t
  .next (if !s.pwr.stage1Up then s
    else (s.modWeights fun w => { w with devBad := w.devBad ||| BitVec.ofNat 16 (2 ^ dev.val), devFail := true }).loadFails 0x92120000)

end Sys2Proof.Machine
end

