-- ==== Sys2Proof/Machine/Resilience.lean ====
section
/-! DEFINITION. The commands of detection, fencing and recovery (chapter 13; 06 R195, R198). -/

namespace Sys2Proof.Machine

/-! ### Fault notices (13 R355, R357, R358, R370) -/

/-- The captured witness comparison of a panel was of an exact band (02 R71, word 0x40). -/
def Panel.capExact (x : Panel) : Bool := (x.cap.getD 0 0).testBit 9

/-- A result of a step in flight on the bay's plan carries the ECC context status (13 R355 row 5). -/
def State.ctxEcc (s : State) (b : Nat) : Bool :=
  s.plans.any fun p => p.places b && match p.step with
    | some r => r.results.any fun e => match e.2 with | some x => x.ctx == 4 | none => false
    | none => false

/-- The rows of a notice, each with the panel its snag names: kinds 0 witness, 1 residue, 2 uncorrectable, 3 BOUND_ERR. Whether a
witness mismatch was exact is read from the panels' captures (DEDUCED, log 65). -/
def State.noticeRows (s : State) (b : Nat) (kinds : BitVec 4) (panels : BitVec 32) : List (Nat × Nat) :=
  let wit := (bitsOf panels 32).filter fun p => (s.panel (pkey b p)).witMismatch
  let ex := wit.filter fun p => (s.panel (pkey b p)).capExact
  let st := wit.filter fun p => !(s.panel (pkey b p)).capExact
  let rest := (bitsOf panels 32).filter fun p => !wit.contains p
  (if kinds.getLsbD 0 then
    (if ex = [] then [] else [(1, ex.headD 0xFF)]) ++ (if ex = [] ∨ st ≠ [] then [(2, st.headD 0xFF)] else []) else []) ++
  (if kinds.getLsbD 1 then [(4, rest.headD 0xFF)] else []) ++
  (if kinds.getLsbD 2 then [(5, 0xFF)] else []) ++
  (if kinds.getLsbD 3 then [(6, 0xFF)] else [])

/-- Panels of a notice whose exact mismatch came while CAL_DEGRADED was 1 (13 R358). -/
def State.degradedOf (s : State) (b : Nat) (panels : BitVec 32) : List Nat :=
  (((bitsOf panels 32).map (pkey b)).filter fun k => (s.panel k).witMismatch && (s.panel k).capExact && s.calDegraded k)

/-- The rows of a notice are recorded as strikes; the bay is suspect by the thresholds of R355 (any strikes on the bay count
towards a second; DEDUCED, log 59). -/
def State.noticeStrikes (s : State) (b : Nat) (spared : Bool) : List (Nat × Nat) → State × Bool
  | [] => (s, false)
  | (row, panel) :: l =>
    if row = 5 ∧ s.ctxEcc b then s.noticeStrikes b spared l
    else
      let s := s.strike row b panel
      let n := (s.strikesOf b).length
      let sus := (row == 1 && !spared) || row == 4 || row == 6 || ((row == 2 || row == 5) && decide (2 ≤ n))
      let r := s.noticeStrikes b spared l
      (r.1, sus || r.2)

/-- FAULT_NOTICE (13 R355–R358, R370): vector 11 on receipt; a notice of an old generation is logged only. -/
def execFaultNotice (t : Nat) (b : BayIx) (gen : BitVec 8) (kinds : BitVec 4) (panels : BitVec 32) (_cnt : Nat) (s : State) :
    Host.Outcome State Fault Refusal :=
  let s := (s.tick t).pfIrq vecFault
  .next (if gen ≠ s.gen ∨ s.mode = .withdrawn ∨ s.novkoUp = false then s
    else
      let rows := s.noticeRows b kinds panels
      let deg := s.degradedOf b panels
      let exact := ((bitsOf panels 32).filter fun p => (s.panel (pkey b p)).witMismatch && (s.panel (pkey b p)).capExact).length
      let r := s.noticeStrikes b (deg != [] && deg.length == exact) rows
      match rows with
      | [] => s
      | (row, _) :: _ => r.1.detected
          { row := row, hit := [b], sus := if r.2 then [b.val] else [], redig := rows.any fun e => decide (e.1 ≤ 2), skims := deg })

/-! ### Audit signatures (13 R361–R363) -/

/-- The plan and arms of a step that await a bay's signature of a stroke. -/
def Armed.awaits (a : Armed) (b stroke : Nat) : Bool :=
  (a.pair.obay == b && a.pair.ostroke == stroke && a.osig.isNone) || (a.pair.abay == b && a.pair.astroke == stroke && a.asig.isNone)

/-- A signature goes into an arm. -/
def Armed.sign (a : Armed) (b stroke : Nat) (crc : BitVec 64) : Armed :=
  if a.pair.obay = b ∧ a.pair.ostroke = stroke ∧ a.osig.isNone then { a with osig := some crc }
  else if a.pair.abay = b ∧ a.pair.astroke = stroke ∧ a.asig.isNone then { a with asig := some crc } else a

/-- Update the arms of a plan's step. -/
def State.modArms (s : State) (id : Nat) (f : Armed → Armed) : State :=
  s.modPlan id fun q => { q with step := q.step.map fun r => { r with arms := r.arms.map f } }

/-- Bays of a pair. -/
def Pair.bays (x : Pair) : List Nat := [x.obay, x.abay]

/-- Audit strikes on a bay in the window. -/
def State.auditStrikes (s : State) (b : Nat) : Nat := ((s.strikesOf b).filter (·.row == 7)).length

/-- A compared pair (13 R362, R363): a mismatch is a strike against both bays, and is judged or armed again; a match of a pair
armed again makes a bay with two audit strikes suspect. -/
def State.compared (s : State) (id : Nat) (a : Armed) : State :=
  let x := a.pair
  let s := (s.modArms id fun c => if c.pair = x then { c with judged := true } else c).modResil fun r =>
    { r with armed := satAdd r.armed 1 0xFFFFFFFF }
  if a.osig = a.asig then
    let sus := if a.again then x.bays.filter fun b => decide (2 ≤ s.auditStrikes b) else []
    if sus = [] then s else s.detected { row := 7, hit := x.bays, sus := sus }
  else
    let other := x.bays.filter fun b => (s.strikesOf b).any (·.row != 7)
    let s := s.modResil fun r => { r with mismatch := satAdd r.mismatch 1 0xFFFF }
    let s := s.snagCtl 0x20A0 2 [id, 256 * dieOf x.obay + bayOf x.obay, 256 * dieOf x.abay + bayOf x.abay,
      x.ostroke * 2 ^ 32 + x.astroke]
    let s := x.bays.foldl (fun s b => s.strike 7 b 0xFF) s
    let sus := if a.again then x.bays else other
    let s := if sus = [] then s.modArms id fun c => if c.pair = x then { c with again := true } else c else s
    s.detected { row := 7, hit := x.bays, sus := sus }

/-- AUDIT_SIGNATURE (13 R362, R370): a signature of an old generation is discarded. -/
def execAuditSignature (t : Nat) (b : BayIx) (gen : BitVec 8) (stroke : Nat) (crc : BitVec 64) (s : State) :
    Host.Outcome State Fault Refusal :=
  let s := s.tick t
  .next (if gen ≠ s.gen ∨ s.mode = .withdrawn then s
    else
      let arms (p : Loaded) : List Armed := match p.step with | some r => r.arms | none => []
      match s.plans.find? fun p => (arms p).any (·.awaits b stroke) with
      | some p =>
        let done := ((arms p).filter (·.awaits b stroke)).map fun a => a.sign b stroke crc
        let s := s.modArms p.img.id fun a => a.sign b stroke crc
        (done.filter fun a => a.osig.isSome && a.asig.isSome).foldl (fun s a => s.compared p.img.id a) s
      | none => s)

/-- AUDIT_SIGNATURE_TIMEOUT (13 R362, row 8 of R355): 1 ms after the step completed a signature has not arrived. -/
def execAuditSignatureTimeout (t plan : Nat) (s : State) : Host.Outcome State Fault Refusal :=
  let s := s.tick t
  .next (match s.plan plan with
    | some p =>
      match p.step with
      | some run =>
        let due := match run.doneAt with | some d => decide (d + 1000000 ≤ s.now) | none => false
        let miss := (run.arms.filter fun a => !a.judged && (a.osig.isNone || a.asig.isNone)).flatMap fun a =>
          (if a.osig.isNone then [(a.pair.obay, a.pair.ostroke)] else []) ++
          (if a.asig.isNone then [(a.pair.abay, a.pair.astroke)] else [])
        if !due || miss == [] || s.mode == .withdrawn then s
        else
          let s := miss.foldl (fun s e => (s.modResil fun r => { r with missing := satAdd r.missing 1 0xFFFF }).snagCtl 0x20A1 1
            [plan, 256 * dieOf e.1 + bayOf e.1, e.2, run.no]) s
          let s := s.modArms plan fun a => { a with judged := true }
          s.detected { row := 8, hit := miss.map (·.1) }
      | none => s
    | none => s)

/-! ### Hangs (13 R364, R365) -/

/-- The hang window of a plan, in ns (13 R364, R385). -/
def State.hangWindow (s : State) (p : Loaded) : Nat :=
  let w := 1000000 * max 10 s.resil.hangWindow.toNat
  match p.img.cert with
  | some c => max w (4 * (((c.steps.map fun x => c.bound x.1).foldl max 0 + 999) / 1000))
  | none => w

/-- A bay with scheduled work whose stroke count has not moved for the window (13 R364). -/
def State.hung (s : State) (p : Loaded) (b : Nat) : Bool :=
  let y := s.bay b
  y.seq.running && y.seq.prog.isSome && decide (y.movedAt + s.hangWindow p ≤ s.now)

/-- What a bay's stroke waits for: a flag, a line of a stream on a VC, an entry of a queue or room in one, or a receiver. -/
inductive WaitOn where
  | flag (f : Nat)
  | stream (st vc : Nat)
  | entry (q : Nat)
  | room (q : Nat)
  | taker (bay st vc : Nat)
  deriving DecidableEq

/-- The stream and VC of a route entry. -/
def routeStream (q : Seq) (r : BitVec 64) : Nat × Nat :=
  let x := q.routes.getD (xRoute r) 0
  (fld x 37 12, if rtType x = 2 then fld x 57 2 else xVc r)

/-- The waits of a stopped bay (05 R138): the flags of a stroke that has not started, or the open transfers of one that has. -/
def State.waitsOf (s : State) (p : Loaded) (b : Nat) : List WaitOn :=
  let y := s.bay b
  match y.seq.cur with
  | none =>
    match y.seq.strokes[y.seq.pc]? with
    | some w => ((stWaits w).filter fun f => !y.flag f).map .flag
    | none => []
  | some r => (r.xfers.filter (!·.finished)).flatMap fun x =>
      let st := routeStream y.seq x.word
      match xKind x.word with
      | 0 => (sendTargets p.trees b (y.seq.routes.getD (xRoute x.word) 0)).map fun c => .taker c st.1 (xVc x.word)
      | 1 => [.stream st.1 st.2]
      | 2 => [.room (xQueue x.word)]
      | 3 => [.entry (xQueue x.word)]
      | _ => []

/-- A stroke that would satisfy a wait: its bay and index, and the route its message takes. -/
structure Producer where
  bay : Nat
  stroke : Nat
  route : Option (BitVec 64) := none

/-- Transfers of a stroke; an audit stroke's count only when armed (05 R151). -/
def sentXfers (q : Seq) (w : BitVec 256) : List (BitVec 64) := if stAudit w then [] else q.strokeXfers w

/-- The strokes of a plan that would satisfy a wait of bay `b` (13 R365). -/
def Loaded.producers (p : Loaded) (b : Nat) (w : WaitOn) : List Producer :=
  p.live.flatMap fun e =>
    let q := e.seq
    e.strokes.zipIdx.flatMap fun x =>
      let own (c : Bool) : List Producer := if c && e.bay == b then [⟨e.bay, x.2, none⟩] else []
      let sends (k : Nat) (f : BitVec 64 → BitVec 64 → Bool) : List Producer :=
        ((sentXfers q x.1).filter fun r => xKind r == k && f r (q.routes.getD (xRoute r) 0) &&
          (sendTargets p.trees e.bay (q.routes.getD (xRoute r) 0)).contains b).map fun r =>
            ⟨e.bay, x.2, some (q.routes.getD (xRoute r) 0)⟩
      let has (f : BitVec 64 → Bool) : Bool := (sentXfers q x.1).any f
      match w with
      | .flag f => own ((stSets x.1).contains f) ++ sends 5 fun r _ => xDst r % 256 == f
      | .stream st vc => sends 0 fun r rt => fld rt 37 12 == st && xVc r == vc
      | .entry k => own (has fun r => (xKind r == 2 && xQueue r == k) || (xKind r == 1 && xToQueue r && xQueue r == k))
      | .room k => own (has fun r => xKind r == 3 && xQueue r == k)
      | .taker c st vc =>
        if e.bay = c ∧ has (fun r => xKind r == 1 && routeStream q r == (st, vc)) then [⟨e.bay, x.2, none⟩] else []

/-- A producer has not completed: its bay is still at or before that stroke of its program. -/
def State.producing (s : State) (p : Loaded) (x : Producer) : Bool :=
  let q := (s.bay x.bay).seq
  q.running && decide (q.pc ≤ x.stroke) && match q.prog with
    | some k => p.live.any fun e => e.bay == x.bay && e.inProgram k x.stroke
    | none => false

/-- The route of an awaited message crosses a sink or a closed local port (13 R365). -/
def State.lostRoute (s : State) (p : Loaded) (x : Producer) : Bool :=
  match x.route with
  | some r =>
    s.localClosed x.bay || (sendTargets p.trees x.bay r).any s.localClosed ||
    (if rtType r = 1 then
      match treeOf p.trees (fld r 29 8) with
      | some t => t.nodes.any fun n => (bitsOf n.2 4).any (s.isSink n.1)
      | none => false
    else match routePath x.bay r with
      | some l => l.any fun e => decide (e.2 < 4) && s.isSink e.1 e.2
      | none => false)
  | none => false

/-- The verdicts of R365 on a stopped bay. -/
inductive Verdict where
  | root | waits | lost | edge (k : Nat) | peer
  deriving DecidableEq

/-- The Context die a bay's sends go to, if any. -/
def Loaded.asksCtx (p : Loaded) (b : Nat) : Option Nat :=
  let d := (p.live.filter fun e => e.bay == b).flatMap fun e => e.routes.flatMap (exitDies p.trees e.bay)
  if d.contains 17 then some 0 else if d.contains 18 then some 1 else none

/-- The trace of a stopped bay's wait (13 R365). A line of a stream that no bay of the plan sends comes from the Context die that
the bay asks, or else from a peer of a spread plan (DEDUCED, log 66). -/
def State.verdict (s : State) (p : Loaded) (b : Nat) : Verdict :=
  let ws := s.waitsOf p b
  let ps := ws.flatMap (p.producers b)
  let orphan := ws.any fun w => match w with | .stream _ _ => p.producers b w |>.isEmpty | _ => false
  if (s.bay b).seq.halted then .root
  else if ps.any (s.producing p) then .waits
  else if ps.any (s.lostRoute p) then .lost
  else match orphan, p.asksCtx b with
    | true, some k => .edge k
    | true, none => if s.othersOf p = [] then .root else .peer
    | false, _ => .root

/-- A hang of a plan (13 R365): snag 0x2090, strikes, and the plan with repeated hangs without a root stops. -/
def State.hang (s : State) (p : Loaded) (l : List Nat) : State :=
  let v := l.map fun b => (b, s.verdict p b)
  let roots := (v.filter fun e => e.2 == .root).map (·.1)
  let dies := [0, 1].filter fun k => v.any fun e => e.2 == .edge k
  let prog := ((s.bay (l.headD 0)).seq.prog).getD 0
  let no := match p.step with | some r => r.no | none => 0
  let s := s.snagCtl 0x2090 2 [p.img.id, prog, if roots = [] ∧ dies ≠ [] then 0xFFFF else roots.length, no]
  let s := roots.foldl (fun s b => s.strike 9 b 0xFF) s
  let s := dies.foldl (fun s k => s.strike 9 (1152 + k) 0xFF) s
  let hbm := dies.any fun k => decide (2 ≤ (s.strikesOf (1152 + k)).length)
  let dead := v.all fun e => e.2 == .waits
  let recent := (p.hangs.filter fun e => e.1 == prog && decide (s.now ≤ e.2 + strikeWindow)).length
  let s := if dead then s.modPlan p.img.id fun q => { q with hangs := q.hangs ++ [(prog, s.now)] } else s
  let sus := roots.filter fun b => decide (2 ≤ (s.strikesOf b).length)
  let s := s.detected { row := 9, hit := l, sus := sus }
  let s := if hbm && s.mode == .recovering then s.modResil fun x => { x with hbmDue := true } else s
  if dead && decide (1 ≤ recent) && s.mode != .withdrawn then
    match s.plan p.img.id with
    | some q => (s.snagCtl 0x20D0 1 [p.img.id, prog]).stopUnload q
    | none => s
  else s

/-- HANG_SAMPLE (13 R364): in SERVING, 10 ms after the last sample, each plan's bays with scheduled work are judged. -/
def execHangSample (t : Nat) (s : State) : Host.Outcome State Fault Refusal :=
  let s := s.tick t
  let due := match s.resil.sampled with | some a => decide (a + 10000000 ≤ s.now) | none => true
  .next (if s.mode != .serving || !due then s
    else
      let s := s.modResil fun x => { x with sampled := some s.now }
      s.running.foldl (fun s p =>
        let l := (p.live.map (·.bay)).filter (s.hung p)
        if s.mode != .serving || l == [] then s else s.hang p l) s)

/-- CORE_WATCHDOG_EXPIRY (13 R366): the core restarts; a second expiry within 15 minutes drops it until OFF. -/
def execCoreWatchdogExpiry (t : Nat) (core : Fin 4) (s : State) : Host.Outcome State Fault Refusal :=
  let s := s.tick t
  .next (if !s.novkoUp || !s.resil.coresUp.getLsbD core then s
    else
      let again := s.resil.expiries.any fun e => e.1 == core.val && decide (s.now ≤ e.2 + strikeWindow)
      let s := s.modResil fun x => { x with
        expiries := x.expiries ++ [(core.val, s.now)],
        coresUp := if again then x.coresUp &&& ~~~(BitVec.ofNat 4 (2 ^ core.val)) else x.coresUp }
      s.snagCtl 0x20B3 1 [core, if again then 1 else 0, s.resil.coresUp.toNat])

/-! ### The stages of a recovery (13 R378, R379) -/

/-- QUIESCE_DONE (13 R368, R378). -/
def execQuiesceDone (t : Nat) (s : State) : Host.Outcome State Fault Refusal :=
  let s := s.tick t
  .next (if s.mode = .recovering ∧ s.resil.stage = 1 then s.resetStage else s)

/-- A skim of R358: current mode; the other trim sets count as never skimmed in it. -/
def State.skimDegraded (s : State) (k : Nat) (res : BitVec 8) : State :=
  let set := s.trimSetOf k
  let s := s.skimEnds (k / 32) (k % 32) false res
  (List.range 4).foldl (fun s i =>
    if i = set then s else
      let x := s.trimOf k i
      s.modPanel k fun y => { y with trims := mset none y.trims i (some { x with cur := none }) }) s

/-- COMPUTE_RESET_DONE (13 R358, R368, R372): the skims end; a panel still beyond EXACT_LIMIT makes its bay suspect; the compute
reset stage runs again, or the next stage begins. The stage of a module that leaves WITHDRAWN ends in READY (13 R381). -/
def execComputeResetDone (t : Nat) (skims : List (Nat × BitVec 8)) (s : State) : Host.Outcome State Fault Refusal :=
  let s := s.tick t
  .next (if s.mode = .recovering ∧ s.resil.stage = 2 then
      let l := s.resil.degraded
      let s := l.foldl (fun s k =>
        match skims.find? fun e => e.1 == k with
        | some e => s.skimDegraded k e.2
        | none => (s.skimDegraded k (BitVec.ofNat 8 s.freeVal)).drawn) s
      let bad := ((l.filter s.calDegraded).map (· / 32)).dedup.filter fun b => !s.fenced b
      let s := (s.modResil fun x => { x with degraded := [], again := x.again || bad != [] }).fenceBays bad 0
      s.nextStage
    else s)

/-- A panel of the re-digest is rewritten from the store and read back (13 R378). -/
def State.rewritePanel (s : State) (k : Nat) (ok : Bool) : State × Bool :=
  let b := s.liveBank k
  let r := s.bankRec k b
  match (if s.weights.devBad = 0 then s.store.byDigest r.set else none) with
  | some img =>
    match img.records.find? fun x => recKey x == k with
    | some x => (s.modPanel k fun y => (List.range 1024).foldl (fun y i => y.commitRow b i (mget 0 x.rows i)) y, ok)
    | none => (s, false)
  | none => (s, false)

/-- WEIGHT_REDIGEST_DONE (13 R378): `bad` lists panels the read found differing, and whether the readback after the rewrite
matched. A panel that cannot be rewritten counts as one whose readback failed (DEDUCED, log 67). -/
def execWeightRedigestDone (t : Nat) (bad : List (Nat × Bool)) (s : State) : Host.Outcome State Fault Refusal :=
  let s := s.tick t
  .next (if s.mode = .recovering ∧ s.resil.stage = 3 then
      let r := s.readBanks false
      let s := r.1
      let l := ((r.2 ++ s.resil.redigest ++ bad.map (·.1)).dedup.mergeSort (· ≤ ·)).filter fun k =>
        (s.bankRec k (s.liveBank k)).st == .live
      let s := s.modResil fun x => { x with redigest := [], redig := false }
      let s := l.foldl (fun s k =>
        let w := s.rewritePanel k (match bad.find? fun e => e.1 == k with | some e => e.2 | none => true)
        let s := w.1.snagBay (k / 32) 0x20C0 1 [k, w.1.liveBank k, if w.2 then 0 else 1]
        if w.2 || s.fenced (k / 32) then s
        else (s.fenceBays [k / 32] 0).modResil fun x => { x with again := true }) s
      s.nextStage
    else s)

/-- HBM_RETRAIN_DONE (13 R378; 07 R231): a stack that failed leaves service. -/
def execHbmRetrainDone (t : Nat) (failed : List (Fin 12)) (s : State) : Host.Outcome State Fault Refusal :=
  let s := s.tick t
  .next (if s.mode = .recovering ∧ s.resil.stage = 4 then
      let s := failed.foldl (fun s i => s.stackLeaves (i.val / 6) (i.val % 6) 2) s
      let s := (s.closeSlots 0).closeSlots 1
      let s : State := { s with ctx0 := { s.ctx0 with badReads := [] }, ctx1 := { s.ctx1 with badReads := [] } }
      (s.modResil fun x => { x with hbmDue := false }).nextStage
    else s)

/-- FABRIC_RETRAIN_DONE (13 R378): no port of the stage is in training any more. -/
def execFabricRetrainDone (t : Nat) (s : State) : Host.Outcome State Fault Refusal :=
  let s := s.tick t
  .next (if s.mode = .recovering ∧ s.resil.stage = 5 ∧ s.retraining = false then s.nextStage else s)

/-- RESUME_DONE (13 R372, R378): a detection since the last stage adds its stages first. A recovery whose 8 s are over by now withdraws
instead (13 R379, 00 R6). -/
def execResumeDone (t : Nat) (s : State) : Host.Outcome State Fault Refusal :=
  let s := s.tick t
  .next (if s.mode = .recovering ∧ s.resil.stage = 6 then
      if s.resil.again || [3, 4, 5].any (s.stageDue ·) then s.nextStage
      else if s.resil.entered + 8000000000 ≤ s.now then s.withdraw 1
      else s.finishRecovery
    else s)

/-- RECOVERY_TIMEOUT (13 R379): 8 s after the module entered RECOVERING. -/
def execRecoveryTimeout (t : Nat) (s : State) : Host.Outcome State Fault Refusal :=
  let s := s.tick t
  .next (if s.mode = .recovering ∧ s.resil.entered + 8000000000 ≤ s.now then s.withdraw 1 else s)

/-! ### FENCE, UNFENCE, RESET_COMPUTE (13 R368, R371, R373, R376, R380) -/

/-- A started plan, or one that starts, places a bay. -/
def State.placedBy (s : State) (b : Nat) : Bool := s.plans.any fun p => (p.started || p.starting) && p.places b

/-- FENCE of a bay (13 R373); a reserved KIND is refused here too. -/
def execFence (t fn slot : Nat) (s : State) : Host.Outcome State Fault Refusal :=
  .next ((s.tick t).runCmd fn slot 0x70 (fun c => c.arg 0 1 != 1) { pf := true, states := modesCompute, expert := true }
    (fun c => c.onlyArgs [(0, 3)]) fun s c =>
      let b := 72 * c.arg 1 1 + c.arg 2 1
      if c.arg 0 1 ≠ 0 ∨ 16 ≤ c.arg 1 1 ∨ 72 ≤ c.arg 2 1 then .comp s stBadArg 0 []
      else if s.fenced b then .comp s stOk 0 []
      else if s.placedBy b then .waits (((s.wait fn slot c.id .resume).startRecovery 21 false false).fenceBays [b] 1)
      else .comp (s.fenceBays [b] 1) stOk 0 [])

/-- FENCE of a router (13 R373; 06 R195, R198): an expert argument (DEDUCED for the missing flag, log 60); a router already
hard-fenced gives OK (log 62). -/
def execFenceRouter (t fn slot : Nat) (s : State) : Host.Outcome State Fault Refusal :=
  .next ((s.tick t).runCmd fn slot 0x70 (fun c => c.arg 0 1 == 1) { pf := true, states := modesCompute, expert := true }
    (fun c => c.onlyArgs [(0, 3)]) fun s c =>
      let b := 72 * c.arg 1 1 + c.arg 2 1
      if !c.expert ∨ 16 ≤ c.arg 1 1 ∨ 72 ≤ c.arg 2 1 then .comp s stBadArg 0 []
      else if s.rtrFenced b then .comp s stOk 0 []
      else
        let s := s.hardFence b 2 0
        if s.placedBy b || s.running.any (s.crosses ·) then
          .waits (((s.wait fn slot c.id .resume).startRecovery 21 false false).fenceBays [b] 3)
        else .comp (s.fenceBays [b] 3) stOk 0 [])

/-- The rails a bay runs on have faulted (13 R376). -/
def State.railGone (s : State) (b : Nat) : Bool :=
  [leafOf b, 32 + dieOf b, 48 + dieOf b].any fun r => match mget Rail.off s.pwr.rails r with | .fault | .cut => true | _ => false

/-- UNFENCE (13 R376): at once where no started plan's placement changes, else in an uncounted compute reset. -/
def execUnfence (t fn slot : Nat) (s : State) : Host.Outcome State Fault Refusal :=
  .next ((s.tick t).runCmd fn slot 0x71 (fun _ => true) { pf := true, states := modesCompute } (fun c => c.onlyArgs [(0, 3)])
    fun s c =>
      let b := 72 * c.arg 1 1 + c.arg 2 1
      if c.arg 0 1 ≠ 0 ∨ 16 ≤ c.arg 1 1 ∨ 72 ≤ c.arg 2 1 ∨ s.fenced b = false then .comp s stBadArg 0 []
      else if s.rtrFenced b || s.railGone b then .comp s stRefused 0 []
      else
        let rest (x : Nat) : Bool := s.fenced x && x != b
        if s.running.any fun p => s.choose p rest != some p.placement then
          .waits (((s.wait fn slot c.id .resume).startRecovery 21 false false).modResil fun x => { x with unfences := x.unfences ++ [b] })
        else .comp (s.unfenceOne b 0) stOk 0 [])

/-- RESET_COMPUTE (13 R368, R380): a counted compute reset; it completes at resume. -/
def execResetCompute (t fn slot : Nat) (s : State) : Host.Outcome State Fault Refusal :=
  .next ((s.tick t).runCmd fn slot 0x72 (fun _ => true) { pf := true, states := modesCompute } (fun c => c.onlyArgs [])
    fun s c => .waits ((s.wait fn slot c.id .resume).startRecovery 20 true false))

/-! ### Hard fences of the mesh (06 R179, R195) -/

/-- LINK_CRC_FAIL (06 R179, R195; 13 R355 row 11): a handshake into `port` of router `b` fails and is replayed, or the link goes
down. -/
def execLinkCrcFail (t : Nat) (b : BayIx) (port : Fin 4) (s : State) : Host.Outcome State Fault Refusal :=
  let s := s.tick t
  let r := s.rtr b
  let d2d := if portD2d b port then 1 else 0
  .next (if !s.linkUp b port then s
    else
      let n := mget 0 r.fails port + 1
      if n ≤ r.retryLimit.toNat then
        let cnt := satAdd (mget 0 r.retry port) 1 255
        let s := s.stickyRtr b r.retrySeen
          (fun r => { r with retrySeen := true, fails := mset 0 r.fails port n, retry := mset 0 r.retry port cnt })
          0x3001 0 [port, cnt, d2d]
        let s := s.intrude 5
        match nbr b port with
        | .router c =>
          match s.pickLine c (opposite port) with
          | some (i, v, _) => s.modRtr c fun q => { q with replay := mset none q.replay (opposite port) (some (4 * i + v)) }
          | none => s
        | _ => s
      else
        let far := match nbr b port with | .router c => 256 * meshX c + meshY c | _ => 0xFFFF
        let s := s.stickyRtr b (r.linkDown.getLsbD port)
          (fun r => { r with linkDown := r.linkDown ||| BitVec.ofNat 4 (2 ^ port.val), fails := mset 0 r.fails port n })
          0x3002 2 [port, d2d, far, n]
        match nbr b port with
        | .router _ => (s.hardFence b 0 port).hardFound [b]
        | _ => s)

/-- RTR_HARD_FENCE_WRITE (06 R195; 13 R355 row 11). -/
def execRtrHardFenceWrite (t : Nat) (b : BayIx) (s : State) : Host.Outcome State Fault Refusal :=
  let s := s.tick t
  .next (if s.rtrFenced b then s else (s.hardFence b 2 0).hardFound [b])

/-! ### Rails (01 R34; 13 R355 rows 10 to 12) -/

/-- Bays of a leaf, and of a die. -/
def leafBays (l : Nat) : List Nat := (List.range 72).filterMap fun i => let b := 72 * (l / 2) + i; if leafOf b = l then some b else none
def dieBays (d : Nat) : List Nat := (List.range 72).map (72 * d + ·)

/-- Every router of a die is hard-fenced, with one snag (06 R195, R199). -/
def State.hardFenceDie (s : State) (d rail : Nat) : State :=
  let s := (dieBays d).foldl (fun s b => s.modRtr b fun r =>
    { r with hardFenced := true, bufs := [], lock := [], localIn := [], localFrom := [], replay := [] }) s
  s.snagCtl 0x3010 2 [1, rail]

/-- What a rail of stage 2 or 3 takes with it when it faults (01 R34; 06 R195; 07 R231; 10 R283; 13 R355, R383). -/
def State.lostRail (s : State) (r : Nat) : State :=
  if r < 32 then s.detected { row := 10, hit := leafBays r, sus := leafBays r, fcause := 2 }
  else if r < 48 then (s.hardFenceDie (r - 32) r).hardFound (dieBays (r - 32))
  else if r < 64 then s.detected { row := 10, hit := dieBays (r - 48), sus := dieBays (r - 48), fcause := 2 }
  else if r < 66 then
    { s with fab := { s.fab with ports := (List.range 16).foldl (fun m i => mset {} m i { s.port i with st := .dark, width := 0 }) s.fab.ports } }
  else (s.loseCtx (r % 2)).closeSlots (r % 2)

end Sys2Proof.Machine
end

