-- ==== Sys2Proof/Machine/Fabric.lean ====
section
/-! DEFINITION. The fabric ports, the flits and the spread plans' messages (chapter 10; 12 R341). -/

namespace Sys2Proof.Machine

/-- The width good lanes allow (10 R288). -/
def laneWidth (lanes : BitVec 8) : Nat :=
  let n := (bitsOf lanes 8).length
  if 8 ≤ n then 8 else if 4 ≤ n then 4 else if 2 ≤ n then 2 else n

/-! ### Sending (10 R277–R280) -/

/-- The SEQ before another. -/
def seqPrev (n : Nat) : Nat := (n + 4095) % 4096

/-- Credits or counts per VC. -/
def vcGet (l : List Nat) (v : Nat) : Nat := l.getD v 0
def vcSet (l : List Nat) (v x : Nat) : List Nat := l.set v x

/-- The next flit of a port on a VC (10 R279): of the message that is going out, else round robin among the attach links. -/
def Port.next (x : Port) (v : Nat) : Option TxFlit :=
  let q := x.queue.filter fun e => e.f.vc == v
  if vcGet x.tx v = 0 then none
  else match mget 0 x.txOpen v with
    | l + 1 => q.find? fun e => e.link == l
    | 0 => ((List.range 33).map fun i => (mget 32 x.rr v + 1 + i) % 33).findSome? fun l => q.find? fun e => e.link == l

/-- The next flit a port sends (10 R279; 06 R187): the lowest VC with credit, with the yield after 256 to the lower VC whose flit has waited
longest. The flag says whether a lower VC waited and lost. -/
def Port.pick (x : Port) : Option (TxFlit × Bool) :=
  match (List.range 4).filterMap x.next with
  | [] => none
  | f :: low =>
    if low ≠ [] ∧ 256 ≤ x.burst then (x.queue.find? fun g => low.contains g).map fun g => (g, false)
    else some (f, !low.isEmpty)

/-- The key of a session, as the Fabric die's engines hold it (12 R340). -/
def State.fabKey (s : State) (i : Nat) : List Byte := match mget none s.keep.fabSess i with | some x => x.key | none => []

/-- The CREDIT field of the next flit (10 R278, R279): at most 15 freed buffers per VC. -/
def Port.credits (x : Port) : List Nat := (List.range 4).map fun v => min 15 (vcGet x.owed v)

/-- The credits in a flit have been returned. -/
def Port.returned (x : Port) : Port :=
  { x with owed := (List.range 4).map fun v => vcGet x.owed v - min 15 (vcGet x.owed v),
           rx := (List.range 4).map fun v => vcGet x.rx v + min 15 (vcGet x.owed v) }

/-- A port sends what it may (10 R277, R279, R280): never more than 512 flits unacknowledged, nothing during a width change. Flit k since striping
started goes on logical lane k mod w. -/
def State.pumpPort (s : State) (p : Nat) : Nat → State
  | 0 => s
  | n + 1 =>
    let x := s.port p
    if x.st ≠ .up ∨ x.changing = true ∨ 512 ≤ x.sent.length then s
    else match x.pick with
      | none => s
      | some (e, waited) =>
        let v := e.f.vc
        let g := { e.f with seq := x.txSeq, ack := seqPrev x.rxSeq, credit := x.credits }
        let g := { g with crc := crcOf (s.fabKey g.session) g }
        let s := s.modPort p fun x => { x.returned with
          queue := x.queue.erase e, sent := x.sent ++ [(x.txSeq, g)], txSeq := (x.txSeq + 1) % 4096,
          ackAt := if x.sent = [] then s.now else x.ackAt, rr := mset 32 x.rr v e.link,
          txOpen := mset 0 x.txOpen v (if e.f.last then 0 else e.link + 1),
          tx := vcSet x.tx v (vcGet x.tx v - 1), burst := if waited then x.burst + 1 else 0 }
        (s.sendOut p (.data ((x.txSeq + 4096 - x.stripe) % 4096 % max 1 x.width) g)).pumpPort p n

/-- A port sends what waits. -/
def State.pump (s : State) (p : Nat) : State := s.pumpPort p (s.port p).queue.length

/-- Credits that no flit has carried go back in an IDLE flit (10 R279). -/
def State.giveBack (s : State) (p : Nat) : State :=
  let x := s.port p
  if x.st = .up ∧ x.changing = false ∧ x.owed ≠ [0, 0, 0, 0] then
    (s.modPort p Port.returned).sendOut p (.idle (seqPrev x.rxSeq) x.credits)
  else s

/-- The port that serves a plane (10 R290): its own if UP, else the lowest-numbered UP port. -/
def State.portOf (s : State) (plane : Nat) : Option Nat :=
  let up (p : Nat) : Bool := (s.port p).st == .up
  match (List.range 16).find? fun p => s.wiredPlane p == some plane && up p with
  | some p => some p
  | none => (List.range 16).find? up

/-- Messages that wait at a port that is not UP move to the ports that serve their planes (10 R290). -/
def State.rehome (s : State) : State :=
  let s := (List.range 16).foldl (fun s p =>
    if (s.port p).st = .up then s
    else
      (s.port p).queue.foldl (fun s e => match s.portOf e.plane with
        | some d => (s.modPort p fun x => { x with queue := x.queue.erase e }).modPort d fun x => { x with queue := x.queue ++ [e] }
        | none => s) s) s
  (List.range 16).foldl (fun s p => s.pump p) s

/-- A port goes DOWN (10 R289): cause 0 no lane, 1 MIN_WIDTH, 2 retry limit. -/
def State.portDown (s : State) (p cause : Nat) : State :=
  let w := (s.port p).width
  ((s.portTo p .down fun x =>
    { x.lose with trainAt := s.now, retrain := false, trainedOnce := true, eyes := 0 }).snagPort p 0x5003 2 [cause, w]).rehome

/-- A replay from ACK + 1 (10 R280): the sixteenth in a row without progress takes the port DOWN. -/
def State.replayPort (s : State) (p : Nat) : State :=
  let x := s.port p
  if x.sent = [] then s
  else
    let s := x.sent.foldl (fun s e => s.sendOut p (.replay e.1)) s
    let s := (s.modPort p fun x => { x with replays := x.replays + 1, retrySeen := true, retry := satAdd x.retry 1 0xFFFF }).intrude 5
    if 16 ≤ (s.port p).replays then s.portDown p 2 else s

/-- An ACK is inside the outstanding window (10 R291). -/
def Port.ackOk (x : Port) (ack : Nat) : Bool := ack == x.acked || x.sent.any fun e => e.1 == ack

/-- The ACK and CREDIT fields of a flit are applied (10 R278–R280). -/
def Port.acknowledge (x : Port) (now ack : Nat) (credit : List Nat) : Port :=
  let x := if ack = x.acked then x
    else { x with acked := ack, ackAt := now, replays := 0, sent := (x.sent.dropWhile fun e => e.1 != ack).drop 1 }
  { x with tx := (List.range 4).map fun v => min 32 (vcGet x.tx v + vcGet credit v) }

/-- PORT_TRAINING_DONE (10 R283, R288, R289); in a recovery the next DOWN port trains then (13 R378). -/
def execPortTrainingDone (t : Nat) (p : Fin 16) (lanes : BitVec 8) (plane rack down : Nat) (s : State) :
    Host.Outcome State Fault Refusal :=
  let s := s.tick t
  let x := s.port p
  .next (if x.st ≠ .training then s
    else State.retrainNext (match s.fab.coords with
      | some c =>
        let good := lanes &&& ~~~x.disable
        let w := laneWidth good
        let want := c.planes.getD p 0xFF
        if w = 0 then s.portDown p 0
        else if w < 2 ^ x.minWidth.toNat then s.portDown p 1
        else if plane ≠ want ∨ rack ≠ c.rack ∨ down ≠ c.slot then
          (s.portTo p .wiringErr fun x => { x with ctrl := false, retrain := false, trainedOnce := true }).snagPort p 0x5012 2
            [want * 2 ^ 16 + c.rack, plane * 2 ^ 16 + rack, c.slot, down]
        else
          ((s.portTo p .up fun x => { x with
            width := w, lanes := good, rack := rack, linkId := some (plane, rack, down), ctrl := false, retrain := false,
            trainedOnce := true }).snagPort p 0x5001 0 [w, plane, rack, good.toNat]).rehome
      | none => s) p)

/-- Lines in groups of a flit's eight slots. -/
def flitGroups : Nat → List Line → List (List Line)
  | 0, _ => []
  | n + 1, l => if l = [] then [] else l.take 8 :: flitGroups n (l.drop 8)

/-- A message is framed on the port of a plane (10 R278, R286; 12 R341): each flit of a session takes the next counter, and is sealed. `link`
is the attach link it came by. -/
def State.frame (s : State) (p plane link : Nat) (f : Flit) (ls : List Line) : State :=
  let g := flitGroups 64 ls
  let key := 64 * f.session + 4 * plane + f.vc
  let base := mget 0 s.keep.ivTx key
  let iv (i : Nat) : BitVec 64 :=
    if f.session = 0 then 0 else BitVec.ofNat 64 (plane % 16 * 2 ^ 60 + f.vc % 4 * 2 ^ 58 + (base + 1 + i) % 2 ^ 58)
  let l := g.zipIdx.map fun e =>
    let x : Flit := { f with first := e.2 == 0, last := e.2 + 1 == g.length, nlines := e.1.length, lines := e.1, enc := f.session != 0,
                             iv := iv e.2, src := s.moduleAddr, genSrc := s.gen }
    { x with tag := if x.enc then (sealOf (s.fabKey x.session) x).2 else 0 }
  let s := if f.session = 0 then s
    else { s with keep := { s.keep with ivTx := mset 0 s.keep.ivTx key (base + g.length) } }
  (s.modPort p fun x => { x with queue := x.queue ++ l.map fun f => { plane := plane, link := link, f := f } }).pump p

/-! ### Egress (10 R286) -/

/-- A message's target or stream is unknown (10 R286, R287): TARGET_ERR. -/
def State.targetDrop (s : State) : State :=
  s.modFab fun x => { x with targetErr := true, targetCnt := satAdd x.targetCnt 1 0xFFFF }

/-- A stale message (10 R286, R292): STALE_CNT; an inbound one sets STALE_DROP with snag 0x5020. -/
def State.staleFab (s : State) (f : Option Flit) : State :=
  let was := s.fab.staleDrop
  let s := s.modFab fun x => { x with staleCnt := satAdd x.staleCnt 1 0xFFFF, staleDrop := x.staleDrop || f.isSome }
  match f with
  | some f => if was then s else s.snag 0x5020 0 16 0x7FF [f.src, f.genSrc.toNat, f.genDst.toNat, s.gen.toNat]
  | none => s

/-- A slot table entry's bytes (05 R141). -/
def slotBytes (e : SlotEnt) : List Byte :=
  leBytes 8 e.seed.toNat ++ leBytes 4 e.pos.toNat ++ leBytes 4 (if e.valid then 1 else 0)

/-- A set-up or retire record's bytes (10 R294). -/
def recBytes (x : StepRec) : List Byte :=
  leBytes 1 x.kind ++ leBytes 1 x.slot ++ leBytes 1 x.cls ++ leBytes 1 x.flags ++ leBytes 4 x.n ++ leBytes 8 x.seed.toNat ++
  leBytes 8 x.handle.toNat ++ leBytes 8 0

/-- What a session set-up message holds before its signature (12 R339), in the order the manual lists it (DEDUCED, log 68). -/
def keyBody (m : KeyMsg) : List Byte :=
  leBytes 2 m.session ++ leBytes 2 m.addr ++ leBytes 64 m.root.toNat ++ m.ek ++ m.ekSig ++ m.ct ++ m.wrapped ++ m.chain

/-- The bytes of a management message (10 R294; 12 R339). -/
def FabMsg.bytes (m : FabMsg) : List Byte :=
  let bit (b : Bool) (n : Nat) : Nat := if b then n else 0
  let line (b : List Byte) : List Byte := b ++ List.replicate (64 - b.length) 0
  match m with
  | .genNotice p st g => line (leBytes 8 1 ++ leBytes 8 p ++ leBytes 1 st ++ leBytes 1 g.toNat)
  | .stepOrder p no k sw rr sl rs =>
    line (leBytes 8 2 ++ leBytes 8 p ++ leBytes 4 no ++ leBytes 1 k ++ leBytes 1 (bit sw 1 + bit rr 2) ++
      leBytes 2 (rs.filter (·.kind == 1)).length ++ leBytes 2 (rs.filter (·.kind == 2)).length) ++
    sl.flatMap slotBytes ++ (rs.filter (·.kind == 1) ++ rs.filter (·.kind == 2)).flatMap recBytes
  | .stepReport p no late res ns =>
    line (leBytes 8 3 ++ leBytes 8 p ++ leBytes 4 no ++ leBytes 4 (1 + bit late 2 + bit res 4) ++ leBytes 8 ns)
  | .stepAbort p no => line (leBytes 8 4 ++ leBytes 8 p ++ leBytes 4 no)
  | .keyRequest x => line (leBytes 1 0x10) ++ keyBody x ++ x.sig
  | .keyGrant x => line (leBytes 1 0x11) ++ keyBody x ++ x.sig
  | .keyAck x => line (leBytes 8 0x12 ++ leBytes 2 x)

/-- Bytes as whole lines. -/
def toLines : Nat → List Byte → List Line
  | 0, _ => []
  | n + 1, b => if b = [] then [] else { data := BitVec.ofNat 512 (leNat (b.take 64)) } :: toLines n (b.drop 64)

/-- The head of Novko's queue is framed (10 R286) on the lowest UP port, with that port's plane (DESIGN CHOICE, log 69). -/
def State.frameMgmt (s : State) : State :=
  match s.fab.mgmtQ with
  | [] => s
  | (dst, session, vc, m) :: q =>
    match (List.range 16).find? fun p => (s.port p).st == .up with
    | none => s
    | some p =>
      let any := match m with | .genNotice _ _ _ => true | .keyRequest _ => true | .keyGrant _ => true | _ => false
      let f : Flit := { ftype := 3, vc := vc, genAny := match m with | .genNotice _ _ _ => true | _ => false, dst := dst,
                        genDst := (mget none s.fab.peers dst).getD 0, session := if any && session = 0 then 0 else session }
      let b := m.bytes
      (s.modFab fun x => { x with mgmtQ := q }).frame p ((s.wiredPlane p).getD 0) 32 f (toLines (b.length + 1) b)

/-- A GEN_NOTICE of this generation waits: it goes out before any flit of the generation (10 R293). -/
def State.noticeDue (s : State) : Bool :=
  s.fab.mgmtQ.any fun e => e.2.2.2.notice

/-- FABRIC_EGRESS_MESSAGE (10 R286, R290): a message that waits at an attach link; with no lines, Novko's next management message.
A message no port can take waits. -/
def execFabricEgressMessage (t : Nat) (link : Fin 32) (ms : List MLine) (s : State) : Host.Outcome State Fault Refusal :=
  let s := s.tick t
  .next (match ms with
    | [] => s.frameMgmt
    | m :: _ =>
      match s.takeEdge 16 link ms with
      | none => s
      | some u =>
        let h := m.hdr
        if hGen h ≠ s.gen then u.staleFab none
        else if s.noticeDue then s
        else match (if hKind h = 0 ∧ hUnit h = 0 then mget none s.fab.streams (hStream h) else none) with
          | none => u.targetDrop
          | some e =>
            match mget none s.fab.peers e.dst with
            | none => u.modFab fun x => { x with noPeer := true, noPeerCnt := satAdd x.noPeerCnt 1 0xFFFF }
            | some g =>
              match s.portOf e.plane with
              | none => s
              | some p =>
                u.frame p e.plane link { ftype := 1, vc := hVc h, dst := e.dst, genDst := g, session := e.session, target := e.target }
                  (ms.map fun x => x.line.handOn))

/-! ### Receiving (10 R279, R280, R287, R291, R292) -/

/-- A protocol violation (10 R291): counted, reported, NAKed; VIOL_LIMIT of them within 1 s quarantine the port. -/
def State.violation (s : State) (p reason seq vc : Nat) : State :=
  let x := s.port p
  let fresh := x.winN == 0 || decide (x.winAt + 1000000000 < s.now)
  let s := s.modPort p fun x => { x with
    viol := satAdd x.viol 1 0xFFFF, violSeen := true, winAt := if fresh then s.now else x.winAt,
    winN := if fresh then 1 else x.winN + 1 }
  let y := s.port p
  let s := if x.violSeen then s else s.snagPort p 0x5010 1 [reason, seq, vc, y.viol]
  let s := s.sendOut p (.nak reason seq vc)
  if max 1 s.fab.violLimit.toNat ≤ y.winN then
    ((s.portTo p .quarantined fun x => { x.lose with winN := 0, retrain := false, trainedOnce := true }).snagPort p 0x5011 2
      [y.winN, reason]).rehome
  else s

/-- The message a flit belongs to is dropped whole: what has come of it, and the rest. -/
def State.dropRest (s : State) (p : Nat) (f : Flit) : State :=
  s.modPort p fun x => { x with
    drop := mset false x.drop f.vc (!f.last), open_ := mset 0 x.open_ f.vc 0, asm := mset [] x.asm f.vc [] }

/-- A flit that is accepted joins its message (10 R278). -/
def State.keepOpen (s : State) (p : Nat) (f : Flit) : State :=
  s.modPort p fun x => { x with
    open_ := mset 0 x.open_ f.vc (if f.last then 0 else mget 0 x.open_ f.vc + 1),
    asm := mset [] x.asm f.vc (if f.last then [] else mget [] x.asm f.vc ++ [f]) }

/-- The flit came whole (10 R280): its codeword was correctable and its CRC is right. -/
def State.crcOk (s : State) (f : Flit) : Bool := !f.lost && f.crc == crcOf (s.fabKey f.session) f

/-- A flit's codeword is counted (10 R300): uncorrectable, or the symbols corrected. -/
def Port.fec (x : Port) (f : Flit) : Port :=
  { x with uncorr := satAdd x.uncorr (if f.lost then 1 else 0) 0xFFFF, corrK := x.corrK + if f.lost then 0 else f.corr }

/-- A received flit's buffer is taken, or has been freed: its credit is owed (10 R279). -/
def Port.takeBuf (x : Port) (v : Nat) : Port := { x with rx := vcSet x.rx v (vcGet x.rx v - 1) }
def Port.freeBuf (x : Port) (v : Nat) : Port := { x with owed := vcSet x.owed v (vcGet x.owed v + 1) }

/-- The first rule of R291 that a sequenced flit in order or ahead breaks: its reason code. -/
def State.flitFault (s : State) (x : Port) (f : Flit) : Option Nat :=
  let n := mget 0 x.open_ f.vc
  let rest := mget false x.drop f.vc && !f.first
  if vcGet x.rx f.vc = 0 then some 0x10
  else if 4 ≤ f.ftype then some 0x11
  else if f.rsv != 0 || f.nlines == 0 || decide (8 < f.nlines) then some 0x12
  else if !x.ackOk f.ack then some 0x13
  else if f.seq ≠ x.rxSeq then some 0x14
  else if rest then none
  else if (n == 0) != f.first || decide (64 ≤ n) then some 0x15
  else if f.dst ≠ s.moduleAddr then some 0x16
  else none

/-- Link-level handling of a DATA or MGMT flit (10 R279, R280, R291): some state and true if its content goes on. A violating flit is still
acknowledged, and gives its buffer back. A receive buffer is free again once its flit has been handled (DEDUCED, log 70). -/
def State.rxFlit (s : State) (p : Nat) (f : Flit) : State × Bool :=
  let x := s.port p
  if x.st ≠ .up ∨ x.changing = true then (s, false)
  else
    let s := s.modPort p fun x => x.fec f
    if !s.crcOk f then
      if x.nakPending then (s, false)
      else ((s.modPort p fun x => { x with nakPending := true }).sendOut p (.nak 1 x.rxSeq f.vc), false)
    else if x.nakPending && f.seq != x.rxSeq then (s, false)
    else if 2048 ≤ (f.seq + 4096 - x.rxSeq) % 4096 then
      ((if x.ackOk f.ack then s.modPort p fun x => x.acknowledge s.now f.ack f.credit else s).pump p, false)
    else
      let why := s.flitFault x f
      let took (x : Port) : Port := if why = some 0x10 then x else (x.takeBuf f.vc).freeBuf f.vc
      let s := s.modPort p fun x => { took x with rxSeq := (f.seq + 1) % 4096, nakPending := false }
      match why with
      | some r =>
        (((if 0x14 ≤ r then s.modPort p fun x => x.acknowledge s.now f.ack f.credit else s).dropRest p f).violation p r f.seq f.vc, false)
      | none =>
        let s := s.modPort p fun x => x.acknowledge s.now f.ack f.credit
        if mget false x.drop f.vc && !f.first then
          (s.modPort p fun x => { x with drop := mset false x.drop f.vc (!f.last) }, false)
        else (s.modPort p fun x => { x with drop := mset false x.drop f.vc false }, true)

/-- What waits goes out, and what is owed goes back. -/
def State.settlePort (s : State) (p : Nat) : State := (s.pump p).giveBack p

/-- The key of a receive counter (12 R341). -/
def ivKey (f : Flit) : Nat := (f.session * 2 ^ 16 + f.src) * 64 + fld f.iv 58 6

/-- A flit's tag and counter are good (10 R287; 12 R341); plain flits carry none. -/
def State.tagGood (s : State) (f : Flit) : Bool :=
  !f.enc || ((match mget none s.keep.fabSess f.session with | some x => x.keyed && f.tag == (sealOf x.key f).2 | none => false) &&
    decide (mget 0 s.keep.ivRx (ivKey f) < fld f.iv 0 58))

/-- A tag failure (10 R287). -/
def State.tagDrop (s : State) (p : Nat) (f : Flit) : State :=
  let was := s.fab.authFail
  let s := s.modFab fun x => { x with authFail := true, authCnt := satAdd x.authCnt 1 0xFFFF }
  if was then s else s.snag 0x5021 1 16 p [f.src, f.session, f.iv.toNat, p]

/-- A flit's counter becomes the highest accepted. -/
def State.ivAccept (s : State) (f : Flit) : State :=
  if f.enc then { s with keep := { s.keep with ivRx := mset 0 s.keep.ivRx (ivKey f) (fld f.iv 0 58) } } else s

/-- The generation check of R292. -/
def State.genGood (s : State) (f : Flit) : Bool := f.genDst == s.gen && mget none s.fab.peers f.src == some f.genSrc

/-- The target of a flit is outside the mesh, or its EXIT or a reserved bit is reserved (10 R287). -/
def targetBad (t : BitVec 40) : Bool := decide (35 < fld t 5 6) || decide (4 < fld t 11 3) || fld t 34 6 != 0

/-- The mesh route word of a target, X-first off, Y-first on: ORDER 1 (10 R287; 06 R178). -/
def targetRoute (t : BitVec 40) : BitVec 64 :=
  BitVec.ofNat 64 (2 ^ 2 + fld t 0 5 * 2 ^ 4 + fld t 5 6 * 2 ^ 9 + fld t 11 3 * 2 ^ 15 + fld t 14 8 * 2 ^ 49)

/-- The lines of a flit enter the mesh at attach link DX (10 R287). -/
def State.injectFlit (s : State) (f : Flit) : State :=
  let ls := f.lines.take f.nlines
  ls.zipIdx.foldl (fun s e =>
    s.edgeInject (bayAt (fld f.target 0 5) 0) 0
      { hdr := mkHdr (targetRoute f.target) f.vc 0 (fld f.target 22 12) s.gen (f.last && e.2 + 1 == ls.length), line := e.1 }) s

/-- The message that a last flit ends, from its first flit on. -/
def State.wholeMessage (s : State) (p : Nat) (f : Flit) : List Flit := mget [] (s.port p).asm f.vc ++ [f]

/-- A DATA flit whose content goes on: a message is dropped whole or, with its last flit, enters the mesh (10 R287, R292). -/
def State.takeData (s : State) (p : Nat) (f : Flit) : State :=
  if f.genAny then s.targetDrop.dropRest p f
  else if !s.genGood f then (s.staleFab (some f)).dropRest p f
  else if !s.tagGood f then (s.tagDrop p f).dropRest p f
  else if targetBad f.target then (s.ivAccept f).targetDrop.dropRest p f
  else
    let ms := s.wholeMessage p f
    ((if f.last then ms.foldl State.injectFlit (s.ivAccept f) else s.ivAccept f)).keepOpen p f

/-- DATA_FLIT (10 R279, R280, R287, R291, R292; 12 R341). -/
def execDataFlit (t : Nat) (p : Fin 16) (f : Flit) (s : State) : Host.Outcome State Fault Refusal :=
  let r := (s.tick t).rxFlit p f
  .next ((if r.2 then r.1.takeData p f else r.1).settlePort p)

/-- The flit carries a GEN_NOTICE (10 R294), or belongs to a message that does. -/
def State.isNotice (s : State) (p : Nat) (f : Flit) : Bool :=
  match s.wholeMessage p f with
  | g :: _ => g.ftype == 3 && match g.lines with | l :: _ => fld l.data 0 8 == 1 | [] => false
  | [] => false

/-- A message of Novko's goes to CTL on mesh VC2 (10 R287): from the first attach link in service with a clear path to a CTL attachment; lost where
its way crosses a sink. What arrives is handed to CTL at once (DESIGN CHOICE, log 187). -/
def State.fabToCtl (s : State) (src : Nat) (ls : List Line) : State :=
  let way := (List.range 32).findSome? fun x =>
    let b := bayAt x 0
    if s.rtrFenced b || s.linkDown b 0 then none
    else (List.range 4).findSome? fun a => if s.attachUp a then (s.novkoRoute b (ctlRouter a) 3 []).map fun r => (b, r.1) else none
  match way with
  | some (b, r) => match s.sendAlong ls.length b (novkoHdr r 2 s.gen) with
    | .error d => d
    | .ok s => s.emit (.fabIn src ls)
  | none => s

/-- A MGMT flit whose content goes on: with its last flit its message goes to CTL (10 R287, R292), where what it says is a command of its own. -/
def State.takeMgmt (s : State) (p : Nat) (f : Flit) : State :=
  if f.genAny && !s.isNotice p f then s.targetDrop.dropRest p f
  else if !s.isNotice p f && !s.genGood f then (s.staleFab (some f)).dropRest p f
  else if !s.tagGood f then (s.tagDrop p f).dropRest p f
  else
    let ls := (s.wholeMessage p f).flatMap fun g => g.lines.take g.nlines
    (if f.last then (s.ivAccept f).fabToCtl f.src ls else s.ivAccept f).keepOpen p f

/-- MGMT_FLIT (10 R279, R280, R287, R291, R292). -/
def execMgmtFlit (t : Nat) (p : Fin 16) (f : Flit) (s : State) : Host.Outcome State Fault Refusal :=
  let r := (s.tick t).rxFlit p f
  .next ((if r.2 then r.1.takeMgmt p f else r.1).settlePort p)

/-- IDLE_FLIT (10 R279, R280, R291): its ACK and CREDIT are applied. -/
def execIdleFlit (t : Nat) (p : Fin 16) (f : Flit) (s : State) : Host.Outcome State Fault Refusal :=
  let s := s.tick t
  let x := s.port p
  .next (if x.st ≠ .up ∨ x.changing = true then s
    else
      let s := s.modPort p fun x => x.fec f
      if !s.crcOk f then
        if x.nakPending then s else (s.modPort p fun x => { x with nakPending := true }).sendOut p (.nak 1 x.rxSeq f.vc)
      else if 4 ≤ f.ftype then s.violation p 0x11 f.seq f.vc
      else if f.rsv != 0 || f.nlines != 0 then s.violation p 0x12 f.seq f.vc
      else if !x.ackOk f.ack then s.violation p 0x13 f.seq f.vc
      else (s.modPort p fun x => x.acknowledge s.now f.ack f.credit).settlePort p)

/-- NAK_FLIT (10 R280, R291): RETRY replays from ACK + 1; the other reasons tell of a violation of this side. -/
def execNakFlit (t : Nat) (p : Fin 16) (reason seq vc ack : Nat) (s : State) : Host.Outcome State Fault Refusal :=
  let s := s.tick t
  let x := s.port p
  .next (if x.st ≠ .up ∨ x.changing = true then s
    else if reason ≠ 1 ∧ ¬(0x10 ≤ reason ∧ reason ≤ 0x17) then s.violation p 0x17 seq vc
    else if !x.ackOk ack then s.violation p 0x13 seq vc
    else
      let s := s.modPort p fun x => x.acknowledge s.now ack []
      if reason = 1 then s.replayPort p else s.pump p)

/-- LINK_ID_FLIT (10 R283, R291): in training it is checked against the coordinates; after UP it must equal the first. -/
def execLinkIdFlit (t : Nat) (p : Fin 16) (plane rack down : Nat) (s : State) : Host.Outcome State Fault Refusal :=
  let s := s.tick t
  let x := s.port p
  .next (match x.st, s.fab.coords with
    | .up, _ => if x.linkId == some (plane, rack, down) then s else s.violation p 0x17 0 0
    | .training, some c =>
      let want := c.planes.getD p 0xFF
      if plane ≠ want ∨ rack ≠ c.rack ∨ down ≠ c.slot then
        ((s.portTo p .wiringErr fun x => { x with ctrl := false, retrain := false, trainedOnce := true }).snagPort p 0x5012 2
          [want * 2 ^ 16 + c.rack, plane * 2 ^ 16 + rack, c.slot, down]).retrainNext p
      else s.modPort p fun x => { x with linkId := some (plane, rack, down) }
    | _, _ => s)

/-! ### Widths (10 R288, R289) -/

/-- A width change starts (10 R288): `lane` 0xFF where the partner began it (log 71). -/
def State.startWidth (s : State) (p w lane uncorr ratio : Nat) : State :=
  let x := s.port p
  if w < 2 ^ x.minWidth.toNat then s.portDown p 1
  else
    let s := s.modPort p fun x => { x with changing := true, ctrl := true, ctrlAt := s.now, width := w, degraded := true, stripe := x.txSeq }
    let s := (s.sendOut p (.width w)).intrude 5
    if x.degraded then s else s.snagPort p 0x5002 1 [lane, w, uncorr, ratio]

/-- LANE_BAD (10 R288, R289). -/
def execLaneBad (t : Nat) (p : Fin 16) (lane : Fin 8) (uncorr ratio : Nat) (s : State) : Host.Outcome State Fault Refusal :=
  let s := s.tick t
  let x := s.port p
  .next (if x.st ≠ .up ∨ x.lanes.getLsbD lane = false then s
    else
      let good := x.lanes &&& ~~~(BitVec.ofNat 8 (2 ^ lane.val))
      let s := s.modPort p fun x => { x with lanes := good }
      let w := min x.width (laneWidth good)
      if w = 0 then s.portDown p 0 else s.startWidth p w lane uncorr ratio)

/-- WIDTH_FLIT (10 R288, R291): both ends take the smaller width. -/
def execWidthFlit (t : Nat) (p : Fin 16) (w : Nat) (s : State) : Host.Outcome State Fault Refusal :=
  let s := s.tick t
  let x := s.port p
  .next (if x.st ≠ .up then s
    else if ¬ w ∈ [1, 2, 4, 8] then s.violation p 0x17 0 0
    else if x.changing then
      if min w x.width < 2 ^ x.minWidth.toNat then s.portDown p 1
      else s.modPort p fun x => { x with width := min w x.width, ctrl := false }
    else s.startWidth p (min w x.width) 0xFF 0 0)

/-- WIDTH_CHANGE_DONE (10 R288): the outstanding flits are replayed. -/
def execWidthChangeDone (t : Nat) (p : Fin 16) (s : State) : Host.Outcome State Fault Refusal :=
  let s := s.tick t
  .next (if (s.port p).st = .up ∧ (s.port p).changing = true then
      ((s.modPort p fun x => { x with changing := false, ctrl := false }).replayPort p).pump p
    else s)

/-- FABRIC_REPLAY_TIMEOUT (10 R280): no ACK has advanced for 4 µs while flits are outstanding. -/
def execFabricReplayTimeout (t : Nat) (p : Fin 16) (s : State) : Host.Outcome State Fault Refusal :=
  let s := s.tick t
  .next (if (s.port p).st = .up ∧ (s.port p).changing = false ∧ (s.port p).ackAt + 4000 ≤ s.now then
      (s.replayPort p).modPort p fun x => { x with ackAt := s.now }
    else s)

/-- CONTROL_FLIT_REPEAT (10 R280): every 1 µs until answered. -/
def execControlFlitRepeat (t : Nat) (p : Fin 16) (s : State) : Host.Outcome State Fault Refusal :=
  let s := s.tick t
  let x := s.port p
  .next (if !x.ctrl || decide (s.now < x.ctrlAt + 1000) then s
    else
      let s := s.modPort p fun x => { x with ctrlAt := s.now }
      if x.st = .training then s.sendOut p (.linkId 32)
      else if x.changing then s.sendOut p (.width x.width)
      else s)

/-- PORT_AUTO_RETRAIN (10 R289): 2 s after the port went DOWN. -/
def execPortAutoRetrain (t : Nat) (p : Fin 16) (s : State) : Host.Outcome State Fault Refusal :=
  let s := s.tick t
  .next (if (s.port p).st = .down ∧ (s.port p).trainAt + 2000000000 ≤ s.now ∧ s.portsMayTrain = true then s.trainPort p else s)

/-- FAB_PORT_RELEASE (10 R291). -/
def State.releasePort (s : State) (p : Nat) : State :=
  if (s.port p).st = .quarantined then s.trainPort p else s

/-- FAB_PORT_RELEASE (10 R291, R300). -/
def execFabPortRelease (t : Nat) (p : Fin 16) (s : State) : Host.Outcome State Fault Refusal :=
  .next ((s.tick t).releasePort p)

/-- A retrain by RETRAIN (10 R289, R290, R300): not of a port that is DARK or QUARANTINED. Its plane's messages go by another port. -/
def State.retrainPort (s : State) (p : Nat) : State :=
  match (s.port p).st with
  | .dark | .quarantined => s
  | _ => if s.portsMayTrain && (s.portPlane p).isSome then ((s.trainPort p).modPort p fun x => { x with retrain := true }).rehome else s

/-- FAB_PORT_RETRAIN (10 R289). -/
def execFabPortRetrain (t : Nat) (p : Fin 16) (s : State) : Host.Outcome State Fault Refusal :=
  .next ((s.tick t).retrainPort p)

/-- FAB_PORT_CNT_CLR (10 R300). -/
def State.clearPort (s : State) (p : Nat) : State := s.modPort p fun x => { x with viol := 0, retry := 0, uncorr := 0, corrK := 0 }

/-- FAB_PORT_CNT_CLR (10 R300). -/
def execFabPortCntClr (t : Nat) (p : Fin 16) (s : State) : Host.Outcome State Fault Refusal := .next ((s.tick t).clearPort p)

/-- CNT_CLR of FAB_CFG (10 R300). -/
def State.clearFab (s : State) : State :=
  s.modFab fun x => { x with staleCnt := 0, noPeerCnt := 0, targetCnt := 0, authCnt := 0 }

/-- FAB_CNT_CLR (10 R300). -/
def execFabCntClr (t : Nat) (s : State) : Host.Outcome State Fault Refusal := .next ((s.tick t).clearFab)

/-! ### Generations and peers (10 R292, R293, R296, R297) -/

/-- STEP_ABORT to every other module of a plan (10 R296). -/
def State.sendAborts (s : State) (p : Loaded) (no : Nat) : State :=
  (s.othersOf p).foldl (fun s a => s.sendFab a p.session 2 (.stepAbort p.img.id no)) s

/-- An abort reset starts (13 R368): not in a recovery under way. -/
def State.abortReset (s : State) : State := if s.mode = .serving then s.startRecovery 22 false true else s

/-- A peer's notice of a changed generation meets a step in flight (10 R296). -/
def State.peerChanged (s : State) (p : Loaded) (src : Nat) : State :=
  match p.step with
  | some run =>
    if p.img.layout.peer then (if run.order = src then s.abortReset else s)
    else (s.sendAborts p run.no).abortReset
  | none => s

/-- A spread plan stops for a peer (10 R297): why 0 silent, 1 withdrawn. -/
def State.peerStops (s : State) (p : Loaded) (src why : Nat) : State :=
  if p.started && !p.stopping then (s.snag 0x5030 2 16 0x7FF [p.img.id, src, why]).stopPlan p stStale 6 else s

/-- GEN_NOTICE (10 R292, R293, R296, R297). -/
def execGenNotice (t src plan st : Nat) (gen : BitVec 8) (auth : Bool) (s : State) : Host.Outcome State Fault Refusal :=
  let s := s.tick t
  .next (if !auth then s
    else
      let old := mget none s.fab.peers src
      let s := s.modFab fun x => { x with peers := mset none x.peers src (some gen) }
      match s.plan plan with
      | none => s
      | some p =>
        if ¬ (s.othersOf p).contains src then s
        else
          let s := s.modPlan plan fun q => { q with heard := mset none q.heard src (some (s.now, st, gen)) }
          let s := if p.started && old.isSome && old != some gen then s.peerChanged p src else s
          let s := if st = 8 then s.peerStops p src 1 else s
          (s.tryStart2 plan).sendReruns.pumpStarts)

/-- GEN_NOTICE_TIMER (10 R293). -/
def execGenNoticeTimer (t : Nat) (s : State) : Host.Outcome State Fault Refusal :=
  let s := s.tick t
  .next (if s.novkoUp then s.noticeAll else s)

/-- PEER_TIMEOUT_EXPIRY (10 R297): no notice from a peer within PEER_TIMEOUT. -/
def execPeerTimeoutExpiry (t plan peer : Nat) (s : State) : Host.Outcome State Fault Refusal :=
  let s := s.tick t
  .next (match s.plan plan with
    | some p =>
      let due := (s.othersOf p).contains peer && match mget none p.heard peer with
        | some x => decide (x.1 + 1000000000 * max 1 s.fab.peerTimeout.toNat ≤ s.now)
        | none => false
      if due then (s.peerStops p peer 0).pumpStarts else s
    | none => s)

/-! ### Step orders on a peer (10 R294, R295) -/

/-- A set-up or retire record (10 R294): sequences of a spread plan are in the plan owner's page table. -/
def State.applyRec (s : State) (id : Nat) (x : StepRec) : State :=
  match s.plan id with
  | none => s
  | some p =>
    if x.kind = 1 then
      let pre := if x.flags / 2 % 2 = 0 then none else (s.prefixes.findSome? fun e => match e.2 with
        | some q => if q.lead == some x.handle.toNat && q.tenant == p.owner then some q else none
        | none => none)
      s.openSeq p x.slot p.owner ((s.findLpns p.owner p.img.lpns).getD 0) x.cls x.seed (x.flags / 2 % 2 == 1) pre (some x.n)
    else
      let s := match (if x.flags % 2 = 1 then s.slotSeq p x.slot else none) with
        | some (k, i) =>
          let c := (mget ({} : SeqEnt) (s.ctx k).seqs i).commit
          (match s.keepPrefix k i (if x.n = 0 then c else x.n) (some x.handle.toNat) with | some r => r.1 | none => s)
        | none => s
      s.closeSeq p x.slot

/-- STEP_ORDER (10 R294, R295; 09 R269): a peer whose last step is done releases its bays. Records come with a first attempt. -/
def execStepOrder (t src plan stepNo : Nat) (prog : Fin 16) (swap rerun : Bool) (slots : List SlotEnt) (recs : List StepRec)
    (s : State) : Host.Outcome State Fault Refusal :=
  let s := s.tick t
  .next (match s.plan plan with
    | some p =>
      let free := match p.step with | some r => r.doneAt.isSome | none => true
      if s.mode ≠ .serving ∨ !p.img.layout.peer ∨ !p.started ∨ p.stopping ∨ !free ∨ !(s.othersOf p).contains src then s
      else
        let rs := if rerun then [] else recs.filter (·.kind == 2) ++ recs.filter (·.kind == 1)
        let s := rs.foldl (fun s x => s.applyRec plan x) s
        match s.plan plan with
        | some p =>
          (s.sendStep p { prog := prog.val, slots := slots, no := stepNo, order := src, swap := swap } rerun false).pumpStarts
        | none => s
    | none => s)

/-- STEP_REPORT (10 R295; 09 R269): of the step in flight. -/
def execStepReport (t src plan stepNo : Nat) (done late resident : Bool) (measured : Nat) (s : State) :
    Host.Outcome State Fault Refusal :=
  let s := s.tick t
  .next (match s.plan plan with
    | some p =>
      match p.step with
      | some run =>
        if run.no ≠ stepNo ∨ p.img.layout.peer ∨ !(s.othersOf p).contains src then s
        else
          let s := s.modPlan plan fun q => { q with
            peerResident := if resident && !q.peerResident.contains src then q.peerResident ++ [src] else q.peerResident,
            step := q.step.map fun r => if done then { r with peers := r.peers.filter (· != src) } else r }
          let s := if late then (match s.plan plan with
            | some q => (match q.step with | some r => s.markLate q r measured | none => s)
            | none => s) else s
          s.stepCheck plan
      | none => s
    | none => s)

/-- STEP_ABORT (10 R295, R296; 13 R368): of the step in flight. -/
def execStepAbort (t src plan stepNo : Nat) (s : State) : Host.Outcome State Fault Refusal :=
  let s := s.tick t
  .next (match s.plan plan with
    | some p =>
      match p.step with
      | some run => if run.no = stepNo ∧ (s.othersOf p).contains src then s.abortReset else s
      | none => s
    | none => s)

end Sys2Proof.Machine
end

