-- ==== Sys2Proof/Machine/Power.lean ====
section
/-! DEFINITION. The commands of the input supply, the rails and the leaf set points (chapter 01). -/

namespace Sys2Proof.Machine

/-- INPUT_POWER_ON (01 R28): VAUX comes into regulation; the input is still below the reset threshold. -/
def execInputPowerOn (t : Nat) (s : State) : Host.Outcome State Fault Refusal :=
  let s := s.tick t
  .next (if s.pwr.inputOn then s
    else { s with pwr := { s.pwr with inputOn := true, vauxLatched := false, underVolt := true, overVolt := false,
                                      vinWarn := false } })

/-- INPUT_POWER_LOSS (01 R28, R26): VAUX, the off-cause record, the cut latches and a VAUX fault latch are lost. -/
def execInputPowerLoss (t : Nat) (s : State) : Host.Outcome State Fault Refusal :=
  let s := s.tick t
  .next { s.goOff with pwr := { rstN := s.pwr.rstN } }

/-- SUPPLY_WARNING_ASSERT (01 R25, R29, R42). `mv` is the lowest input measured so far. -/
def execSupplyWarningAssert (t mv : Nat) (s : State) : Host.Outcome State Fault Refusal :=
  let s := s.tick t
  .next (if s.pwr.vinWarn || !s.pwr.vauxUp then s
    else
      let s := { s with pwr := { s.pwr with
        vinWarn := true, warnAt := s.now, minMv := mv, sagHold := false,
        vinWarnSeen := s.pwr.vinWarnSeen || s.pwr.stage1Up,
        sagActing := s.pwr.sagActing || (s.pwr.sagThrottle && s.pwr.stage1Up) } }
      let s := if s.pwr.sagActing then s.intrude 0 else s
      let s := s.snagCtl 0x8001 1 [mv, if s.pwr.sagThrottle then 1 else 0]
      if s.novkoUp && s.pwr.warnIrqEn then s.pfIrq vecPower else s)

/-- SUPPLY_WARNING_RELEASE (01 R25, R29, R31). `mv` is the minimum input since the warning. -/
def execSupplyWarningRelease (t mv : Nat) (s : State) : Host.Outcome State Fault Refusal :=
  let s := s.tick t
  .next (if !s.pwr.vinWarn || !s.pwr.vauxUp then s
    else
      let s := { s with pwr := { s.pwr with vinWarn := false, warnOff := s.now, minMv := min s.pwr.minMv mv,
                                            sagHold := s.pwr.sagActing } }
      (s.snagCtl 0x8002 0 [(s.now - s.pwr.warnAt) / 1000, s.pwr.minMv]).resumeRamps)

/-- SAG_HOLD_EXPIRY (01 R29): 10 ms after the warning's release. -/
def execSagHoldExpiry (t : Nat) (s : State) : Host.Outcome State Fault Refusal :=
  let s := s.tick t
  .next (if s.pwr.sagHold && decide (s.pwr.warnOff + 10000000 ≤ s.now) then
      State.intrude { s with pwr := { s.pwr with sagHold := false, sagActing := false } } 0 else s)

/-- RESET_THRESHOLD (01 R25, R27, R33). -/
def execResetThreshold (t : Nat) (s : State) : Host.Outcome State Fault Refusal :=
  .next ((s.tick t).assertReset 1 0xFF fun p => { p with underVolt := true })

/-- RESET_THRESHOLD_RELEASE (01 R25, R31). -/
def execResetThresholdRelease (t : Nat) (s : State) : Host.Outcome State Fault Refusal :=
  let s := s.tick t
  .next (State.tryStart { s with pwr := { s.pwr with underVolt := !s.pwr.vauxUp } })

/-- OVERVOLTAGE_CUT (01 R25, R26). -/
def execOvervoltageCut (t : Nat) (s : State) : Host.Outcome State Fault Refusal :=
  .next ((s.tick t).assertReset 5 0xFF fun p => { p with overVolt := p.vauxUp })

/-- OVERVOLTAGE_RELEASE (01 R26): the module restarts by itself. -/
def execOvervoltageRelease (t : Nat) (s : State) : Host.Outcome State Fault Refusal :=
  let s := s.tick t
  .next (State.tryStart { s with pwr := { s.pwr with overVolt := false } })

/-- OVERCURRENT_CUT (01 R25, R26): there is a draw only while the switch conducts. -/
def execOvercurrentCut (t : Nat) (s : State) : Host.Outcome State Fault Refusal :=
  let s := s.tick t
  .next (if s.pwr.resetAsserted && s.pwr.offAt != s.now then s
    else s.assertReset 6 0xFF fun p => { p with ocLatch := p.vauxUp })

/-- MOD_RST_N_ASSERT (01 R21, R26). -/
def execModRstNAssert (t : Nat) (s : State) : Host.Outcome State Fault Refusal :=
  .next ((s.tick t).assertReset 2 0xFF fun p => { p with rstN := true })

/-- MOD_RST_N_RELEASE (01 R21, R26): the pulse it ends clears the cut latches. -/
def execModRstNRelease (t : Nat) (s : State) : Host.Outcome State Fault Refusal :=
  let s := s.tick t
  .next (if s.pwr.rstN then
      State.tryStart { s with pwr := { s.pwr with rstN := false, ocLatch := false, thermLatch := false,
                                                  railLatch := false } }
    else s)

/-- STAGE1_IN_REGULATION (01 R29, R31, R32; 15 R410): the primer starts and the module leaves OFF for PRIMED. A supply warning that stands
sets the sag throttle from now on: SAG_THROTTLE is 1 after OFF. -/
def execStage1InRegulation (t : Nat) (s : State) : Host.Outcome State Fault Refusal :=
  let s := s.tick t
  .next (if s.pwr.resetAsserted || s.pwr.stage1Up then s
    else { s with
      mode := .primed, leftOff := s.now,
      pwr := { s.pwr.raiseRails stage1Rails s.now with
        stage1Up := true, sagActing := s.pwr.sagActing || (s.pwr.sagThrottle && s.pwr.vinWarn) } })

/-- STAGE2_IN_REGULATION (01 R31, R32): stage 3 starts; links and stacks train, and ports once coordinates are in
force (10 R283). A ramp paused by the supply warning has not ended. -/
def execStage2InRegulation (t : Nat) (s : State) : Host.Outcome State Fault Refusal :=
  let s := s.tick t
  .next (if s.pwr.stage2Req && !s.pwr.stage2Up && !s.pwr.vinWarn then
      State.startPorts { s with pwr := { (s.pwr.raiseRails stage2Rails s.now).startLeaves s.now with stage2Up := true } }
    else s)

/-- STAGE3_GROUP_IN_REGULATION (01 R32): leaf group `groups`, whose ramp has started, reaches regulation. -/
def execStage3GroupInRegulation (t : Nat) (s : State) : Host.Outcome State Fault Refusal :=
  let s := s.tick t
  .next (if s.pwr.stage2Up && decide (s.pwr.groups < 8) && !s.pwr.vinWarn && s.turnCame (4 * s.pwr.groups) then
      { s with pwr := { s.pwr.raiseRails ((List.range 4).map (4 * s.pwr.groups + ·)) s.now with
                        groups := s.pwr.groups + 1 } }
    else s)

/-- A rail fault (01 R34, R26, R35): a stage 1 rail takes the module to OFF; another rail and those that go with it
are switched off, FAULT_RAIL and snag 0x8010 record it, and what hung on it is lost. -/
def State.railFault (s : State) (r mv : Nat) : State :=
  if r ≥ 74 then s.assertReset 4 r fun p => { p with railLatch := true }
  else
    let sp := s.pwr.setPoint r
    let p := s.pwr
    let rails := (railDependents r).foldl
      (fun m d => if mget .off m d = .fault then m else mset .off m d .cut) (mset .off p.rails r .fault)
    let s := { s with pwr := { p with
      rails := rails, railFaultSeen := true, faultRail := if p.faultRail = 0xFF then r else p.faultRail } }
    (s.snag 0x8010 2 (railDie r) r [r, mv, sp]).lostRail r

/-- RAIL_FAULT (01 R34): the rail's monitor is armed, so its ramp has started (DEDUCED, log 108). -/
def execRailFault (t : Nat) (rail : Fin 79) (mv : Nat) (s : State) : Host.Outcome State Fault Refusal :=
  let s := s.tick t
  .next (match mget .off s.pwr.rails rail with
    | .up => s.railFault rail mv
    | .ramp | .wait => if s.turnCame rail then State.railFault { s with pwr := s.pwr.reachRail rail } rail mv else s
    | _ => s)

/-- RAIL_RAMP_TIMEOUT (01 R34): 5 ms after its ramp started the rail is still outside ±5%. -/
def execRailRampTimeout (t : Nat) (rail : Fin 79) (mv : Nat) (s : State) : Host.Outcome State Fault Refusal :=
  let s := s.tick t
  .next (match mget .off s.pwr.rails rail with
    | .ramp | .wait =>
      if s.turnCame rail && decide (mget 0 s.pwr.rampAt rail + 5000000 ≤ s.now) then
        State.railFault { s with pwr := s.pwr.reachRail rail } rail mv
      else s
    | _ => s)

/-- VAUX_FAULT (01 R28): the switch opens, VAUX latches off and the off-cause record is lost. -/
def execVauxFault (t : Nat) (s : State) : Host.Outcome State Fault Refusal :=
  let s := s.tick t
  .next (if s.pwr.vauxUp then
      { s.goOff with pwr := { inputOn := true, vauxLatched := true, rstN := s.pwr.rstN } }
    else s)

/-- THERMAL_TRIP (01 R40, R26): an armed comparator sets the trip latch; one that was armed when another cause asserted the reset at this very
instant still does. -/
def execThermalTrip (t : Nat) (die : Fin 32) (s : State) : Host.Outcome State Fault Refusal :=
  let s := s.tick t
  .next (if s.comparatorArmed die || (s.pwr.resetAsserted && s.pwr.offAt == s.now && s.pwr.wasArmed.getLsbD die) then s.assertReset 3 0xFF fun p => { p with thermLatch := true } else s)

/-- SAG_THROTTLE_WRITE (01 R29). The register is on stage 1. -/
def execSagThrottleWrite (t : Nat) (v : Bool) (s : State) : Host.Outcome State Fault Refusal :=
  let s := s.tick t
  .next (if s.pwr.stage1Up then
      let u := s.writeSagThrottle v
      if u.pwr.sagActing = s.pwr.sagActing then u else u.intrude 0
    else s)

/-- CTL_PWR_LEAF_VSET_WRITE (01 R43): WEST is [4:0], EAST [12:8]. -/
def execCtlPwrLeafVsetWrite (t : Nat) (n : Fin 16) (v : Word) (s : State) : Host.Outcome State Fault Refusal :=
  let s := s.tick t
  .next (if s.pwr.stage1Up then
      (s.writeLeafVset (2 * n) (fld v 0 5)).writeLeafVset (2 * n + 1) (fld v 8 5)
    else s)

/-- VSET_COMMIT (01 R43). -/
def execVsetCommit (t : Nat) (s : State) : Host.Outcome State Fault Refusal :=
  let s := s.tick t
  .next (if s.pwr.stage1Up then s.commitVset else s)

/-- VSET_RAMP_DONE (01 R43): VSET_COMMIT reads 0. -/
def execVsetRampDone (t : Nat) (s : State) : Host.Outcome State Fault Refusal :=
  let s := s.tick t
  .next { s with pwr := { s.pwr with vsetRamping := false } }

end Sys2Proof.Machine
end

