-- ==== Sys2Proof/Machine/Keep.lean ====
section
/-! DEFINITION. The commands of the Keep: sessions, attestation and the entropy source (chapter 12). -/

namespace Sys2Proof.Machine

/-- Update the Keep. -/
def State.modKeep (s : State) (f : Keep → Keep) : State := { s with keep := f s.keep }

/-! ### Host sessions (12 R336–R338) -/

/-- Open host sessions, as functions. -/
def State.hostFns (s : State) : List Nat := (s.keep.hostSess.filter fun e => e.2.isSome).map (·.1)

/-- Open fabric sessions, those being set up among them. -/
def State.fabIds (s : State) : List Nat := (s.keep.fabSess.filter fun e => e.2.isSome).map (·.1)

/-- How many fabric sessions are open (12 R354): those whose set-up has ended (log 205). -/
def State.openFab (s : State) : Nat :=
  (s.keep.fabSess.filter fun e => match e.2 with | some x => x.opened | none => false).length

/-- The host session of a function. -/
def State.hostSession (s : State) (fn : Nat) : Option HostSess := mget none s.keep.hostSess fn

/-- The fabric session of an index. -/
def State.fabSession (s : State) (i : Nat) : Option FabSess := mget none s.keep.fabSess i

/-- The lowest IDE stream that no session holds. -/
def State.freeStream (s : State) : Option Nat :=
  (List.range 64).find? fun i => s.keep.hostSess.all fun e => match e.2 with | some x => x.stream != i | none => true

/-- A function's host session ends: cause 0 command, 1 function reset, 2 VF disable (12 R338, R353). -/
def State.closeHost (s : State) (fn cause : Nat) : State :=
  match s.hostSession fn with
  | none => s
  | some _ => (s.modKeep fun k => { k with hostSess := mset none k.hostSess fn none }).snag 0x7031 0 19 fn [0, fn, cause]

/-- The six stream keys K(s, d) of a host session, at 2·s + d (12 R336). -/
def streamKeys (stream fn : Nat) (ss : List Byte) : List (List Byte) :=
  (List.range 3).flatMap fun u => (List.range 2).map fun d =>
    kdf "LX20 IDE" (leBytes 1 stream ++ leBytes 1 u ++ leBytes 1 d ++ leBytes 2 fn) ss 32

/-- SESSION_OPEN of a host session (12 R335, R336, R338); a reserved KIND is refused here too. Stream: the lowest free one (DESIGN
CHOICE, log 74). -/
def execSessionOpenHost (t fn slot : Nat) (s : State) : Host.Outcome State Fault Refusal :=
  .next ((s.tick t).runCmd fn slot 0x30 (fun c => c.arg 0 1 != 1 && c.arg 0 1 != 2) { states := modesSession }
    (fun c => c.onlyArgs [(0, 4), (16, 1568)]) fun s c =>
      let ek := bytesAt c.args 16 1568
      if c.arg 0 1 ≠ 0 ∨ 2 ≤ c.arg 1 1 ∨ c.arg 2 2 ≠ 0 ∨ Config.kemCheck ek = false then .comp s stBadArg 0 []
      else match (if s.hostFns.contains fn then none else s.freeStream) with
        | none => .comp s stRefused 0 []
        | some i =>
          if !s.keep.entropyOk then .comp s stFault noEntropy []
          else
            let (s, n) := s.random 256
            let (ss, ct) := Config.kemEncaps ek n
            let sig := Config.falconSign identitySeed (digest (ek ++ ct ++ leBytes 2 fn ++ leBytes 1 i)) s.freeVal
            let s := s.drawn.modKeep fun k => { k with
              hostSess := mset none k.hostSess fn (some { stream := i, require := c.arg 1 1 == 1, keys := streamKeys i fn ss }) }
            .comp (s.snag 0x7030 0 19 fn [0, fn, i, 0]) stOk 0 (leBytes 4 i ++ bytesAt ct 0 1568 ++ bytesAt sig 0 1280))

/-- SESSION_CLOSE of a host session (12 R335, R338); a reserved KIND is refused here too. -/
def execSessionCloseHost (t fn slot : Nat) (s : State) : Host.Outcome State Fault Refusal :=
  .next ((s.tick t).runCmd fn slot 0x31 (fun c => c.arg 0 1 != 1) { states := modesManagement }
    (fun c => c.onlyArgs [(0, 1), (2, 2)]) fun s c =>
      if c.arg 0 1 ≠ 0 ∨ c.arg 2 2 ≠ 0 ∨ (s.hostSession fn).isNone then .comp s stBadArg 0 []
      else .comp (s.closeHost fn 0) stOk 0 [])

/-! ### Fabric sessions (12 R339–R342) -/

/-- DETAIL of a session whose set-up timed out (12 R340). -/
def setupLate : Nat := 0x70320000

/-- Update a fabric session. -/
def State.setFabSession (s : State) (i : Nat) (x : Option FabSess) : State :=
  s.modKeep fun k => { k with fabSess := mset none k.fabSess i x }

/-- A fabric session ends; its keys and counters go (12 R341, R342). -/
def State.dropFabSession (s : State) (i : Nat) : State :=
  s.modKeep fun k => { k with
    fabSess := mset none k.fabSess i none, ivTx := k.ivTx.filter fun e => e.1 / 64 != i,
    ivRx := k.ivRx.filter fun e => e.1 / 64 / 65536 != i }

/-- The command that waits for a fabric session to be set up. -/
def WaitKind.opens (i : Nat) : WaitKind → Bool
  | .leader x | .follower x => x == i
  | _ => false

/-- A session set-up message is refused: reason 1 signature, 2 chain, 3 owner root, 4 address, 5 session (12 R339, R353). -/
def State.refuseKey (s : State) (session sender reason : Nat) : State := s.snagCtl 0x7032 1 [session, sender, reason]

/-- The digest of this module's owner root (12 R339). -/
def State.rootDigest (s : State) : BitVec 512 :=
  match mget none s.nvm.owners 0 with | some o => Config.shake256 o.2 | none => Config.shake256 []

/-- The signature of a start key certificate is over this (12 R339). -/
def startCert (addr : Nat) (ek : List Byte) : List Byte := digest (ascii "LX20 START" ++ leBytes 2 addr ++ ek)

/-- The session key (12 R340). -/
def sessionKey (i leader : Nat) (secret : List Byte) : List Byte := kdf "LX20 FABRIC" (leBytes 2 i ++ leBytes 2 leader) secret 32

/-- The key that wraps S for a follower (12 R340). -/
def wrapKey (i leader follower : Nat) (ss : List Byte) : List Byte :=
  kdf "LX20 WRAP" (leBytes 2 i ++ leBytes 2 leader ++ leBytes 2 follower) ss 32

/-- A set-up message's signatures verify under the identity key its chain names (12 R339). -/
def keySigned (m : KeyMsg) (request : Bool) : Bool :=
  let k := Config.certKey m.chain
  Config.falconOk k (keyBody m) m.sig && (!request || Config.falconOk k (startCert m.sender m.ek) m.ekSig)

/-- The checks of a set-up message of a session, in the order of the reasons (12 R339, R353). Without a session of the right kind no sender
is expected, so the last check comes before the address. -/
def State.expected (s : State) (i sender : Nat) (leader : Bool) : Except Nat FabSess :=
  match s.fabSession i with
  | none => .error 5
  | some x =>
    if x.leader != leader then .error 5
    else if !(if leader then x.peers.contains sender else x.addr == sender) then .error 4
    else .ok x

/-- The checks of a KEY_REQUEST or KEY_GRANT, in the order of the reasons (12 R339, R353). -/
def State.keyCheck (s : State) (m : KeyMsg) (leader : Bool) : Except Nat FabSess :=
  if !keySigned m leader then .error 1
  else if !Config.chainLeads Config.caDigest m.chain then .error 2
  else if m.root ≠ s.rootDigest then .error 3
  else s.expected m.session m.sender leader

/-- A set-up message of this module, signed (12 R339). -/
def State.signKey (s : State) (m : KeyMsg) : KeyMsg :=
  let m := { m with sender := s.moduleAddr, root := s.rootDigest, chain := Config.certChain }
  { m with sig := Config.falconSign identitySeed (keyBody m) s.freeVal }

/-- A follower's KEY_REQUEST (12 R339): it names the leader and carries the start key certificate. -/
def State.sendRequest (s : State) (i leader : Nat) : State :=
  let ek := Config.kemPub s.keep.startSeed
  let m : KeyMsg := { session := i, sender := 0, addr := leader, ek := ek,
                      ekSig := Config.falconSign identitySeed (startCert s.moduleAddr ek) s.freeVal }
  let s := s.drawn
  s.drawn.sendFab leader 0 2 (.keyRequest (s.signKey m))

/-- A leader's KEY_GRANT to a follower (12 R340): S wrapped under a secret encapsulated to the follower's start key. -/
def State.sendGrant (s : State) (x : FabSess) (m : KeyMsg) : State :=
  let (s, n) := s.random 256
  let (ss, ct) := Config.kemEncaps m.ek n
  let w := Config.gcm (wrapKey m.session s.moduleAddr m.sender ss) (List.replicate 12 0) [] x.secret
  let g : KeyMsg := { session := m.session, sender := 0, addr := m.sender, ct := ct, wrapped := w.1 ++ leBytes 16 w.2.toNat }
  s.drawn.sendFab m.sender 0 2 (.keyGrant (s.signKey g))

/-- A follower unwraps S from a KEY_GRANT (12 R340); none: the tag does not match. -/
def State.unwrap (s : State) (m : KeyMsg) : Option (List Byte) :=
  let k := wrapKey m.session m.sender s.moduleAddr (Config.kemDecaps s.keep.startSeed m.ct)
  let secret := Config.gcmOpen k (List.replicate 12 0) (m.wrapped.take 32)
  if leBytes 16 (Config.gcm k (List.replicate 12 0) [] secret).2.toNat = m.wrapped.drop 32 then some secret else none

/-- The checks of a fabric SESSION_OPEN before its work (12 R335, R342): an index in use is refused (DEDUCED, log 73). -/
def State.openFabric (s : State) (c : Cmd) (more : Bool) : Option (Nat × Nat) :=
  if c.arg 1 1 ≠ 0 ∨ c.arg 2 2 = 0 ∨ 4096 ≤ c.arg 2 2 ∨ 1025 ≤ c.arg 4 2 ∨ more = false then some (stBadArg, 0)
  else if (s.fabSession (c.arg 2 2)).isSome ∨ 64 ≤ s.fabIds.length then some (stRefused, 0)
  else if !s.keep.entropyOk then some (stFault, noEntropy)
  else none

/-- SESSION_OPEN of a leader (12 R340): the secret is drawn, and the command waits for every KEY_ACK. -/
def execSessionOpenLeader (t fn slot : Nat) (s : State) : Host.Outcome State Fault Refusal :=
  .next ((s.tick t).runCmd fn slot 0x30 (fun c => c.arg 0 1 == 1) { pf := true, states := modesSession }
    (fun c => c.onlyArgs [(0, 6), (8, 2), (16, 2 * c.arg 8 2)]) fun s c =>
      let n := c.arg 8 2
      match s.openFabric c (decide (1 ≤ n ∧ n ≤ 1999)) with
      | some r => .comp s r.1 r.2 []
      | none =>
        let peers := (List.range n).map fun i => c.arg (16 + 2 * i) 2
        let (s, n) := s.random 256
        let secret := leBytes 32 n
        let s := s.setFabSession (c.arg 2 2)
          (some { leader := true, owner := c.arg 4 2, addr := s.moduleAddr, peers := peers, keyed := true, secret := secret,
                  key := sessionKey (c.arg 2 2) s.moduleAddr secret })
        .waits (s.wait fn slot c.id (.leader (c.arg 2 2))))

/-- SESSION_OPEN of a follower (12 R339): KEY_REQUEST goes to the leader. -/
def execSessionOpenFollower (t fn slot : Nat) (s : State) : Host.Outcome State Fault Refusal :=
  .next ((s.tick t).runCmd fn slot 0x30 (fun c => c.arg 0 1 == 2) { pf := true, states := modesSession }
    (fun c => c.onlyArgs [(0, 8)]) fun s c =>
      match s.openFabric c true with
      | some r => .comp s r.1 r.2 []
      | none =>
        let i := c.arg 2 2
        let s := s.setFabSession i (some { leader := false, owner := c.arg 4 2, addr := c.arg 6 2, reqAt := s.now })
        .waits ((s.wait fn slot c.id (.follower i)).sendRequest i (c.arg 6 2)))

/-- A started plan, or one that starts, uses the session. -/
def State.sessionUsed (s : State) (i : Nat) : Bool := s.plans.any fun p => (p.started || p.starting) && p.session == i

/-- SESSION_CLOSE of a fabric session (12 R342). A SESSION_OPEN that still waits for it completes with REFUSED (DEDUCED, log 75). -/
def execSessionCloseFabric (t fn slot : Nat) (s : State) : Host.Outcome State Fault Refusal :=
  .next ((s.tick t).runCmd fn slot 0x31 (fun c => c.arg 0 1 == 1) { pf := true, states := modesManagement }
    (fun c => c.onlyArgs [(0, 1), (2, 2)]) fun s c =>
      let i := c.arg 2 2
      if (s.fabSession i).isNone then .comp s stBadArg 0 []
      else if s.sessionUsed i then .comp s stRefused 0 []
      else .comp (((s.dropFabSession i).completeWaits (WaitKind.opens i) stRefused 0 []).snagCtl 0x7031 0 [1, i, 0]) stOk 0 [])

/-- KEY_REQUEST at the leader (12 R339, R340): a valid one is answered with KEY_GRANT at any time while the session is open; while the DRBG is stopped
none can be made (DEDUCED, log 197). -/
def execKeyRequest (t : Nat) (m : KeyMsg) (s : State) : Host.Outcome State Fault Refusal :=
  let s := s.tick t
  .next (if !s.novkoUp then s
    else match s.keyCheck m true with
      | .error r => s.refuseKey m.session m.sender r
      | .ok x => if s.keep.entropyOk then s.sendGrant x m else s)

/-- KEY_GRANT at a follower (12 R339, R340): S is unwrapped and KEY_ACK goes out under the session key. A grant whose tag does not match is refused as
one whose signature fails (DEDUCED, log 197). -/
def execKeyGrant (t : Nat) (m : KeyMsg) (s : State) : Host.Outcome State Fault Refusal :=
  let s := s.tick t
  .next (if !s.novkoUp then s
    else match s.keyCheck m false with
      | .error r => s.refuseKey m.session m.sender r
      | .ok x =>
        match s.unwrap m with
        | none => s.refuseKey m.session m.sender 1
        | some secret =>
          let u := (s.setFabSession m.session (some { x with keyed := true, opened := true, key := sessionKey m.session m.sender secret })).sendFab
            m.sender m.session 2 (.keyAck m.session)
          if x.opened then u
          else (u.snagCtl 0x7030 0 [2, m.session, 0, x.owner]).completeWaits (WaitKind.opens m.session) stOk 0 [])

/-- KEY_ACK at the leader (12 R340): when the last peer's has arrived, SESSION_OPEN completes. -/
def execKeyAck (t session sender : Nat) (auth : Bool) (s : State) : Host.Outcome State Fault Refusal :=
  let s := s.tick t
  .next (if !s.novkoUp || !auth then s
    else match s.expected session sender true with
      | .error r => s.refuseKey session sender r
      | .ok x =>
        let acks := if x.acks.contains sender then x.acks else x.acks ++ [sender]
        let full := x.peers.all acks.contains
        let s := s.setFabSession session (some { x with acks := acks, opened := x.opened || full })
        if full && !x.opened then
          (s.snagCtl 0x7030 0 [1, session, x.peers.length, x.owner]).completeWaits (WaitKind.opens session) stOk 0 []
        else s)

/-- KEY_REQUEST_RESEND (12 R339): once a second until the follower has a valid grant. -/
def execKeyRequestResend (t session : Nat) (s : State) : Host.Outcome State Fault Refusal :=
  let s := s.tick t
  .next (match s.fabSession session with
    | some x =>
      if !x.leader && !x.keyed && s.novkoUp && decide (x.reqAt + 1000000000 ≤ s.now) then
        (s.setFabSession session (some { x with reqAt := s.now })).sendRequest session x.addr
      else s
    | none => s)

/-- SESSION_SETUP_TIMEOUT (12 R340): PEER_TIMEOUT has passed and the session is not set up; it is not open then (DEDUCED, log 72). The
snag names the leader, or the first peer whose KEY_ACK has not come. -/
def execSessionSetupTimeout (t session : Nat) (s : State) : Host.Outcome State Fault Refusal :=
  let s := s.tick t
  let due := s.host.waits.any fun w => w.kind.opens session &&
    decide (w.since + 1000000000 * max 1 s.fab.peerTimeout.toNat ≤ s.now)
  .next (match s.fabSession session with
    | some x =>
      if due then
        let who := if x.leader then (x.peers.filter fun a => !x.acks.contains a).headD 0 else x.addr
        ((s.dropFabSession session).snagCtl 0x7032 1 [session, who, 0]).completeWaits (WaitKind.opens session) stRefused setupLate []
      else s
    | none => s)

/-! ### Attestation (12 R343–R345) -/

/-- ATTEST takes these arguments (12 R343). -/
def attestArgs : List (Nat × Nat) := [(0, 33), (34, 2), (36, 2), (40, 4)]

/-- FENCED of a bay (13 R375): a fence that waits for the compute reset does not show yet. -/
def State.fencedBit (s : State) (b : Nat) : Bool :=
  s.rtrFenced b || (mget 0 s.resil.fences b != 0 && !s.resil.newFences.any fun e => e.1 == b)

/-- Bays not fenced (11 R315, 12 R344). -/
def State.openBays (s : State) : Nat := ((List.range 1152).filter fun b => !s.fencedBit b).length

/-- The Context dies in service, as bits (11 R315, 12 R344). -/
def State.ctxBits (s : State) : Nat := (if s.ctxInService 0 then 1 else 0) + (if s.ctxInService 1 then 2 else 0)

/-- The module address as results give it: 0xFFFF before coordinates are in force (11 R315, 12 R344). -/
def State.shownAddr (s : State) : Nat := if s.fab.coords.isSome then s.moduleAddr else 0xFFFF

/-- The digest of the owner key table's entries in index order (12 R344). -/
def State.ownersDigest (s : State) : BitVec 512 :=
  Config.shake256 (s.nvm.owners.flatMap fun e => match e.2 with
    | some o => leBytes 1 e.1 ++ leBytes 1 o.1 ++ o.2
    | none => [])

/-- Plans a function sees, in ascending PLAN_ID (12 R345). -/
def State.plansSeen (s : State) (fn : Nat) : List Loaded :=
  (s.plans.filter fun p => p.openTo fn).mergeSort fun a b => decide (a.img.id ≤ b.img.id)

/-- Sets a function sees, by directory index (12 R345). -/
def State.setsSeen (s : State) (fn : Nat) : List (Nat × DirEnt) :=
  (List.range 1024).filterMap fun i => match s.store.entry i with
    | some e =>
      let held := s.weights.banks.any fun b => b.2.st != .empty && b.2.set == e.setDigest
      if (if fn = 0 then held else s.plans.any fun p => p.openTo fn && p.img.weight == e.setDigest) then some (i, e) else none
    | none => none

/-- The directory index of a stored set, or 0xFFFF. -/
def State.setIndex (s : State) (d : BitVec 512) : Nat :=
  ((List.range 1024).find? fun i => match s.store.entry i with | some e => e.setDigest == d | none => false).getD 0xFFFF

/-- A plan's entry of a report (12 R344). -/
def State.planEntry (s : State) (p : Loaded) : List Byte :=
  let bit (b : Bool) (n : Nat) : Nat := if b then n else 0
  leBytes 8 p.img.id ++
  leBytes 2 (bit p.started 1 + bit p.admitted 2 + bit (p.started && p.placement.isSome) 4 + bit (p.started && p.detour.isSome) 8) ++
  leBytes 6 (s.setIndex p.img.weight) ++ leBytes 64 p.img.digest.toNat

/-- A set's entry of a report (12 R344). -/
def State.setEntry (s : State) (i : Nat) (e : DirEnt) : List Byte :=
  let on (st : BankSt) : Bool := s.weights.banks.any fun b => b.2.st == st && b.2.set == e.setDigest
  let m := mget none s.weights.measured i
  leBytes 2 i ++ leBytes 1 ((if on .live then 1 else 0) + (if on .resident then 2 else 0)) ++
  leBytes 1 (if m.isSome then 1 else 0) ++ leBytes 4 e.nPanels ++ leBytes 8 (match m with | some x => x.1 | none => 0) ++
  leBytes 64 e.setDigest.toNat ++ leBytes 64 (match m with | some x => x.2.toNat | none => 0)

/-- An attestation report but for its signature (12 R344). -/
def State.report12 (s : State) (fn : Nat) (c : Cmd) : List Byte :=
  let ps := s.plansSeen fn
  let ss := s.setsSeen fn
  let p := (ps.drop (c.arg 34 2)).take 8
  let q := (ss.drop (c.arg 36 2)).take 8
  leBytes 4 0x54535441 ++ leBytes 2 1 ++ leBytes 1 s.mode.num ++ leBytes 1 (if s.part = .b0 then 1 else 0) ++ leBytes 1 s.gen.toNat ++
  leBytes 1 p.length ++ leBytes 1 q.length ++ leBytes 1 (if s.expert fn then 1 else 0) ++ leBytes 2 s.shownAddr ++ leBytes 2 fn ++
  leBytes 8 s.mtime ++ leBytes 8 s.boot.runVer ++ leBytes 4 s.boot.runSvn ++ leBytes 2 ps.length ++ leBytes 2 ss.length ++
  leBytes 32 (c.arg 0 32) ++ leBytes 64 (Config.shake256 identityKey).toNat ++ leBytes 64 s.ownersDigest.toNat ++
  leBytes 64 s.boot.fwDigest.toNat ++ leBytes 64 (if s.boot.inForce then s.boot.cfgDigest.toNat else 0) ++
  leBytes 2 s.openBays ++ leBytes 1 s.ctxBits ++ leBytes 1 (min 255 s.anyResets) ++ leBytes 4 0 ++
  p.flatMap s.planEntry ++ q.flatMap fun e => s.setEntry e.1 e.2

/-- ATTEST without CERT (12 R343–R345): the report with the identity key's signature. -/
def execAttest (t fn slot : Nat) (s : State) : Host.Outcome State Fault Refusal :=
  .next ((s.tick t).runCmd fn slot 0x60 (fun c => c.arg 32 1 % 2 == 0) { states := modesManagement } (fun c => c.onlyArgs attestArgs)
    fun s c =>
      if 2 ≤ c.arg 32 1 then .comp s stBadArg 0 []
      else
        let r := s.report12 fn c
        .comp s.drawn stOk 0 (r ++ bytesAt (Config.falconSign identitySeed (digest r) s.freeVal) 0 1280))

/-- ATTEST with CERT (12 R343). -/
def execAttestCert (t fn slot : Nat) (s : State) : Host.Outcome State Fault Refusal :=
  .next ((s.tick t).runCmd fn slot 0x60 (fun c => c.arg 32 1 % 2 == 1) { states := modesManagement } (fun c => c.onlyArgs attestArgs)
    fun s c =>
      if 2 ≤ c.arg 32 1 then .comp s stBadArg 0 []
      else .comp s stOk 0 (leBytes 4 Config.certChain.length ++ leBytes 4 (c.arg 40 4) ++
        (Config.certChain.drop (c.arg 40 4)).take 4000))

/-! ### The entropy source (12 R350) and the drop counter (12 R354) -/

/-- ENTROPY_HEALTH_FAIL (12 R350, R353): test 0 repetition count, 1 adaptive proportion. -/
def execEntropyHealthFail (t : Nat) (test : Fin 2) (s : State) : Host.Outcome State Fault Refusal :=
  let s := s.tick t
  .next (if !s.pwr.stage1Up then s
    else
      let u := s.modKeep fun k => { k with entropyOk := false, failSeen := true, failAt := if k.entropyOk then s.now else k.failAt }
      if s.keep.failSeen then u else u.snagCtl 0x7020 2 [test])

/-- ENTROPY_RETEST (12 R350): ten seconds after the last one; a pass of the start-up test restores the source and reseeds the DRBG. -/
def execEntropyRetest (t : Nat) (ok : Bool) (s : State) : Host.Outcome State Fault Refusal :=
  let s := s.tick t
  let due := match s.keep.retestAt with | some a => decide (a + 10000000000 ≤ s.now) | none => true
  .next (if !s.keep.selftestOk || s.keep.entropyOk || !due then s
    else
      let s := s.modKeep fun k => { k with retestAt := some s.now }
      if ok then
        (s.modKeep fun k => { k with entropyOk := true, draws := 0, reseedAt := s.now }).snagCtl 0x7021 0 [(s.now - s.keep.failAt) / 1000000000]
      else s)

/-- DRBG_RESEED (12 R350): every second; the request that makes 1,024 reseeds by itself. -/
def execDrbgReseed (t : Nat) (s : State) : Host.Outcome State Fault Refusal :=
  let s := s.tick t
  .next (if s.keep.entropyOk && decide (s.keep.reseedAt + 1000000000 ≤ s.now) then s.modKeep fun k => { k with draws := 0, reseedAt := s.now }
    else s)

/-- KEEP_CNT_CLR (12 R354). -/
def execKeepCntClr (t : Nat) (s : State) : Host.Outcome State Fault Refusal :=
  let s := s.tick t
  .next (if s.pwr.stage1Up then s.modKeep fun k => { k with drops := 0 } else s)

end Sys2Proof.Machine
end

