-- ==== Sys2Proof/Machine/Readout.lean ====
section
/-! DEFINITION. Register words as they read, unit by unit (the register tables of chapters 02, 04, 06, 07 and 10), and the
snag log as it is read (00 R15; 11 R319; 12 R348). -/

namespace Sys2Proof.Machine

/-- A flag at bit `n`. -/
def atBit (b : Bool) (n : Nat) : Nat := if b then 2 ^ n else 0

/-- A number as a register word. -/
def toWord (n : Nat) : Word := BitVec.ofNat 32 n

/-! ### Panels (02 R70, R71) -/

/-- The word WIN_SEL selects (02 R71). -/
def Panel.window (x : Panel) : Nat :=
  let n := x.winSel.toNat
  if n < 0x20 then fld x.sats (32 * n) 32
  else if n < 0x24 then fld x.sats (1024 + 32 * (n - 0x20)) 32
  else if 0x40 ≤ n ∧ n < 0x44 then x.cap.getD (n - 0x40) 0
  else 0

/-- A register of panel `k`, by its offset within the panel. -/
def State.readPanel (s : State) (k off : Nat) : Nat :=
  let x := s.panel k
  match off with
  | 0x00 => x.tol.toNat * 2 ^ 16 + atBit x.witEn 8 + atBit x.sgnB 5 + atBit x.sgnA 4 + x.wB.toNat * 4 + x.wA.toNat
  | 0x04 => x.winSel.toNat * 2 ^ 16 + atBit x.live 0
  | 0x08 =>
    atBit (s.calDegraded k) 12 + atBit x.wrHeld 11 + atBit x.cfgLocked 9 + atBit x.opErr 8 + atBit x.exactLost 7 +
    atBit x.witStoreErr 6 + atBit x.witMismatch 5 + atBit x.sat 4 + atBit x.busy 0
  | 0x0C => x.satCnt
  | 0x10 => x.misCnt * 2 ^ 16 + x.skipCnt
  | 0x14 => s.skimCount k * 2 ^ 24 + x.exactLimit.toNat * 2 ^ 16 + s.trimSetOf k * 2 ^ 8 + (s.residual k).toNat
  | 0x18 => x.guardB.toNat * 16 + x.guardA.toNat
  | 0x1C => x.window
  | _ => 0

/-! ### Bays and routers (04 R136; 06 R200) -/

/-- Segments that wake, as bits. -/
def Bay.wakingBits (y : Bay) : Nat :=
  (List.range 4).foldr (fun i acc => (if (mget ({} : Seg) y.segs i).waking then 1 else 0) + 2 * acc) 0

/-- A queue's status word. -/
def Queue.word (q : Queue) : Nat :=
  atBit q.ovr 16 + atBit (q.items == []) 9 + atBit (decide (16 ≤ q.items.length)) 8 + q.items.length

/-- A predicate on the four ports, as bits. -/
def portBits (f : Nat → Bool) : Nat := atBit (f 0) 0 + atBit (f 1) 1 + atBit (f 2) 2 + atBit (f 3) 3

/-- A register of bay `b`, by its offset below 0x800 within the bay. -/
def State.readBay (s : State) (b off : Nat) : Nat :=
  let y := s.bay b
  let r := s.rtr b
  if 0x100 ≤ off ∧ off < 0x120 then (if off % 4 = 0 then fld y.flags (8 * (off - 0x100)) 32 else 0)
  else if 0x200 ≤ off ∧ off < 0x280 then (if off % 4 = 0 then (mget ({} : Queue) y.queues ((off - 0x200) / 4)).word else 0)
  else match off with
  | 0x000 =>
    atBit (y.mgmt != []) 15 + atBit y.spUncorr 12 + atBit y.boundErr 11 + atBit y.segErr 10 + atBit y.queueOvr 9 + atBit y.flagOvr 8 +
    atBit y.staleDrop 7 + atBit y.cfgLocked 6 + atBit (s.fencedBit b) 2 + atBit y.seq.halted 1 + atBit y.seq.running 0
  | 0x004 => y.budget.toNat
  | 0x008 => atBit y.inSat 4 + atBit y.accOvf 3 + atBit y.bxInvalid 2 + atBit y.reqSat 1 + atBit y.resErr 0
  | 0x00C => y.wakingBits * 2 ^ 16 + y.segCtrl
  | 0x010 => atBit y.allocValid 31 + y.queueLast * 2 ^ 24 + y.queueFirst * 2 ^ 16 + y.flagLast * 2 ^ 8 + y.flagFirst
  | 0x020 => y.strokeCnt % 2 ^ 32
  | 0x024 => y.cntHi.toNat
  | 0x028 => y.conflicts
  | 0x02C => y.reqSatCnt
  | 0x030 => y.accOvfCnt * 2 ^ 16 + y.inSatCnt
  | 0x034 => y.flagOvrCnt * 2 ^ 16 + y.staleCnt
  | 0x038 => y.uncorr * 2 ^ 16 + y.corr
  | 0x040 => atBit y.autoInc 24 + y.spAddr.toNat
  | 0x400 =>
    atBit r.hdrErr 23 + atBit r.noMatch 22 + atBit r.fenceDrop 21 + atBit r.sinkDrop 20 + atBit r.retrySeen 19 +
    atBit r.hardFenced 17 + atBit (s.localClosed b) 16 + r.linkDown.toNat * 2 ^ 12 + portBits (s.linkUp b) * 2 ^ 8 +
    portBits (portD2d b) * 2 ^ 4 + portBits fun p => nbr b p != .absent
  | 0x404 => r.retryLimit.toNat * 2 ^ 8 + atBit r.hardFenced 1 + atBit r.localClose 0
  | 0x408 => r.sinkCnt * 2 ^ 16 + r.localCnt
  | 0x40C => mget 0 r.retry 3 * 2 ^ 24 + mget 0 r.retry 2 * 2 ^ 16 + mget 0 r.retry 1 * 2 ^ 8 + mget 0 r.retry 0
  | 0x410 => r.mcIndex.toNat * 2 ^ 16 + (mget 0 r.mc r.mcIndex.toNat).toNat
  | _ => 0

/-! ### Context dies (07 R233) -/

/-- A sequence table entry's 32 bytes (07 R208). -/
def SeqEnt.bytes (e : SeqEnt) : List Byte :=
  leBytes 1 (atBit e.valid 0 + atBit e.fault 1 + atBit e.fromPrefix 2) ++ leBytes 1 e.format ++ leBytes 1 e.dsel ++ leBytes 1 e.heads ++
  leBytes 2 e.tenant ++ leBytes 2 e.layers ++ leBytes 4 e.lpnBase ++ leBytes 4 e.jMax ++ leBytes 4 e.commit ++ leBytes 2 e.window ++
  leBytes 10 0

/-- The hottest stack of a die is in band T3 (07 R206). -/
def State.refresh2x (s : State) (k : Nat) : Bool := (List.range 6).any fun i => (s.sensor (36 + 6 * k + i)).band == 3

/-- A register of Context die `k`. -/
def State.readCtx (s : State) (k off : Nat) : Nat :=
  let c := s.ctx k
  match off with
  | 0x00 =>
    atBit c.cfgLocked 22 + atBit c.badReq 21 + atBit c.poolEmpty 20 + atBit c.permErr 19 + atBit c.windowErr 18 +
    atBit c.uncorrSeen 17 + atBit c.staleDrop 16 + atBit c.arbStarve 15 +
    (List.range 6).foldl (fun n i => n + atBit (s.stackUp k i) (8 + i)) 0 + atBit (s.refresh2x k) 1 + atBit (s.ctxInService k) 0
  | 0x04 => atBit c.starveIrq 0
  | 0x08 => c.refPostpone.toNat * 2 ^ 16 + c.starveRounds.toNat
  | 0x0C =>
    let x := c.cap.getD c.capLast
    atBit c.cap.isSome 31 + x.1 * 2 ^ 16 + x.2.1 * 2 ^ 8 + x.2.2
  | 0x10 => c.ring.length
  | 0x14 => c.poolPush.toNat
  | 0x20 => c.seqSel.toNat
  | 0x24 => natAt (mget ({} : SeqEnt) c.seqs (c.seqSel.toNat % 4096)).bytes (4 * (c.seqSel.toNat / 4096)) 4
  | 0x30 => c.stale
  | 0x34 => c.uncorr * 2 ^ 16 + c.corr
  | 0x38 => (c.arbitrate s.now).preempt
  | 0x3C => c.starve
  | _ => 0

/-! ### The Fabric die (10 R300) -/

/-- STATE of a port. -/
def PortSt.num : PortSt → Nat
  | .dark => 0 | .training => 1 | .up => 2 | .down => 3 | .quarantined => 4 | .wiringErr => 5

/-- WIDTH of a port: 0 none, 1 ×1, 2 ×2, 3 ×4, 4 ×8. -/
def widthCode (w : Nat) : Nat := if 8 ≤ w then 4 else if 4 ≤ w then 3 else if 2 ≤ w then 2 else w

/-- FALLBACK: a wired port is not UP, and another serves its plane (10 R290). -/
def State.fallback (s : State) : Bool :=
  (List.range 16).any (fun p => (s.wiredPlane p).isSome && (s.port p).st != .up) && (List.range 16).any fun p => (s.port p).st == .up

/-- Eye widths of four lanes from lane `l` on: measured at the port, hence free values for the lanes that have trained (log 94). -/
def State.eyes (s : State) (p l : Nat) : Nat :=
  (List.range 4).foldl (fun n i => n + (if (s.port p).lanes.getLsbD (l + i) then s.freeVal / 256 ^ i % 256 else 0) * 256 ^ i) 0

/-- A register of the Fabric die. -/
def State.readFab (s : State) (off : Nat) : Nat :=
  let f := s.fab
  if 0x100 ≤ off ∧ off < 0x500 then
    let p := (off - 0x100) / 0x40
    let x := s.port p
    match off % 0x40 with
    | 0x00 =>
      atBit x.degraded 26 + atBit x.retrySeen 25 + atBit x.violSeen 24 + x.lanes.toNat * 2 ^ 16 +
      ((s.wiredPlane p).getD 0) * 2 ^ 8 + widthCode x.width * 2 ^ 4 + x.st.num
    | 0x04 => x.disable.toNat * 2 ^ 8 + x.minWidth.toNat * 2 ^ 4 + atBit x.retrain 0
    | 0x08 => x.viol * 2 ^ 16 + x.retry
    | 0x0C => x.uncorr * 2 ^ 16 + min (x.corrK / 1024) 0xFFFF
    | 0x10 => s.eyes p 0
    | 0x14 => s.eyes p 4
    | _ => 0
  else match off with
  | 0x00 =>
    (List.range 16).foldl (fun n p => n + atBit ((s.port p).st == .up) (16 + p)) 0 + atBit f.noPeer 6 + atBit f.targetErr 5 +
    atBit f.authFail 4 + atBit f.staleDrop 3 + atBit f.cfgLocked 2 + atBit s.fallback 1 + atBit f.coords.isSome 0
  | 0x04 => f.addr
  | 0x08 => f.peerTimeout.toNat * 2 ^ 8 + f.violLimit.toNat
  | 0x0C => f.noPeerCnt * 2 ^ 16 + f.staleCnt
  | 0x10 => f.targetCnt * 2 ^ 16 + f.authCnt
  | _ => 0

/-! ### The snag log (00 R15; 11 R319; 12 R348) -/

/-- A snag record's 64 bytes. -/
def Snag.bytes (r : Snag) : List Byte :=
  leBytes 2 r.code ++ leBytes 1 r.sev ++ leBytes 1 r.gen.toNat ++ leBytes 4 r.src.toNat ++ leBytes 8 r.ts ++
  ((List.range 4).flatMap fun i => leBytes 8 (r.args.getD i 0)) ++ leBytes 16 0

/-- Snags whose argument word 3 is a bay stroke count. -/
def countLast : List Nat :=
  [0x1001, 0x1020, 0x1050, 0x2010, 0x2011, 0x2012, 0x2020, 0x2021, 0x2030, 0x2050, 0x2052, 0x2060, 0x2061, 0x2062, 0x2063, 0x2071,
   0x2080, 0x3020]

/-- A snag as a VF reads it (12 R348). -/
def Snag.coarse (r : Snag) : Snag :=
  let i := if r.code = 0x1002 then 2 else if countLast.contains r.code then 3 else 4
  { r with ts := r.ts - r.ts % 10000000, args := r.args.zipIdx.map fun e => if e.2 = i then e.1 - e.1 % 1024 else e.1 }

/-- Records from a cursor that a function may read, at most `n`: NEXT, LOST and the records (11 R319). The ring holds the newest
65,536. -/
def State.readSnags (s : State) (fn cursor n : Nat) : Nat × Nat × List Snag :=
  let first := s.snagNext - 65536
  let all := s.snags.reverse.zipIdx.filter fun e => decide (cursor ≤ e.2) && s.snagReadable fn e.1
  let live := all.filter fun e => decide (first ≤ e.2)
  let l := live.take n
  let next := if l.length = live.length then max cursor s.snagNext else (match l.getLast? with | some e => e.2 + 1 | none => cursor)
  (next, (all.filter fun e => decide (e.2 < first)).length, l.map fun e => if fn = 0 then e.1 else e.1.coarse)

end Sys2Proof.Machine
end

