-- ==== Sys2Proof/Machine/Sensing.lean ====
section
/-! DEFINITION. The commands of the housekeeping ADC, the ladders, the sensors and the power readings (chapter 14). -/

namespace Sys2Proof.Machine

/-- Update the sensing block. -/
def State.modSense (s : State) (f : Sense → Sense) : State := { s with sense := f s.sense }

/-! ### Event crossings (14 R407) -/

/-- `n` events merge at island `i` (14 R407). The crossing's id is not given by the manual: a free value (log 26). -/
def State.mergeEvents (s : State) (i n : Nat) : State :=
  if n = 0 then s
  else
    let was := s.sense.xingOvr.getLsbD i
    let s := s.modSense fun x =>
      { x with xingOvr := x.xingOvr ||| BitVec.ofNat 6 (2 ^ i), xingMerged := satAdd x.xingMerged n 0xFFFF }
    if was then s
    else
      let die := if i = 1 then 16 else if i = 2 then 17 else if i = 3 then 18 else 19
      (s.snag 0x8060 1 die 0x7FF [i, s.freeVal % 2 ^ 64, s.sense.xingMerged]).drawn

/-! ### The converter (14 R386–R390) -/

/-- A channel is differential (14 R387). -/
def chDifferential (c : Nat) : Bool := c == 0 || c == 2

/-- The enabled channels: 0, 28 and 31 always are (14 R386). -/
def Sense.enabled (x : Sense) (c : Nat) : Bool := c == 0 || c == 28 || c == 31 || x.chen.getLsbD c

/-- The channel converted after `c`: the next enabled one in ascending order. -/
def Sense.nextCh (x : Sense) (c : Nat) : Nat :=
  (((List.range 32).map fun i => (c + 1 + i) % 32).find? x.enabled).getD 0

/-- A conversion's clamped code and OVR (14 R388): `code` is the input in LSB, `ovr` whether it lies more than 2 LSB
outside the range. -/
def clampCode (c : Nat) (code : Int) (ovr : Bool) : Int × Bool :=
  let lo : Int := if chDifferential c then -2048 else 0
  let hi : Int := if chDifferential c then 2047 else 4095
  (max lo (min hi code), ovr && (decide (code < lo) || decide (hi < code)))

/-- A code of channel `c`. -/
def Sense.code (x : Sense) (c : Nat) : Int := (mget ({} : AdcCh) x.chans c).code

/-- The integrals of the 1 ms window reach `now`: each value counts for as long as it stands, so that held values are in the means
(14 R389, R404; DEDUCED, log 200). -/
def Sense.integrate (x : Sense) (now since : Nat) : Sense :=
  let d : Int := ((now - max x.areaAt since : Nat) : Int)
  { x with areaAt := now, areaV := x.areaV + x.code 1 * d, areaP := x.areaP + x.power * d }

/-- A conversion of channel `c` is stored, and the next one starts in the mode set now (14 R386, R388). A ladder's channel feeds its mean
(R391), and channel 2 the input power (R404). -/
def Sense.store (x : Sense) (now c : Nat) (y : Int × Bool) : Sense :=
  let x := { x with
    chans := mset {} x.chans c { code := y.1, ovr := y.2, stale := false, cnt := ((mget ({} : AdcCh) x.chans c).cnt + 1) % 256 },
    cur := x.nextCh c, convAt := now, convLow := x.lowPower }
  if c = 2 then { x with power := y.1 * x.code 1 }
  else if 8 ≤ c ∧ c < 24 then
    let l := mget ({} : Ladder) x.ladders (c - 8)
    { x with ladders := mset {} x.ladders (c - 8) { l with codes := (y.1 :: l.codes).take 64 } }
  else x

/-- How long the conversion under way takes (14 R386). -/
def Sense.convTime (x : Sense) : Nat := if x.convLow then 4000 else 1000

/-- ADC_CONVERSION (14 R386, R388): channel `ch` is the one being converted, and its time is over. `merged` counts new-reading events that
merge at island 5 (R407). -/
def execAdcConversion (t : Nat) (ch : Fin 32) (code : Int) (ovr : Bool) (merged : Nat) (s : State) :
    Host.Outcome State Fault Refusal :=
  let s := s.tick t
  let x := s.sense
  .next (if x.scanning && !x.calBusy && x.cur == ch.val && decide (x.convAt + x.convTime ≤ s.now) then
      State.mergeEvents (s.modSense fun x => (x.integrate s.now s.leftOff).store s.now ch (clampCode ch code ovr)) 5 merged
    else s)

/-- A self-calibration starts: scanning stops and every channel register is STALE (14 R389). -/
def Sense.startCalibration (x : Sense) : Sense :=
  if x.calBusy then x
  else { x with calBusy := true, chans := (x.chans.map fun e => (e.1, { e.2 with stale := true })).filter fun e => e.2 ≠ {} }

/-- ADC_CAL_PERIOD (14 R389): CAL_PERIOD seconds after the timer last expired or the module entered AWAITING_CONFIG (DEDUCED, log 200);
0 disables periodic calibration. -/
def execAdcCalPeriod (t : Nat) (s : State) : Host.Outcome State Fault Refusal :=
  let s := s.tick t
  .next (if s.novkoUp && s.sense.calPeriod != 0 && decide (s.sense.calAt + 1000000000 * s.sense.calPeriod ≤ s.now) then
      s.modSense fun x => { x.startCalibration with calAt := s.now }
    else s)

/-- HK_SELF_CAL (14 R389): ignored while a calibration runs. -/
def execHkSelfCal (t : Nat) (s : State) : Host.Outcome State Fault Refusal :=
  let s := s.tick t
  .next (if s.novkoUp then s.modSense Sense.startCalibration else s)

/-- REF_STATE by the reference in mV (14 R390). -/
def classifyRef (mv : Nat) : Nat := if mv < 250 then 2 else if 4925 ≤ 2 * mv ∧ 2 * mv ≤ 5075 then 1 else 3

/-- The REF_EXT state a calibration finds (14 R390): a change logs 0x8040 or 0x8041, and starts another calibration
(R389; DEDUCED, log 27). -/
def State.takeRef (s : State) (mv bg : Nat) : State :=
  let old := s.sense.refState
  let new := classifyRef mv
  if new = old then s
  else
    let lost := s.sense.refLost
    let s := s.modSense fun x =>
      { x with refState := new, refEver := x.refEver || new == 1, refLost := if old = 2 ∨ old = 3 then x.refLost else s.now }
    let s := if new = 1 then (if old = 0 then s else s.snagCtl 0x8041 0 [(s.now - lost) / 1000000])
      else s.snagCtl 0x8040 1 [new, mv, bg]
    s.modSense Sense.startCalibration

/-- ADC_SELF_CAL_DONE (14 R389, R390): `offset` in LSB, `gain` the gain error in units of 0.01%, and what channels 0
and 28 measured in mV. A failure keeps the previous coefficients. -/
def execAdcSelfCalDone (t : Nat) (offset gain : Int) (refMv bgMv : Nat) (s : State) :
    Host.Outcome State Fault Refusal :=
  let s := s.tick t
  .next (if s.sense.calBusy then
      let badOff := decide (offset.natAbs > 16)
      let badGain := decide (gain.natAbs > 300)
      let s := s.modSense fun x => { x with calBusy := false, scanning := true, convAt := s.now, convLow := x.lowPower }
      let s := if badOff || badGain then
          (s.modSense fun x => { x with calFail := true }).snagCtl 0x8042 2
            [if badOff then 0 else 1, ((if badOff then offset else gain) % 2 ^ 64).toNat]
        else s.modSense fun x => { x with offset := offset, gain := gain }
      s.takeRef refMv bgMv
    else s)

/-! ### Ladders (14 R391, R392) -/

/-- The sum of a ladder's last codes. -/
def Ladder.sum (l : Ladder) : Nat := (l.codes.foldl (· + ·) 0).toNat

/-- A ladder trim held for lack of a valid REF_EXT (14 R391). -/
def Sense.held (x : Sense) : Bool := x.refState != 1 && x.refEver

/-- The mean of a ladder's last conversions in 0.1 mV, at 3.000 V over 4,096 codes (14 R387, R391): of 64, or of those there are (DEDUCED,
log 200). -/
def Ladder.mean (l : Ladder) : Nat := l.sum * 30000 / (4096 * max 1 l.codes.length)

/-- The ladder's error against 0.8000 V is more than 0.05%, and the side it lies on (14 R391): the mean is sum · 30,000 / (4,096 · n) in 0.1 mV,
so both are scaled by 4,096 · n. -/
def Ladder.off (l : Ladder) : Bool :=
  decide (16384 * l.codes.length < (l.sum * 30000 - 32768000 * l.codes.length) + (32768000 * l.codes.length - l.sum * 30000))
def Ladder.low (l : Ladder) : Bool := decide (l.sum * 30000 < 32768000 * l.codes.length)

/-- Novko's look at one ladder (14 R391). -/
def State.trimLadder (s : State) (die : Nat) : State :=
  let l := mget ({} : Ladder) s.sense.ladders die
  let put (s : State) (l : Ladder) : State := s.modSense fun x => { x with ladders := mset {} x.ladders die l }
  let dir : Int := if l.low then 1 else -1
  if l.off = false ∨ (mget ({} : AdcCh) s.sense.chans (8 + die)).stale = true ∨ s.sense.held = true then
    put s { l with step := 0 }
  else if 127 < (l.trim + dir).natAbs then
    if l.limited then put s { l with step := 0 }
    else (put s { l with step := 0, limited := true }).snag 0x8050 1 die 0x7FF [die, l.mean, (l.trim % 2 ^ 64).toNat]
  else put s { l with step := dir }

/-- LADDER_TRIM_TICK (14 R391): once a second, every die's ladder. -/
def execLadderTrimTick (t : Nat) (s : State) : Host.Outcome State Fault Refusal :=
  let s := s.tick t
  let due := match s.sense.trimAt with | some a => decide (a + 1000000000 ≤ s.now) | none => true
  .next (if s.novkoUp && due then
      (List.range 16).foldl (fun s d => s.trimLadder d) (s.modSense fun x => { x with trimAt := some s.now })
    else s)

/-- LADDER_STEP_APPLY (14 R392): only while no skim runs on the die. The step settles within 200 ns; how long it takes is a free value
(log 201). -/
def execLadderStepApply (t : Nat) (die : Fin 16) (s : State) : Host.Outcome State Fault Refusal :=
  let s := s.tick t
  let l := mget ({} : Ladder) s.sense.ladders die
  .next (if l.step = 0 ∨ s.skimRunning die then s
    else
      let l : Ladder := { l with trim := l.trim + l.step, step := 0, settled := s.now + s.freeVal % 201 }
      (s.modSense fun x => { x with ladders := mset {} x.ladders die l }).drawn)

/-! ### Sensors (14 R398–R401) -/

/-- The substitute group of a sensor (14 R400). -/
def State.substGroup (s : State) (n : Nat) : List Nat :=
  let leaves (l : List Nat) : List Nat := l.flatMap fun d => [2 * d, 2 * d + 1]
  if n < 32 then
    let other := if n % 2 = 0 then n + 1 else n - 1
    if (s.sensor other).broken then
      let d := n / 2
      leaves ((List.range 16).filter fun e =>
        (e / 4 = d / 4 ∧ (e + 1 = d ∨ d + 1 = e)) ∨ e + 4 = d ∨ d + 4 = e)
    else [other]
  else if n = 32 then leaves [0, 1, 2, 3]
  else if n < 35 then
    let k := n - 33
    (List.range 6).map (36 + 6 * k + ·) ++ leaves ((List.range 4).map fun r => 4 * r + 3 * k)
  else if n = 35 then leaves [13, 14]
  else ((List.range 6).map (36 + 6 * ((n - 36) / 6) + ·)).filter (· ≠ n)

/-- The hottest working sensor of a group, in 1/16 °C. -/
def State.hottest (s : State) (l : List Nat) : Option Int :=
  l.foldl (fun a n =>
    let x := s.sensor n
    if x.seen && !x.broken then some (match a with | some v => max v x.val | none => x.val) else a) none

/-- The substitute value of a broken sensor (14 R400). -/
def State.substitute (s : State) (n : Nat) : Int :=
  match s.hottest (s.substGroup n) with
  | some v => v + 80
  | none => 1680

/-- The lower limits of T1, T2 and T3 in 1/16 °C (14 R399). -/
def bandLimits : List Int := [720, 1120, 1440]

/-- The band after a reading (14 R399): up at once, down 2 °C below the limit it crossed. -/
def newBand (old : Nat) (v : Int) : Nat :=
  let up := (bandLimits.filter fun l => l ≤ v).length
  if old ≤ up then up else max up (((bandLimits.take old).filter fun l => l - 32 < v).length)

/-- A leaf's thermal level at a reading (14 R401). -/
def State.throttleLeaf (s : State) (n : Nat) (v : Int) : State :=
  let x := { s.leaf n with skip := s.sense.thrMode }
  let old := s.leafDiv n + s.leafSkip n
  let age (u : Option Nat) (ms : Nat) : Bool := match u with | none => true | some a => decide (ms * 1000000 ≤ s.now - a)
  let put (s : State) (x : LeafThr) : State := s.modSense fun y => { y with leaves := mset {} y.leaves n x }
  let s :=
    if 16 * (s.sense.thrOn.toNat : Int) ≤ v ∧ x.level < 3 ∧ age x.rose 1 = true then
      let x := { x with level := x.level + 1, rose := some s.now, changed := some s.now }
      if x.level = 1 then
        let s := s.modSense fun y => { y with throttle := true }
        if age x.logged 10000 then
          (put s { x with logged := some s.now }).snag 0x8030 0 (n / 2) 0x7FF
            [n, (v % 2 ^ 64).toNat, if x.skip then 1 else 0, 1]
        else put s x
      else put s x
    else if v < 16 * (s.sense.thrOff.toNat : Int) ∧ 0 < x.level ∧ age x.changed 10 = true then
      put s { x with level := x.level - 1, changed := some s.now }
    else put s x
  if 0 < old + s.leafDiv n + s.leafSkip n then s.intrude 1 else s

/-- A reading or a substitute value takes effect (14 R398, R399, R401). -/
def State.report (s : State) (n : Nat) (v : Int) : State :=
  let x := s.sensor n
  let b := newBand x.band v
  let s := s.modSense fun y => { y with temps := mset {} y.temps n { x with seen := true, val := v, band := b } }
  let w := (v % 2 ^ 64).toNat
  let s := if b = 3 ∧ x.band ≠ 3 ∧ s.sense.t3 = false then
      (s.modSense fun y => { y with t3 := true }).snag 0x8032 1 (sensorDie n) 0x7FF [n, w]
    else s
  let s := if 1680 < v ∧ s.sense.over105 = false then
      (s.modSense fun y => { y with over105 := true }).snag 0x8033 1 (sensorDie n) 0x7FF [n, w]
    else s
  if n < 32 then s.throttleLeaf n v else s

/-- A sensor is broken until OFF (14 R400): cause 0 silent, 1 out of range, 2 disagrees. Its substitute serves. -/
def State.breakSensor (s : State) (n cause : Nat) : State :=
  let x := s.sensor n
  let s := s.modSense fun y => { y with brokenSeen := true, temps := mset {} y.temps n { x with broken := true } }
  let v := s.substitute n
  (s.snag 0x8031 2 (sensorDie n) 0x7FF [n, cause, (x.good % 2 ^ 64).toNat, (v % 2 ^ 64).toNat]).report n v

/-- SENSOR_READING (14 R398–R401): `v` in 1/16 °C, 100 µs after the last one at the earliest; a broken sensor reports its substitute. `merged`
events merge at island 5 (R407). -/
def execSensorReading (t : Nat) (n : Fin 48) (v : Int) (merged : Nat) (s : State) : Host.Outcome State Fault Refusal :=
  let s := s.tick t
  let x := { s.sensor n with at_ := some s.now }
  let due := match (s.sensor n).at_ with | some a => decide (a + 100000 ≤ s.now) | none => true
  .next (if !s.sensorPowered n || !due then s
    else
      let s := (s.modSense fun y => { y with temps := mset {} y.temps n x }).mergeEvents 5 merged
      if x.broken then s.report n (s.substitute n)
      else if v < -320 ∨ 2240 < v then s.breakSensor n 1
      else
        let far := match s.hottest (s.substGroup n) with
          | some h => decide ((v - h).natAbs > 320)
          | none => false
        if far && decide (9 ≤ x.differs) then s.breakSensor n 2
        else
          let x' := { x with differs := if far then x.differs + 1 else 0, good := if far then x.good else v }
          let s := s.modSense fun y => { y with temps := mset {} y.temps n x' }
          s.report n v)

/-- SENSOR_SILENT (14 R400): no reading for 1 ms, from the last one or from the die's rails on. -/
def execSensorSilent (t : Nat) (n : Fin 48) (s : State) : Host.Outcome State Fault Refusal :=
  let s := s.tick t
  .next (if s.sensorPowered n && !(s.sensor n).broken && decide (s.sensorSince n + 1000000 ≤ s.now) then s.breakSensor n 0 else s)

/-- SKIP_HOLD_END (14 R403): the hold has lasted as long as the stroke before it, up to 10 µs. -/
def execSkipHoldEnd (t : Nat) (b : BayIx) (s : State) : Host.Outcome State Fault Refusal :=
  let s := s.tick t
  .next (s.modBay b fun y => if y.holdTill ≤ s.now then { y with skipHold := false, holdTill := 0 } else y)

/-! ### Power readings and crossings -/

/-- A 1 ms window joins the sums of its 100 ms window; the hundredth ends it (12 R347). -/
def Snapshot.addWindow (x : Snapshot) (pin : Nat) (leaves : List Nat) : Snapshot :=
  let sumIn := x.sumIn + pin
  let sumLeaf := (List.range 32).foldl (fun m n => mset 0 m n (mget 0 m n + leaves.getD n 0)) x.sumLeaf
  if 100 ≤ x.windows + 1 then { x with windows := 0, sumIn := 0, sumLeaf := [], meanIn := sumIn, meanLeaf := sumLeaf }
  else { x with windows := x.windows + 1, sumIn := sumIn, sumLeaf := sumLeaf }

/-- The mean input voltage of a window of `d` ns in 10 mV, at 72.0 V over 4,096 codes (14 R387, R404). -/
def Sense.meanVin (x : Sense) (d : Nat) : Nat := (x.areaV * 7200 / (4096 * max 1 (d : Int))).toNat % 2 ^ 16

/-- The mean input power in 0.125 W, at 400 A over 4,096 codes (14 R387, R404); the manual gives P_IN no sign and 16 bits, and what it reads
outside them is a free value (log 201). -/
def Sense.meanPin (x : Sense) (d free : Nat) : Nat :=
  let p := x.areaP * 230400 / (2 ^ 24 * max 1 (d : Int))
  if 0 ≤ p ∧ p < 2 ^ 16 then p.toNat else free % 2 ^ 16

/-- POWER_WINDOW (14 R404): 1 ms after the last window, or after stage 1 came up, the means of the converter's readings, and of the power
stage's telemetry: each leaf's mean power in 0.01 W. -/
def execPowerWindow (t : Nat) (leaves : List Nat) (s : State) : Host.Outcome State Fault Refusal :=
  let s := s.tick t
  let from_ := max s.sense.winAt s.leftOff
  .next (if s.pwr.stage1Up && decide (from_ + 1000000 ≤ s.now) then
      let x := s.sense.integrate s.now from_
      let pin := x.meanPin (s.now - from_) s.freeVal
      State.modSense { s.drawn with snap := s.snap.addWindow pin (leaves.map (· % 2 ^ 16)) } fun _ =>
        { x with
          vin := x.meanVin (s.now - from_), pin := pin, winAt := s.now, areaV := 0, areaP := 0,
          leaves := (List.range 32).foldl (fun m n =>
            mset {} m n { mget ({} : LeafThr) m n with power := leaves.getD n 0 % 2 ^ 16 }) x.leaves }
    else s)

/-- MANUAL_DIV_WRITE (14 R402, R409): a pace divider that acts from now or acted until now is an intrusion (05 R171). -/
def execManualDivWrite (t : Nat) (leaf : Fin 32) (v : BitVec 2) (s : State) : Host.Outcome State Fault Refusal :=
  let s := s.tick t
  let s := if (s.leaf leaf).manual = 0 ∧ v = 0 then s else s.intrude 1
  .next (s.modSense fun x => { x with leaves := mset {} x.leaves leaf { mget ({} : LeafThr) x.leaves leaf with manual := v } })

/-- HK_XING_CNT_CLR (14 R409). -/
def execHkXingCntClr (t : Nat) (s : State) : Host.Outcome State Fault Refusal :=
  .next ((s.tick t).modSense fun x => { x with xingMerged := 0 })

/-- STARTUP_CALIBRATION_DONE (14 R393): every panel of a powered leaf is skimmed in both sum modes on the set of its
leaf's band; the other sets stay unmeasured. `exc` are panels whose residual is not `res`, `lad` the trims the binary
search left on the ladders. -/
def execStartupCalibrationDone (t : Nat) (res : BitVec 8) (exc : List (Nat × BitVec 8)) (lad : List (Nat × Int))
    (s : State) : Host.Outcome State Fault Refusal :=
  let s := s.tick t
  .next (if s.pwr.groups = 8 ∧ s.sense.startCal.isNone = true then
      s.modSense fun x =>
        { x with
          ladders := lad.foldl (fun m e =>
            if e.1 < 16 then mset {} m e.1 { mget ({} : Ladder) m e.1 with trim := max (-127) (min 127 e.2) } else m)
            x.ladders,
          startCal := some {
            at_ := s.mtime, res := res,
            bands := (List.range 32).foldl (fun m l =>
              if mget Rail.off s.pwr.rails l == .up then mset none m l (s.leafBand l) else m) [],
            exc := exc.foldl (fun m e => mset none m e.1 (some e.2)) [] } }
    else s)

end Sys2Proof.Machine
end

