-- ==== Sys2Proof/Machine/Boot.lean ====
section
/-! DEFINITION. Start-up: the primer, configuration images, coordinates, link and stack training, entry to READY
(chapter 15; 10 R281, R282; 12 R333, R334, R351). -/

namespace Sys2Proof.Machine

/-- Update the start-up state. -/
def State.modBoot (s : State) (f : Boot → Boot) : State := { s with boot := f s.boot }

/-- A snag of CTL with a timestamp of its own. -/
def State.snagAt (s : State) (ts code sev : Nat) (args : List Nat) : State :=
  let u := s.snagCtl code sev args
  { u with snags := match u.snags with | r :: l => { r with ts := ts } :: l | [] => [] }

/-! ### The primer (12 R351; 15 R411–R413) -/

/-- The owner root is enrolled. -/
def State.owned (s : State) : Bool := (mget none s.nvm.owners 0).isSome

/-- An image's signature verifies against a firmware key whose digest is in the primer ROM (12 R328, 15 R411). -/
def fwSigned (x : FwImage) : Bool :=
  Config.fwKeyDigests.contains (Config.shake256 x.key) && Config.falconOk x.key (leBytes 64 x.digest.toNat) x.sig

/-- A bank's outcome (15 R411, R412): 0 accepted, 1 signature, 2 SVN, 3 stepping mask, 4 empty or malformed. -/
def State.bankOutcome (s : State) (x : FwImage) : Nat :=
  if !x.ok then 4 else if !fwSigned x then 1 else if x.svn < s.nvm.minSvn then 2
  else if x.mask / (if s.part = .b0 then 2 else 1) % 2 = 0 then 3 else 0

/-- KEEP_STATUS [3:0] as self-tests that end with a cause leave them (12 R351, R354): cause 0 is a pass. -/
def State.keepLeft (s : State) (cause : Nat) : Keep :=
  { s.keep with
    entropyOk := cause != 1 && cause != 2, identityOk := decide (cause = 0 ∨ 4 ≤ cause),
    unsealed := decide (cause = 0 ∨ 4 ≤ cause), selftestOk := decide (cause = 0 ∨ 5 ≤ cause) }

/-- KEEP_STATUS [3:0]. -/
def State.keepBits (s : State) : Nat :=
  atBit (s.keep.unsealed && s.owned) 3 + atBit s.keep.entropyOk 2 + atBit s.keep.selftestOk 1 + atBit s.keep.identityOk 0

/-- The module joins the sideband's I3C bus by Hot-Join (01 R20). -/
def State.joinBus (s : State) : State := if s.boot.joined then s else (s.modBoot fun b => { b with joined := true }).emit .hotJoin

/-- The primer holds the module in PRIMED and joins the bus (15 R412; 01 R20). -/
def State.holdPrimed (s : State) (cause alg a b : Nat) : State :=
  let s := { s with keep := s.keepLeft cause }
  let r : PrimerRec :=
    { cause := cause, alg := if cause = 1 then alg else 0, bankA := a, bankB := b,
      minSvn := if s.keep.unsealed then s.nvm.minSvn else 0, keepBits := BitVec.ofNat 4 s.keepBits }
  (s.modBoot fun x => { x with hold := some r }).joinBus

/-- The start key is drawn, each time the module leaves OFF (12 R326, R350). -/
def State.newStartKey (s : State) : State :=
  let (s, n) := s.random 512
  { s with keep := { s.keep with startSeed := leBytes 64 n } }

/-- Directory entries that an install cut off left in STATE 1 are reclaimed (09 R258, R263). -/
def State.reclaim (s : State) : State :=
  if s.store.dir.any fun e => match e.2 with | some d => d.st == 1 | none => false then
    { s with store := s.store.update fun m => m.filter fun e => match e.2 with | some d => d.st != 1 | none => false }
  else s

/-- Novko starts from bank `i` and joins the bus (15 R411, R413; 01 R20, R42). -/
def State.novkoStarts (s : State) (i mv : Nat) : State :=
  let x := if i = 0 then s.flash.bankA else s.flash.bankB
  let was := s.flash.active
  let s := State.newStartKey { s with keep := s.keepLeft 0, flash := { s.flash with active := i } }
  let s := s.modBoot fun b => { b with fwBank := i, runSvn := x.svn, runVer := x.version, fwDigest := x.digest }
  let s := (s.setMode .awaitingConfig).joinBus
  let s := s.snagAt 0 0x8020 0 [s.pwr.offCause, if s.pwr.offCause = 4 then s.pwr.offRail else 0xFF]
  let s := if i = was then s else s.snagCtl 0x9010 1 [i, x.svn]
  let s := if s.pwr.vinWarn then
      State.snagCtl { s with pwr := { s.pwr with warnAt := s.now, minMv := mv } } 0x8001 1 [mv, atBit s.pwr.sagThrottle 0]
    else s
  (s.modSense fun x => { x.startCalibration with calAt := s.now }).reclaim

/-- PRIMER_VERIFY_DONE (12 R351; 15 R411–R413): the self-tests' outcome; `mv` is the lowest input measured since. -/
def execPrimerVerifyDone (t mv : Nat) (st : SelfTest) (s : State) : Host.Outcome State Fault Refusal :=
  let s := s.tick t
  .next (if s.mode ≠ .primed ∨ s.boot.hold.isSome = true then s
    else if 1 ≤ st.cause ∧ st.cause ≤ 4 then s.holdPrimed st.cause st.alg 0 0
    else
      let a := s.bankOutcome s.flash.bankA
      let b := s.bankOutcome s.flash.bankB
      let order := if s.flash.active = 0 then [(0, a), (1, b)] else [(1, b), (0, a)]
      match order.find? fun e => e.2 == 0 with
      | some e => s.novkoStarts e.1 mv
      | none => s.holdPrimed 5 0 a b)

/-! ### Configuration images (15 R414–R418; 12 R333, R334) -/

/-- An image's sections. -/
structure CfgImg where
  settings : List Byte
  fences : List (Nat × Nat)
  sets : List (Nat × Bool × Bool)
  keys : Option (List (Nat × Nat × List Byte))
  voucher : Option (List Byte)
  minSvn : Nat
  parts : Nat
  digest : BitVec 512
  sig : List Byte

/-- COUNTER and ROOT_KEY of a voucher (12 R334). -/
def voucherCounter (v : List Byte) : Nat := natAt v 4 4
def voucherRoot (v : List Byte) : List Byte := bytesAt v 136 1793

/-- Header and section table (15 R415, 05 R154). -/
def cfgHeaderOk (b : List Byte) : Bool :=
  let n := natAt b 6 2
  let l := secTable b n
  decide (256 + 16 * n ≤ b.length) && decide (b.length ≤ 8323072) && natAt b 0 4 == 0x47464E43 && natAt b 4 2 == 1 &&
  decide (2 ≤ n ∧ n ≤ 16) && natAt b 16 8 == b.length && decide (natAt b 26 1 < 4) && (bytesAt b 27 229).all (· == 0) &&
  l.all (fun x => x.resZero && [1, 2, 3, 4, 5, 15].contains x.ty && x.off % 64 == 0 && decide (256 + 16 * n ≤ x.off) &&
    decide (x.off + x.len ≤ b.length)) &&
  decide ((l.map (·.ty)).Nodup) && disjointSecs l && (secOf l 1).isSome &&
  (match l.getLast? with | some x => x.ty == 15 && x.len == 1280 && x.off + x.len == b.length | none => false)

/-- A counted list of 4-byte entries. -/
def cfgEntries (x : List Byte) (lim : Nat) : Option (List (List Byte)) :=
  if x = [] then some []
  else
    let n := natAt x 0 4
    if x.length = 4 + 4 * n ∧ n ≤ lim then some ((List.range n).map fun i => bytesAt x (4 + 4 * i) 4) else none

/-- The owner key section (12 R333): index, roles, key. An index out of range or given twice is malformed (DEDUCED, log 79). -/
def cfgKeys (x : List Byte) : Option (List (Nat × Nat × List Byte)) :=
  let l := (List.range (x.length / 1800)).map fun i => bytesAt x (1800 * i) 1800
  if x.length % 1800 = 0 ∧ l.all (fun e => decide (1 ≤ natAt e 0 1 ∧ natAt e 0 1 ≤ 15 ∧ natAt e 1 1 < 8 ∧ natAt e 2 2 = 0 ∧
      natAt e 1797 3 = 0)) = true ∧ (l.map fun e => natAt e 0 1).Nodup then
    some (l.map fun e => (natAt e 0 1, natAt e 1 1, bytesAt e 4 1793))
  else none

/-- An image taken apart; none fails check 1 (15 R417). -/
def parseCfg (b : List Byte) : Option CfgImg :=
  let l := secTable b (natAt b 6 2)
  let sec (ty : Nat) : List Byte := secBytes b l ty
  let has (ty : Nat) : Bool := (secOf l ty).isSome
  let set := sec 1
  let v := sec 5
  if !cfgHeaderOk b || set.length != 256 || decide (8 ≤ natAt set 71 1) || (bytesAt set 88 168).any (· != 0) ||
      (has 2 && sec 2 == []) || (has 3 && sec 3 == []) ||
      (has 5 && (v.length != 3216 || natAt v 0 4 != 0x524E574F || natAt v 1929 7 != 0)) then none
  else match cfgEntries (sec 2) 64, cfgEntries (sec 3) 8, cfgKeys (sec 4) with
    | some f, some w, some k =>
      if f.any (fun e => natAt e 2 2 != 0) || w.any (fun e => decide (4 ≤ natAt e 2 1) || natAt e 3 1 != 0) then none
      else some
        { settings := set, fences := f.map fun e => (natAt e 0 1, natAt e 1 1),
          sets := w.map fun e => (natAt e 0 2, natAt e 2 1 / 2 == 1, natAt e 2 1 % 2 == 1),
          keys := if has 4 then some k else none,
          voucher := if has 5 then some v else none,
          minSvn := natAt b 24 2, parts := natAt b 26 1, digest := Config.shake256 (b.take ((findSig b).getD 0)),
          sig := b.drop ((findSig b).getD 0) }
    | _, _, _ => none

/-- Every setting is in its range (15 R416); THR_OFF need only be below THR_ON (DEDUCED, log 97). -/
def settingsOk (x : List Byte) : Bool :=
  let at1 (o : Nat) : Nat := natAt x o 1
  (List.range 32).all (fun i => decide (at1 i ≤ 30) && decide (40 ≤ at1 (32 + i) ∧ at1 (32 + i) ≤ 130)) &&
  decide (natAt x 66 2 ≤ 1024) && decide (natAt x 68 2 ≤ 256) && decide (10 ≤ at1 70) &&
  decide (60 ≤ at1 82 ∧ at1 82 ≤ 110 ∧ at1 83 < at1 82) && decide (1 ≤ at1 85 ∧ 1 ≤ at1 86 ∧ 1 ≤ at1 87)

/-- The image's signer verifies (15 R418, 12 R332): an enrolled key with the CONFIG role, or a voucher's new root. -/
def State.cfgSigned (s : State) (g : CfgImg) : Bool :=
  match g.voucher with
  | some v => Config.falconOk (voucherRoot v) (leBytes 64 g.digest.toNat) g.sig
  | none => (s.signer g.digest g.sig 0).isSome

/-- A voucher's signature verifies, it names this module, and its digest of the new root is right (12 R334). -/
def voucherGood (v : List Byte) : Bool :=
  Config.provisioningDigest == Config.shake256 Config.provisioningKey &&
  Config.falconOk Config.provisioningKey (digest (v.take 1936)) (v.drop 1936) &&
  bytesAt v 8 64 == digest identityKey && bytesAt v 72 64 == digest (voucherRoot v)

/-- The voucher is accepted (12 R334), or counts as applied at start-up (15 R418). -/
def State.voucherOk (s : State) (g : CfgImg) (start : Bool) : Bool :=
  match g.voucher with
  | none => true
  | some v =>
    if start then
      voucherCounter v == s.nvm.voucher && (match mget none s.nvm.owners 0 with | some o => o.2 == voucherRoot v | none => false)
    else voucherGood v && decide (s.nvm.voucher < voucherCounter v)

/-- The checks of an image in order (15 R417): the number of the first that fails. Check 5 passes for an image whose voucher's new
root signed it, since that root becomes owner key 0 (DEDUCED, log 84). -/
def State.checkCfg (s : State) (b : List Byte) (start digestOk : Bool) : Except Nat CfgImg :=
  match parseCfg b with
  | none => .error 1
  | some g =>
    if start && !digestOk then .error 2
    else if !s.cfgSigned g then .error 3
    else if !s.voucherOk g start then .error 4
    else if g.keys.isSome && g.voucher.isNone && s.signer g.digest g.sig 0 != some 0 then .error 5
    else if g.parts / (if s.part = .b0 then 2 else 1) % 2 = 0 then .error 6
    else if s.boot.runSvn < g.minSvn then .error 7
    else if !settingsOk g.settings || g.fences.any (fun e => decide (16 ≤ e.1) || decide (72 ≤ e.2)) ||
        g.sets.any (fun e => decide (1023 < e.1)) then .error 8
    else .ok g

/-- Settings are written (15 R416, R421). -/
def State.applySettings (s : State) (x : List Byte) : State :=
  let at1 (o : Nat) : Nat := natAt x o 1
  let s := (List.range 32).foldl (fun s i => s.writeLeafVset i (at1 i)) s
  let s := s.modBoot fun b => { b with
    plimit := (List.range 32).foldl (fun m i => mset 130 m i (at1 (32 + i))) b.plimit,
    portEnable := BitVec.ofNat 16 (natAt x 64 2), auditMin := natAt x 66 2, auditSalt := BitVec.ofNat 64 (natAt x 72 8) }
  let s := s.modResil fun r => { r with
    armRate := BitVec.ofNat 9 (natAt x 68 2), hangWindow := BitVec.ofNat 8 (at1 70), redigestAlways := at1 71 % 2 == 1 }
  let u := s.writeSagThrottle (at1 71 / 2 % 2 == 1)
  let s := if u.pwr.sagActing = s.pwr.sagActing then u else u.intrude 0
  let s := [0, 1].foldl (fun (s : State) k => s.modCtx k fun c => { c with starveRounds := BitVec.ofNat 16 (natAt x 80 2) }) s
  let s := s.modSense fun h => { h with
    thrMode := at1 71 / 4 == 1, thrOn := BitVec.ofNat 8 (at1 82), thrOff := BitVec.ofNat 8 (at1 83), calPeriod := at1 84,
    skimMaxAge := BitVec.ofNat 8 (at1 85) }
  s.modFab fun f => { f with violLimit := BitVec.ofNat 8 (at1 86), peerTimeout := BitVec.ofNat 8 (at1 87) }

/-- A voucher is applied (12 R334): the counter, the table cleared, the new root, the library emptied, snag 0x7051. -/
def State.applyVoucher (s : State) (v : List Byte) : State :=
  let n := (s.store.dir.filter fun e => match e.2 with | some d => d.st == 2 | none => false).length
  let s := { s with
    nvm := { s.nvm with voucher := voucherCounter v, owners := [(0, some (7, voucherRoot v))] },
    store := { s.store with seq0 := s.store.seq0 + 1, seq1 := s.store.seq1 + 1, dir0 := [], dir1 := [], diff0 := 0, diff1 := 0, lib := [] },
    weights := { s.weights with measured := [] } }
  s.snagCtl 0x7051 1 [voucherCounter v, n]

/-- An owner key section is applied (12 R333): snag 0x7050 at a commit, and at start-up where it changes the table. -/
def State.applyKeys (s : State) (l : List (Nat × Nat × List Byte)) (start : Bool) : State :=
  let own := l.foldl (fun m e => mset none m e.1 (some (e.2.1, e.2.2))) (s.nvm.owners.filter fun e => e.1 == 0)
  let u := { s with nvm := { s.nvm with owners := own } }
  if start && own == s.nvm.owners then u
  else u.snagCtl 0x7050 0 [l.length, l.foldl (fun m e => m ||| e.2.1) 0]

/-- An image is applied (15 R421), but for what the states before and after READY add. -/
def State.applyImage (s : State) (g : CfgImg) (start : Bool) : State :=
  let s := match (if start then none else g.voucher) with | some v => s.applyVoucher v | none => s
  let s := match g.keys with | some l => s.applyKeys l start | none => s
  let s := { s with nvm := { s.nvm with minSvn := max s.nvm.minSvn g.minSvn } }
  let s := s.applySettings g.settings
  s.modBoot fun b => { b with
    inForce := true, cfgDigest := g.digest, startFences := g.fences.map fun e => 72 * e.1 + e.2, startSets := g.sets }

/-- A port goes DARK. -/
def State.darkenPort (s : State) (p : Nat) : State :=
  s.portTo p .dark fun x => { x with
    width := 0, lanes := 0, changing := false, ctrl := false, sent := [], queue := [], open_ := [], drop := [], retrain := false }

/-- Ports train that are wired and enabled, and the others go DARK (10 R281–R283; 15 R421). -/
def State.settlePorts (s : State) (l : List Nat) : State :=
  l.foldl (fun s p =>
    if s.portsMayTrain && (s.portPlane p).isSome then s.trainPort p
    else if (s.port p).st = .dark then s else s.darkenPort p) s

/-- Coordinates held come into force once a valid image is in place (10 R282). -/
def State.useHeld (s : State) : State :=
  match s.fab.held with
  | some c => (s.modFab fun f => { f with coords := some c, held := none, addr := 64 * c.rack + c.slot }).startPorts
  | none => s

/-- The module enters AWAITING_COORDS: stage 2 is requested (01 R31, 15 R421). -/
def State.awaitCoords (s : State) : State := (s.setMode .awaitingCoords).requestStage2.useHeld

/-- The current slot (15 R414): marked, and the higher SEQ. -/
def State.curSlot (s : State) : Option (Nat × CfgSlot) :=
  let ok (x : Option CfgSlot) : Option CfgSlot := x.bind fun c => if c.committed then some c else none
  match ok s.flash.slot0, ok s.flash.slot1 with
  | some a, some b => if a.seq < b.seq then some (1, b) else some (0, a)
  | some a, none => some (0, a)
  | none, some b => some (1, b)
  | none, none => none

/-- The current image is refused at start-up (15 R417, R424). -/
def State.haltConfig (s : State) (check slot seq : Nat) : State :=
  let s := s.modBoot fun b => { b with cfgCheck := if slot = 0xFF then 0xFF else check }
  (s.setMode .haltedConfig).snagCtl 0x9001 3 [check, slot, seq]

/-- CONFIG_READ_DONE (15 R417, R418, R421): `digestOk` says whether the stored image matches its trailer. -/
def execConfigReadDone (t : Nat) (digestOk : Bool) (s : State) : Host.Outcome State Fault Refusal :=
  let s := s.tick t
  .next (if s.mode ≠ .awaitingConfig then s
    else match s.curSlot with
      | none => s.haltConfig 0 0xFF 0
      | some (i, c) =>
        let s := s.modBoot fun b => { b with slot := i }
        match s.checkCfg c.image true digestOk with
        | .error n => s.haltConfig n i c.seq
        | .ok g => (s.applyImage g true).awaitCoords)

/-- Put a slot's contents in place. -/
def State.putSlot (s : State) (i : Nat) (c : CfgSlot) : State :=
  { s with flash := if i = 0 then { s.flash with slot0 := some c } else { s.flash with slot1 := some c } }

/-- The slot that is not current. -/
def State.spareSlot (s : State) : Nat := match s.curSlot with | some e => 1 - e.1 | none => 0

/-- A select, an install, a digest or a start-up set load runs (15 R420). -/
def State.storeBusy (s : State) : Bool := s.weights.sel.isSome || s.weights.startQ != [] || s.resil.stage == 3

/-- The status that CONFIG_LOAD gives for a failed check (15 R417). -/
def cfgStatus (n : Nat) : Nat := if n = 1 ∨ n = 8 then stBadArg else if n = 6 ∨ n = 7 then stRefused else stNotPerm

/-- CONFIG_LOAD (15 R420, R424): the detail word of snag 0x9002 is not given: a free value (log 81). -/
def execConfigLoad (t fn slot : Nat) (dma : HostRead) (s : State) : Host.Outcome State Fault Refusal :=
  .next ((s.tick t).runCmd fn slot 0x02 (fun _ => true) { pf := true, states := modesConfig } (fun c => c.onlyArgs [(0, 12)])
    fun s c =>
      if s.storeBusy then .comp s stBusy 0 []
      else s.dmaRead fn c (c.arg 0 8) (fetchBytes dma) fun s b =>
        let b := b.take (c.arg 8 4)
        match (if b.length = c.arg 8 4 then s.checkCfg b false true else .error 1) with
        | .error n =>
          let s := (s.modBoot fun x => { x with cfgCheck := n }).snagCtl 0x9002 1 [n, s.freeVal % 2 ^ 64]
          .comp s.drawn (cfgStatus n) (0x9002 * 2 ^ 16 + n) []
        | .ok g =>
          let s := s.putSlot s.spareSlot { seq := 0, image := b, digest := g.digest, committed := false }
          .comp (s.modBoot fun x => { x with staged := some b }) stOk 0 [])

/-- In READY, loaded plans are checked again under checks 11 and 12 (15 R421). -/
def State.recheckPlans (s : State) : State :=
  s.plans.foldl (fun s p =>
    let others := ((s.plans.filter fun q => q.img.id != p.img.id).map fun q => q.budget.sum).sum
    let bad11 := (p.img.budget :: p.img.fences.map (·.budget)).any fun l => (s.budgetBad l others).isSome
    let n := if bad11 then 11 else if (s.loadCheck p.img none 12).isSome then 12 else 0
    if n = 0 then s else (s.snagCtl 0x9011 1 [p.img.id, n]).unloadPlan p) s

/-- What the state at the commit adds to an image's application (15 R421, 13 R381). The cause word of the reset that leaves WITHDRAWN
is not given: a free value (log 83). -/
def State.afterCommit (s : State) (ports : BitVec 16) : State :=
  let moved := (List.range 16).filter fun i => ports.getLsbD i != s.boot.portEnable.getLsbD i
  match s.mode with
  | .haltedConfig => s.awaitCoords
  | .awaitingCoords => s.commitVset.settlePorts moved
  | .ready => (s.commitVset.settlePorts moved).recheckPlans
  | .withdrawn =>
    let s := ((s.commitVset.settlePorts moved).recheckPlans).modResil fun x => { x with resets := [] }
    s.drawn.startRecovery (s.freeVal % 2 ^ 64) false false
  | _ => s

/-- CONFIG_COMMIT (15 R420, R421, R424). -/
def execConfigCommit (t fn slot : Nat) (s : State) : Host.Outcome State Fault Refusal :=
  .next ((s.tick t).runCmd fn slot 0x03 (fun _ => true) { pf := true, states := modesConfig } (fun c => c.onlyArgs [])
    fun s _ =>
      if s.storeBusy then .comp s stBusy 0 []
      else match s.boot.staged.bind fun x => (parseCfg x).map fun g => (x, g) with
        | none => .comp s stRefused 0 []
        | some (b, g) =>
          let i := s.spareSlot
          let seq := (match s.curSlot with | some e => e.2.seq | none => 0) + 1
          let s := s.putSlot i { seq := seq, image := b, digest := g.digest, committed := true }
          let ports := s.boot.portEnable
          let was := s.mode.num
          let s := (s.modBoot fun x => { x with staged := none, slot := i }).applyImage g false
          .comp ((s.snagCtl 0x9003 0 [seq, i, was, fld g.digest 0 64]).afterCommit ports) stOk 0 [])

/-! ### Links and stacks (06 R182; 07 R231; 15 R419, R422) -/

/-- D2D_LINK_TRAINING_DONE (06 R182, R199, R200): a link that fails is down from the start, at both ends. -/
def execD2dLinkTrainingDone (t : Nat) (b : BayIx) (port : Fin 4) (ok : Bool) (s : State) : Host.Outcome State Fault Refusal :=
  let s := s.tick t
  let key := linkKey b port
  .next (if !portD2d b port || !s.pwr.stage2Up || mget 0 s.boot.d2d key != 0 then s
    else
      let s := s.modBoot fun x => { x with d2d := mset 0 x.d2d key (if ok then 1 else 2) }
      let fail (s : State) (c p far : Nat) : State :=
        s.stickyRtr c ((s.rtr c).linkDown.getLsbD p) (fun r => { r with linkDown := r.linkDown ||| BitVec.ofNat 4 (2 ^ p) })
          0x3002 2 [p, 1, far, 0]
      if ok then s
      else match nbr b port with
        | .router c => fail (fail s b port (256 * meshX c + meshY c)) c (opposite port) (256 * meshX b + meshY b)
        | _ => fail s b port 0xFFFF)

/-- HBM_STACK_TRAINING_DONE (07 R231, R233): a stack that fails leaves service. -/
def execHbmStackTrainingDone (t : Nat) (stack : Fin 12) (ok : Bool) (s : State) : Host.Outcome State Fault Refusal :=
  let s := s.tick t
  .next (if !s.pwr.stage2Up || s.boot.hbmEnded.getLsbD stack then s
    else
      let bit := BitVec.ofNat 12 (2 ^ stack.val)
      let s := s.modBoot fun x => { x with hbmEnded := x.hbmEnded ||| bit, hbmUp := if ok then x.hbmUp ||| bit else x.hbmUp }
      if ok then s else (s.stackLeaves (stack.val / 6) (stack.val % 6) 0).closeSlots (stack.val / 6))

/-- Every die-crossing link has trained or is down; those of units lost have ended too (15 R419). -/
def State.d2dEnded (s : State) : Bool :=
  (List.range 1152).all fun b => (List.range 4).all fun p =>
    !portD2d b p || mget 0 s.boot.d2d (linkKey b p) != 0 || s.rtrFenced b ||
      (match nbr b p with | .router c => s.rtrFenced c | .edge d _ => s.edgeLost d | .absent => true)

/-- Every stack has trained or left service (15 R419). -/
def State.hbmDone (s : State) : Bool :=
  (List.range 12).all fun i => s.boot.hbmEnded.getLsbD i || (s.ctx (i / 6)).stackOut.getLsbD (i % 6)

/-- A port has ended its start-up training (15 R419). -/
def State.portDone (s : State) (p : Nat) : Bool :=
  let x := s.port p
  (s.portPlane p).isNone || s.edgeLost 16 || x.trainedOnce ||
    (match x.st with | .up | .down | .wiringErr | .quarantined => true | .training => decide (x.trainAt + 1200000000 ≤ s.now) | .dark => false)

/-- The conditions for leaving AWAITING_COORDS (15 R419). -/
def State.readyDue (s : State) : Bool :=
  s.mode == .awaitingCoords && s.fab.coords.isSome && s.pwr.stage2Up && s.pwr.groups == 8 && s.d2dEnded && s.hbmDone &&
  s.sense.startCal.isSome && (List.range 16).all s.portDone

/-- READY_ENTRY (15 R419, R421): homes and Novko's mesh tables are loaded (06 R192, R427), start fences, before any plan, then the start weight sets. -/
def execReadyEntry (t : Nat) (s : State) : Host.Outcome State Fault Refusal :=
  let s := s.tick t
  .next (if s.readyDue then (s.setMode .ready).loadHomes.startUp else s)

end Sys2Proof.Machine
end

