-- ==== Sys2Proof/Machine/Sideband.lean ====
section
/-! DEFINITION. The sideband: MCTP control, PLDM, coordinates and firmware updates (01 R429; 10 R281, R282; 15 R411, R412). -/

namespace Sys2Proof.Machine

/-- A PLDM command is answered by Novko once it runs; the primer that holds the module in PRIMED answers those of R412 and completes
every other with ERROR_NOT_READY; otherwise nobody answers. -/
def State.pldm (s : State) (ty cmd : Nat) (novko : State → State) : State :=
  if s.novkoUp then novko s
  else if s.boot.hold.isSome then s.emit (.pldm ty cmd .errorNotReady [])
  else s

/-- GET_TID (01 R429). The identifier is a free value: DSP0240 lets the bus owner set it (log 82). -/
def execGetTid (t : Nat) (s : State) : Host.Outcome State Fault Refusal :=
  .next ((s.tick t).pldm 0 2 fun s => s.drawn.emit (.pldm 0 2 .success (leBytes 1 s.freeVal)))

/-- The supported PLDM types (01 R429). -/
def pldmTypes : List Nat := [0, 5, 63]

/-- GET_PLDM_VERSION (01 R429): transfer handle, flag, version and CRC as DSP0240 gives them, free values here (log 82). A type that is
not supported answers ERROR_INVALID_DATA (DESIGN CHOICE, log 173: the manual leaves it to DSP0240). -/
def execGetPldmVersion (t ty : Nat) (s : State) : Host.Outcome State Fault Refusal :=
  .next ((s.tick t).pldm 0 3 fun s =>
    if pldmTypes.contains ty then s.drawn.emit (.pldm 0 3 .success (leBytes 13 s.freeVal))
    else s.emit (.pldm 0 3 .errorInvalidData []))

/-- GET_PLDM_TYPES (01 R429): a bit for each supported type. -/
def execGetPldmTypes (t : Nat) (s : State) : Host.Outcome State Fault Refusal :=
  .next ((s.tick t).pldm 0 4 fun s => s.emit (.pldm 0 4 .success (leBytes 8 ((pldmTypes.map (2 ^ ·)).sum))))

/-- The command codes of a type: those of type 63 are the manual's, those of type 0 DSP0240's, and those of type 5 the ones DSP0267 has a
firmware device answer (PRESUMED, log 82). -/
def pldmCodes (ty : Nat) : List Nat :=
  if ty = 0 then [2, 3, 4, 5] else if ty = 5 then [1, 2, 0x10, 0x12, 0x13, 0x14, 0x1A, 0x1B, 0x1C, 0x1D]
  else if ty = 63 then [1, 2, 3, 4, 0x10] else []

/-- GET_PLDM_COMMANDS (01 R429): a bit for each command of the type; those of type 5 are DSP0267's, a free value here. A type that is not
supported answers ERROR_INVALID_DATA (DESIGN CHOICE, log 173). -/
def execGetPldmCommands (t ty : Nat) (s : State) : Host.Outcome State Fault Refusal :=
  .next ((s.tick t).pldm 0 5 fun s =>
    if ty = 5 then s.drawn.emit (.pldm 0 5 .success (leBytes 32 s.freeVal))
    else if pldmTypes.contains ty then s.emit (.pldm 0 5 .success (leBytes 32 (((pldmCodes ty).map (2 ^ ·)).sum)))
    else s.emit (.pldm 0 5 .errorInvalidData []))

/-- PLDM_UNSUPPORTED_COMMAND (01 R429): a command that is none of the table's. -/
def execPldmUnsupportedCommand (t ty code : Nat) (s : State) : Host.Outcome State Fault Refusal :=
  .next (if (pldmCodes ty).contains code then s.tick t
    else (s.tick t).pldm ty code fun s =>
      s.emit (.pldm ty code (if pldmTypes.contains ty then .errorUnsupportedPldmCmd else .errorInvalidPldmType) []))

/-- PLDM_FIRMWARE_UPDATE (01 R429; 15 R411, R412): Novko writes the inactive bank only; the primer either bank, while CAUSE is 5. The
update as a whole is one command here. A request for the active bank is refused (DEDUCED, log 85). -/
def execPldmFirmwareUpdate (t : Nat) (bankB : Bool) (img : FwImage) (s : State) : Host.Outcome State Fault Refusal :=
  let put (s : State) : State :=
    State.emit { s with flash := if bankB then { s.flash with bankB := img } else { s.flash with bankA := img } } (.pldm 5 0x10 .success [])
  let s := s.tick t
  .next (match s.boot.hold with
    | some h => if h.cause = 5 then put s else s.pldm 5 0x10 id
    | none => s.pldm 5 0x10 fun s => if (s.flash.active == 1) == bankB then s.emit (.pldm 5 0x10 .errorInvalidData []) else put s)

/-- A coordinate record's fields (10 R281). -/
def parseCoords (b : List Byte) : Coords :=
  { rack := natAt b 0 2, slot := natAt b 2 1, planes := (List.range 16).map fun i => natAt b (4 + i) 1 }

/-- A record is valid (10 R281). -/
def Coords.valid (c : Coords) : Bool :=
  let wired := c.planes.filter (· != 0xFF)
  decide (c.rack < 1024) && decide (c.slot < 64) && wired.all (fun x => decide (x < 16)) && decide wired.Nodup

/-- A record's 20 bytes. -/
def Coords.bytes (c : Coords) : List Byte := leBytes 2 c.rack ++ leBytes 2 c.slot ++ c.planes.flatMap (leBytes 1)

/-- The module address of a record (10 R282). -/
def Coords.addr (c : Coords) : Nat := 64 * c.rack + c.slot

/-- A record is accepted: snag 0x5040 (10 R282, R299). -/
def State.coordsTaken (s : State) (c : Coords) : State :=
  s.snag 0x5040 0 16 0x7FF [c.addr, leNat ((c.planes.take 8).flatMap (leBytes 1)), leNat ((c.planes.drop 8).flatMap (leBytes 1))]

/-- SET_COORDS (10 R282). -/
def State.setCoords (s : State) (b : List Byte) : State :=
  let c := parseCoords b
  let reply (s : State) (x : PldmCode) : State := s.emit (.pldm 63 1 x [])
  if b.length ≠ 20 then reply s .errorInvalidLength
  else if !c.valid then reply s .errorInvalidData
  else if s.fab.coords = some c then reply s .success
  else match s.mode with
    | .awaitingConfig | .haltedConfig => reply ((s.modFab fun f => { f with held := some c }).coordsTaken c) .success
    | .awaitingCoords | .ready =>
      let s := (s.modFab fun f => { f with coords := some c, held := none, addr := c.addr }).coordsTaken c
      reply (s.settlePorts (List.range 16)) .success
    | _ => reply (s.snag 0x5041 1 16 0x7FF [c.addr, s.mode.num]) .errorNotReady

/-- SET_COORDS (10 R282; 01 R429). -/
def execSetCoords (t : Nat) (rec : List Byte) (s : State) : Host.Outcome State Fault Refusal :=
  .next ((s.tick t).pldm 63 1 fun s => s.setCoords rec)

/-- GET_COORDS (10 R281). -/
def execGetCoords (t : Nat) (s : State) : Host.Outcome State Fault Refusal :=
  .next ((s.tick t).pldm 63 2 fun s =>
    s.emit (.pldm 63 2 .success (match s.fab.coords, s.fab.held with
      | some c, _ => leBytes 1 2 ++ c.bytes
      | none, some c => leBytes 1 1 ++ c.bytes
      | none, none => leBytes 21 0)))

/-- CTL_PWR_STATUS (01 R42). -/
def State.pwrStatus (s : State) : Nat :=
  let p := s.pwr
  p.faultRail * 2 ^ 16 + p.offCause * 2 ^ 10 + atBit p.railFaultSeen 9 + atBit p.vinWarnSeen 8 +
  atBit (p.stage2Up && p.groups == 8) 3 + atBit p.stage2Up 2 + atBit p.stage1Up 1 + atBit p.vinWarn 0

/-- HK_TEMP_STATUS (14 R409). -/
def State.tempStatus (s : State) : Nat :=
  atBit s.sense.over105 3 + atBit s.sense.t3 2 + atBit s.sense.throttle 1 + atBit s.sense.brokenSeen 0

/-- GET_POWER_STATUS (01 R429). -/
def execGetPowerStatus (t : Nat) (s : State) : Host.Outcome State Fault Refusal :=
  .next ((s.tick t).pldm 63 3 fun s =>
    s.emit (.pldm 63 3 .success (leBytes 4 s.pwrStatus ++ leBytes 4 s.tempStatus ++ leBytes 4 s.mode.num ++ leBytes 2 s.sense.vin ++
      leBytes 2 (s.sense.pin / 8))))

/-- SIDEBAND_SNAG_READ (01 R429): as the physical function reads them. A MAX outside 1–16 answers ERROR_INVALID_DATA (DESIGN CHOICE,
log 173: the manual names no code for it). -/
def execSidebandSnagRead (t cursor max : Nat) (s : State) : Host.Outcome State Fault Refusal :=
  .next ((s.tick t).pldm 63 4 fun s =>
    if 1 ≤ max ∧ max ≤ 16 then
      let r := s.readSnags 0 cursor max
      s.emit (.pldm 63 4 .success (leBytes 8 r.1 ++ leBytes 4 r.2.1 ++ leBytes 4 r.2.2.length ++ r.2.2.flatMap Snag.bytes))
    else s.emit (.pldm 63 4 .errorInvalidData []))

/-- The primer status record (15 R412). -/
def State.primerRecord (s : State) (r : PrimerRec) : List Byte :=
  leBytes 1 r.cause ++ leBytes 1 r.alg ++ leBytes 1 r.bankA ++ leBytes 1 r.bankB ++ leBytes 2 r.minSvn ++
  leBytes 1 (if s.part = .b0 then 1 else 0) ++ leBytes 1 r.keepBits.toNat ++ leBytes 8 0

/-- GET_PRIMER_STATUS (15 R412; 01 R429). -/
def execGetPrimerStatus (t : Nat) (s : State) : Host.Outcome State Fault Refusal :=
  let s := s.tick t
  .next (match s.boot.hold with
    | some r => s.emit (.pldm 63 0x10 .success (s.primerRecord r))
    | none => s.pldm 63 0x10 fun s => s.emit (.pldm 63 0x10 .errorNotReady []))

/-- MCTP_CONTROL_MESSAGE (15 R412; 01 R429): answered by the primer or by Novko; what the binding's answer holds is a free value. -/
def execMctpControlMessage (t : Nat) (code : Byte) (s : State) : Host.Outcome State Fault Refusal :=
  let s := s.tick t
  .next (if s.novkoUp || s.boot.hold.isSome then s.drawn.emit (.mctp code s.freeVal) else s)

end Sys2Proof.Machine
end

