-- ==== Sys2Proof/Machine/Functions.lean ====
section
/-! DEFINITION. The PCIe endpoint: function resets, MSI-X, expert level, IDE and DOE (11 R301–R303, R320–R325; 12 R337, R338). -/

namespace Sys2Proof.Machine

/-- A host snag: die 19, the function as unit (11 R324). -/
def State.snagFn (s : State) (fn code sev : Nat) (args : List Nat) : State := s.snag code sev 19 fn args

/-- The endpoint serves: Novko has left PRIMED (00 R5, 12 R351). -/
def State.endpointUp (s : State) : Bool := s.mode.management

/-! ### MSI-X (11 R321, R322) -/

/-- Pending messages of a function that may now go out. -/
def State.sendPending (s : State) (fn : Nat) : State :=
  (List.range (if fn = 0 then 64 else 8)).foldl (fun s v =>
    let k := 64 * fn + v
    if mget false s.host.msixPend k && mget false s.host.unmasked k && mget false s.host.busMaster fn && s.host.linkUp then
      (s.modHost fun h => { h with msixPend := mset false h.msixPend k false }).emit (.irq fn v)
    else s) s

/-- A vector's mask bit (11 R322). -/
def State.setMask (s : State) (fn vec : Nat) (masked : Bool) : State :=
  if s.fnExists fn && decide (vec < if fn = 0 then 64 else 8) then
    (s.modHost fun h => { h with unmasked := mset false h.unmasked (64 * fn + vec) (!masked) }).sendPending fn
  else s

/-- MSIX_VECTOR_UNMASK (11 R322): the folded message is sent. -/
def execMsixVectorUnmask (t fn vec : Nat) (s : State) : Host.Outcome State Fault Refusal :=
  let s := s.tick t
  .next (if s.endpointUp then s.setMask fn vec false else s)

/-- Bus Master Enable of a function (11 R305; log 28). -/
def State.setBusMaster (s : State) (fn : Nat) (v : Bool) : State :=
  if s.fnExists fn then (s.modHost fun h => { h with busMaster := mset false h.busMaster fn v }).sendPending fn else s

/-! ### Function resets (11 R302, R303; 08 R254) -/

/-- Requests of a function are removed at the next scheduling point of their plans (08 R254); an idle plan comes to one at once. REQ_IDs count from
1 again (08 R236), so until then the requests go by numbers that no REQ_ID has. -/
def State.removeRequests (s : State) (fn : Nat) : State :=
  let ids := ((s.reqs.filter fun r => r.fn == fn).map (·.plan)).dedup
  let s := { s with reqs := s.reqs.map fun r => if r.fn = fn then { r with id := r.id + 2 ^ 32, removed := true } else r,
                    plans := s.plans.map fun p => { p with slots := p.slots.map fun e => (e.1, match e.2 with
                      | some (f, i) => some (f, if f = fn then i + 2 ^ 32 else i)
                      | none => none) } }
  ids.foldl (fun s i => match s.plan i with
    | some p => if p.step.isNone && s.pointDue p then s.schedule p else s
    | none => s) s

/-- A slot after a reset of its function (11 R303). -/
def Slot.cleared (x : Slot) : Slot := { x with last := 0, cmd := none, comp := x.comp.map fun c => { c with seq := 0 } }

/-- A function reset (11 R303, R324): cause 0 FLR, 1 D3hot, 2 VF disable, 3 link. Bus Master Enable and the MSI-X state go with it
(PRESUMED, log 28). -/
def State.resetFunction (s : State) (fn cause : Nat) : State :=
  let slots := (List.range 4).map fun i => (i, s.slot fn i)
  let busy := (slots.filter fun e => e.2.cmd.isSome).length
  let gone := (s.reqs.filter fun r => r.fn == fn && !r.removed).length
  let s := slots.foldl (fun s e => s.setSlot fn e.1 e.2.cleared) s
  let s := s.modHost fun h => { h with
    lastReq := mset 0 h.lastReq fn 0, order := h.order.filter fun e => e.1 != fn, busMaster := mset false h.busMaster fn false,
    unmasked := h.unmasked.filter fun e => e.1 / 64 != fn, msixPend := h.msixPend.filter fun e => e.1 / 64 != fn,
    msix := h.msix.filter fun e => e.1 / 2048 != fn }
  ((s.removeRequests fn).closeHost fn (if cause = 2 then 2 else 1)).snagFn fn 0x6030 0 [cause, busy, gone]

/-- FUNCTION_LEVEL_RESET (11 R303). -/
def execFunctionLevelReset (t fn : Nat) (s : State) : Host.Outcome State Fault Refusal :=
  let s := s.tick t
  .next (if s.endpointUp && s.fnExists fn then s.resetFunction fn 0 else s)

/-- D3HOT_ENTRY (11 R303). -/
def execD3hotEntry (t fn : Nat) (s : State) : Host.Outcome State Fault Refusal :=
  let s := s.tick t
  .next (if s.endpointUp && s.fnExists fn then s.resetFunction fn 1 else s)

/-- ENDPOINT_RESET (11 R302, R324): PERST_N, or a loss of the data link. VF Enable stays as it is (DEDUCED, log 87). -/
def execEndpointReset (t : Nat) (linkLoss : Bool) (s : State) : Host.Outcome State Fault Refusal :=
  let s := s.tick t
  .next (if s.endpointUp then
      let was := s.host.perst
      let s := s.modHost fun h => { h with linkUp := false, speed := 0, perst := true }
      let s := if was then s else s.snagFn 0 0x6031 1 [atBit linkLoss 0]
      (List.range (s.host.numVfs + 1)).foldl (fun s fn => s.resetFunction fn 3) s
    else s)

/-- PCIE_LINK_UP (11 R301, R325). -/
def execPcieLinkUp (t : Nat) (speed : Fin 7) (s : State) : Host.Outcome State Fault Refusal :=
  let s := s.tick t
  .next (if s.endpointUp && !s.host.linkUp then s.modHost fun h => { h with linkUp := true, speed := speed } else s)

/-- Expert level of a VF changes (11 R320, R324): cause 0 command, 1 VF disable. -/
def State.setExpert (s : State) (fn : Nat) (v : Bool) (cause : Nat) : State :=
  if mget false s.host.expert fn = v then s
  else (s.modHost fun h => { h with expert := mset false h.expert fn v }).snagFn fn 0x6010 0 [fn, atBit v 0, cause]

/-- Clearing VF Enable (11 R303, R320; 12 R338). -/
def State.disableVfs (s : State) : State :=
  let l := (List.range s.host.numVfs).map (· + 1)
  let s := l.foldl (fun s fn => s.resetFunction fn 2) s
  let s := s.prefixes.foldl (fun s e => match e.2 with
    | some p => if 1 ≤ p.tenant then s.dropPrefix e.1 p else s
    | none => s) s
  let s := l.foldl (fun s fn => s.setExpert fn false 1) s
  s.modHost fun h => { h with numVfs := 0 }

/-- VF_DISABLE (11 R303). -/
def execVfDisable (t : Nat) (s : State) : Host.Outcome State Fault Refusal :=
  let s := s.tick t
  .next (if s.endpointUp then s.disableVfs else s)

/-- VF Enable is set with NumVFs; NumVFs cannot change while it is set (PRESUMED, SR-IOV; log 88), and 0 clears it. -/
def State.setNumVfs (s : State) (n : Nat) : State :=
  if n = 0 then s.disableVfs
  else if s.host.numVfs = 0 ∧ n ≤ 1024 then s.modHost fun h => { h with numVfs := n }
  else s

/-- EXPERT_ENABLE (11 R320). A VF that is not enabled names no object. -/
def execExpertEnable (t fn slot : Nat) (s : State) : Host.Outcome State Fault Refusal :=
  .next ((s.tick t).runCmd fn slot 0x7F (fun _ => true) { pf := true, states := modesManagement } (fun c => c.onlyArgs [(0, 3)])
    fun s c =>
      if c.arg 0 2 = 0 ∨ s.host.numVfs < c.arg 0 2 ∨ 2 ≤ c.arg 2 1 then .comp s stBadArg 0 []
      else .comp (s.setExpert (c.arg 0 2) (c.arg 2 1 == 1) 0) stOk 0 [])

/-! ### IDE and DOE (12 R337; 11 R301) -/

/-- A host session's stream is active or not. -/
def State.setStream (s : State) (fn : Nat) (v : Bool) : State :=
  match s.hostSession fn with
  | some x => (s.modKeep fun k => { k with hostSess := mset none k.hostSess fn (some { x with active := v }) }).emit (.ide fn 0)
  | none => s

/-- IDE_K_SET_GO (12 R337). -/
def execIdeKSetGo (t fn : Nat) (s : State) : Host.Outcome State Fault Refusal := .next ((s.tick t).setStream fn true)

/-- IDE_K_SET_STOP (12 R337). -/
def execIdeKSetStop (t fn : Nat) (s : State) : Host.Outcome State Fault Refusal := .next ((s.tick t).setStream fn false)

/-- IDE_KEY_PROG (12 R337): a KP_ACK with a status that is not zero, and no more is said of it: a free value. -/
def execIdeKeyProg (t : Nat) (s : State) : Host.Outcome State Fault Refusal :=
  let s := s.tick t
  .next (if s.endpointUp then s.drawn.emit (.ide 0 (1 + s.freeVal % 255)) else s)

/-- DOE_SPDM_REQUEST (11 R301): the Keep answers; what CMA/SPDM makes the answer hold is a free value. -/
def execDoeSpdmRequest (t : Nat) (code : Byte) (s : State) : Host.Outcome State Fault Refusal :=
  let s := s.tick t
  .next (if s.endpointUp then s.drawn.emit (.spdm (code.toNat + 256 * s.freeVal)) else s)

/-- MB_CNT_CLR (11 R325). -/
def execMbCntClr (t : Nat) (s : State) : Host.Outcome State Fault Refusal :=
  let s := s.tick t
  .next (if s.pwr.stage1Up then s.modHost fun h => { h with dmaCnt := 0, busyCnt := 0 } else s)

end Sys2Proof.Machine
end

