-- ==== Sys2Proof/Machine/Registers.lean ====
section
/-! DEFINITION. PF BAR0: every register as it reads and as it is written (00 R8–R14; the register tables of every chapter). -/

namespace Sys2Proof.Machine

/-! ### Reading the CTL, Keep and housekeeping blocks -/

/-- Store devices online and answering (09 R256, R274): they run on stage 1. -/
def State.devOk (s : State) : Nat := if s.pwr.stage1Up then (~~~s.weights.devBad).toNat else 0

/-- A select load is reading the store. -/
def State.loadBusy (s : State) : Bool := (match s.weights.sel with | some x => !x.swapping && x.left != [] | none => false) ||
    (s.resil.stage == 2 && s.plans.any fun p => p.started && match p.active with | some f => f.fills != [] | none => false)

/-- A swap is between its start and its last flip (09 R275): some panel does not yet compute from the bank of the selected set. -/
def State.swapActive (s : State) : Bool :=
  match s.weights.sel with
  | some x => x.swapping && x.toFlip.any fun k => (s.panel k).live != (s.selBank k s.selDigest == 1)
  | none => false

/-- MB_FN_DATA (11 R325). -/
def State.fnData (s : State) : Nat :=
  let fn := s.host.fnSel.toNat
  if 1024 < fn then 0
  else
    atBit (s.fnExists fn && s.expert fn) 31 + atBit (s.fnExists fn) 30 +
    (portBits fun i => (s.slot fn i).cmd.isSome) * 2 ^ 16 + min 256 (s.pendingOf fn)

/-- A register of the CTL global block. -/
def State.readCtl (s : State) (off : Nat) : Nat :=
  if 0x2100 ≤ off ∧ off < 0x2140 then
    let n := (off - 0x2100) / 4
    mget 20 s.pwr.vset (2 * n + 1) * 2 ^ 8 + mget 20 s.pwr.vset (2 * n)
  else if 0x5100 ≤ off ∧ off < 0x5200 ∧ off % 4 = 0 then
    let n := (off - 0x5100) / 16
    let w := off % 16 / 4
    (List.range 32).foldl (fun v i => v + atBit (decide (32 * w + i < 72) && s.fencedBit (72 * n + 32 * w + i)) i) 0
  else match off with
  | 0x1000 =>
    s.boot.cfgCheck * 2 ^ 16 + atBit (s.pwr.stage2Up && s.hbmDone) 10 + atBit (s.pwr.stage2Up && s.d2dEnded) 9 +
    atBit s.sense.startCal.isSome 8 + s.boot.slot * 2 ^ 7 + s.boot.fwBank * 2 ^ 6 + atBit (s.part == .b0) 5 + s.mode.num
  | 0x2000 => s.pwrStatus
  | 0x2004 => atBit s.pwr.warnIrqEn 9 + atBit s.pwr.vsetRamping 8 + atBit s.pwr.sagThrottle 0
  | 0x3000 => atBit s.swapActive 24 + atBit s.loadBusy 22 + atBit s.weights.uncorr 17 + atBit s.weights.devFail 16 + s.devOk
  | 0x4000 => s.host.sevSel.toNat
  | 0x4004 =>
    atBit s.host.linkUp 31 + (if s.host.linkUp then s.host.speed * 2 ^ 24 + 4 * 2 ^ 16 else 0) + atBit s.host.perst 3 +
    atBit s.host.tlpErr 2 + atBit s.host.dmaErr 1 + atBit s.host.busyWrite 0
  | 0x4008 => s.host.dmaCnt * 2 ^ 16 + s.host.busyCnt
  | 0x4010 => s.host.fnSel.toNat
  | 0x4014 => s.fnData
  | 0x5000 => s.gen.toNat * 2 ^ 16 + min 3 s.countedResets * 2 ^ 12 + s.resil.stage * 2 ^ 8 + s.resil.coresUp.toNat
  | 0x5004 => s.resil.hangWindow.toNat * 2 ^ 24 + atBit s.resil.redigestAlways 9 + s.resil.armRate.toNat
  | 0x5010 => s.resil.armed
  | 0x5014 => s.resil.missing * 2 ^ 16 + s.resil.mismatch
  | _ => 0

/-- A register of the Keep block (12 R354): what the sealed store holds reads 0 until it is unsealed (R351). -/
def State.readKeep (s : State) (off : Nat) : Nat :=
  let k := s.keep
  match off with
  | 0x00 => atBit k.ideDrop 9 + atBit k.failSeen 8 + s.keepBits
  | 0x08 => s.openFab * 2 ^ 16 + s.hostFns.length
  | 0x0C => s.boot.runSvn * 2 ^ 16 + (if k.unsealed then s.nvm.minSvn else 0)
  | 0x10 => if k.unsealed then s.nvm.voucher else 0
  | 0x14 => k.drops
  | _ => 0

/-- An integer in `n` bits of two's complement. -/
def inBits (n : Nat) (x : Int) : Nat := (x % 2 ^ n).toNat

/-- DATA of a housekeeping channel, as LEFT_ALIGN and its type have it (14 R388). -/
def Sense.data (x : Sense) (c : Nat) : Nat :=
  let code := (mget ({} : AdcCh) x.chans c).code
  inBits 16 (if x.leftAlign then code * 16 else code)

/-- A register of the housekeeping block (14 R409). -/
def State.readHk (s : State) (off : Nat) : Nat :=
  let h := s.sense
  if off % 4 ≠ 0 then 0
  else if 0x100 ≤ off ∧ off < 0x180 then
    let c := (off - 0x100) / 4
    let x := mget ({} : AdcCh) h.chans c
    atBit x.stale 31 + atBit x.ovr 30 + x.cnt * 2 ^ 16 + h.data c
  else if 0x200 ≤ off ∧ off < 0x2C0 then
    let x := s.sensor ((off - 0x200) / 4)
    atBit x.broken 31 + atBit x.broken 30 + x.band * 2 ^ 28 + inBits 16 x.val
  else if 0x400 ≤ off ∧ off < 0x480 then
    let l := (off - 0x400) / 4
    let x := s.leaf l
    atBit s.pwr.sagActing 18 + x.level * 2 ^ 12 + s.leafSkip l * 2 ^ 8 + s.leafDiv l * 2 ^ 4 + x.manual.toNat
  else if 0x600 ≤ off ∧ off < 0x680 then (s.leaf ((off - 0x600) / 4)).power
  else if 0x700 ≤ off ∧ off < 0x740 then
    let x := mget ({} : Ladder) h.ladders ((off - 0x700) / 4)
    atBit h.held 24 + inBits 8 x.trim * 2 ^ 16 + x.mean % 2 ^ 16
  else match off with
  | 0x000 => h.calPeriod * 2 ^ 16 + atBit h.leftAlign 1 + atBit h.lowPower 0
  | 0x004 =>
    atBit h.refEver 12 + atBit h.refEver 11 + h.refState * 2 ^ 8 + atBit h.calFail 2 + atBit h.calBusy 1 + atBit h.scanning 0
  | 0x008 => (h.chen ||| 0x90000001).toNat
  | 0x300 => atBit h.thrMode 16 + h.thrOff.toNat * 2 ^ 8 + h.thrOn.toNat
  | 0x304 => s.tempStatus
  | 0x310 => h.skimMaxAge.toNat
  | 0x500 => h.vin * 2 ^ 16 + h.pin
  | 0x800 => h.xingMerged * 2 ^ 16 + h.xingOvr.toNat
  | _ => 0

/-! ### The block map (00 R9, R10) -/

/-- Where an offset of PF BAR0 lies. -/
inductive Place where
  | ctl (off : Nat)
  | keep (off : Nat)
  | hk (off : Nat)
  | fab (off : Nat)
  | ctx (k off : Nat)
  | bay (b off : Nat)
  | panel (b p off : Nat)
  | nowhere
  deriving DecidableEq, Repr

/-- The block map. -/
def placeOf (o : Nat) : Place :=
  if o < 0x100000 then .ctl o
  else if o < 0x200000 then .keep (o - 0x100000)
  else if o < 0x300000 then .hk (o - 0x200000)
  else if o < 0x400000 then .fab (o - 0x300000)
  else if o < 0x600000 then .ctx ((o - 0x400000) / 0x100000) (o % 0x100000)
  else if 0x1000000 ≤ o ∧ o < 0x2000000 then
    let n := (o - 0x1000000) / 0x100000
    let b := o % 0x100000 / 0x1000
    let r := o % 0x1000
    if 72 ≤ b then .nowhere
    else if r < 0x800 then .bay (72 * n + b) r
    else if r < 0xC00 then .panel (72 * n + b) ((r - 0x800) / 0x20) ((r - 0x800) % 0x20)
    else .nowhere
  else .nowhere

/-- The word at an offset of PF BAR0; offsets not listed read 0 (00 R8). -/
def State.readReg (s : State) (o : Nat) : Word :=
  toWord (match placeOf o with
    | .ctl x => s.readCtl x
    | .keep x => s.readKeep x
    | .hk x => s.readHk x
    | .fab x => s.readFab x
    | .ctx k x => s.readCtx k x
    | .bay b x => s.readBay b x
    | .panel b p x => s.readPanel (pkey b p) x
    | .nowhere => 0)

/-! ### Writing -/

/-- A meaning of this model as a step of another. -/
def State.via (s : State) (f : State → Host.Outcome State Fault Refusal) : State :=
  match f s with
  | .next s' => s'
  | _ => s

/-- Writing 1 to a W1C bit clears it. -/
def w1c (old : Bool) (v : Word) (bit : Nat) : Bool := old && !v.getLsbD bit

/-- A W1S bit is written with 1. -/
def State.onBit (s : State) (v : Word) (bit : Nat) (f : State → State) : State := if v.getLsbD bit then f s else s

/-- A write in the CTL global block. -/
def State.writeCtl (s : State) (off : Nat) (v : Word) : State :=
  if 0x2100 ≤ off ∧ off < 0x2140 ∧ off % 4 = 0 then
    s.via (execCtlPwrLeafVsetWrite s.now (Fin.ofNat 16 ((off - 0x2100) / 4)) v)
  else match off with
  | 0x2000 => { s with pwr := { s.pwr with railFaultSeen := w1c s.pwr.railFaultSeen v 9, vinWarnSeen := w1c s.pwr.vinWarnSeen v 8 } }
  | 0x2004 =>
    let s := { s with pwr := { s.pwr with warnIrqEn := v.getLsbD 9 } }
    (s.via (execSagThrottleWrite s.now (v.getLsbD 0))).onBit v 8 fun s => s.via (execVsetCommit s.now)
  | 0x3000 => s.modWeights fun w => { w with uncorr := w1c w.uncorr v 17, devFail := w1c w.devFail v 16 }
  | 0x4000 => (s.modHost fun h => { h with sevSel := v.extractLsb' 0 2 }).onBit v 8 fun s => s.via (execMbCntClr s.now)
  | 0x4004 => s.modHost fun h => { h with
      perst := w1c h.perst v 3, tlpErr := w1c h.tlpErr v 2, dmaErr := w1c h.dmaErr v 1, busyWrite := w1c h.busyWrite v 0 }
  | 0x4010 => s.modHost fun h => { h with fnSel := v.extractLsb' 0 11 }
  | 0x5004 => s.modResil fun r => { r with
      hangWindow := v.extractLsb' 24 8, redigestAlways := v.getLsbD 9, armRate := v.extractLsb' 0 9 }
  | 0x5008 => s.onBit v 8 fun s => s.modResil fun r => { r with armed := 0, missing := 0, mismatch := 0 }
  | _ => s

/-- A write in the Keep block. -/
def State.writeKeep (s : State) (off : Nat) (v : Word) : State :=
  match off with
  | 0x00 => s.modKeep fun k => { k with ideDrop := w1c k.ideDrop v 9, failSeen := w1c k.failSeen v 8 }
  | 0x04 => s.onBit v 0 fun s => s.via (execKeepCntClr s.now)
  | _ => s

/-- A write in the housekeeping block. -/
def State.writeHk (s : State) (off : Nat) (v : Word) : State :=
  if 0x400 ≤ off ∧ off < 0x480 ∧ off % 4 = 0 then
    s.via (execManualDivWrite s.now (Fin.ofNat 32 ((off - 0x400) / 4)) (v.extractLsb' 0 2))
  else match off with
  | 0x000 =>
    (s.modSense fun h => { h with calPeriod := fld v 16 8, leftAlign := v.getLsbD 1, lowPower := v.getLsbD 0 }).onBit v 8 fun s =>
      s.via (execHkSelfCal s.now)
  | 0x004 => s.modSense fun h => { h with calFail := w1c h.calFail v 2 }
  | 0x008 => s.modSense fun h => { h with chen := v }
  | 0x300 => s.modSense fun h => { h with thrMode := v.getLsbD 16, thrOff := v.extractLsb' 8 8, thrOn := v.extractLsb' 0 8 }
  | 0x304 => s.modSense fun h => { h with
      over105 := w1c h.over105 v 3, t3 := w1c h.t3 v 2, throttle := w1c h.throttle v 1, brokenSeen := w1c h.brokenSeen v 0 }
  | 0x310 => s.modSense fun h => { h with skimMaxAge := v.extractLsb' 0 8 }
  | 0x800 =>
    (s.modSense fun h => { h with xingOvr := h.xingOvr &&& ~~~(v.extractLsb' 0 6) }).onBit v 8 fun s => s.via (execHkXingCntClr s.now)
  | _ => s

/-- A write of FAB_PORTn_CTRL (10 R300): the K fields are locked while the port is TRAINING or UP, and a refused write logs one snag
(05 R174; DEDUCED, log 86). The manual lists none with its code, which is a free value (DESIGN CHOICE, log 194). -/
def State.writePortCtrl (s : State) (p : Nat) (v : Word) : State :=
  let x := s.port p
  let lock (s : State) : State :=
    let u := s.modFab fun f => { f with cfgLocked := true }
    if s.fab.cfgLocked then u
    else (u.snag (0x5000 + s.freeVal % 0x1000) 1 16 p [0x104 + 0x40 * p, v.toNat]).drawn
  let dis := v.extractLsb' 8 8
  let mw := v.extractLsb' 4 2
  let s := if dis = x.disable ∧ mw = x.minWidth then s
    else if x.st = .training ∨ x.st = .up then lock s
    else s.modPort p fun x => { x with disable := dis, minWidth := mw }
  ((s.onBit v 2 (·.clearPort p)).onBit v 1 (·.releasePort p)).onBit v 0 (·.retrainPort p)

/-- A write in the Fabric block. -/
def State.writeFab (s : State) (off : Nat) (v : Word) : State :=
  if 0x100 ≤ off ∧ off < 0x500 then
    let p := (off - 0x100) / 0x40
    match off % 0x40 with
    | 0x00 => s.modPort p fun x => { x with
        degraded := w1c x.degraded v 26, retrySeen := w1c x.retrySeen v 25, violSeen := w1c x.violSeen v 24 }
    | 0x04 => s.writePortCtrl p v
    | _ => s
  else match off with
  | 0x00 => s.modFab fun f => { f with
      noPeer := w1c f.noPeer v 6, targetErr := w1c f.targetErr v 5, authFail := w1c f.authFail v 4, staleDrop := w1c f.staleDrop v 3,
      cfgLocked := w1c f.cfgLocked v 2 }
  | 0x08 => (s.modFab fun f => { f with peerTimeout := v.extractLsb' 8 8, violLimit := v.extractLsb' 0 8 }).onBit v 16 State.clearFab
  | _ => s

/-- A Context die runs while a started plan uses context memory (07 R233; DEDUCED, log 78: both dies then do). -/
def State.ctxRuns (s : State) : Bool := s.plans.any fun p => p.started && p.img.usesCtx

/-- A write of CTX_ARB_CFG (07 R233; 05 R174): REF_POSTPONE is locked while the die runs. -/
def State.writeArbCfg (s : State) (k : Nat) (v : Word) : State :=
  let c := s.ctx k
  let rp := v.extractLsb' 16 4
  let s := (s.arbitrate k).modCtx k fun c => { c with starveRounds := v.extractLsb' 0 16 }
  if rp = c.refPostpone then s
  else if s.ctxRuns then
    let u := s.modCtx k fun c => { c with cfgLocked := true }
    if c.cfgLocked then u else u.snag 0x4040 1 (17 + k) 0x7FF [0x08, v.toNat]
  else s.modCtx k fun c => { c with refPostpone := rp }

/-- A write in a Context die's block. -/
def State.writeCtx (s : State) (k off : Nat) (v : Word) : State :=
  match off with
  | 0x00 => s.modCtx k fun c => { c with
      cfgLocked := w1c c.cfgLocked v 22, badReq := w1c c.badReq v 21, poolEmpty := w1c c.poolEmpty v 20, permErr := w1c c.permErr v 19,
      windowErr := w1c c.windowErr v 18, uncorrSeen := w1c c.uncorrSeen v 17, staleDrop := w1c c.staleDrop v 16,
      arbStarve := w1c c.arbStarve v 15 }
  | 0x04 => (s.modCtx k fun c => { c with starveIrq := v.getLsbD 0 }).onBit v 8 fun s => s.via (execCtxCntClr s.now (Fin.ofNat 2 k))
  | 0x08 => s.writeArbCfg k v
  | 0x0C => s.onBit v 31 fun s => s.via (execCtxStarveCapClear s.now (Fin.ofNat 2 k))
  | 0x14 => s.via (execCtxPoolPush s.now (Fin.ofNat 2 k) v)
  | 0x20 => s.modCtx k fun c => { c with seqSel := v.extractLsb' 0 15 }
  | _ => s

/-- A write of BAY_ALLOC (04 R133, R136; 05 R174): field by field, locked while the bay runs. -/
def State.writeAlloc (s : State) (b : Nat) (v : Word) : State :=
  let y := s.bay b
  let valid := v.getLsbD 31
  let same := y.allocValid == valid && y.queueLast == fld v 24 5 && y.queueFirst == fld v 16 5 && y.flagLast == fld v 8 8 &&
    y.flagFirst == fld v 0 8
  if y.seq.running then (if same then s else s.lockBay b 0x010 v)
  else s.modBay b fun y =>
    let y := if y.allocValid && !valid then y.invalidate else y
    { y with allocValid := valid, queueLast := fld v 24 5, queueFirst := fld v 16 5, flagLast := fld v 8 8, flagFirst := fld v 0 8 }

/-- A write below 0x800 within a bay (04 R136; 06 R200). -/
def State.writeBay (s : State) (b off : Nat) (v : Word) : State :=
  let bx : BayIx := Fin.ofNat 1152 b
  if 0x100 ≤ off ∧ off < 0x120 then (if off % 4 = 0 then s.writeFlags b ((off - 0x100) / 4) v else s)
  else if 0x200 ≤ off ∧ off < 0x280 then
    (if off % 4 = 0 then s.modBay b fun y =>
      let q := mget ({} : Queue) y.queues ((off - 0x200) / 4)
      { y with queues := mset {} y.queues ((off - 0x200) / 4) { q with ovr := w1c q.ovr v 16 } }
     else s)
  else match off with
  | 0x000 => s.modBay b fun y => { y with
      spUncorr := w1c y.spUncorr v 12, boundErr := w1c y.boundErr v 11, segErr := w1c y.segErr v 10, queueOvr := w1c y.queueOvr v 9,
      flagOvr := w1c y.flagOvr v 8, staleDrop := w1c y.staleDrop v 7, cfgLocked := w1c y.cfgLocked v 6 }
  | 0x004 =>
    ((s.modBay b fun y => { y with budgetStg := some (v.extractLsb' 0 3) }).boundaryIf b).onBit v 8 fun s =>
      s.via (execBayCntClr s.now bx)
  | 0x008 => s.modBay b fun y => { y with
      inSat := w1c y.inSat v 4, accOvf := w1c y.accOvf v 3, bxInvalid := w1c y.bxInvalid v 2, reqSat := w1c y.reqSat v 1,
      resErr := w1c y.resErr v 0 }
  | 0x00C => s.writeSegCtrl b v
  | 0x010 => s.writeAlloc b v
  | 0x040 =>
    (s.modBay b fun y => { y with autoIncStg := some (v.getLsbD 24), spAddrStg := some (v.extractLsb' 0 19) }).boundaryIf b
  | 0x044 => s.via (execBaySpDataAccess s.now bx (some v))
  | 0x400 => s.modRtr b fun r => { r with
      hdrErr := w1c r.hdrErr v 23, noMatch := w1c r.noMatch v 22, fenceDrop := w1c r.fenceDrop v 21, sinkDrop := w1c r.sinkDrop v 20,
      retrySeen := w1c r.retrySeen v 19 }
  | 0x404 =>
    let s := s.modRtr b fun r => { r with retryLimit := v.extractLsb' 8 4 }
    let s := s.via (execRtrLocalCloseWrite s.now bx (v.getLsbD 0))
    (s.onBit v 2 fun s => s.via (execRtrCntClr s.now bx)).onBit v 1 fun s => s.via (execRtrHardFenceWrite s.now bx)
  | 0x410 => s.modRtr b fun r => { r with mcIndex := v.extractLsb' 16 8 }
  | _ => s

/-- A K field's write was locked out while the panel runs (02 R69, R70; 05 R174). -/
def State.lockPanel (s : State) (b p off : Nat) (v : Word) : State :=
  s.stickyPanel b p (s.panel (pkey b p)).cfgLocked (fun x => { x with cfgLocked := true }) 0x1040 1 [off, v.toNat]

/-- A write of PNL_CFG (02 R70; 05 R174): WIT_EN is locked while the bay runs. -/
def State.writePanelCfg (s : State) (b p : Nat) (v : Word) : State :=
  let x := s.panel (pkey b p)
  let s := if x.witEn = v.getLsbD 8 then s
    else if (s.bay b).seq.running then s.lockPanel b p 0x00 v
    else s.modPanel (pkey b p) fun x => { x with witEn := v.getLsbD 8 }
  (s.modPanel (pkey b p) fun x => { x with stg := { x.stg with
    tol := some (v.extractLsb' 16 8), sgnB := some (v.getLsbD 5), sgnA := some (v.getLsbD 4), wB := some (v.extractLsb' 2 2),
    wA := some (v.extractLsb' 0 2) } }).boundaryIf b

/-- A write within a panel's registers (02 R70, R71). -/
def State.writePanel (s : State) (b p off : Nat) (v : Word) : State :=
  let bx : BayIx := Fin.ofNat 1152 b
  let px : PanelIx := Fin.ofNat 32 p
  match off with
  | 0x00 => s.writePanelCfg b p v
  | 0x04 =>
    ((s.modPanel (pkey b p) fun x => { x with stg := { x.stg with
      winSel := some (v.extractLsb' 16 8), live := some (v.getLsbD 0) } }).boundaryIf b).onBit v 8 fun s =>
        s.via (execPnlCntClr s.now bx px)
  | 0x08 =>
    (s.modPanel (pkey b p) fun x => { x with
      wrHeld := w1c x.wrHeld v 11, cfgLocked := w1c x.cfgLocked v 9, opErr := w1c x.opErr v 8, exactLost := w1c x.exactLost v 7,
      witStoreErr := w1c x.witStoreErr v 6, sat := w1c x.sat v 4 }).onBit v 5 fun s => s.via (execPnlWitMismatchClear s.now bx px)
  | 0x14 => (s.modPanel (pkey b p) fun x => { x with stg := { x.stg with exactLimit := some (v.extractLsb' 16 8) } }).boundaryIf b
  | 0x1C => s.via (execPnlWinDataClear s.now bx px v)
  | _ => s

/-- A write of a word at an offset of PF BAR0; offsets not listed ignore it (00 R8, R12). -/
def State.writeReg (s : State) (o : Nat) (v : Word) : State :=
  match placeOf o with
  | .ctl x => s.writeCtl x v
  | .keep x => s.writeKeep x v
  | .hk x => s.writeHk x v
  | .fab x => s.writeFab x v
  | .ctx k x => s.writeCtx k x v
  | .bay b x => s.writeBay b x v
  | .panel b p x => s.writePanel b p x v
  | .nowhere => s

/-- A read of a word by the host: COUNT_LO latches COUNT_HI (04 R134), and BAY_SP_DATA reads by a management access (R111). -/
def State.hostReadReg (s : State) (o : Nat) : State :=
  match placeOf o with
  | .bay b 0x020 => s.via (execBayStrokeCntRead s.now (Fin.ofNat 1152 b))
  | .bay b 0x044 => s.via (execBaySpDataAccess s.now (Fin.ofNat 1152 b) none)
  | .fab x => (if 0x100 ≤ x ∧ x % 0x40 / 8 = 2 then s.drawn else s).emit (.regRead o (s.readReg o) (s.streamOf 0))
  | _ => s.emit (.regRead o (s.readReg o) (s.streamOf 0))

/-- REGISTER_WRITE (00 R12; 05 R172–R174): PF BAR0, or a PCIe register of a function. Registers are there to be written while their
block has power. -/
def execRegisterWrite (t : Nat) (a : RegAddr) (v : Word) (s : State) : Host.Outcome State Fault Refusal :=
  let s := s.tick t
  .next (if !s.pwr.stage1Up then s
    else match a with
      | .bar0 off => s.writeReg off v
      | .busMaster fn => s.setBusMaster fn (v.getLsbD 0)
      | .numVfs => s.setNumVfs v.toNat
      | .msixMask fn vec => s.setMask fn vec (v.getLsbD 0))

end Sys2Proof.Machine
end

