-- ==== Sys2Proof/Machine/Host.lean ====
section
/-! DEFINITION. TLPs to a function's BARs and the commands every function may give: DEVICE_INFO, COUNTERS and SNAG_READ
(11 R304–R310, R315, R318, R319; 12 R337, R346–R349). -/

namespace Sys2Proof.Machine

/-! ### Writes of a command slot (11 R307, R308) -/

/-- A write to a busy slot is discarded (11 R308, R324). -/
def State.busyWrite (s : State) (fn slot off : Nat) (b : List Byte) : State :=
  let was := s.host.busyWrite
  let s := s.modHost fun h => { h with busyWrite := true, busyCnt := satAdd h.busyCnt 1 0xFFFF }
  if was then s else s.snagFn fn 0x6001 1 [slot, off, leNat (b.take 8)]

/-- A command is posted: the slot is captured as it stands (11 R307). -/
def State.post (s : State) (fn slot : Nat) : State :=
  let x := s.slot fn slot
  let c := x.capture s.host.nextCmd s.now
  let s := (s.setSlot fn slot { x with cmd := some c }).modHost fun h => { h with
    nextCmd := h.nextCmd + 1, order := h.order ++ [(fn, slot)] }
  s.takeReserved s.host.order.length

/-- A write TLP lands on bytes of a command slot (11 R304, R307, R308). A TLP never runs past its slot (log 90). -/
def State.postWrite (s : State) (fn slot off : Nat) (b : List Byte) : State :=
  if !s.endpointUp || !s.host.linkUp || !s.fnExists fn || decide (4 ≤ slot ∨ 4096 < off + b.length ∨ b = []) then s
  else
    let x := s.slot fn slot
    if x.cmd.isSome then s.busyWrite fn slot off b
    else
      let x := { x with mem := b.zipIdx.foldl (fun m e => mset 0 m (off + e.2) e.1) x.mem }
      let s := s.setSlot fn slot x
      if 4092 < off + b.length ∧ leNat (x.bytes 4092 4) ≠ x.last then s.post fn slot else s

/-- COMMAND_POST (11 R307, R308), on the function's IDE stream where one is required (log 91). -/
def execCommandPost (t fn slot off : Nat) (b : List Byte) (s : State) : Host.Outcome State Fault Refusal :=
  .next ((s.tick t).postWrite fn slot off b)

/-! ### TLPs (11 R304, R324; 12 R337) -/

/-- A completion slot's bytes (11 R306, R310): those past RESULT_LEN are undefined (R314), hence free. -/
def Compl.bytes (c : Compl) (free : Nat) : List Byte :=
  leBytes 1 c.op ++ leBytes 1 c.status ++ leBytes 2 c.result.length ++ leBytes 4 c.tag ++ leBytes 4 c.detail ++ leBytes 52 0 ++
  c.result ++ leBytes (4028 - c.result.length) free ++ leBytes 4 c.seq

/-- A read of a slot. A completion slot that no completion has reached reads zero (DESIGN CHOICE, log 92). -/
def State.readSlot (s : State) (fn : Nat) (completion : Bool) (slot off len : Nat) : State :=
  let x := s.slot fn slot
  if completion then
    match x.comp with
    | some c => s.drawn.emit (.slotRead fn slot (bytesAt (c.bytes s.freeVal) off len) (s.streamOf fn))
    | none => s.emit (.slotRead fn slot (leBytes len 0) (s.streamOf fn))
  else s.emit (.slotRead fn slot (x.bytes off len) (s.streamOf fn))

/-- Bytes of the MSI-X table land (11 R304, R321), from offset `o` of the table: an entry's address and data, then its mask bit (the entry's layout
is the MSI-X specification's: PRESUMED, log 28). -/
def State.writeMsix (s : State) (fn o : Nat) (b : List Byte) : State :=
  b.zipIdx.foldl (fun s e =>
    let k := o + e.2
    if k % 16 = 12 then s.setMask fn (k / 16) (e.1.getLsbD 0)
    else if k % 16 < 12 ∧ k / 16 < (if fn = 0 then 64 else 8) then s.modHost fun h => { h with msix := mset 0 h.msix (2048 * fn + k) e.1 }
    else s) s

/-- A byte of the MSI-X table or the pending bit array; other offsets of the window read zero (11 R304). -/
def State.msixByte (s : State) (fn off : Nat) : Byte :=
  let n := if fn = 0 then 64 else 8
  let k := off - 0x8000
  if 0x8000 ≤ off ∧ k / 16 < n then
    (if k % 16 < 12 then mget 0 s.host.msix (2048 * fn + k)
     else if k % 16 = 12 ∧ mget false s.host.unmasked (64 * fn + k / 16) = false then 1 else 0)
  else if 0x9000 ≤ off ∧ off < 0x9000 + n / 8 then
    BitVec.ofNat 8 (((List.range 8).map fun i =>
      if mget false s.host.msixPend (64 * fn + 8 * (off - 0x9000) + i) then 2 ^ i else 0).sum)
  else 0

/-- A write in the window of PF BAR2 or a VF's BAR0 (11 R304): a command slot, or the MSI-X table. Completion slots are read-only (R310), and offsets
not listed ignore writes. -/
def State.winWrite (s : State) (fn off : Nat) (b : List Byte) : State :=
  if off < 0x4000 then s.postWrite fn (off / 0x1000) (off % 0x1000) b
  else if 0x8000 ≤ off ∧ off < 0x9000 then s.writeMsix fn (off - 0x8000) b
  else s

/-- A read in that window (11 R304). -/
def State.winRead (s : State) (fn off len : Nat) : State :=
  if off < 0x8000 then s.readSlot fn (decide (0x4000 ≤ off)) (off / 0x1000 % 4) (off % 0x1000) len
  else s.emit (.winRead fn off ((List.range len).map fun i => s.msixByte fn (off + i)) (s.streamOf fn))

/-- The class code (11 R301): base class, subclass and programming interface. -/
def classCode : Nat := 0x120000

/-- A read of configuration space (11 R301): the double word with the class code; the rest is the PCIe specification's and each implementation's,
and free (log 28). -/
def State.cfgRead (s : State) (fn dw : Nat) : State :=
  s.drawn.emit (.cfgRead fn dw (BitVec.ofNat 32 (if dw = 2 then classCode * 256 + s.freeVal % 256 else s.freeVal)))

/-- A non-posted request. -/
def Tlp.nonPosted : Tlp → Bool
  | .regRead _ | .slotRead .. | .winRead .. | .cfgRead _ => true
  | _ => false

/-- A configuration request is not addressed to a BAR. -/
def Tlp.config : Tlp → Bool
  | .cfgRead _ => true
  | _ => false

/-- The TLP lies outside the stream its function requires (12 R337). -/
def State.outsideStream (s : State) (fn : Nat) (onStream : Bool) : Bool :=
  !onStream && match s.hostSession fn with | some x => x.require && x.active | none => false

/-- A TLP outside its stream is dropped (12 R337, R353): its header double words are free values. -/
def State.dropTlp (s : State) (fn : Nat) (x : Tlp) : State :=
  let was := s.keep.ideDrop
  let s := s.modKeep fun k => { k with ideDrop := true, drops := satAdd k.drops 1 0xFFFF }
  let s := if was then s else
    let (s, h) := s.random 64
    s.snagFn fn 0x7040 1 [fn, h % 2 ^ 32, h / 2 ^ 32]
  if Tlp.nonPosted x then s.emit (.unsupported fn) else s

/-- A malformed or unsupported TLP (11 R324). -/
def State.badTlp (s : State) (fn aerBit : Nat) (dw0 dw1 : Word) : State :=
  let was := s.host.tlpErr
  let s := s.modHost fun h => { h with tlpErr := true }
  if was then s else s.snagFn fn 0x6040 1 [aerBit, dw0.toNat, dw1.toNat]

/-- TLP_RECEIVE (11 R304, R307, R324; 12 R337). -/
def execTlpReceive (t fn : Nat) (onStream : Bool) (x : Tlp) (s : State) : Host.Outcome State Fault Refusal :=
  let s := s.tick t
  .next (if !s.endpointUp || !s.host.linkUp || !s.fnExists fn then s
    else if !Tlp.config x && s.outsideStream fn onStream then s.dropTlp fn x
    else match x with
      | .slotWrite slot off b => s.postWrite fn slot off b
      | .regWrite off v => if fn = 0 then s.writeReg off v else s
      | .regRead off => if fn = 0 then s.hostReadReg off else s.emit (.regRead off 0 (s.streamOf fn))
      | .slotRead completion slot off len => s.readSlot fn completion slot off len
      | .winWrite off b => s.winWrite fn off b
      | .winRead off len => s.winRead fn off len
      | .cfgRead dw => s.cfgRead fn dw
      | .malformed aerBit dw0 dw1 => s.badTlp fn aerBit dw0 dw1)

/-! ### DEVICE_INFO (11 R315) -/

/-- The pace table as DEVICE_INFO returns it. -/
def paceBytes (p : Stepping) : List Byte := (paceTable p).flatMap fun e => leBytes 2 e.1 ++ leBytes 2 0 ++ leBytes 4 e.2

/-- The 64 bytes of DEVICE_INFO. -/
def State.infoBytes (s : State) (fn : Nat) : List Byte :=
  leBytes 1 s.mode.num ++ leBytes 1 (if s.part = .b0 then 1 else 0) ++ leBytes 1 s.gen.toNat ++ leBytes 1 (if s.expert fn then 1 else 0) ++
  leBytes 2 s.shownAddr ++ leBytes 2 fn ++ leBytes 8 s.boot.runVer ++ leBytes 2 s.openBays ++ leBytes 1 s.ctxBits ++ leBytes 1 0 ++
  ((List.range 16).flatMap fun p => leBytes 2 (s.readFab (0x100 + 0x40 * p) % 2 ^ 12)) ++ leBytes 12 0

/-- DEVICE_INFO (11 R315). -/
def execDeviceInfo (t fn slot : Nat) (s : State) : Host.Outcome State Fault Refusal :=
  .next ((s.tick t).runCmd fn slot 0x01 (fun _ => true) { states := modesManagement, expert := true } (fun c => c.onlyArgs [])
    fun s c => .comp s stOk 0 (s.infoBytes fn ++ if c.expert then paceBytes s.part else []))

/-! ### COUNTERS (11 R318; 12 R346, R347) -/

/-- A counter record: source die and unit, block, register offset and word. -/
structure CntRec where
  die : Nat
  unit : Nat
  block : Nat
  off : Nat
  val : Nat
  deriving DecidableEq, Repr

/-- A record's 16 bytes; `addr` is the module address. -/
def CntRec.bytes (addr : Nat) (r : CntRec) : List Byte :=
  leBytes 4 (addr * 2 ^ 16 + r.die * 2 ^ 11 + r.unit) ++ leBytes 4 (r.block * 2 ^ 24 + r.off) ++ leBytes 8 r.val

/-- One count field of `n` bits from bit `lo`, rounded down to a multiple of 1,024 (12 R346). -/
def roundField (v lo n : Nat) : Nat := (v / 2 ^ lo % 2 ^ n - v / 2 ^ lo % 2 ^ n % 1024) * 2 ^ lo

/-- How a register's count fields are coarsened for a VF: none, one of 32 bits, two of 16 bits, or narrower than 11 bits. -/
inductive CntKind where
  | plain | one | two | narrow
  deriving DecidableEq, Repr

/-- A word as a function sees it. -/
def CntKind.show (k : CntKind) (vf : Bool) (v : Nat) : Nat :=
  if vf then
    match k with
    | .plain => v
    | .one => roundField v 0 32
    | .two => roundField v 16 16 + roundField v 0 16
    | .narrow => 0
  else v

/-- Registers COUNTERS returns of a bay (04 R136; 06 R200). -/
def bayCounters : List (Nat × CntKind) :=
  [(0x000, .plain), (0x008, .plain), (0x020, .one), (0x024, .one), (0x028, .one), (0x02C, .one), (0x030, .two), (0x034, .two),
   (0x038, .two), (0x408, .two), (0x40C, .narrow)]

/-- Registers of a panel, by offset within the panel (02 R70). -/
def panelCounters : List (Nat × CntKind) := [(0x08, .plain), (0x0C, .one), (0x10, .two)]

/-- Records of a bay, its panels among them. COUNT_HI comes as a read of the low word would latch it (DEDUCED, log 76). -/
def State.bayRecs (s : State) (vf : Bool) (b : Nat) : List CntRec :=
  (bayCounters.map fun e =>
    { die := dieOf b, unit := bayOf b, block := 2, off := e.1,
      val := e.2.show vf (if e.1 = 0x024 then (s.bay b).strokeCnt / 2 ^ 32 % 2 ^ 32 else s.readBay b e.1) }) ++
  (List.range 32).flatMap fun p => panelCounters.map fun e =>
    { die := dieOf b, unit := bayOf b, block := 1, off := 0x800 + 0x20 * p + e.1, val := e.2.show vf (s.readPanel (pkey b p) e.1) }

/-- Records of Context die `k` (07 R233). -/
def State.ctxRecs (s : State) (vf : Bool) (k : Nat) : List CntRec :=
  [(0x30, CntKind.one), (0x34, .two), (0x38, .one), (0x3C, .one)].map fun e =>
    { die := 17 + k, unit := 0x7FF, block := 3, off := e.1, val := e.2.show vf (s.readCtx k e.1) }

/-- Records of the Fabric die and its ports (10 R300). -/
def State.fabRecs (s : State) (vf : Bool) : List CntRec :=
  { die := 16, unit := 0x7FF, block := 4, off := 0x0C, val := CntKind.two.show vf (s.readFab 0x0C) } ::
  (List.range 16).flatMap fun p => [0x108 + 0x40 * p, 0x10C + 0x40 * p].map fun o =>
    { die := 16, unit := p, block := 4, off := o, val := CntKind.two.show vf (s.readFab o) }

/-- The state at the last 10 ms boundary, so far as unit registers show it (12 R346). -/
def State.snapshot (s : State) : State :=
  { s with panels := s.snap.panels, bays := s.snap.bays, rtrs := s.snap.rtrs, ctx0 := s.snap.ctx0, ctx1 := s.snap.ctx1,
           fab := s.snap.fab, resil := s.snap.resil, sense := s.snap.sense }

/-- The leaves that hold bays of plans open to a function (12 R347). -/
def State.leavesSeen (s : State) (fn : Nat) : List Nat :=
  (s.plans.flatMap fun p => if p.openTo fn then p.bays.map fun e => leafOf e.bay else []).dedup

/-- A mean power in W from the sum of 100 windows of `1/unit` W, rounded down to 64 W for a VF (12 R347; log 76). -/
def powerShown (fn sum unit : Nat) : Nat :=
  let w := sum / (100 * unit)
  if fn = 0 then w else w - w % 64

/-- A function's own counters (11 R318; 12 R347). -/
def State.fnRecs (s : State) (fn : Nat) : List CntRec :=
  let r (off val : Nat) : CntRec := { die := 19, unit := fn, block := 5, off := off, val := val }
  let leaf := (s.leavesSeen fn).foldl (fun n l => n + mget 0 s.snap.meanLeaf l) 0
  [r 0x000 (mget 0 s.host.cnts (4096 * fn)), r 0x001 (s.pendingOf fn), r 0x002 (s.placedOf fn),
   r 0x010 (powerShown fn s.snap.meanIn 8), r 0x011 (powerShown fn leaf 100)] ++
  (s.host.cnts.filter fun e => e.1 / 4096 == fn && decide (0x100 ≤ e.1 % 4096)).map fun e => r (e.1 % 4096) e.2

/-- The records of a scope; none where the scope names nothing the caller may see. -/
def State.cntRecs (s : State) (fn : Nat) (c : Cmd) : Option (List CntRec) :=
  let vf := fn != 0
  let u := if vf then s.snapshot else s
  match c.arg 0 1 with
  | 0 => some (s.fnRecs fn)
  | 1 =>
    match s.plan (c.arg 8 8) with
    | some p =>
      some ((((p.bays.map fun e => e.bay).dedup.filter (s.bayVisible fn)).mergeSort fun a b => decide (a ≤ b)).flatMap (u.bayRecs vf))
    | none => none
  | 2 =>
    if c.expert then
      some (((List.range 1152).filter (s.bayVisible fn)).flatMap (u.bayRecs vf) ++ u.fabRecs vf ++ u.ctxRecs vf 0 ++ u.ctxRecs vf 1)
    else none
  | _ => none

/-- The result of COUNTERS from record `cursor` on. -/
def State.cntResult (s : State) (fn scope cursor : Nat) (l : List CntRec) : List Byte :=
  let part := (l.drop cursor).take 250
  let next := if cursor + part.length < l.length then cursor + part.length else 0
  leBytes 4 next ++ leBytes 2 part.length ++ leBytes 2 0 ++ leBytes 8 (if fn = 0 ∨ scope = 0 then s.mtime else s.snap.time) ++
  part.flatMap (CntRec.bytes s.moduleAddr)

/-- COUNTERS (11 R318). SCOPE 2 without EXPERT is out of its range (DEDUCED, log 76). -/
def execCounters (t fn slot : Nat) (s : State) : Host.Outcome State Fault Refusal :=
  .next ((s.tick t).runCmd fn slot 0x50 (fun _ => true) { states := modesManagement, expert := true }
    (fun c => c.onlyArgs [(0, 1), (8, 8), (16, 4)]) fun s c =>
      match s.cntRecs fn c with
      | some l => .comp s stOk 0 (s.cntResult fn (c.arg 0 1) (c.arg 16 4) l)
      | none => .comp s stBadArg 0 [])

/-- TENANT_SNAPSHOT_WINDOW (12 R346): a 10 ms window of module time has ended. -/
def execTenantSnapshotWindow (t : Nat) (s : State) : Host.Outcome State Fault Refusal :=
  let s := s.tick t
  let edge := s.mtime / 10000000 * 10000000
  .next (if s.mode != .off && decide (s.snap.time < edge) then
      { s with snap := { s.snap with
          time := edge, panels := s.panels, bays := s.bays, rtrs := s.rtrs, ctx0 := s.ctx0.stopped s.now, ctx1 := s.ctx1.stopped s.now, fab := s.fab,
          resil := s.resil, sense := s.sense } }
    else s)

/-! ### SNAG_READ (11 R319) -/

/-- SNAG_READ: MAX outside 1–62 is out of its range. -/
def execSnagRead (t fn slot : Nat) (s : State) : Host.Outcome State Fault Refusal :=
  .next ((s.tick t).runCmd fn slot 0x51 (fun _ => true) { states := modesManagement, expert := true } (fun c => c.onlyArgs [(0, 10)])
    fun s c =>
      if c.arg 8 2 = 0 ∨ 62 < c.arg 8 2 then .comp s stBadArg 0 []
      else
        let r := s.readSnags fn (c.arg 0 8) (c.arg 8 2)
        .comp s stOk 0 (leBytes 8 r.1 ++ leBytes 4 r.2.1 ++ leBytes 2 r.2.2.length ++ leBytes 2 0 ++ r.2.2.flatMap Snag.bytes))

end Sys2Proof.Machine
end

