-- ==== Sys2Proof/Machine/Dispatch.lean ====
section
/-! DEFINITION. Every command's meaning: one arm per constructor of `Instr`. -/

namespace Sys2Proof.Machine

-- One arm per row of spec/opcode_table.json, in the table's order of chapters.
def exec (i : Instr) (s : State) : Host.Outcome State Fault Refusal :=
  match i with
  | .inputPowerOn t => Sys2Proof.Machine.execInputPowerOn t s
  | .inputPowerLoss t => Sys2Proof.Machine.execInputPowerLoss t s
  | .supplyWarningAssert t mv => Sys2Proof.Machine.execSupplyWarningAssert t mv s
  | .supplyWarningRelease t mv => Sys2Proof.Machine.execSupplyWarningRelease t mv s
  | .sagHoldExpiry t => Sys2Proof.Machine.execSagHoldExpiry t s
  | .resetThreshold t => Sys2Proof.Machine.execResetThreshold t s
  | .resetThresholdRelease t => Sys2Proof.Machine.execResetThresholdRelease t s
  | .overvoltageCut t => Sys2Proof.Machine.execOvervoltageCut t s
  | .overvoltageRelease t => Sys2Proof.Machine.execOvervoltageRelease t s
  | .overcurrentCut t => Sys2Proof.Machine.execOvercurrentCut t s
  | .modRstNAssert t => Sys2Proof.Machine.execModRstNAssert t s
  | .modRstNRelease t => Sys2Proof.Machine.execModRstNRelease t s
  | .stage1InRegulation t => Sys2Proof.Machine.execStage1InRegulation t s
  | .stage2InRegulation t => Sys2Proof.Machine.execStage2InRegulation t s
  | .stage3GroupInRegulation t => Sys2Proof.Machine.execStage3GroupInRegulation t s
  | .railFault t rail mv => Sys2Proof.Machine.execRailFault t rail mv s
  | .railRampTimeout t rail mv => Sys2Proof.Machine.execRailRampTimeout t rail mv s
  | .vauxFault t => Sys2Proof.Machine.execVauxFault t s
  | .thermalTrip t die => Sys2Proof.Machine.execThermalTrip t die s
  | .sagThrottleWrite t v => Sys2Proof.Machine.execSagThrottleWrite t v s
  | .ctlPwrLeafVsetWrite t n v => Sys2Proof.Machine.execCtlPwrLeafVsetWrite t n v s
  | .vsetCommit t => Sys2Proof.Machine.execVsetCommit t s
  | .vsetRampDone t => Sys2Proof.Machine.execVsetRampDone t s
  | .getTid t => Sys2Proof.Machine.execGetTid t s
  | .getPldmVersion t ty => Sys2Proof.Machine.execGetPldmVersion t ty s
  | .getPldmTypes t => Sys2Proof.Machine.execGetPldmTypes t s
  | .getPldmCommands t ty => Sys2Proof.Machine.execGetPldmCommands t ty s
  | .pldmFirmwareUpdate t bankB img => Sys2Proof.Machine.execPldmFirmwareUpdate t bankB img s
  | .setCoords t rec => Sys2Proof.Machine.execSetCoords t rec s
  | .getCoords t => Sys2Proof.Machine.execGetCoords t s
  | .getPowerStatus t => Sys2Proof.Machine.execGetPowerStatus t s
  | .sidebandSnagRead t cursor max => Sys2Proof.Machine.execSidebandSnagRead t cursor max s
  | .getPrimerStatus t => Sys2Proof.Machine.execGetPrimerStatus t s
  | .pldmUnsupportedCommand t ty code => Sys2Proof.Machine.execPldmUnsupportedCommand t ty code s
  | .primerVerifyDone t mv st => Sys2Proof.Machine.execPrimerVerifyDone t mv st s
  | .configReadDone t digestOk => Sys2Proof.Machine.execConfigReadDone t digestOk s
  | .d2dLinkTrainingDone t b port ok => Sys2Proof.Machine.execD2dLinkTrainingDone t b port ok s
  | .hbmStackTrainingDone t stack ok => Sys2Proof.Machine.execHbmStackTrainingDone t stack ok s
  | .startupCalibrationDone t res exc lad => Sys2Proof.Machine.execStartupCalibrationDone t res exc lad s
  | .readyEntry t => Sys2Proof.Machine.execReadyEntry t s
  | .panelOpStart t b p => Sys2Proof.Machine.execPanelOpStart t b p s
  | .computeOpComplete t b p devs rf => Sys2Proof.Machine.execComputeOpComplete t b p devs rf s
  | .skimComplete t b p res => Sys2Proof.Machine.execSkimComplete t b p res s
  | .rowAccessStart t b p => Sys2Proof.Machine.execRowAccessStart t b p s
  | .rowWriteCommit t b p => Sys2Proof.Machine.execRowWriteCommit t b p s
  | .rowReadComplete t b p flips => Sys2Proof.Machine.execRowReadComplete t b p flips s
  | .pnlCntClr t b p => Sys2Proof.Machine.execPnlCntClr t b p s
  | .pnlWitMismatchClear t b p => Sys2Proof.Machine.execPnlWitMismatchClear t b p s
  | .pnlWinDataClear t b p v => Sys2Proof.Machine.execPnlWinDataClear t b p v s
  | .pnlLiveWrite t b p live => Sys2Proof.Machine.execPnlLiveWrite t b p live s
  | .strokeStart t b ups => Sys2Proof.Machine.execStrokeStart t b ups s
  | .scratchpadAccessesComplete t b => Sys2Proof.Machine.execScratchpadAccessesComplete t b s
  | .segmentWakeDone t b seg => Sys2Proof.Machine.execSegmentWakeDone t b seg s
  | .segmentSleep t b seg => Sys2Proof.Machine.execSegmentSleep t b seg s
  | .drainComplete t b rf => Sys2Proof.Machine.execDrainComplete t b rf s
  | .add t b rf => Sys2Proof.Machine.execAdd t b rf s
  | .sub t b rf => Sys2Proof.Machine.execSub t b rf s
  | .mul t b rf => Sys2Proof.Machine.execMul t b rf s
  | .fma t b rf => Sys2Proof.Machine.execFma t b rf s
  | .max t b => Sys2Proof.Machine.execMax t b s
  | .min t b => Sys2Proof.Machine.execMin t b s
  | .requant t b rf => Sys2Proof.Machine.execRequant t b rf s
  | .cvt t b => Sys2Proof.Machine.execCvt t b s
  | .relu t b => Sys2Proof.Machine.execRelu t b s
  | .exp t b => Sys2Proof.Machine.execExp t b s
  | .recip t b => Sys2Proof.Machine.execRecip t b s
  | .rsqrt t b => Sys2Proof.Machine.execRsqrt t b s
  | .gelu t b => Sys2Proof.Machine.execGelu t b s
  | .silu t b => Sys2Proof.Machine.execSilu t b s
  | .rsum t b rf => Sys2Proof.Machine.execRsum t b rf s
  | .rmax t b => Sys2Proof.Machine.execRmax t b s
  | .rsumsq t b rf => Sys2Proof.Machine.execRsumsq t b rf s
  | .mmLoadb t b => Sys2Proof.Machine.execMmLoadb t b s
  | .mmMul t b rf => Sys2Proof.Machine.execMmMul t b rf s
  | .mmDrain t b rf => Sys2Proof.Machine.execMmDrain t b rf s
  | .send t b k => Sys2Proof.Machine.execSend t b k s
  | .recv t b k => Sys2Proof.Machine.execRecv t b k s
  | .push t b k => Sys2Proof.Machine.execPush t b k s
  | .pop t b k ups => Sys2Proof.Machine.execPop t b k ups s
  | .copy t b k => Sys2Proof.Machine.execCopy t b k s
  | .flagsend t b k => Sys2Proof.Machine.execFlagsend t b k s
  | .faultWindowClose t b => Sys2Proof.Machine.execFaultWindowClose t b s
  | .mgmtAccessServe t b => Sys2Proof.Machine.execMgmtAccessServe t b s
  | .baySpDataAccess t b wr => Sys2Proof.Machine.execBaySpDataAccess t b wr s
  | .bayCntClr t b => Sys2Proof.Machine.execBayCntClr t b s
  | .bayFlagsWrite t b n v => Sys2Proof.Machine.execBayFlagsWrite t b n v s
  | .baySegCtrlWrite t b v => Sys2Proof.Machine.execBaySegCtrlWrite t b v s
  | .bayAllocInvalidate t b => Sys2Proof.Machine.execBayAllocInvalidate t b s
  | .bayStrokeCntRead t b => Sys2Proof.Machine.execBayStrokeCntRead t b s
  | .flagSetMessage t src b m => Sys2Proof.Machine.execFlagSetMessage t src b m s
  | .stepRelease t src b gen prog slots => Sys2Proof.Machine.execStepRelease t src b gen prog slots s
  | .swapArm t src b gen ents => Sys2Proof.Machine.execSwapArm t src b gen ents s
  | .swapFlip t src b gen layer => Sys2Proof.Machine.execSwapFlip t src b gen layer s
  | .auditArm t src b gen stroke => Sys2Proof.Machine.execAuditArm t src b gen stroke s
  | .mgmtQueuePush t src b m => Sys2Proof.Machine.execMgmtQueuePush t src b m s
  | .scratchpadWriteMessage t src b ms => Sys2Proof.Machine.execScratchpadWriteMessage t src b ms s
  | .scratchpadReadMessage t src b m => Sys2Proof.Machine.execScratchpadReadMessage t src b m s
  | .weightRow t src b ms => Sys2Proof.Machine.execWeightRow t src b ms s
  | .rowReadback t src b m => Sys2Proof.Machine.execRowReadback t src b m s
  | .dataLineAccept t src b m => Sys2Proof.Machine.execDataLineAccept t src b m s
  | .lineForward t b out => Sys2Proof.Machine.execLineForward t b out s
  | .linkCrcFail t b port => Sys2Proof.Machine.execLinkCrcFail t b port s
  | .rtrHardFenceWrite t b => Sys2Proof.Machine.execRtrHardFenceWrite t b s
  | .rtrLocalCloseWrite t b v => Sys2Proof.Machine.execRtrLocalCloseWrite t b v s
  | .rtrCntClr t b => Sys2Proof.Machine.execRtrCntClr t b s
  | .contextRequestArrival t k link ms => Sys2Proof.Machine.execContextRequestArrival t k link ms s
  | .attend t k e iss ups => Sys2Proof.Machine.execAttend t k e iss ups s
  | .append t k e iss ups => Sys2Proof.Machine.execAppend t k e iss ups s
  | .commitSet t k => Sys2Proof.Machine.execCommitSet t k s
  | .kvRead t k iss ups => Sys2Proof.Machine.execKvRead t k iss ups s
  | .kvWrite t k iss ups => Sys2Proof.Machine.execKvWrite t k iss ups s
  | .spillRead t k iss ups => Sys2Proof.Machine.execSpillRead t k iss ups s
  | .spillWrite t k iss => Sys2Proof.Machine.execSpillWrite t k iss s
  | .fwRead t k iss ups => Sys2Proof.Machine.execFwRead t k iss ups s
  | .fwWrite t k iss => Sys2Proof.Machine.execFwWrite t k iss s
  | .pageZero t k iss => Sys2Proof.Machine.execPageZero t k iss s
  | .pageCopy t k iss ups => Sys2Proof.Machine.execPageCopy t k iss ups s
  | .refreshDue t k stack ch => Sys2Proof.Machine.execRefreshDue t k stack ch s
  | .forcedRefresh t k stack ch => Sys2Proof.Machine.execForcedRefresh t k stack ch s
  | .arbStarve t k stack ch req level => Sys2Proof.Machine.execArbStarve t k stack ch req level s
  | .ctxPoolPush t k v => Sys2Proof.Machine.execCtxPoolPush t k v s
  | .ctxCntClr t k => Sys2Proof.Machine.execCtxCntClr t k s
  | .ctxStarveCapClear t k => Sys2Proof.Machine.execCtxStarveCapClear t k s
  | .submit t fn slot dma => Sys2Proof.Machine.execSubmit t fn slot dma s
  | .cancel t fn slot => Sys2Proof.Machine.execCancel t fn slot s
  | .prefixKeep t fn slot => Sys2Proof.Machine.execPrefixKeep t fn slot s
  | .prefixDrop t fn slot => Sys2Proof.Machine.execPrefixDrop t fn slot s
  | .stepDoneNotice t b gen => Sys2Proof.Machine.execStepDoneNotice t b gen s
  | .resultMessage t ms => Sys2Proof.Machine.execResultMessage t ms s
  | .schedulingPoint t plan => Sys2Proof.Machine.execSchedulingPoint t plan s
  | .deadlineExpiry t fn id => Sys2Proof.Machine.execDeadlineExpiry t fn id s
  | .weightsInstallNonce t fn slot => Sys2Proof.Machine.execWeightsInstallNonce t fn slot s
  | .installNonceExpiry t => Sys2Proof.Machine.execInstallNonceExpiry t s
  | .weightsInstallWrite t fn slot auth img => Sys2Proof.Machine.execWeightsInstallWrite t fn slot auth img s
  | .weightsInstallErase t fn slot auth => Sys2Proof.Machine.execWeightsInstallErase t fn slot auth s
  | .weightsSelect t fn slot => Sys2Proof.Machine.execWeightsSelect t fn slot s
  | .panelDoneNotice t b p gen => Sys2Proof.Machine.execPanelDoneNotice t b p gen s
  | .weightsDigest t fn slot => Sys2Proof.Machine.execWeightsDigest t fn slot s
  | .storeReadError t dev block op => Sys2Proof.Machine.execStoreReadError t dev block op s
  | .storeDeviceFail t dev => Sys2Proof.Machine.execStoreDeviceFail t dev s
  | .portTrainingDone t p lanes plane rack down => Sys2Proof.Machine.execPortTrainingDone t p lanes plane rack down s
  | .linkIdFlit t p plane rack down => Sys2Proof.Machine.execLinkIdFlit t p plane rack down s
  | .widthFlit t p w => Sys2Proof.Machine.execWidthFlit t p w s
  | .nakFlit t p reason seq vc ack => Sys2Proof.Machine.execNakFlit t p reason seq vc ack s
  | .idleFlit t p f => Sys2Proof.Machine.execIdleFlit t p f s
  | .dataFlit t p f => Sys2Proof.Machine.execDataFlit t p f s
  | .mgmtFlit t p f => Sys2Proof.Machine.execMgmtFlit t p f s
  | .fabricReplayTimeout t p => Sys2Proof.Machine.execFabricReplayTimeout t p s
  | .portAutoRetrain t p => Sys2Proof.Machine.execPortAutoRetrain t p s
  | .laneBad t p lane uncorr ratio => Sys2Proof.Machine.execLaneBad t p lane uncorr ratio s
  | .widthChangeDone t p => Sys2Proof.Machine.execWidthChangeDone t p s
  | .controlFlitRepeat t p => Sys2Proof.Machine.execControlFlitRepeat t p s
  | .fabricEgressMessage t link ms => Sys2Proof.Machine.execFabricEgressMessage t link ms s
  | .genNotice t src plan st gen auth => Sys2Proof.Machine.execGenNotice t src plan st gen auth s
  | .genNoticeTimer t => Sys2Proof.Machine.execGenNoticeTimer t s
  | .stepOrder t src plan stepNo prog swap rerun slots recs => Sys2Proof.Machine.execStepOrder t src plan stepNo prog swap rerun slots recs s
  | .stepReport t src plan stepNo done late resident measured => Sys2Proof.Machine.execStepReport t src plan stepNo done late resident measured s
  | .stepAbort t src plan stepNo => Sys2Proof.Machine.execStepAbort t src plan stepNo s
  | .peerTimeoutExpiry t plan peer => Sys2Proof.Machine.execPeerTimeoutExpiry t plan peer s
  | .keyRequest t m => Sys2Proof.Machine.execKeyRequest t m s
  | .keyGrant t m => Sys2Proof.Machine.execKeyGrant t m s
  | .keyAck t session sender auth => Sys2Proof.Machine.execKeyAck t session sender auth s
  | .keyRequestResend t session => Sys2Proof.Machine.execKeyRequestResend t session s
  | .sessionSetupTimeout t session => Sys2Proof.Machine.execSessionSetupTimeout t session s
  | .fabPortRelease t p => Sys2Proof.Machine.execFabPortRelease t p s
  | .fabPortRetrain t p => Sys2Proof.Machine.execFabPortRetrain t p s
  | .fabPortCntClr t p => Sys2Proof.Machine.execFabPortCntClr t p s
  | .fabCntClr t => Sys2Proof.Machine.execFabCntClr t s
  | .endpointReset t linkLoss => Sys2Proof.Machine.execEndpointReset t linkLoss s
  | .functionLevelReset t fn => Sys2Proof.Machine.execFunctionLevelReset t fn s
  | .d3hotEntry t fn => Sys2Proof.Machine.execD3hotEntry t fn s
  | .vfDisable t => Sys2Proof.Machine.execVfDisable t s
  | .commandPost t fn slot off b => Sys2Proof.Machine.execCommandPost t fn slot off b s
  | .tlpReceive t fn onStream x => Sys2Proof.Machine.execTlpReceive t fn onStream x s
  | .ideKSetGo t fn => Sys2Proof.Machine.execIdeKSetGo t fn s
  | .ideKSetStop t fn => Sys2Proof.Machine.execIdeKSetStop t fn s
  | .ideKeyProg t => Sys2Proof.Machine.execIdeKeyProg t s
  | .deviceInfo t fn slot => Sys2Proof.Machine.execDeviceInfo t fn slot s
  | .configLoad t fn slot dma => Sys2Proof.Machine.execConfigLoad t fn slot dma s
  | .configCommit t fn slot => Sys2Proof.Machine.execConfigCommit t fn slot s
  | .planLoad t fn slot dma => Sys2Proof.Machine.execPlanLoad t fn slot dma s
  | .planUnload t fn slot => Sys2Proof.Machine.execPlanUnload t fn slot s
  | .planStart t fn slot => Sys2Proof.Machine.execPlanStart t fn slot s
  | .planStop t fn slot => Sys2Proof.Machine.execPlanStop t fn slot s
  | .sessionOpenHost t fn slot => Sys2Proof.Machine.execSessionOpenHost t fn slot s
  | .sessionOpenLeader t fn slot => Sys2Proof.Machine.execSessionOpenLeader t fn slot s
  | .sessionOpenFollower t fn slot => Sys2Proof.Machine.execSessionOpenFollower t fn slot s
  | .sessionCloseHost t fn slot => Sys2Proof.Machine.execSessionCloseHost t fn slot s
  | .sessionCloseFabric t fn slot => Sys2Proof.Machine.execSessionCloseFabric t fn slot s
  | .counters t fn slot => Sys2Proof.Machine.execCounters t fn slot s
  | .snagRead t fn slot => Sys2Proof.Machine.execSnagRead t fn slot s
  | .attest t fn slot => Sys2Proof.Machine.execAttest t fn slot s
  | .attestCert t fn slot => Sys2Proof.Machine.execAttestCert t fn slot s
  | .fence t fn slot => Sys2Proof.Machine.execFence t fn slot s
  | .fenceRouter t fn slot => Sys2Proof.Machine.execFenceRouter t fn slot s
  | .unfence t fn slot => Sys2Proof.Machine.execUnfence t fn slot s
  | .resetCompute t fn slot => Sys2Proof.Machine.execResetCompute t fn slot s
  | .expertEnable t fn slot => Sys2Proof.Machine.execExpertEnable t fn slot s
  | .mbCntClr t => Sys2Proof.Machine.execMbCntClr t s
  | .keepCntClr t => Sys2Proof.Machine.execKeepCntClr t s
  | .entropyHealthFail t test => Sys2Proof.Machine.execEntropyHealthFail t test s
  | .entropyRetest t ok => Sys2Proof.Machine.execEntropyRetest t ok s
  | .drbgReseed t => Sys2Proof.Machine.execDrbgReseed t s
  | .faultNotice t b gen kinds panels cnt => Sys2Proof.Machine.execFaultNotice t b gen kinds panels cnt s
  | .auditSignature t b gen stroke crc => Sys2Proof.Machine.execAuditSignature t b gen stroke crc s
  | .auditSignatureTimeout t plan => Sys2Proof.Machine.execAuditSignatureTimeout t plan s
  | .hangSample t => Sys2Proof.Machine.execHangSample t s
  | .coreWatchdogExpiry t core => Sys2Proof.Machine.execCoreWatchdogExpiry t core s
  | .quiesceDone t => Sys2Proof.Machine.execQuiesceDone t s
  | .computeResetDone t skims => Sys2Proof.Machine.execComputeResetDone t skims s
  | .weightRedigestDone t bad => Sys2Proof.Machine.execWeightRedigestDone t bad s
  | .hbmRetrainDone t failed => Sys2Proof.Machine.execHbmRetrainDone t failed s
  | .fabricRetrainDone t => Sys2Proof.Machine.execFabricRetrainDone t s
  | .resumeDone t => Sys2Proof.Machine.execResumeDone t s
  | .recoveryTimeout t => Sys2Proof.Machine.execRecoveryTimeout t s
  | .adcConversion t ch code ovr merged => Sys2Proof.Machine.execAdcConversion t ch code ovr merged s
  | .adcCalPeriod t => Sys2Proof.Machine.execAdcCalPeriod t s
  | .hkSelfCal t => Sys2Proof.Machine.execHkSelfCal t s
  | .adcSelfCalDone t offset gain refMv bgMv => Sys2Proof.Machine.execAdcSelfCalDone t offset gain refMv bgMv s
  | .ladderTrimTick t => Sys2Proof.Machine.execLadderTrimTick t s
  | .ladderStepApply t die => Sys2Proof.Machine.execLadderStepApply t die s
  | .sensorReading t n v merged => Sys2Proof.Machine.execSensorReading t n v merged s
  | .sensorSilent t n => Sys2Proof.Machine.execSensorSilent t n s
  | .skipHoldEnd t b => Sys2Proof.Machine.execSkipHoldEnd t b s
  | .powerWindow t leaves => Sys2Proof.Machine.execPowerWindow t leaves s
  | .tenantSnapshotWindow t => Sys2Proof.Machine.execTenantSnapshotWindow t s
  | .manualDivWrite t leaf v => Sys2Proof.Machine.execManualDivWrite t leaf v s
  | .hkXingCntClr t => Sys2Proof.Machine.execHkXingCntClr t s
  | .registerWrite t a v => Sys2Proof.Machine.execRegisterWrite t a v s
  | .pcieLinkUp t speed => Sys2Proof.Machine.execPcieLinkUp t speed s
  | .mctpControlMessage t code => Sys2Proof.Machine.execMctpControlMessage t code s
  | .planStartPeerTimeout t plan => Sys2Proof.Machine.execPlanStartPeerTimeout t plan s
  | .doeSpdmRequest t code => Sys2Proof.Machine.execDoeSpdmRequest t code s
  | .msixVectorUnmask t fn vec => Sys2Proof.Machine.execMsixVectorUnmask t fn vec s

end Sys2Proof.Machine
end

