-- ==== Sys2Proof/Machine/Field.lean ====
section
/-! DEFINITION. The parts of the state by name, to say which of them a command may change; and which module state may follow which. -/

namespace Sys2Proof.Machine

/-- A part of the state: one constructor per field of `State`. -/
inductive Field where
  | part | epoch | now | leftOff | free | mode | gen | pwr | boot | flash | nvm | store | sense | panels | bays
  | rtrs | edgeQ | ctx0 | ctx1 | pages | prefixes | plans | reqs | weights | fab | host | keep | snap | resil |
  intr | snags | snagNext | out | pending
  deriving DecidableEq, Repr

/-- The part is the same in both states. -/
def Field.same (f : Field) (s t : State) : Prop :=
  match f with
  | .part => t.part = s.part
  | .epoch => t.epoch = s.epoch
  | .now => t.now = s.now
  | .leftOff => t.leftOff = s.leftOff
  | .free => t.free = s.free
  | .mode => t.mode = s.mode
  | .gen => t.gen = s.gen
  | .pwr => t.pwr = s.pwr
  | .boot => t.boot = s.boot
  | .flash => t.flash = s.flash
  | .nvm => t.nvm = s.nvm
  | .store => t.store = s.store
  | .sense => t.sense = s.sense
  | .panels => t.panels = s.panels
  | .bays => t.bays = s.bays
  | .rtrs => t.rtrs = s.rtrs
  | .edgeQ => t.edgeQ = s.edgeQ
  | .ctx0 => t.ctx0 = s.ctx0
  | .ctx1 => t.ctx1 = s.ctx1
  | .pages => t.pages = s.pages
  | .prefixes => t.prefixes = s.prefixes
  | .plans => t.plans = s.plans
  | .reqs => t.reqs = s.reqs
  | .weights => t.weights = s.weights
  | .fab => t.fab = s.fab
  | .host => t.host = s.host
  | .keep => t.keep = s.keep
  | .snap => t.snap = s.snap
  | .resil => t.resil = s.resil
  | .intr => t.intr = s.intr
  | .snags => t.snags = s.snags
  | .snagNext => t.snagNext = s.snagNext
  | .out => t.out = s.out
  | .pending => t.pending = s.pending

/-- The states the module may enter next, by the table of module state transitions (15 R410). -/
def Mode.next : Mode → List Mode
  | .off => [.primed]
  | .primed => [.off, .awaitingConfig]
  | .awaitingConfig => [.off, .awaitingCoords, .haltedConfig]
  | .haltedConfig => [.off, .awaitingCoords]
  | .awaitingCoords => [.off, .ready]
  | .ready => [.off, .serving, .recovering, .withdrawn]
  | .serving => [.off, .ready, .recovering, .withdrawn]
  | .recovering => [.off, .serving, .ready, .withdrawn]
  | .withdrawn => [.off, .recovering]

end Sys2Proof.Machine
end

