-- ==== Sys2Proof/Safety.lean ====
section
/-! DEFINITION. What counts as a safe outcome, and what each command may change. -/

namespace Sys2Proof

/-- The outcome is a next state. -/
def Safe (o : Host.Outcome Machine.State Machine.Fault Machine.Refusal) : Prop := ∃ s, o = .next s

/-- A next state in which `P` holds. -/
def Next (o : Host.Outcome Machine.State Machine.Fault Machine.Refusal) (P : Machine.State → Prop) : Prop := ∃ s, o = .next s ∧ P s

/-- 32-bit element `i` of a tensor at line `l`, as the stroke in flight sees the scratchpad. -/
def Machine.Running.elem32 (r : Machine.Running) (free l i : Nat) : BitVec 32 :=
  (r.rd free (l + i / 16)).extractLsb' (32 * (i % 16)) 32

/-- The writes store `n` 32-bit elements from line `l` in whole lines: element `i` is `val i`. -/
def stores32 (ws : List Machine.SpWrite) (client l n : Nat) (val : Nat → BitVec 32) : Prop :=
  ws.length = n / 16 ∧ ∀ i < n, ∃ x, ws[i / 16]? = some x ∧ x.client = client ∧ x.line = l + i / 16 ∧
    x.mask = BitVec.allOnes 64 ∧ x.data.extractLsb' (32 * (i % 16)) 32 = val i

/-- An integer saturated to 32 bits. -/
def clamp32 (x : Int) : BitVec 32 := BitVec.ofInt 32 (max (-(2 ^ 31)) (min (2 ^ 31 - 1) x))

/-- An operation of the vector (1) or matrix (2) unit is open in the stroke `r` in flight, whose scratchpad part is open too; no segment it
reads or writes is waking. -/
def Machine.State.unitOpen (s : Machine.State) (b unit code : Nat) (r : Machine.Running) (o : BitVec 128) : Prop :=
  (s.bay b).seq.cur = some r ∧ r.unit = true ∧ r.sp = true ∧ Machine.stUnit r.word = unit ∧ (s.bay b).seq.opRec r.word = o ∧
    Machine.opCode o = code ∧ (s.bay b).waking (Machine.unitAccesses (s.bay b).seq r.word) = false

/-- A binary32 result within `u` units in the last place of an exact finite value (04 R120). -/
def nearTo (u : Nat) (v : BitVec 32) (x : Machine.Num) : Prop :=
  ∃ n m e k, x = .fin n m e ∧ k ∈ (Machine.nearby u n m e).2 ∧
    v = Machine.bits32 (.fin (if k = 0 then n else decide (k < 0)) k.natAbs (Machine.nearby u n m e).1)

/-- The unit's part of the stroke has ended and hands on the writes `ws`. -/
def Machine.State.unitDone (u : Machine.State) (b : Nat) (r : Machine.Running) (ws : List Machine.SpWrite) : Prop :=
  (u.bay b).seq.cur = some { r with unit := false, writes := r.writes ++ ws }

/-- A control message of bay `b` reaches CTL: the bay has a home, its port is open, and no sink lies on the way (06 R186, R194, R196, R427). -/
def Machine.State.heard (s : Machine.State) (b : Nat) : Prop :=
  ∃ x l, s.homeOf b = some x ∧ s.localClosed b = false ∧ Machine.walk 256 b (Machine.novkoHdr x.up 2 s.gen) = some l ∧ s.sinkOn l = none

/-- A message of Novko's on this VC leaves CTL for bay `b`, and no sink lies on the way (06 R186, R196, R427). -/
def Machine.State.told (s : Machine.State) (b vc : Nat) : Prop :=
  ∃ x l, s.homeOf b = some x ∧ s.attachUp x.att = true ∧
    Machine.walk 256 (Machine.ctlRouter x.att) (Machine.novkoHdr x.down vc s.gen) = some l ∧ s.sinkOn l = none

/-- The lines on a request's VC at its attach link, where Context die `k` answers it: those in the router's buffer and those that wait for room
there (06 R187; 07 R219). -/
def Machine.State.repliesAt (s : Machine.State) (k : Nat) (r : Machine.CtxReq) : List MLine :=
  let a := Machine.ctxLink k r.link
  ((s.rtr a.1).buf a.2 r.vc).map (·.2) ++ mget [] (s.rtr a.1).held (4 * a.2 + r.vc)

/-- A request `r` of Context die `k` was answered between `s` and `u` at its attach link: a status line of this status, commit length and
error position, then `n` lines. -/
def Machine.State.replied (u s : Machine.State) (k : Nat) (r : Machine.CtxReq) (status commit err n : Nat) : Prop :=
  ∃ m l, u.repliesAt k r = s.repliesAt k r ++ m :: l ∧ l.length = n ∧ Machine.fld m.line.data 0 32 = status ∧
    Machine.fld m.line.data 32 32 = commit % 2 ^ 32 ∧ Machine.fld m.line.data 64 32 = err % 2 ^ 32

/-- A unit of Context die `k`, in service, has request `r` with operation `op` next, and its attach link is open for the reply. -/
def Machine.State.nextOp (s : Machine.State) (k unit op : Nat) (r : Machine.CtxReq) : Prop :=
  (s.ctx k).nextReq unit (decide (0x20 ≤ op)) = some r ∧ r.op = op ∧ r.vc < 4 ∧ s.ctxInService k = true ∧
    s.rtrFenced (Machine.ctxLink k r.link).1 = false ∧ s.linkDown (Machine.ctxLink k r.link).1 (Machine.ctxLink k r.link).2 = false

/-- A command of the mailbox: its slot, its opcode, which arguments make it this form of the opcode, what R312 says of it and whether
argument bytes are those R314 lists. `own` marks the commands whose own checks take the place of steps 2 to 7 of R311. -/
structure MailRow where
  fn : Nat
  slot : Nat
  op : Nat
  form : Machine.Cmd → Bool := fun _ => true
  row : Machine.CmdRow
  args : Machine.Cmd → Bool
  own : Bool := false

open Machine in
/-- The commands of the mailbox (11 R312, R314; 12 R338–R343; 13 R384). -/
def Instr.mailbox : Instr → Option MailRow
  | .deviceInfo _ fn slot => some { fn, slot, op := 0x01, row := { states := modesManagement, expert := true }, args := (·.onlyArgs []) }
  | .configLoad _ fn slot .. => some { fn, slot, op := 0x02, row := { pf := true, states := modesConfig }, args := (·.onlyArgs [(0, 12)]) }
  | .configCommit _ fn slot => some { fn, slot, op := 0x03, row := { pf := true, states := modesConfig }, args := (·.onlyArgs []) }
  | .planLoad _ fn slot .. => some
      { fn, slot, op := 0x10, row := { pf := true, states := modesCompute }, args := fun c =>
        c.onlyArgs [(0, 20), (24, 4 * c.arg 18 2)] && (List.range (c.arg 18 2)).all fun i => decide (c.arg (26 + 4 * i) 2 < 2) }
  | .planUnload _ fn slot => some { fn, slot, op := 0x11, row := { pf := true, states := modesCompute }, args := (·.onlyArgs [(0, 8)]) }
  | .planStart _ fn slot => some
      { fn, slot, op := 0x12, row := { pf := true, states := modesCompute }, args := fun c =>
        c.onlyArgs [(0, 12), (16, 2 * c.arg 10 2)] }
  | .planStop _ fn slot => some { fn, slot, op := 0x13, row := { pf := true, states := modesCompute }, args := (·.onlyArgs [(0, 8)]) }
  | .weightsDigest _ fn slot => some { fn, slot, op := 0x22, row := { pf := true, states := modesManagement }, args := (·.onlyArgs [(0, 1)]) }
  | .sessionOpenHost _ fn slot => some
      { fn, slot, op := 0x30, form := fun c => c.arg 0 1 != 1 && c.arg 0 1 != 2,
        row := { states := modesSession }, args := (·.onlyArgs [(0, 4), (16, 1568)]) }
  | .sessionOpenLeader _ fn slot => some
      { fn, slot, op := 0x30, form := fun c => c.arg 0 1 == 1,
        row := { pf := true, states := modesSession }, args := fun c => c.onlyArgs [(0, 6), (8, 2), (16, 2 * c.arg 8 2)] }
  | .sessionOpenFollower _ fn slot => some
      { fn, slot, op := 0x30, form := fun c => c.arg 0 1 == 2,
        row := { pf := true, states := modesSession }, args := (·.onlyArgs [(0, 8)]) }
  | .sessionCloseHost _ fn slot => some
      { fn, slot, op := 0x31, form := fun c => c.arg 0 1 != 1, row := { states := modesManagement },
        args := (·.onlyArgs [(0, 1), (2, 2)]) }
  | .sessionCloseFabric _ fn slot => some
      { fn, slot, op := 0x31, form := fun c => c.arg 0 1 == 1,
        row := { pf := true, states := modesManagement }, args := (·.onlyArgs [(0, 1), (2, 2)]) }
  | .submit _ fn slot _ => some { fn, slot, op := 0x40, row := { states := [] }, args := (·.onlyArgs [(0, 64)]), own := true }
  | .cancel _ fn slot => some { fn, slot, op := 0x41, row := { states := modesManagement }, args := (·.onlyArgs [(0, 4)]) }
  | .prefixKeep _ fn slot => some { fn, slot, op := 0x42, row := { states := modesCompute }, args := (·.onlyArgs [(0, 8)]) }
  | .prefixDrop _ fn slot => some { fn, slot, op := 0x43, row := { states := modesManagement }, args := (·.onlyArgs [(0, 8)]) }
  | .counters _ fn slot => some
      { fn, slot, op := 0x50, row := { states := modesManagement, expert := true },
        args := (·.onlyArgs [(0, 1), (8, 8), (16, 4)]) }
  | .snagRead _ fn slot => some { fn, slot, op := 0x51, row := { states := modesManagement, expert := true }, args := (·.onlyArgs [(0, 10)]) }
  | .attest _ fn slot => some
      { fn, slot, op := 0x60, form := fun c => c.arg 32 1 % 2 == 0, row := { states := modesManagement },
        args := (·.onlyArgs attestArgs) }
  | .attestCert _ fn slot => some
      { fn, slot, op := 0x60, form := fun c => c.arg 32 1 % 2 == 1, row := { states := modesManagement },
        args := (·.onlyArgs attestArgs) }
  | .fence _ fn slot => some
      { fn, slot, op := 0x70, form := fun c => c.arg 0 1 != 1,
        row := { pf := true, states := modesCompute, expert := true }, args := (·.onlyArgs [(0, 3)]) }
  | .fenceRouter _ fn slot => some
      { fn, slot, op := 0x70, form := fun c => c.arg 0 1 == 1,
        row := { pf := true, states := modesCompute, expert := true }, args := (·.onlyArgs [(0, 3)]) }
  | .unfence _ fn slot => some { fn, slot, op := 0x71, row := { pf := true, states := modesCompute }, args := (·.onlyArgs [(0, 3)]) }
  | .resetCompute _ fn slot => some { fn, slot, op := 0x72, row := { pf := true, states := modesCompute }, args := (·.onlyArgs []) }
  | .expertEnable _ fn slot => some { fn, slot, op := 0x7F, row := { pf := true, states := modesManagement }, args := (·.onlyArgs [(0, 3)]) }
  | .weightsInstallNonce _ fn slot => some
      { fn, slot, op := 0x20, form := fun c => c.arg 0 1 != 1 && c.arg 0 1 != 2,
        row := { pf := true, states := [] }, args := (·.onlyArgs [(0, 1), (2, 2), (8, 24)]), own := true }
  | .weightsInstallWrite _ fn slot .. => some
      { fn, slot, op := 0x20, form := fun c => c.arg 0 1 == 1, row := { pf := true, states := [] },
        args := (·.onlyArgs [(0, 1), (2, 2), (8, 24)]), own := true }
  | .weightsInstallErase _ fn slot .. => some
      { fn, slot, op := 0x20, form := fun c => c.arg 0 1 == 2, row := { pf := true, states := [] },
        args := (·.onlyArgs [(0, 1), (2, 2), (8, 24)]), own := true }
  | .weightsSelect _ fn slot => some { fn, slot, op := 0x21, row := { pf := true, states := [] }, args := (·.onlyArgs [(0, 3)]), own := true }
  | _ => none

/-- The status of the first check of R311 that the command `c` of row `m` fails; none where all pass, or the row's own checks follow step 1. -/
def Machine.State.checkFails (s : Machine.State) (m : MailRow) (c : Machine.Cmd) : Option Nat :=
  if c.headerOk = false ∨ m.args c = false ∨ (c.expert = true ∧ m.row.expert = false) then some 3
  else if m.own = true then none
  else if s.mode = .withdrawn ∧ s.mode ∉ m.row.states then some 8
  else if m.row.pf = true ∧ m.fn ≠ 0 then some 4
  else if c.expert = true ∧ s.expert m.fn = false then some 4
  else if s.mode = .recovering ∧ s.mode ∉ m.row.states then some 5
  else if s.mode ∉ m.row.states then some 2
  else none

/-- The mailbox command `i` of row `m` is taken next, as `c`. -/
def Machine.State.takes (s : Machine.State) (i : Instr) (m : MailRow) (c : Machine.Cmd) : Prop :=
  i.mailbox = some m ∧ s.posted m.fn m.slot = some c ∧ c.op = m.op ∧ m.form c = true

/-- The mailbox command `i` is taken next, as `c`, and passes the checks every command passes. -/
def Machine.State.due (s : Machine.State) (i : Instr) (fn slot : Nat) (c : Machine.Cmd) : Prop :=
  ∃ m, s.takes i m c ∧ s.checkFails m c = none ∧ fn = m.fn ∧ slot = m.slot

/-- The completion slot answers `c` with this status, detail and result, and the command slot is free (11 R306, R308, R310). -/
def Machine.State.answered (s : Machine.State) (fn slot : Nat) (c : Machine.Cmd) (status detail : Nat) (result : List Byte) : Prop :=
  let x := s.slot fn slot
  x.cmd = none ∧ x.last = c.seq ∧ x.comp = some { op := c.op, status, detail, tag := c.tag, result, seq := c.seq }

/-- The command of a slot is taken and goes on: its answer is to come. -/
def Machine.State.goesOn (s : Machine.State) (fn slot : Nat) (c : Machine.Cmd) : Prop :=
  (s.slot fn slot).cmd = some { c with taken := true } ∧ (s.slot fn slot).last = c.seq

/-- What every step keeps: each addressed memory in its one form, each bay, panel and router that differs from its reset value listed once,
the snags numbered without a gap (11 R319), and stage 1 out of regulation in OFF and only there (01 R31; 15 R410). -/
abbrev Machine.State.Inv (s : Machine.State) : Prop :=
  s.memWf ∧ s.mapsWf ∧ s.snagNext = s.snags.length ∧ (s.mode = .off ↔ s.pwr.stage1Up = false)

/-- Conditions that reset the module (01 R21, R25, R26, R28). -/
def Instr.resets : Instr → Bool
  | .resetThreshold .. | .modRstNAssert .. | .overvoltageCut .. | .overcurrentCut .. | .thermalTrip .. | .inputPowerLoss .. |
    .vauxFault .. | .railFault .. | .railRampTimeout .. => true
  | _ => false

/-- A snag logged and its interrupt raised (00 R15, 11 R321). -/
def logged : List Machine.Field := [.host, .snags, .snagNext, .out]

/-- What the placement and running of plans rests on. -/
def serving : List Machine.Field := [.bays, .rtrs, .ctx0, .ctx1, .pages, .plans, .weights, .fab]

/-- What a command may change besides the time: the parts of the state its rules, and those of all that may follow from it at once,
write. -/
def Instr.touches : Instr → List Machine.Field
  | .inputPowerOn .. | .resetThresholdRelease .. | .overvoltageRelease .. | .modRstNRelease .. |
    .stage3GroupInRegulation .. | .vsetCommit .. | .vsetRampDone .. => [.pwr]
  | .inputPowerLoss .. | .resetThreshold .. | .overvoltageCut .. | .overcurrentCut .. | .modRstNAssert .. | .vauxFault
    .. | .thermalTrip .. => [.epoch, .mode, .gen, .pwr, .boot, .sense, .panels, .edgeQ, .prefixes, .reqs, .host, .keep,
    .snap, .resil, .intr, .snags, .snagNext] ++ serving
  | .supplyWarningAssert .. => [.pwr, .intr] ++ logged
  | .supplyWarningRelease .. | .ctlPwrLeafVsetWrite .. => [.pwr] ++ logged
  | .sagHoldExpiry .. | .sagThrottleWrite .. => [.pwr, .intr]
  | .stage1InRegulation .. => [.leftOff, .mode, .pwr]
  | .stage2InRegulation .. => [.pwr, .fab] ++ logged
  | .railFault .. | .railRampTimeout .. => [.epoch, .free, .mode, .gen, .pwr, .boot, .sense, .panels, .edgeQ, .prefixes,
    .reqs, .keep, .snap, .resil, .intr] ++ logged ++ serving
  | .getTid .. | .getPldmVersion .. | .getPldmCommands .. | .ideKeyProg .. | .mctpControlMessage .. | .doeSpdmRequest ..
    => [.free, .out]
  | .getPldmTypes .. | .getCoords .. | .getPowerStatus .. | .sidebandSnagRead .. | .getPrimerStatus .. |
    .pldmUnsupportedCommand .. => [.out]
  | .pldmFirmwareUpdate .. => [.flash, .out]
  | .portTrainingDone .. | .linkIdFlit .. => [.fab, .resil] ++ logged
  | .setCoords .. | .idleFlit .. | .portAutoRetrain .. | .fabPortRelease .. |
    .fabPortRetrain .. => [.fab] ++ logged
  | .primerVerifyDone .. => [.free, .mode, .pwr, .boot, .flash, .store, .sense, .fab, .keep] ++ logged
  | .configReadDone .. => [.mode, .pwr, .boot, .nvm, .store, .sense, .ctx0, .ctx1, .weights, .fab, .resil, .intr] ++
    logged
  | .d2dLinkTrainingDone .. => [.boot, .rtrs] ++ logged
  | .hbmStackTrainingDone .. => [.free, .mode, .boot, .panels, .prefixes, .reqs, .keep] ++ logged ++ serving
  | .startupCalibrationDone .. | .adcCalPeriod .. | .hkSelfCal .. | .hkXingCntClr .. => [.sense]
  | .ladderStepApply .. => [.free, .sense]
  | .readyEntry .. => [.free, .mode, .boot, .panels, .prefixes, .reqs, .keep, .resil] ++ logged ++ serving
  | .panelOpStart .. | .skimComplete .. | .strokeStart .. => [.mode, .pwr, .panels, .intr] ++ logged ++ serving
  | .computeOpComplete .. | .rowWriteCommit .. | .scratchpadAccessesComplete .. | .drainComplete .. | .add .. | .sub ..
    | .mul .. | .fma .. | .max .. | .min .. | .requant .. | .cvt .. | .relu .. | .exp .. | .recip .. | .rsqrt .. | .gelu
    .. | .silu .. | .mmLoadb .. | .mmMul .. | .mmDrain .. | .send .. | .recv .. | .push .. | .pop .. | .copy .. |
    .flagsend .. => [.mode, .pwr, .panels] ++ logged ++ serving
  | .rowAccessStart .. | .pnlCntClr .. | .pnlWitMismatchClear .. | .pnlWinDataClear .. | .pnlLiveWrite .. => [.panels]
  | .rowReadComplete .. => [.mode, .pwr, .panels, .resil] ++ logged ++ serving
  | .segmentWakeDone .. | .segmentSleep .. | .baySpDataAccess .. | .bayCntClr .. | .skipHoldEnd .. => [.bays]
  | .rsum .. | .rmax .. | .rsumsq .. => [.free, .mode, .pwr, .panels] ++ logged ++ serving
  | .faultWindowClose .. | .flagSetMessage .. | .swapArm .. | .auditArm .. | .mgmtQueuePush .. | .scratchpadWriteMessage
    .. | .scratchpadReadMessage .. | .weightRow .. | .rowReadback .. | .dataLineAccept .. => [.bays, .rtrs] ++ logged
  | .mgmtAccessServe .. => [.panels, .bays, .rtrs, .intr] ++ logged
  | .bayFlagsWrite .. | .baySegCtrlWrite .. | .bayAllocInvalidate .. => [.bays] ++ logged
  | .bayStrokeCntRead .. => [.bays, .out]
  | .stepRelease .. => [.mode, .pwr] ++ logged ++ serving
  | .swapFlip .. => [.panels, .bays, .rtrs] ++ logged
  | .lineForward .. => [.rtrs, .edgeQ] ++ logged
  | .linkCrcFail .. => [.free, .mode, .pwr, .panels, .prefixes, .reqs, .keep, .resil, .intr] ++ logged ++ serving
  | .rtrHardFenceWrite .. | .genNotice .. | .stepAbort .. | .fence .. | .fenceRouter .. | .unfence .. | .resetCompute ..
    | .faultNotice .. | .auditSignature .. | .auditSignatureTimeout .. | .hangSample .. | .recoveryTimeout .. => [.free,
    .mode, .pwr, .panels, .prefixes, .reqs, .keep, .resil] ++ logged ++ serving
  | .rtrLocalCloseWrite .. | .rtrCntClr .. => [.rtrs]
  | .contextRequestArrival .. => [.rtrs, .edgeQ, .ctx0, .ctx1] ++ logged
  | .attend .. | .commitSet .. | .kvRead .. | .spillRead .. | .fwRead .. | .pageZero .. | .pageCopy .. => [.rtrs, .ctx0,
    .ctx1] ++ logged
  | .append .. | .kvWrite .. | .spillWrite .. | .fwWrite .. => [.rtrs, .ctx0, .ctx1, .pages] ++ logged
  | .refreshDue .. | .ctxCntClr .. | .ctxStarveCapClear .. => [.ctx0, .ctx1]
  | .forcedRefresh .. => [.ctx0, .ctx1, .intr]
  | .arbStarve .. | .ctxPoolPush .. => [.ctx0, .ctx1] ++ logged
  | .submit .. | .schedulingPoint .. | .endpointReset .. | .functionLevelReset .. | .d3hotEntry .. | .vfDisable .. =>
    [.free, .panels, .prefixes, .reqs, .keep] ++ logged ++ serving
  | .cancel .. => [.free, .ctx0, .ctx1, .pages, .prefixes, .plans, .reqs, .keep] ++ logged
  | .prefixKeep .. => [.free, .ctx0, .ctx1, .pages, .prefixes, .keep] ++ logged
  | .prefixDrop .. => [.ctx0, .ctx1, .prefixes, .host, .out]
  | .stepDoneNotice .. | .stepReport .. => [.plans, .reqs, .weights, .fab] ++ logged
  | .resultMessage .. => [.edgeQ, .plans, .reqs, .weights, .fab] ++ logged
  | .deadlineExpiry .. => []
  | .weightsInstallNonce .. => [.free, .weights, .host, .keep, .out]
  | .installNonceExpiry .. => [.weights]
  | .weightsInstallWrite .. | .weightsInstallErase .. => [.store, .weights] ++ logged
  | .weightsSelect .. | .panelDoneNotice .. | .storeDeviceFail .. => [.panels, .bays, .rtrs, .weights] ++ logged
  | .weightsDigest .. => [.panels, .weights, .resil] ++ logged
  | .storeReadError .. | .peerTimeoutExpiry .. | .planUnload .. | .planStop .. => [.free, .mode, .panels, .prefixes,
    .reqs, .keep] ++ logged ++ serving
  | .widthFlit .. | .nakFlit .. | .fabricReplayTimeout .. | .laneBad .. | .widthChangeDone .. => [.fab, .intr] ++ logged
  | .dataFlit .. | .mgmtFlit .. => [.rtrs, .fab, .keep] ++ logged
  | .controlFlitRepeat .. | .genNoticeTimer .. => [.fab, .out]
  | .fabricEgressMessage .. => [.edgeQ, .fab, .keep] ++ logged
  | .stepOrder .. => [.free, .panels, .prefixes, .keep] ++ logged ++ serving
  | .keyRequest .. => [.free, .fab, .keep] ++ logged
  | .keyGrant .. => [.fab, .keep] ++ logged
  | .keyAck .. | .sessionSetupTimeout .. | .sessionCloseHost .. | .sessionCloseFabric .. | .entropyHealthFail .. |
    .entropyRetest .. => [.keep] ++ logged
  | .keyRequestResend .. => [.free, .fab, .keep, .out]
  | .fabPortCntClr .. | .fabCntClr .. => [.fab]
  | .commandPost .. | .expertEnable .. => logged
  | .tlpReceive .. | .registerWrite .. => [.free, .mode, .pwr, .sense, .panels, .prefixes, .reqs, .keep, .resil, .intr]
    ++ logged ++ serving
  | .ideKSetGo .. | .ideKSetStop .. => [.keep, .out]
  | .deviceInfo .. | .counters .. | .snagRead .. | .attestCert .. | .msixVectorUnmask .. => [.host, .out]
  | .configLoad .. => [.free, .boot, .flash] ++ logged
  | .configCommit .. => [.free, .mode, .pwr, .boot, .flash, .nvm, .store, .sense, .panels, .prefixes, .reqs, .keep,
    .resil, .intr] ++ logged ++ serving
  | .planLoad .. => [.free, .plans] ++ logged
  | .planStart .. => [.mode, .panels, .bays, .rtrs, .ctx0, .ctx1, .plans, .weights, .fab] ++ logged
  | .sessionOpenHost .. => [.free, .keep] ++ logged
  | .sessionOpenLeader .. => [.free, .host, .keep, .out]
  | .sessionOpenFollower .. => [.free, .fab, .host, .keep, .out]
  | .attest .. => [.free, .host, .out]
  | .mbCntClr .. | .pcieLinkUp .. => [.host]
  | .keepCntClr .. | .drbgReseed .. => [.keep]
  | .coreWatchdogExpiry .. => [.resil] ++ logged
  | .quiesceDone .. | .computeResetDone .. | .weightRedigestDone .. | .hbmRetrainDone .. | .fabricRetrainDone .. |
    .resumeDone .. => [.free, .mode, .gen, .pwr, .boot, .panels, .prefixes, .reqs, .keep, .resil] ++ logged ++ serving
  | .adcConversion .. => [.free, .sense] ++ logged
  | .adcSelfCalDone .. | .ladderTrimTick .. => [.sense] ++ logged
  | .sensorReading .. => [.free, .sense, .intr] ++ logged
  | .sensorSilent .. => [.sense, .intr] ++ logged
  | .powerWindow .. => [.free, .sense, .snap]
  | .tenantSnapshotWindow .. => [.snap]
  | .manualDivWrite .. => [.sense, .intr]
  | .planStartPeerTimeout .. => [.plans, .host, .out]

end Sys2Proof
end

