-- ==== Sys2Proof/Certificates/Slice0/Obligations.lean ====
section
/-!
DEFINITION. The statements for the provers, in the order of OBLIGATIONS.json. `Next r P` says that an outcome is a next state of which
`P` holds: every statement about commands so says that they complete, and what the state is then, and by equalities of whole parts what
they leave alone. What each command leaves unchanged in the large is said once for all of them in `CommandsChangeOnlyTheirParts`.
-/

open Sys2Proof Sys2Proof.Machine

/-- The input and its auxiliary rail (01 R28): power in starts the record afresh, its loss and a fault of VAUX take the module to
OFF without an off-cause record, and neither loses what is kept without power.
A module reset by each of its causes (01 R21, R25, R26, R27, R40): from released to asserted the module goes to OFF, the record
takes the cause's code, the panels' contents are lost, and only what needs no power is kept.
A condition that arises while the module reset is asserted leaves the off-cause record as it is, if the record is not of this
very instant (01 R26). -/
def Obligations.InputAndResetCausesTakeTheModuleToOff : Prop :=
  (∀ (t : Nat) (s : State),
    (s.pwr.inputOn = false → exec (.inputPowerOn t) s = .next { s.tick t with
      pwr := { s.pwr with inputOn := true, vauxLatched := false, underVolt := true, overVolt := false, vinWarn := false } }) ∧
    Next (exec (.inputPowerLoss t) s) (fun u => u.mode = .off ∧ u.pwr = { rstN := s.pwr.rstN } ∧
      u.pwrGood = false ∧ u.alertLow = false ∧ u.panels = [] ∧ u.nvm = s.nvm ∧ u.flash = s.flash ∧ u.store = s.store) ∧
    (s.pwr.vauxUp = true → Next (exec (.vauxFault t) s) fun u => u.mode = .off ∧
      u.pwr = { inputOn := true, vauxLatched := true, rstN := s.pwr.rstN } ∧
      u.pwrGood = false ∧ u.alertLow = false ∧ u.panels = [] ∧ u.nvm = s.nvm ∧ u.flash = s.flash ∧ u.store = s.store)) ∧
  (∀ (t : Nat) (die : Fin 32) (s : State), s.pwr.resetAsserted = false →
    ∀ e ∈ [(Instr.resetThreshold t, 1), (Instr.modRstNAssert t, 2), (Instr.overvoltageCut t, 5), (Instr.overcurrentCut t, 6)] ++
        if s.comparatorArmed die then [(Instr.thermalTrip t die, 3)] else [],
      Next (exec e.1 s) fun u => u.mode = .off ∧ u.pwr.resetAsserted = true ∧ u.pwr.offCause = e.2 ∧ u.pwr.offRail = 0xFF ∧
        u.pwr.offAt = max s.now t ∧ u.pwr.rails = [] ∧ u.pwrGood = false ∧ u.panels = [] ∧ u.bays = [] ∧ u.snags = [] ∧
        u.gen = 1 ∧ u.nvm = s.nvm ∧ u.flash = s.flash ∧ u.store = s.store) ∧
  (∀ (t : Nat) (s : State), s.pwr.resetAsserted = true → s.pwr.offAt < max s.now t →
    ∀ c ∈ [Instr.resetThreshold t, .modRstNAssert t, .overvoltageCut t, .overcurrentCut t],
      Next (exec c s) fun u => u.pwr.resetAsserted = true ∧ u.pwr.offCause = s.pwr.offCause ∧ u.pwr.offRail = s.pwr.offRail ∧
        u.pwr.offAt = s.pwr.offAt ∧ u.mode = s.mode)

/-- The releases (01 R21, R25, R26, R31): each clears its condition, the end of a reset pulse clears the three latches as well, and
once no condition is left stage 1 starts: its first rail ramps and the others wait their turn.
The stages come up in order (01 R31, R32): stage 1 starts the primer and PWR_GOOD, stage 2 follows firmware's request, and the
groups of leaf rails follow one by one, 1 ms apart; a supply warning holds stages 2 and 3. -/
def Obligations.ReleasesAndStagesBringTheModuleUp : Prop :=
  (∀ (t : Nat) (s : State), s.pwr.vauxUp = true →
    Next (exec (.resetThresholdRelease t) s) (fun u => u.pwr.underVolt = false ∧ u.pwr.rstN = s.pwr.rstN ∧
      u.pwr.overVolt = s.pwr.overVolt ∧ u.pwr.ocLatch = s.pwr.ocLatch ∧ u.pwr.thermLatch = s.pwr.thermLatch ∧
      u.pwr.railLatch = s.pwr.railLatch) ∧
    Next (exec (.overvoltageRelease t) s) (fun u => u.pwr.overVolt = false ∧ u.pwr.underVolt = s.pwr.underVolt ∧
      u.pwr.ocLatch = s.pwr.ocLatch ∧ u.pwr.thermLatch = s.pwr.thermLatch ∧ u.pwr.railLatch = s.pwr.railLatch) ∧
    (s.pwr.rstN = true → Next (exec (.modRstNRelease t) s) fun u => u.pwr.rstN = false ∧ u.pwr.ocLatch = false ∧
      u.pwr.thermLatch = false ∧ u.pwr.railLatch = false ∧ u.pwr.underVolt = s.pwr.underVolt ∧ u.pwr.overVolt = s.pwr.overVolt) ∧
    ∀ c ∈ [Instr.resetThresholdRelease t, .overvoltageRelease t, .modRstNRelease t], s.pwr.rails = [] → s.pwr.stage1Up = false →
      s.pwr.rstN = true →
      Next (exec c s) fun u => ∀ r ∈ stage1Rails,
        mget .off u.pwr.rails r = (if u.pwr.resetAsserted then .off else if r = 74 then .ramp else .wait) ∧
        (u.pwr.resetAsserted = false → mget 0 u.pwr.rampAt r = max s.now t)) ∧
  (∀ (t : Nat) (s : State),
    (s.pwr.resetAsserted = false → s.pwr.stage1Up = false → Next (exec (.stage1InRegulation t) s) fun u =>
      u.mode = .primed ∧ u.leftOff = max s.now t ∧ u.pwr.stage1Up = true ∧ u.pwrGood = true ∧
      u.pwr.sagActing = (s.pwr.sagActing || (s.pwr.sagThrottle && s.pwr.vinWarn)) ∧
      ∀ r ∈ stage1Rails, mget .off s.pwr.rails r ∈ [Rail.off, .wait, .ramp] → mget .off u.pwr.rails r = .up) ∧
    (s.pwr.stage2Req = true → s.pwr.stage2Up = false → s.pwr.vinWarn = false → Next (exec (.stage2InRegulation t) s) fun u =>
      u.pwr.stage2Up = true ∧ u.pwr.groups = s.pwr.groups ∧ u.mode = s.mode ∧
      (∀ r ∈ stage2Rails, mget .off s.pwr.rails r ∈ [Rail.off, .wait, .ramp] → mget .off u.pwr.rails r = .up) ∧
      ∀ r < 32, mget 0 u.pwr.rampAt r = max s.now t + 1000000 * (r / 4) ∧
        (mget .off s.pwr.rails r = .off → mget .off u.pwr.rails r = if r < 4 then .ramp else .wait)) ∧
    (s.pwr.stage2Up = true → s.pwr.groups < 8 → s.pwr.vinWarn = false →
      if mget 0 s.pwr.rampAt (4 * s.pwr.groups) ≤ max s.now t then
        Next (exec (.stage3GroupInRegulation t) s) fun u => u.pwr.groups = s.pwr.groups + 1 ∧
          ∀ r, mget .off u.pwr.rails r =
            if 4 * s.pwr.groups ≤ r ∧ r < 4 * s.pwr.groups + 4 ∧ mget .off s.pwr.rails r ∈ [Rail.off, .wait, .ramp] then .up
            else mget .off s.pwr.rails r
      else exec (.stage3GroupInRegulation t) s = .next (s.tick t)) ∧
    (s.pwr.vinWarn = true → exec (.stage2InRegulation t) s = .next (s.tick t) ∧ exec (.stage3GroupInRegulation t) s = .next (s.tick t)))

/-- The supply warning and the sag throttle (01 R25, R29, R42): the warning is held, logged once Novko runs, and sets the throttle
where SAG_THROTTLE asks for it; its release logs how long it lasted and starts the hold, whose end 10 ms later lifts the throttle. -/
def Obligations.SupplyWarningThrottlesAndIsLogged : Prop :=
  ∀ (t mv : Nat) (v : Bool) (s : State), s.pwr.vauxUp = true →
    (s.pwr.vinWarn = false → Next (exec (.supplyWarningAssert t mv) s) fun u => u.pwr.vinWarn = true ∧ u.alertLow = true ∧
      u.pwr.warnAt = max s.now t ∧ u.pwr.minMv = mv ∧ u.pwr.sagHold = false ∧
      u.pwr.sagActing = (s.pwr.sagActing || (s.pwr.sagThrottle && s.pwr.stage1Up)) ∧
      u.pwr.vinWarnSeen = (s.pwr.vinWarnSeen || s.pwr.stage1Up) ∧
      if s.novkoUp then ∃ r, u.snags = r :: s.snags ∧ r.code = 0x8001 ∧ r.sev = 1 ∧
        r.args = [mv, if s.pwr.sagThrottle then 1 else 0, 0, 0] else u.snags = s.snags) ∧
    (s.pwr.vinWarn = true → Next (exec (.supplyWarningRelease t mv) s) fun u => u.pwr.vinWarn = false ∧
      u.pwr.sagHold = s.pwr.sagActing ∧ u.pwr.sagActing = s.pwr.sagActing ∧ u.pwr.warnOff = max s.now t ∧
      if s.novkoUp then ∃ r, u.snags = r :: s.snags ∧ r.code = 0x8002 ∧ r.sev = 0 ∧
        r.args = [(max s.now t - s.pwr.warnAt) / 1000, min s.pwr.minMv mv, 0, 0] else u.snags = s.snags) ∧
    (s.pwr.sagHold = true → if s.pwr.warnOff + 10000000 ≤ max s.now t then
        Next (exec (.sagHoldExpiry t) s) fun u => u.pwr.sagHold = false ∧ u.pwr.sagActing = false
      else exec (.sagHoldExpiry t) s = .next (s.tick t)) ∧
    (s.pwr.stage1Up = true → Next (exec (.sagThrottleWrite t v) s) fun u => u.pwr.sagThrottle = v ∧
      u.pwr.sagActing = (v && (s.pwr.sagActing || s.pwr.vinWarn)) ∧ u.pwr.sagHold = (v && s.pwr.sagHold))

/-- Leaf set points (01 R43; 00 R13): a write stages code 31 as 30 and any other as it is, and an idle leaf takes it at once; a commit lets
every leaf take the code staged before the instant of the commit, and leaves one staged at that instant for the next; the ramps' end clears
VSET_COMMIT. -/
def Obligations.LeafSetPointsAreStagedAndCommitted : Prop :=
  ∀ (t : Nat) (n : Fin 16) (v : Word) (s : State), s.pwr.stage1Up = true →
    Next (exec (.ctlPwrLeafVsetWrite t n v) s) (fun u => ∀ leaf,
      let code := if leaf = 2 * n.val then some (min (fld v 0 5) 30) else if leaf = 2 * n.val + 1 then some (min (fld v 8 5) 30) else none
      mget 20 u.pwr.vset leaf = (if s.leafIdle leaf then code.getD (mget 20 s.pwr.vset leaf) else mget 20 s.pwr.vset leaf) ∧
      (mget {} u.pwr.vsetStg leaf).code =
        if code.isSome then (if s.leafIdle leaf then none else code) else (mget {} s.pwr.vsetStg leaf).code) ∧
    Next (exec (.vsetCommit t) s) (fun u => ∀ leaf,
      let x := mget ({} : LeafStg) s.pwr.vsetStg leaf
      if x.at_ < max s.now t then
        mget {} u.pwr.vsetStg leaf = {} ∧ mget 20 u.pwr.vset leaf = x.code.getD (mget 20 s.pwr.vset leaf)
      else mget {} u.pwr.vsetStg leaf = { x with old := none } ∧ mget 20 u.pwr.vset leaf = x.old.getD (mget 20 s.pwr.vset leaf)) ∧
    Next (exec (.vsetRampDone t) s) (fun u => u.pwr.vsetRamping = false ∧ u.pwr.vset = s.pwr.vset)

/-- A fault of an armed rail (01 R34): a rail of stage 2 or 3 is switched off with those that hang on it and recorded, one of stage 1
takes the module to OFF with cause 4 and its id. A rail is armed from the start of its ramp, so a rail that is off or whose turn has not
come cannot fault; a ramp time-out is the fault of a ramping rail alone, 5 ms after that start. -/
def Obligations.RailFaultSwitchesOffWhatHangsOnIt : Prop :=
  ∀ (t mv : Nat) (r : Fin 79) (s : State),
    let x := mget .off s.pwr.rails r
    let now := max s.now t
    let began := mget 0 s.pwr.rampAt r ≤ if s.pwr.vinWarn = true ∧ r.val < 74 then min now s.pwr.warnAt else now
    let armed := x = .up ∨ (x ∈ [Rail.ramp, .wait] ∧ began)
    let late := x ∈ [Rail.ramp, .wait] ∧ began ∧ mget 0 s.pwr.rampAt r + 5000000 ≤ now
    (∀ e ∈ [(Instr.railFault t r mv, armed), (.railRampTimeout t r mv, late)],
      (e.2 → 74 ≤ r.val → s.pwr.resetAsserted = false → Next (exec e.1 s) fun u => u.mode = .off ∧ u.pwr.offCause = 4 ∧
        u.pwr.offRail = r ∧ u.pwr.railLatch = true ∧ u.snags = []) ∧
      (e.2 → r.val < 74 → Next (exec e.1 s) fun u => u.pwr.railFaultSeen = true ∧
        u.pwr.faultRail = (if s.pwr.faultRail = 0xFF then r.val else s.pwr.faultRail) ∧ mget .off u.pwr.rails r = .fault ∧
        (∀ d ∈ railDependents r, mget .off u.pwr.rails d = if mget .off s.pwr.rails d = .fault then .fault else .cut) ∧
        ∀ q, q ≠ r.val → q ∉ railDependents r → mget .off u.pwr.rails q = mget .off s.pwr.rails q ∨
          (x ≠ .up ∧ mget .off s.pwr.rails q = .wait ∧ mget .off u.pwr.rails q = .ramp)) ∧
      (¬e.2 → exec e.1 s = .next (s.tick t)))

/-- Once Novko runs it answers every PLDM command of the table (01 R429), and says of any other that its type has no such command or
that there is no such type; GET_PRIMER_STATUS is not Novko's to answer. What DSP0240 and DSP0267 put into an answer is left open
beyond its length (log 82), but for the bits of the types; that a question about a type there is none of is answered ERROR_INVALID_DATA is the
model's choice (log 173).
The bytes of GET_POWER_STATUS, GET_COORDS and SNAG_READ (01 R429, 10 R281): the two status registers, the module state, input
voltage and power; the record in force (2) or held (1) or none (0); the cursor to go on from, how many records were lost and the
records, 1 to 16 of them; the code that refuses any other MAX is the model's choice (log 173). None changes anything but what was sent.
While the primer holds the module in PRIMED (15 R412) it gives its record, takes firmware for either bank if no bank was accepted
(cause 5), answers MCTP control messages, and answers every other PLDM command ERROR_NOT_READY.
Novko writes a firmware image into the inactive bank (15 R411, 01 R429) and refuses one for the active bank (DEDUCED, log 85); it
answers MCTP control messages too. -/
def Obligations.NovkoAndPrimerAnswerTheSideband : Prop :=
  (∀ (t ty code : Nat) (s : State), s.novkoUp = true → s.boot.hold = none →
    (∃ b, b.length = 1 ∧ Next (exec (.getTid t) s) fun u => u.out = .pldm 0 2 .success b :: s.out) ∧
    (if ty ∈ pldmTypes then ∃ b, b.length = 13 ∧ Next (exec (.getPldmVersion t ty) s) fun u => u.out = .pldm 0 3 .success b :: s.out
      else Next (exec (.getPldmVersion t ty) s) fun u => u.out = .pldm 0 3 .errorInvalidData [] :: s.out) ∧
    Next (exec (.getPldmTypes t) s) (fun u => u.out = .pldm 0 4 .success (leBytes 8 (2 ^ 0 + 2 ^ 5 + 2 ^ 63)) :: s.out) ∧
    Next (exec (.getPldmCommands t 63) s)
      (fun u => u.out = .pldm 0 5 .success (leBytes 32 (2 ^ 1 + 2 ^ 2 + 2 ^ 3 + 2 ^ 4 + 2 ^ 0x10)) :: s.out) ∧
    (ty ∈ pldmTypes → ∃ b, b.length = 32 ∧ Next (exec (.getPldmCommands t ty) s) fun u => u.out = .pldm 0 5 .success b :: s.out) ∧
    (code ∉ pldmCodes ty → Next (exec (.pldmUnsupportedCommand t ty code) s) fun u => u.out =
      .pldm ty code (if ty = 0 ∨ ty = 5 ∨ ty = 63 then .errorUnsupportedPldmCmd else .errorInvalidPldmType) [] :: s.out) ∧
    Next (exec (.getPrimerStatus t) s) (fun u => u.out = .pldm 63 0x10 .errorNotReady [] :: s.out)) ∧
  (∀ (t cursor max : Nat) (s : State), s.novkoUp = true →
    exec (.getPowerStatus t) s = .next ((s.tick t).emit (.pldm 63 3 .success (leBytes 4 s.pwrStatus ++ leBytes 4 s.tempStatus ++
      leBytes 1 s.mode.num ++ leBytes 3 0 ++ leBytes 2 s.sense.vin ++ leBytes 2 (s.sense.pin / 8)))) ∧
    exec (.getCoords t) s = .next ((s.tick t).emit (.pldm 63 2 .success
      (if s.fab.coords = none ∧ s.fab.held = none then leBytes 21 0
        else leBytes 1 (if s.fab.coords.isSome then 2 else 1) ++ ((s.fab.coords.or s.fab.held).elim [] Coords.bytes)))) ∧
    (if 1 ≤ max ∧ max ≤ 16 then
      let r := s.readSnags 0 cursor max
      r.2.2.length ≤ max ∧ exec (.sidebandSnagRead t cursor max) s = .next ((s.tick t).emit (.pldm 63 4 .success
        (leBytes 8 r.1 ++ leBytes 4 r.2.1 ++ leBytes 1 r.2.2.length ++ leBytes 3 0 ++ r.2.2.flatMap Snag.bytes)))
      else exec (.sidebandSnagRead t cursor max) s = .next ((s.tick t).emit (.pldm 63 4 .errorInvalidData [])))) ∧
  (∀ (t ty code cursor max : Nat) (bankB : Bool) (img : FwImage) (x : Byte) (rec : List Byte) (r : PrimerRec) (s : State),
    s.boot.hold = some r → s.novkoUp = false →
    exec (.getPrimerStatus t) s = .next ((s.tick t).emit (.pldm 63 0x10 .success
      (leBytes 1 r.cause ++ leBytes 1 r.alg ++ leBytes 1 r.bankA ++ leBytes 1 r.bankB ++ leBytes 2 r.minSvn ++
        leBytes 1 (if s.part = .b0 then 1 else 0) ++ leBytes 1 r.keepBits.toNat ++ leBytes 8 0))) ∧
    Next (exec (.pldmFirmwareUpdate t bankB img) s) (fun u =>
      if r.cause = 5 then u.out = .pldm 5 0x10 .success [] :: s.out ∧ (if bankB then u.flash.bankB else u.flash.bankA) = img ∧
        (if bankB then u.flash.bankA else u.flash.bankB) = (if bankB then s.flash.bankA else s.flash.bankB) ∧
        u.flash.active = s.flash.active
      else u.out = .pldm 5 0x10 .errorNotReady [] :: s.out ∧ u.flash = s.flash) ∧
    (∃ b, Next (exec (.mctpControlMessage t x) s) fun u => u.out = .mctp x b :: s.out) ∧
    ∀ e ∈ [(Instr.getTid t, 0, 2), (.getPldmVersion t ty, 0, 3), (.getPldmTypes t, 0, 4), (.getPldmCommands t ty, 0, 5),
        (.setCoords t rec, 63, 1), (.getCoords t, 63, 2), (.getPowerStatus t, 63, 3), (.sidebandSnagRead t cursor max, 63, 4)] ++
        if code ∈ pldmCodes ty then [] else [(.pldmUnsupportedCommand t ty code, ty, code)],
      exec e.1 s = .next ((s.tick t).emit (.pldm e.2.1 e.2.2 .errorNotReady []))) ∧
  (∀ (t : Nat) (img : FwImage) (x : Byte) (s : State), s.novkoUp = true → s.boot.hold = none →
    (s.flash.active = 0 → Next (exec (.pldmFirmwareUpdate t true img) s) fun u =>
      u.flash = { s.flash with bankB := img } ∧ u.out = .pldm 5 0x10 .success [] :: s.out) ∧
    (s.flash.active = 1 → Next (exec (.pldmFirmwareUpdate t false img) s) fun u =>
      u.flash = { s.flash with bankA := img } ∧ u.out = .pldm 5 0x10 .success [] :: s.out) ∧
    (s.flash.active < 2 → Next (exec (.pldmFirmwareUpdate t (s.flash.active == 1) img) s) fun u =>
      u.flash = s.flash ∧ u.out = .pldm 5 0x10 .errorInvalidData [] :: s.out) ∧
    ∃ b, Next (exec (.mctpControlMessage t x) s) fun u => u.out = .mctp x b :: s.out)

/-- SET_COORDS by the module's state (10 R282): a record of another length or an invalid one is turned down in every state, one that
is in force already is a success; before coordinates are wanted a record is held, in AWAITING_COORDS and READY it comes into force
with its module address, and later it is refused with snag 0x5041. Each record taken logs snag 0x5040. -/
def Obligations.SetCoordsByModuleState : Prop :=
  ∀ (t : Nat) (rec : List Byte) (s : State), s.novkoUp = true →
    let c := parseCoords rec
    let P (code : PldmCode) (u : State) : Prop := u.out.head? = some (.pldm 63 1 code []) ∧ u.mode = s.mode
    let logs (u : State) (code sev : Nat) : Prop := ∃ r, u.snags.head? = some r ∧ r.code = code ∧ r.sev = sev ∧
      r.args.head? = some (64 * c.rack + c.slot)
    (rec.length ≠ 20 → Next (exec (.setCoords t rec) s) fun u => P .errorInvalidLength u ∧ u.fab = s.fab) ∧
    (rec.length = 20 → c.valid = false → Next (exec (.setCoords t rec) s) fun u => P .errorInvalidData u ∧ u.fab = s.fab) ∧
    (rec.length = 20 → c.valid = true → s.fab.coords = some c →
      Next (exec (.setCoords t rec) s) fun u => P .success u ∧ u.fab = s.fab ∧ u.snags = s.snags) ∧
    (rec.length = 20 → c.valid = true → s.fab.coords ≠ some c →
      Next (exec (.setCoords t rec) s) fun u =>
        if s.mode = .awaitingConfig ∨ s.mode = .haltedConfig then
          P .success u ∧ u.fab = { s.fab with held := some c } ∧ logs u 0x5040 0
        else if s.mode = .awaitingCoords ∨ s.mode = .ready then
          P .success u ∧ u.fab.coords = some c ∧ u.fab.held = none ∧ u.moduleAddr = 64 * c.rack + c.slot ∧
            ∃ r ∈ u.snags, r.code = 0x5040 ∧ r.args.head? = some (64 * c.rack + c.slot)
        else P .errorNotReady u ∧ u.fab = s.fab ∧ logs u 0x5041 1)

/-- PRIMER_VERIFY_DONE (12 R351; 15 R411–R413): self-tests that end with a cause hold the module in PRIMED with that cause; else the
active bank's firmware starts if it is accepted, or the other bank's with snag 0x9010, and with neither accepted the module is held
with cause 5 and each bank's own reason. Either way the module joins the sideband's bus (01 R20). -/
def Obligations.PrimerStartsTheFirstAcceptedBank : Prop :=
  ∀ (t mv : Nat) (st : SelfTest) (s : State), s.mode = .primed → s.boot.hold = none → s.resil.coresUp ≠ 0 →
    s.flash.active < 2 →
    let a := s.bankOutcome s.flash.bankA
    let b := s.bankOutcome s.flash.bankB
    let i := if s.flash.active = 0 then (if a = 0 then 0 else 1) else (if b = 0 then 1 else 0)
    Next (exec (.primerVerifyDone t mv st) s) fun u => u.boot.joined = true ∧ (s.boot.joined = false → Output.hotJoin ∈ u.out) ∧
      if 1 ≤ st.cause ∧ st.cause ≤ 4 then
        u.mode = .primed ∧ u.alertLow = s.pwr.vauxUp ∧
        ∃ r, u.boot.hold = some r ∧ r.cause = st.cause ∧ r.bankA = 0 ∧ r.bankB = 0 ∧ r.alg = (if st.cause = 1 then st.alg else 0) ∧
          r.minSvn = if st.cause = 4 then s.nvm.minSvn else 0
      else if a ≠ 0 ∧ b ≠ 0 then
        u.mode = .primed ∧ u.alertLow = s.pwr.vauxUp ∧
        ∃ r, u.boot.hold = some r ∧ r.cause = 5 ∧ r.bankA = a ∧ r.bankB = b ∧ r.alg = 0 ∧ r.minSvn = s.nvm.minSvn
      else
        u.mode = .awaitingConfig ∧ u.boot.hold = none ∧ u.boot.fwBank = i ∧ u.flash.active = i ∧
        u.boot.runSvn = (if i = 0 then s.flash.bankA else s.flash.bankB).svn ∧
        (∃ r ∈ u.snags, r.code = 0x8020 ∧ r.ts = 0 ∧
          r.args = [s.pwr.offCause, if s.pwr.offCause = 4 then s.pwr.offRail else 0xFF, 0, 0]) ∧
        (i ≠ s.flash.active → ∃ r ∈ u.snags, r.code = 0x9010 ∧ r.args.head? = some i)

/-- CONFIG_READ_DONE (15 R414, R417, R421): with no marked image, or one that fails a check, the module halts and says which check
with snag 0x9001; a valid image is applied, stage 2 is requested, and the minimum security version never falls. -/
def Obligations.ConfigurationImageDecidesTheStart : Prop :=
  ∀ (t : Nat) (digestOk : Bool) (s : State), s.mode = .awaitingConfig → s.resil.coresUp ≠ 0 →
    (s.curSlot = none → Next (exec (.configReadDone t digestOk) s) fun u => u.mode = .haltedConfig ∧ u.boot.cfgCheck = 0xFF ∧
      u.boot.inForce = s.boot.inForce ∧ u.pwr.stage2Req = s.pwr.stage2Req ∧
      ∃ r, u.snags = r :: s.snags ∧ r.code = 0x9001 ∧ r.sev = 3 ∧ r.args = [0, 0xFF, 0, 0]) ∧
    (∀ i c, s.curSlot = some (i, c) → match s.checkCfg c.image true digestOk with
      | .error n => Next (exec (.configReadDone t digestOk) s) fun u => u.mode = .haltedConfig ∧ u.boot.cfgCheck = n ∧
          u.nvm = s.nvm ∧ ∃ r, u.snags = r :: s.snags ∧ r.code = 0x9001 ∧ r.args = [n, i, c.seq, 0]
      | .ok g => Next (exec (.configReadDone t digestOk) s) fun u => u.mode = .awaitingCoords ∧ u.boot.inForce = true ∧
          u.boot.slot = i ∧ u.boot.cfgDigest = g.digest ∧ u.pwr.stage2Req = true ∧ u.nvm.minSvn = max s.nvm.minSvn g.minSvn ∧
          u.nvm.voucher = s.nvm.voucher ∧ u.boot.startSets = g.sets ∧ u.boot.startFences = g.fences.map fun e => 72 * e.1 + e.2)

/-- Links and stacks end their training (06 R182; 07 R231): each outcome is recorded once, a link that fails is down at both ends,
and a stack that trains is up.
The start-up calibration is taken once the last group of leaf rails is up (14 R393), and READY is entered when all that start-up
waits for has ended (15 R419): its start fences take effect with cause 4 and nothing is left to start. -/
def Obligations.TrainingAndCalibrationLeadToReady : Prop :=
  (∀ (t : Nat) (b : BayIx) (port : Fin 4) (stack : Fin 12) (s : State), s.pwr.stage2Up = true →
    (portD2d b port = true → mget 0 s.boot.d2d (linkKey b port) = 0 →
      Next (exec (.d2dLinkTrainingDone t b port true) s) (fun u => mget 0 u.boot.d2d (linkKey b port) = 1 ∧ u.rtrs = s.rtrs) ∧
      Next (exec (.d2dLinkTrainingDone t b port false) s) fun u => mget 0 u.boot.d2d (linkKey b port) = 2 ∧
        (u.rtr b).linkDown.getLsbD port = true ∧
        ∀ c, nbr b port = .router c → (u.rtr c).linkDown.getLsbD (opposite port) = true) ∧
    (s.boot.hbmEnded.getLsbD stack = false → Next (exec (.hbmStackTrainingDone t stack true) s) fun u =>
      u.boot.hbmEnded.getLsbD stack = true ∧ u.boot.hbmUp.getLsbD stack = true ∧ u.ctx0 = s.ctx0 ∧ u.ctx1 = s.ctx1)) ∧
  (∀ (t : Nat) (res : BitVec 8) (exc : List (Nat × BitVec 8)) (lad : List (Nat × Int)) (s : State),
    (s.pwr.groups = 8 → s.sense.startCal = none → Next (exec (.startupCalibrationDone t res exc lad) s) fun u =>
      ∃ c, u.sense.startCal = some c ∧ c.at_ = max s.now t - s.leftOff ∧ c.res = res) ∧
    ((s.tick t).readyDue = true → s.plans = [] → Next (exec (.readyEntry t) s) fun u => u.mode = .ready ∧
      u.boot.startFences = [] ∧ u.boot.startSets = [] ∧
      ∀ b ∈ s.boot.startFences, mget 0 s.resil.fences b = 0 → mget 0 u.resil.fences b = 5) ∧
    ((s.tick t).readyDue = false → exec (.readyEntry t) s = .next (s.tick t)))

/-- The housekeeping converter (14 R386–R391): a conversion of the channel in turn, 1 µs or in low-power mode 4 µs after its start, is clamped to
its range, numbered and no longer STALE, a ladder's joins the 64 of its mean, and the scan goes on; a self-calibration, asked for or periodic (when the period starts is read by inference, log 200), makes every channel STALE; its end takes over coefficients
within their limits, and keeps the old ones and logs 0x8042 otherwise.
A change of the reference (14 R390): the state follows what channel 0 measured (absent below 250 mV, valid within 1.5% of 2.5 V, else
out of tolerance), a loss logs 0x8040 and a return 0x8041, and another calibration starts (DEDUCED, log 27). -/
def Obligations.ConverterCalibratesAndReferenceIsLogged : Prop :=
  (∀ (t : Nat) (ch : Fin 32) (code offset gain : Int) (ovr : Bool) (refMv bgMv : Nat) (s : State),
    let now := max s.now t
    let ends := s.sense.convAt + if s.sense.convLow then 4000 else 1000
    (now < ends → exec (.adcConversion t ch code ovr 0) s = .next (s.tick t)) ∧
    (s.sense.scanning = true → s.sense.calBusy = false → s.sense.cur = ch → ends ≤ now →
      Next (exec (.adcConversion t ch code ovr 0) s) fun u => let c := mget {} u.sense.chans ch
        let lo : Int := if ch = 0 ∨ ch = 2 then -2048 else 0
        let hi : Int := if ch = 0 ∨ ch = 2 then 2047 else 4095
        c.code = max lo (min hi code) ∧ (c.ovr = true ↔ ovr = true ∧ (code < lo ∨ hi < code)) ∧ c.stale = false ∧
        c.cnt = ((mget {} s.sense.chans ch).cnt + 1) % 256 ∧ u.sense.cur = s.sense.nextCh ch ∧ s.sense.enabled u.sense.cur = true ∧
        u.sense.convAt = now ∧ u.sense.convLow = s.sense.lowPower ∧ ∀ d : Nat, d < 16 → (mget ({} : Ladder) u.sense.ladders d).codes =
          if ch.val = 8 + d then (c.code :: (mget ({} : Ladder) s.sense.ladders d).codes).take 64 else (mget ({} : Ladder) s.sense.ladders d).codes) ∧
    (s.novkoUp = true → s.sense.calBusy = false →
      ∀ c ∈ Instr.hkSelfCal t :: (if s.sense.calPeriod = 0 ∨ now < s.sense.calAt + 1000000000 * s.sense.calPeriod then [] else [Instr.adcCalPeriod t]),
        Next (exec c s) fun u => u.sense.calBusy = true ∧ ∀ k, (mget {} u.sense.chans k).stale = true) ∧
    (s.sense.calBusy = true → classifyRef refMv = s.sense.refState → s.resil.coresUp ≠ 0 → s.mode = .ready →
      Next (exec (.adcSelfCalDone t offset gain refMv bgMv) s) fun u => u.sense.calBusy = false ∧ u.sense.scanning = true ∧
        if offset.natAbs ≤ 16 ∧ gain.natAbs ≤ 300 then
          u.sense.offset = offset ∧ u.sense.gain = gain ∧ u.sense.calFail = s.sense.calFail ∧ u.snags = s.snags
        else u.sense.offset = s.sense.offset ∧ u.sense.gain = s.sense.gain ∧ u.sense.calFail = true ∧
          ∃ r, u.snags = r :: s.snags ∧ r.code = 0x8042 ∧ r.args.head? = some (if offset.natAbs ≤ 16 then 1 else 0))) ∧
  (∀ (t : Nat) (offset gain : Int) (refMv bgMv : Nat) (s : State), s.sense.calBusy = true → s.novkoUp = true →
    offset.natAbs ≤ 16 → gain.natAbs ≤ 300 →
    let new := if refMv < 250 then 2 else if 4925 ≤ 2 * refMv ∧ 2 * refMv ≤ 5075 then 1 else 3
    new ≠ s.sense.refState → Next (exec (.adcSelfCalDone t offset gain refMv bgMv) s) fun u =>
      u.sense.refState = new ∧ u.sense.refEver = (s.sense.refEver || new == 1) ∧ u.sense.calBusy = true ∧
      if new = 1 then (if s.sense.refState = 0 then u.snags = s.snags else ∃ r, u.snags = r :: s.snags ∧ r.code = 0x8041)
      else ∃ r, u.snags = r :: s.snags ∧ r.code = 0x8040 ∧ r.args = [new, refMv, bgMv, 0])

/-- A ladder's trim (14 R391, R392): once a second, a mean of its last codes more than 0.05% off 0.8 V asks for one step towards it, unless the
channel is STALE, a lost reference holds the trim, or the trim would pass ±127, which logs snag 0x8050 once; the step is applied while no skim
runs on the die and settles within 200 ns. The mean is that of the codes there are where there are fewer than 64 (DEDUCED, log 200). -/
def Obligations.LadderTrimsStepTowardsTheTarget : Prop :=
  ∀ (t : Nat) (die : Fin 16) (s : State),
    let now := max s.now t
    let l : Ladder := mget {} s.sense.ladders die
    let mean := l.sum * 30000
    let target := 32768000 * l.codes.length
    let idle := (mean ≤ target + 16384 * l.codes.length ∧ target ≤ mean + 16384 * l.codes.length) ∨
      (mget {} s.sense.chans (8 + die)).stale = true ∨ s.sense.refState ≠ 1 ∧ s.sense.refEver = true
    let limit := if mean < target then 127 ≤ l.trim else l.trim ≤ -127
    let due := ∀ a, s.sense.trimAt = some a → a + 1000000000 ≤ now
    (s.novkoUp = true → due → l.trim.natAbs ≤ 127 → Next (exec (.ladderTrimTick t) s) fun u =>
      let k : Ladder := mget {} u.sense.ladders die
      u.sense.trimAt = some now ∧ k.trim = l.trim ∧ k.codes = l.codes ∧ k.step = (if idle ∨ limit then 0 else if mean < target then 1 else -1) ∧
      if ¬idle ∧ limit ∧ l.limited = false then k.limited = true ∧ ∃ r ∈ u.snags, r.code = 0x8050 ∧ r.args.head? = some die.val
      else k.limited = l.limited ∧ ∀ r ∈ u.snags, r.code = 0x8050 → r.args.head? = some die.val → r ∈ s.snags) ∧
    (¬due → exec (.ladderTrimTick t) s = .next (s.tick t)) ∧
    (s.skimRunning die = false → Next (exec (.ladderStepApply t die) s) fun u => let k : Ladder := mget {} u.sense.ladders die
      k.trim = l.trim + l.step ∧ k.step = 0 ∧ (l.step ≠ 0 → now ≤ k.settled ∧ k.settled ≤ now + 200)) ∧
    (s.skimRunning die = true → exec (.ladderStepApply t die) s = .next (s.tick t))

/-- A sensor's readings (14 R398–R400), 100 µs apart or more: one in range that agrees with its group is taken, and its band rises at each limit and falls
2 °C below it; one out of range, or 1 ms of silence, breaks the sensor until OFF, which then reports the hottest working sensor of its group
plus 5 °C, or 105 °C.
A leaf's thermal level (14 R401): it rises by one at a reading of THR_ON or more, at most once a millisecond and up to 3, and falls by
one at a reading below THR_OFF, 10 ms after its last change; leaving level 0 sets THROTTLE. -/
def Obligations.SensorsAndThermalLevels : Prop :=
  (∀ (t : Nat) (n : Fin 48) (v : Int) (s : State), s.sensorPowered n = true → (s.sensor n).broken = false →
    let lim : Nat → Int := fun k => match k with | 0 => 720 | 1 => 1120 | _ => 1440
    let sub : Int := match s.hottest (s.substGroup n) with | some h => h + 80 | none => 1680
    let now := max s.now t
    let due := ∀ a, (s.sensor n).at_ = some a → a + 100000 ≤ now
    let broke (u : State) (cause : Nat) : Prop := (u.sensor n).broken = true ∧ (u.sensor n).val = sub ∧ u.sense.brokenSeen = true ∧
      (s.novkoUp = true → ∃ r ∈ u.snags, r.code = 0x8031 ∧ r.args.take 2 = [n.val, cause])
    (¬due → exec (.sensorReading t n v 0) s = .next (s.tick t)) ∧
    (due → (∀ h, s.hottest (s.substGroup n) = some h → (v - h).natAbs ≤ 320) → -320 ≤ v → v ≤ 2240 → (s.sensor n).band ≤ 3 →
      Next (exec (.sensorReading t n v 0) s) fun u => (u.sensor n).val = v ∧ (u.sensor n).good = v ∧ (u.sensor n).seen = true ∧
        (u.sensor n).broken = false ∧ (u.sensor n).differs = 0 ∧ (u.sensor n).at_ = some now ∧ (u.sensor n).band ≤ 3 ∧
        ∀ k < 3, k < (u.sensor n).band ↔ lim k ≤ v ∨ k < (s.sensor n).band ∧ lim k - 32 < v) ∧
    (due → (v < -320 ∨ 2240 < v) → Next (exec (.sensorReading t n v 0) s) fun u => broke u 1) ∧
    if s.sensorSince n + 1000000 ≤ now then Next (exec (.sensorSilent t n) s) fun u => broke u 0
    else exec (.sensorSilent t n) s = .next (s.tick t)) ∧
  (∀ (t : Nat) (n : Fin 48) (v : Int) (s : State), n.val < 32 → s.sensorPowered n = true → (s.sensor n).broken = false → -320 ≤ v → v ≤ 2240 →
    (∀ h, s.hottest (s.substGroup n) = some h → (v - h).natAbs ≤ 320) → (∀ a, (s.sensor n).at_ = some a → a + 100000 ≤ max s.now t) →
    let x := s.leaf n
    let age (a : Option Nat) (ms : Nat) : Prop := ∀ k, a = some k → k + ms * 1000000 ≤ max s.now t
    let rises := 16 * (s.sense.thrOn.toNat : Int) ≤ v ∧ x.level < 3 ∧ age x.rose 1
    let falls := v < 16 * (s.sense.thrOff.toNat : Int) ∧ 0 < x.level ∧ age x.changed 10
    Next (exec (.sensorReading t n v 0) s) fun u =>
      (rises → (u.leaf n).level = x.level + 1 ∧ (u.leaf n).rose = some (max s.now t) ∧ (x.level = 0 → u.sense.throttle = true)) ∧
      (¬rises → falls → (u.leaf n).level + 1 = x.level ∧ (u.leaf n).changed = some (max s.now t) ∧ (u.leaf n).rose = x.rose) ∧
      (¬rises → ¬falls → (u.leaf n).level = x.level ∧ (u.leaf n).rose = x.rose ∧ (u.leaf n).changed = x.changed) ∧
      (u.leaf n).skip = s.sense.thrMode ∧ ∀ m ≠ n.val, u.leaf m = s.leaf m)

/-- Power windows, the manual divider, the crossing counter and the end of a skip hold (12 R347; 14 R402–R404, R407): each writes its own
registers. A window of 1 ms or more ends with the means of the input voltage and power over it, each value counted as long as it stood (DEDUCED,
log 200; a power outside P_IN's 16 bits is open, log 201); a divider that neither acted nor will act is no intrusion (05 R171); a hold ends
when it has lasted as long as the stroke before it, up to 10 µs. -/
def Obligations.PowerWindowsAndHousekeepingWrites : Prop :=
  ∀ (t : Nat) (l : List Nat) (leaf : Fin 32) (v : BitVec 2) (b : BayIx) (s : State),
    let now := max s.now t
    let from_ := max s.sense.winAt s.leftOff
    let d : Int := ((now - from_ : Nat) : Int)
    let late : Int := ((now - max s.sense.areaAt from_ : Nat) : Int)
    let vin : Int := (s.sense.areaV + (mget {} s.sense.chans 1).code * late) * 7200 / (4096 * d)
    let pin : Int := (s.sense.areaP + s.sense.power * late) * 230400 / (2 ^ 24 * d)
    (s.pwr.stage1Up = true → from_ + 1000000 ≤ now → Next (exec (.powerWindow t l) s) fun u => u.sense.vin = vin.toNat % 2 ^ 16 ∧
      u.sense.pin < 2 ^ 16 ∧ (0 ≤ pin → pin < 2 ^ 16 → u.sense.pin = pin.toNat) ∧
      u.sense.winAt = now ∧ u.sense.areaAt = now ∧ u.sense.areaV = 0 ∧ u.sense.areaP = 0 ∧
      (∀ n : Nat, n < 32 → u.leaf n = { s.leaf n with power := l.getD n 0 % 2 ^ 16 }) ∧
      if 99 ≤ s.snap.windows then u.snap.windows = 0 ∧ u.snap.meanIn = s.snap.sumIn + u.sense.pin ∧ u.snap.sumIn = 0
      else u.snap.windows = s.snap.windows + 1 ∧ u.snap.meanIn = s.snap.meanIn ∧ u.snap.sumIn = s.snap.sumIn + u.sense.pin) ∧
    (now < from_ + 1000000 → exec (.powerWindow t l) s = .next (s.tick t)) ∧
    Next (exec (.manualDivWrite t leaf v) s) (fun u => ∀ n : Nat,
      u.leaf n = (if n = leaf.val then { s.leaf n with manual := v } else s.leaf n) ∧
      ((s.leaf leaf).manual = 0 → v = 0 → u.intr = s.intr)) ∧
    exec (.hkXingCntClr t) s = .next { s.tick t with sense := { s.sense with xingMerged := 0 } } ∧
    Next (exec (.skipHoldEnd t b) s) fun u => ∀ c : Nat, u.bay c =
      if c = b.val ∧ (s.bay b).holdTill ≤ now then { s.bay b with skipHold := false, holdTill := 0 } else s.bay c

/-- PANEL_OP_START (02 R49, R53, R62, R66; 14 R392): an issued operation starts on the trim set of its leaf's band. A skim and a compute whose bank no row
access holds start; a compute whose skim is due skims first; one whose bank a row access holds waits, setting WR_HELD; illegal
parameters end the panel's part at once with OP_ERR; a skim that meets a ladder step that settles waits, an intrusion; an input in a waking segment is waited for (04 R115).
COMPUTE_OP_COMPLETE and SKIM_COMPLETE (02 R53, R54, R67; 14 R394): the panel's part of the stroke ends. An operation leaves the cells alone and
its counters never fall; a skim stores the residual and its time in the latched trim set. The stroke's scratchpad part is taken to be
open still: what the last part to end does is a statement of its own. -/
def Obligations.PanelOperationsStartAndComplete : Prop :=
  (∀ (t : Nat) (b : BayIx) (p : PanelIx) (o : PanelOp) (r : Running) (s : State),
    (s.panel (pkey b p)).op = some o → o.started = false → o.skimming = false → (s.bay b).seq.cur = some r →
    let x := s.panel (pkey b p)
    let bank := x.resolve (bankSel (fld o.w2 2 2))
    let held := ∃ a, x.rowCur = some (bank, a)
    let skim (set : Nat) := (s.tick t).skimDue (pkey b p) set (o.w2.getLsbD 4) = true
    if (s.bay b).waking (panelAccesses (s.bay b).seq r.word) = true then exec (.panelOpStart t b p) s = .next (s.tick t) else
    (∀ set, s.leafBand (leafOf b) = some set → o.compute = true → panelSegs o.w2 ≠ none → held →
      Next (exec (.panelOpStart t b p) s) fun u => (u.panel (pkey b p)).wrHeld = true ∧ (u.panel (pkey b p)).op = some o) ∧
    (∀ set, s.leafBand (leafOf b) = some set → o.compute = true → panelSegs o.w2 ≠ none → ¬held → skim set →
      Next (exec (.panelOpStart t b p) s) fun u => (u.panel (pkey b p)).op = some { o with skimming := true } ∧
        (u.panel (pkey b p)).trimSet = some (BitVec.ofNat 2 set)) ∧
    (∀ set, s.leafBand (leafOf b) = some set → o.compute = true → panelSegs o.w2 ≠ none → ¬held → ¬skim set →
      Next (exec (.panelOpStart t b p) s) fun u =>
        let exact := o.w2.getLsbD 14
        let mask : BitVec 4 := BitVec.ofNat 4 (fld o.w2 7 4)
        (u.panel (pkey b p)).trimSet = some (BitVec.ofNat 2 set) ∧
        (∃ q, (u.panel (pkey b p)).op = some q ∧ q.w2 = o.w2 ∧ q.desc = o.desc ∧ q.started = true ∧ q.bank = bank ∧
          q.exactBands = (if exact then mask &&& x.guard bank else 0)) ∧
        (u.panel (pkey b p)).exactLost = (x.exactLost || exact && mask &&& ~~~(x.guard bank) != 0) ∧
        (u.panel (pkey b p)).cells = x.cells ∧ (u.panel (pkey b p)).acc = x.acc ∧ ∀ j, j ≠ pkey b p → u.panel j = s.panel j) ∧
    (∀ set, s.leafBand (leafOf b) = some set → o.compute = false →
      Next (exec (.panelOpStart t b p) s) fun u => (u.panel (pkey b p)).op = some { o with started := true } ∧
        (u.panel (pkey b p)).trimSet = some (BitVec.ofNat 2 set) ∧
        if max s.now t < (mget ({} : Ladder) s.sense.ladders (dieOf b)).settled then (7, max s.now t) ∈ u.intr else u.intr = s.intr) ∧
    (o.compute = true → panelSegs o.w2 = none → r.sp = true →
      Next (exec (.panelOpStart t b p) s) fun u => (u.panel (pkey b p)).op = none ∧ (u.panel (pkey b p)).opErr = true ∧
        (u.bay b).seq.cur = some { r with panels := r.panels.erase p }) ∧
    (s.leafBand (leafOf b) = none → (o.compute = true → panelSegs o.w2 ≠ none) → exec (.panelOpStart t b p) s = .next (s.tick t))) ∧
  (∀ (t : Nat) (b : BayIx) (p : PanelIx) (o : PanelOp) (s : State), (s.panel (pkey b p)).op = some o →
    let x := s.panel (pkey b p)
    (∀ r devs, o.compute = true → o.started = true → o.skimming = false → (s.bay b).seq.cur = some r → r.sp = true →
      Next (exec (.computeOpComplete t b p devs []) s) fun u =>
        let y := u.panel (pkey b p)
        y.op = none ∧ (u.bay b).seq.cur = some { r with panels := r.panels.erase p } ∧ y.cells = x.cells ∧
        y.guardA = x.guardA ∧ y.guardB = x.guardB ∧ y.trims = x.trims ∧ x.sats &&& y.sats = x.sats ∧
        min x.satCnt 0xFFFFFFFF ≤ y.satCnt ∧ min x.misCnt 0xFFFF ≤ y.misCnt ∧ min x.skipCnt 0xFFFF ≤ y.skipCnt ∧
        (u.bay b).sp = (s.bay b).sp ∧ ∀ j, j ≠ pkey b p → u.panel j = s.panel j) ∧
    (∀ res set r, x.trimSet = some set → o.compute = false → o.started = true → o.skimming = false →
      (s.bay b).seq.cur = some r → r.sp = true → Next (exec (.skimComplete t b p res) s) fun u =>
        let y := u.panel (pkey b p)
        y.op = none ∧ (u.bay b).seq.cur = some { r with panels := r.panels.erase p } ∧ y.cells = x.cells ∧ y.acc = x.acc ∧
        ∃ z, mget none y.trims set.toNat = some z ∧ z.res = res ∧ z.mode = o.w2.getLsbD 4 ∧
          (if o.w2.getLsbD 4 then z.tim else z.cur) = some (max s.now t - s.leftOff)) ∧
    (∀ res set, x.trimSet = some set → o.skimming = true → Next (exec (.skimComplete t b p res) s) fun u =>
      let y := u.panel (pkey b p)
      y.op = some { o with skimming := false } ∧ y.cells = x.cells ∧ y.acc = x.acc ∧
      ∃ z, mget none y.trims set.toNat = some z ∧ z.res = res))

/-- An exact band loses nothing (02 R50, R52, R55): with no converter off its ideal code, the value passed for a column is the number of driven
rows whose cell in that column is 1, no column clips, and the plane's active rows are the driven rows. -/
def Obligations.ExactBandsCountEveryProduct : Prop :=
  ∀ (rows : Nat → Nat) (o : PanelOp) (witEn : Bool) (tol cnt k n col : Nat) (c : Conv), o.w2.getLsbD 4 = false →
    o.exactBands.getLsbD n = true → col < 1024 →
    let driven := drivenRows o.inp (256 * n) 256 k true
    let y := convertSeg rows o [] witEn tol cnt k (n, 256 * n, 256, 2 ^ n) c
    y.1.getD col 0 = (driven.filter fun q => (rows q).testBit col).length ∧ y.2.1 = driven.length ∧
    y.2.2.sats = c.sats ∧ y.2.2.clips = c.clips ∧ y.2.2.skips = c.skips

/-- An operation that runs exactly computes the dot product (02 R47, R49, R52; 03 R83–R87): with every masked band exact, no converter off its
ideal code and nothing accumulated before, output `j` is the sum over the masked bands' rows but the guard rows of input times weight,
inputs in P-bit and weights in W-bit two's complement where signed, and ±1 for one-bit weights. -/
def Obligations.ExactOperationComputesTheDotProduct : Prop :=
  ∀ (t n : Nat) (g : Bool) (b : BayIx) (p : PanelIx) (o : PanelOp) (r : Running) (s : State),
    (s.panel (pkey b p)).op = some o → o.compute = true → o.started = true → o.skimming = false → (s.bay b).seq.cur = some r → r.sp = true →
    panelSegs o.w2 ≠ none → o.w2.getLsbD 4 = false → o.w2.getLsbD 17 = false → o.exactBands = BitVec.ofNat 4 (fld o.w2 7 4) →
    Fmt.ofDesc o.desc = .int n g → o.inp.length = 1024 →
    let x := s.panel (pkey b p)
    let w := x.width o.bank
    let input (q : Nat) : Int := if g then twos (panelPlanes o.w2) (o.inp.getD q 0) else (o.inp.getD q 0 % 2 ^ panelPlanes o.w2 : Nat)
    let weight (q j : Nat) : Int :=
      let v := ((s.rowOf (pkey b p) o.bank q).extractLsb' (w * j) w).toNat
      if w = 1 then 2 * (v : Int) - 1 else if x.weightSigned o.bank then twos w v else v
    Next (exec (.computeOpComplete t b p [] []) s) fun u => ∀ j < 1024 / w, mget 0 (u.panel (pkey b p)).acc j =
      ((List.range 4).map fun band => if o.exactBands.getLsbD band then
        ((List.range 255).map fun i => input (256 * band + i) * weight (256 * band + i) j).sum else 0).sum

/-- The witness columns agree with clean data (02 R56, R57): in an exact band whose rows hold the witness bits computed from their data, no
comparison mismatches, whatever the data and the input. -/
def Obligations.ExactWitnessAgreesWithCleanRows : Prop :=
  ∀ (data : Nat → BitVec 1024) (o : PanelOp) (witEn : Bool) (tol cnt k n : Nat) (c : Conv), o.w2.getLsbD 4 = false →
    o.exactBands.getLsbD n = true →
    let y := convertSeg (fun q => (cellsOf (data q)).toNat) o [] witEn tol cnt k (n, 256 * n, 256, 2 ^ n) c
    y.2.2.miss = c.miss ∧ y.2.2.cap = c.cap

/-- The row port (02 R48, R56, R59–R63): accesses start in arrival order unless an operation holds their bank, and a write that
has only started changes no cell; when its second beat arrives the data, the witness bits and the guard bit of its row change together
and nothing of any other row; a read of a row whose bits have not changed changes no
cell, reports nothing, and hands the stroke the row's three lines. The last row of a message tells CTL that the panel is done. -/
def Obligations.RowPortStartsWritesAndReads : Prop :=
  ∀ (t : Nat) (b : BayIx) (p : PanelIx) (s : State),
    let x := s.panel (pkey b p)
    (∀ a q, x.rowCur = none → x.rowQ = a :: q →
      (a.src = .stroke → ∀ r, (s.bay b).seq.cur = some r → (s.bay b).waking (panelAccesses (s.bay b).seq r.word) = false) →
      Next (exec (.rowAccessStart t b p) s) fun u =>
      if x.opOn (x.resolve a.bank) = true ∨ s.opFirst b (pkey b p) (x.resolve a.bank) = true
      then u.panel (pkey b p) = { x with wrHeld := true } else u.panel (pkey b p) = { x with rowQ := q, rowCur := some (x.resolve a.bank, a) }) ∧
    (∀ bank a d, x.rowCur = some (bank, a) → bank < 2 → a.row < 1024 → a.data = some d → Next (exec (.rowWriteCommit t b p) s) fun u =>
      u.rowOf (pkey b p) bank a.row = cellsOf d ∧
      (∀ bk row, bk < 2 → row < 1024 → (bk, row) ≠ (bank, a.row) → u.rowOf (pkey b p) bk row = s.rowOf (pkey b p) bk row) ∧
      (∀ bk n, bk < 2 → n < 4 → ((u.panel (pkey b p)).guard bk).getLsbD n =
        if bk = bank ∧ a.row = 256 * n + 255 then d == 0 else (x.guard bk).getLsbD n)) ∧
    (∀ bank a d, x.rowCur = some (bank, a) → a.data = some d →
      ((∃ l, a.src = .message l) ∨ a.src = .stroke ∧ ∃ r, (s.bay b).seq.cur = some r ∧ r.sp = true) →
      Next (exec (.rowWriteCommit t b p) s) fun u => (u.panel (pkey b p)).rowCur = none ∧
        (∀ j, j ≠ pkey b p → u.panel j = s.panel j) ∧
        if a.src = .message true then s.heard b → u.out = .bayMsg b (.panelDone p s.gen) :: s.out else u.out = s.out) ∧
    (∀ bank a r d, x.rowCur = some (bank, a) → a.data = none → a.src = .stroke → (s.bay b).seq.cur = some r → r.sp = true →
      s.rowOf (pkey b p) bank a.row = cellsOf d → Next (exec (.rowReadComplete t b p []) s) fun u =>
        u.panel (pkey b p) = { x with rowCur := none } ∧ u.snags = s.snags ∧
        ∃ r', (u.bay b).seq.cur = some r' ∧ r'.rows = r.rows.erase p ∧
          (r'.writes.drop r.writes.length).map (fun w => (w.line, w.data)) =
            [(stInLine r.word, d.extractLsb' 0 512), (stInLine r.word + 1, d.extractLsb' 512 512),
             (stInLine r.word + 2, BitVec.ofNat 512 (witnessOf d))])

/-- A panel's registers (02 R58, R63, R70, R71): clearing the counters, the mismatch bit with its capture's VALID bit, and the named saturation
bits changes nothing else, and LIVE changes at a stroke boundary or waits for the next. -/
def Obligations.PanelRegistersClearAndSwitch : Prop :=
  ∀ (t : Nat) (b : BayIx) (p : PanelIx) (v : Word) (live : Bool) (s : State),
    let x := s.panel (pkey b p)
    let only (c : Instr) (y : Panel) : Prop := Next (exec c s) fun u => u.panel (pkey b p) = y ∧ (∀ j, j ≠ pkey b p → u.panel j = s.panel j) ∧
      u.bays = s.bays ∧ u.rtrs = s.rtrs ∧ u.snags = s.snags
    only (.pnlCntClr t b p) { x with satCnt := 0, misCnt := 0, skipCnt := 0 } ∧
    only (.pnlWitMismatchClear t b p) { x with witMismatch := false, cap := (x.cap.getD 0 0 % 2 ^ 31) :: x.cap.drop 1 } ∧
    (x.winSel.toNat < 0x24 → ∃ sats, only (.pnlWinDataClear t b p v) { x with sats := sats } ∧
      ∀ i < 1136, sats.getLsbD i = (x.sats.getLsbD i && !(i / 32 == x.winSel.toNat && v.getLsbD (i % 32)))) ∧
    ((s.bay b).atBoundary = true → only (.pnlLiveWrite t b p live) { x with live := live }) ∧
    ((s.bay b).atBoundary = false → only (.pnlLiveWrite t b p live) { x with stg := { x.stg with live := some live } })

/-- STROKE_START (04 R108, R125–R127; 05 R137, R152): a running bay at a boundary starts its next stroke once its wait flags are all 1 and no
swap hold stands: the wait flags clear, but for those set at this same instant, the stroke sees the scratchpad as it stands and issues its panel operations. Until then the
bay is left as it is, an armed hold counting as an intrusion; a flag or queue outside the allocation halts the bay. -/
def Obligations.StrokesStartOnTheirWaitFlags : Prop :=
  ∀ (t prog : Nat) (b : BayIx) (w : BitVec 256) (s : State),
    let y := s.bay b
    y.seq.prog = some prog → y.seq.running = true → y.seq.halted = false → y.seq.cur = none → y.skipHold = false →
    y.seq.strokes[y.seq.pc]? = some w → stAudit w = false →
    (∀ e, y.outOfBounds w = some e → y.seq.stop = false → (∀ p ∈ s.plans, p.stopping = false) → Next (exec (.strokeStart t b []) s) fun u => (u.bay b).seq.halted = true ∧ (u.bay b).boundErr = true) ∧
    (y.outOfBounds w = none → (stWaits w).all y.flag = false → Next (exec (.strokeStart t b []) s) fun u =>
      u.bay b = y ∧ u.panels = s.panels ∧ u.intr = s.intr) ∧
    (y.outOfBounds w = none → (stWaits w).all y.flag = true → y.held w = true → Next (exec (.strokeStart t b []) s) fun u =>
      u.bay b = y ∧ u.panels = s.panels ∧ (4, max s.now t) ∈ u.intr) ∧
    (y.outOfBounds w = none → (stWaits w).all y.flag = true → y.held w = false → Next (exec (.strokeStart t b []) s) fun u =>
      (∃ r, (u.bay b).seq.cur = some r ∧ r.word = w ∧ r.snap = y.sp ∧ r.segs = y.segMask ∧ r.sp = true ∧ r.writes = [] ∧
        r.panels = if stKind w = 1 ∨ stKind w = 2 then stPanels w else []) ∧
      (∀ i < 256, (u.bay b).flag i = ((y.flag i && !(stWaits w).contains i) || y.flagsKept.getLsbD i)) ∧ (u.bay b).flagsKept = 0 ∧
      (u.bay b).sp = y.sp ∧ (u.bay b).strokeCnt = y.strokeCnt ∧ (u.bay b).seq.pc = y.seq.pc ∧ (∀ c : Nat, c ≠ b.val → u.bay c = s.bay c) ∧
      (stKind w = 1 ∨ stKind w = 2 → ∀ p ∈ stPanels w, ∃ o, (u.panel (pkey b p)).op = some o ∧ o.w2 = w.extractLsb' 64 32 ∧
        o.started = false ∧ (u.panel (pkey b p)).cells = (s.panel (pkey b p)).cells))

/-- SCRATCHPAD_ACCESSES_COMPLETE and DRAIN_COMPLETE (03 R89; 04 R109, R110, R115, R134; 05 R137, R147, R169): accesses wait for a waking segment;
bank conflicts are counted once they are made; a drain's outputs join the stroke's writes; and with the last part the stroke ends: its writes land, its
count rises by one, its flags set, and its successor is next. -/
def Obligations.StrokesEndWithTheirLastPart : Prop :=
  ∀ (t : Nat) (b : BayIx) (r : Running) (s : State), (s.bay b).seq.cur = some r → r.sp = true →
    let y := s.bay b
    let acc := servedOrder y.seq r.word (s.xferLink b)
    let clean := ∀ a ∈ acc, a.line < 6144 ∧ r.segs.getLsbD (segOf a.line) = true ∧
      (mget ({} : Seg) y.segs (segOf a.line)).waking = false ∧ (a.write = true ∨ (r.raw a.line).flips = 0)
    (clean → ({ r with sp := false } : Running).complete = false → Next (exec (.scratchpadAccessesComplete t b) s) fun u =>
      u.bay b = { y with seq := { y.seq with cur := some { r with sp := false } },
                         conflicts := min (y.conflicts + conflictsOf acc) 0xFFFFFFFF } ∧
      u.panels = s.panels ∧ u.snags = s.snags) ∧
    (y.waking acc = true → exec (.scratchpadAccessesComplete t b) s = .next (s.tick t)) ∧
    (∀ vals, r.drain = some vals → y.waking (drainAccesses y.seq r.word) = true → exec (.drainComplete t b []) s = .next (s.tick t)) ∧
    (∀ vals, r.drain = some vals → y.waking (drainAccesses y.seq r.word) = false → Next (exec (.drainComplete t b []) s) fun u => ∃ q, (u.bay b).seq.cur = some q ∧ q.drain = none ∧
      q.writes = r.writes ++ (drainAll y.seq r.word (r.rd s.freeVal) vals).1 ∧ (q.crc.isSome = r.watch) ∧
      q.panels = r.panels ∧ q.rows = r.rows ∧ q.xfers = r.xfers ∧ q.unit = r.unit ∧ (u.bay b).sp = y.sp ∧ u.panels = s.panels ∧
      ((drainAll y.seq r.word (r.rd s.freeVal) vals).2.all (fun e => e.2.isEmpty) = true → (u.bay b).reqSat = y.reqSat ∧ u.snags = s.snags)) ∧
    (clean → ({ r with sp := false } : Running).complete = true → r.crc = none → stEnd r.word = false → sw r.word 6 24 4 = 0 →
      (stSets r.word).all (fun f => decide (f < 256) && !y.flag f) = true → (stSets r.word).Nodup →
      Next (exec (.scratchpadAccessesComplete t b) s) fun u => (u.bay b).seq.cur = none ∧
        (u.bay b).strokeCnt = (y.strokeCnt + 1) % 2 ^ 64 ∧ (u.bay b).seq.pc = y.seq.pc + 1 ∧ (u.bay b).seq.prog = y.seq.prog ∧
        (∀ i < 256, (u.bay b).flag i = (y.flag i || (stSets r.word).contains i)) ∧
        (∀ x, r.writes = [x] → x.client < 8 → x.mask = BitVec.allOnes 64 → y.lineOn x.line = true →
          (u.bay b).line x.line = { data := x.data, flips := x.flips } ∧ ∀ l, l ≠ x.line → (u.bay b).line l = y.line l) ∧
        (r.writes = [] → (u.bay b).sp = y.sp) ∧ u.snags = s.snags)

/-- A bay's segments and registers (04 R111, R114, R115, R125, R126, R132–R136; 05 R174): segments wake and sleep at their time; the counters clear; a
read of the stroke count latches its upper half; data accesses queue, and each is served at ADDR, which AUTO_INC then advances; 1s written to a flag
word set its flags, one already set that no start clears at that instant overrunning; a fault window that closes after 1 µs sends its
notice; and while the bay runs, its modes and allocation are locked. -/
def Obligations.BaySegmentsAndRegisters : Prop :=
  ∀ (t : Nat) (b : BayIx) (seg : Fin 4) (v : Word) (wr : Option Word) (n : Fin 8) (s : State),
    let y := s.bay b
    let sg := mget ({} : Seg) y.segs seg
    (sg.waking = true → Next (exec (.segmentWakeDone t b seg) s) fun u =>
      mget ({} : Seg) (u.bay b).segs seg = { sg with waking := false, zeroing := false } ∧ (u.bay b).sp = y.sp) ∧
    (∀ m, sg.goal = some m → m ≠ .on → y.seq.cur = none → Next (exec (.segmentSleep t b seg) s) fun u =>
      mget ({} : Seg) (u.bay b).segs seg = { mode := m } ∧
      ∀ l, (u.bay b).line l = if m = .off ∧ l / 1536 = seg.val then {} else y.line l) ∧
    Next (exec (.bayCntClr t b) s) (fun u => u.bay b =
      { y with conflicts := 0, reqSatCnt := 0, accOvfCnt := 0, inSatCnt := 0, flagOvrCnt := 0, staleCnt := 0, uncorr := 0, corr := 0 }) ∧
    Next (exec (.bayStrokeCntRead t b) s) (fun u => u.bay b = { y with cntHi := BitVec.ofNat 32 (y.strokeCnt / 2 ^ 32) } ∧
      u.out = .regRead 0x20 (BitVec.ofNat 32 y.strokeCnt) (s.streamOf 0) :: s.out) ∧
    Next (exec (.baySpDataAccess t b wr) s) (fun u =>
      u.bay b = { y with mgmt := y.mgmt ++ [match wr with | some v => .spWrite v | none => .spRead] }) ∧
    (∀ q, y.seq.cur = none → y.seq.running = false → y.flipsDue = 0 → y.budgetStg = none → y.autoIncStg = none → y.spAddrStg = none →
      y.budget = 1 → y.mgmt = .spRead :: q → (y.line (y.spByte / 64)).flips = 0 → y.lineOn (y.spByte / 64) = true →
      (mget ({} : Seg) y.segs (segOf (y.spByte / 64))).waking = false → Next (exec (.mgmtAccessServe t b) s) fun u =>
        u.out = .regRead 0x44 (wordOf (y.line (y.spByte / 64)).data y.spByte) (s.streamOf 0) :: s.out ∧ (u.bay b).mgmt = q ∧
        (u.bay b).spAddr = if y.autoInc then y.spAddr + 4 else y.spAddr) ∧
    Next (exec (.bayFlagsWrite t b n v) s) (fun u => (∀ i < 256, (u.bay b).flag i = (y.flag i || (i / 32 == n.val && v.getLsbD (i % 32)))) ∧
      ((u.bay b).flagOvr = true ↔ y.flagOvr = true ∨ ∃ i < 32, v.getLsbD i = true ∧ y.flag (32 * n.val + i) = true ∧
        (s.tick t).clearsNow b (32 * n.val + i) = false)) ∧
    (∀ g, y.det = some g → (max s.now t < g.at_ + gatherNs → exec (.faultWindowClose t b) s = .next (s.tick t)) ∧
      (g.at_ + gatherNs ≤ max s.now t → Next (exec (.faultWindowClose t b) s) fun u => u.bay b = { y with det := none } ∧
        (s.heard b → u.out = .bayMsg b (.fault s.gen g.kinds g.panels g.cnt) :: s.out))) ∧
    (y.seq.running = true → sg.mode ≠ segModeOf (fld v (2 * seg.val) 2) → Next (exec (.baySegCtrlWrite t b v) s) fun u =>
      u.bay b = { y with cfgLocked := true }) ∧
    (y.seq.running = false → sg.goal = none → Next (exec (.baySegCtrlWrite t b v) s) fun u =>
      let m := segModeOf (fld v (2 * seg.val) 2)
      mget ({} : Seg) (u.bay b).segs seg = if m = sg.mode then sg else if sg.mode = .on then { sg with goal := some m }
        else if m = .on then { mode := .on, waking := true, zeroing := sg.mode == .off } else { mode := m }) ∧
    (y.seq.running = true → y.allocValid = true → Next (exec (.bayAllocInvalidate t b) s) fun u => u.bay b = { y with cfgLocked := true }) ∧
    (y.seq.running = false → Next (exec (.bayAllocInvalidate t b) s) fun u => (u.bay b).allocValid = false ∧
      (y.allocValid = true → (u.bay b).flags = 0 ∧ (u.bay b).queues.all (fun e => e.2.items.isEmpty) = true ∧ (u.bay b).seq.halted = false))

/-- Messages and lines that reach a bay (04 R111, R125, R126, R128, R129; 06 R189, R190, R428; 09 R265): with its local port open and the
current generation, a firmware message in form joins the management queue as one access a line, a queue push joins its queue behind all
that arrive with it and overruns a full one, a flag set acts on arrival, and a data line with a receive entry enters its ejection buffer; management accesses are served at a boundary. -/
def Obligations.MessagesReachTheBay : Prop :=
  ∀ (t src : Nat) (b : BayIx) (h l0 l1 : MLine) (s : State), s.localClosed b = false → s.heldInReset = false →
    let y := s.bay b
    let form (stream : Nat) (ms : List MLine) : Prop := ∀ m ∈ ms, hKind m.hdr = 0 ∧ hStream m.hdr = stream ∧ 2 ≤ hVc m.hdr ∧ hGen m.hdr = s.gen
    let bank : BankSel := if headBytes h 1 1 = 0 then .a else .b
    let queued (c : Instr) (l : List Mgmt) : Prop := Next (exec c s) fun u => u.bay b = { y with mgmt := y.mgmt ++ l }
    (∀ l x q, y.seq.cur = none → y.seq.running = false → y.flipsDue = 0 → y.budgetStg = none → y.autoIncStg = none → y.spAddrStg = none →
      y.budget = 1 → y.mgmt = .write l x :: q → y.lineOn l = true →
      (mget ({} : Seg) y.segs (segOf l)).waking = false → Next (exec (.mgmtAccessServe t b) s) fun u =>
        (u.bay b).mgmt = q ∧ (u.bay b).line l = x ∧ ∀ k, k ≠ l → (u.bay b).line k = y.line k) ∧
    (mget none (s.rtr b).localIn (hVc h.hdr) = none →
      (∀ l, form 0xF20 [h, l0, l1] → headBytes h 0 2 = l → headBytes h 2 2 = 2 → headBytes h 4 60 = 0 → l + 2 ≤ 6144 →
        queued (.scratchpadWriteMessage t src b [h, l0, l1]) [.head, .write l l0.line, .write (l + 1) l1.line]) ∧
      (∀ l, form 0xF21 [h] → headBytes h 0 2 = l → headBytes h 2 2 = 2 → headBytes h 4 4 = 0 → headBytes h 16 48 = 0 → l + 2 ≤ 6144 →
        queued (.scratchpadReadMessage t src b h) [.head, .read l (BitVec.ofNat 64 (headBytes h 8 8)) false,
          .read (l + 1) (BitVec.ofNat 64 (headBytes h 8 8)) true]) ∧
      (form 0xFE1 [h] → headBytes h 0 1 < 32 → headBytes h 1 1 < 2 → headBytes h 2 2 < 1024 → headBytes h 4 4 = 0 → headBytes h 16 48 = 0 →
        queued (.rowReadback t src b h) [.rowRead (headBytes h 0 1)
          { bank := bank, row := headBytes h 2 2, data := none, src := .readback (BitVec.ofNat 64 (headBytes h 8 8)) }]) ∧
      (form 0xFE0 [h, l0, l1] → headBytes h 0 1 < 32 → headBytes h 1 1 < 2 → headBytes h 2 2 < 1024 → headBytes h 4 60 = 0 →
        l0.line.flips = 0 → l1.line.flips = 0 → queued (.weightRow t src b [h, l0, l1]) [.head, .rowData, .rowWrite (headBytes h 0 1)
          { bank := bank, row := headBytes h 2 2, data := some (l1.line.data ++ l0.line.data),
            src := .message (headBytes h 2 2 == 1023) }]) ∧
      (∀ i, i < 32 → form (0xF00 + i) [h] → (y.queue i).items.length < 16 → Next (exec (.mgmtQueuePush t src b h) s) fun u =>
        let n := (y.queue i).items.length - if (y.queue i).at_ = max s.now t then ((y.queue i).fresh.filter (6 < ·)).length else 0
        ((u.bay b).queue i).items = (y.queue i).items.take n ++ h.line :: (y.queue i).items.drop n ∧ ∀ j, j ≠ i → (u.bay b).queue j = y.queue j) ∧
      (∀ i, i < 32 → form (0xF00 + i) [h] → 16 + (s.tick t).popsNow b i ≤ (y.queue i).items.length → Next (exec (.mgmtQueuePush t src b h) s) fun u =>
        (u.bay b).queueOvr = true ∧ ((u.bay b).queue i).items = (y.queue i).items) ∧
      (hKind h.hdr = 1 → hStream h.hdr < 256 → hGen h.hdr = s.gen → Next (exec (.flagSetMessage t src b h) s) fun u =>
        (u.bay b).flag (hStream h.hdr) = true ∧ (u.bay b).flagOvr = (y.flagOvr || (y.flag (hStream h.hdr) && !(s.tick t).clearsNow b (hStream h.hdr)))) ∧
      (hKind h.hdr = 0 → hStream h.hdr < 0xF00 → hGen h.hdr = s.gen → y.seq.receives (hStream h.hdr) (hVc h.hdr) = true →
        (mget [] y.eject (hVc h.hdr)).length < 8 → Next (exec (.dataLineAccept t src b h) s) fun u =>
          mget [] (u.bay b).eject (hVc h.hdr) = mget [] y.eject (hVc h.hdr) ++ [h]))

/-- A bay drops every message whose generation tag differs from its own (04 R130): a line for a queue, a flag or an ejection buffer, a
firmware message for the scratchpad or the row port, of which each line counts (06 R189), and a control message. The drop counts in
STALE_CNT, sets STALE_DROP, and logs snag 0x2030 if that bit was 0 and Novko runs. Nothing else of any bay or panel changes. -/
def Obligations.BaysDropStaleMessages : Prop :=
  ∀ (t src layer stroke : Nat) (b : BayIx) (g : BitVec 8) (prog : Fin 16) (slots : List SlotEnt) (es : List (Nat × BitVec 32)) (h : MLine)
    (ms : List MLine) (s : State), s.localClosed b = false → s.heldInReset = false →
    let y := s.bay b
    let form (stream : Nat) (l : List MLine) : Prop :=
      ∀ m ∈ l, hKind m.hdr = 0 ∧ hStream m.hdr = stream ∧ 2 ≤ hVc m.hdr ∧ hGen m.hdr = hGen h.hdr
    let dropped (n : Nat) (gen : BitVec 8) (c : Instr) : Prop := Next (exec c s) fun u =>
      u.bay b = { y with staleDrop := true, staleCnt := min (y.staleCnt + n) 0xFFFF } ∧ (∀ d : Nat, d ≠ b.val → u.bay d = s.bay d) ∧
      u.panels = s.panels ∧
      if y.staleDrop = false ∧ s.novkoUp = true then
        ∃ r, u.snags = r :: s.snags ∧ r.code = 0x2030 ∧ r.sev = 0 ∧ r.args.take 3 = [gen.toNat, s.gen.toNat, src]
      else u.snags = s.snags
    (hGen h.hdr ≠ s.gen → mget none (s.rtr b).localIn (hVc h.hdr) = none →
      (dropped 1 (hGen h.hdr) (.dataLineAccept t src b h) ∧
        (hKind h.hdr = 1 → dropped 1 (hGen h.hdr) (.flagSetMessage t src b h)) ∧
        (hKind h.hdr = 0 → 0xF00 ≤ hStream h.hdr → hStream h.hdr < 0xF20 → 2 ≤ hVc h.hdr →
          dropped 1 (hGen h.hdr) (.mgmtQueuePush t src b h))) ∧
      (form 0xF20 (h :: ms) → dropped (ms.length + 1) (hGen h.hdr) (.scratchpadWriteMessage t src b (h :: ms))) ∧
      (form 0xFE0 (h :: ms) → dropped (ms.length + 1) (hGen h.hdr) (.weightRow t src b (h :: ms))) ∧
      (form 0xF21 [h] → dropped 1 (hGen h.hdr) (.scratchpadReadMessage t src b h)) ∧
      (form 0xFE1 [h] → dropped 1 (hGen h.hdr) (.rowReadback t src b h))) ∧
    (g ≠ s.gen → ∀ c ∈ [Instr.stepRelease t src b g prog slots, .swapArm t src b g es, .swapFlip t src b g layer, .auditArm t src b g stroke],
      dropped 1 g c)

/-- Control messages act on their bay (05 R141; 09 R268; 13 R361, R362): a release starts its program when the bay waits for one, is held behind
the one that runs, and a further one is discarded with snag 0x2071; SWAP_ARM sets holds, SWAP_FLIP toggles LIVE of its layer's panels
and clears the hold, and AUDIT_ARM adds a watch while fewer than 16 stand. -/
def Obligations.ControlMessagesActOnTheBay : Prop :=
  ∀ (t src layer stroke : Nat) (b : BayIx) (prog : Fin 16) (slots : List SlotEnt) (e : Nat × BitVec 32) (s : State),
    s.localClosed b = false → s.heldInReset = false →
    let y := s.bay b
    let release := exec (.stepRelease t src b s.gen prog slots) s
    (y.seq.running = true → y.seq.halted = false →
      (y.seq.prog = none → y.seq.entries.getD prog 0xFFFF ≠ 0xFFFF → Next release fun u => (u.bay b).seq.prog = some prog.val ∧
        (u.bay b).seq.pc = y.seq.entries.getD prog 0xFFFF ∧ (u.bay b).seq.slots = slots ∧ (u.bay b).seq.cur = y.seq.cur) ∧
      (∀ p, y.seq.prog = some p → y.seq.held = none → Next release fun u =>
        u.bay b = { y with seq := { y.seq with held := some (prog.val, slots, s.gen) } }) ∧
      (∀ p q, y.seq.prog = some p → y.seq.held = some q → s.novkoUp = true → Next release fun u => u.bay b = y ∧
        ∃ r, u.snags = r :: s.snags ∧ r.code = 0x2071 ∧ r.args.take 2 = [q.1, prog.val])) ∧
    (y.seq.running = false → exec (.stepRelease t src b s.gen prog slots) s = .next (s.tick t)) ∧
    (Next (exec (.swapArm t src b s.gen [e]) s) fun u => mget 0 (u.bay b).holds e.1 = e.2 ∧
      ∀ k, k ≠ e.1 → mget 0 (u.bay b).holds k = mget 0 y.holds k) ∧
    (Next (exec (.swapFlip t src b s.gen layer) s) fun u => mget 0 (u.bay b).holds layer = 0 ∧
      (y.seq.cur.isSome = true → (u.bay b).flipsDue = y.flipsDue ^^^ mget 0 y.holds layer ∧ u.panels = s.panels) ∧
      (y.seq.cur = none → y.flipsDue = 0 → (u.bay b).flipsDue = 0 ∧ ∀ p < 32, (s.panel (pkey b p)).stg = {} →
        (u.panel (pkey b p)).live = ((s.panel (pkey b p)).live ^^ (mget 0 y.holds layer).getLsbD p))) ∧
    Next (exec (.auditArm t src b s.gen stroke) s) fun u => (u.bay b).watches =
      if y.watches.length < 16 then y.watches ++ [{ stroke := stroke, gen := s.gen }] else y.watches

/-- Integer vector operations (03 R72, R92; 04 R117, R118; 05 R148): on 32-bit operands each lane of ADD, SUB, MUL, MAX, MIN, CVT and RELU is the
exact integer result, saturated, and any saturation sets REQ_SAT; REQUANT multiplies the biased operand, shifts it right with rounding
to nearest, ties to even, and saturates. -/
def Obligations.IntegerVectorOperationsAreExact : Prop :=
  ∀ (t : Nat) (b : BayIx) (code : Nat) (r : Running) (o : BitVec 128) (s : State), s.unitOpen b 1 code r o → opBKind o = 0 →
    let q := (s.bay b).seq
    teFmt (q.tensor (fld o 90 10)) = .i32 → teFmt (q.tensor (fld o 100 10)) = .i32 → teFmt (q.tensor (fld o 110 10)) = .i32 →
    let x (i : Nat) : Int := (r.elem32 s.freeVal (fld o 32 13) i).toInt
    let y (i : Nat) : Int := (r.elem32 s.freeVal (fld o 45 13) i).toInt
    let out (c : Instr) (f : Nat → Int) : Prop := Next (exec c s) fun u =>
      (∃ ws, u.unitDone b r ws ∧ stores32 ws 2 (fld o 77 13) (opLen o) fun i => clamp32 (f i)) ∧
      ((u.bay b).reqSat = true ↔ (s.bay b).reqSat = true ∨ ∃ i < opLen o, f i < -(2 ^ 31) ∨ 2 ^ 31 ≤ f i)
    (code = 1 → out (.add t b []) fun i => x i + y i) ∧
    (code = 2 → out (.sub t b []) fun i => x i - y i) ∧
    (code = 3 → out (.mul t b []) fun i => x i * y i) ∧
    (code = 5 → out (.max t b) fun i => max (x i) (y i)) ∧
    (code = 6 → out (.min t b) fun i => min (x i) (y i)) ∧
    (code = 8 → out (.cvt t b) x) ∧
    (code = 9 → out (.relu t b) fun i => max (x i) 0) ∧
    (code = 7 → descSr (teDesc (q.tensor (fld o 110 10))) = false → ∃ f : Nat → Int, out (.requant t b []) f ∧ ∀ i < opLen o,
      let e : BitVec 64 := (r.rd s.freeVal (fld o 64 13 + i / 8)).extractLsb' (64 * (i % 8)) 64
      let n := (x i + (e.extractLsb' 0 32).toInt) * (e.extractLsb' 32 16).toInt
      let p : Int := 2 ^ (e.extractLsb' 48 6).toNat
      2 * (n - f i * p).natAbs ≤ p.natAbs ∧ (2 * (n - f i * p).natAbs = p.natAbs → f i % 2 = 0))

/-- Binary32 vector operations (03 R77; 04 R117, R118, R120): FMA is exact but for one rounding at the end; EXP, RECIP and RSQRT give the results
stated for their special inputs, every function turns a NaN into the canonical NaN, and on other finite inputs a result lies within its
bound of the exact function: 2 units in the last place, 4 for GELU and SILU. GELU's tanh form is PRESUMED (log 184). Which value within the
bound is the toolchain's model, left open in Config. -/
def Obligations.FloatVectorOperationsRoundOnce : Prop :=
  ∀ (t : Nat) (b : BayIx) (code : Nat) (r : Running) (o : BitVec 128) (s : State), s.unitOpen b 1 code r o → opBKind o = 0 →
    let q := (s.bay b).seq
    teFmt (q.tensor (fld o 90 10)) = .f32 → teFmt (q.tensor (fld o 100 10)) = .f32 → teFmt (q.tensor (fld o 110 10)) = .f32 →
    descSr (teDesc (q.tensor (fld o 110 10))) = false →
    let value (x : BitVec 32) : Machine.Num := (fmt32.decode x.toNat).to32 .rne
    let x (i : Nat) : Machine.Num := value (r.elem32 s.freeVal (fld o 32 13) i)
    let y (i : Nat) : Machine.Num := value (r.elem32 s.freeVal (fld o 45 13) i)
    let z (i : Nat) : Machine.Num := value (r.elem32 s.freeVal (fld o 64 13) i)
    let out (c : Instr) (P : Nat → BitVec 32 → Prop) : Prop := Next (exec c s) fun u => ∃ ws f, u.unitDone b r ws ∧
      stores32 ws 2 (fld o 77 13) (opLen o) f ∧ ∀ i < opLen o, P i (f i)
    (code = 4 → out (.fma t b []) fun i v => v = BitVec.ofNat 32 (fmt32.encode (((x i).mul (y i)).add (z i)) .rne)) ∧
    (code = 0xA → out (.exp t b) fun i v => (x i = .nan → v = 0x7FC00000) ∧ (gtRat (x i) 8872 100 = true → v = 0x7F800000) ∧
      (ltRat (x i) (-10397) 100 = true → v = 0) ∧ (∀ n m e, x i = .fin n m e → gtRat (x i) 8872 100 = false →
        ltRat (x i) (-10397) 100 = false → nearTo 2 v (Elem.exp.exact (x i)))) ∧
    (code = 0xB → out (.recip t b) fun i v => (x i = .nan → v = 0x7FC00000) ∧
      (∀ n e, x i = .fin n 0 e → v = if n then 0xFF800000 else 0x7F800000) ∧
      ∀ n m e, x i = .fin n (m + 1) e → nearTo 2 v (Elem.recip.exact (x i))) ∧
    (code = 0xC → out (.rsqrt t b) fun i v => (x i = .nan ∨ x i = .inf true → v = 0x7FC00000) ∧
      (∀ m e, x i = .fin true (m + 1) e → v = 0x7FC00000) ∧
      ∀ m e, x i = .fin false (m + 1) e → nearTo 2 v (Elem.rsqrt.exact (x i))) ∧
    (code = 0xD → out (.gelu t b) fun i v => (x i = .nan → v = 0x7FC00000) ∧
      ∀ n m e, x i = .fin n m e → nearTo 4 v (Elem.gelu.exact (x i))) ∧
    (code = 0xE → out (.silu t b) fun i v => (x i = .nan → v = 0x7FC00000) ∧
      ∀ n m e, x i = .fin n m e → nearTo 4 v (Elem.silu.exact (x i)))

/-- Reductions (04 R119, R121): the scalar register takes the saturated sum or the largest of 32-bit integer operands, or the sum of squares of
binary32 operands in the fixed order of lanes and levels; with DST_TENSOR the value goes to element 0 of the destination as well. -/
def Obligations.ReductionsFillAScalarRegister : Prop :=
  ∀ (t : Nat) (b : BayIx) (code : Nat) (r : Running) (o : BitVec 128) (s : State),
    s.unitOpen b 1 code r o →
    let q := (s.bay b).seq
    let x (i : Nat) : BitVec 32 := r.elem32 s.freeVal (fld o 32 13) i
    let sum := ((List.range (opLen o)).map fun i => (x i).toInt).sum
    let res (u : State) : Scalar := mget {} (u.bay b).sc (fld o 19 3)
    (code = 0x10 → teFmt (q.tensor (fld o 90 10)) = .i32 → o.getLsbD 22 = false → Next (exec (.rsum t b []) s) fun u =>
      res u = { float := false, bits := clamp32 sum } ∧ u.unitDone b r []) ∧
    (code = 0x10 → teFmt (q.tensor (fld o 90 10)) = .i32 → o.getLsbD 22 = true → teFmt (q.tensor (fld o 110 10)) = .i32 →
      Next (exec (.rsum t b []) s) fun u => res u = { float := false, bits := clamp32 sum } ∧
        ∃ w, u.unitDone b r [w] ∧ w.line = fld o 77 13 ∧ w.mask = 15 ∧ w.data.extractLsb' 0 32 = clamp32 sum) ∧
    (code = 0x11 → teFmt (q.tensor (fld o 90 10)) = .i32 → o.getLsbD 22 = false → Next (exec (.rmax t b) s) fun u =>
      (res u).float = false ∧ u.unitDone b r [] ∧ (∃ i < opLen o, (res u).bits = x i) ∧ ∀ i < opLen o, (x i).toInt ≤ (res u).bits.toInt) ∧
    (code = 0x12 → teFmt (q.tensor (fld o 90 10)) = .f32 → o.getLsbD 22 = false → Next (exec (.rsumsq t b []) s) fun u =>
      let square (i : Nat) : Machine.Num := let a := (fmt32.decode (x i).toNat).to32 .rne
        (a.mul a).to32 .rne
      res u = { float := true, bits := BitVec.ofNat 32 (fmt32.encode (reduceLanes add32 ((List.range (opLen o)).map square)) .rne) } ∧
      u.unitDone b r [])

/-- The matrix unit (03 R92; 04 R122, R123): MM_LOADB takes a 64 by 64 operand, transposed where asked; MM_MUL of 8-bit operands adds the exact product
into C, or replaces C, saturating to 32 bits; MM_DRAIN to 32-bit integers writes C through one
scale entry per column, rounded to nearest, ties to even, and saturated. -/
def Obligations.MatrixUnitMultipliesExactly : Prop :=
  ∀ (t n : Nat) (g : Bool) (b : BayIx) (code : Nat) (r : Running) (o : BitVec 128) (s : State),
    s.unitOpen b 2 code r o →
    let y := s.bay b
    let byte (l i : Nat) : Nat := fld (r.rd s.freeVal (l + i / 64)) (8 * (i % 64)) 8
    let int8 (g : Bool) (v : Nat) : Int := if g then twos 8 v else (v % 256 : Nat)
    (code = 0x40 → teFmt (y.seq.tensor (fld o 90 10)) = .int 8 g → Next (exec (.mmLoadb t b) s) fun u => u.unitDone b r [] ∧
      (u.bay b).mmB.length = 4096 ∧ (u.bay b).mmFloat = false ∧ (u.bay b).mmSigned = g ∧ (u.bay b).mmC = y.mmC ∧
      ∀ i < 64, ∀ j < 64, (u.bay b).mmB.getD (64 * i + j) 0 = byte (fld o 32 13) (if o.getLsbD 23 then 64 * j + i else 64 * i + j)) ∧
    (code = 0x41 → teFmt (y.seq.tensor (fld o 90 10)) = .int 8 g → y.mmFloat = false → y.mmB.length = 4096 →
      let entry (i j : Nat) : Int := (if o.getLsbD 24 then mget 0 y.mmC (64 * i + j) else 0) +
        ((List.range 64).map fun k => int8 g (byte (fld o 32 13) (64 * i + k)) * int8 y.mmSigned (y.mmB.getD (64 * k + j) 0)).sum
      Next (exec (.mmMul t b []) s) fun u => u.unitDone b r [] ∧ (u.bay b).mmB = y.mmB ∧
        (∀ i < 64, ∀ j < 64, mget 0 (u.bay b).mmC (64 * i + j) = max (-(2 ^ 31)) (min (2 ^ 31 - 1) (entry i j))) ∧
        ((u.bay b).accOvf = true ↔ y.accOvf = true ∨ ∃ i < 64, ∃ j < 64, entry i j < -(2 ^ 31) ∨ 2 ^ 31 ≤ entry i j)) ∧
    (code = 0x42 → teFmt (y.seq.tensor (fld o 110 10)) = .i32 → y.mmFloat = false → descSr (teDesc (y.seq.tensor (fld o 110 10))) = false →
      Next (exec (.mmDrain t b []) s) fun u => ∃ f : Nat → Int,
        (∃ ws, u.unitDone b r ws ∧ stores32 ws 3 (fld o 77 13) 4096 fun e => clamp32 (f e)) ∧ (u.bay b).mmC = y.mmC ∧
        ∀ e < 4096,
          let c : BitVec 64 := (r.rd s.freeVal (fld o 64 13 + e % 64 / 8)).extractLsb' (64 * (e % 8)) 64
          let n := (mget 0 y.mmC e + (c.extractLsb' 0 32).toInt) * (c.extractLsb' 32 16).toInt
          let p : Int := 2 ^ (c.extractLsb' 48 6).toNat
          2 * (n - f e * p).natAbs ≤ p.natAbs ∧ (2 * (n - f e * p).natAbs = p.natAbs → f e % 2 = 0))

/-- Transfer records (04 R113, R115, R128, R129; 05 R149; 06 R184, R190, R194): a record waits for a waking segment; sends and flag sends inject
as many lines as the router's local input has room for, and to a closed port drop them all; a receive takes the lines of its stream at
the head of its ejection buffer; a push or a receive to a queue fills what room there is, counting entries popped at that instant, in
the order of those that arrive together; a pop takes what entries there are; a copy moves all its lines. -/
def Obligations.TransferRecordsMoveTheirLines : Prop :=
  ∀ (t k : Nat) (b : BayIx) (r : Running) (x : Xfer) (s : State),
    (s.bay b).seq.cur = some r → r.sp = true → r.xfers[k]? = some x → x.finished = false → x.moved ≤ xLines x.word →
    let y := s.bay b
    let n := xLines x.word
    let route := y.seq.routes.getD (xRoute x.word) 0
    let done (u : State) (m : Nat) (ws : List SpWrite) : Prop := ∃ q, (u.bay b).seq.cur = some q ∧ q.writes = r.writes ++ ws ∧
      q.xfers[k]? = some { x with moved := m, finished := decide (n ≤ m) } ∧ ∀ j, j ≠ k → q.xfers[j]? = r.xfers[j]?
    let room := 4 - ((s.rtr b).buf 4 (xVc x.word)).length
    let lines (u : State) : List MLine := ((u.rtr b).buf 4 (xVc x.word)).map (·.2) ++ mget [] (u.rtr b).held (16 + xVc x.word)
    let qu (u : State) : List Line := ((u.bay b).queue (xQueue x.word)).items
    let space := 16 + (s.tick t).popsNow b (xQueue x.word) - (qu s).length
    let place (rank : Nat) : Nat := (qu s).length -
      if (y.queue (xQueue x.word)).at_ = max s.now t then ((y.queue (xQueue x.word)).fresh.filter (rank < ·)).length else 0
    let into (u : State) (rank : Nat) (l : List Line) : Prop := qu u = (qu s).take (place rank) ++ l ++ (qu s).drop (place rank)
    (y.waking (xferAccesses x.word) = true →
      ∀ c ∈ [Instr.send t b k, .recv t b k, .push t b k, .pop t b k [], .copy t b k], exec c s = .next (s.tick t)) ∧
    (y.waking (xferAccesses x.word) = false →
    (xKind x.word = 0 → r.vcBusy k (xVc x.word) = false →
      (s.localClosed b = false → Next (exec (.send t b k) s) fun u =>
        let m := min n (x.moved + room)
        done u m [] ∧ lines u = lines s ++ (List.range (m - x.moved)).map fun i =>
          { hdr := mkHdr route (xVc x.word) 0 (fld route 37 12) s.gen (x.moved + i + 1 == n),
            line := (r.raw (xLine x.word + (x.moved + i))).handOn }) ∧
      (s.localClosed b = true → Next (exec (.send t b k) s) fun u => done u n [] ∧ u.rtrs = s.rtrs)) ∧
    (xKind x.word = 1 →
      let q := mget [] y.eject (fld route 57 2)
      let run := (q.takeWhile fun m => hStream m.hdr == fld route 37 12).take (n - x.moved)
      (xToQueue x.word = false → Next (exec (.recv t b k) s) fun u =>
        done u (x.moved + run.length) (run.zipIdx.map fun e =>
          { client := 6, line := xLine x.word + x.moved + e.2, data := e.1.line.data, flips := e.1.line.flips }) ∧
        mget [] (u.bay b).eject (fld route 57 2) = q.drop run.length) ∧
      (xToQueue x.word = true → Next (exec (.recv t b k) s) fun u =>
        let m := min run.length space
        done u (x.moved + m) [] ∧ mget [] (u.bay b).eject (fld route 57 2) = q.drop m ∧
        into u (1 + mget 4 (s.rtr b).localFrom (fld route 57 2)) ((run.take m).map (·.line)))) ∧
    (xKind x.word = 2 → Next (exec (.push t b k) s) fun u =>
      let m := min (n - x.moved) space
      done u (x.moved + m) [] ∧ into u 0 ((List.range m).map fun i => (r.raw (xLine x.word + x.moved + i)).handOn)) ∧
    (xKind x.word = 3 → (∀ e ∈ qu s, e.flips = 0) → Next (exec (.pop t b k []) s) fun u =>
      let got := (qu s).take (n - x.moved)
      done u (x.moved + got.length) (got.zipIdx.map fun e => { client := 5, line := xLine x.word + x.moved + e.2, data := e.1.data }) ∧
      qu u = (qu s).drop (n - x.moved) ∧ u.snags = s.snags) ∧
    (xKind x.word = 4 → Next (exec (.copy t b k) s) fun u => done u n ((List.range n).map fun i =>
      { client := 5, line := xDst x.word + i, data := r.rd s.freeVal (xLine x.word + i) })) ∧
    (xKind x.word = 5 → r.vcBusy k (xVc x.word) = false → s.localClosed b = false → 0 < room → Next (exec (.flagsend t b k) s) fun u =>
      done u n [] ∧ lines u = lines s ++ [{ hdr := mkHdr route (xVc x.word) 1 (xDst x.word % 256) s.gen true }]))

/-- The link header a unicast send builds carries every field of its route entry and transfer record at its place (06 R178, R184). -/
def Obligations.HeadersCarryTheRouteEntry : Prop :=
  ∀ (route : BitVec 64) (vc kind stream : Nat) (gen : BitVec 8) (last : Bool), vc < 4 → kind < 4 → stream < 4096 → rtType route ≠ 1 →
    let h := mkHdr route vc kind stream gen last
    hVc h = vc ∧ hKind h = kind ∧ hStream h = stream ∧ hGen h = gen ∧ hLast h = last ∧ hMcast h = false ∧ hWpr h = false ∧
    hOrder h = route.getLsbD 2 ∧ hWp h = route.getLsbD 3 ∧ hDx h = fld route 4 5 ∧ hDy h = fld route 9 6 ∧ hExit h = fld route 15 3 ∧
    hWx h = fld route 18 5 ∧ hWy h = fld route 23 6 ∧ hUnit h = fld route 49 8

/-- A router handles a unicast line by the steps of 06 R183: it sets WPR if the line's waypoint is here and not yet reached; the target is
the waypoint until then and the destination after; at the target the line leaves by its EXIT port; elsewhere it moves in x first with
ORDER = 0 and in y first with ORDER = 1, S to larger y and E to larger x. Each such move leads to the router that faces the port and is
one hop nearer to the target, if the target lies on the mesh. -/
def Obligations.RoutersTakeTheUnicastSteps : Prop :=
  ∀ (b : BayIx) (h : BitVec 64), hMcast h = false →
    let x := meshX b
    let y := meshY b
    let m := markWaypoint b h
    let p := routePort b m
    let tx := if hWp h = true ∧ hWpr m = false then hWx h else hDx h
    let ty := if hWp h = true ∧ hWpr m = false then hWy h else hDy h
    let dist (u v : Nat) : Nat := ((u : Int) - tx).natAbs + ((v : Int) - ty).natAbs
    (∀ i < 64, i ≠ 8 → m.getLsbD i = h.getLsbD i) ∧
    (hWpr m = true ↔ hWpr h = true ∨ hWp h = true ∧ x = hWx h ∧ y = hWy h) ∧
    (∀ s : State, s.outPorts b h = BitVec.ofNat 5 (2 ^ p)) ∧
    (x = tx → y = ty → tx = hDx h ∧ ty = hDy h ∧ (hExit h = 0 → p = 4) ∧ (1 ≤ hExit h → hExit h ≤ 4 → p = hExit h - 1)) ∧
    (¬(x = tx ∧ y = ty) →
      (hOrder h = false → x ≠ tx → p = if x < tx then 1 else 3) ∧ (hOrder h = false → x = tx → p = if y < ty then 2 else 0) ∧
      (hOrder h = true → y ≠ ty → p = if y < ty then 2 else 0) ∧ (hOrder h = true → y = ty → p = if x < tx then 1 else 3) ∧
      (ty ≤ 35 → ∃ c, nbr b p = .router c ∧ c < 1152 ∧ dist (meshX c) (meshY c) + 1 = dist x y ∧
        (p = 0 → meshX c = x ∧ meshY c + 1 = y) ∧ (p = 1 → meshX c = x + 1 ∧ meshY c = y) ∧
        (p = 2 → meshX c = x ∧ meshY c = y + 1) ∧ (p = 3 → meshX c + 1 = x ∧ meshY c = y)))

/-- LINE_FORWARD (06 R183, R187, R188): the line an output picks leaves its input buffer, whose next waiting line moves up, and reaches the
neighbour's buffer or the local latch, its waypoint marked if this is its router; where nothing may move nothing moves. -/
def Obligations.LinesMoveToTheNextRouter : Prop :=
  ∀ (t : Nat) (b : BayIx) (out : Fin 5) (s : State), s.rtrFenced b = false → mget .off s.pwr.rails (32 + dieOf b) = .up →
    (∀ i v e, e ∈ ((s.rtr b).buf i v).head? → s.badHeader b e.2.hdr = false) →
    let waits (u : State) (i v : Nat) : List MLine := ((u.rtr b).buf i v).map (·.2) ++ mget [] (u.rtr b).held (4 * i + v)
    ((s.tick t).pickLine b out = none → exec (.lineForward t b out) s = .next (s.tick t)) ∧
    (∀ i v w τ m q, (s.tick t).pickLine b out = some (i, v, w) → (s.rtr b).buf i v = (τ, m) :: q → hMcast m.hdr = false → hVc m.hdr = v → v < 4 →
      Next (exec (.lineForward t b out) s) fun u =>
        m :: waits u i v = waits s i v ∧ mget none (u.rtr b).lock (4 * out + v) = (if hLast m.hdr then none else some i) ∧
        (out = 4 → mget none (u.rtr b).localIn v = some { m with hdr := markWaypoint b m.hdr }) ∧
        (∀ c, out ≠ 4 → nbr b out = .router c → s.isSink b out = false →
          (u.rtr c).buf (opposite out) v = (s.rtr c).buf (opposite out) v ++ [(max s.now t, { m with hdr := markWaypoint b m.hdr })]) ∧
        u.bays = s.bays)

/-- Router registers, failing links and hard fences (06 R179, R194, R195, R199, R200; 13 R355, R375): a failed handshake is counted and sent
again up to RETRY_LIMIT times, and one more takes the link down and hard-fences the router; a hard fence empties and closes the router
and, with no plan loaded, fences its bay; the local port opens and closes; the counters clear. -/
def Obligations.RoutersCloseAndHardFence : Prop :=
  ∀ (t : Nat) (b : BayIx) (port : Fin 4) (v : Bool) (s : State),
    let x := s.rtr b
    let fenced (u : State) : Prop := (u.rtr b).hardFenced = true ∧ (u.rtr b).bufs = [] ∧
      (mget 0 s.resil.fences b = 0 → mget 0 u.resil.fences b = 4)
    Next (exec (.rtrLocalCloseWrite t b v) s) (fun u => u.rtr b = if x.hardFenced then x else { x with localClose := v }) ∧
    Next (exec (.rtrCntClr t b) s) (fun u => u.rtr b = { x with sinkCnt := 0, localCnt := 0, retry := [] }) ∧
    (x.hardFenced = false → s.plans = [] → s.mode = .ready → s.resil.coresUp ≠ 0 → Next (exec (.rtrHardFenceWrite t b) s) fenced) ∧
    (s.linkUp b port = true → mget 0 x.fails port < x.retryLimit.toNat →
      Next (exec (.linkCrcFail t b port) s) fun u => (u.rtr b).retrySeen = true ∧ mget 0 (u.rtr b).fails port = mget 0 x.fails port + 1 ∧
        mget 0 (u.rtr b).retry port = min (mget 0 x.retry port + 1) 255 ∧ (u.rtr b).linkDown = x.linkDown ∧ (5, max s.now t) ∈ u.intr) ∧
    (∀ c, s.linkUp b port = true → x.retryLimit.toNat ≤ mget 0 x.fails port → nbr b port = .router c → s.plans = [] → s.mode = .ready →
      s.resil.coresUp ≠ 0 → Next (exec (.linkCrcFail t b port) s) fun u => (u.rtr b).linkDown.getLsbD port = true ∧
        (u.rtr b).hardFenced = true ∧ ∃ r ∈ u.snags, r.code = 0x3002 ∧ r.args.head? = some port.val)

/-- Requests reach a Context die (07 R201, R217–R220, R232) and its channels and registers answer (07 R206, R229, R233), the channels' rounds up to
the moment having been played, which the model takes as 1 ns and one line each (DESIGN CHOICE, log 36): a request in form joins its unit's
queue, one of an old generation is dropped and counted, and one out of form is answered BAD_REQ with snag 0x4033; a refresh falls
due, once in tREFI and up to its limit, and is then forced; a requester that starved is counted, the first one captured; a page pushed to the pool joins the
ring; the counters and the capture clear. -/
def Obligations.ContextDieTakesRequestsAndRegisterWrites : Prop :=
  ∀ (t : Nat) (k : Fin 2) (link : Fin 36) (stack : Fin 6) (ch : Fin 32) (req : Fin 18) (level : Fin 3) (v : Word) (m : MLine)
    (ls : List MLine) (s : State),
    let c := s.ctx k
    let d := c.arbitrate (max s.now t)
    let key := 32 * stack.val + ch
    let r : CtxReq := { link := link, vc := hVc m.hdr, gen := hGen m.hdr, unit := hUnit m.hdr, hdr := m.line.data, lines := ls.map (·.line) }
    (mget [] s.edgeQ (64 * (17 + k.val) + link) = [] → m.line.flips = 0 → s.ctxInService k = true → hKind m.hdr = 0 → r.fn < 19 →
      (hGen m.hdr = s.gen → r.placed = true → r.reservedOk = true → s.ctxShapeOk k r = true → (c.queue r.fn r.vc).length < (if r.fn = 18 then 16 else 4) →
        Next (exec (.contextRequestArrival t k link (m :: ls)) s) fun u =>
          (u.ctx k).queue r.fn r.vc = c.queue r.fn r.vc ++ [r] ∧ (u.ctx k).mem = c.mem ∧ u.snags = s.snags) ∧
      (hGen m.hdr ≠ s.gen → Next (exec (.contextRequestArrival t k link (m :: ls)) s) fun u =>
        (u.ctx k).queues = c.queues ∧ (u.ctx k).stale = min (c.stale + 1) 0xFFFFFFFF ∧ (u.ctx k).staleDrop = true ∧ u.rtrs = s.rtrs) ∧
      (hGen m.hdr = s.gen → (r.placed && r.reservedOk && s.ctxShapeOk k r) = false → s.rtrFenced (ctxLink k link).1 = false →
        s.linkDown (ctxLink k link).1 (ctxLink k link).2 = false → Next (exec (.contextRequestArrival t k link (m :: ls)) s) fun u =>
          (u.ctx k).queues = c.queues ∧ (u.ctx k).badReq = true ∧ u.replied s k r 5 0 0 (s.replyLines k r))) ∧
    Next (exec (.refreshDue t k stack ch) s) (fun u => (∀ j, j ≠ key → (u.ctx k).chan j = d.chan j) ∧
      
      if s.stackUp k stack = true ∧ (∀ a, (d.chan key).refAt = some a → a + s.tRefi k ≤ max s.now t) then
        ((u.ctx k).chan key).due = min c.maxPostpone ((d.chan key).due + 1) ∧ ((u.ctx k).chan key).refAt = some (max s.now t)
      else (u.ctx k).chan key = d.chan key) ∧
    (c.maxPostpone ≤ (d.chan key).due → Next (exec (.forcedRefresh t k stack ch) s) fun u => (∀ j, j ≠ key → (u.ctx k).chan j = d.chan j) ∧
      ((u.ctx k).chan key).due = (d.chan key).due - 1 ∧ ((u.ctx k).chan key).refresh = (d.chan key).refresh + 28 ∧ (6, max s.now t) ∈ u.intr) ∧
    ((d.chan key).starved.contains (4 * req.val + level) = true → Next (exec (.arbStarve t k stack ch req level) s) fun u =>
      (u.ctx k).arbStarve = true ∧ (u.ctx k).starve = min (c.starve + 1) 0xFFFFFFFF ∧
      (u.ctx k).cap = some (c.cap.getD (level.val, stack.val, ch.val)) ∧ u.intr = s.intr ∧
      (u.ctx k).chan key = { d.chan key with starved := (d.chan key).starved.erase (4 * req.val + level) }) ∧
    Next (exec (.ctxPoolPush t k v) s) (fun u => (u.ctx k).poolPush = v.extractLsb' 0 24 ∧
      if ppnUsable k (fld v 0 24) = true then (u.ctx k).ring = c.ring ++ [fld v 0 24] else (u.ctx k).ring = c.ring ∧ (u.ctx k).permErr = true) ∧
    Next (exec (.ctxCntClr t k) s) (fun u => u.ctx k = { d with stale := 0, uncorr := 0, corr := 0, preempt := 0, starve := 0 }) ∧
    Next (exec (.ctxStarveCapClear t k) s) fun u => u.ctx k = { c with cap := none }

/-- Requests on a sequence (07 R208–R213, R216, R219, R222, R223): with a valid map entry, no fault, positions inside the window and every page
permitted, ATTEND and KV_READ answer OK with the data lines of their shape, APPEND and KV_WRITE answer OK, and the bytes of a position
written are the bytes it reads back; COMMIT_SET moves the commit length within the window and answers WINDOW beyond it. A map entry
that is not valid answers PERM. -/
def Obligations.SequenceRequestsReadWriteAndCommit : Prop :=
  ∀ (t : Nat) (iss : List Nat) (k : Fin 2) (e : Fin 16) (r : CtxReq) (s : State), (∀ x ∈ (s.ctx k).mem, x.2.flips = 0) → (∀ x ∈ r.lines, x.flips = 0) →
    let m := s.mapOf k r
    let q := s.seqOf k m.seq
    let ok := m.valid = true ∧ q.valid = true ∧ q.fault = false ∧ q.format < 3 ∧ q.dsel < 3 ∧ q.tenant < 8
    let reads (ps : List Nat) := s.firstPerm k q r ps false = none
    let inWindow (ps : List Nat) := (∀ p ∈ ps, q.commit ≤ p ∧ p < q.commit + q.window) ∧ s.firstPerm k q r ps true = none
    (s.nextOp k e 0x01 r → ok → r.vis ≤ q.window → reads (List.range (q.commit + r.vis)) → Next (exec (.attend t k e iss []) s) fun u =>
      u.replied s k r 0 q.commit 0 ((r.g * headDim q.dsel * (if r.f 40 1 = 1 then 4 else 2) + 63) / 64) ∧ (u.ctx k).mem = (s.ctx k).mem) ∧
    (s.nextOp k e 0x02 r → ok → inWindow ((List.range r.g).map (r.pos + ·)) → r.g ≤ (s.ctx k).ring.length →
      (∀ p ∈ (s.ctx k).ring, s.stackUp k (ppnStack p) = true) →
      Next (exec (.append t k e iss []) s) fun u => u.replied s k r 0 q.commit 0 0 ∧ (u.ctx k).seqs = (s.ctx k).seqs) ∧
    (s.nextOp k 17 0x03 r → ok → Next (exec (.commitSet t k) s) fun u =>
      if q.commit ≤ r.pos ∧ r.pos ≤ q.commit + q.window then
        u.replied s k r 0 r.pos 0 0 ∧ u.seqOf k m.seq = { q with commit := r.pos } ∧ ∀ j, j ≠ m.seq → u.seqOf k j = s.seqOf k j
      else u.replied s k r 1 q.commit r.pos 0 ∧ (u.ctx k).seqs = (s.ctx k).seqs ∧ (u.ctx k).windowErr = true) ∧
    (s.nextOp k 16 0x10 r → ok → r.vis ≤ q.window → r.pos + r.count ≤ q.commit + r.vis → reads ((List.range r.count).map (r.pos + ·)) →
      Next (exec (.kvRead t k iss []) s) fun u =>
        u.replied s k r 0 q.commit 0 ((r.count * posBytes q.format (headDim q.dsel) + 63) / 64) ∧ (u.ctx k).mem = (s.ctx k).mem) ∧
    (∀ ppn, s.nextOp k 16 0x11 r → ok → r.count = 1 → inWindow [r.pos] → s.transPos k q r r.pos true = .page ppn →
      r.lines.length = (posBytes q.format (headDim q.dsel) + 63) / 64 → Next (exec (.kvWrite t k iss []) s) fun u =>
        u.replied s k r 0 q.commit 0 0 ∧ (u.ctx k).runBytes s.freeVal ppn (posRuns q.format (headDim q.dsel) (r.pos % q.per)) =
          (r.bytes s.freeVal).take (posBytes q.format (headDim q.dsel))) ∧
    (s.nextOp k 16 0x10 r → m.valid = false → Next (exec (.kvRead t k iss []) s) fun u =>
      u.replied s k r 2 0 0 (s.replyLines k r) ∧ (u.ctx k).permErr = true ∧ (u.ctx k).mem = (s.ctx k).mem)

/-- Spill, firmware and page requests (07 R204, R207, R211, R217, R218, R223): lines written to the spill area or the firmware region are there, and
reads hand them back; a line of a page table is made of its entries; a page zeroed reads zero and a page copied reads as its source, other lines staying as they are. -/
def Obligations.MemoryRequestsMoveLinesAndPages : Prop :=
  ∀ (t : Nat) (iss : List Nat) (k : Fin 2) (r : CtxReq) (s : State), (∀ x ∈ (s.ctx k).mem, x.2.flips = 0) →
    let line (u : State) (key : Nat) : Line := mget {} (u.ctx k).mem key
    let sent (u : State) : List Line := (u.repliesAt k r).reverse.map (·.line)
    let m := s.mapOf k r
    let q := s.seqOf k m.seq
    let base := r.f 41 5 % 2 ^ 39 / 64
    let page := r.f 41 5 / 65536
    let src := r.f 46 5 / 65536
    (∀ o p0 ppn, m.valid = true → q.fault = false → s.spillArea r = some (o, p0) → r.count = 1 →
      (s.nextOp k 16 0x12 r → s.translate k o (p0 + r.f 36 4 / 1024) false = .page ppn → Next (exec (.spillRead t k iss []) s) fun u =>
        u.replied s k r 0 q.commit 0 1 ∧ (sent u).head? = some (line s (lineKey ppn (r.f 36 4 % 1024)))) ∧
      (∀ x, s.nextOp k 16 0x13 r → s.translate k o (p0 + r.f 36 4 / 1024) true = .page ppn → r.lines = [x] →
        lineKey ppn (r.f 36 4 % 1024) ∉ s.pteKeys k o [p0 + r.f 36 4 / 1024] →
        Next (exec (.spillWrite t k iss) s) fun u => u.replied s k r 0 q.commit 0 0 ∧
          ∀ key, line u key = if key = lineKey ppn (r.f 36 4 % 1024) then x else line s key)) ∧
    (fwLegal k r = true → s.stackUp k 0 = true →
      (s.nextOp k 16 0x20 r → Next (exec (.fwRead t k iss []) s) fun u => u.replied s k r 0 0 0 r.count ∧
        ∀ i < r.count, (sent u)[r.count - 1 - i]? = some (s.fwLine k (base + i))) ∧
      (s.nextOp k 16 0x21 r → r.lines.length = r.count → Next (exec (.fwWrite t k iss) s) fun u => u.replied s k r 0 0 0 0 ∧
        ((∀ i < r.count, s.tableAt k (base + i) = none) → u.pages = s.pages ∧
          ∀ key, line u key = if base ≤ key ∧ key < base + r.count then r.lines.getD (key - base) {} else line s key) ∧
        (∀ n j x, r.lines = [x] → s.tableAt k base = some (n, j) → ∀ i < 16, u.pte n (j + i) = x.data.extractLsb' (32 * i) 32))) ∧
    (s.pageLegal k page = none →
      (s.nextOp k 18 0x30 r → Next (exec (.pageZero t k iss) s) fun u => u.replied s k r 0 0 0 0 ∧
        ∀ key, line u key = if key / 1024 = page % 2 ^ 23 then {} else line s key) ∧
      (s.nextOp k 18 0x31 r → s.pageLegal k src = none → page ≠ src → Next (exec (.pageCopy t k iss []) s) fun u => u.replied s k r 0 0 0 0 ∧
        ∀ key, line u key = if key / 1024 = page % 2 ^ 23 then line s (lineKey src (key % 1024)) else line s key))

/-- Commands wait first in, first out: a step takes the command at the front and runs it on the rest of the machine, with the queue's rest;
with none waiting the block idles (the model's choice, log 2). -/
def Obligations.StepRunsTheFrontCommand : Prop :=
  (∀ (c : Instr) (q : List Instr) (s : State), s.pending = c :: q → step s = exec c { s with pending := q }) ∧
  ∀ s : State, s.pending = [] → step s = .next s

/-- The invariant holds after reset: every memory and unit map in its one form, no snag logged, and OFF with stage 1 out of regulation. -/
def Obligations.InvariantHoldsAtReset : Prop :=
  State.reset.Inv ∧ State.reset.mode = .off ∧ State.reset.pending = []

/-- The invariant is kept by every step from every state: memories and unit maps stay in their one form, snag numbers have no gap, and
stage 1 is out of regulation in OFF and only there. No step turns back the time or the minimum security version, and none takes back an output. -/
def Obligations.EveryStepKeepsTheInvariant : Prop :=
  ∀ s t : State, step s = .next t → (s.Inv → t.Inv) ∧ s.now ≤ t.now ∧ s.nvm.minSvn ≤ t.nvm.minSvn ∧ s.out <:+ t.out

/-- The module state changes only as its table says (15 R410): every command leads, by transitions of the table, from the state it finds to
the state it leaves; OFF is entered by a reset condition alone and left by stage 1 in regulation alone, PRIMED for AWAITING_CONFIG by the
primer's verification, AWAITING_CONFIG by the read of the configuration, HALTED_CONFIG by CONFIG_COMMIT, AWAITING_COORDS by the entry to
READY, and WITHDRAWN by CONFIG_COMMIT. Stated where stage 1 is out of regulation only in OFF, which every step keeps. -/
def Obligations.ModuleStateChangesByItsTable : Prop :=
  ∀ (c : Instr) (s t : State), s.Inv → exec c s = .next t →
    Relation.ReflTransGen (fun a b : Mode => b ∈ a.next) s.mode t.mode ∧
    (t.mode = .off → s.mode = .off ∨ c.resets = true) ∧
    (s.mode ≠ t.mode → t.mode ≠ .off → match s.mode with
      | .off => t.mode = .primed ∧ ∃ n, c = .stage1InRegulation n
      | .primed => t.mode = .awaitingConfig ∧ ∃ n mv st, c = .primerVerifyDone n mv st
      | .awaitingConfig => ∃ n d, c = .configReadDone n d
      | .haltedConfig => t.mode = .awaitingCoords ∧ ∃ n fn slot, c = .configCommit n fn slot
      | .awaitingCoords => ∃ n, c = .readyEntry n
      | .withdrawn => ∃ n fn slot, c = .configCommit n fn slot
      | _ => True)

/-- The frame of every command: it answers a next state, and besides the time it changes no part of the state but those named for it, and never
the queue or the stepping. -/
def Obligations.CommandsChangeOnlyTheirParts : Prop :=
  ∀ (c : Instr) (s : State), Next (exec c s) fun t => t.pending = s.pending ∧ t.part = s.part ∧ s.now ≤ t.now ∧
    ∀ f, f ≠ .now → f ∉ c.touches → f.same s t

/-- The first check of R311 that a mailbox command fails sets its status: the completion is written, the slot is free again, and nothing
but time, the mailbox and the interrupt it may signal has changed. -/
def Obligations.CommandChecksFailInOrder : Prop :=
  ∀ (i : Instr) (m : MailRow) (c : Cmd) (st : Nat) (s : State), s.takes i m c → s.checkFails m c = some st →
    Next (exec i s) fun u => u.answered m.fn m.slot c st 0 [] ∧ ∀ f, f ∉ [Field.now, .host, .out] → f.same s u

/-- Commands are posted and answered (11 R307, R308, R315, R318–R320; 12 R343, R344). A write lands in a free slot and, where it covers the
sequence word with a new value, posts the slot as it stands (a reserved opcode is answered BAD_ARGUMENT once it is next, the model's
reading, log 89); a busy slot keeps its bytes and the write is counted. DEVICE_INFO, COUNTERS,
SNAG_READ, EXPERT_ENABLE and ATTEST, due and with arguments in range, answer OK with the results the rules lay out. -/
def Obligations.HostCommandsAnswer : Prop :=
  ∀ (t fn slot off : Nat) (b : List Byte) (c : Cmd) (s : State),
    let x := s.slot fn slot
    let at_ (u : State) (i : Nat) : Byte := mget 0 (u.slot fn slot).mem i
    let num (u : State) (o n : Nat) : Nat := leNat ((u.slot fn slot).bytes o n)
    let time := (s.tick t).mtime
    (s.endpointUp = true → s.host.linkUp = true → s.fnExists fn = true → slot < 4 → off + b.length ≤ 4096 → b ≠ [] →
      (x.cmd = none → Next (exec (.commandPost t fn slot off b) s) fun u =>
        (∀ i, at_ u i = if off ≤ i ∧ i < off + b.length then b.getD (i - off) 0 else at_ s i) ∧
        if 4092 < off + b.length ∧ num u 4092 4 ≠ x.last then
          (num u 0 1 ∈ opcodes ∨ s.mailboxUp = false →
            (∃ d, (u.slot fn slot).cmd = some d ∧ d.taken = false ∧ d.at_ = max s.now t ∧ d.op = num u 0 1 ∧ d.flags = num u 1 1 ∧
              d.tag = num u 4 4 ∧ d.seq = num u 4092 4 ∧ d.args = (u.slot fn slot).bytes 64 (min (num u 2 2) 4028)) ∧
            ((∀ f j d, s.posted f j = some d → d.op ∈ opcodes) → u.host.order = s.host.order ++ [(fn, slot)])) ∧
          (num u 0 1 ∉ opcodes → s.mailboxUp = true → s.host.order = [] →
            (u.slot fn slot).cmd = none ∧ ∃ e, (u.slot fn slot).comp = some e ∧ e.status = 3 ∧ e.seq = num u 4092 4)
        else (u.slot fn slot).cmd = none ∧ u.host.order = s.host.order) ∧
      (x.cmd.isSome = true → Next (exec (.commandPost t fn slot off b) s) fun u => u.slot fn slot = x ∧ u.host.busyWrite = true ∧
        u.host.busyCnt = min (s.host.busyCnt + 1) 0xFFFF ∧ u.host.order = s.host.order)) ∧
    (s.due (.deviceInfo t fn slot) fn slot c → Next (exec (.deviceInfo t fn slot) s) fun u => ∃ l, u.answered fn slot c 0 0 l ∧
      l.length = 64 + (if c.expert then 8 * (paceTable s.part).length else 0) ∧ natAt l 0 1 = s.mode.num ∧
      natAt l 1 1 = (if s.part = .b0 then 1 else 0) ∧ natAt l 2 1 = s.gen.toNat ∧ natAt l 3 1 = (if s.expert fn then 1 else 0) ∧
      natAt l 4 2 = s.shownAddr % 2 ^ 16 ∧ natAt l 6 2 = fn % 2 ^ 16 ∧ natAt l 8 8 = s.boot.runVer % 2 ^ 64 ∧
      natAt l 16 2 = ((List.range 1152).filter fun b => !s.fencedBit b).length ∧
      (∀ p < 16, natAt l (20 + 2 * p) 2 = s.readFab (0x100 + 0x40 * p) % 2 ^ 12) ∧
      (c.expert = true → ∀ i e, (paceTable s.part)[i]? = some e → natAt l (64 + 8 * i) 2 = e.1 % 2 ^ 16 ∧
        natAt l (68 + 8 * i) 4 = e.2 % 2 ^ 32)) ∧
    (s.due (.counters t fn slot) fn slot c →
      (c.arg 0 1 = 0 → c.arg 16 4 = 0 → Next (exec (.counters t fn slot) s) fun u => ∃ l, u.answered fn slot c 0 0 l ∧
        natAt l 8 8 = time % 2 ^ 64 ∧ ∀ e ∈ [(0, mget 0 s.host.cnts (4096 * fn)), (1, s.pendingOf fn), (2, s.placedOf fn)],
          natAt l (20 + 16 * e.1) 4 = 5 * 2 ^ 24 + e.1 ∧ natAt l (24 + 16 * e.1) 8 = e.2 % 2 ^ 64) ∧
      (2 < c.arg 0 1 → Next (exec (.counters t fn slot) s) fun u => u.answered fn slot c 3 0 [])) ∧
    (s.due (.snagRead t fn slot) fn slot c →
      (fn = 0 → 0 < c.arg 8 2 → c.arg 8 2 ≤ 62 → s.snagNext = s.snags.length → s.snagNext ≤ 65536 →
        Next (exec (.snagRead t fn slot) s) fun u => ∃ l n, u.answered fn slot c 0 0 l ∧ n = min (c.arg 8 2) (s.snagNext - c.arg 0 8) ∧
          l.length = 16 + 64 * n ∧ natAt l 8 4 = 0 ∧ natAt l 12 2 = n ∧ (n = s.snagNext - c.arg 0 8 ∨ natAt l 0 8 = c.arg 0 8 + n) ∧
          ∀ i < n, ∃ r, s.snags.reverse[c.arg 0 8 + i]? = some r ∧ bytesAt l (16 + 64 * i) 64 = r.bytes) ∧
      (c.arg 8 2 = 0 ∨ 62 < c.arg 8 2 → Next (exec (.snagRead t fn slot) s) fun u => u.answered fn slot c 3 0 [])) ∧
    (s.due (.expertEnable t fn slot) fn slot c → Next (exec (.expertEnable t fn slot) s) fun u =>
      if c.arg 0 2 = 0 ∨ s.host.numVfs < c.arg 0 2 ∨ 2 ≤ c.arg 2 1 then u.answered fn slot c 3 0 [] ∧ u.host.expert = s.host.expert
      else u.answered fn slot c 0 0 [] ∧ (∀ g, u.expert g = if g = c.arg 0 2 then c.arg 2 1 == 1 else s.expert g) ∧
        if s.expert (c.arg 0 2) = (c.arg 2 1 == 1) then u.snags = s.snags
        else ∃ r, u.snags = r :: s.snags ∧ r.code = 0x6010 ∧ r.args = [c.arg 0 2, c.arg 2 1, 0, 0]) ∧
    (s.due (.attest t fn slot) fn slot c → c.arg 32 1 = 0 → Next (exec (.attest t fn slot) s) fun u => ∃ l n m, u.answered fn slot c 0 0 l ∧
      natAt l 0 4 = 0x54535441 ∧ natAt l 4 2 = 1 ∧ natAt l 6 1 = s.mode.num ∧ natAt l 8 1 = s.gen.toNat ∧ natAt l 9 1 = n ∧ n ≤ 8 ∧
      natAt l 10 1 = m ∧ m ≤ 8 ∧ natAt l 11 1 = (if s.expert fn then 1 else 0) ∧ natAt l 14 2 = fn % 2 ^ 16 ∧ natAt l 16 8 = time % 2 ^ 64 ∧
      natAt l 24 8 = s.boot.runVer % 2 ^ 64 ∧ natAt l 40 32 = c.arg 0 32 ∧ natAt l 200 64 = s.boot.fwDigest.toNat ∧
      l.length = 336 + 80 * n + 144 * m + 1280) ∧
    (s.due (.attestCert t fn slot) fn slot c → c.arg 32 1 = 1 → Next (exec (.attestCert t fn slot) s) fun u =>
      u.answered fn slot c 0 0 (leBytes 4 Config.certChain.length ++ leBytes 4 (c.arg 40 4) ++ (Config.certChain.drop (c.arg 40 4)).take 4000))

/-- Function resets, the link and the interrupts (08 R236, R254; 11 R302, R303, R320, R322). A function level reset and D3hot entry clear the function's slots, mark
its requests for removal and count its REQ_IDs anew, close its session and leave plans, prefixes, expert levels and other functions' slots; an endpoint reset does so
to every function and takes the link down without a change of module state; clearing VF Enable also drops the VFs' prefixes and expert
grants. The link comes up, and an unmasked pending vector is sent. -/
def Obligations.FunctionsResetAlone : Prop :=
  ∀ (t fn : Nat) (linkLoss : Bool) (speed : Fin 7) (s : State), s.endpointUp = true →
    let freed (u : State) (f : Nat) : Prop := ∀ i < 4, (u.slot f i).cmd = none ∧ (u.slot f i).last = 0 ∧
      (u.slot f i).comp = (s.slot f i).comp.map fun e => { e with seq := 0 }
    let bare (u : State) : List Loaded := u.plans.map fun p => { p with slots := [] }
    (s.novkoUp = true → s.fnExists fn = true → (∀ p ∈ s.plans, p.step.isSome = true) →
      ∀ e ∈ [(Instr.functionLevelReset t fn, 0), (.d3hotEntry t fn, 1)], Next (exec e.1 s) fun u =>
        freed u fn ∧ (∀ g, g ≠ fn → ∀ i < 4, u.slot g i = s.slot g i) ∧ u.host.order = s.host.order.filter (fun x => x.1 != fn) ∧
        u.host.waits = s.host.waits ∧ u.reqs = s.reqs.map (fun r => if r.fn = fn then { r with id := r.id + 2 ^ 32, removed := true } else r) ∧
        mget 0 u.host.lastReq fn = 0 ∧ u.hostSession fn = none ∧ bare u = bare s ∧ u.prefixes = s.prefixes ∧ u.host.expert = s.host.expert ∧ u.mode = s.mode ∧
        ∃ r l, u.snags = r :: l ∧ r.code = 0x6030 ∧
          r.args = [e.2, ((List.range 4).filter fun i => (s.slot fn i).cmd.isSome).length, (s.reqs.filter fun r => r.fn == fn && !r.removed).length, 0]) ∧
    ((∀ p ∈ s.plans, p.step.isSome = true) → Next (exec (.endpointReset t linkLoss) s) fun u =>
      (∀ f ≤ s.host.numVfs, freed u f) ∧ u.host.linkUp = false ∧ u.host.perst = true ∧ u.host.numVfs = s.host.numVfs ∧ u.mode = s.mode ∧
      bare u = bare s ∧ (∀ r ∈ u.reqs, r.fn ≤ s.host.numVfs → r.removed = true) ∧
      (s.novkoUp = true → s.host.perst = false → ∃ r ∈ u.snags, r.code = 0x6031 ∧ r.args = [if linkLoss then 1 else 0, 0, 0, 0])) ∧
    ((∀ p ∈ s.plans, p.step.isSome = true) → Next (exec (.vfDisable t) s) fun u =>
      (∀ f, 1 ≤ f → f ≤ s.host.numVfs → freed u f ∧ u.expert f = false) ∧ (∀ i < 4, u.slot 0 i = s.slot 0 i) ∧ u.host.numVfs = 0 ∧
      (∀ i p, mget none u.prefixes i = some p → p.tenant = 0) ∧ bare u = bare s ∧ u.mode = s.mode) ∧
    (s.host.linkUp = false → exec (.pcieLinkUp t speed) s = .next { s.tick t with host := { s.host with linkUp := true, speed := speed } }) ∧
    (∀ v, s.fnExists fn = true → v < (if fn = 0 then 64 else 8) → mget false s.host.msixPend (64 * fn + v) = true →
      Next (exec (.msixVectorUnmask t fn v) s) fun u => mget false u.host.unmasked (64 * fn + v) = true ∧
        if mget false s.host.busMaster fn = true ∧ s.host.linkUp = true then
          .irq fn v ∈ u.out ∧ mget false u.host.msixPend (64 * fn + v) = false
        else u.out = s.out ∧ mget false u.host.msixPend (64 * fn + v) = true)

/-- TLPs and registers (00 R8, R12; 04 R133; 05 R172, R174; 11 R301, R304, R310, R325; 12 R337, R346, R354). A TLP on its stream writes a slot as COMMAND_POST does, reaches registers from
the PF only, and reads the words there, leaves completion slots as they are and shows the class code; a TLP off a required stream is dropped and counted. Register writes take effect on RW fields, clear W1C bits, are locked
out of K fields while the bay runs and are ignored at offsets not listed. The drop and mailbox counters clear, and a 10 ms window takes the
tenants' snapshot. -/
def Obligations.TlpsAndRegistersAct : Prop :=
  ∀ (t fn off slot : Nat) (on : Bool) (b : List Byte) (v d0 d1 : Word) (bay : BayIx) (s : State),
    let bar (o : Nat) (w : Word) := exec (.registerWrite t (.bar0 o) w) s
    (s.endpointUp = true → s.host.linkUp = true → s.fnExists fn = true → s.outsideStream fn on = false →
      exec (.tlpReceive t fn on (.slotWrite slot off b)) s = exec (.commandPost t fn slot off b) s ∧
      (s.pwr.stage1Up = true → exec (.tlpReceive t 0 true (.regWrite off v)) s = bar off v) ∧
      (fn ≠ 0 → exec (.tlpReceive t fn on (.regWrite off v)) s = .next (s.tick t) ∧
        exec (.tlpReceive t fn on (.regRead off)) s = .next ((s.tick t).emit (.regRead off 0 (s.streamOf fn)))) ∧
      (off < 0x300000 → exec (.tlpReceive t 0 true (.regRead off)) s = .next ((s.tick t).emit (.regRead off ((s.tick t).readReg off) (s.streamOf 0)))) ∧
      (∀ n, exec (.tlpReceive t fn on (.slotRead false slot off n)) s = .next ((s.tick t).emit (.slotRead fn slot ((s.slot fn slot).bytes off n) (s.streamOf fn)))) ∧
      (0x4000 ≤ off → off < 0x8000 → exec (.tlpReceive t fn on (.winWrite off b)) s = .next (s.tick t)) ∧
      (∃ w : Word, Next (exec (.tlpReceive t fn on (.cfgRead 2)) s) fun u => u.out = .cfgRead fn 2 w :: s.out ∧ w.toNat / 256 = 0x120000) ∧
      Next (exec (.tlpReceive t fn on (.malformed slot d0 d1)) s) fun u => u.host.tlpErr = true ∧
        (s.novkoUp = true → s.host.tlpErr = false → ∃ r, u.snags = r :: s.snags ∧ r.code = 0x6040 ∧ r.args = [slot, d0.toNat, d1.toNat, 0])) ∧
    (s.endpointUp = true → s.host.linkUp = true → s.fnExists fn = true → s.outsideStream fn on = true →
      Next (exec (.tlpReceive t fn on (.slotWrite slot off b)) s) fun u => u.slot fn slot = s.slot fn slot ∧ u.keep.ideDrop = true ∧
        u.keep.drops = min (s.keep.drops + 1) 0xFFFF) ∧
    (s.pwr.stage1Up = true →
      Next (bar 0x4000 v) (fun u => u.host.sevSel = v.extractLsb' 0 2 ∧
        u.host.dmaCnt = (if v.getLsbD 8 then 0 else s.host.dmaCnt) ∧ u.host.busyCnt = (if v.getLsbD 8 then 0 else s.host.busyCnt)) ∧
      Next (bar 0x4004 v) (fun u => u.host = { s.host with perst := s.host.perst && !v.getLsbD 3, tlpErr := s.host.tlpErr && !v.getLsbD 2, dmaErr := s.host.dmaErr && !v.getLsbD 1, busyWrite := s.host.busyWrite && !v.getLsbD 0 }) ∧
      Next (bar 0x200300 v) (fun u => u.sense.thrOn = v.extractLsb' 0 8 ∧ u.sense.thrOff = v.extractLsb' 8 8 ∧ u.sense.thrMode = v.getLsbD 16) ∧
      (let a := 0x1000000 + 0x100000 * (bay.val / 72) + 0x1000 * (bay.val % 72) + 0x10
       let y := s.bay bay
       Next (bar a v) fun u => let z := u.bay bay
        if y.seq.running then z.allocValid = y.allocValid ∧ z.flagFirst = y.flagFirst ∧ z.flagLast = y.flagLast ∧
          z.queueFirst = y.queueFirst ∧ z.queueLast = y.queueLast ∧
          (z.cfgLocked = true ∨ (z.cfgLocked = y.cfgLocked ∧ y.allocValid = v.getLsbD 31 ∧ y.flagFirst = (v.extractLsb' 0 8).toNat ∧ y.flagLast = (v.extractLsb' 8 8).toNat ∧ y.queueFirst = (v.extractLsb' 16 5).toNat ∧ y.queueLast = (v.extractLsb' 24 5).toNat))
        else z.allocValid = v.getLsbD 31 ∧ z.flagFirst = (v.extractLsb' 0 8).toNat ∧ z.flagLast = (v.extractLsb' 8 8).toNat ∧
          z.queueFirst = (v.extractLsb' 16 5).toNat ∧ z.queueLast = (v.extractLsb' 24 5).toNat) ∧
      (0x2000000 ≤ off → bar off v = .next (s.tick t)) ∧
      (s.fnExists fn = true → Next (exec (.registerWrite t (.busMaster fn) v) s) fun u => mget false u.host.busMaster fn = v.getLsbD 0) ∧
      (s.host.numVfs = 0 → 0 < v.toNat → v.toNat ≤ 1024 → Next (exec (.registerWrite t .numVfs v) s) fun u => u.host.numVfs = v.toNat) ∧
      exec (.mbCntClr t) s = .next { s.tick t with host := { s.host with dmaCnt := 0, busyCnt := 0 } } ∧
      exec (.keepCntClr t) s = .next { s.tick t with keep := { s.keep with drops := 0 } }) ∧
    (s.mode ≠ .off → s.snap.time < (s.tick t).mtime / 10000000 * 10000000 → Next (exec (.tenantSnapshotWindow t) s) fun u =>
      u.snap.time = (s.tick t).mtime / 10000000 * 10000000 ∧ u.snap.bays = s.bays ∧ u.snap.panels = s.panels ∧ u.snap.rtrs = s.rtrs ∧
      u.snap.ctx0 = s.ctx0.stopped (max s.now t) ∧ u.snap.ctx1 = s.ctx1.stopped (max s.now t) ∧ u.snap.fab = s.fab ∧ u.snap.meanIn = s.snap.meanIn)

/-- Configuration images (15 R417, R420, R421, R424). CONFIG_LOAD, with the image read from host memory, stages one that passes the checks and
changes nothing in force; one that fails is answered with its check's status. CONFIG_COMMIT writes the staged image to the slot that is not current with
the next sequence number and applies it. -/
def Obligations.ConfigurationImagesAreLoadedAndCommitted : Prop :=
  ∀ (t fn slot : Nat) (b : List Byte) (c : Cmd) (s : State),
    let load := Instr.configLoad t fn slot (.bytes b)
    let commit := Instr.configCommit t fn slot
    (s.due load fn slot c →
      (s.storeBusy = true → Next (exec load s) fun u => u.answered fn slot c 5 0 [] ∧ u.boot = s.boot ∧ u.flash = s.flash) ∧
      (s.storeBusy = false → mget false s.host.busMaster fn = false → Next (exec load s) fun u =>
        u.answered fn slot c 2 0 [] ∧ u.boot = s.boot ∧ u.flash = s.flash) ∧
      (s.storeBusy = false → mget false s.host.busMaster fn = true → b.length = c.arg 8 4 →
        Next (exec load s) fun u => match s.checkCfg b false true with
          | .ok _ => u.answered fn slot c 0 0 [] ∧ u.boot = { s.boot with staged := some b } ∧ u.curSlot = s.curSlot ∧ u.pwr = s.pwr ∧
              u.nvm = s.nvm ∧ u.mode = s.mode
          | .error n =>
              u.answered fn slot c (if n = 1 ∨ n = 8 then 3 else if n = 6 ∨ n = 7 then 2 else 4) (if n = 6 ∨ n = 7 then 0x90020000 + n else 0) [] ∧
              u.boot = { s.boot with cfgCheck := n } ∧ u.flash = s.flash ∧ ∃ r, u.snags = r :: s.snags ∧ r.code = 0x9002 ∧ r.args.head? = some n)) ∧
    (s.due commit fn slot c → s.storeBusy = false →
      (s.boot.staged = none → Next (exec commit s) fun u => u.answered fn slot c 2 0 [] ∧ u.boot = s.boot ∧ u.flash = s.flash) ∧
      (∀ g, s.boot.staged = some b → parseCfg b = some g → s.mode = .haltedConfig ∨ (s.mode = .ready ∧ s.plans = []) →
        Next (exec commit s) fun u => u.answered fn slot c 0 0 [] ∧ u.boot.staged = none ∧ u.boot.inForce = true ∧ u.boot.cfgDigest = g.digest ∧
          u.boot.slot = s.spareSlot ∧ u.nvm.minSvn = max s.nvm.minSvn g.minSvn ∧
          (if s.spareSlot = 0 then u.flash.slot0 else u.flash.slot1) = some { seq := (match s.curSlot with | some e => e.2.seq | none => 0) + 1, image := b, digest := g.digest, committed := true } ∧
          u.boot.portEnable = BitVec.ofNat 16 (natAt g.settings 64 2) ∧ u.boot.auditMin = natAt g.settings 66 2 ∧
          u.mode = (if s.mode = .haltedConfig then .awaitingCoords else .ready)))

/-- PLAN_LOAD takes its steps in order and the first that fails gives the status (11 R316; 05 R161, R166): sixteen plans, the read, the
signature, the image's form, a plan of the same id, the checks 3 to 14. An image that passes is a loaded plan, stopped, open to its access list, with the
class-0 service its certificate earns. -/
def Obligations.PlanLoadTakesItsStepsInOrder : Prop :=
  ∀ (t fn slot : Nat) (b : List Byte) (c : Cmd) (s : State),
    let load := Instr.planLoad t fn slot (.bytes b)
    let img := bytesAt b 0 (c.arg 8 8)
    let l := secTable img (natAt img 6 2)
    let check (n : Nat) : Prop := Next (exec load s) fun u => u.answered fn slot c 2 (0x91010000 + n) [] ∧ u.plans = s.plans ∧
      ∃ r, u.snags = r :: s.snags ∧ r.code = 0x9101 ∧ r.args.head? = some n
    s.due load fn slot c → c.arg 16 2 ≤ 1024 → c.arg 18 2 ≤ 1000 →
      (16 ≤ s.plans.length → Next (exec load s) fun u => u.answered fn slot c 2 0 [] ∧ u.plans = s.plans) ∧
      (s.plans.length < 16 → mget false s.host.busMaster fn = true →
        (∀ cause, Next (exec (.planLoad t fn slot (.fail cause)) s) fun u => (∃ d, u.answered fn slot c 7 d []) ∧ u.plans = s.plans ∧ u.host.dmaErr = true) ∧
        (findSig img = none → check 1) ∧
        ∀ sg, findSig img = some sg → match s.signer (Config.shake256 (img.take sg)) (img.drop sg) 1, parsePlan img sg with
          | none, _ => check 1
          | some _, none => check 2
          | some _, some p =>
            ((∃ q ∈ s.plans, q.img.id = p.id) → Next (exec load s) fun u => u.answered fn slot c 3 0 [] ∧ u.plans = s.plans) ∧
            ((∀ q ∈ s.plans, q.img.id ≠ p.id) →
              let cert := (secOf l 0x0B).map fun _ => parseCert (secBytes img l 0x0B) p.id ((p.layout.slots.filter (·.1)).length)
              match s.firstFail p cert with
              | some (n, _, _) => check n
              | none => Next (exec load s) fun u => ∃ q, u.plans = s.plans ++ [q] ∧
                u.answered fn slot c 0 0 (leBytes 8 p.id ++ leBytes 1 (if q.admitted then 1 else 0)) ∧ q.img = { p with cert := cert.join } ∧
                q.owner = c.arg 16 2 ∧ q.started = false ∧ q.starting = false ∧ q.treeIds.length = p.treeIds.length ∧
                q.access = (List.range (c.arg 18 2)).map (fun i => (c.arg (24 + 4 * i) 2, c.arg (26 + 4 * i) 1 % 2 == 1)) ∧
                (q.admitted = true ↔ ∃ k, cert = some (some k) ∧ ({ p with cert := cert.join } : PlanImg).unfit k s.part = none)))

/-- Plans start, stop and unload (05 R142, R162; 08 R254; 10 R293). PLAN_START of a plan with no peer that may start runs its bays, takes the module to SERVING and answers
OK; with peers it sends each a notice and waits, and is refused if PEER_TIMEOUT passes. PLAN_STOP and PLAN_UNLOAD end the plan's requests; a plan that is not started is
unloaded at once, and one that waits for its peers is busy (the model's reading, log 57). -/
def Obligations.PlansStartStopAndUnload : Prop :=
  ∀ (t fn slot : Nat) (p : Loaded) (c : Cmd) (s : State),
    let start := Instr.planStart t fn slot
    let stop := Instr.planStop t fn slot
    let unload := Instr.planUnload t fn slot
    let peers := (List.range (c.arg 10 2)).map fun i => c.arg (16 + 2 * i) 2
    let others := peers.filter (· != s.moduleAddr)
    let id := p.img.id
    (s.plan (c.arg 0 8) = none → ∀ i ∈ [start, stop, unload], s.due i fn slot c → Next (exec i s) fun u =>
      u.answered fn slot c 3 0 [] ∧ u.plans = s.plans) ∧
    (s.plan (c.arg 0 8) = some p →
      (s.due start fn slot c → c.arg 10 2 ≠ 1 → c.arg 10 2 ≤ 2000 →
        (s.startRefused p (c.arg 8 2) peers = true → Next (exec start s) fun u => u.answered fn slot c 2 0 [] ∧ u.plans = s.plans) ∧
        (s.startRefused p (c.arg 8 2) peers = false → others = [] → s.weights.sel = none → Next (exec start s) fun u =>
          u.answered fn slot c 0 0 [] ∧ u.mode = .serving ∧ ∃ q, u.plan id = some q ∧ q.started = true ∧ q.starting = false ∧ q.stopping = false ∧
            q.session = c.arg 8 2 ∧ q.peers = peers ∧ q.img = p.img ∧ ∀ e ∈ q.live, (u.bay e.bay).seq.running = true ∧
              (u.bay e.bay).allocValid = true ∧ (u.bay e.bay).strokeCnt = 0 ∧ (u.bay e.bay).seq.halted = false) ∧
        (s.startRefused p (c.arg 8 2) peers = false → others ≠ [] → Next (exec start s) fun u =>
          u.goesOn fn slot c ∧ u.mode = s.mode ∧ u.bays = s.bays ∧ (∃ q, u.plan id = some q ∧ q.starting = true ∧ q.startedAt = max s.now t) ∧
            ∀ a ∈ others, ∃ x ∈ u.fab.mgmtQ, x.1 = a)) ∧
      (s.due stop fn slot c → (p.started = false → Next (exec stop s) fun u => u.answered fn slot c 0 0 [] ∧ u.plans = s.plans) ∧
        (p.started = true → p.stopping = false → s.weights.sel = none → s.weights.startQ = [] → Next (exec stop s) fun u =>
          (∀ r ∈ u.reqs, r.plan ≠ id) ∧ ∀ q ∈ u.plans, q.img.id = id → q.stopping = true ∨ q.started = false)) ∧
      (s.due unload fn slot c → (p.starting = true → Next (exec unload s) fun u => u.answered fn slot c 5 0 [] ∧ u.plans = s.plans) ∧
        (p.starting = false → p.started = false → Next (exec unload s) fun u => u.answered fn slot c 0 0 [] ∧
          u.plans = s.plans.filter (fun q => q.img.id != id)) ∧
        (p.starting = false → p.started = true → p.stopping = false → s.weights.sel = none → s.weights.startQ = [] → Next (exec unload s) fun u =>
          (∀ r ∈ u.reqs, r.plan ≠ id) ∧ ∀ q ∈ u.plans, q.img.id = id → q.unloading = true))) ∧
    (s.plan id = some p → p.starting = true → p.startedAt + 1000000000 * max 1 s.fab.peerTimeout.toNat ≤ max s.now t →
      Next (exec (.planStartPeerTimeout t id) s) fun u => (∃ q, u.plan id = some q ∧ q.starting = false ∧ q.started = p.started) ∧
        ∀ w ∈ s.host.waits, w.kind = .planStart id → w ∉ u.host.waits ∧
          ∀ d, (s.slot w.fn w.slot).cmd = some d → d.id = w.id → (u.slot w.fn w.slot).cmd = none)

/-- SUBMIT, CANCEL, PREFIX_KEEP and PREFIX_DROP (08 R234–R236, R250; 07 R214, R215; 11 R305, R317). SUBMIT gives the status of its first failed check, or accepts the request with the fields of
its descriptor and answers its id, bound and seed (on a plan that stops it ends at once, the model's reading, log 123); a pending request is cancelled at once and a placed one at the next scheduling point; a kept
prefix has an entry under its handle, and a dropped one has none. -/
def Obligations.RequestsAreAcceptedCancelledAndKept : Prop :=
  ∀ (t fn slot : Nat) (b : List Byte) (p : Loaded) (r : Req) (c : Cmd) (s : State),
    let submit := Instr.submit t fn slot (.bytes b)
    let cancel := Instr.cancel t fn slot
    let keep := Instr.prefixKeep t fn slot
    let drop := Instr.prefixDrop t fn slot
    (s.due submit fn slot c →
      (∀ st d, s.submitCheck fn c = .error (st, d) → Next (exec submit s) fun u =>
        u.answered fn slot c st (if st = 2 then d else 0) [] ∧ u.reqs = s.reqs) ∧
      (∀ w, s.submitCheck fn c = .ok (p, w) → s.plan p.img.id = some p → p.stopping = true → s.keep.entropyOk = true →
        mget false s.host.busMaster fn = true → Next (exec submit s) fun u => (∃ l, u.answered fn slot c 0 0 l) ∧
          ∀ q ∈ u.reqs, q.plan ≠ p.img.id) ∧
      (∀ w, s.submitCheck fn c = .ok (p, w) → s.plan p.img.id = some p → p.stopping = false → p.step.isSome = true → s.keep.entropyOk = true →
        (mget false s.host.busMaster fn = false → Next (exec submit s) fun u => u.answered fn slot c 2 0 [] ∧ u.reqs = s.reqs) ∧
        (mget false s.host.busMaster fn = true → Next (exec submit s) fun u => ∃ q seed, u.reqs = s.reqs ++ [q] ∧
          u.answered fn slot c 0 0 (leBytes 4 q.id ++ leBytes 4 ((w + 999999) / 1000000) ++ leBytes 8 seed) ∧
          q.seed = BitVec.ofNat 64 seed ∧ (c.arg 61 1 / 4 % 2 = 0 → seed = c.arg 8 8) ∧ mget 0 u.host.lastReq fn = q.id ∧
          q.id = (if mget 0 s.host.lastReq fn % 2 ^ 32 = 0xFFFFFFFF then 1 else mget 0 s.host.lastReq fn % 2 ^ 32 + 1) ∧
          q.fn = fn ∧ q.plan = p.img.id ∧ q.slot = none ∧ q.cls = c.arg 60 1 ∧ q.outAddr = c.arg 32 8 ∧ q.outLen = c.arg 44 4 ∧
          q.maxTok = c.arg 52 4 ∧ q.keepN = c.arg 56 4 ∧ q.tag = c.arg 62 2 ∧ q.input = bytesAt b 0 (c.arg 40 4) ∧
          q.prompt = c.arg 40 4 / p.img.layout.inBytes ∧ q.tAccept = (s.tick t).mtime ∧ q.handle = c.arg 16 8 ∧
          q.deadline = (if c.arg 48 4 = 0 then none else some ((s.tick t).mtime + 1000 * c.arg 48 4))))) ∧
    (s.due cancel fn slot c →
      (s.req fn (c.arg 0 4) = none → Next (exec cancel s) fun u => u.answered fn slot c 3 0 [] ∧ u.reqs = s.reqs) ∧
      (s.req fn (c.arg 0 4) = some r → r.removed = false →
        (r.slot = none → s.plan r.plan = some p → Next (exec cancel s) fun u => u.answered fn slot c 0 0 [] ∧ u.req fn (c.arg 0 4) = none ∧
          (mget false s.host.busMaster fn = true → s.host.linkUp = true → ∃ rec, .hostWrite fn r.outAddr rec (s.streamOf fn) ∈ u.out ∧
            natAt rec 0 4 = r.id % 2 ^ 32 ∧ natAt rec 4 1 = 0 ∧ natAt rec 5 1 = 3)) ∧
        (r.slot.isSome = true → Next (exec cancel s) fun u => u.answered fn slot c 0 0 [] ∧
          u.req fn (c.arg 0 4) = some { r with cancel := true } ∧ u.plans = s.plans))) ∧
    (s.due keep fn slot c →
      (∀ i, s.req fn (c.arg 0 4) = some r → r.removed = false → r.slot = some i → s.plan r.plan = some p →
        (s.othersOf p ≠ [] → Next (exec keep s) fun u => u.answered fn slot c 2 0 [] ∧ u.prefixes = s.prefixes) ∧
        (∀ k q n, s.othersOf p = [] → s.slotSeq p i = some (k, q) →
          n = (if c.arg 4 4 = 0 then (s.seqOf k q).commit else c.arg 4 4) → s.keep.entropyOk = true →
          (n = 0 ∨ (s.seqOf k q).commit < n → Next (exec keep s) fun u => u.answered fn slot c 3 0 [] ∧ u.prefixes = s.prefixes) ∧
          (0 < n → n ≤ (s.seqOf k q).commit →
            (s.keepPrefix k q n none = none → Next (exec keep s) fun u => u.answered fn slot c 2 0 [] ∧ u.prefixes = s.prefixes) ∧
            (s.keepPrefix k q n none ≠ none → Next (exec keep s) fun u => ∃ h x, u.answered fn slot c 0 0 (leBytes 8 h) ∧
              mget none s.prefixes (h % 65536) = none ∧ mget none u.prefixes (h % 65536) = some x ∧ x.n = n ∧ x.die = k ∧
              x.tenant = (s.seqOf k q).tenant ∧ ∀ j, j ≠ h % 65536 → mget none u.prefixes j = mget none s.prefixes j)))) ∧
      (s.req fn (c.arg 0 4) = none → Next (exec keep s) fun u => u.answered fn slot c 3 0 [] ∧ u.prefixes = s.prefixes)) ∧
    (s.due drop fn slot c →
      (s.prefixOf fn (c.arg 0 8) = none → Next (exec drop s) fun u => u.answered fn slot c 3 0 [] ∧ u.prefixes = s.prefixes) ∧
      ∀ i x, s.prefixOf fn (c.arg 0 8) = some (i, x) → Next (exec drop s) fun u => u.answered fn slot c 0 0 [] ∧
        ∀ j, mget none u.prefixes j = if j = i then none else mget none s.prefixes j)

/-- Steps and scheduling points (05 R169; 08 R238–R242, R247, R249). A step-done notice of the present generation from an anchor bay is counted, a stale one is not;
a result message fills its slot's result; a scheduling point that is not due does nothing; a due one retires a pending request
whose deadline has passed and otherwise places it and releases the next step; a deadline is a moment of module time. -/
def Obligations.StepsAndSchedulingPoints : Prop :=
  ∀ (t fn k : Nat) (b : BayIx) (gen : BitVec 8) (p : Loaded) (r : Req) (run : StepRun) (g : Prog) (m : MLine) (ls : List MLine) (s : State),
    let id := p.img.id
    (gen ≠ s.gen → exec (.stepDoneNotice t b gen) s = .next (s.tick t)) ∧
    (s.plan id = some p → p.step = some run → (∀ q ∈ s.plans, q.step.isSome = true → q = p) → run.doneAt = none →
      (b.val ∈ run.waiting → run.waiting.any (· ≠ b.val) = true → Next (exec (.stepDoneNotice t b s.gen) s) fun u =>
        ∃ q, u.plan id = some q ∧ q.step = some { run with waiting := run.waiting.filter (· ≠ b.val) } ∧ u.reqs = s.reqs) ∧
      (run.waiting = [b.val] → run.peers = [] → run.answered = true → p.img.layout.peer = false → p.img.cert = none →
        p.live.any (·.anchor run.prog) = true → Next (exec (.stepDoneNotice t b s.gen) s) fun u => ∃ q x, u.plan id = some q ∧ q.step = some x ∧
          x.waiting = [] ∧ x.doneAt = some (max s.now t) ∧ x.measured = max s.now t - run.released) ∧
      (p.started = true → p.img.layout.stream = hStream m.hdr → hKind m.hdr = 0 → hVc m.hdr = 1 → hGen m.hdr = s.gen → m.line.flips = 0 →
        (∀ l < 4, mget [] s.edgeQ (64 * 19 + l) = []) → run.waiting ≠ [] →
        let d := m.line.data
        let i := fld d 0 8
        ((run.slots.getD i {}).valid = true → mget none run.results i = none → Next (exec (.resultMessage t (m :: ls)) s) fun u =>
          ∃ q y x, u.plan id = some q ∧ q.step = some y ∧ y.results = mset none run.results i (some x) ∧ y.doneAt = none ∧
            x.endTok = (fld d 16 1 == 1) ∧ x.ctx = fld d 24 8 ∧
            (p.img.layout.tensor = false → x.outs = (List.range (min (fld d 8 8) 14)).map fun j => leBytes 4 (fld d (64 + 32 * j) 32))) ∧
        ((run.slots.getD i {}).valid = false → Next (exec (.resultMessage t (m :: ls)) s) fun u => u.plans = s.plans))) ∧
    (s.plan id = some p → (s.tick t).pointDue p = false → exec (.schedulingPoint t id) s = .next (s.tick t)) ∧
    (s.mode = .serving → s.plans = [p] → p.started = true → p.stopping = false → p.img.layout.peer = false → p.rerun = none → p.step = none →
      p.slots = [] → p.map = none → p.peers = [] → p.closed = [] → s.weights.sel = none → s.weights.startQ = [] →
      p.img.layout.slots = [(false, false)] → p.img.layout.cycle = [k] → p.img.layout.progs.getD k {} = g → g.role = 1 →
      s.reqs = [r] → r.plan = id → r.slot = none → r.cls = 1 → r.removed = false → r.handle = 0 → r.sent < r.prompt →
      (r.deadline = none → Next (exec (.schedulingPoint t id) s) fun u => u.reqs = [{ r with slot := some 0 }] ∧ ∃ q x, u.plan id = some q ∧
        q.step = some x ∧ x.prog = k ∧ x.no = p.stepNo ∧ q.stepNo = p.stepNo + 1 ∧ mget none q.slots 0 = some (r.fn, r.id) ∧
        x.slots = [{ seed := r.seed, pos := BitVec.ofNat 32 (r.base + r.sent), valid := true }] ∧ x.released = max s.now t ∧
        x.waiting = ((p.live.filter fun e => e.entries.getD k 0xFFFF != 0xFFFF).filter (·.anchor k)).map (·.bay) ∧
        ∀ e ∈ p.live, e.entries.getD k 0xFFFF ≠ 0xFFFF → s.told e.bay 2 → .novko e.bay (.release s.gen k x.slots) ∈ u.out) ∧
      (∀ d, r.deadline = some d → d ≤ (s.tick t).mtime → Next (exec (.schedulingPoint t id) s) fun u => u.reqs = [] ∧
        (∃ q, u.plan id = some q ∧ q.step = none) ∧
        (mget false s.host.busMaster r.fn = true → s.host.linkUp = true → ∃ rec, .hostWrite r.fn r.outAddr rec (s.streamOf r.fn) ∈ u.out ∧
          natAt rec 0 4 = r.id % 2 ^ 32 ∧ natAt rec 4 1 = 1 ∧ natAt rec 5 1 = 4))) ∧
    (∀ d, s.req fn k = some r → r.deadline = some d →
      exec (.deadlineExpiry t fn k) s = .next { s with now := max (max s.now t) (s.leftOff + d) })

/-- The weight library (09 R255–R263, R274). WEIGHTS_INSTALL makes its checks in order; NONCE hands out a random nonce that lasts 60 s; WRITE, with an
object that verifies, installs a new set at the first free run and entry, and ERASE frees an entry no panel holds; each uses the nonce up and
says which check failed (records out of order count as check 4, and a read error of the check as 5, the model's readings, log 63 and 198).
Store errors are held and logged, and a failed device ends a load. -/
def Obligations.WeightSetsAreInstalledAndErased : Prop :=
  ∀ (t fn slot : Nat) (a : Auth) (g : WImage) (dev : Fin 16) (block op : Nat) (c : Cmd) (s : State),
    let nonce := Instr.weightsInstallNonce t fn slot
    let write := Instr.weightsInstallWrite t fn slot (.got a) (.got g)
    let erase := Instr.weightsInstallErase t fn slot (.got a)
    let fails (i : Instr) (st n : Nat) : Prop := Next (exec i s) fun u =>
      u.answered fn slot c st (if st = 2 ∨ st = 7 then 0x92020000 + n else 0) [] ∧ u.weights.nonce = none ∧
      (∃ r, u.snags = r :: s.snags ∧ r.code = 0x9202 ∧ r.args.head? = some n) ∧ ∀ j, u.store.entry j = s.store.entry j
    let ready := s.mode = .ready ∧ fn = 0 ∧ s.weights.sel = none ∧ s.weights.startQ = [] ∧ mget false s.host.busMaster fn = true
    (∀ i ∈ [nonce, write, erase], s.due i fn slot c →
      ¬(s.mode = .ready ∧ fn = 0 ∧ s.weights.sel = none ∧ s.weights.startQ = []) → Next (exec i s) fun u =>
        u.answered fn slot c (if s.mode = .withdrawn then 8 else if fn ≠ 0 then 4
          else if s.mode = .recovering ∨ s.weights.sel.isSome ∨ s.weights.startQ ≠ [] then 5 else 2)
          (if s.mode ≠ .withdrawn ∧ fn = 0 ∧ ¬(s.mode = .recovering ∨ s.weights.sel.isSome ∨ s.weights.startQ ≠ []) then 4 else 0) [] ∧
        u.weights = s.weights ∧ u.store = s.store) ∧
    (s.due nonce fn slot c → ready → c.arg 0 1 = 0 → c.arg 2 2 = 0 → c.arg 8 24 = 0 → s.keep.entropyOk = true → Next (exec nonce s) fun u =>
      ∃ n, u.answered fn slot c 0 0 (leBytes 32 n) ∧ u.weights = { s.weights with nonce := some (BitVec.ofNat 256 n, max s.now t) }) ∧
    (∀ n, s.weights.nonce = some n → Next (exec (.installNonceExpiry t) s) fun u =>
      u.weights.nonce = if n.2 + 60000000000 ≤ max s.now t then none else some n) ∧
    (s.due write fn slot c → ready → c.arg 2 2 = 0 →
      let form := g.magic = 0x54455357 ∧ g.format = 1 ∧ g.rsv = 0 ∧ 0 < g.nPanels ∧ g.nPanels ≤ 36864 ∧ g.slice < g.slices
      if (s.tick t).authOk a 1 = true then
        (¬form → fails write 3 2) ∧ (form → (s.store.byDigest g.setDigest).isSome = true → fails write 3 3) ∧
        (form → s.store.byDigest g.setDigest = none →
          (s.store.firstFit (imgBlocks g) = none ∨ s.store.freeEntry = none → fails write 2 4) ∧
          ∀ first i, s.store.firstFit (imgBlocks g) = some first → s.store.freeEntry = some i →
            (imgRecordsOk g = false → fails write 3 4) ∧
            (imgRecordsOk g = true →
              if imgDigestsOk g = true ∧ g.setDigest = a.setDigest ∧ s.weights.checkErr = false then Next (exec write s) fun u =>
                u.answered fn slot c 0 0 (leBytes 2 i) ∧ u.weights.nonce = none ∧ u.store.image i = g ∧
                (∃ e, u.store.entry i = some e ∧ e.setDigest = g.setDigest ∧ e.first = first ∧ e.blocks = imgBlocks g ∧ e.key = a.key ∧
                  e.layout = g.layoutDigest) ∧ ∀ j, j ≠ i → u.store.entry j = s.store.entry j
              else fails write 7 5))
      else ∀ x, fails (.weightsInstallWrite t fn slot (.got a) x) 4 1) ∧
    (s.due erase fn slot c → ready → c.arg 8 16 = 0 →
      let i := c.arg 2 2
      (s.store.entry i = none → fails erase 3 2) ∧
      ∀ e, s.store.entry i = some e →
        let held := s.weights.banks.any fun b => b.2.set == e.setDigest && (b.2.st == .live || b.2.st == .resident)
        if (s.tick t).authOk a 2 = true ∧ a.dirIndex = i ∧ a.setDigest = e.setDigest then
          (held = true → fails erase 2 4) ∧ (held = false → Next (exec erase s) fun u => u.answered fn slot c 0 0 [] ∧
            u.weights.nonce = none ∧ ∀ j, u.store.entry j = if j = i then none else s.store.entry j)
        else fails erase 4 1) ∧
    (s.pwr.stage1Up = true → s.novkoUp = true → s.weights.startQ = [] → s.resil.stage ≠ 2 →
      Next (exec (.storeReadError t dev block op) s) (fun u => u.weights.uncorr = true ∧
        u.weights.checkErr = (op == 2 || s.weights.checkErr) ∧ (∃ r ∈ u.snags, r.code = 0x9220 ∧ r.args = [dev.val, block, op, 0]) ∧
        u.weights.sel = (if op = 0 ∧ s.loadBusy = true then none else s.weights.sel)) ∧
      Next (exec (.storeDeviceFail t dev) s) fun u => u.weights.devFail = true ∧
        u.weights.devBad = s.weights.devBad ||| BitVec.ofNat 16 (2 ^ dev.val) ∧ u.weights.sel = if s.loadBusy = true then none else s.weights.sel)

/-- Selecting a weight set and reading banks back (09 R264–R266, R270, R273). WEIGHTS_SELECT makes its checks in order, answers OK at once where the set is live on every panel it
covers, and otherwise sends the panels their rows; a panel's record that matches leaves the list, the last one of a load-only select ends it, and one that does not match
ends it with FAULT; a notice of another generation does nothing. WEIGHTS_DIGEST counts the banks whose digest differs from their record. -/
def Obligations.WeightSetsAreSelectedAndReadBack : Prop :=
  ∀ (t fn slot : Nat) (b : BayIx) (p : PanelIx) (c : Cmd) (s : State),
    let select := Instr.weightsSelect t fn slot
    let digest := Instr.weightsDigest t fn slot
    let i := c.arg 0 2
    let o := c.arg 2 1
    let img := s.store.image i
    let flips := (img.records.map recKey).filter fun k => !s.holdsLive k img.setDigest
    let left := flips.filter fun k => !s.holdsBack k img.setDigest
    let busy := s.weights.sel.isSome = true ∨ s.weights.startQ ≠ []
    (s.due select fn slot c →
      (s.mode = .withdrawn ∨ fn ≠ 0 ∨ s.store.entry i = none ∨ 4 ≤ o ∨ busy ∨ s.selectBlocked img (o / 2 % 2 == 1) = true ∨ s.mode ∉ modesSession →
        Next (exec select s) fun u => u.answered fn slot c (if s.mode = .withdrawn then 8 else if fn ≠ 0 then 4
            else if s.store.entry i = none ∨ 4 ≤ o then 3 else if busy then 5 else 2)
          (if s.mode ≠ .withdrawn ∧ fn = 0 ∧ s.store.entry i ≠ none ∧ o < 4 ∧ ¬busy ∧ s.selectBlocked img (o / 2 % 2 == 1) = true then 5 else 0) [] ∧
          u.weights = s.weights) ∧
      (fn = 0 → s.store.entry i ≠ none → o < 4 → ¬busy → s.selectBlocked img (o / 2 % 2 == 1) = false → s.mode ∈ modesSession →
        (flips = [] → Next (exec select s) fun u => u.answered fn slot c 0 0 [] ∧ u.weights.sel = none) ∧
        (left ≠ [] → s.weights.devBad = 0 → Next (exec select s) fun u => u.goesOn fn slot c ∧
          (∃ x, u.weights.sel = some x ∧ x.idx = i ∧ x.loadOnly = (o % 2 == 1) ∧ x.switch = (o / 2 % 2 == 1) ∧ x.left = left ∧ x.load = left) ∧
          (s.mode ≠ .recovering → ∀ r ∈ img.records, recKey r ∈ left → s.told (recKey r / 32) 3 → ∃ bank, .novko (recKey r / 32) (.weightRows s.gen r.panel bank r.rows) ∈ u.out)))) ∧
    (∀ x gen, s.weights.sel = some x →
      (gen ≠ s.gen → exec (.panelDoneNotice t b p gen) s = .next (s.tick t)) ∧
      (x.swapping = false → pkey b p ∈ x.left → s.weights.startQ = [] →
        let wrong (where_ : Nat) : Prop := Next (exec (.panelDoneNotice t b p s.gen) s) fun u => u.weights.sel = none ∧
          (s.novkoUp = true → ∃ r ∈ u.snags, r.code = 0x9211 ∧ r.args = [x.idx, where_, 0, 0])
        if imgPanelOk (s.store.image x.idx) (pkey b p) = true then
          (x.left.any (· ≠ pkey b p) = true → Next (exec (.panelDoneNotice t b p s.gen) s) fun u =>
            u.weights = { s.weights with sel := some { x with left := x.left.filter (· ≠ pkey b p) } }) ∧
          (x.left = [pkey b p] → x.loadOnly = true → (∀ w ∈ s.host.waits, w.kind ≠ .select) →
            if (s.store.entry x.idx).any (fun e => imgSet (s.store.image x.idx) == e.setDigest) = true then
              Next (exec (.panelDoneNotice t b p s.gen) s) fun u => u.weights.sel = none ∧ u.host = s.host
            else wrong 0xFFFF)
        else wrong (pkey b p))) ∧
    (s.due digest fn slot c → c.arg 0 1 ≤ 1 →
      (busy ∨ s.resil.stage = 3 → Next (exec digest s) fun u => u.answered fn slot c 5 0 [] ∧ u.weights = s.weights) ∧
      (¬busy → s.resil.stage ≠ 3 → Next (exec digest s) fun u =>
        let bad := (s.heldBanks (c.arg 0 1 == 1)).filter fun e => s.bankDiffers e.1 e.2
        u.answered fn slot c (if bad = [] then 0 else 7) (if bad = [] then 0 else 0x92300000) (leBytes 4 bad.length) ∧
        u.weights.banks = s.weights.banks))

/-- The fabric ports (10 R279, R280, R283, R288–R291, R299, R300). Training ends UP at the width of the good lanes, DOWN without lanes enough or WIRING_ERR on another place's link id; a width change, a lost lane and a
replay act as the rules say; an idle flit's ACK and credits are applied; a violation is counted, NAKed and at VIOL_LIMIT within a second quarantines the port; a port that is DOWN for 2 s, is
released or retrained trains afresh. In the fabric retrain stage of a recovery the end of a port's training starts the next one's (13 R378). Other
ports keep their state else, and where no message waits all that they hold (R290); plans and bays stay as they are. -/
def Obligations.FabricPortsTrainReplayAndQuarantine : Prop :=
  ∀ (t plane rack down w reason seq vc ack uncorr ratio : Nat) (p : Fin 16) (lanes : BitVec 8) (lane : Fin 8) (f : Flit) (c : Coords) (s : State),
    let x := s.port p
    let now := max s.now t
    let quiet := ∀ q, (s.port q).queue = []
    let act (i : Instr) (P : State → Port → Prop) : Prop := Next (exec i s) fun u =>
      P u (u.port p) ∧ (∀ q, q ≠ p.val → (u.port q).st = (s.port q).st ∧ (quiet → u.port q = s.port q)) ∧ u.plans = s.plans ∧ u.bays = s.bays ∧ u.mode = s.mode
    let count := if x.winN = 0 ∨ x.winAt + 1000000000 < now then 1 else x.winN + 1
    let violated (n q v : Nat) (u : State) (y : Port) : Prop := y.viol = min (x.viol + 1) 0xFFFF ∧ y.violSeen = true ∧
      .port p (.nak n q v) ∈ u.out ∧ y.st = if max 1 s.fab.violLimit.toNat ≤ count then .quarantined else x.st
    let good := lanes &&& ~~~x.disable
    let left := x.lanes &&& ~~~(BitVec.ofNat 8 (2 ^ lane.val))
    let less := min x.width (laneWidth left)
    let train := Instr.portTrainingDone t p lanes plane rack down
    let placed := plane = c.planes.getD p 0xFF ∧ rack = c.rack ∧ down = c.slot
    let after := x.acknowledge now ack []
    let afresh (u : State) (y : Port) : Prop := y.st = .training ∧ y.width = 0 ∧ y.trainAt = now ∧ y.tx = [32, 32, 32, 32] ∧ .port p (.linkId 32) ∈ u.out
    let turn := s.mode = .recovering ∧ s.resil.stage = 5 ∧ s.resil.retrainQ.head? = some p.val
    (turn → x.st = .training → s.fab.coords = some c → s.portsMayTrain = true → ∀ q l, s.resil.retrainQ = p.val :: q :: l →
      (∀ k ∈ q :: l, k ≠ p.val ∧ (s.port k).st = .down) → ∀ i ∈ train :: (if placed then [] else [.linkIdFlit t p plane rack down]), Next (exec i s) fun u =>
        u.resil.retrainQ = q :: l ∧ (u.port q).st = .training ∧ (u.port p).st ≠ .training) ∧
    (x.st = .training → s.fab.coords = some c →
      (¬turn → laneWidth good = 0 ∨ laneWidth good < 2 ^ x.minWidth.toNat → act train fun _ y => y.st = .down ∧ y.width = 0) ∧
      (¬turn → 0 < laneWidth good → 2 ^ x.minWidth.toNat ≤ laneWidth good → placed → act train fun _ y => y.st = .up ∧ y.width = laneWidth good ∧
        y.lanes = good ∧ y.rack = rack ∧ y.linkId = some (plane, rack, down) ∧ y.ctrl = false) ∧
      (¬turn → 0 < laneWidth good → 2 ^ x.minWidth.toNat ≤ laneWidth good → ¬placed → act train fun _ y => y.st = .wiringErr) ∧
      (placed → act (.linkIdFlit t p plane rack down) fun _ y => y = { x with linkId := some (plane, rack, down) }) ∧
      (¬turn → ¬placed → act (.linkIdFlit t p plane rack down) fun _ y => y.st = .wiringErr)) ∧
    (x.st = .up →
      (if x.linkId = some (plane, rack, down) then exec (.linkIdFlit t p plane rack down) s = .next (s.tick t)
        else act (.linkIdFlit t p plane rack down) (violated 0x17 0 0)) ∧
      (w ∉ [1, 2, 4, 8] → act (.widthFlit t p w) (violated 0x17 0 0)) ∧
      (w ∈ [1, 2, 4, 8] → act (.widthFlit t p w) fun u y =>
        if min w x.width < 2 ^ x.minWidth.toNat then y.st = .down
        else y.st = .up ∧ y.width = min w x.width ∧ y.changing = true ∧
          if x.changing then y.ctrl = false else y.degraded = true ∧ y.ctrl = true ∧ y.ctrlAt = now ∧ .port p (.width (min w x.width)) ∈ u.out) ∧
      (x.lanes.getLsbD lane = true → act (.laneBad t p lane uncorr ratio) fun u y => y.lanes = left ∧
        if less = 0 ∨ less < 2 ^ x.minWidth.toNat then y.st = .down
        else y.st = .up ∧ y.width = less ∧ y.changing = true ∧ .port p (.width less) ∈ u.out) ∧
      (x.changing = true → act (.widthChangeDone t p) fun _ y => y.changing = false) ∧
      (x.changing = false →
        (x.sent ≠ [] → x.ackAt + 4000 ≤ now → act (.fabricReplayTimeout t p) fun u y => (∀ e ∈ x.sent, .port p (.replay e.1) ∈ u.out) ∧
          y.replays = x.replays + 1 ∧ y.retry = min (x.retry + 1) 0xFFFF ∧ y.st = if 16 ≤ x.replays + 1 then .down else .up) ∧
        (reason = 1 → x.ackOk ack = true → after.sent ≠ [] → after.replays < 15 →
          act (.nakFlit t p reason seq vc ack) fun u y => (∀ e ∈ after.sent, .port p (.replay e.1) ∈ u.out) ∧
            y.sent = after.sent ∧ y.replays = after.replays + 1 ∧ y.st = .up) ∧
        (reason ≠ 1 ∧ ¬(0x10 ≤ reason ∧ reason ≤ 0x17) → act (.nakFlit t p reason seq vc ack) (violated 0x17 seq vc)) ∧
        (reason = 1 ∨ (0x10 ≤ reason ∧ reason ≤ 0x17) → x.ackOk ack = false → act (.nakFlit t p reason seq vc ack) (violated 0x13 seq vc)) ∧
        (0x10 ≤ reason → reason ≤ 0x17 → x.ackOk ack = true → x.queue = [] → act (.nakFlit t p reason seq vc ack) fun _ y => y = after) ∧
        act (.idleFlit t p f) (fun u y =>
          if s.crcOk f = false then
            if x.nakPending then y = x.fec f else y = { x.fec f with nakPending := true } ∧ .port p (.nak 1 x.rxSeq f.vc) ∈ u.out
          else if 4 ≤ f.ftype then violated 0x11 f.seq f.vc u y
          else if f.rsv ≠ 0 ∨ f.nlines ≠ 0 then violated 0x12 f.seq f.vc u y
          else if x.ackOk f.ack = false then violated 0x13 f.seq f.vc u y
          else y.acked = f.ack ∧ (f.ack ≠ x.acked → y.replays = 0 ∧ y.ackAt = now) ∧
            (x.queue = [] → (∀ v < 4, y.tx.getD v 0 = min 32 (x.tx.getD v 0 + f.credit.getD v 0)) ∧
              (f.ack ≠ x.acked → y.sent = (x.sent.dropWhile fun e => e.1 != f.ack).drop 1))))) ∧
    (x.sent = [] ∨ now < x.ackAt + 4000 → act (.fabricReplayTimeout t p) fun u y => y.sent = x.sent ∧ y.replays = x.replays ∧ y.st = x.st ∧ u.out = s.out) ∧
    (x.ctrl = true → x.ctrlAt + 1000 ≤ now →
      (x.st = .training → act (.controlFlitRepeat t p) fun u y => y = { x with ctrlAt := now } ∧ u.out = .port p (.linkId 32) :: s.out) ∧
      (x.st = .up → x.changing = true → act (.controlFlitRepeat t p) fun u y => y = { x with ctrlAt := now } ∧ u.out = .port p (.width x.width) :: s.out)) ∧
    (now < x.ctrlAt + 1000 → exec (.controlFlitRepeat t p) s = .next (s.tick t)) ∧
    (x.st = .down → x.trainAt + 2000000000 ≤ now → s.portsMayTrain = true → act (.portAutoRetrain t p) afresh) ∧
    (x.st = .quarantined → act (.fabPortRelease t p) afresh) ∧
    (x.st ≠ .quarantined → exec (.fabPortRelease t p) s = .next (s.tick t)) ∧
    (x.st ≠ .dark → x.st ≠ .quarantined → s.portsMayTrain = true → (s.portPlane p).isSome = true →
      act (.fabPortRetrain t p) fun u y => afresh u y ∧ y.retrain = true) ∧
    act (.fabPortCntClr t p) (fun _ y => y = { x with viol := 0, retry := 0, uncorr := 0, corrK := 0 }) ∧
    exec (.fabCntClr t) s = .next { s.tick t with fab := { s.fab with staleCnt := 0, noPeerCnt := 0, targetCnt := 0, authCnt := 0 } }

/-- Fabric flits and messages (10 R277–R280, R285–R287, R290, R292–R294). A data flit that is expected, of the present generations and authentic waits for the rest of its message; the last one puts the message's lines into the mesh at
its target's column; one that is stale, unauthentic or aims outside is counted and nothing enters; a whole management message goes to CTL. A message at the die's links leaves as a flit of its stream's entry, with the sequence number,
a good CRC and a credit spent; a stale one, one of an unknown stream or one whose peer is unknown is counted; none leaves before a generation notice that waits; Novko's next message leaves on an UP port. -/
def Obligations.FabricMessagesCross : Prop :=
  ∀ (t : Nat) (p : Fin 16) (f : Flit) (link : Fin 32) (m : MLine) (ls : List MLine) (s : State),
    let x := s.port p
    let b := bayAt (fld f.target 0 5) 0
    let at_ (u : State) : List MLine := ((u.rtr b).buf 0 f.vc).map (·.2) ++ mget [] (u.rtr b).held f.vc
    let egress := exec (.fabricEgressMessage t link (m :: ls)) s
    let expected := x.st = .up ∧ x.changing = false ∧ s.crcOk f = true ∧ f.seq = x.rxSeq ∧ x.rxSeq < 4096 ∧ x.rx.getD f.vc 0 ≠ 0 ∧ f.ftype < 4 ∧ f.vc < 4 ∧
      f.rsv = 0 ∧ 0 < f.nlines ∧ f.nlines ≤ 8 ∧ f.session < 4096 ∧ x.ackOk f.ack = true ∧ f.first = true ∧ f.lines.length = f.nlines ∧
      mget 0 x.open_ f.vc = 0 ∧ mget [] x.asm f.vc = [] ∧ f.dst = s.moduleAddr
    let good := f.genAny = false ∧ f.genDst = s.gen ∧ mget none s.fab.peers f.src = some f.genSrc
    let taken (u : State) : Prop := (u.port p).rxSeq = (f.seq + 1) % 4096 ∧ ∀ q, q ≠ p.val → u.port q = s.port q
    let waits (u : State) : Prop := u.rtrs = s.rtrs ∧ mget 0 (u.port p).open_ f.vc = 1 ∧ mget [] (u.port p).asm f.vc = [f]
    let ended (u : State) : Prop := mget 0 (u.port p).open_ f.vc = 0 ∧ mget [] (u.port p).asm f.vc = []
    (x.st = .up → x.changing = false → s.crcOk f = false → x.nakPending = false → ∀ i ∈ [Instr.dataFlit t p f, .mgmtFlit t p f],
      Next (exec i s) fun u => .port p (.nak 1 x.rxSeq f.vc) ∈ u.out ∧ u.rtrs = s.rtrs ∧ (u.port p).nakPending = true ∧ (u.port p).rxSeq = x.rxSeq) ∧
    (expected →
      (good → s.tagGood f = true → targetBad f.target = false → s.rtrFenced b = false → s.linkDown b 0 = false →
        Next (exec (.dataFlit t p f) s) fun u => taken u ∧ (f.enc = true → mget 0 u.keep.ivRx (ivKey f) = fld f.iv 0 58) ∧
          if f.last then ended u ∧ ∃ l, at_ u = at_ s ++ l ∧ l.map (·.line) = f.lines else waits u) ∧
      (f.genAny = false → ¬good → Next (exec (.dataFlit t p f) s) fun u => taken u ∧ u.rtrs = s.rtrs ∧ u.fab.staleDrop = true ∧
        u.fab.staleCnt = min (s.fab.staleCnt + 1) 0xFFFF ∧ mget false (u.port p).drop f.vc = !f.last) ∧
      (good → s.tagGood f = false → Next (exec (.dataFlit t p f) s) fun u => taken u ∧ u.rtrs = s.rtrs ∧ u.keep = s.keep ∧ u.fab.authFail = true ∧
        u.fab.authCnt = min (s.fab.authCnt + 1) 0xFFFF) ∧
      (f.genAny = true ∨ (good ∧ s.tagGood f = true ∧ targetBad f.target = true) → Next (exec (.dataFlit t p f) s) fun u => taken u ∧
        u.rtrs = s.rtrs ∧ u.fab.targetErr = true ∧ u.fab.targetCnt = min (s.fab.targetCnt + 1) 0xFFFF) ∧
      (good → s.tagGood f = true → Next (exec (.mgmtFlit t p f) s) fun u => taken u ∧ if f.last then ended u else waits u) ∧
      ∀ r d l, good → s.tagGood f = true → f.last = true → s.rtrFenced (bayAt 0 0) = false → s.linkDown (bayAt 0 0) 0 = false → s.attachUp 0 = true →
        s.novkoRoute (bayAt 0 0) (ctlRouter 0) 3 [] = some (r, d) → walk 256 (bayAt 0 0) (novkoHdr r 2 s.gen) = some l → s.sinkOn l = none →
          Next (exec (.mgmtFlit t p f) s) fun u => u.rtrs = s.rtrs ∧ .fabIn f.src f.lines ∈ u.out) ∧
    (mget [] s.edgeQ (64 * 16 + link) = [] → ls.length < 8 →
      (hGen m.hdr ≠ s.gen → Next egress fun u => u.fab = { s.fab with staleCnt := min (s.fab.staleCnt + 1) 0xFFFF } ∧ u.out = s.out) ∧
      (hGen m.hdr = s.gen → s.noticeDue = true → egress = .next (s.tick t)) ∧
      (hGen m.hdr = s.gen → s.noticeDue = false → hKind m.hdr ≠ 0 ∨ hUnit m.hdr ≠ 0 ∨ mget none s.fab.streams (hStream m.hdr) = none → Next egress fun u =>
        u.fab = { s.fab with targetErr := true, targetCnt := min (s.fab.targetCnt + 1) 0xFFFF } ∧ u.out = s.out) ∧
      ∀ e, hGen m.hdr = s.gen → s.noticeDue = false → hKind m.hdr = 0 → hUnit m.hdr = 0 → mget none s.fab.streams (hStream m.hdr) = some e →
        (mget none s.fab.peers e.dst = none → Next egress fun u => u.fab = { s.fab with noPeer := true, noPeerCnt := min (s.fab.noPeerCnt + 1) 0xFFFF } ∧ u.out = s.out) ∧
        (∀ g, mget none s.fab.peers e.dst = some g → s.portOf e.plane = some p.val → e.session = 0 → x.st = .up → x.changing = false → x.queue = [] → x.sent.length < 512 →
          hVc m.hdr < 4 → x.tx.getD (hVc m.hdr) 0 ≠ 0 → x.tx.length = 4 → mget 0 x.txOpen (hVc m.hdr) = 0 → Next egress fun u =>
            ∃ y, .port p (.data ((x.txSeq + 4096 - x.stripe) % 4096 % max 1 x.width) y) ∈ u.out ∧ y.ftype = 1 ∧ y.vc = hVc m.hdr ∧
            y.dst = e.dst ∧ y.src = s.moduleAddr ∧ y.genSrc = s.gen ∧ y.genDst = g ∧ y.target = e.target ∧ y.seq = x.txSeq ∧ y.first = true ∧ y.last = true ∧
            y.nlines = 1 + ls.length ∧ y.lines = (m :: ls).map (fun z => z.line.handOn) ∧ s.crcOk y = true ∧ (u.port p).txSeq = (x.txSeq + 1) % 4096 ∧
            (u.port p).tx.getD (hVc m.hdr) 0 = x.tx.getD (hVc m.hdr) 0 - 1 ∧ (u.port p).sent = x.sent ++ [(x.txSeq, y)])) ∧
    (∀ dst pl st g q, s.fab.mgmtQ = (dst, 0, 2, FabMsg.genNotice pl st g) :: q → (List.range 16).find? (fun p => (s.port p).st == .up) = some p.val →
      x.changing = false → x.queue = [] → x.sent.length < 512 → x.tx.getD 2 0 ≠ 0 → mget 0 x.txOpen 2 = 0 → Next (exec (.fabricEgressMessage t link []) s) fun u =>
        u.fab.mgmtQ = q ∧ ∃ n y l, .port p (.data n y) ∈ u.out ∧ y.ftype = 3 ∧ y.vc = 2 ∧ y.dst = dst ∧ y.genAny = true ∧ y.lines = [l] ∧ y.session = 0 ∧
          fld l.data 0 64 = 1 ∧ fld l.data 64 64 = pl % 2 ^ 64 ∧ fld l.data 128 8 = st % 2 ^ 8 ∧ fld l.data 136 8 = g.toNat)

/-- Spread plans follow their peers (10 R292–R297; 13 R368). A generation notice records its sender's generation and is heard by the plan it names; the last one a starting plan waits for starts it; one of a changed generation aborts the step in
flight; one from a withdrawn peer, or none for PEER_TIMEOUT, stops the plan; notices go to every peer once a second. A peer releases its bays for a step order and a leader counts the reports; an abort starts a recovery. -/
def Obligations.SpreadPlansFollowTheirPeers : Prop :=
  ∀ (t src st no ns : Nat) (gen : BitVec 8) (prog : Fin 16) (slots : List SlotEnt) (p : Loaded) (run : StepRun) (s : State),
    let id := p.img.id
    let notice := exec (.genNotice t src id st gen true) s
    let others := s.othersOf p
    let quiet := s.weights.sel = none ∧ s.weights.startQ = [] ∧ ∀ q ∈ s.plans, q.rerun = none
    let stops (u : State) : Prop := (∀ r ∈ u.reqs, r.plan ≠ id) ∧ ∀ q ∈ u.plans, q.img.id = id → q.stopping = true ∨ q.started = false
    exec (.genNotice t src id st gen false) s = .next (s.tick t) ∧
    (s.plan id = none → notice = .next { s.tick t with fab := { s.fab with peers := mset none s.fab.peers src (some gen) } }) ∧
    (s.plan id = some p → src ∈ others → quiet →
      (p.started = false → p.starting = false → Next notice fun u => mget none u.fab.peers src = some gen ∧
        ∃ q, u.plan id = some q ∧ q.heard = mset none p.heard src (some (max s.now t, st, gen))) ∧
      (p.started = false → p.starting = true → s.mode = .ready ∨ s.mode = .serving → st ≠ 8 → (∀ a ∈ others, a ≠ src → (mget none p.heard a).isSome = true) →
        (∀ e ∈ p.bays, s.heldByOther id e.bay = false) → Next notice fun u =>
        u.mode = .serving ∧ (∃ q, u.plan id = some q ∧ q.started = true ∧ q.starting = false) ∧ mget none u.fab.peers src = some gen) ∧
      (p.started = true → p.starting = false → p.step = some run → p.img.layout.peer = false → s.mode = .serving → st ≠ 8 → (∃ g, mget none s.fab.peers src = some g ∧ g ≠ gen) →
        Next notice fun u => u.mode = .recovering ∧ u.resil.stage = 1 ∧ ∀ a ∈ others, .fabric a (.stepAbort id run.no) ∈ u.out) ∧
      (p.started = true → p.starting = false → p.stopping = false → p.step = none → st = 8 → Next notice fun u => stops u ∧
        (s.novkoUp = true → ∃ r ∈ u.snags, r.code = 0x5030 ∧ r.args = [id, src, 1, 0]))) ∧
    (s.plan id = some p → src ∈ others → quiet → p.started = true → p.stopping = false →
      (∀ h, mget none p.heard src = some h → h.1 + 1000000000 * max 1 s.fab.peerTimeout.toNat ≤ max s.now t → Next (exec (.peerTimeoutExpiry t id src) s) fun u =>
        stops u ∧ (s.novkoUp = true → ∃ r ∈ u.snags, r.code = 0x5030 ∧ r.args = [id, src, 0, 0])) ∧
      (∀ h, mget none p.heard src = some h → max s.now t < h.1 + 1000000000 * max 1 s.fab.peerTimeout.toNat → exec (.peerTimeoutExpiry t id src) s = .next (s.tick t)) ∧
      (s.mode = .serving → p.img.layout.peer = true → (∀ r, p.step = some r → r.doneAt.isSome = true) → Next (exec (.stepOrder t src id no prog false false slots []) s) fun u =>
        ∃ q x, u.plan id = some q ∧ q.step = some x ∧ x.prog = prog.val ∧ x.no = no ∧ x.order = src ∧ x.slots = slots ∧ x.released = max s.now t ∧
          ∀ e ∈ p.live, e.entries.getD prog.val 0xFFFF ≠ 0xFFFF → s.told e.bay 2 → .novko e.bay (.release s.gen prog.val slots) ∈ u.out) ∧
      (p.step = some run → run.no = no → p.img.layout.peer = false → run.doneAt = none → run.waiting ≠ [] →
        Next (exec (.stepReport t src id no true false false ns) s) fun u => ∃ q, u.plan id = some q ∧
          q.step = some { run with peers := run.peers.filter (· ≠ src) } ∧ u.reqs = s.reqs) ∧
      (p.step = some run → run.no ≠ no → exec (.stepReport t src id no true false false ns) s = .next (s.tick t) ∧
        exec (.stepAbort t src id no) s = .next (s.tick t)) ∧
      (p.step = some run → run.no = no → s.mode = .serving → Next (exec (.stepAbort t src id no) s) fun u => u.mode = .recovering ∧ u.resil.stage = 1 ∧
        u.resil.abort = true ∧ u.resil.resets = s.resil.resets)) ∧
    (s.novkoUp = true → Next (exec (.genNoticeTimer t) s) fun u => u.plans = s.plans ∧
      ∀ q ∈ s.plans, q.started = true ∨ q.starting = true → ∀ a ∈ s.othersOf q, .fabric a (.genNotice q.img.id s.mode.num s.gen) ∈ u.out)

/-- Sessions (12 R335–R342). SESSION_OPEN makes its checks and opens a host session on a free stream with the stream keys of its shared secret, or starts the set-up of a fabric one, which ends when the follower has a valid grant and
with it the leader's secret, when every peer's KEY_ACK has reached the leader, or refused after PEER_TIMEOUT; a set-up message that fails a check is refused with its reason (that a session of the wrong kind comes before the address and
that a grant whose tag does not match is refused as a bad signature is log 197); SESSION_CLOSE ends what is open and not in use. K_SET_GO and K_SET_STOP turn a session's stream on and off; KEY_PROG and DOE requests are answered (with
values no rule gives).
The entropy source (12 R350, R353): a failed health test stops it and is logged once, a passed retest, ten seconds after the last, restores it and reseeds, and a reseed, a second
after the last, starts the count of requests again; while it is down a command that needs a random value ends with FAULT. -/
def Obligations.SessionsAndEntropySource : Prop :=
  (∀ (t fn slot i : Nat) (k : KeyMsg) (x : FabSess) (h : HostSess) (c : Cmd) (s : State),
    let openHost := Instr.sessionOpenHost t fn slot
    let leader := Instr.sessionOpenLeader t fn slot
    let follower := Instr.sessionOpenFollower t fn slot
    let closeHost := Instr.sessionCloseHost t fn slot
    let closeFabric := Instr.sessionCloseFabric t fn slot
    let n := c.arg 8 2
    let peers := (List.range n).map fun i => c.arg (16 + 2 * i) 2
    let ek := bytesAt c.args 16 1568
    let opens := c.arg 0 1 = 0 ∧ c.arg 1 1 < 2 ∧ c.arg 2 2 = 0
    let refused (reason : Nat) (u : State) : Prop := u.keep = s.keep ∧ u.host.waits = s.host.waits ∧
      ∃ r, u.snags = r :: s.snags ∧ r.code = 0x7032 ∧ r.args = [k.session, k.sender, reason, 0]
    let checked (leader : Bool) (u : State) (P : FabSess → Prop) : Prop :=
      if keySigned k leader = false then refused 1 u
      else if Config.chainLeads Config.caDigest k.chain = false then refused 2 u
      else if k.root ≠ s.rootDigest then refused 3 u
      else match s.fabSession k.session with
        | none => refused 5 u
        | some x => if x.leader ≠ leader then refused 5 u else if ¬(if leader then k.sender ∈ x.peers else x.addr = k.sender) then refused 4 u else P x
    (s.due openHost fn slot c →
      (opens → fn ∈ s.hostFns ∨ s.freeStream = none → Next (exec openHost s) fun u => u.answered fn slot c (if Config.kemCheck ek then 2 else 3) 0 [] ∧ u.keep = s.keep) ∧
      (opens → fn ∉ s.hostFns → ∀ j, s.freeStream = some j → s.keep.entropyOk = true → Next (exec openHost s) fun u => (∀ g, g ≠ fn → u.hostSession g = s.hostSession g) ∧
        if Config.kemCheck ek then ∃ l n, u.answered fn slot c 0 0 l ∧ l.length = 4 + 1568 + 1280 ∧ natAt l 0 4 = j % 2 ^ 32 ∧
          (l.drop 4).take 1568 = bytesAt (Config.kemEncaps ek n).2 0 1568 ∧
          u.hostSession fn = some { stream := j, require := c.arg 1 1 == 1, keys := streamKeys j fn (Config.kemEncaps ek n).1 }
        else u.answered fn slot c 3 0 [] ∧ u.keep = s.keep) ∧
      (¬opens → Next (exec openHost s) fun u => u.answered fn slot c 3 0 [] ∧ u.keep = s.keep)) ∧
    (s.due closeHost fn slot c → c.arg 0 1 = 0 → c.arg 2 2 = 0 → Next (exec closeHost s) fun u =>
      if (s.hostSession fn).isSome then u.answered fn slot c 0 0 [] ∧ u.hostSession fn = none ∧ ∀ g, g ≠ fn → u.hostSession g = s.hostSession g
      else u.answered fn slot c 3 0 [] ∧ u.keep = s.keep) ∧
    (c.arg 1 1 = 0 → 0 < c.arg 2 2 → c.arg 2 2 < 4096 → c.arg 4 2 < 1025 →
      let z := s.fabSession (c.arg 2 2)
      (s.due leader fn slot c → 1 ≤ n → n ≤ 1999 → z.isSome = true ∨ 64 ≤ s.fabIds.length → Next (exec leader s) fun u => u.answered fn slot c 2 0 [] ∧ u.keep = s.keep) ∧
      (s.due leader fn slot c → 1 ≤ n → n ≤ 1999 → z = none → s.fabIds.length < 64 → s.keep.entropyOk = true → Next (exec leader s) fun u => u.goesOn fn slot c ∧
        (∃ d, u.fabSession (c.arg 2 2) = some { leader := true, owner := c.arg 4 2, addr := s.moduleAddr, peers := peers, keyed := true, secret := leBytes 32 d, key := sessionKey (c.arg 2 2) s.moduleAddr (leBytes 32 d) }) ∧
        ∃ w ∈ u.host.waits, w.fn = fn ∧ w.slot = slot ∧ w.kind = .leader (c.arg 2 2) ∧ w.since = max s.now t) ∧
      (s.due follower fn slot c → z = none → s.fabIds.length < 64 → s.keep.entropyOk = true → Next (exec follower s) fun u => u.goesOn fn slot c ∧
        u.fabSession (c.arg 2 2) = some { leader := false, owner := c.arg 4 2, addr := c.arg 6 2, reqAt := max s.now t } ∧
        (∃ m, .fabric (c.arg 6 2) (.keyRequest m) ∈ u.out ∧ m.session = c.arg 2 2 ∧ m.sender = s.moduleAddr ∧ m.addr = c.arg 6 2 ∧ m.root = s.rootDigest ∧
          m.ek = Config.kemPub s.keep.startSeed ∧ m.chain = Config.certChain) ∧
        ∃ w ∈ u.host.waits, w.fn = fn ∧ w.slot = slot ∧ w.kind = .follower (c.arg 2 2))) ∧
    (s.due closeFabric fn slot c →
      (s.fabSession (c.arg 2 2) = none → Next (exec closeFabric s) fun u => u.answered fn slot c 3 0 [] ∧ u.keep = s.keep) ∧
      (s.fabSession (c.arg 2 2) ≠ none → s.sessionUsed (c.arg 2 2) = true → Next (exec closeFabric s) fun u => u.answered fn slot c 2 0 [] ∧ u.keep = s.keep) ∧
      (s.fabSession (c.arg 2 2) ≠ none → s.sessionUsed (c.arg 2 2) = false → (∀ w ∈ s.host.waits, w.fn ≠ fn ∨ w.slot ≠ slot) → Next (exec closeFabric s) fun u =>
        u.answered fn slot c 0 0 [] ∧ u.fabSession (c.arg 2 2) = none ∧ ∀ j, j ≠ c.arg 2 2 → u.fabSession j = s.fabSession j)) ∧
    (s.novkoUp = true → Next (exec (.keyRequest t k) s) fun u => checked true u fun x =>
      if s.keep.entropyOk then u.keep.fabSess = s.keep.fabSess ∧ ∃ g d,
        let w := Config.gcm (wrapKey k.session s.moduleAddr k.sender (Config.kemEncaps k.ek d).1) (List.replicate 12 0) [] x.secret
        .fabric k.sender (.keyGrant g) ∈ u.out ∧ g.session = k.session ∧ g.addr = k.sender ∧ g.root = s.rootDigest ∧ g.ct = (Config.kemEncaps k.ek d).2 ∧
          g.wrapped = w.1 ++ leBytes 16 w.2.toNat
      else u.keep = s.keep ∧ u.out = s.out) ∧
    (s.novkoUp = true → Next (exec (.keyGrant t k) s) fun u => checked false u fun x =>
      match s.unwrap k with
      | none => refused 1 u
      | some secret => u.fabSession k.session = some { x with keyed := true, opened := true, key := sessionKey k.session k.sender secret } ∧
        .fabric k.sender (.keyAck k.session) ∈ u.out ∧ (x.opened = false → ∀ w ∈ u.host.waits, w.kind.opens k.session = false)) ∧
    (s.novkoUp = true → s.fabSession i = some x → x.leader = true → fn ∈ x.peers → fn ∉ x.acks → Next (exec (.keyAck t i fn true) s) fun u =>
      let full := x.peers.all (x.acks ++ [fn]).contains
      u.fabSession i = some { x with acks := x.acks ++ [fn], opened := x.opened || full } ∧
        (full = true → x.opened = false → ∀ w ∈ u.host.waits, w.kind.opens i = false)) ∧
    exec (.keyAck t i fn false) s = .next (s.tick t) ∧
    (s.fabSession i = some x → x.leader = false → x.keyed = false → s.novkoUp = true → x.reqAt + 1000000000 ≤ max s.now t →
      Next (exec (.keyRequestResend t i) s) fun u => u.fabSession i = some { x with reqAt := max s.now t } ∧
        ∃ m, .fabric x.addr (.keyRequest m) ∈ u.out ∧ m.session = i ∧ m.ek = Config.kemPub s.keep.startSeed) ∧
    (s.fabSession i = some x → x.leader = true ∨ x.keyed = true ∨ max s.now t < x.reqAt + 1000000000 → exec (.keyRequestResend t i) s = .next (s.tick t)) ∧
    (s.fabSession i = some x → (∃ w ∈ s.host.waits, w.kind.opens i = true ∧ w.since + 1000000000 * max 1 s.fab.peerTimeout.toNat ≤ max s.now t) →
      Next (exec (.sessionSetupTimeout t i) s) fun u => u.fabSession i = none ∧ (∀ w ∈ u.host.waits, w.kind.opens i = false) ∧
        (s.novkoUp = true → ∃ r ∈ u.snags, r.code = 0x7032)) ∧
    (s.hostSession fn = some h →
      Next (exec (.ideKSetGo t fn) s) (fun u => u.hostSession fn = some { h with active := true } ∧ u.out = .ide fn 0 :: s.out) ∧
      Next (exec (.ideKSetStop t fn) s) fun u => u.hostSession fn = some { h with active := false } ∧ u.out = .ide fn 0 :: s.out) ∧
    (s.endpointUp = true → Next (exec (.ideKeyProg t) s) (fun u => ∃ n, u.out = .ide 0 n :: s.out ∧ n ≠ 0 ∧ u.keep = s.keep) ∧
      ∀ code, Next (exec (.doeSpdmRequest t code) s) fun u => (∃ n, u.out = .spdm n :: s.out) ∧ u.keep = s.keep)) ∧
  (∀ (t fn slot : Nat) (test : Fin 2) (c : Cmd) (s : State),
    let due := ∀ a, s.keep.retestAt = some a → a + 10000000000 ≤ max s.now t
    (s.pwr.stage1Up = true → Next (exec (.entropyHealthFail t test) s) fun u => u.keep.entropyOk = false ∧ u.keep.failSeen = true ∧
      (s.keep.entropyOk = true → u.keep.failAt = max s.now t) ∧
      if s.keep.failSeen = true ∨ s.novkoUp = false then u.snags = s.snags
      else ∃ r, u.snags = r :: s.snags ∧ r.code = 0x7020 ∧ r.args = [test.val, 0, 0, 0]) ∧
    (s.keep.selftestOk = true → s.keep.entropyOk = false → due → Next (exec (.entropyRetest t true) s) fun u =>
      u.keep = { s.keep with entropyOk := true, draws := 0, reseedAt := max s.now t, retestAt := some (max s.now t) } ∧
      (s.novkoUp = true → ∃ r, u.snags = r :: s.snags ∧ r.code = 0x7021 ∧ r.args = [(max s.now t - s.keep.failAt) / 1000000000, 0, 0, 0])) ∧
    (s.keep.selftestOk = true → s.keep.entropyOk = false → due →
      exec (.entropyRetest t false) s = .next { s.tick t with keep := { s.keep with retestAt := some (max s.now t) } }) ∧
    (s.keep.entropyOk = true ∨ ¬due → ∀ ok, exec (.entropyRetest t ok) s = .next (s.tick t)) ∧
    (s.keep.entropyOk = true → s.keep.reseedAt + 1000000000 ≤ max s.now t →
      exec (.drbgReseed t) s = .next { s.tick t with keep := { s.keep with draws := 0, reseedAt := max s.now t } }) ∧
    (s.keep.entropyOk = false → c.arg 0 1 = 1 → c.arg 1 1 = 0 → 0 < c.arg 2 2 → c.arg 2 2 < 4096 → c.arg 4 2 < 1025 → 1 ≤ c.arg 8 2 → c.arg 8 2 ≤ 1999 →
      s.fabSession (c.arg 2 2) = none → s.fabIds.length < 64 → s.due (.sessionOpenLeader t fn slot) fn slot c →
      Next (exec (.sessionOpenLeader t fn slot) s) fun u => u.answered fn slot c 7 0x70200000 [] ∧ u.keep = s.keep))

/-- Detection and fencing (13 R355–R357, R361–R366, R373–R376, R380, R381). A stale notice only interrupts; a residue mismatch is a strike that fences an idle bay at once and starts a compute reset with a step in flight. Signatures of a pair are kept,
counted and compared; a missing one and a hang, for which the stroke counts are sampled every 10 ms, are logged; a core's second expiry in 15 minutes drops it. FENCE and UNFENCE of a bay no started plan uses take effect at once, a placed one and RESET_COMPUTE start a recovery, and the third counted
reset withdraws the module. -/
def Obligations.FaultsAreDetectedAndFenced : Prop :=
  ∀ (t fn slot : Nat) (b : BayIx) (core : Fin 4) (gen : BitVec 8) (kinds : BitVec 4) (panels : BitVec 32) (crc old : BitVec 64) (p : Loaded) (run : StepRun)
    (a : Armed) (c : Cmd) (s : State),
    let id := p.img.id
    let now := max s.now t
    let fence := Instr.fence t fn slot
    let router := Instr.fenceRouter t fn slot
    let unfence := Instr.unfence t fn slot
    let reset := Instr.resetCompute t fn slot
    let k := 72 * c.arg 1 1 + c.arg 2 1
    let idle := s.running = [] ∧ s.placedBy k = false ∧ s.mode ≠ .recovering
    let early := ∃ a, s.resil.sampled = some a ∧ now < a + 10000000
    let few := (s.tick t).countedResets < 2
    let strikes (u : State) (row unit : Nat) : Prop := ∃ x ∈ u.resil.strikes, x.row = row ∧ x.unit = unit ∧ x.at_ = now
    let signs (e : Instr) (P : State → Armed → Prop) : Prop := Next (exec e s) fun u => ∃ q x y, u.plan id = some q ∧ q.step = some x ∧ x.arms = [y] ∧ P u y
    (gen ≠ s.gen ∨ s.mode = .withdrawn → exec (.faultNotice t b gen kinds panels 0) s = .next ((s.tick t).raise 0 11)) ∧
    (s.novkoUp = true → s.mode = .ready → s.plans = [] → mget 0 s.resil.fences b = 0 → Next (exec (.faultNotice t b s.gen 2 0 0) s) fun u =>
      strikes u 4 b ∧ mget 0 u.resil.fences b = 1 ∧ u.localClosed b = true ∧ u.mode = .ready ∧ ∃ r ∈ u.snags, r.code = 0x2081 ∧ r.args.head? = some 0) ∧
    (s.novkoUp = true → s.mode = .serving → p ∈ s.plans → p.started = true → p.step = some run → few → Next (exec (.faultNotice t b s.gen 2 0 0) s) fun u =>
      strikes u 4 b ∧ u.mode = .recovering ∧ u.resil.stage = 1 ∧ u.resil.cause = 4 ∧ now ∈ u.resil.resets) ∧
    (exec (.auditSignature t b (s.gen + 1) 0 crc) s = .next (s.tick t)) ∧
    (s.mode ≠ .withdrawn → s.novkoUp = true → s.plan id = some p → p.step = some run → (∀ q ∈ s.plans, q.step.isSome = true → q = p) → run.arms = [a] → a.asig = none → a.pair.obay ≠ b.val → a.pair.abay = b.val →
      (a.osig = none → signs (.auditSignature t b s.gen a.pair.astroke crc) fun u y => y = { a with asig := some crc } ∧ u.resil = s.resil) ∧
      (a.osig = some crc → a.again = false → signs (.auditSignature t b s.gen a.pair.astroke crc) fun u y => y = { a with asig := some crc, judged := true } ∧
        u.resil = { s.resil with armed := min (s.resil.armed + 1) 0xFFFFFFFF } ∧ u.snags = s.snags) ∧
      (a.osig = some old → old ≠ crc → Next (exec (.auditSignature t b s.gen a.pair.astroke crc) s) fun u => u.resil.mismatch = min (s.resil.mismatch + 1) 0xFFFF ∧
        strikes u 7 b ∧ strikes u 7 a.pair.obay ∧ ∃ r ∈ u.snags, r.code = 0x20A0 ∧ r.args.head? = some id) ∧
      (∀ d, a.osig.isSome = true → a.judged = false → run.doneAt = some d → d + 1000000 ≤ now → Next (exec (.auditSignatureTimeout t id) s) fun u =>
        u.resil.missing = min (s.resil.missing + 1) 0xFFFF ∧ ∃ r ∈ u.snags, r.code = 0x20A1 ∧ r.args = [id, 256 * dieOf b + bayOf b, a.pair.astroke, run.no]) ∧
      (∀ d, run.doneAt = some d → now < d + 1000000 → exec (.auditSignatureTimeout t id) s = .next (s.tick t))) ∧
    (s.mode ≠ .serving ∨ early → exec (.hangSample t) s = .next (s.tick t)) ∧
    (s.mode = .serving → ¬early → (∀ q ∈ s.running, ∀ e ∈ q.live, (s.tick t).hung q e.bay = false) → Next (exec (.hangSample t) s) fun u =>
      u.resil = { s.resil with sampled := some now } ∧ u.plans = s.plans ∧ u.bays = s.bays ∧ u.snags = s.snags ∧ u.mode = s.mode) ∧
    (s.mode = .serving → ¬early → s.novkoUp = true → s.running = [p] → (∃ e ∈ p.live, (s.tick t).hung p e.bay = true) → Next (exec (.hangSample t) s) fun u =>
      ∃ r ∈ u.snags, r.code = 0x2090 ∧ r.args.head? = some id) ∧
    (s.novkoUp = true → s.resil.coresUp.getLsbD core = true → Next (exec (.coreWatchdogExpiry t core) s) fun u =>
      u.resil = { s.resil with expiries := s.resil.expiries ++ [(core.val, now)], coresUp := if (s.resil.expiries.any fun e => e.1 == core.val && decide (now ≤ e.2 + 900000000000)) = true then s.resil.coresUp &&& ~~~(BitVec.ofNat 4 (2 ^ core.val)) else s.resil.coresUp }) ∧
    (s.due fence fn slot c →
      (c.arg 0 1 ≠ 0 ∨ 16 ≤ c.arg 1 1 ∨ 72 ≤ c.arg 2 1 → Next (exec fence s) fun u => u.answered fn slot c 3 0 [] ∧ u.resil = s.resil) ∧
      (c.arg 0 1 = 0 → c.arg 1 1 < 16 → c.arg 2 1 < 72 →
        (s.fenced k = true → Next (exec fence s) fun u => u.answered fn slot c 0 0 [] ∧ u.resil = s.resil) ∧
        (s.fenced k = false → idle → Next (exec fence s) fun u => u.answered fn slot c 0 0 [] ∧ mget 0 u.resil.fences k = 2 ∧ u.localClosed k = true ∧ u.mode = s.mode) ∧
        (s.fenced k = false → s.placedBy k = true → Next (exec fence s) fun u => u.mode = .recovering ∧ mget 0 u.resil.fences k = 2 ∧ u.resil.resets = s.resil.resets))) ∧
    (s.due router fn slot c → c.arg 1 1 < 16 → c.arg 2 1 < 72 →
      (c.expert = false → Next (exec router s) fun u => u.answered fn slot c 3 0 [] ∧ u.rtrs = s.rtrs) ∧
      (c.expert = true → s.rtrFenced k = true → Next (exec router s) fun u => u.answered fn slot c 0 0 [] ∧ u.rtrs = s.rtrs) ∧
      (c.expert = true → s.rtrFenced k = false → idle → Next (exec router s) fun u => u.answered fn slot c 0 0 [] ∧ u.rtrFenced k = true ∧ u.localClosed k = true)) ∧
    (s.due unfence fn slot c → c.arg 0 1 = 0 → c.arg 1 1 < 16 → c.arg 2 1 < 72 →
      (s.fenced k = false → Next (exec unfence s) fun u => u.answered fn slot c 3 0 [] ∧ u.resil = s.resil) ∧
      (s.rtrFenced k = true → Next (exec unfence s) fun u => u.answered fn slot c 2 0 [] ∧ u.resil = s.resil) ∧
      (s.fenced k = true → s.rtrFenced k = false → s.railGone k = false → s.running = [] → Next (exec unfence s) fun u => u.answered fn slot c 0 0 [] ∧
        mget 0 u.resil.fences k = 0 ∧ u.localClosed k = false ∧ ∀ x ∈ u.resil.strikes, x.unit ≠ k)) ∧
    (s.due reset fn slot c →
      (few → Next (exec reset s) fun u => u.goesOn fn slot c ∧ u.mode = .recovering ∧ u.resil.stage = 1 ∧ u.resil.cause = 20 ∧ u.resil.resets = s.resil.resets ++ [now]) ∧
      (¬few → s.plans = [] → s.weights.sel = none → Next (exec reset s) fun u => u.answered fn slot c 8 0 [] ∧ u.mode = .withdrawn))

/-- The stages of a recovery (13 R368, R369, R378–R381). The end of quiesce resets the compute domain in the next generation; each stage that ends begins the next one due, the compute reset again where a detection asked for it; the fabric retrain stage trains the ports that are DOWN one at a time (in ascending order, log 203) and ends when none trains any more; the last takes the module to SERVING or READY and answers the
commands that waited; a recovery that lasts 8 s withdraws the module, at the moment of the last stage's end too; an event of another stage does nothing. -/
def Obligations.RecoveryRunsItsStages : Prop :=
  ∀ (t : Nat) (skims : List (Nat × BitVec 8)) (bad : List (Nat × Bool)) (failed : List (Fin 12)) (s : State), s.mode = .recovering →
    let now := max s.now t
    let first (l : List Nat) : Nat := (l.find? fun n => s.stageDue n).getD 6
    let ends (i : Instr) (l : List Nat) (P : State → Prop) : Prop := Next (exec i s) fun u => u.mode = .recovering ∧ P u ∧
      if s.resil.again then u.gen = s.gen + 1 ∧ u.resil.stage = 2 else u.gen = s.gen ∧ u.resil.stage = first l
    (s.resil.stage = 1 → Next (exec (.quiesceDone t) s) fun u => u.mode = .recovering ∧ u.gen = s.gen + 1 ∧ u.resil.stage = 2 ∧
      (s.novkoUp = true → ∃ r l, u.snags = r :: l ∧ r.code = 0x20B0 ∧ r.gen = s.gen + 1 ∧ r.args.head? = some s.resil.cause) ∧
      (s.plans = [] → (∀ k, (u.panel k).op = none ∧ (u.panel k).acc = [] ∧ (u.panel k).rowCur = none) ∧
        (∀ b, (u.bay b).seq.running = false ∧ (u.bay b).seq.cur = none ∧ (u.bay b).mgmt = []) ∧ u.ctx0.queues = [] ∧ u.ctx1.queues = [])) ∧
    (s.running = [] →
      (s.resil.stage = 2 → s.resil.degraded = [] → ends (.computeResetDone t skims) [3, 4, 5] fun _ => True) ∧
      (s.resil.stage = 3 → s.resil.ran.getLsbD 3 = true → s.weights.banks = [] → ends (.weightRedigestDone t bad) [4, 5] fun u => u.resil.redigest = []) ∧
      (s.resil.stage = 4 → s.resil.redig = false → s.resil.redigestAlways = false → failed = [] → ends (.hbmRetrainDone t failed) [5] fun u =>
        u.resil.hbmDue = false ∧ u.ctx0.badReads = [] ∧ u.ctx1.badReads = []) ∧
      (s.resil.stage = 4 → ∀ i : Fin 12, Next (exec (.hbmRetrainDone t [i]) s) fun u => (u.ctx (i.val / 6)).stackOut.getLsbD (i.val % 6) = true) ∧
      (s.resil.stage = 5 → s.retraining = false → ends (.fabricRetrainDone t) [3, 4, 5] fun _ => True)) ∧
    (s.resil.stage = 4 → s.resil.redig = false → s.resil.redigestAlways = false → s.resil.again = false → s.ctxInService 0 = true → s.ctxInService 1 = true →
      s.stageDue 5 = true → s.portsMayTrain = true → failed = [] → Next (exec (.hbmRetrainDone t failed) s) fun u => u.resil.stage = 5 ∧
        ∃ p l, u.resil.retrainQ = p :: l ∧ s.portsDown = p :: l ∧ (u.port p).st = .training) ∧
    (s.retraining = true → exec (.fabricRetrainDone t) s = .next (s.tick t)) ∧
    (s.novkoUp = true → s.resil.stage = 3 → ∀ k ok, bad = [(k, ok)] → (s.bankRec k (s.liveBank k)).st = .live → Next (exec (.weightRedigestDone t bad) s) fun u =>
      ∃ r ∈ u.snags, r.code = 0x20C0 ∧ r.args.head? = some k) ∧
    (s.resil.stage = 6 → s.resil.again = false → s.stageDue 3 = false → s.stageDue 4 = false → s.stageDue 5 = false → s.weights.sel = none → s.weights.startQ = [] →
      (s.resil.entered + 8000000000 ≤ now → Next (exec (.resumeDone t) s) fun u => u.mode = .withdrawn ∧ u.resil.stage = 0) ∧
      (now < s.resil.entered + 8000000000 → s.plans = [] → s.boot.startFences = [] → s.boot.startSets = [] → Next (exec (.resumeDone t) s) fun u => u.mode = .ready ∧ u.resil.stage = 0 ∧
        (∀ w ∈ s.host.waits, w.kind = .resume → w ∉ u.host.waits ∧ ∀ d, (s.slot w.fn w.slot).cmd = some d → d.id = w.id →
          (u.slot w.fn w.slot).cmd = none ∧ (u.slot w.fn w.slot).comp.map (·.status) = some 0) ∧
        (s.novkoUp = true → ∃ r ∈ u.snags, r.code = 0x20B1 ∧ r.args.head? = some ((now - s.resil.entered) / 1000))) ∧
      (now < s.resil.entered + 8000000000 → (∃ p ∈ s.plans, p.started = true) → (∀ p ∈ s.plans, p.step.isSome = true ∧ p.rerun = none) → Next (exec (.resumeDone t) s) fun u =>
        u.mode = .serving ∧ u.resil.stage = 0)) ∧
    (if s.resil.entered + 8000000000 ≤ now then Next (exec (.recoveryTimeout t) s) fun u => u.mode = .withdrawn ∧ u.resil.stage = 0
      else exec (.recoveryTimeout t) s = .next (s.tick t)) ∧
    (s.resil.stage ≠ 1 → exec (.quiesceDone t) s = .next (s.tick t)) ∧ (s.resil.stage ≠ 2 → exec (.computeResetDone t skims) s = .next (s.tick t)) ∧
    (s.resil.stage ≠ 3 → exec (.weightRedigestDone t bad) s = .next (s.tick t)) ∧ (s.resil.stage ≠ 4 → exec (.hbmRetrainDone t failed) s = .next (s.tick t)) ∧
    (s.resil.stage ≠ 5 → exec (.fabricRetrainDone t) s = .next (s.tick t)) ∧ (s.resil.stage ≠ 6 → exec (.resumeDone t) s = .next (s.tick t))
end

