-- ==== Sys2Proof/Laws/Dispatch.lean ====
section
/-! SUPPORT. What `exec` is on each command: one lemma per constructor of `Instr`, so that no proof unfolds the dispatch. -/

namespace Sys2Proof.Machine

set_option Elab.async false

variable (s : State)

theorem exec_inputPowerOn (t : Nat) : exec (.inputPowerOn t) s = execInputPowerOn t s := rfl

theorem exec_inputPowerLoss (t : Nat) : exec (.inputPowerLoss t) s = execInputPowerLoss t s := rfl

theorem exec_supplyWarningAssert (t mv : Nat) : exec (.supplyWarningAssert t mv) s = execSupplyWarningAssert t mv s := rfl

theorem exec_supplyWarningRelease (t mv : Nat) : exec (.supplyWarningRelease t mv) s = execSupplyWarningRelease t mv s := rfl

theorem exec_sagHoldExpiry (t : Nat) : exec (.sagHoldExpiry t) s = execSagHoldExpiry t s := rfl

theorem exec_resetThreshold (t : Nat) : exec (.resetThreshold t) s = execResetThreshold t s := rfl

theorem exec_resetThresholdRelease (t : Nat) : exec (.resetThresholdRelease t) s = execResetThresholdRelease t s := rfl

theorem exec_overvoltageCut (t : Nat) : exec (.overvoltageCut t) s = execOvervoltageCut t s := rfl

theorem exec_overvoltageRelease (t : Nat) : exec (.overvoltageRelease t) s = execOvervoltageRelease t s := rfl

theorem exec_overcurrentCut (t : Nat) : exec (.overcurrentCut t) s = execOvercurrentCut t s := rfl

theorem exec_modRstNAssert (t : Nat) : exec (.modRstNAssert t) s = execModRstNAssert t s := rfl

theorem exec_modRstNRelease (t : Nat) : exec (.modRstNRelease t) s = execModRstNRelease t s := rfl

theorem exec_stage1InRegulation (t : Nat) : exec (.stage1InRegulation t) s = execStage1InRegulation t s := rfl

theorem exec_stage2InRegulation (t : Nat) : exec (.stage2InRegulation t) s = execStage2InRegulation t s := rfl

theorem exec_stage3GroupInRegulation (t : Nat) : exec (.stage3GroupInRegulation t) s = execStage3GroupInRegulation t s := rfl

theorem exec_railFault (t : Nat) (rail : Fin 79) (mv : Nat) : exec (.railFault t rail mv) s = execRailFault t rail mv s := rfl

theorem exec_railRampTimeout (t : Nat) (rail : Fin 79) (mv : Nat) :
    exec (.railRampTimeout t rail mv) s = execRailRampTimeout t rail mv s := rfl

theorem exec_vauxFault (t : Nat) : exec (.vauxFault t) s = execVauxFault t s := rfl

theorem exec_thermalTrip (t : Nat) (die : Fin 32) : exec (.thermalTrip t die) s = execThermalTrip t die s := rfl

theorem exec_sagThrottleWrite (t : Nat) (v : Bool) : exec (.sagThrottleWrite t v) s = execSagThrottleWrite t v s := rfl

theorem exec_ctlPwrLeafVsetWrite (t : Nat) (n : Fin 16) (v : Word) :
    exec (.ctlPwrLeafVsetWrite t n v) s = execCtlPwrLeafVsetWrite t n v s := rfl

theorem exec_vsetCommit (t : Nat) : exec (.vsetCommit t) s = execVsetCommit t s := rfl

theorem exec_vsetRampDone (t : Nat) : exec (.vsetRampDone t) s = execVsetRampDone t s := rfl

theorem exec_getTid (t : Nat) : exec (.getTid t) s = execGetTid t s := rfl

theorem exec_getPldmVersion (t ty : Nat) : exec (.getPldmVersion t ty) s = execGetPldmVersion t ty s := rfl

theorem exec_getPldmTypes (t : Nat) : exec (.getPldmTypes t) s = execGetPldmTypes t s := rfl

theorem exec_getPldmCommands (t ty : Nat) : exec (.getPldmCommands t ty) s = execGetPldmCommands t ty s := rfl

theorem exec_pldmFirmwareUpdate (t : Nat) (bankB : Bool) (img : FwImage) :
    exec (.pldmFirmwareUpdate t bankB img) s = execPldmFirmwareUpdate t bankB img s := rfl

theorem exec_setCoords (t : Nat) (rec : List Byte) : exec (.setCoords t rec) s = execSetCoords t rec s := rfl

theorem exec_getCoords (t : Nat) : exec (.getCoords t) s = execGetCoords t s := rfl

theorem exec_getPowerStatus (t : Nat) : exec (.getPowerStatus t) s = execGetPowerStatus t s := rfl

theorem exec_sidebandSnagRead (t cursor max : Nat) : exec (.sidebandSnagRead t cursor max) s = execSidebandSnagRead t cursor max s := rfl

theorem exec_getPrimerStatus (t : Nat) : exec (.getPrimerStatus t) s = execGetPrimerStatus t s := rfl

theorem exec_pldmUnsupportedCommand (t ty code : Nat) :
    exec (.pldmUnsupportedCommand t ty code) s = execPldmUnsupportedCommand t ty code s := rfl

theorem exec_primerVerifyDone (t mv : Nat) (st : SelfTest) : exec (.primerVerifyDone t mv st) s = execPrimerVerifyDone t mv st s := rfl

theorem exec_configReadDone (t : Nat) (digestOk : Bool) : exec (.configReadDone t digestOk) s = execConfigReadDone t digestOk s := rfl

theorem exec_d2dLinkTrainingDone (t : Nat) (b : BayIx) (port : Fin 4) (ok : Bool) :
    exec (.d2dLinkTrainingDone t b port ok) s = execD2dLinkTrainingDone t b port ok s := rfl

theorem exec_hbmStackTrainingDone (t : Nat) (stack : Fin 12) (ok : Bool) :
    exec (.hbmStackTrainingDone t stack ok) s = execHbmStackTrainingDone t stack ok s := rfl

theorem exec_startupCalibrationDone (t : Nat) (res : BitVec 8) (exc : List (Nat × BitVec 8)) (lad : List (Nat × Int)) :
    exec (.startupCalibrationDone t res exc lad) s = execStartupCalibrationDone t res exc lad s := rfl

theorem exec_readyEntry (t : Nat) : exec (.readyEntry t) s = execReadyEntry t s := rfl

theorem exec_panelOpStart (t : Nat) (b : BayIx) (p : PanelIx) : exec (.panelOpStart t b p) s = execPanelOpStart t b p s := rfl

theorem exec_computeOpComplete (t : Nat) (b : BayIx) (p : PanelIx) (devs : List Dev) (rf : List ResFault) :
    exec (.computeOpComplete t b p devs rf) s = execComputeOpComplete t b p devs rf s := rfl

theorem exec_skimComplete (t : Nat) (b : BayIx) (p : PanelIx) (res : BitVec 8) :
    exec (.skimComplete t b p res) s = execSkimComplete t b p res s := rfl

theorem exec_rowAccessStart (t : Nat) (b : BayIx) (p : PanelIx) : exec (.rowAccessStart t b p) s = execRowAccessStart t b p s := rfl

theorem exec_rowWriteCommit (t : Nat) (b : BayIx) (p : PanelIx) : exec (.rowWriteCommit t b p) s = execRowWriteCommit t b p s := rfl

theorem exec_rowReadComplete (t : Nat) (b : BayIx) (p : PanelIx) (flips : List Nat) :
    exec (.rowReadComplete t b p flips) s = execRowReadComplete t b p flips s := rfl

theorem exec_pnlCntClr (t : Nat) (b : BayIx) (p : PanelIx) : exec (.pnlCntClr t b p) s = execPnlCntClr t b p s := rfl

theorem exec_pnlWitMismatchClear (t : Nat) (b : BayIx) (p : PanelIx) :
    exec (.pnlWitMismatchClear t b p) s = execPnlWitMismatchClear t b p s := rfl

theorem exec_pnlWinDataClear (t : Nat) (b : BayIx) (p : PanelIx) (v : Word) :
    exec (.pnlWinDataClear t b p v) s = execPnlWinDataClear t b p v s := rfl

theorem exec_pnlLiveWrite (t : Nat) (b : BayIx) (p : PanelIx) (live : Bool) :
    exec (.pnlLiveWrite t b p live) s = execPnlLiveWrite t b p live s := rfl

theorem exec_strokeStart (t : Nat) (b : BayIx) (ups : List Upset) : exec (.strokeStart t b ups) s = execStrokeStart t b ups s := rfl

theorem exec_scratchpadAccessesComplete (t : Nat) (b : BayIx) :
    exec (.scratchpadAccessesComplete t b) s = execScratchpadAccessesComplete t b s := rfl

theorem exec_segmentWakeDone (t : Nat) (b : BayIx) (seg : Fin 4) : exec (.segmentWakeDone t b seg) s = execSegmentWakeDone t b seg s := rfl

theorem exec_segmentSleep (t : Nat) (b : BayIx) (seg : Fin 4) : exec (.segmentSleep t b seg) s = execSegmentSleep t b seg s := rfl

theorem exec_drainComplete (t : Nat) (b : BayIx) (rf : List ResFault) : exec (.drainComplete t b rf) s = execDrainComplete t b rf s := rfl

theorem exec_add (t : Nat) (b : BayIx) (rf : List ResAt) : exec (.add t b rf) s = execAdd t b rf s := rfl

theorem exec_sub (t : Nat) (b : BayIx) (rf : List ResAt) : exec (.sub t b rf) s = execSub t b rf s := rfl

theorem exec_mul (t : Nat) (b : BayIx) (rf : List ResAt) : exec (.mul t b rf) s = execMul t b rf s := rfl

theorem exec_fma (t : Nat) (b : BayIx) (rf : List ResAt) : exec (.fma t b rf) s = execFma t b rf s := rfl

theorem exec_max (t : Nat) (b : BayIx) : exec (.max t b) s = execMax t b s := rfl

theorem exec_min (t : Nat) (b : BayIx) : exec (.min t b) s = execMin t b s := rfl

theorem exec_requant (t : Nat) (b : BayIx) (rf : List ResAt) : exec (.requant t b rf) s = execRequant t b rf s := rfl

theorem exec_cvt (t : Nat) (b : BayIx) : exec (.cvt t b) s = execCvt t b s := rfl

theorem exec_relu (t : Nat) (b : BayIx) : exec (.relu t b) s = execRelu t b s := rfl

theorem exec_exp (t : Nat) (b : BayIx) : exec (.exp t b) s = execExp t b s := rfl

theorem exec_recip (t : Nat) (b : BayIx) : exec (.recip t b) s = execRecip t b s := rfl

theorem exec_rsqrt (t : Nat) (b : BayIx) : exec (.rsqrt t b) s = execRsqrt t b s := rfl

theorem exec_gelu (t : Nat) (b : BayIx) : exec (.gelu t b) s = execGelu t b s := rfl

theorem exec_silu (t : Nat) (b : BayIx) : exec (.silu t b) s = execSilu t b s := rfl

theorem exec_rsum (t : Nat) (b : BayIx) (rf : List ResAt) : exec (.rsum t b rf) s = execRsum t b rf s := rfl

theorem exec_rmax (t : Nat) (b : BayIx) : exec (.rmax t b) s = execRmax t b s := rfl

theorem exec_rsumsq (t : Nat) (b : BayIx) (rf : List ResAt) : exec (.rsumsq t b rf) s = execRsumsq t b rf s := rfl

theorem exec_mmLoadb (t : Nat) (b : BayIx) : exec (.mmLoadb t b) s = execMmLoadb t b s := rfl

theorem exec_mmMul (t : Nat) (b : BayIx) (rf : List ResAt) : exec (.mmMul t b rf) s = execMmMul t b rf s := rfl

theorem exec_mmDrain (t : Nat) (b : BayIx) (rf : List ResAt) : exec (.mmDrain t b rf) s = execMmDrain t b rf s := rfl

theorem exec_send (t : Nat) (b : BayIx) (k : Nat) : exec (.send t b k) s = execSend t b k s := rfl

theorem exec_recv (t : Nat) (b : BayIx) (k : Nat) : exec (.recv t b k) s = execRecv t b k s := rfl

theorem exec_push (t : Nat) (b : BayIx) (k : Nat) : exec (.push t b k) s = execPush t b k s := rfl

theorem exec_pop (t : Nat) (b : BayIx) (k : Nat) (ups : List Upset) : exec (.pop t b k ups) s = execPop t b k ups s := rfl

theorem exec_copy (t : Nat) (b : BayIx) (k : Nat) : exec (.copy t b k) s = execCopy t b k s := rfl

theorem exec_flagsend (t : Nat) (b : BayIx) (k : Nat) : exec (.flagsend t b k) s = execFlagsend t b k s := rfl

theorem exec_faultWindowClose (t : Nat) (b : BayIx) : exec (.faultWindowClose t b) s = execFaultWindowClose t b s := rfl

theorem exec_mgmtAccessServe (t : Nat) (b : BayIx) : exec (.mgmtAccessServe t b) s = execMgmtAccessServe t b s := rfl

theorem exec_baySpDataAccess (t : Nat) (b : BayIx) (wr : Option Word) :
    exec (.baySpDataAccess t b wr) s = execBaySpDataAccess t b wr s := rfl

theorem exec_bayCntClr (t : Nat) (b : BayIx) : exec (.bayCntClr t b) s = execBayCntClr t b s := rfl

theorem exec_bayFlagsWrite (t : Nat) (b : BayIx) (n : Fin 8) (v : Word) :
    exec (.bayFlagsWrite t b n v) s = execBayFlagsWrite t b n v s := rfl

theorem exec_baySegCtrlWrite (t : Nat) (b : BayIx) (v : Word) : exec (.baySegCtrlWrite t b v) s = execBaySegCtrlWrite t b v s := rfl

theorem exec_bayAllocInvalidate (t : Nat) (b : BayIx) : exec (.bayAllocInvalidate t b) s = execBayAllocInvalidate t b s := rfl

theorem exec_bayStrokeCntRead (t : Nat) (b : BayIx) : exec (.bayStrokeCntRead t b) s = execBayStrokeCntRead t b s := rfl

theorem exec_flagSetMessage (t src : Nat) (b : BayIx) (m : MLine) :
    exec (.flagSetMessage t src b m) s = execFlagSetMessage t src b m s := rfl

theorem exec_stepRelease (t src : Nat) (b : BayIx) (gen : BitVec 8) (prog : Fin 16) (slots : List SlotEnt) :
    exec (.stepRelease t src b gen prog slots) s = execStepRelease t src b gen prog slots s := rfl

theorem exec_swapArm (t src : Nat) (b : BayIx) (gen : BitVec 8) (ents : List (Nat × BitVec 32)) :
    exec (.swapArm t src b gen ents) s = execSwapArm t src b gen ents s := rfl

theorem exec_swapFlip (t src : Nat) (b : BayIx) (gen : BitVec 8) (layer : Nat) :
    exec (.swapFlip t src b gen layer) s = execSwapFlip t src b gen layer s := rfl

theorem exec_auditArm (t src : Nat) (b : BayIx) (gen : BitVec 8) (stroke : Nat) :
    exec (.auditArm t src b gen stroke) s = execAuditArm t src b gen stroke s := rfl

theorem exec_mgmtQueuePush (t src : Nat) (b : BayIx) (m : MLine) : exec (.mgmtQueuePush t src b m) s = execMgmtQueuePush t src b m s := rfl

theorem exec_scratchpadWriteMessage (t src : Nat) (b : BayIx) (ms : List MLine) :
    exec (.scratchpadWriteMessage t src b ms) s = execScratchpadWriteMessage t src b ms s := rfl

theorem exec_scratchpadReadMessage (t src : Nat) (b : BayIx) (m : MLine) :
    exec (.scratchpadReadMessage t src b m) s = execScratchpadReadMessage t src b m s := rfl

theorem exec_weightRow (t src : Nat) (b : BayIx) (ms : List MLine) : exec (.weightRow t src b ms) s = execWeightRow t src b ms s := rfl

theorem exec_rowReadback (t src : Nat) (b : BayIx) (m : MLine) : exec (.rowReadback t src b m) s = execRowReadback t src b m s := rfl

theorem exec_dataLineAccept (t src : Nat) (b : BayIx) (m : MLine) :
    exec (.dataLineAccept t src b m) s = execDataLineAccept t src b m s := rfl

theorem exec_lineForward (t : Nat) (b : BayIx) (out : Fin 5) : exec (.lineForward t b out) s = execLineForward t b out s := rfl

theorem exec_linkCrcFail (t : Nat) (b : BayIx) (port : Fin 4) : exec (.linkCrcFail t b port) s = execLinkCrcFail t b port s := rfl

theorem exec_rtrHardFenceWrite (t : Nat) (b : BayIx) : exec (.rtrHardFenceWrite t b) s = execRtrHardFenceWrite t b s := rfl

theorem exec_rtrLocalCloseWrite (t : Nat) (b : BayIx) (v : Bool) :
    exec (.rtrLocalCloseWrite t b v) s = execRtrLocalCloseWrite t b v s := rfl

theorem exec_rtrCntClr (t : Nat) (b : BayIx) : exec (.rtrCntClr t b) s = execRtrCntClr t b s := rfl

theorem exec_contextRequestArrival (t : Nat) (k : Fin 2) (link : Fin 36) (ms : List MLine) :
    exec (.contextRequestArrival t k link ms) s = execContextRequestArrival t k link ms s := rfl

theorem exec_attend (t : Nat) (k : Fin 2) (e : Fin 16) (iss : List Nat) (ups : List Upset) :
    exec (.attend t k e iss ups) s = execAttend t k e iss ups s := rfl

theorem exec_append (t : Nat) (k : Fin 2) (e : Fin 16) (iss : List Nat) (ups : List Upset) :
    exec (.append t k e iss ups) s = execAppend t k e iss ups s := rfl

theorem exec_commitSet (t : Nat) (k : Fin 2) : exec (.commitSet t k) s = execCommitSet t k s := rfl

theorem exec_kvRead (t : Nat) (k : Fin 2) (iss : List Nat) (ups : List Upset) :
    exec (.kvRead t k iss ups) s = execKvRead t k iss ups s := rfl

theorem exec_kvWrite (t : Nat) (k : Fin 2) (iss : List Nat) (ups : List Upset) :
    exec (.kvWrite t k iss ups) s = execKvWrite t k iss ups s := rfl

theorem exec_spillRead (t : Nat) (k : Fin 2) (iss : List Nat) (ups : List Upset) :
    exec (.spillRead t k iss ups) s = execSpillRead t k iss ups s := rfl

theorem exec_spillWrite (t : Nat) (k : Fin 2) (iss : List Nat) : exec (.spillWrite t k iss) s = execSpillWrite t k iss s := rfl

theorem exec_fwRead (t : Nat) (k : Fin 2) (iss : List Nat) (ups : List Upset) :
    exec (.fwRead t k iss ups) s = execFwRead t k iss ups s := rfl

theorem exec_fwWrite (t : Nat) (k : Fin 2) (iss : List Nat) : exec (.fwWrite t k iss) s = execFwWrite t k iss s := rfl

theorem exec_pageZero (t : Nat) (k : Fin 2) (iss : List Nat) : exec (.pageZero t k iss) s = execPageZero t k iss s := rfl

theorem exec_pageCopy (t : Nat) (k : Fin 2) (iss : List Nat) (ups : List Upset) :
    exec (.pageCopy t k iss ups) s = execPageCopy t k iss ups s := rfl

theorem exec_refreshDue (t : Nat) (k : Fin 2) (stack : Fin 6) (ch : Fin 32) :
    exec (.refreshDue t k stack ch) s = execRefreshDue t k stack ch s := rfl

theorem exec_forcedRefresh (t : Nat) (k : Fin 2) (stack : Fin 6) (ch : Fin 32) :
    exec (.forcedRefresh t k stack ch) s = execForcedRefresh t k stack ch s := rfl

theorem exec_arbStarve (t : Nat) (k : Fin 2) (stack : Fin 6) (ch : Fin 32) (req : Fin 18) (level : Fin 3) :
    exec (.arbStarve t k stack ch req level) s = execArbStarve t k stack ch req level s := rfl

theorem exec_ctxPoolPush (t : Nat) (k : Fin 2) (v : Word) : exec (.ctxPoolPush t k v) s = execCtxPoolPush t k v s := rfl

theorem exec_ctxCntClr (t : Nat) (k : Fin 2) : exec (.ctxCntClr t k) s = execCtxCntClr t k s := rfl

theorem exec_ctxStarveCapClear (t : Nat) (k : Fin 2) : exec (.ctxStarveCapClear t k) s = execCtxStarveCapClear t k s := rfl

theorem exec_submit (t fn slot : Nat) (dma : HostRead) : exec (.submit t fn slot dma) s = execSubmit t fn slot dma s := rfl

theorem exec_cancel (t fn slot : Nat) : exec (.cancel t fn slot) s = execCancel t fn slot s := rfl

theorem exec_prefixKeep (t fn slot : Nat) : exec (.prefixKeep t fn slot) s = execPrefixKeep t fn slot s := rfl

theorem exec_prefixDrop (t fn slot : Nat) : exec (.prefixDrop t fn slot) s = execPrefixDrop t fn slot s := rfl

theorem exec_stepDoneNotice (t : Nat) (b : BayIx) (gen : BitVec 8) : exec (.stepDoneNotice t b gen) s = execStepDoneNotice t b gen s := rfl

theorem exec_resultMessage (t : Nat) (ms : List MLine) : exec (.resultMessage t ms) s = execResultMessage t ms s := rfl

theorem exec_schedulingPoint (t : Nat) (plan : Nat) : exec (.schedulingPoint t plan) s = execSchedulingPoint t plan s := rfl

theorem exec_deadlineExpiry (t fn id : Nat) : exec (.deadlineExpiry t fn id) s = execDeadlineExpiry t fn id s := rfl

theorem exec_weightsInstallNonce (t fn slot : Nat) : exec (.weightsInstallNonce t fn slot) s = execWeightsInstallNonce t fn slot s := rfl

theorem exec_installNonceExpiry (t : Nat) : exec (.installNonceExpiry t) s = execInstallNonceExpiry t s := rfl

theorem exec_weightsInstallWrite (t fn slot : Nat) (auth : Fetch Auth) (img : Fetch WImage) :
    exec (.weightsInstallWrite t fn slot auth img) s = execWeightsInstallWrite t fn slot auth img s := rfl

theorem exec_weightsInstallErase (t fn slot : Nat) (auth : Fetch Auth) :
    exec (.weightsInstallErase t fn slot auth) s = execWeightsInstallErase t fn slot auth s := rfl

theorem exec_weightsSelect (t fn slot : Nat) : exec (.weightsSelect t fn slot) s = execWeightsSelect t fn slot s := rfl

theorem exec_panelDoneNotice (t : Nat) (b : BayIx) (p : PanelIx) (gen : BitVec 8) :
    exec (.panelDoneNotice t b p gen) s = execPanelDoneNotice t b p gen s := rfl

theorem exec_weightsDigest (t fn slot : Nat) : exec (.weightsDigest t fn slot) s = execWeightsDigest t fn slot s := rfl

theorem exec_storeReadError (t : Nat) (dev : Fin 16) (block op : Nat) :
    exec (.storeReadError t dev block op) s = execStoreReadError t dev block op s := rfl

theorem exec_storeDeviceFail (t : Nat) (dev : Fin 16) : exec (.storeDeviceFail t dev) s = execStoreDeviceFail t dev s := rfl

theorem exec_portTrainingDone (t : Nat) (p : Fin 16) (lanes : BitVec 8) (plane rack down : Nat) :
    exec (.portTrainingDone t p lanes plane rack down) s = execPortTrainingDone t p lanes plane rack down s := rfl

theorem exec_linkIdFlit (t : Nat) (p : Fin 16) (plane rack down : Nat) :
    exec (.linkIdFlit t p plane rack down) s = execLinkIdFlit t p plane rack down s := rfl

theorem exec_widthFlit (t : Nat) (p : Fin 16) (w : Nat) : exec (.widthFlit t p w) s = execWidthFlit t p w s := rfl

theorem exec_nakFlit (t : Nat) (p : Fin 16) (reason seq vc ack : Nat) :
    exec (.nakFlit t p reason seq vc ack) s = execNakFlit t p reason seq vc ack s := rfl

theorem exec_idleFlit (t : Nat) (p : Fin 16) (f : Flit) : exec (.idleFlit t p f) s = execIdleFlit t p f s := rfl

theorem exec_dataFlit (t : Nat) (p : Fin 16) (f : Flit) : exec (.dataFlit t p f) s = execDataFlit t p f s := rfl

theorem exec_mgmtFlit (t : Nat) (p : Fin 16) (f : Flit) : exec (.mgmtFlit t p f) s = execMgmtFlit t p f s := rfl

theorem exec_fabricReplayTimeout (t : Nat) (p : Fin 16) : exec (.fabricReplayTimeout t p) s = execFabricReplayTimeout t p s := rfl

theorem exec_portAutoRetrain (t : Nat) (p : Fin 16) : exec (.portAutoRetrain t p) s = execPortAutoRetrain t p s := rfl

theorem exec_laneBad (t : Nat) (p : Fin 16) (lane : Fin 8) (uncorr ratio : Nat) :
    exec (.laneBad t p lane uncorr ratio) s = execLaneBad t p lane uncorr ratio s := rfl

theorem exec_widthChangeDone (t : Nat) (p : Fin 16) : exec (.widthChangeDone t p) s = execWidthChangeDone t p s := rfl

theorem exec_controlFlitRepeat (t : Nat) (p : Fin 16) : exec (.controlFlitRepeat t p) s = execControlFlitRepeat t p s := rfl

theorem exec_fabricEgressMessage (t : Nat) (link : Fin 32) (ms : List MLine) :
    exec (.fabricEgressMessage t link ms) s = execFabricEgressMessage t link ms s := rfl

theorem exec_genNotice (t src plan st : Nat) (gen : BitVec 8) (auth : Bool) :
    exec (.genNotice t src plan st gen auth) s = execGenNotice t src plan st gen auth s := rfl

theorem exec_genNoticeTimer (t : Nat) : exec (.genNoticeTimer t) s = execGenNoticeTimer t s := rfl

theorem exec_stepOrder (t src plan stepNo : Nat) (prog : Fin 16) (swap rerun : Bool) (slots : List SlotEnt) (recs : List StepRec) :
    exec (.stepOrder t src plan stepNo prog swap rerun slots recs) s = execStepOrder t src plan stepNo prog swap rerun slots recs s := rfl

theorem exec_stepReport (t src plan stepNo : Nat) (done late resident : Bool) (measured : Nat) :
    exec (.stepReport t src plan stepNo done late resident measured) s = execStepReport t src plan stepNo done late resident measured s := rfl

theorem exec_stepAbort (t src plan stepNo : Nat) : exec (.stepAbort t src plan stepNo) s = execStepAbort t src plan stepNo s := rfl

theorem exec_peerTimeoutExpiry (t plan peer : Nat) : exec (.peerTimeoutExpiry t plan peer) s = execPeerTimeoutExpiry t plan peer s := rfl

theorem exec_keyRequest (t : Nat) (m : KeyMsg) : exec (.keyRequest t m) s = execKeyRequest t m s := rfl

theorem exec_keyGrant (t : Nat) (m : KeyMsg) : exec (.keyGrant t m) s = execKeyGrant t m s := rfl

theorem exec_keyAck (t session sender : Nat) (auth : Bool) :
    exec (.keyAck t session sender auth) s = execKeyAck t session sender auth s := rfl

theorem exec_keyRequestResend (t session : Nat) : exec (.keyRequestResend t session) s = execKeyRequestResend t session s := rfl

theorem exec_sessionSetupTimeout (t session : Nat) : exec (.sessionSetupTimeout t session) s = execSessionSetupTimeout t session s := rfl

theorem exec_fabPortRelease (t : Nat) (p : Fin 16) : exec (.fabPortRelease t p) s = execFabPortRelease t p s := rfl

theorem exec_fabPortRetrain (t : Nat) (p : Fin 16) : exec (.fabPortRetrain t p) s = execFabPortRetrain t p s := rfl

theorem exec_fabPortCntClr (t : Nat) (p : Fin 16) : exec (.fabPortCntClr t p) s = execFabPortCntClr t p s := rfl

theorem exec_fabCntClr (t : Nat) : exec (.fabCntClr t) s = execFabCntClr t s := rfl

theorem exec_endpointReset (t : Nat) (linkLoss : Bool) : exec (.endpointReset t linkLoss) s = execEndpointReset t linkLoss s := rfl

theorem exec_functionLevelReset (t fn : Nat) : exec (.functionLevelReset t fn) s = execFunctionLevelReset t fn s := rfl

theorem exec_d3hotEntry (t fn : Nat) : exec (.d3hotEntry t fn) s = execD3hotEntry t fn s := rfl

theorem exec_vfDisable (t : Nat) : exec (.vfDisable t) s = execVfDisable t s := rfl

theorem exec_commandPost (t fn slot off : Nat) (b : List Byte) :
    exec (.commandPost t fn slot off b) s = execCommandPost t fn slot off b s := rfl

theorem exec_tlpReceive (t fn : Nat) (onStream : Bool) (x : Tlp) :
    exec (.tlpReceive t fn onStream x) s = execTlpReceive t fn onStream x s := rfl

theorem exec_ideKSetGo (t fn : Nat) : exec (.ideKSetGo t fn) s = execIdeKSetGo t fn s := rfl

theorem exec_ideKSetStop (t fn : Nat) : exec (.ideKSetStop t fn) s = execIdeKSetStop t fn s := rfl

theorem exec_ideKeyProg (t : Nat) : exec (.ideKeyProg t) s = execIdeKeyProg t s := rfl

theorem exec_deviceInfo (t fn slot : Nat) : exec (.deviceInfo t fn slot) s = execDeviceInfo t fn slot s := rfl

theorem exec_configLoad (t fn slot : Nat) (dma : HostRead) : exec (.configLoad t fn slot dma) s = execConfigLoad t fn slot dma s := rfl

theorem exec_configCommit (t fn slot : Nat) : exec (.configCommit t fn slot) s = execConfigCommit t fn slot s := rfl

theorem exec_planLoad (t fn slot : Nat) (dma : HostRead) : exec (.planLoad t fn slot dma) s = execPlanLoad t fn slot dma s := rfl

theorem exec_planUnload (t fn slot : Nat) : exec (.planUnload t fn slot) s = execPlanUnload t fn slot s := rfl

theorem exec_planStart (t fn slot : Nat) : exec (.planStart t fn slot) s = execPlanStart t fn slot s := rfl

theorem exec_planStop (t fn slot : Nat) : exec (.planStop t fn slot) s = execPlanStop t fn slot s := rfl

theorem exec_sessionOpenHost (t fn slot : Nat) : exec (.sessionOpenHost t fn slot) s = execSessionOpenHost t fn slot s := rfl

theorem exec_sessionOpenLeader (t fn slot : Nat) : exec (.sessionOpenLeader t fn slot) s = execSessionOpenLeader t fn slot s := rfl

theorem exec_sessionOpenFollower (t fn slot : Nat) : exec (.sessionOpenFollower t fn slot) s = execSessionOpenFollower t fn slot s := rfl

theorem exec_sessionCloseHost (t fn slot : Nat) : exec (.sessionCloseHost t fn slot) s = execSessionCloseHost t fn slot s := rfl

theorem exec_sessionCloseFabric (t fn slot : Nat) : exec (.sessionCloseFabric t fn slot) s = execSessionCloseFabric t fn slot s := rfl

theorem exec_counters (t fn slot : Nat) : exec (.counters t fn slot) s = execCounters t fn slot s := rfl

theorem exec_snagRead (t fn slot : Nat) : exec (.snagRead t fn slot) s = execSnagRead t fn slot s := rfl

theorem exec_attest (t fn slot : Nat) : exec (.attest t fn slot) s = execAttest t fn slot s := rfl

theorem exec_attestCert (t fn slot : Nat) : exec (.attestCert t fn slot) s = execAttestCert t fn slot s := rfl

theorem exec_fence (t fn slot : Nat) : exec (.fence t fn slot) s = execFence t fn slot s := rfl

theorem exec_fenceRouter (t fn slot : Nat) : exec (.fenceRouter t fn slot) s = execFenceRouter t fn slot s := rfl

theorem exec_unfence (t fn slot : Nat) : exec (.unfence t fn slot) s = execUnfence t fn slot s := rfl

theorem exec_resetCompute (t fn slot : Nat) : exec (.resetCompute t fn slot) s = execResetCompute t fn slot s := rfl

theorem exec_expertEnable (t fn slot : Nat) : exec (.expertEnable t fn slot) s = execExpertEnable t fn slot s := rfl

theorem exec_mbCntClr (t : Nat) : exec (.mbCntClr t) s = execMbCntClr t s := rfl

theorem exec_keepCntClr (t : Nat) : exec (.keepCntClr t) s = execKeepCntClr t s := rfl

theorem exec_entropyHealthFail (t : Nat) (test : Fin 2) : exec (.entropyHealthFail t test) s = execEntropyHealthFail t test s := rfl

theorem exec_entropyRetest (t : Nat) (ok : Bool) : exec (.entropyRetest t ok) s = execEntropyRetest t ok s := rfl

theorem exec_drbgReseed (t : Nat) : exec (.drbgReseed t) s = execDrbgReseed t s := rfl

theorem exec_faultNotice (t : Nat) (b : BayIx) (gen : BitVec 8) (kinds : BitVec 4) (panels : BitVec 32) (cnt : Nat) :
    exec (.faultNotice t b gen kinds panels cnt) s = execFaultNotice t b gen kinds panels cnt s := rfl

theorem exec_auditSignature (t : Nat) (b : BayIx) (gen : BitVec 8) (stroke : Nat) (crc : BitVec 64) :
    exec (.auditSignature t b gen stroke crc) s = execAuditSignature t b gen stroke crc s := rfl

theorem exec_auditSignatureTimeout (t plan : Nat) : exec (.auditSignatureTimeout t plan) s = execAuditSignatureTimeout t plan s := rfl

theorem exec_hangSample (t : Nat) : exec (.hangSample t) s = execHangSample t s := rfl

theorem exec_coreWatchdogExpiry (t : Nat) (core : Fin 4) : exec (.coreWatchdogExpiry t core) s = execCoreWatchdogExpiry t core s := rfl

theorem exec_quiesceDone (t : Nat) : exec (.quiesceDone t) s = execQuiesceDone t s := rfl

theorem exec_computeResetDone (t : Nat) (skims : List (Nat × BitVec 8)) :
    exec (.computeResetDone t skims) s = execComputeResetDone t skims s := rfl

theorem exec_weightRedigestDone (t : Nat) (bad : List (Nat × Bool)) :
    exec (.weightRedigestDone t bad) s = execWeightRedigestDone t bad s := rfl

theorem exec_hbmRetrainDone (t : Nat) (failed : List (Fin 12)) : exec (.hbmRetrainDone t failed) s = execHbmRetrainDone t failed s := rfl

theorem exec_fabricRetrainDone (t : Nat) : exec (.fabricRetrainDone t) s = execFabricRetrainDone t s := rfl

theorem exec_resumeDone (t : Nat) : exec (.resumeDone t) s = execResumeDone t s := rfl

theorem exec_recoveryTimeout (t : Nat) : exec (.recoveryTimeout t) s = execRecoveryTimeout t s := rfl

theorem exec_adcConversion (t : Nat) (ch : Fin 32) (code : Int) (ovr : Bool) (merged : Nat) :
    exec (.adcConversion t ch code ovr merged) s = execAdcConversion t ch code ovr merged s := rfl

theorem exec_adcCalPeriod (t : Nat) : exec (.adcCalPeriod t) s = execAdcCalPeriod t s := rfl

theorem exec_hkSelfCal (t : Nat) : exec (.hkSelfCal t) s = execHkSelfCal t s := rfl

theorem exec_adcSelfCalDone (t : Nat) (offset gain : Int) (refMv bgMv : Nat) :
    exec (.adcSelfCalDone t offset gain refMv bgMv) s = execAdcSelfCalDone t offset gain refMv bgMv s := rfl

theorem exec_ladderTrimTick (t : Nat) : exec (.ladderTrimTick t) s = execLadderTrimTick t s := rfl

theorem exec_ladderStepApply (t : Nat) (die : Fin 16) : exec (.ladderStepApply t die) s = execLadderStepApply t die s := rfl

theorem exec_sensorReading (t : Nat) (n : Fin 48) (v : Int) (merged : Nat) :
    exec (.sensorReading t n v merged) s = execSensorReading t n v merged s := rfl

theorem exec_sensorSilent (t : Nat) (n : Fin 48) : exec (.sensorSilent t n) s = execSensorSilent t n s := rfl

theorem exec_skipHoldEnd (t : Nat) (b : BayIx) : exec (.skipHoldEnd t b) s = execSkipHoldEnd t b s := rfl

theorem exec_powerWindow (t : Nat) (leaves : List Nat) : exec (.powerWindow t leaves) s = execPowerWindow t leaves s := rfl

theorem exec_tenantSnapshotWindow (t : Nat) : exec (.tenantSnapshotWindow t) s = execTenantSnapshotWindow t s := rfl

theorem exec_manualDivWrite (t : Nat) (leaf : Fin 32) (v : BitVec 2) :
    exec (.manualDivWrite t leaf v) s = execManualDivWrite t leaf v s := rfl

theorem exec_hkXingCntClr (t : Nat) : exec (.hkXingCntClr t) s = execHkXingCntClr t s := rfl

theorem exec_registerWrite (t : Nat) (a : RegAddr) (v : Word) : exec (.registerWrite t a v) s = execRegisterWrite t a v s := rfl

theorem exec_pcieLinkUp (t : Nat) (speed : Fin 7) : exec (.pcieLinkUp t speed) s = execPcieLinkUp t speed s := rfl

theorem exec_mctpControlMessage (t : Nat) (code : Byte) : exec (.mctpControlMessage t code) s = execMctpControlMessage t code s := rfl

theorem exec_planStartPeerTimeout (t plan : Nat) : exec (.planStartPeerTimeout t plan) s = execPlanStartPeerTimeout t plan s := rfl

theorem exec_doeSpdmRequest (t : Nat) (code : Byte) : exec (.doeSpdmRequest t code) s = execDoeSpdmRequest t code s := rfl

theorem exec_msixVectorUnmask (t fn vec : Nat) : exec (.msixVectorUnmask t fn vec) s = execMsixVectorUnmask t fn vec s := rfl

end Sys2Proof.Machine
end

