-- ==== Sys2Proof/Laws/Sparse.lean ====
section
/-! SUPPORT. Sparse maps: a read after a write, and the one form that every write keeps. -/

namespace Sys2Proof.Machine

set_option Elab.async false

variable {α : Type}

theorem mget_default {d : α} {m : SMap α} {k : Nat} (h : ∀ e ∈ m, e.1 ≠ k) : mget d m k = d := by
  induction m with
  | nil => rfl
  | cons e m ih =>
    simp only [List.forall_mem_cons] at h
    simp [mget, h.1, ih h.2]

/-- What a read answers is an entry or the default. -/
theorem mget_mem {d : α} (m : SMap α) (k : Nat) : (k, mget d m k) ∈ m ∨ mget d m k = d := by
  induction m with
  | nil => exact .inr rfl
  | cons e m ih =>
    obtain ⟨j, v⟩ := e
    by_cases h : j = k
    · subst h; simp [mget]
    · simp only [mget, if_neg h, List.mem_cons]
      exact ih.imp .inr id

/-- A property of the entries and of the default holds of what is read. -/
theorem mget_all {d : α} {m : SMap α} {P : α → Prop} (h : ∀ e ∈ m, P e.2) (hd : P d) (k : Nat) : P (mget d m k) :=
  (mget_mem m k).elim (fun hm => h _ hm) fun e => by rw [e]; exact hd

theorem minsert_mem {m : SMap α} {k : Nat} {v : α} {e : Nat × α} (h : e ∈ minsert m k v) : e ∈ m ∨ e = (k, v) := by
  induction m with
  | nil => exact .inr (by simpa [minsert] using h)
  | cons a m ih =>
    unfold minsert at h
    split at h
    · exact (List.mem_cons.1 h).elim .inr .inl
    · exact (List.mem_cons.1 h).elim (fun h => .inl (h ▸ .head _)) fun h => (ih h).imp (.tail _) id

/-- After a write an entry is an old one or the new value. -/
theorem mset_mem [DecidableEq α] {d : α} {m : SMap α} {k : Nat} {v : α} {e : Nat × α} (h : e ∈ mset d m k v) :
    e ∈ m ∨ e = (k, v) := by
  unfold mset at h
  dsimp only at h
  split at h
  · exact .inl (List.mem_filter.1 h).1
  · exact (minsert_mem h).imp_left fun h => (List.mem_filter.1 h).1

/-- A property of the entries and of the value written holds of the entries after the write. -/
theorem mset_all [DecidableEq α] {d : α} {m : SMap α} {P : α → Prop} (h : ∀ e ∈ m, P e.2) {v : α} (hv : P v) (k : Nat) :
    ∀ e ∈ mset d m k v, P e.2 := by
  intro e he
  rcases mset_mem he with h' | h'
  · exact h e h'
  · rw [h']; exact hv

theorem canonical_nil (d : α) : Canonical d ([] : SMap α) := ⟨.nil, fun _ h => nomatch h⟩

theorem filter_canonical {d : α} {m : SMap α} (h : Canonical d m) (f : Nat × α → Bool) : Canonical d (m.filter f) :=
  ⟨h.1.filter _, fun e he => h.2 e (List.mem_filter.1 he).1⟩

theorem foldl_canonical {β : Type} {d : α} (f : SMap α → β → SMap α) (hf : ∀ m b, Canonical d m → Canonical d (f m b)) (l : List β) :
    ∀ {m : SMap α}, Canonical d m → Canonical d (l.foldl f m) := by
  induction l with
  | nil => exact fun h => h
  | cons b l ih => exact fun h => ih (hf _ b h)

theorem minsert_canonical {d : α} {m : SMap α} (h : Canonical d m) {k : Nat} (hk : ∀ e ∈ m, e.1 ≠ k) {v : α} (hv : v ≠ d) :
    Canonical d (minsert m k v) := by
  induction m with
  | nil => simp [minsert, Canonical, hv]
  | cons a m ih =>
    obtain ⟨hp, hd⟩ := h
    obtain ⟨hlt, hp⟩ := List.pairwise_cons.1 hp
    obtain ⟨hda, hd⟩ := List.forall_mem_cons.1 hd
    obtain ⟨hka, hk⟩ := List.forall_mem_cons.1 hk
    unfold minsert
    split
    · rename_i hkj
      refine ⟨List.pairwise_cons.2 ⟨fun e he => ?_, List.pairwise_cons.2 ⟨hlt, hp⟩⟩,
        List.forall_mem_cons.2 ⟨hv, List.forall_mem_cons.2 ⟨hda, hd⟩⟩⟩
      rcases List.mem_cons.1 he with rfl | he
      · exact hkj
      · exact lt_trans hkj (hlt e he)
    · rename_i hkj
      obtain ⟨hp', hd'⟩ := ih ⟨hp, hd⟩ hk
      refine ⟨List.pairwise_cons.2 ⟨fun e he => ?_, hp'⟩, List.forall_mem_cons.2 ⟨hda, hd'⟩⟩
      rcases minsert_mem he with he | rfl
      · exact hlt e he
      · simp only at hka ⊢; omega

/-- A write keeps the one form. -/
theorem mset_canonical [DecidableEq α] {d : α} {m : SMap α} (h : Canonical d m) (k : Nat) (v : α) :
    Canonical d (mset d m k v) := by
  unfold mset
  dsimp only
  split
  · exact filter_canonical h _
  · exact minsert_canonical (filter_canonical h _) (fun e he => by simpa using (List.mem_filter.1 he).2) ‹_›

theorem mget_minsert {d : α} {m : SMap α} {k : Nat} (hk : ∀ e ∈ m, e.1 ≠ k) (v : α) (j : Nat) :
    mget d (minsert m k v) j = if j = k then v else mget d m j := by
  induction m with
  | nil => simp [minsert, mget, eq_comm]
  | cons a m ih =>
    obtain ⟨i, u⟩ := a
    obtain ⟨hka, hk⟩ := List.forall_mem_cons.1 hk
    unfold minsert
    split
    · simp [mget, eq_comm]
    · simp only [mget, ih hk]
      by_cases h : i = j
      · subst h; simp [hka]
      · simp [h]

theorem mget_filter_ne (d : α) (m : SMap α) (k j : Nat) :
    mget d (m.filter fun e => e.1 != k) j = if j = k then d else mget d m j := by
  induction m with
  | nil => simp [mget]
  | cons a m ih =>
    obtain ⟨i, u⟩ := a
    by_cases h : i = k
    · subst h
      simp only [bne_self_eq_false, Bool.false_eq_true, not_false_eq_true, List.filter_cons_of_neg, ih, mget]
      by_cases h : j = i
      · simp [h]
      · simp [h, Ne.symm h]
    · simp only [bne_iff_ne, ne_eq, h, not_false_eq_true, List.filter_cons_of_pos, mget, ih]
      by_cases hij : i = j
      · subst hij; simp [h]
      · simp [hij]

/-- What is read after a write. -/
theorem mget_mset [DecidableEq α] (d : α) (m : SMap α) (k : Nat) (v : α) (j : Nat) :
    mget d (mset d m k v) j = if j = k then v else mget d m j := by
  unfold mset
  dsimp only
  split
  · rename_i h
    rw [mget_filter_ne, h]
  · rw [mget_minsert (fun e he => by simpa using (List.mem_filter.1 he).2), mget_filter_ne]
    by_cases h : j = k <;> simp [h]

/-- A read after a write of the same key. -/
theorem mget_mset_same [DecidableEq α] {d : α} {m : SMap α} (k : Nat) (v : α) : mget d (mset d m k v) k = v := by simp [mget_mset]

/-- A write leaves every other key alone. -/
theorem mget_mset_other [DecidableEq α] {d : α} {m : SMap α} {k j : Nat} (hjk : j ≠ k) (v : α) :
    mget d (mset d m k v) j = mget d m j := by simp [mget_mset, hjk]

end Sys2Proof.Machine
end

