-- ==== Sys2Proof/Laws/Kept.lean ====
section
/-! SUPPORT. What no operation of the machine undoes, and what an operation leaves alone: `Kept L s t` says so of a state `t` that comes
after `s`, `l` naming the parts of the state that may have changed. An operation's lemma names the parts it may change and says
that `Kept` holds after the operation if it held before. -/

namespace Sys2Proof.Machine

set_option Elab.async false

/-- The snag numbers have no gap (11 R319), and stage 1 is out of regulation in OFF and only there (01 R31). -/
abbrev State.ordered (s : State) : Prop :=
  s.snagNext = s.snags.length ∧ (s.mode = .off ↔ s.pwr.stage1Up = false)

/-- Every part of the first list is in the second. -/
abbrev Within (a b : List Field) : Prop := a.all (b.contains ·) = true

theorem sub {a b c : List Field} (h : Within b c) (g : Within a b) : Within a c := by
  simp only [List.all_eq_true, List.contains_iff_mem] at *
  exact fun f hf => h f (g f hf)

/-- A state that differs in the parts `a` only differs in parts of `l` only. -/
theorem changed {a l : List Field} {s t : State} (hl : Within a l)
    (h : ∀ f, f ∉ a → f.same s t := by intro f hf; cases f <;> first | exact absurd (by decide) hf | with_unfolding_all rfl) : ∀ f, f ∉ l → f.same s t := by
  simp only [List.all_eq_true, List.contains_iff_mem] at hl
  exact fun f hf => h f fun hm => hf (hl f hm)

theorem Field.same_refl (f : Field) (s : State) : f.same s s := by cases f <;> rfl

theorem Field.same_trans {f : Field} {r s t : State} (h : f.same r s) (g : f.same s t) : f.same r t := by
  cases f <;> exact Eq.trans g h

/-- `t` comes after `s`: nothing but the parts `l` has changed, the waiting commands and the part are the same, time and the minimum security version have not gone back, no
output is taken back, the module state has moved by the table of transitions, and the invariants still hold if they did. -/
structure Kept (L : List Field) (s t : State) : Prop where
  pending : t.pending = s.pending
  part : t.part = s.part
  now : s.now ≤ t.now
  svn : s.nvm.minSvn ≤ t.nvm.minSvn
  out : s.out <:+ t.out
  moves : s.ordered → Relation.ReflTransGen (fun a b : Mode => b ∈ a.next) s.mode t.mode
  ordered : s.ordered → t.ordered
  mem : s.memWf → t.memWf
  maps : s.mapsWf → t.mapsWf
  frame : ∀ f, f ∉ L → f.same s t

variable {L : List Field} {s₀ s : State}

theorem Kept.refl (s : State) : Kept L s s := ⟨rfl, rfl, le_rfl, le_rfl, List.suffix_refl _, fun _ => .refl, id, id, id, fun f _ => f.same_refl s⟩

/-- What may change may be said more widely. -/
theorem Kept.mono {M : List Field} {s t : State} (h : Kept L s t) (hs : Within L M) : Kept M s t :=
  { h with frame := fun f hf => h.frame f fun hm => hf (by
      simp only [List.all_eq_true, List.contains_iff_mem] at hs
      exact hs f hm) }

theorem Kept.trans {r s t : State} (h : Kept L r s) (g : Kept L s t) : Kept L r t :=
  ⟨g.pending.trans h.pending, g.part.trans h.part, h.now.trans g.now, h.svn.trans g.svn, h.out.trans g.out,
    fun o => (h.moves o).trans (g.moves (h.ordered o)),
    g.ordered ∘ h.ordered, g.mem ∘ h.mem, g.maps ∘ h.maps,
    fun f hf => Field.same_trans (h.frame f hf) (g.frame f hf)⟩

/-- Fields that the relation does not look at may change. -/
theorem Kept.same (h : Kept L s₀ s) {epoch leftOff free gen boot flash store sense edgeQ pages prefixes plans reqs weights fab keep snap
    resil intr}
    (hf : ∀ f, f ∉ L → f.same s { s with
      epoch := epoch, leftOff := leftOff, free := free, gen := gen, boot := boot, flash := flash, store := store, sense := sense,
      edgeQ := edgeQ, pages := pages, prefixes := prefixes, plans := plans, reqs := reqs, weights := weights, fab := fab,
      keep := keep, snap := snap, resil := resil, intr := intr } := by exact changed (by assumption)) :
    Kept L s₀ { s with
      epoch := epoch, leftOff := leftOff, free := free, gen := gen, boot := boot, flash := flash, store := store, sense := sense,
      edgeQ := edgeQ, pages := pages, prefixes := prefixes, plans := plans, reqs := reqs, weights := weights, fab := fab,
      keep := keep, snap := snap, resil := resil, intr := intr } :=
  h.trans ⟨rfl, rfl, le_rfl, le_rfl, List.suffix_refl _, fun _ => .refl, id, id, id, hf⟩

/-- So may the power state, if stage 1 stays as it is. -/
theorem Kept.power (h : Kept L s₀ s) {p : Power} (hp : p.stage1Up = s.pwr.stage1Up) {epoch leftOff free gen boot flash store sense edgeQ pages
    prefixes plans reqs weights fab keep snap resil intr}
    (hf : ∀ f, f ∉ L → f.same s { s with
      pwr := p,
      epoch := epoch, leftOff := leftOff, free := free, gen := gen, boot := boot, flash := flash, store := store, sense := sense,
      edgeQ := edgeQ, pages := pages, prefixes := prefixes, plans := plans, reqs := reqs, weights := weights, fab := fab,
      keep := keep, snap := snap, resil := resil, intr := intr } := by exact changed (by assumption)) :
    Kept L s₀ { s with
      pwr := p,
      epoch := epoch, leftOff := leftOff, free := free, gen := gen, boot := boot, flash := flash, store := store, sense := sense,
      edgeQ := edgeQ, pages := pages, prefixes := prefixes, plans := plans, reqs := reqs, weights := weights, fab := fab,
      keep := keep, snap := snap, resil := resil, intr := intr } :=
  h.trans ⟨rfl, rfl, le_rfl, le_rfl, List.suffix_refl _, fun _ => .refl, fun o => ⟨o.1, o.2.trans (by rw [← hp])⟩, id, id, hf⟩

/-- So may the host interface, if the command slots stay in their one form. -/
theorem Kept.hostIf (h : Kept L s₀ s) {x : HostIf}
    (hx : (∀ e ∈ s.host.slots, Canonical 0 e.2.mem) → ∀ e ∈ x.slots, Canonical 0 e.2.mem)
    (hf : ∀ f, f ∉ L → f.same s { s with host := x } := by exact changed (by assumption)) :
    Kept L s₀ { s with host := x } :=
  h.trans ⟨rfl, rfl, le_rfl, le_rfl, List.suffix_refl _, fun _ => .refl, id, fun m => ⟨m.1, m.2.1, m.2.2.1, m.2.2.2.1, hx m.2.2.2.2⟩, id, hf⟩

/-- So may the Context dies, if their memories stay in their one form. -/
theorem Kept.ctxs (h : Kept L s₀ s) {c d : CtxDie} (hc : Canonical ({} : Line) s.ctx0.mem → Canonical ({} : Line) c.mem)
    (hd : Canonical ({} : Line) s.ctx1.mem → Canonical ({} : Line) d.mem)
    (hf : ∀ f, f ∉ L → f.same s { s with ctx0 := c, ctx1 := d } := by exact changed (by assumption)) :
    Kept L s₀ { s with ctx0 := c, ctx1 := d } :=
  h.trans ⟨rfl, rfl, le_rfl, le_rfl, List.suffix_refl _, fun _ => .refl, id, fun m => ⟨m.1, m.2.1, hc m.2.2.1, hd m.2.2.2.1, m.2.2.2.2⟩, id, hf⟩

theorem tick_kept (h : Kept L s₀ s) (t : Nat)
    (hl : Within [.now] L := by exact sub (by assumption) (by decide)) : Kept L s₀ (s.tick t) :=
  h.trans ⟨rfl, rfl, le_max_left _ _, le_rfl, List.suffix_refl _, fun _ => .refl, id, id, id, changed hl⟩

theorem emit_kept (h : Kept L s₀ s) (o : Output)
    (hl : Within [.out] L := by exact sub (by assumption) (by decide)) : Kept L s₀ (s.emit o) :=
  h.trans ⟨rfl, rfl, le_rfl, le_rfl, List.suffix_cons _ _, fun _ => .refl, id, id, id, changed hl⟩

theorem drawn_kept (h : Kept L s₀ s)
    (hl : Within [.free] L := by exact sub (by assumption) (by decide)) : Kept L s₀ s.drawn := h.same

theorem intrude_kept (h : Kept L s₀ s) (b : Nat)
    (hl : Within [.intr] L := by exact sub (by assumption) (by decide)) : Kept L s₀ (s.intrude b) := h.same

theorem setBay_kept (h : Kept L s₀ s) (b : Nat) {y : Bay} (hy : Canonical ({} : Line) (s.bay b).sp → Canonical ({} : Line) y.sp)
    (hl : Within [.bays] L := by exact sub (by assumption) (by decide)) : Kept L s₀ (s.setBay b y) :=
  h.trans ⟨rfl, rfl, le_rfl, le_rfl, List.suffix_refl _, fun _ => .refl, id, fun m =>
    ⟨mset_all (P := fun y : Bay => Canonical ({} : Line) y.sp) m.1 (hy (mget_all (P := fun y : Bay => Canonical ({} : Line) y.sp) m.1 (canonical_nil _) b)) b, m.2⟩,
    fun m => ⟨mset_canonical m.1 _ _, m.2⟩, changed hl⟩

theorem modBay_kept (h : Kept L s₀ s) (b : Nat) {f : Bay → Bay} (hf : ∀ y : Bay, Canonical ({} : Line) y.sp → Canonical ({} : Line) (f y).sp)
    (hl : Within [.bays] L := by exact sub (by assumption) (by decide)) :
    Kept L s₀ (s.modBay b f) := setBay_kept h b (hf _)

theorem setPanel_kept (h : Kept L s₀ s) (k : Nat) {x : Panel} (hx : Canonical none (s.panel k).cells → Canonical none x.cells)
    (hl : Within [.panels] L := by exact sub (by assumption) (by decide)) :
    Kept L s₀ (s.setPanel k x) :=
  h.trans ⟨rfl, rfl, le_rfl, le_rfl, List.suffix_refl _, fun _ => .refl, id, fun m =>
    ⟨m.1, mset_all (P := fun x : Panel => Canonical none x.cells) m.2.1 (hx (mget_all (P := fun x : Panel => Canonical none x.cells) m.2.1 (canonical_nil _) k)) k, m.2.2⟩,
    fun m => ⟨m.1, mset_canonical m.2.1 _ _, m.2.2⟩, changed hl⟩

theorem modPanel_kept (h : Kept L s₀ s) (k : Nat) {f : Panel → Panel}
    (hf : ∀ x : Panel, Canonical none x.cells → Canonical none (f x).cells)
    (hl : Within [.panels] L := by exact sub (by assumption) (by decide)) : Kept L s₀ (s.modPanel k f) := setPanel_kept h k (hf _)

theorem setRtr_kept (h : Kept L s₀ s) (b : Nat) (x : Router)
    (hl : Within [.rtrs] L := by exact sub (by assumption) (by decide)) : Kept L s₀ (s.setRtr b x) :=
  h.trans ⟨rfl, rfl, le_rfl, le_rfl, List.suffix_refl _, fun _ => .refl, id, id, fun m => ⟨m.1, m.2.1, mset_canonical m.2.2 _ _⟩, changed hl⟩

theorem modRtr_kept (h : Kept L s₀ s) (b : Nat) (f : Router → Router)
    (hl : Within [.rtrs] L := by exact sub (by assumption) (by decide)) : Kept L s₀ (s.modRtr b f) := setRtr_kept h b _

/-- A case distinction between states that keep. -/
theorem Kept.ite {a b : State} {c : Prop} [Decidable c] (ha : c → Kept L s₀ a) (hb : ¬c → Kept L s₀ b) : Kept L s₀ (if c then a else b) := by
  split
  · exact ha ‹_›
  · exact hb ‹_›

/-- The same of a state with a value beside it. -/
theorem Kept.ite_fst {α : Type} {a b : State × α} {c : Prop} [Decidable c] (ha : c → Kept L s₀ a.1) (hb : ¬c → Kept L s₀ b.1) :
    Kept L s₀ (if c then a else b).1 := by
  split
  · exact ha ‹_›
  · exact hb ‹_›

/-- What an optional state keeps. -/
def Kept.Opt (L : List Field) (s₀ : State) (o : Option State) : Prop := ∀ t, o = some t → Kept L s₀ t

theorem Kept.Opt.some (h : Kept L s₀ s) : Kept.Opt L s₀ (some s) := fun _ e => Option.some.inj e ▸ h

theorem Kept.Opt.none : Kept.Opt L s₀ none := fun _ e => nomatch e

theorem Kept.Opt.ite {a b : Option State} {c : Prop} [Decidable c] (ha : c → Kept.Opt L s₀ a) (hb : ¬c → Kept.Opt L s₀ b) :
    Kept.Opt L s₀ (if c then a else b) := by
  split
  · exact ha ‹_›
  · exact hb ‹_›

/-- What the next state of an outcome keeps. -/
def Kept.Out (L : List Field) (s₀ : State) (o : Host.Outcome State Fault Refusal) : Prop := ∀ t, o = .next t → Kept L s₀ t

theorem Kept.Out.next (h : Kept L s₀ s) : Kept.Out L s₀ (.next s) := fun _ e => by injection e with e; exact e ▸ h

theorem Kept.Out.ite {a b : Host.Outcome State Fault Refusal} {c : Prop} [Decidable c] (ha : c → Kept.Out L s₀ a) (hb : ¬c → Kept.Out L s₀ b) :
    Kept.Out L s₀ (if c then a else b) := by
  split
  · exact ha ‹_›
  · exact hb ‹_›

/-- What either outcome of a test keeps. -/
def Kept.Exc (L : List Field) (s₀ : State) : Except State State → Prop
  | .error t => Kept L s₀ t
  | .ok t => Kept L s₀ t

theorem Kept.Exc.error (h : Kept L s₀ s) : Kept.Exc L s₀ (.error s) := h

theorem Kept.Exc.ok (h : Kept L s₀ s) : Kept.Exc L s₀ (.ok s) := h

theorem Kept.Exc.ite {a b : Except State State} {c : Prop} [Decidable c] (ha : c → Kept.Exc L s₀ a) (hb : ¬c → Kept.Exc L s₀ b) :
    Kept.Exc L s₀ (if c then a else b) := by
  split
  · exact ha ‹_›
  · exact hb ‹_›

/-- A fold of operations that keep. -/
theorem foldl_kept {β : Type} {l : List β} {f : State → β → State} (hf : ∀ s b, Kept L s₀ s → Kept L s₀ (f s b)) (h : Kept L s₀ s) :
    Kept L s₀ (l.foldl f s) := by
  induction l generalizing s with
  | nil => exact h
  | cons b l ih => exact ih (hf s b h)

theorem raise_kept (h : Kept L s₀ s) (fn vec : Nat)
    (hl : Within [.host, .out] L := by exact sub (by assumption) (by decide)) : Kept L s₀ (s.raise fn vec) := by
  unfold State.raise
  dsimp only
  repeat' split
  · exact h
  · exact emit_kept h _
  · exact h.hostIf id

theorem snag_kept (h : Kept L s₀ s) (code sev die unit : Nat) (args : List Nat)
    (hl : Within [.host, .snags, .snagNext, .out] L := by exact sub (by assumption) (by decide)) : Kept L s₀ (s.snag code sev die unit args) := by
  unfold State.snag
  dsimp only
  split
  · refine foldl_kept (fun _ _ g => ?_) ?_
    · split
      · exact raise_kept g _ _
      · exact g
    · have g : Kept L s₀ { s with
          snags := { code := code, sev := sev, gen := s.gen, src := BitVec.ofNat 32 (s.moduleAddr * 2 ^ 16 + die * 2 ^ 11 + unit),
                     ts := s.mtime, args := (args ++ [0, 0, 0, 0]).take 4 } :: s.snags, snagNext := s.snagNext + 1 } :=
        h.trans ⟨rfl, rfl, le_rfl, le_rfl, List.suffix_refl _, fun _ => .refl, fun o => ⟨by simp [o.1], o.2⟩, id, id, changed hl⟩
      split
      · exact raise_kept g _ _
      · exact g
  · exact h

end Sys2Proof.Machine
end

