-- ==== Sys2Proof/Laws/Parts.lean ====
section
/-! SUPPORT. The updates of a bay, a panel, a Context die and the power state: what each does to the addressed memory of its part and
to the state of stage 1. -/

namespace Sys2Proof.Machine

set_option Elab.async false

/-! ### Bays -/

@[simp] theorem Bay.setQueue_sp (y : Bay) (q : Nat) (x : Queue) : (y.setQueue q x).sp = y.sp := rfl

@[simp] theorem Bay.modCur_sp (y : Bay) (f : Running → Running) : (y.modCur f).sp = y.sp := rfl

@[simp] theorem Bay.applyStg_sp (y : Bay) : y.applyStg.sp = y.sp := rfl

@[simp] theorem Bay.zeroStores_sp (y : Bay) : y.zeroStores.sp = [] := rfl

@[simp] theorem Bay.computeReset_sp (y : Bay) : y.computeReset.sp = [] := rfl

@[simp] theorem Bay.askStop_sp (y : Bay) : y.askStop.sp = y.sp := by
  unfold Bay.askStop
  dsimp only
  split
  · rfl
  · split <;> rfl

theorem Bay.writeLine_canonical {y : Bay} (h : Canonical ({} : Line) y.sp) (l : Nat) (d : BitVec 512) (mask : BitVec 64) (flips : BitVec 576)
    (free : Nat) : Canonical ({} : Line) (y.writeLine l d mask flips free).sp := by
  unfold Bay.writeLine
  split
  · exact mset_canonical h _ _
  · exact h

theorem Bay.storeLine_canonical {y : Bay} (h : Canonical ({} : Line) y.sp) (l : Nat) (x : Line) : Canonical ({} : Line) (y.storeLine l x).sp := by
  unfold Bay.storeLine
  split
  · exact mset_canonical h _ _
  · exact h

/-- A fold of bay updates that keep the scratchpad's form keeps it. -/
theorem Bay.foldl_canonical {β : Type} {f : Bay → β → Bay} (hf : ∀ y b, Canonical ({} : Line) y.sp → Canonical ({} : Line) (f y b).sp) (l : List β) :
    ∀ {y : Bay}, Canonical ({} : Line) y.sp → Canonical ({} : Line) (l.foldl f y).sp := by
  induction l with
  | nil => exact fun h => h
  | cons b l ih => exact fun h => ih (hf _ b h)

theorem Bay.upset_canonical {y : Bay} (h : Canonical ({} : Line) y.sp) (ups : List Upset) : Canonical ({} : Line) (y.upset ups).sp := by
  refine Bay.foldl_canonical (fun y u g => ?_) _ h
  split
  · exact mset_canonical g _ _
  · exact g

theorem Bay.enterSeg_canonical {y : Bay} (h : Canonical ({} : Line) y.sp) (g : Nat) (m : SegMode) : Canonical ({} : Line) (y.enterSeg g m).sp := by
  unfold Bay.enterSeg Bay.dropSeg
  dsimp only
  split
  · exact filter_canonical h _
  · exact h

theorem Bay.askSeg_canonical {y : Bay} (h : Canonical ({} : Line) y.sp) (g : Nat) (m : SegMode) : Canonical ({} : Line) (y.askSeg g m).sp := by
  unfold Bay.askSeg
  dsimp only
  split
  · exact h
  · exact Bay.enterSeg_canonical h g m

theorem Bay.invalidate_canonical {y : Bay} (h : Canonical ({} : Line) y.sp) : Canonical ({} : Line) y.invalidate.sp := by
  unfold Bay.invalidate
  split
  · exact canonical_nil _
  · exact h

@[simp] theorem Bay.forgetFlip_sp (y : Bay) (p : Nat) : (y.forgetFlip p).sp = y.sp := rfl

/-! ### Panels -/

@[simp] theorem Panel.applyStg_cells (x : Panel) : x.applyStg.cells = x.cells := by
  unfold Panel.applyStg
  split <;> rfl

@[simp] theorem Panel.clearWin_cells (x : Panel) (v : Word) : (x.clearWin v).cells = x.cells := by
  unfold Panel.clearWin
  dsimp only
  split <;> rfl

theorem Panel.commitRow_canonical {x : Panel} (h : Canonical none x.cells) (bank row : Nat) (d : BitVec 1024) :
    Canonical none (x.commitRow bank row d).cells := by
  have g : Canonical none (mset none x.cells (1024 * bank + row) (some (cellsOf d))) := mset_canonical h _ _
  unfold Panel.commitRow
  dsimp only
  split
  · split <;> exact g
  · exact g

/-- A fold of panel updates that keep the cells' form keeps it. -/
theorem Panel.foldl_canonical {β : Type} {f : Panel → β → Panel} (hf : ∀ x b, Canonical none x.cells → Canonical none (f x b).cells)
    (l : List β) : ∀ {x : Panel}, Canonical none x.cells → Canonical none (l.foldl f x).cells := by
  induction l with
  | nil => exact fun h => h
  | cons b l ih => exact fun h => ih (hf _ b h)

@[simp] theorem Panel.computeReset_cells (x : Panel) : x.computeReset.cells = x.cells := rfl

/-- Every row of a bank written in turn. -/
theorem Panel.commitRows_canonical {x : Panel} (h : Canonical none x.cells) (bank : Nat) (rows : Nat → BitVec 1024) (l : List Nat) :
    Canonical none (l.foldl (fun y i => y.commitRow bank i (rows i)) x).cells :=
  Panel.foldl_canonical (fun _ _ g => Panel.commitRow_canonical g _ _ _) l h

/-! ### Context dies -/

@[simp] theorem CtxDie.popReq_mem (c : CtxDie) (r : CtxReq) : (c.popReq r).mem = c.mem := rfl

theorem CtxDie.zeroPage_canonical {c : CtxDie} (h : Canonical ({} : Line) c.mem) (p : Nat) : Canonical ({} : Line) (c.zeroPage p).mem :=
  filter_canonical h _

theorem CtxDie.copyPage_canonical {c : CtxDie} (h : Canonical ({} : Line) c.mem) (dst src : Nat) :
    Canonical ({} : Line) (c.copyPage dst src).mem :=
  Machine.foldl_canonical _ (fun _ _ g => mset_canonical g _ _) _ (CtxDie.zeroPage_canonical h dst)

theorem CtxDie.upset_canonical {c : CtxDie} (h : Canonical ({} : Line) c.mem) (ups : List Upset) : Canonical ({} : Line) (c.upset ups).mem :=
  Machine.foldl_canonical _ (fun _ _ g => mset_canonical g _ _) _ h

theorem CtxDie.writeRuns_canonical (free p : Nat) (l : List (Nat × Nat)) :
    ∀ {c : CtxDie} {b : List Cell}, Canonical ({} : Line) c.mem → Canonical ({} : Line) (c.writeRuns free p l b).mem := by
  induction l with
  | nil => exact fun h => h
  | cons r l ih =>
    intro c b h
    refine ih ?_
    have key : ∀ (k : List Nat) (f : CtxDie → Nat → CtxDie), (∀ c i, Canonical ({} : Line) c.mem → Canonical ({} : Line) (f c i).mem) →
        ∀ {c : CtxDie}, Canonical ({} : Line) c.mem → Canonical ({} : Line) (k.foldl f c).mem := by
      intro k f hf
      induction k with
      | nil => exact fun h => h
      | cons i k ih => exact fun h => ih (hf _ i h)
    refine key _ _ (fun c i g => ?_) h
    dsimp only
    generalize lineKey p (r.1 / 64 + i) = k
    generalize runLine free (mget {} c.mem k) r b (r.1 / 64 + i) = x
    exact mset_canonical g k x

/-- A fold of updates of a die that leave its memory alone does so. -/
theorem CtxDie.foldl_mem {β : Type} {f : CtxDie → β → CtxDie} (hf : ∀ c b, (f c b).mem = c.mem) (l : List β) :
    ∀ c : CtxDie, (l.foldl f c).mem = c.mem := by
  induction l with
  | nil => exact fun _ => rfl
  | cons b l ih => exact fun c => (ih _).trans (hf c b)

@[simp] theorem CtxDie.arbitrate_mem (c : CtxDie) (now : Nat) : (c.arbitrate now).mem = c.mem := by
  unfold CtxDie.arbitrate
  exact CtxDie.foldl_mem (by intros; rfl) _ _

@[simp] theorem CtxDie.addXfer_mem (c : CtxDie) (now i : Nat) (x : HbmXfer) : (c.addXfer now i x).mem = c.mem := rfl

@[simp] theorem CtxDie.issue_mem (c : CtxDie) (now req level : Nat) (iss keys : List Nat) : (c.issue now req level iss keys).mem = c.mem := by
  unfold CtxDie.issue
  exact CtxDie.foldl_mem (by intros; rfl) _ _

@[simp] theorem CtxDie.abandon_mem (c : CtxDie) (now : Nat) : (c.abandon now).mem = c.mem := c.arbitrate_mem now

@[simp] theorem CtxDie.stopped_mem (c : CtxDie) (now : Nat) : (c.stopped now).mem = c.mem := c.arbitrate_mem now

/-! ### Power -/

@[simp] theorem Power.keepAux_stage1Up (p : Power) : p.keepAux.stage1Up = false := rfl

@[simp] theorem Power.moveRails_stage1Up (p : Power) (l : List Nat) (a b : Rail) : (p.moveRails l a b).stage1Up = p.stage1Up := rfl

@[simp] theorem Power.raiseRails_stage1Up (p : Power) (l : List Nat) (now : Nat) : (p.raiseRails l now).stage1Up = p.stage1Up := by
  simp only [Power.raiseRails, Power.moveRails_stage1Up]

@[simp] theorem Power.startLeaves_stage1Up (p : Power) (now : Nat) : (p.startLeaves now).stage1Up = p.stage1Up := by
  simp only [Power.startLeaves, Power.moveRails_stage1Up]

@[simp] theorem Power.settleLeaf_stage1Up (p : Power) (k : Nat) : (p.settleLeaf k).stage1Up = p.stage1Up := by
  unfold Power.settleLeaf
  split <;> rfl

@[simp] theorem Power.startRamp_stage1Up (p : Power) (l : List Nat) (now : Nat) : (p.startRamp l now).stage1Up = p.stage1Up := rfl

@[simp] theorem Power.commitLeaf_stage1Up (p : Power) (now k : Nat) : (p.commitLeaf now k).stage1Up = p.stage1Up := rfl

theorem Power.foldl_stage1Up {β : Type} {f : Power → β → Power} (hf : ∀ p b, (f p b).stage1Up = p.stage1Up) (l : List β) :
    ∀ p : Power, (l.foldl f p).stage1Up = p.stage1Up := by
  induction l with
  | nil => exact fun _ => rfl
  | cons b l ih => exact fun p => (ih _).trans (hf p b)

end Sys2Proof.Machine
end

