-- ==== Sys2Proof/Laws/KeptOps.lean ====
section
/-! SUPPORT. `Kept` holds after the operations of the shared operations, the power sequencer, the mailbox and the pages (one lemma per operation, `<operation>_kept`). -/

namespace Sys2Proof.Machine

set_option maxRecDepth 20000
set_option Elab.async false

variable {L : List Field} {s₀ s : State}

theorem snagBay_kept (h : Kept L s₀ s) (b code sev : Nat) (args : List Nat)
    (hl : Within [.host, .snags, .snagNext, .out] L := by exact sub (by assumption) (by decide)) : Kept L s₀ (s.snagBay b code sev args) := by
  unfold State.snagBay
  repeat' first
    | with_reducible exact sub (by assumption) (by decide)
    | with_reducible assumption
    | with_reducible apply snag_kept

theorem stickyBay_kept (h : Kept L s₀ s) (b : Nat) (was : Bool) {set : Bay → Bay}
    (hs : ∀ y : Bay, Canonical ({} : Line) y.sp → Canonical ({} : Line) (set y).sp) (code sev : Nat) (args : List Nat)
    (hl : Within [.bays, .host, .snags, .snagNext, .out] L := by exact sub (by assumption) (by decide)) :
    Kept L s₀ (s.stickyBay b was set code sev args) := by
  unfold State.stickyBay
  dsimp only
  split
  · exact modBay_kept h b hs
  · exact snagBay_kept (modBay_kept h b hs) _ _ _ _

theorem stickyPanel_kept (h : Kept L s₀ s) (b p : Nat) (was : Bool) {set : Panel → Panel}
    (hs : ∀ x : Panel, Canonical none x.cells → Canonical none (set x).cells) (code sev : Nat) (args : List Nat)
    (hl : Within [.panels, .host, .snags, .snagNext, .out] L := by exact sub (by assumption) (by decide)) :
    Kept L s₀ (s.stickyPanel b p was set code sev args) := by
  unfold State.stickyPanel
  dsimp only
  split
  · exact modPanel_kept h _ hs
  · exact snagBay_kept (modPanel_kept h _ hs) _ _ _ _

theorem snagCtl_kept (h : Kept L s₀ s) (code sev : Nat) (args : List Nat)
    (hl : Within [.host, .snags, .snagNext, .out] L := by exact sub (by assumption) (by decide)) : Kept L s₀ (s.snagCtl code sev args) := by
  unfold State.snagCtl
  repeat' first
    | with_reducible exact sub (by assumption) (by decide)
    | with_reducible assumption
    | with_reducible apply snag_kept

theorem stickyRtr_kept (h : Kept L s₀ s) (b : Nat) (was : Bool) (set : Router → Router) (code sev : Nat) (args : List Nat)
    (hl : Within [.rtrs, .host, .snags, .snagNext, .out] L := by exact sub (by assumption) (by decide)) : Kept L s₀ (s.stickyRtr b was set code sev args) := by
  unfold State.stickyRtr
  repeat' first
    | with_reducible exact sub (by assumption) (by decide)
    | with_reducible assumption
    | with_reducible apply modRtr_kept
    | with_reducible apply snagBay_kept
    | exact fun h => h
    | exact fun _ h => h
    | decide
    | exact fun _ h => mset_canonical h _ _
    | exact fun _ h => Bay.invalidate_canonical h
    | exact fun _ h => canonical_nil _
    | exact fun _ h => Bay.storeLine_canonical h _ _
    | exact fun _ h => Bay.writeLine_canonical h _ _ _ _ _
    | exact fun _ hx => Panel.commitRow_canonical hx _ _ _
    | exact fun _ h => CtxDie.arbitrate_canonical h _
    | exact fun _ h => CtxDie.issue_canonical h _ _ _ _ _
    | exact fun _ h => CtxDie.zeroPage_canonical h _
    | with_reducible refine Kept.ite (fun _ => ?_) (fun _ => ?_)

theorem sinkLine_kept (h : Kept L s₀ s) (b p : Nat) (h : BitVec 64)
    (hl : Within [.rtrs, .host, .snags, .snagNext, .out] L := by exact sub (by assumption) (by decide)) : Kept L s₀ (s.sinkLine b p h) := by
  unfold State.sinkLine
  repeat' first
    | with_reducible exact sub (by assumption) (by decide)
    | with_reducible assumption
    | with_reducible apply stickyRtr_kept

theorem sendAlong_kept (h : Kept L s₀ s) (n src : Nat) (x : BitVec 64)
    (hl : Within [.rtrs, .host, .snags, .snagNext, .out] L := by exact sub (by assumption) (by decide)) : Kept.Exc L s₀ (s.sendAlong n src x) := by
  unfold State.sendAlong
  split
  · exact h
  · split
    · exact foldl_kept (fun _ _ g => sinkLine_kept g _ _ _) h
    · exact h

theorem toCtl_kept (h : Kept L s₀ s) (b : Nat) (m : BayMsg)
    (hl : Within [.rtrs, .host, .snags, .snagNext, .out] L := by exact sub (by assumption) (by decide)) : Kept L s₀ (s.toCtl b m) := by
  unfold State.toCtl
  split
  · exact h
  · rename_i x _
    refine Kept.ite (fun _ => h) fun _ => ?_
    have g := sendAlong_kept h 1 b (novkoHdr x.up 2 s.gen)
    generalize s.sendAlong 1 b (novkoHdr x.up 2 s.gen) = r at g ⊢
    cases r with
    | error d => exact g
    | ok d => exact emit_kept g _

theorem closeWindow_kept (h : Kept L s₀ s) (b : Nat)
    (hl : Within [.bays, .rtrs, .host, .snags, .snagNext, .out] L := by exact sub (by assumption) (by decide)) : Kept L s₀ (s.closeWindow b) := by
  unfold State.closeWindow
  repeat' first
    | with_reducible exact sub (by assumption) (by decide)
    | with_reducible assumption
    | with_reducible apply modBay_kept
    | with_reducible apply toCtl_kept
    | exact fun h => h
    | exact fun _ h => h
    | decide
    | exact fun _ h => mset_canonical h _ _
    | exact fun _ h => Bay.invalidate_canonical h
    | exact fun _ h => canonical_nil _
    | exact fun _ h => Bay.storeLine_canonical h _ _
    | exact fun _ h => Bay.writeLine_canonical h _ _ _ _ _
    | exact fun _ hx => Panel.commitRow_canonical hx _ _ _
    | exact fun _ h => CtxDie.arbitrate_canonical h _
    | exact fun _ h => CtxDie.issue_canonical h _ _ _ _ _
    | exact fun _ h => CtxDie.zeroPage_canonical h _
    | with_reducible refine Kept.ite (fun _ => ?_) (fun _ => ?_)
    | with_reducible refine Kept.ite_fst (fun _ => ?_) (fun _ => ?_)
    | refine fun _ _ _ => ?_
    | split

theorem signalFault_kept (h : Kept L s₀ s) (b kind : Nat) (panel : Option Nat)
    (hl : Within [.bays, .rtrs, .host, .snags, .snagNext, .out] L := by exact sub (by assumption) (by decide)) : Kept L s₀ (s.signalFault b kind panel) := by
  unfold State.signalFault
  repeat' first
    | with_reducible exact sub (by assumption) (by decide)
    | with_reducible assumption
    | with_reducible apply closeWindow_kept
    | with_reducible apply modBay_kept
    | exact fun h => h
    | exact fun _ h => h
    | decide
    | exact fun _ h => mset_canonical h _ _
    | exact fun _ h => Bay.invalidate_canonical h
    | exact fun _ h => canonical_nil _
    | exact fun _ h => Bay.storeLine_canonical h _ _
    | exact fun _ h => Bay.writeLine_canonical h _ _ _ _ _
    | exact fun _ hx => Panel.commitRow_canonical hx _ _ _
    | exact fun _ h => CtxDie.arbitrate_canonical h _
    | exact fun _ h => CtxDie.issue_canonical h _ _ _ _ _
    | exact fun _ h => CtxDie.zeroPage_canonical h _
    | with_reducible refine Kept.ite (fun _ => ?_) (fun _ => ?_)
    | with_reducible refine Kept.ite_fst (fun _ => ?_) (fun _ => ?_)
    | refine fun _ _ _ => ?_
    | (lift_lets; intro _)
    | split

theorem strike_kept (h : Kept L s₀ s) (row unit panel : Nat)
    (hl : Within [.host, .resil, .snags, .snagNext, .out] L := by exact sub (by assumption) (by decide)) : Kept L s₀ (s.strike row unit panel) := by
  unfold State.strike
  repeat' first
    | with_reducible exact sub (by assumption) (by decide)
    | with_reducible assumption
    | with_reducible apply snag_kept
    | with_reducible apply snagBay_kept
    | with_reducible refine Kept.ite (fun _ => ?_) (fun _ => ?_)
    | (lift_lets; intro _)
    | with_reducible refine Kept.same ?_

theorem witnessStored_kept (h : Kept L s₀ s) (b p : Nat)
    (hl : Within [.host, .resil, .snags, .snagNext, .out] L := by exact sub (by assumption) (by decide)) : Kept L s₀ (s.witnessStored b p) := by
  unfold State.witnessStored
  repeat' first
    | with_reducible exact sub (by assumption) (by decide)
    | with_reducible assumption
    | with_reducible apply strike_kept
    | with_reducible refine Kept.ite (fun _ => ?_) (fun _ => ?_)
    | (lift_lets; intro s1; have hs1 : Kept L s₀ s1 := ?_; clear_value s1)
    | (lift_lets; intro _)
    | split
    | with_reducible refine Kept.same ?_

/-- Every module state may be left for OFF. -/
theorem Mode.to_off (m : Mode) : Relation.ReflTransGen (fun a b : Mode => b ∈ a.next) m .off := by
  cases m <;> first | exact .refl | exact .single (by decide)

theorem goOff_kept (h : Kept L s₀ s)
    (hl : Within [.epoch, .mode, .gen, .pwr, .boot, .sense, .panels, .bays, .rtrs, .edgeQ, .ctx0, .ctx1, .pages, .prefixes, .plans, .reqs, .weights, .fab, .host, .keep, .snap, .resil, .intr, .snags, .snagNext] L := by exact sub (by assumption) (by decide)) : Kept L s₀ s.goOff :=
  h.trans ⟨rfl, rfl, le_rfl, le_rfl, List.suffix_refl _, fun _ => Mode.to_off s.mode, fun _ => ⟨rfl, fun _ => rfl, fun _ => rfl⟩,
    fun _ => ⟨fun _ h => (List.not_mem_nil h).elim, fun _ h => (List.not_mem_nil h).elim, canonical_nil _, canonical_nil _,
      fun _ h => (List.not_mem_nil h).elim⟩,
    fun _ => ⟨canonical_nil _, canonical_nil _, canonical_nil _⟩, changed hl⟩

theorem recordOff_kept (h : Kept L s₀ s) (cause rail : Nat)
    (hl : Within [.pwr] L := by exact sub (by assumption) (by decide)) : Kept L s₀ (s.recordOff cause rail) := by
  unfold State.recordOff
  with_reducible refine Kept.power h ?_
  rfl

theorem assertReset_kept (h : Kept L s₀ s) (cause rail : Nat) {f : Power → Power} (hf : ∀ p, (f p).stage1Up = p.stage1Up)
    (hl : Within [.epoch, .mode, .gen, .pwr, .boot, .sense, .panels, .bays, .rtrs, .edgeQ, .ctx0, .ctx1, .pages, .prefixes, .plans, .reqs, .weights, .fab, .host, .keep, .snap, .resil, .intr, .snags, .snagNext] L := by exact sub (by assumption) (by decide)) :
    Kept L s₀ (s.assertReset cause rail f) := by
  have g : ∀ p : Power, p.stage1Up = s.pwr.stage1Up → Kept L s₀ { s with pwr := p } := fun p e => h.power e
  unfold State.assertReset
  dsimp only
  refine Kept.ite (fun _ => Kept.ite (fun _ => recordOff_kept (g _ ?_) _ _) fun _ => Kept.ite (fun _ => recordOff_kept (g _ ?_) _ _) fun _ => g _ ?_)
    fun _ => recordOff_kept (goOff_kept (g _ ?_)) _ _
  all_goals exact hf _

theorem tryStart_kept (h : Kept L s₀ s)
    (hl : Within [.pwr] L := by exact sub (by assumption) (by decide)) : Kept L s₀ s.tryStart := by
  unfold State.tryStart
  refine Kept.ite (fun _ => h) fun _ => ?_
  with_reducible refine Kept.power h ?_
  exact Power.startRamp_stage1Up _ _ _

theorem requestStage2_kept (h : Kept L s₀ s)
    (hl : Within [.pwr] L := by exact sub (by assumption) (by decide)) : Kept L s₀ s.requestStage2 := by
  unfold State.requestStage2
  refine Kept.ite (fun _ => h) fun _ => ?_
  with_reducible refine Kept.power h ?_
  split
  · rfl
  · exact Power.startRamp_stage1Up _ _ _

theorem settleLeaves_kept (h : Kept L s₀ s)
    (hl : Within [.pwr] L := by exact sub (by assumption) (by decide)) : Kept L s₀ s.settleLeaves :=
  h.power (Power.foldl_stage1Up (fun p e => by split <;> simp) _ _)

theorem writeLeafVset_kept (h : Kept L s₀ s) (leaf code : Nat)
    (hl : Within [.pwr, .host, .snags, .snagNext, .out] L := by exact sub (by assumption) (by decide)) : Kept L s₀ (s.writeLeafVset leaf code) := by
  have g : Kept L s₀ (if code = 31 then s.snagCtl 0x8021 1 [leaf / 2, leaf % 2] else s) := Kept.ite (fun _ => snagCtl_kept h _ _ _) fun _ => h
  unfold State.writeLeafVset
  generalize (if code = 31 then s.snagCtl 0x8021 1 [leaf / 2, leaf % 2] else s) = u at g ⊢
  dsimp only
  refine Kept.ite (fun _ => ?_) fun _ => ?_
  · with_reducible refine Kept.power g ?_
    exact Power.settleLeaf_stage1Up _ _
  · with_reducible refine Kept.power g ?_
    rfl

theorem commitVset_kept (h : Kept L s₀ s)
    (hl : Within [.pwr] L := by exact sub (by assumption) (by decide)) : Kept L s₀ s.commitVset := by
  unfold State.commitVset
  with_reducible refine Kept.power h ?_
  exact Power.foldl_stage1Up (fun p e => Power.commitLeaf_stage1Up _ _ _) _ _

theorem writeSagThrottle_kept (h : Kept L s₀ s) (v : Bool)
    (hl : Within [.pwr] L := by exact sub (by assumption) (by decide)) : Kept L s₀ (s.writeSagThrottle v) :=
  h.power (by split <;> rfl)

theorem skipAfter_kept (h : Kept L s₀ s) (b begun : Nat)
    (hl : Within [.bays] L := by exact sub (by assumption) (by decide)) : Kept L s₀ (s.skipAfter b begun) := by
  unfold State.skipAfter
  exact Kept.ite (fun _ => h) fun _ => modBay_kept h b fun y hy => by split <;> exact hy

theorem modHost_kept (h : Kept L s₀ s) {f : HostIf → HostIf}
    (hf : ∀ x : HostIf, (∀ e ∈ x.slots, Canonical 0 e.2.mem) → ∀ e ∈ (f x).slots, Canonical 0 e.2.mem)
    (hl : Within [.host] L := by exact sub (by assumption) (by decide)) : Kept L s₀ (s.modHost f) :=
  h.hostIf (hf _)

theorem sendFab_kept (h : Kept L s₀ s) (dst session vc : Nat) (m : FabMsg)
    (hl : Within [.fab, .out] L := by exact sub (by assumption) (by decide)) : Kept L s₀ (s.sendFab dst session vc m) := by
  unfold State.sendFab
  repeat' first
    | with_reducible exact sub (by assumption) (by decide)
    | with_reducible assumption
    | with_reducible apply emit_kept
    | (lift_lets; intro s1; have hs1 : Kept L s₀ s1 := ?_; clear_value s1)
    | (lift_lets; intro _)
    | with_reducible refine Kept.same ?_

theorem noticePlan_kept (h : Kept L s₀ s) (p : Loaded)
    (hl : Within [.fab, .out] L := by exact sub (by assumption) (by decide)) : Kept L s₀ (s.noticePlan p) := by
  unfold State.noticePlan
  repeat' first
    | with_reducible exact sub (by assumption) (by decide)
    | with_reducible assumption
    | with_reducible apply sendFab_kept
    | with_reducible refine foldl_kept (fun _ _ _ => ?_) ?_

theorem noticeAll_kept (h : Kept L s₀ s)
    (hl : Within [.fab, .out] L := by exact sub (by assumption) (by decide)) : Kept L s₀ (s.noticeAll) := by
  unfold State.noticeAll
  repeat' first
    | with_reducible exact sub (by assumption) (by decide)
    | with_reducible assumption
    | with_reducible apply noticePlan_kept
    | with_reducible refine foldl_kept (fun _ _ _ => ?_) ?_
    | with_reducible refine Kept.ite (fun _ => ?_) (fun _ => ?_)

theorem setMode_kept (h : Kept L s₀ s) {m : Mode} (hm : m ∈ s.mode.next) (ho : m ≠ .off) (hp : m ≠ .primed)
    (hl : Within [.mode, .fab, .host, .out] L := by exact sub (by assumption) (by decide)) : Kept L s₀ (s.setMode m) := by
  have k : s.mode ≠ .off := fun e => by rw [e] at hm; simp [Mode.next] at hm; exact hp hm
  have g : Kept L s₀ { s with mode := m } :=
    h.trans ⟨rfl, rfl, le_rfl, le_rfl, List.suffix_refl _, fun _ => .single hm,
      fun o => ⟨o.1, fun e => absurd e ho, fun e => absurd (o.2.2 e) k⟩, id, id, changed hl⟩
  unfold State.setMode
  exact Kept.ite (fun _ => h) fun _ => noticeAll_kept (foldl_kept (fun _ _ k => raise_kept k _ _) g)

theorem slot_canonical {s : State} (m : ∀ e ∈ s.host.slots, Canonical 0 e.2.mem) (fn slot : Nat) : Canonical 0 (s.slot fn slot).mem :=
  mget_all (P := fun x : Slot => Canonical 0 x.mem) m (canonical_nil _) _

theorem setSlot_kept (h : Kept L s₀ s) (fn slot : Nat) {x : Slot}
    (hx : (∀ e ∈ s.host.slots, Canonical 0 e.2.mem) → Canonical 0 x.mem)
    (hl : Within [.host] L := by exact sub (by assumption) (by decide)) : Kept L s₀ (s.setSlot fn slot x) :=
  h.hostIf fun m => mset_all (P := fun x : Slot => Canonical 0 x.mem) m (hx m) _

theorem complete_kept (h : Kept L s₀ s) (fn slot : Nat) (id status detail : Nat) (result : List Byte)
    (hl : Within [.host, .out] L := by exact sub (by assumption) (by decide)) :
    Kept L s₀ (s.complete fn slot id status detail result) := by
  unfold State.complete
  dsimp only
  split
  · refine Kept.ite (fun _ => ?_) fun _ => h
    refine Kept.ite (fun _ => raise_kept ?_ _ _) fun _ => ?_
    all_goals exact setSlot_kept h fn slot fun m => slot_canonical m fn slot
  · exact h

theorem taking_kept (h : Kept L s₀ s) (fn slot : Nat) (c : Cmd)
    (hl : Within [.host] L := by exact sub (by assumption) (by decide)) : Kept L s₀ (s.taking fn slot c) :=
  setSlot_kept (modHost_kept (f := fun h => { h with order := h.order.filter (· != (fn, slot)) }) h fun _ m => by exact m) fn slot
    (x := { s.slot fn slot with last := c.seq, cmd := some { c with taken := true } }) fun m => slot_canonical (s := s) m fn slot

theorem takeReserved_kept (n : Nat)
    (hl : Within [.host, .out] L := by exact sub (by assumption) (by decide)) : ∀ {s : State}, Kept L s₀ s → Kept L s₀ (s.takeReserved n) := by
  induction n with
  | zero => exact id
  | succ n ih =>
    intro s h
    unfold State.takeReserved
    split
    · split
      · exact Kept.ite (fun _ => h) fun _ => ih (complete_kept (taking_kept h _ _ _) _ _ _ _ _ _)
      · exact h
    · exact h

theorem take_kept (h : Kept L s₀ s) (fn slot : Nat) (c : Cmd)
    (hl : Within [.host, .out] L := by exact sub (by assumption) (by decide)) : Kept L s₀ (s.take fn slot c) :=
  takeReserved_kept _ (sub (by assumption) (by decide)) (taking_kept h fn slot c)

def Done.Kept (L : List Field) (s₀ : State) : Done → Prop
  | .comp s _ _ _ => Machine.Kept L s₀ s
  | .waits s => Machine.Kept L s₀ s

theorem Done.Kept.comp (h : Machine.Kept L s₀ s) {st d : Nat} {res : List Byte} : Done.Kept L s₀ (.comp s st d res) := h

theorem Done.Kept.waits (h : Machine.Kept L s₀ s) : Done.Kept L s₀ (.waits s) := h

theorem Done.Kept.ite {s₀ : State} {a b : Done} {c : Prop} [Decidable c] (ha : c → a.Kept L s₀) (hb : ¬c → b.Kept L s₀) :
    Done.Kept L s₀ (if c then a else b) := by
  split
  · exact ha ‹_›
  · exact hb ‹_›

theorem runCmd_kept (h : Kept L s₀ s) (fn slot op : Nat) (form : Cmd → Bool) (r : CmdRow) (argsOk : Cmd → Bool)
    {body : State → Cmd → Done} (hb : ∀ s c, Kept L s₀ s → (body s c).Kept L s₀)
    (hl : Within [.host, .out] L := by exact sub (by assumption) (by decide)) : Kept L s₀ (s.runCmd fn slot op form r argsOk body) := by
  unfold State.runCmd
  split
  · exact h
  · rename_i c _
    refine Kept.ite (fun _ => ?_) fun _ => h
    have g := take_kept h fn slot c
    generalize s.take fn slot c = u at g ⊢
    dsimp only
    split
    · exact complete_kept g _ _ _ _ _ _
    · have k := hb _ c g
      split
      · rename_i e; rw [e] at k; exact complete_kept k _ _ _ _ _ _
      · rename_i e; rw [e] at k; exact k

theorem runOwn_kept (h : Kept L s₀ s) (fn slot op : Nat) (form argsOk : Cmd → Bool)
    {body : State → Cmd → Done} (hb : ∀ s c, Kept L s₀ s → (body s c).Kept L s₀)
    (hl : Within [.host, .out] L := by exact sub (by assumption) (by decide)) : Kept L s₀ (s.runOwn fn slot op form argsOk body) := by
  unfold State.runOwn
  split
  · exact h
  · rename_i c _
    refine Kept.ite (fun _ => ?_) fun _ => h
    have g := take_kept h fn slot c
    refine Kept.ite (fun _ => complete_kept g _ _ _ _ _ _) fun _ => ?_
    have k := hb _ c g
    split
    · rename_i e; rw [e] at k; exact complete_kept k _ _ _ _ _ _
    · rename_i e; rw [e] at k; exact k

theorem dmaFail_kept (h : Kept L s₀ s) (fn op addr cause req : Nat)
    (hl : Within [.host, .snags, .snagNext, .out] L := by exact sub (by assumption) (by decide)) : Kept L s₀ (s.dmaFail fn op addr cause req).1 := by
  unfold State.dmaFail
  repeat' first
    | with_reducible exact sub (by assumption) (by decide)
    | with_reducible assumption
    | with_reducible apply modHost_kept
    | with_reducible apply snag_kept
    | exact fun _ h => h
    | with_reducible refine Kept.ite_fst (fun _ => ?_) (fun _ => ?_)

theorem dmaRead_kept {α : Type} {L : List Field} {s₀ s : State} (h : Kept L s₀ s) (fn : Nat) (c : Cmd) (addr : Nat) (x : Fetch α) {k : State → α → Done}
    (hk : ∀ s a, Kept L s₀ s → (k s a).Kept L s₀)
    (hl : Within [.host, .snags, .snagNext, .out] L := by exact sub (by assumption) (by decide)) : (s.dmaRead fn c addr x k).Kept L s₀ := by
  unfold State.dmaRead
  split
  · split
    · exact hk _ _ h
    · exact dmaFail_kept h _ _ _ _ _
  · exact h

theorem pfIrq_kept (h : Kept L s₀ s) (vec : Nat)
    (hl : Within [.host, .out] L := by exact sub (by assumption) (by decide)) : Kept L s₀ (s.pfIrq vec) := by
  unfold State.pfIrq
  repeat' first
    | with_reducible exact sub (by assumption) (by decide)
    | with_reducible assumption
    | with_reducible apply raise_kept

theorem wait_kept (h : Kept L s₀ s) (fn slot : Nat) (id : Nat) (k : WaitKind)
    (hl : Within [.host] L := by exact sub (by assumption) (by decide)) : Kept L s₀ (s.wait fn slot id k) := by
  unfold State.wait
  repeat' first
    | with_reducible exact sub (by assumption) (by decide)
    | with_reducible assumption
    | with_reducible apply modHost_kept
    | exact fun _ h => h

theorem completeWaits_kept (h : Kept L s₀ s) (p : WaitKind → Bool) (status detail : Nat) (result : List Byte)
    (hl : Within [.host, .out] L := by exact sub (by assumption) (by decide)) :
    Kept L s₀ (s.completeWaits p status detail result) := by
  unfold State.completeWaits
  repeat' first
    | with_reducible exact sub (by assumption) (by decide)
    | with_reducible assumption
    | with_reducible apply modHost_kept
    | with_reducible apply complete_kept
    | with_reducible refine foldl_kept (fun _ _ _ => ?_) ?_
    | exact fun _ h => h

theorem hostWrite_kept (h : Kept L s₀ s) (fn addr : Nat) (b : List Byte)
    (hl : Within [.out] L := by exact sub (by assumption) (by decide)) : Kept L s₀ (s.hostWrite fn addr b) := by
  unfold State.hostWrite
  repeat' first
    | with_reducible exact sub (by assumption) (by decide)
    | with_reducible assumption
    | with_reducible apply emit_kept
    | with_reducible refine Kept.ite (fun _ => ?_) (fun _ => ?_)

theorem setCtx_kept (h : Kept L s₀ s) (k : Nat) {c : CtxDie} (hc : Canonical ({} : Line) (s.ctx k).mem → Canonical ({} : Line) c.mem)
    (hl : Within [.ctx0, .ctx1] L := by exact sub (by assumption) (by decide)) :
    Kept L s₀ (s.setCtx k c) := by
  unfold State.setCtx
  unfold State.ctx at hc
  refine Kept.ite (fun e => ?_) fun e => ?_
  · rw [if_pos e] at hc
    exact h.trans ⟨rfl, rfl, le_rfl, le_rfl, List.suffix_refl _, fun _ => .refl, id, fun m => ⟨m.1, m.2.1, hc m.2.2.1, m.2.2.2⟩, id, changed hl⟩
  · rw [if_neg e] at hc
    exact h.trans ⟨rfl, rfl, le_rfl, le_rfl, List.suffix_refl _, fun _ => .refl, id, fun m => ⟨m.1, m.2.1, m.2.2.1, hc m.2.2.2.1, m.2.2.2.2⟩, id, changed hl⟩

theorem modCtx_kept (h : Kept L s₀ s) (k : Nat) {f : CtxDie → CtxDie}
    (hf : ∀ c : CtxDie, Canonical ({} : Line) c.mem → Canonical ({} : Line) (f c).mem)
    (hl : Within [.ctx0, .ctx1] L := by exact sub (by assumption) (by decide)) : Kept L s₀ (s.modCtx k f) := setCtx_kept h k (hf _)

theorem stickyCtx_kept (h : Kept L s₀ s) (k : Nat) (was : Bool) {set : CtxDie → CtxDie}
    (hs : ∀ c : CtxDie, Canonical ({} : Line) c.mem → Canonical ({} : Line) (set c).mem) (code sev unit : Nat) (args : List Nat)
    (hl : Within [.ctx0, .ctx1, .host, .snags, .snagNext, .out] L := by exact sub (by assumption) (by decide)) :
    Kept L s₀ (s.stickyCtx k was set code sev unit args) := by
  unfold State.stickyCtx
  exact Kept.ite (fun _ => modCtx_kept h k hs) fun _ => snag_kept (modCtx_kept h k hs) _ _ _ _ _

theorem freePage_kept (h : Kept L s₀ s) (ppn : Nat)
    (hl : Within [.ctx0, .ctx1] L := by exact sub (by assumption) (by decide)) : Kept L s₀ (s.freePage ppn) := by
  unfold State.freePage
  exact Kept.ite (fun _ => h) fun _ => modCtx_kept h _ fun c hc => CtxDie.zeroPage_canonical hc ppn

theorem setPte_kept (h : Kept L s₀ s) (tenant lpn : Nat) (v : BitVec 32)
    (hl : Within [.pages] L := by exact sub (by assumption) (by decide)) : Kept L s₀ (s.setPte tenant lpn v) := by
  unfold State.setPte
  repeat' first
    | with_reducible exact sub (by assumption) (by decide)
    | with_reducible assumption
    | with_reducible refine Kept.same ?_

theorem freeLpns_kept (h : Kept L s₀ s) (tenant lpn n : Nat)
    (hl : Within [.ctx0, .ctx1, .pages] L := by exact sub (by assumption) (by decide)) : Kept L s₀ (s.freeLpns tenant lpn n) := by
  unfold State.freeLpns
  repeat' first
    | with_reducible exact sub (by assumption) (by decide)
    | with_reducible assumption
    | with_reducible apply freePage_kept
    | with_reducible refine foldl_kept (fun _ _ _ => ?_) ?_
    | with_reducible refine Kept.ite (fun _ => ?_) (fun _ => ?_)
    | with_reducible refine Kept.same ?_

theorem releaseSeq_kept (h : Kept L s₀ s) (k seq : Nat)
    (hl : Within [.ctx0, .ctx1, .pages] L := by exact sub (by assumption) (by decide)) : Kept L s₀ (s.releaseSeq k seq) := by
  unfold State.releaseSeq
  repeat' first
    | with_reducible exact sub (by assumption) (by decide)
    | with_reducible assumption
    | with_reducible apply modCtx_kept
    | with_reducible apply freeLpns_kept
    | exact fun _ h => h
    | with_reducible refine Kept.ite (fun _ => ?_) (fun _ => ?_)

theorem modPlan_kept (h : Kept L s₀ s) (id : Nat) (f : Loaded → Loaded)
    (hl : Within [.plans] L := by exact sub (by assumption) (by decide)) : Kept L s₀ (s.modPlan id f) := by
  unfold State.modPlan
  repeat' first
    | with_reducible exact sub (by assumption) (by decide)
    | with_reducible assumption
    | with_reducible refine Kept.same ?_

theorem setBank_kept (h : Kept L s₀ s) (k bank : Nat) (r : BankRec)
    (hl : Within [.weights] L := by exact sub (by assumption) (by decide)) : Kept L s₀ (s.setBank k bank r) := by
  unfold State.setBank
  repeat' first
    | with_reducible exact sub (by assumption) (by decide)
    | with_reducible assumption
    | (lift_lets; intro _)
    | with_reducible refine Kept.same ?_

theorem endPlacement_kept (h : Kept L s₀ s) (p : Loaded)
    (hl : Within [.weights] L := by exact sub (by assumption) (by decide)) : Kept L s₀ (s.endPlacement p) := by
  unfold State.endPlacement
  repeat' first
    | with_reducible exact sub (by assumption) (by decide)
    | with_reducible assumption
    | with_reducible apply setBank_kept
    | with_reducible refine foldl_kept (fun _ _ _ => ?_) ?_
    | split

theorem unloadPlan_kept (h : Kept L s₀ s) (p : Loaded)
    (hl : Within [.bays, .rtrs, .ctx0, .ctx1, .pages, .plans, .fab] L := by exact sub (by assumption) (by decide)) : Kept L s₀ (s.unloadPlan p) := by
  unfold State.unloadPlan
  repeat' first
    | with_reducible exact sub (by assumption) (by decide)
    | with_reducible assumption
    | with_reducible apply modBay_kept
    | with_reducible apply modRtr_kept
    | with_reducible apply modCtx_kept
    | with_reducible apply freeLpns_kept
    | with_reducible refine foldl_kept (fun _ _ _ => ?_) ?_
    | exact fun _ h => h
    | exact fun _ h => Bay.invalidate_canonical h
    | with_reducible refine Kept.ite (fun _ => ?_) (fun _ => ?_)
    | (lift_lets; intro s1; have hs1 : Kept L s₀ s1 := ?_; clear_value s1)
    | (lift_lets; intro _)
    | split
    | with_reducible refine Kept.same ?_

theorem leaveStarted_kept (h : Kept L s₀ s) (p : Loaded)
    (hl : Within [.mode, .bays, .rtrs, .ctx0, .ctx1, .pages, .plans, .weights, .fab, .host, .out] L := by exact sub (by assumption) (by decide)) : Kept L s₀ (s.leaveStarted p) := by
  unfold State.leaveStarted
  repeat' first
    | with_reducible exact sub (by assumption) (by decide)
    | with_reducible assumption
    | with_reducible apply endPlacement_kept
    | with_reducible apply modPlan_kept
    | with_reducible apply unloadPlan_kept
    | with_reducible apply completeWaits_kept
    | (with_reducible refine Kept.ite (fun c => setMode_kept ?_ (by rw [c.1]; decide) (by decide) (by decide)) fun _ => ?_)
    | with_reducible refine Kept.ite (fun _ => ?_) (fun _ => ?_)

theorem settleStops_kept (h : Kept L s₀ s)
    (hl : Within [.mode, .bays, .rtrs, .ctx0, .ctx1, .pages, .plans, .weights, .fab, .host, .out] L := by exact sub (by assumption) (by decide)) : Kept L s₀ (s.settleStops) := by
  unfold State.settleStops
  repeat' first
    | with_reducible exact sub (by assumption) (by decide)
    | with_reducible assumption
    | with_reducible apply leaveStarted_kept
    | with_reducible refine foldl_kept (fun _ _ _ => ?_) ?_
    | with_reducible refine Kept.ite (fun _ => ?_) (fun _ => ?_)

theorem edgeSink_kept (h : Kept L s₀ s) (b p : Nat) (h : BitVec 64)
    (hl : Within [.rtrs, .host, .snags, .snagNext, .out] L := by exact sub (by assumption) (by decide)) : Kept L s₀ (s.edgeSink b p h) := by
  unfold State.edgeSink
  repeat' first
    | with_reducible exact sub (by assumption) (by decide)
    | with_reducible assumption
    | with_reducible apply sinkLine_kept
    | exact fun h => h
    | exact fun _ h => h
    | decide
    | exact fun _ h => mset_canonical h _ _
    | exact fun _ h => Bay.invalidate_canonical h
    | exact fun _ h => canonical_nil _
    | exact fun _ h => Bay.storeLine_canonical h _ _
    | exact fun _ h => Bay.writeLine_canonical h _ _ _ _ _
    | exact fun _ hx => Panel.commitRow_canonical hx _ _ _
    | exact fun _ h => CtxDie.arbitrate_canonical h _
    | exact fun _ h => CtxDie.issue_canonical h _ _ _ _ _
    | exact fun _ h => CtxDie.zeroPage_canonical h _
    | with_reducible refine Kept.ite (fun _ => ?_) (fun _ => ?_)

theorem loadHomes_kept (h : Kept L s₀ s)
    (hl : Within [.boot] L := by exact sub (by assumption) (by decide)) : Kept L s₀ (s.loadHomes) := by
  unfold State.loadHomes
  repeat' first
    | with_reducible exact sub (by assumption) (by decide)
    | with_reducible assumption
    | with_reducible refine foldl_kept (fun _ _ _ => ?_) ?_
    | exact fun h => h
    | exact fun _ h => h
    | decide
    | exact fun _ h => mset_canonical h _ _
    | exact fun _ h => Bay.invalidate_canonical h
    | exact fun _ h => canonical_nil _
    | exact fun _ h => Bay.storeLine_canonical h _ _
    | exact fun _ h => Bay.writeLine_canonical h _ _ _ _ _
    | exact fun _ hx => Panel.commitRow_canonical hx _ _ _
    | exact fun _ h => CtxDie.arbitrate_canonical h _
    | exact fun _ h => CtxDie.issue_canonical h _ _ _ _ _
    | exact fun _ h => CtxDie.zeroPage_canonical h _
    | with_reducible refine Kept.ite (fun _ => ?_) (fun _ => ?_)
    | with_reducible refine Kept.ite_fst (fun _ => ?_) (fun _ => ?_)
    | refine fun _ _ _ => ?_
    | (lift_lets; intro _)
    | split
    | with_reducible refine Kept.same ?_

theorem toBay_kept (h : Kept L s₀ s) (b : Nat) (m : NovkoMsg)
    (hl : Within [.rtrs, .host, .snags, .snagNext, .out] L := by exact sub (by assumption) (by decide)) : Kept L s₀ (s.toBay b m) := by
  unfold State.toBay
  split
  · exact h
  · rename_i x _
    dsimp only
    refine Kept.ite (fun _ => foldl_kept (fun _ _ g => edgeSink_kept g _ _ _) h) fun _ => ?_
    have g := sendAlong_kept h m.lines (ctlRouter x.att) (novkoHdr x.down m.vc s.gen)
    generalize s.sendAlong m.lines (ctlRouter x.att) (novkoHdr x.down m.vc s.gen) = r at g ⊢
    cases r with
    | error d => exact g
    | ok d => exact emit_kept g _

theorem resumeRamps_kept (h : Kept L s₀ s)
    (hl : Within [.pwr, .host] L := by exact sub (by assumption) (by decide)) : Kept L s₀ s.resumeRamps := by
  unfold State.resumeRamps
  refine Kept.ite (fun _ => ?_) fun _ => Kept.ite (fun _ => ?_) fun _ => h
  · with_reducible refine Kept.power h ?_
    rfl
  · with_reducible refine Kept.power h ?_
    exact Power.startRamp_stage1Up _ _ _

theorem openTable_kept (h : Kept L s₀ s) (tenant : Nat)
    (hl : Within [.ctx0, .ctx1] L := by exact sub (by assumption) (by decide)) : Kept L s₀ (s.openTable tenant) := by
  unfold State.openTable
  exact Kept.ite (fun _ => h) fun _ => h.ctxs id id

theorem fwStore_kept (h : Kept L s₀ s) (k key : Nat) (x : Line)
    (hl : Within [.ctx0, .ctx1, .pages] L := by exact sub (by assumption) (by decide)) : Kept L s₀ (s.fwStore k key x) := by
  unfold State.fwStore
  repeat' first
    | with_reducible exact sub (by assumption) (by decide)
    | with_reducible assumption
    | with_reducible apply setPte_kept
    | with_reducible apply modCtx_kept
    | with_reducible refine foldl_kept (fun _ _ _ => ?_) ?_
    | exact fun h => h
    | exact fun _ h => h
    | decide
    | exact fun _ h => mset_canonical h _ _
    | exact fun _ h => Bay.invalidate_canonical h
    | exact fun _ h => canonical_nil _
    | exact fun _ h => Bay.storeLine_canonical h _ _
    | exact fun _ h => Bay.writeLine_canonical h _ _ _ _ _
    | exact fun _ hx => Panel.commitRow_canonical hx _ _ _
    | exact fun _ h => CtxDie.arbitrate_canonical h _
    | exact fun _ h => CtxDie.issue_canonical h _ _ _ _ _
    | exact fun _ h => CtxDie.zeroPage_canonical h _
    | with_reducible refine Kept.ite (fun _ => ?_) (fun _ => ?_)
    | with_reducible refine Kept.ite_fst (fun _ => ?_) (fun _ => ?_)
    | refine fun _ _ _ => ?_
    | split

theorem cmmPte_kept (h : Kept L s₀ s) (k tenant lpn : Nat) (v : BitVec 32)
    (hl : Within [.ctx0, .ctx1, .pages] L := by exact sub (by assumption) (by decide)) : Kept L s₀ (s.cmmPte k tenant lpn v) := by
  unfold State.cmmPte
  repeat' first
    | with_reducible exact sub (by assumption) (by decide)
    | with_reducible assumption
    | with_reducible apply modCtx_kept
    | with_reducible apply setPte_kept
    | exact fun h => h
    | exact fun _ h => h
    | decide
    | exact fun _ h => mset_canonical h _ _
    | exact fun _ h => Bay.invalidate_canonical h
    | exact fun _ h => canonical_nil _
    | exact fun _ h => Bay.storeLine_canonical h _ _
    | exact fun _ h => Bay.writeLine_canonical h _ _ _ _ _
    | exact fun _ hx => Panel.commitRow_canonical hx _ _ _
    | exact fun _ h => CtxDie.arbitrate_canonical h _
    | exact fun _ h => CtxDie.issue_canonical h _ _ _ _ _
    | exact fun _ h => CtxDie.zeroPage_canonical h _
    | with_reducible refine Kept.ite (fun _ => ?_) (fun _ => ?_)
    | with_reducible refine Kept.ite_fst (fun _ => ?_) (fun _ => ?_)
    | refine fun _ _ _ => ?_
    | (lift_lets; intro _)
    | split

end Sys2Proof.Machine
end

