-- ==== Sys2Proof/Laws/KeptBays.lean ====
section
/-! SUPPORT. `Kept` holds after the operations of the bays, their panels and routers (one lemma per operation, `<operation>_kept`). -/

namespace Sys2Proof.Machine

set_option maxRecDepth 20000
set_option Elab.async false

variable {L : List Field} {s₀ s : State}

theorem stopBay_kept (h : Kept L s₀ s) (b : Nat)
    (hl : Within [.mode, .pwr, .bays, .rtrs, .ctx0, .ctx1, .pages, .plans, .weights, .fab, .host, .out] L := by exact sub (by assumption) (by decide)) : Kept L s₀ (s.stopBay b) :=
  settleStops_kept (settleLeaves_kept (modBay_kept h b fun _ hy => by exact hy))

theorem setFlag_kept (h : Kept L s₀ s) (b f src coord : Nat)
    (hl : Within [.bays, .host, .snags, .snagNext, .out] L := by exact sub (by assumption) (by decide)) : Kept L s₀ (s.setFlag b f src coord) := by
  unfold State.setFlag
  repeat' first
    | with_reducible exact sub (by assumption) (by decide)
    | with_reducible assumption
    | with_reducible apply stickyBay_kept
    | with_reducible apply modBay_kept
    | exact fun _ h => h
    | with_reducible refine Kept.ite (fun _ => ?_) (fun _ => ?_)

theorem boundary_kept (h : Kept L s₀ s) (b : Nat)
    (hl : Within [.panels, .bays] L := by exact sub (by assumption) (by decide)) : Kept L s₀ (s.boundary b) := by
  unfold State.boundary
  repeat' first
    | with_reducible exact sub (by assumption) (by decide)
    | with_reducible assumption
    | with_reducible apply modBay_kept
    | with_reducible apply modPanel_kept
    | with_reducible refine foldl_kept (fun _ _ _ => ?_) ?_
    | exact fun _ h => h
    | exact fun _ h => by rw [Panel.applyStg_cells]; exact h

theorem haltBay_kept (h : Kept L s₀ s) (b kind idx : Nat)
    (hl : Within [.mode, .pwr, .bays, .rtrs, .ctx0, .ctx1, .pages, .plans, .weights, .fab, .host, .snags, .snagNext, .out] L := by exact sub (by assumption) (by decide)) : Kept L s₀ (s.haltBay b kind idx) := by
  unfold State.haltBay
  repeat' first
    | with_reducible exact sub (by assumption) (by decide)
    | with_reducible assumption
    | with_reducible apply stickyBay_kept
    | with_reducible apply modBay_kept
    | with_reducible apply signalFault_kept
    | with_reducible apply settleLeaves_kept
    | with_reducible apply settleStops_kept
    | exact fun h => h
    | exact fun _ h => h

theorem beginProgram_kept (h : Kept L s₀ s) (b prog : Nat) (slots : List SlotEnt)
    (hl : Within [.mode, .pwr, .bays, .rtrs, .ctx0, .ctx1, .pages, .plans, .weights, .fab, .host, .snags, .snagNext, .out] L := by exact sub (by assumption) (by decide)) : Kept L s₀ (s.beginProgram b prog slots) := by
  unfold State.beginProgram
  repeat' first
    | with_reducible exact sub (by assumption) (by decide)
    | with_reducible assumption
    | with_reducible apply modBay_kept
    | with_reducible apply haltBay_kept
    | exact fun _ h => h
    | with_reducible refine Kept.ite (fun _ => ?_) (fun _ => ?_)

theorem endProgram_kept (h : Kept L s₀ s) (b : Nat)
    (hl : Within [.mode, .pwr, .bays, .rtrs, .ctx0, .ctx1, .pages, .plans, .weights, .fab, .host, .snags, .snagNext, .out] L := by exact sub (by assumption) (by decide)) : Kept L s₀ (s.endProgram b) := by
  unfold State.endProgram
  repeat' first
    | with_reducible exact sub (by assumption) (by decide)
    | with_reducible assumption
    | with_reducible apply modBay_kept
    | with_reducible apply stopBay_kept
    | with_reducible apply beginProgram_kept
    | with_reducible apply settleLeaves_kept
    | exact fun _ h => h
    | with_reducible refine Kept.ite (fun _ => ?_) (fun _ => ?_)
    | split

theorem finishStroke_kept (h : Kept L s₀ s) (b : Nat) (r : Running)
    (hl : Within [.mode, .pwr, .panels, .bays, .rtrs, .ctx0, .ctx1, .pages, .plans, .weights, .fab, .host, .snags, .snagNext, .out] L := by exact sub (by assumption) (by decide)) : Kept L s₀ (s.finishStroke b r) := by
  unfold State.finishStroke
  lift_lets
  intro w free s1
  have h1 : Kept L s₀ s1 := modBay_kept h b fun y hy => Bay.foldl_canonical (fun _ _ k => Bay.enterSeg_canonical k _ _) _
    (Bay.foldl_canonical (fun _ _ k => Bay.foldl_canonical (fun _ _ k => Bay.writeLine_canonical k _ _ _ _ _) _ k) _ hy)
  clear_value s1
  intro s2
  have h2 : Kept L s₀ s2 := foldl_kept (fun s f k => setFlag_kept k b f 0 0) h1
  clear_value s2
  intro s3
  have h3 : Kept L s₀ s3 := skipAfter_kept (boundary_kept h2 b) b _
  clear_value s3
  intro s4
  have h4 : Kept L s₀ s4 := by
    unfold s4
    split
    · exact toCtl_kept (modBay_kept h3 b fun _ hy => by exact hy) _ _
    · exact h3
  clear_value s4
  refine Kept.ite (fun _ => ?_) fun _ => modBay_kept h4 b fun _ hy => by exact hy
  exact endProgram_kept (Kept.ite (fun _ => toCtl_kept h4 _ _) fun _ => h4) b

theorem reportEcc_kept (h : Kept L s₀ s) (b : Nat) (errs : List (Nat × Nat)) (addr : Nat → Nat)
    (hl : Within [.bays, .rtrs, .host, .snags, .snagNext, .out] L := by exact sub (by assumption) (by decide)) : Kept L s₀ (s.reportEcc b errs addr) := by
  unfold State.reportEcc
  repeat' first
    | with_reducible exact sub (by assumption) (by decide)
    | with_reducible assumption
    | with_reducible apply modBay_kept
    | with_reducible apply stickyBay_kept
    | with_reducible apply signalFault_kept
    | with_reducible refine foldl_kept (fun _ _ _ => ?_) ?_
    | exact fun _ h => h
    | with_reducible refine Kept.ite (fun _ => ?_) (fun _ => ?_)

theorem readSp_kept (h : Kept L s₀ s) (b l : Nat)
    (hl : Within [.bays, .rtrs, .host, .snags, .snagNext, .out] L := by exact sub (by assumption) (by decide)) : Kept L s₀ (s.readSp b l).2 := by
  unfold State.readSp
  repeat' first
    | with_reducible exact sub (by assumption) (by decide)
    | with_reducible assumption
    | with_reducible apply reportEcc_kept
    | (lift_lets; intro _)
    | split

theorem segError_kept (h : Kept L s₀ s) (b addr client : Nat)
    (hl : Within [.bays, .host, .snags, .snagNext, .out] L := by exact sub (by assumption) (by decide)) : Kept L s₀ (s.segError b addr client) := by
  unfold State.segError
  repeat' first
    | with_reducible exact sub (by assumption) (by decide)
    | with_reducible assumption
    | with_reducible apply stickyBay_kept
    | exact fun _ h => h

theorem boundaryIf_kept (h : Kept L s₀ s) (b : Nat)
    (hl : Within [.panels, .bays] L := by exact sub (by assumption) (by decide)) : Kept L s₀ (s.boundaryIf b) := by
  unfold State.boundaryIf
  repeat' first
    | with_reducible exact sub (by assumption) (by decide)
    | with_reducible assumption
    | with_reducible apply boundary_kept
    | with_reducible refine Kept.ite (fun _ => ?_) (fun _ => ?_)

theorem strokeCheck_kept (h : Kept L s₀ s) (b : Nat)
    (hl : Within [.mode, .pwr, .panels, .bays, .rtrs, .ctx0, .ctx1, .pages, .plans, .weights, .fab, .host, .snags, .snagNext, .out] L := by exact sub (by assumption) (by decide)) : Kept L s₀ (s.strokeCheck b) := by
  unfold State.strokeCheck
  repeat' first
    | with_reducible exact sub (by assumption) (by decide)
    | with_reducible assumption
    | with_reducible apply complete_kept
    | with_reducible apply finishStroke_kept
    | exact fun h => h
    | exact fun _ h => h
    | decide
    | exact fun _ h => mset_canonical h _ _
    | exact fun _ h => Bay.invalidate_canonical h
    | exact fun _ h => canonical_nil _
    | exact fun _ h => Bay.storeLine_canonical h _ _
    | exact fun _ h => Bay.writeLine_canonical h _ _ _ _ _
    | exact fun _ hx => Panel.commitRow_canonical hx _ _ _
    | exact fun _ h => CtxDie.arbitrate_canonical h _
    | exact fun _ h => CtxDie.issue_canonical h _ _ _ _ _
    | exact fun _ h => CtxDie.zeroPage_canonical h _
    | with_reducible refine Kept.ite (fun _ => ?_) (fun _ => ?_)
    | with_reducible refine Kept.ite_fst (fun _ => ?_) (fun _ => ?_)
    | refine fun _ _ _ => ?_
    | split

theorem takeLocal_kept (h : Kept L s₀ s) (b : Nat) (m : MLine)
    (hl : Within [.rtrs] L := by exact sub (by assumption) (by decide)) : Kept.Opt L s₀ (s.takeLocal b m) := by
  unfold State.takeLocal
  split
  · exact .some (modRtr_kept h _ _)
  · exact .ite (fun _ => .some (modRtr_kept h _ _)) fun _ => .none

theorem dropHeader_kept (h : Kept L s₀ s) (b input : Nat) (h : BitVec 64)
    (hl : Within [.rtrs, .host, .snags, .snagNext, .out] L := by exact sub (by assumption) (by decide)) : Kept L s₀ (s.dropHeader b input h) := by
  unfold State.dropHeader
  repeat' first
    | with_reducible exact sub (by assumption) (by decide)
    | with_reducible assumption
    | with_reducible apply stickyRtr_kept

theorem dropNoMatch_kept (h : Kept L s₀ s) (b : Nat) (h : BitVec 64)
    (hl : Within [.rtrs, .host, .snags, .snagNext, .out] L := by exact sub (by assumption) (by decide)) : Kept L s₀ (s.dropNoMatch b h) := by
  unfold State.dropNoMatch
  repeat' first
    | with_reducible exact sub (by assumption) (by decide)
    | with_reducible assumption
    | with_reducible apply stickyRtr_kept

theorem mgmtPush_kept (h : Kept L s₀ s) (b src : Nat) (m : MLine)
    (hl : Within [.bays, .host, .snags, .snagNext, .out] L := by exact sub (by assumption) (by decide)) : Kept L s₀ (s.mgmtPush b src m) := by
  unfold State.mgmtPush
  repeat' first
    | with_reducible exact sub (by assumption) (by decide)
    | with_reducible assumption
    | with_reducible apply setBay_kept
    | with_reducible apply stickyBay_kept
    | exact fun _ h => h
    | exact fun h => h
    | (lift_lets; intro _)
    | split
    | with_reducible refine Kept.same ?_

theorem localLine_kept (h : Kept L s₀ s) (b src : Nat) (m : MLine)
    (hl : Within [.bays, .rtrs, .host, .snags, .snagNext, .out] L := by exact sub (by assumption) (by decide)) : Kept.Opt L s₀ (s.localLine b src m) := by
  unfold State.localLine
  refine .ite (fun _ => .some (.ite (fun _ => setFlag_kept h _ _ _ _) fun _ => setFlag_kept h _ _ _ _)) fun _ => .ite (fun _ => .some (dropHeader_kept h _ _ _)) fun _ =>
    .ite (fun _ => .some (dropHeader_kept h _ _ _)) fun _ => .ite (fun _ => .some h) fun _ =>
    .ite (fun _ => .some (mgmtPush_kept h _ _ _)) fun _ => .ite (fun _ => .some (modBay_kept h b fun _ hy => by exact hy)) fun _ => .ite (fun _ => .some (dropNoMatch_kept h _ _))
    fun _ => .ite (fun _ => .some (dropNoMatch_kept h _ _)) fun _ => .ite (fun _ => .some (modBay_kept h b fun _ hy => by exact hy)) fun _ => .none

theorem dropClosed_kept (h : Kept L s₀ s) (b : Nat) (h : BitVec 64)
    (hl : Within [.rtrs, .host, .snags, .snagNext, .out] L := by exact sub (by assumption) (by decide)) : Kept L s₀ (s.dropClosed b h) := by
  unfold State.dropClosed
  repeat' first
    | with_reducible exact sub (by assumption) (by decide)
    | with_reducible assumption
    | with_reducible apply stickyRtr_kept

theorem dropStale_kept (h : Kept L s₀ s) (b : Nat) (gen : BitVec 8) (src : Nat)
    (hl : Within [.bays, .host, .snags, .snagNext, .out] L := by exact sub (by assumption) (by decide)) : Kept L s₀ (s.dropStale b gen src) := by
  unfold State.dropStale
  repeat' first
    | with_reducible exact sub (by assumption) (by decide)
    | with_reducible assumption
    | with_reducible apply stickyBay_kept
    | exact fun _ h => h

theorem localGate_kept (h : Kept L s₀ s) (b src : Nat) (hd : BitVec 64)
    (hl : Within [.bays, .rtrs, .host, .snags, .snagNext, .out] L := by exact sub (by assumption) (by decide)) : Kept.Exc L s₀ (s.localGate b src hd) :=
  .ite (fun _ => dropClosed_kept h b hd) fun _ => .ite (fun _ => dropStale_kept h b (hGen hd) src) fun _ => h

theorem ctlGate_kept (h : Kept L s₀ s) (b src : Nat) (gen : BitVec 8)
    (hl : Within [.bays, .rtrs, .host, .snags, .snagNext, .out] L := by exact sub (by assumption) (by decide)) : Kept.Exc L s₀ (s.ctlGate b src gen) :=
  .ite (fun _ => h) fun _ => .ite (fun _ => dropClosed_kept h b _) fun _ => .ite (fun _ => dropStale_kept h b gen src) fun _ => h

theorem localArrive_kept (h : Kept L s₀ s) (b src : Nat) (m : MLine)
    (hl : Within [.bays, .rtrs, .host, .snags, .snagNext, .out] L := by exact sub (by assumption) (by decide)) : Kept L s₀ (s.localArrive b src m) := by
  unfold State.localArrive
  split
  · exact h
  · rename_i s' e
    have g := localGate_kept ((takeLocal_kept h b m) s' e) b src m.hdr
    split <;> rename_i u e' <;> rw [e'] at g
    · exact g
    · refine Kept.ite (fun _ => h) fun _ => ?_
      have k := localLine_kept g b src m
      match e'' : u.localLine b src m with
      | none => exact h
      | some v => exact k v e''

theorem execMgmtQueuePush_kept (h : Kept L s₀ s) (t src : Nat) (b : BayIx) (m : MLine)
    (hl : Within [.now, .bays, .rtrs, .host, .snags, .snagNext, .out] L := by exact sub (by assumption) (by decide)) : Kept.Out L s₀ (execMgmtQueuePush t src b m s) := by
  unfold execMgmtQueuePush
  repeat' first
    | with_reducible exact sub (by assumption) (by decide)
    | with_reducible assumption
    | with_reducible apply tick_kept
    | with_reducible apply localArrive_kept
    | with_reducible refine Kept.Out.next ?_
    | with_reducible refine Kept.Out.ite (fun _ => ?_) (fun _ => ?_)
    | exact fun h => h
    | exact fun _ h => h
    | decide
    | exact fun _ h => mset_canonical h _ _
    | exact fun _ h => Bay.invalidate_canonical h
    | exact fun _ h => canonical_nil _
    | exact fun _ h => Bay.storeLine_canonical h _ _
    | exact fun _ h => Bay.writeLine_canonical h _ _ _ _ _
    | exact fun _ hx => Panel.commitRow_canonical hx _ _ _
    | exact fun _ h => CtxDie.arbitrate_canonical h _
    | exact fun _ h => CtxDie.issue_canonical h _ _ _ _ _
    | exact fun _ h => CtxDie.zeroPage_canonical h _
    | with_reducible refine Kept.ite (fun _ => ?_) (fun _ => ?_)

theorem hardFence_kept (h : Kept L s₀ s) (b cause arg : Nat)
    (hl : Within [.rtrs, .host, .snags, .snagNext, .out] L := by exact sub (by assumption) (by decide)) : Kept L s₀ (s.hardFence b cause arg) := by
  unfold State.hardFence
  repeat' first
    | with_reducible exact sub (by assumption) (by decide)
    | with_reducible assumption
    | with_reducible apply modRtr_kept
    | with_reducible apply snagBay_kept
    | with_reducible refine Kept.ite (fun _ => ?_) (fun _ => ?_)

theorem enqueue_kept (h : Kept L s₀ s) (b input : Nat) (m : MLine)
    (hl : Within [.rtrs] L := by exact sub (by assumption) (by decide)) : Kept L s₀ (s.enqueue b input m) := by
  unfold State.enqueue
  repeat' first
    | with_reducible exact sub (by assumption) (by decide)
    | with_reducible assumption
    | with_reducible apply modRtr_kept

theorem offer_kept (h : Kept L s₀ s) (b input : Nat) (m : MLine)
    (hl : Within [.rtrs] L := by exact sub (by assumption) (by decide)) : Kept L s₀ (s.offer b input m) := by
  unfold State.offer
  repeat' first
    | with_reducible exact sub (by assumption) (by decide)
    | with_reducible assumption
    | with_reducible apply enqueue_kept
    | with_reducible apply modRtr_kept
    | exact fun h => h
    | exact fun _ h => h
    | decide
    | exact fun _ h => mset_canonical h _ _
    | exact fun _ h => Bay.invalidate_canonical h
    | exact fun _ h => canonical_nil _
    | exact fun _ h => Bay.storeLine_canonical h _ _
    | exact fun _ h => Bay.writeLine_canonical h _ _ _ _ _
    | exact fun _ hx => Panel.commitRow_canonical hx _ _ _
    | exact fun _ h => CtxDie.arbitrate_canonical h _
    | exact fun _ h => CtxDie.issue_canonical h _ _ _ _ _
    | exact fun _ h => CtxDie.zeroPage_canonical h _
    | with_reducible refine Kept.ite (fun _ => ?_) (fun _ => ?_)

theorem inject_kept (h : Kept L s₀ s) (b : Nat) (m : MLine)
    (hl : Within [.rtrs] L := by exact sub (by assumption) (by decide)) : Kept L s₀ (s.inject b m) := by
  unfold State.inject
  repeat' first
    | with_reducible exact sub (by assumption) (by decide)
    | with_reducible assumption
    | with_reducible apply offer_kept
    | exact fun h => h
    | exact fun _ h => h
    | decide
    | exact fun _ h => mset_canonical h _ _
    | exact fun _ h => Bay.invalidate_canonical h
    | exact fun _ h => canonical_nil _
    | exact fun _ h => Bay.storeLine_canonical h _ _
    | exact fun _ h => Bay.writeLine_canonical h _ _ _ _ _
    | exact fun _ hx => Panel.commitRow_canonical hx _ _ _
    | exact fun _ h => CtxDie.arbitrate_canonical h _
    | exact fun _ h => CtxDie.issue_canonical h _ _ _ _ _
    | exact fun _ h => CtxDie.zeroPage_canonical h _
    | with_reducible refine Kept.ite (fun _ => ?_) (fun _ => ?_)

theorem edgeInject_kept (h : Kept L s₀ s) (b p : Nat) (m : MLine)
    (hl : Within [.rtrs, .host, .snags, .snagNext, .out] L := by exact sub (by assumption) (by decide)) : Kept L s₀ (s.edgeInject b p m) := by
  unfold State.edgeInject
  repeat' first
    | with_reducible exact sub (by assumption) (by decide)
    | with_reducible assumption
    | with_reducible apply edgeSink_kept
    | with_reducible apply modRtr_kept
    | with_reducible apply offer_kept
    | exact fun h => h
    | exact fun _ h => h
    | decide
    | exact fun _ h => mset_canonical h _ _
    | exact fun _ h => Bay.invalidate_canonical h
    | exact fun _ h => canonical_nil _
    | exact fun _ h => Bay.storeLine_canonical h _ _
    | exact fun _ h => Bay.writeLine_canonical h _ _ _ _ _
    | exact fun _ hx => Panel.commitRow_canonical hx _ _ _
    | exact fun _ h => CtxDie.arbitrate_canonical h _
    | exact fun _ h => CtxDie.issue_canonical h _ _ _ _ _
    | exact fun _ h => CtxDie.zeroPage_canonical h _
    | with_reducible refine Kept.ite (fun _ => ?_) (fun _ => ?_)

theorem bayReply_kept (h : Kept L s₀ s) (b : Nat) (route : BitVec 64) (stream : Nat) (ls : List Line)
    (hl : Within [.rtrs] L := by exact sub (by assumption) (by decide)) :
    Kept L s₀ (s.bayReply b route stream ls) := by
  unfold State.bayReply
  repeat' first
    | with_reducible exact sub (by assumption) (by decide)
    | with_reducible assumption
    | with_reducible apply inject_kept
    | with_reducible refine foldl_kept (fun _ _ _ => ?_) ?_

theorem moveUp_kept (h : Kept L s₀ s) (b input vc : Nat)
    (hl : Within [.rtrs] L := by exact sub (by assumption) (by decide)) : Kept L s₀ (s.moveUp b input vc) := by
  unfold State.moveUp
  repeat' first
    | with_reducible exact sub (by assumption) (by decide)
    | with_reducible assumption
    | with_reducible apply modRtr_kept
    | with_reducible apply enqueue_kept
    | exact fun h => h
    | exact fun _ h => h
    | decide
    | exact fun _ h => mset_canonical h _ _
    | exact fun _ h => Bay.invalidate_canonical h
    | exact fun _ h => canonical_nil _
    | exact fun _ h => Bay.storeLine_canonical h _ _
    | exact fun _ h => Bay.writeLine_canonical h _ _ _ _ _
    | exact fun _ hx => Panel.commitRow_canonical hx _ _ _
    | exact fun _ h => CtxDie.arbitrate_canonical h _
    | exact fun _ h => CtxDie.issue_canonical h _ _ _ _ _
    | exact fun _ h => CtxDie.zeroPage_canonical h _
    | with_reducible refine Kept.ite (fun _ => ?_) (fun _ => ?_)
    | with_reducible refine Kept.ite_fst (fun _ => ?_) (fun _ => ?_)
    | refine fun _ _ _ => ?_
    | (lift_lets; intro _)
    | split

theorem dropBad_kept (h : Kept L s₀ s) (b : Nat)
    (hl : Within [.rtrs, .host, .snags, .snagNext, .out] L := by exact sub (by assumption) (by decide)) : Kept L s₀ (s.dropBad b) := by
  unfold State.dropBad
  repeat' first
    | with_reducible exact sub (by assumption) (by decide)
    | with_reducible assumption
    | with_reducible apply modRtr_kept
    | with_reducible apply moveUp_kept
    | with_reducible apply dropHeader_kept
    | with_reducible refine foldl_kept (fun _ _ _ => ?_) ?_
    | exact fun h => h
    | exact fun _ h => h
    | decide
    | exact fun _ h => mset_canonical h _ _
    | exact fun _ h => Bay.invalidate_canonical h
    | exact fun _ h => canonical_nil _
    | exact fun _ h => Bay.storeLine_canonical h _ _
    | exact fun _ h => Bay.writeLine_canonical h _ _ _ _ _
    | exact fun _ hx => Panel.commitRow_canonical hx _ _ _
    | exact fun _ h => CtxDie.arbitrate_canonical h _
    | exact fun _ h => CtxDie.issue_canonical h _ _ _ _ _
    | exact fun _ h => CtxDie.zeroPage_canonical h _
    | with_reducible refine Kept.ite (fun _ => ?_) (fun _ => ?_)
    | with_reducible refine Kept.ite_fst (fun _ => ?_) (fun _ => ?_)
    | refine fun _ _ _ => ?_
    | (lift_lets; intro _)
    | split

theorem deliver_kept (h : Kept L s₀ s) (b p : Nat) (m : MLine)
    (hl : Within [.rtrs, .edgeQ, .host, .snags, .snagNext, .out] L := by exact sub (by assumption) (by decide)) : Kept L s₀ (s.deliver b p m) := by
  unfold State.deliver
  repeat' first
    | with_reducible exact sub (by assumption) (by decide)
    | with_reducible assumption
    | with_reducible apply modRtr_kept
    | with_reducible apply sinkLine_kept
    | with_reducible apply enqueue_kept
    | with_reducible refine Kept.ite (fun _ => ?_) (fun _ => ?_)
    | split
    | with_reducible refine Kept.same ?_

theorem moveLine_kept (h : Kept L s₀ s) (b input vc : Nat)
    (hl : Within [.rtrs, .edgeQ, .host, .snags, .snagNext, .out] L := by exact sub (by assumption) (by decide)) : Kept L s₀ (s.moveLine b input vc) := by
  unfold State.moveLine
  repeat' first
    | with_reducible exact sub (by assumption) (by decide)
    | with_reducible assumption
    | with_reducible apply modRtr_kept
    | with_reducible apply deliver_kept
    | with_reducible apply moveUp_kept
    | with_reducible refine foldl_kept (fun _ _ _ => ?_) ?_
    | exact fun h => h
    | exact fun _ h => h
    | decide
    | exact fun _ h => mset_canonical h _ _
    | exact fun _ h => Bay.invalidate_canonical h
    | exact fun _ h => canonical_nil _
    | exact fun _ h => Bay.storeLine_canonical h _ _
    | exact fun _ h => Bay.writeLine_canonical h _ _ _ _ _
    | exact fun _ hx => Panel.commitRow_canonical hx _ _ _
    | exact fun _ h => CtxDie.arbitrate_canonical h _
    | exact fun _ h => CtxDie.issue_canonical h _ _ _ _ _
    | exact fun _ h => CtxDie.zeroPage_canonical h _
    | with_reducible refine Kept.ite (fun _ => ?_) (fun _ => ?_)
    | with_reducible refine Kept.ite_fst (fun _ => ?_) (fun _ => ?_)
    | refine fun _ _ _ => ?_
    | (lift_lets; intro _)
    | split

theorem setLocalClose_kept (h : Kept L s₀ s) (b : Nat) (v : Bool)
    (hl : Within [.rtrs] L := by exact sub (by assumption) (by decide)) : Kept L s₀ (s.setLocalClose b v) := by
  unfold State.setLocalClose
  repeat' first
    | with_reducible exact sub (by assumption) (by decide)
    | with_reducible assumption
    | with_reducible apply modRtr_kept

theorem execLineForward_kept (h : Kept L s₀ s) (t : Nat) (b : BayIx) (out : Fin 5)
    (hl : Within [.now, .rtrs, .edgeQ, .host, .snags, .snagNext, .out] L := by exact sub (by assumption) (by decide)) : Kept.Out L s₀ (execLineForward t b out s) := by
  unfold execLineForward
  repeat' first
    | with_reducible exact sub (by assumption) (by decide)
    | with_reducible assumption
    | with_reducible apply tick_kept
    | with_reducible apply dropBad_kept
    | with_reducible apply moveLine_kept
    | with_reducible apply modRtr_kept
    | with_reducible refine Kept.Out.next ?_
    | with_reducible refine Kept.ite (fun _ => ?_) (fun _ => ?_)
    | (lift_lets; intro s1; have hs1 : Kept L s₀ s1 := ?_; clear_value s1)
    | split

theorem execRtrLocalCloseWrite_kept (h : Kept L s₀ s) (t : Nat) (b : BayIx) (v : Bool)
    (hl : Within [.now, .rtrs] L := by exact sub (by assumption) (by decide)) : Kept.Out L s₀ (execRtrLocalCloseWrite t b v s) := by
  unfold execRtrLocalCloseWrite
  repeat' first
    | with_reducible exact sub (by assumption) (by decide)
    | with_reducible assumption
    | with_reducible apply tick_kept
    | with_reducible apply setLocalClose_kept
    | with_reducible refine Kept.Out.next ?_

theorem execRtrCntClr_kept (h : Kept L s₀ s) (t : Nat) (b : BayIx)
    (hl : Within [.now, .rtrs] L := by exact sub (by assumption) (by decide)) : Kept.Out L s₀ (execRtrCntClr t b s) := by
  unfold execRtrCntClr
  repeat' first
    | with_reducible exact sub (by assumption) (by decide)
    | with_reducible assumption
    | with_reducible apply tick_kept
    | with_reducible apply modRtr_kept
    | with_reducible refine Kept.Out.next ?_

theorem dropMessage_kept (h : Kept L s₀ s) (b : Nat) (ms : List MLine)
    (hl : Within [.rtrs, .host, .snags, .snagNext, .out] L := by exact sub (by assumption) (by decide)) : Kept L s₀ (s.dropMessage b ms) := by
  unfold State.dropMessage
  repeat' first
    | with_reducible exact sub (by assumption) (by decide)
    | with_reducible assumption
    | with_reducible apply dropHeader_kept
    | with_reducible refine foldl_kept (fun _ _ _ => ?_) ?_

theorem queueMgmt_kept (h : Kept L s₀ s) (b : Nat) (l : List Mgmt)
    (hl : Within [.bays] L := by exact sub (by assumption) (by decide)) : Kept L s₀ (s.queueMgmt b l) := by
  unfold State.queueMgmt
  repeat' first
    | with_reducible exact sub (by assumption) (by decide)
    | with_reducible assumption
    | with_reducible apply modBay_kept
    | exact fun _ h => h

theorem writeMessage_kept (h : Kept L s₀ s) (b : Nat) (ms : List MLine)
    (hl : Within [.bays, .rtrs, .host, .snags, .snagNext, .out] L := by exact sub (by assumption) (by decide)) : Kept L s₀ (s.writeMessage b ms) := by
  unfold State.writeMessage
  repeat' first
    | with_reducible exact sub (by assumption) (by decide)
    | with_reducible assumption
    | with_reducible apply dropMessage_kept
    | with_reducible apply queueMgmt_kept
    | exact fun h => h
    | exact fun _ h => h
    | decide
    | exact fun _ h => mset_canonical h _ _
    | exact fun _ h => Bay.invalidate_canonical h
    | exact fun _ h => canonical_nil _
    | exact fun _ h => Bay.storeLine_canonical h _ _
    | exact fun _ h => Bay.writeLine_canonical h _ _ _ _ _
    | exact fun _ hx => Panel.commitRow_canonical hx _ _ _
    | exact fun _ h => CtxDie.arbitrate_canonical h _
    | exact fun _ h => CtxDie.issue_canonical h _ _ _ _ _
    | exact fun _ h => CtxDie.zeroPage_canonical h _
    | with_reducible refine Kept.ite (fun _ => ?_) (fun _ => ?_)
    | with_reducible refine Kept.ite_fst (fun _ => ?_) (fun _ => ?_)
    | refine fun _ _ _ => ?_
    | (lift_lets; intro _)
    | split

theorem readMessage_kept (h : Kept L s₀ s) (b : Nat) (ms : List MLine)
    (hl : Within [.bays, .rtrs, .host, .snags, .snagNext, .out] L := by exact sub (by assumption) (by decide)) : Kept L s₀ (s.readMessage b ms) := by
  unfold State.readMessage
  repeat' first
    | with_reducible exact sub (by assumption) (by decide)
    | with_reducible assumption
    | with_reducible apply dropMessage_kept
    | with_reducible apply queueMgmt_kept
    | exact fun h => h
    | exact fun _ h => h
    | decide
    | exact fun _ h => mset_canonical h _ _
    | exact fun _ h => Bay.invalidate_canonical h
    | exact fun _ h => canonical_nil _
    | exact fun _ h => Bay.storeLine_canonical h _ _
    | exact fun _ h => Bay.writeLine_canonical h _ _ _ _ _
    | exact fun _ hx => Panel.commitRow_canonical hx _ _ _
    | exact fun _ h => CtxDie.arbitrate_canonical h _
    | exact fun _ h => CtxDie.issue_canonical h _ _ _ _ _
    | exact fun _ h => CtxDie.zeroPage_canonical h _
    | with_reducible refine Kept.ite (fun _ => ?_) (fun _ => ?_)
    | with_reducible refine Kept.ite_fst (fun _ => ?_) (fun _ => ?_)
    | refine fun _ _ _ => ?_
    | split

theorem weightMessage_kept (h : Kept L s₀ s) (b : Nat) (ms : List MLine)
    (hl : Within [.bays, .rtrs, .host, .snags, .snagNext, .out] L := by exact sub (by assumption) (by decide)) : Kept L s₀ (s.weightMessage b ms) := by
  unfold State.weightMessage
  repeat' first
    | with_reducible exact sub (by assumption) (by decide)
    | with_reducible assumption
    | with_reducible apply dropMessage_kept
    | with_reducible apply queueMgmt_kept
    | exact fun h => h
    | exact fun _ h => h
    | decide
    | exact fun _ h => mset_canonical h _ _
    | exact fun _ h => Bay.invalidate_canonical h
    | exact fun _ h => canonical_nil _
    | exact fun _ h => Bay.storeLine_canonical h _ _
    | exact fun _ h => Bay.writeLine_canonical h _ _ _ _ _
    | exact fun _ hx => Panel.commitRow_canonical hx _ _ _
    | exact fun _ h => CtxDie.arbitrate_canonical h _
    | exact fun _ h => CtxDie.issue_canonical h _ _ _ _ _
    | exact fun _ h => CtxDie.zeroPage_canonical h _
    | with_reducible refine Kept.ite (fun _ => ?_) (fun _ => ?_)
    | with_reducible refine Kept.ite_fst (fun _ => ?_) (fun _ => ?_)
    | refine fun _ _ _ => ?_
    | (lift_lets; intro _)
    | split

theorem rowMessage_kept (h : Kept L s₀ s) (b : Nat) (ms : List MLine)
    (hl : Within [.bays, .rtrs, .host, .snags, .snagNext, .out] L := by exact sub (by assumption) (by decide)) : Kept L s₀ (s.rowMessage b ms) := by
  unfold State.rowMessage
  repeat' first
    | with_reducible exact sub (by assumption) (by decide)
    | with_reducible assumption
    | with_reducible apply dropMessage_kept
    | with_reducible apply queueMgmt_kept
    | exact fun h => h
    | exact fun _ h => h
    | decide
    | exact fun _ h => mset_canonical h _ _
    | exact fun _ h => Bay.invalidate_canonical h
    | exact fun _ h => canonical_nil _
    | exact fun _ h => Bay.storeLine_canonical h _ _
    | exact fun _ h => Bay.writeLine_canonical h _ _ _ _ _
    | exact fun _ hx => Panel.commitRow_canonical hx _ _ _
    | exact fun _ h => CtxDie.arbitrate_canonical h _
    | exact fun _ h => CtxDie.issue_canonical h _ _ _ _ _
    | exact fun _ h => CtxDie.zeroPage_canonical h _
    | with_reducible refine Kept.ite (fun _ => ?_) (fun _ => ?_)
    | with_reducible refine Kept.ite_fst (fun _ => ?_) (fun _ => ?_)
    | refine fun _ _ _ => ?_
    | split

theorem fwMessage_kept (h : Kept L s₀ s) (b stream : Nat) (ms : List MLine)
    (hl : Within [.bays, .rtrs, .host, .snags, .snagNext, .out] L := by exact sub (by assumption) (by decide)) : Kept L s₀ (s.fwMessage b stream ms) := by
  unfold State.fwMessage
  repeat' first
    | with_reducible exact sub (by assumption) (by decide)
    | with_reducible assumption
    | with_reducible apply writeMessage_kept
    | with_reducible apply readMessage_kept
    | with_reducible apply weightMessage_kept
    | with_reducible apply rowMessage_kept
    | exact fun h => h
    | exact fun _ h => h
    | decide
    | exact fun _ h => mset_canonical h _ _
    | exact fun _ h => Bay.invalidate_canonical h
    | exact fun _ h => canonical_nil _
    | exact fun _ h => Bay.storeLine_canonical h _ _
    | exact fun _ h => Bay.writeLine_canonical h _ _ _ _ _
    | exact fun _ hx => Panel.commitRow_canonical hx _ _ _
    | exact fun _ h => CtxDie.arbitrate_canonical h _
    | exact fun _ h => CtxDie.issue_canonical h _ _ _ _ _
    | exact fun _ h => CtxDie.zeroPage_canonical h _
    | with_reducible refine Kept.ite (fun _ => ?_) (fun _ => ?_)
    | with_reducible refine Kept.ite_fst (fun _ => ?_) (fun _ => ?_)
    | refine fun _ _ _ => ?_
    | split

theorem collected_kept (h : Kept L s₀ s) (b vc : Nat)
    (hl : Within [.bays, .rtrs, .host, .snags, .snagNext, .out] L := by exact sub (by assumption) (by decide)) : Kept L s₀ (s.collected b vc) := by
  unfold State.collected
  repeat' first
    | with_reducible exact sub (by assumption) (by decide)
    | with_reducible assumption
    | with_reducible apply modBay_kept
    | with_reducible apply fwMessage_kept
    | with_reducible apply dropMessage_kept
    | exact fun h => h
    | exact fun _ h => h
    | decide
    | exact fun _ h => mset_canonical h _ _
    | exact fun _ h => Bay.invalidate_canonical h
    | exact fun _ h => canonical_nil _
    | exact fun _ h => Bay.storeLine_canonical h _ _
    | exact fun _ h => Bay.writeLine_canonical h _ _ _ _ _
    | exact fun _ hx => Panel.commitRow_canonical hx _ _ _
    | exact fun _ h => CtxDie.arbitrate_canonical h _
    | exact fun _ h => CtxDie.issue_canonical h _ _ _ _ _
    | exact fun _ h => CtxDie.zeroPage_canonical h _
    | with_reducible refine Kept.ite (fun _ => ?_) (fun _ => ?_)
    | with_reducible refine Kept.ite_fst (fun _ => ?_) (fun _ => ?_)
    | refine fun _ _ _ => ?_
    | (lift_lets; intro _)
    | split

theorem execDataLineAccept_kept (h : Kept L s₀ s) (t src : Nat) (b : BayIx) (m : MLine)
    (hl : Within [.now, .bays, .rtrs, .host, .snags, .snagNext, .out] L := by exact sub (by assumption) (by decide)) : Kept.Out L s₀ (execDataLineAccept t src b m s) := by
  unfold execDataLineAccept
  repeat' first
    | with_reducible exact sub (by assumption) (by decide)
    | with_reducible assumption
    | with_reducible apply tick_kept
    | with_reducible apply localArrive_kept
    | with_reducible apply collected_kept
    | with_reducible refine Kept.Out.next ?_
    | split

theorem execFlagSetMessage_kept (h : Kept L s₀ s) (t src : Nat) (b : BayIx) (m : MLine)
    (hl : Within [.now, .bays, .rtrs, .host, .snags, .snagNext, .out] L := by exact sub (by assumption) (by decide)) : Kept.Out L s₀ (execFlagSetMessage t src b m s) := by
  unfold execFlagSetMessage
  repeat' first
    | with_reducible exact sub (by assumption) (by decide)
    | with_reducible assumption
    | with_reducible apply tick_kept
    | with_reducible apply localArrive_kept
    | with_reducible refine Kept.Out.next ?_
    | with_reducible refine Kept.ite (fun _ => ?_) (fun _ => ?_)

theorem panel_canonical {s : State} (m : s.memWf) (k : Nat) : Canonical none (s.panel k).cells :=
  mget_all (P := fun x : Panel => Canonical none x.cells) m.2.1 (canonical_nil _) k

theorem rowPartDone_kept (h : Kept L s₀ s) (b p : Nat) (ws : List SpWrite)
    (hl : Within [.mode, .pwr, .panels, .bays, .rtrs, .ctx0, .ctx1, .pages, .plans, .weights, .fab, .host, .snags, .snagNext, .out] L := by exact sub (by assumption) (by decide)) : Kept L s₀ (s.rowPartDone b p ws) := by
  unfold State.rowPartDone
  repeat' first
    | with_reducible exact sub (by assumption) (by decide)
    | with_reducible assumption
    | with_reducible apply modBay_kept
    | with_reducible apply strokeCheck_kept
    | exact fun _ h => h

theorem execRowWriteCommit_kept (h : Kept L s₀ s) (t : Nat) (b : BayIx) (p : PanelIx)
    (hl : Within [.now, .mode, .pwr, .panels, .bays, .rtrs, .ctx0, .ctx1, .pages, .plans, .weights, .fab, .host, .snags, .snagNext, .out] L := by exact sub (by assumption) (by decide)) : Kept.Out L s₀ (execRowWriteCommit t b p s) := by
  unfold execRowWriteCommit
  refine Kept.Out.next ?_
  have k := tick_kept h t
  dsimp only
  generalize s.tick t = s at k
  split <;> try exact k
  split <;> try exact k
  have g : ∀ (bank row : Nat) (d : BitVec 1024) (c : Option (Nat × RowAcc)),
      Kept L s₀ (s.setPanel (pkey b p) { (s.panel (pkey b p)).commitRow bank row d with rowCur := c }) :=
    fun bank row d c => setPanel_kept k _ fun m => by exact Panel.commitRow_canonical m bank row d
  split
  · exact rowPartDone_kept (g _ _ _ _) _ _ _
  · exact Kept.ite (fun _ => toCtl_kept (g _ _ _ _) _ _) fun _ => g _ _ _ _
  · exact g _ _ _ _

theorem execRowReadComplete_kept (h : Kept L s₀ s) (t : Nat) (b : BayIx) (p : PanelIx) (flips : List Nat)
    (hl : Within [.now, .mode, .pwr, .panels, .bays, .rtrs, .ctx0, .ctx1, .pages, .plans, .weights, .fab, .host, .resil, .snags, .snagNext, .out] L := by exact sub (by assumption) (by decide)) :
    Kept.Out L s₀ (execRowReadComplete t b p flips s) := by
  have g := tick_kept h t
  unfold execRowReadComplete
  generalize s.tick t = u at g ⊢
  refine .next ?_
  rcases hx : (u.panel (pkey b p)).rowCur with _ | ⟨bank, a⟩
  · exact g
  · dsimp -zeta only
    rcases hd : a.data with _ | d
    · dsimp -zeta only
      lift_lets
      intro old cells wit groups s1
      have h1 : Kept L s₀ s1 := setPanel_kept g _ fun hx => by
        dsimp only
        split
        · exact hx
        · exact mset_canonical hx _ _
      clear_value s1
      intro s2
      have h2 : Kept L s₀ s2 := Kept.ite (fun _ => h1) fun _ => witnessStored_kept (stickyPanel_kept h1 _ _ _ (fun _ hx => by exact hx) _ _ _) _ _
      clear_value s2
      intro ls l
      rcases a.src with _ | _ | _
      · exact rowPartDone_kept h2 _ _ _
      · exact h2
      · exact bayReply_kept h2 _ _ _ _
    · dsimp only
      exact g

theorem illegalPanelOp_kept (h : Kept L s₀ s) (b p : Nat) (o : PanelOp)
    (hl : Within [.mode, .pwr, .panels, .bays, .rtrs, .ctx0, .ctx1, .pages, .plans, .weights, .fab, .host, .snags, .snagNext, .out] L := by exact sub (by assumption) (by decide)) : Kept L s₀ (s.illegalPanelOp b p o) := by
  unfold State.illegalPanelOp
  repeat' first
    | with_reducible exact sub (by assumption) (by decide)
    | with_reducible assumption
    | with_reducible apply modPanel_kept
    | with_reducible apply stickyPanel_kept
    | with_reducible apply modBay_kept
    | with_reducible apply strokeCheck_kept
    | exact fun _ h => h

theorem startCompute_kept (h : Kept L s₀ s) (b p : Nat) (o : PanelOp) (r : Running) (set bank : Nat)
    (hl : Within [.panels, .bays, .host, .snags, .snagNext, .out] L := by exact sub (by assumption) (by decide)) :
    Kept L s₀ (s.startCompute b p o r set bank) := by
  unfold State.startCompute
  repeat' first
    | with_reducible exact sub (by assumption) (by decide)
    | with_reducible assumption
    | with_reducible apply setPanel_kept
    | with_reducible apply stickyPanel_kept
    | with_reducible apply stickyBay_kept
    | exact fun _ h => h
    | exact fun h => h
    | with_reducible refine Kept.ite (fun _ => ?_) (fun _ => ?_)
    | (lift_lets; intro _)
    | split
    | with_reducible refine Kept.same ?_

theorem edgeResidue_kept (h : Kept L s₀ s) (b : Nat) (predicted : Option (BitVec 3)) (f : ResFault)
    (hl : Within [.bays, .rtrs, .host, .snags, .snagNext, .out] L := by exact sub (by assumption) (by decide)) : Kept L s₀ (s.edgeResidue b predicted f) := by
  unfold State.edgeResidue
  repeat' first
    | with_reducible exact sub (by assumption) (by decide)
    | with_reducible assumption
    | with_reducible apply stickyBay_kept
    | with_reducible apply signalFault_kept
    | exact fun h => h
    | exact fun _ h => h
    | decide
    | exact fun _ h => mset_canonical h _ _
    | exact fun _ h => Bay.invalidate_canonical h
    | exact fun _ h => canonical_nil _
    | exact fun _ h => Bay.storeLine_canonical h _ _
    | exact fun _ h => Bay.writeLine_canonical h _ _ _ _ _
    | exact fun _ hx => Panel.commitRow_canonical hx _ _ _
    | exact fun _ h => CtxDie.arbitrate_canonical h _
    | exact fun _ h => CtxDie.issue_canonical h _ _ _ _ _
    | exact fun _ h => CtxDie.zeroPage_canonical h _
    | with_reducible refine Kept.ite (fun _ => ?_) (fun _ => ?_)
    | with_reducible refine Kept.ite_fst (fun _ => ?_) (fun _ => ?_)
    | refine fun _ _ _ => ?_
    | (lift_lets; intro _)
    | split

theorem accOverflow_kept (h : Kept L s₀ s) (b panel : Nat) (l : List (Nat × Bool))
    (hl : Within [.bays, .host, .snags, .snagNext, .out] L := by exact sub (by assumption) (by decide)) : Kept L s₀ (s.accOverflow b panel l) := by
  unfold State.accOverflow
  repeat' first
    | with_reducible exact sub (by assumption) (by decide)
    | with_reducible assumption
    | with_reducible apply stickyBay_kept
    | exact fun _ h => h
    | (lift_lets; intro _)
    | split

theorem panelPartDone_kept (h : Kept L s₀ s) (b p : Nat)
    (hl : Within [.mode, .pwr, .panels, .bays, .rtrs, .ctx0, .ctx1, .pages, .plans, .weights, .fab, .host, .snags, .snagNext, .out] L := by exact sub (by assumption) (by decide)) : Kept L s₀ (s.panelPartDone b p) := by
  unfold State.panelPartDone
  repeat' first
    | with_reducible exact sub (by assumption) (by decide)
    | with_reducible assumption
    | with_reducible apply modBay_kept
    | with_reducible apply strokeCheck_kept
    | exact fun _ h => h

theorem completeCompute_kept (h : Kept L s₀ s) (b p : Nat) (o : PanelOp) (devs : List Dev) (rf : List ResFault)
    (hl : Within [.mode, .pwr, .panels, .bays, .rtrs, .ctx0, .ctx1, .pages, .plans, .weights, .fab, .host, .snags, .snagNext, .out] L := by exact sub (by assumption) (by decide)) : Kept L s₀ (s.completeCompute b p o devs rf) := by
  unfold State.completeCompute
  repeat' first
    | with_reducible exact sub (by assumption) (by decide)
    | with_reducible assumption
    | with_reducible apply setPanel_kept
    | with_reducible apply stickyPanel_kept
    | with_reducible apply take_kept
    | with_reducible apply signalFault_kept
    | with_reducible apply accOverflow_kept
    | with_reducible apply edgeResidue_kept
    | with_reducible apply panelPartDone_kept
    | with_reducible refine foldl_kept (fun _ _ _ => ?_) ?_
    | exact fun h => h
    | exact fun _ h => h
    | decide
    | exact fun _ h => mset_canonical h _ _
    | exact fun _ h => Bay.invalidate_canonical h
    | exact fun _ h => canonical_nil _
    | exact fun _ h => Bay.storeLine_canonical h _ _
    | exact fun _ h => Bay.writeLine_canonical h _ _ _ _ _
    | exact fun _ hx => Panel.commitRow_canonical hx _ _ _
    | exact fun _ h => CtxDie.arbitrate_canonical h _
    | exact fun _ h => CtxDie.issue_canonical h _ _ _ _ _
    | exact fun _ h => CtxDie.zeroPage_canonical h _
    | exact fun _ h => by split <;> exact h
    | with_reducible refine Kept.ite (fun _ => ?_) (fun _ => ?_)
    | with_reducible refine Kept.ite_fst (fun _ => ?_) (fun _ => ?_)
    | refine fun _ _ _ => ?_
    | (lift_lets; intro _)
    | split

theorem skimEnds_kept (h : Kept L s₀ s) (b p : Nat) (time : Bool) (res : BitVec 8)
    (hl : Within [.panels, .host, .snags, .snagNext, .out] L := by exact sub (by assumption) (by decide)) : Kept L s₀ (s.skimEnds b p time res) := by
  unfold State.skimEnds
  repeat' first
    | with_reducible exact sub (by assumption) (by decide)
    | with_reducible assumption
    | with_reducible apply setPanel_kept
    | with_reducible apply snagBay_kept
    | exact fun h => h
    | with_reducible refine Kept.ite (fun _ => ?_) (fun _ => ?_)

theorem rowArrives_kept (h : Kept L s₀ s) (k : Nat) (a : RowAcc)
    (hl : Within [.panels] L := by exact sub (by assumption) (by decide)) : Kept L s₀ (s.rowArrives k a) := by
  unfold State.rowArrives
  repeat' first
    | with_reducible exact sub (by assumption) (by decide)
    | with_reducible assumption
    | with_reducible apply modPanel_kept
    | exact fun _ h => h

theorem skimStarts_kept (h : Kept L s₀ s) (die : Nat)
    (hl : Within [.intr] L := by exact sub (by assumption) (by decide)) : Kept L s₀ (s.skimStarts die) :=
  Kept.ite (fun _ => intrude_kept h 7) fun _ => h

theorem execPanelOpStart_kept (h : Kept L s₀ s) (t : Nat) (b : BayIx) (p : PanelIx)
    (hl : Within [.now, .mode, .pwr, .panels, .bays, .rtrs, .ctx0, .ctx1, .pages, .plans, .weights, .fab, .host, .intr, .snags, .snagNext, .out] L := by exact sub (by assumption) (by decide)) : Kept.Out L s₀ (execPanelOpStart t b p s) := by
  unfold execPanelOpStart
  repeat' first
    | with_reducible exact sub (by assumption) (by decide)
    | with_reducible assumption
    | with_reducible apply tick_kept
    | with_reducible apply illegalPanelOp_kept
    | with_reducible apply skimStarts_kept
    | with_reducible apply setPanel_kept
    | with_reducible apply intrude_kept
    | with_reducible apply startCompute_kept
    | with_reducible refine Kept.Out.next ?_
    | exact fun h => h
    | with_reducible refine Kept.ite (fun _ => ?_) (fun _ => ?_)
    | (lift_lets; intro _)
    | split

theorem execComputeOpComplete_kept (h : Kept L s₀ s) (t : Nat) (b : BayIx) (p : PanelIx) (devs : List Dev) (rf : List ResFault)
    (hl : Within [.now, .mode, .pwr, .panels, .bays, .rtrs, .ctx0, .ctx1, .pages, .plans, .weights, .fab, .host, .snags, .snagNext, .out] L := by exact sub (by assumption) (by decide)) :
    Kept.Out L s₀ (execComputeOpComplete t b p devs rf s) := by
  unfold execComputeOpComplete
  repeat' first
    | with_reducible exact sub (by assumption) (by decide)
    | with_reducible assumption
    | with_reducible apply tick_kept
    | with_reducible apply completeCompute_kept
    | with_reducible refine Kept.Out.next ?_
    | with_reducible refine Kept.ite (fun _ => ?_) (fun _ => ?_)
    | split

theorem execSkimComplete_kept (h : Kept L s₀ s) (t : Nat) (b : BayIx) (p : PanelIx) (res : BitVec 8)
    (hl : Within [.now, .mode, .pwr, .panels, .bays, .rtrs, .ctx0, .ctx1, .pages, .plans, .weights, .fab, .host, .intr, .snags, .snagNext, .out] L := by exact sub (by assumption) (by decide)) :
    Kept.Out L s₀ (execSkimComplete t b p res s) := by
  unfold execSkimComplete
  repeat' first
    | with_reducible exact sub (by assumption) (by decide)
    | with_reducible assumption
    | with_reducible apply tick_kept
    | with_reducible apply skimEnds_kept
    | with_reducible apply modPanel_kept
    | with_reducible apply intrude_kept
    | with_reducible apply panelPartDone_kept
    | with_reducible refine Kept.Out.next ?_
    | exact fun _ h => h
    | with_reducible refine Kept.ite (fun _ => ?_) (fun _ => ?_)
    | split

theorem execRowAccessStart_kept (h : Kept L s₀ s) (t : Nat) (b : BayIx) (p : PanelIx)
    (hl : Within [.now, .panels] L := by exact sub (by assumption) (by decide)) : Kept.Out L s₀ (execRowAccessStart t b p s) := by
  unfold execRowAccessStart
  repeat' first
    | with_reducible exact sub (by assumption) (by decide)
    | with_reducible assumption
    | with_reducible apply tick_kept
    | with_reducible apply setPanel_kept
    | with_reducible refine Kept.Out.next ?_
    | exact fun h => h
    | with_reducible refine Kept.ite (fun _ => ?_) (fun _ => ?_)
    | split

theorem execPnlCntClr_kept (h : Kept L s₀ s) (t : Nat) (b : BayIx) (p : PanelIx)
    (hl : Within [.now, .panels] L := by exact sub (by assumption) (by decide)) : Kept.Out L s₀ (execPnlCntClr t b p s) := by
  unfold execPnlCntClr
  repeat' first
    | with_reducible exact sub (by assumption) (by decide)
    | with_reducible assumption
    | with_reducible apply tick_kept
    | with_reducible apply modPanel_kept
    | with_reducible refine Kept.Out.next ?_
    | exact fun _ h => h

theorem execPnlWitMismatchClear_kept (h : Kept L s₀ s) (t : Nat) (b : BayIx) (p : PanelIx)
    (hl : Within [.now, .panels] L := by exact sub (by assumption) (by decide)) :
    Kept.Out L s₀ (execPnlWitMismatchClear t b p s) := by
  unfold execPnlWitMismatchClear
  repeat' first
    | with_reducible exact sub (by assumption) (by decide)
    | with_reducible assumption
    | with_reducible apply tick_kept
    | with_reducible apply modPanel_kept
    | with_reducible refine Kept.Out.next ?_
    | exact fun _ h => h

theorem execPnlWinDataClear_kept (h : Kept L s₀ s) (t : Nat) (b : BayIx) (p : PanelIx) (v : Word)
    (hl : Within [.now, .panels] L := by exact sub (by assumption) (by decide)) :
    Kept.Out L s₀ (execPnlWinDataClear t b p v s) := by
  unfold execPnlWinDataClear
  repeat' first
    | with_reducible exact sub (by assumption) (by decide)
    | with_reducible assumption
    | with_reducible apply tick_kept
    | with_reducible apply modPanel_kept
    | with_reducible refine Kept.Out.next ?_
    | exact fun _ h => by rw [Panel.clearWin_cells]; exact h

theorem execPnlLiveWrite_kept (h : Kept L s₀ s) (t : Nat) (b : BayIx) (p : PanelIx) (live : Bool)
    (hl : Within [.now, .panels] L := by exact sub (by assumption) (by decide)) :
    Kept.Out L s₀ (execPnlLiveWrite t b p live s) := by
  unfold execPnlLiveWrite
  repeat' first
    | with_reducible exact sub (by assumption) (by decide)
    | with_reducible assumption
    | with_reducible apply tick_kept
    | with_reducible apply modPanel_kept
    | with_reducible refine Kept.Out.next ?_
    | exact fun _ h => h
    | with_reducible refine Kept.ite (fun _ => ?_) (fun _ => ?_)

theorem xferMoved_kept (h : Kept L s₀ s) (b k n : Nat) (ws : List SpWrite)
    (hl : Within [.mode, .pwr, .panels, .bays, .rtrs, .ctx0, .ctx1, .pages, .plans, .weights, .fab, .host, .snags, .snagNext, .out] L := by exact sub (by assumption) (by decide)) : Kept L s₀ (s.xferMoved b k n ws) := by
  unfold State.xferMoved
  repeat' first
    | with_reducible exact sub (by assumption) (by decide)
    | with_reducible assumption
    | with_reducible apply modBay_kept
    | with_reducible apply strokeCheck_kept
    | exact fun _ h => h

theorem execSend_kept (h : Kept L s₀ s) (t : Nat) (b : BayIx) (k : Nat)
    (hl : Within [.now, .mode, .pwr, .panels, .bays, .rtrs, .ctx0, .ctx1, .pages, .plans, .weights, .fab, .host, .snags, .snagNext, .out] L := by exact sub (by assumption) (by decide)) : Kept.Out L s₀ (execSend t b k s) := by
  unfold execSend
  repeat' first
    | with_reducible exact sub (by assumption) (by decide)
    | with_reducible assumption
    | with_reducible apply tick_kept
    | with_reducible apply inject_kept
    | with_reducible apply xferMoved_kept
    | with_reducible refine foldl_kept (fun _ _ _ => ?_) ?_
    | with_reducible refine Kept.Out.next ?_
    | with_reducible refine Kept.ite (fun _ => ?_) (fun _ => ?_)
    | split

theorem execRecv_kept (h : Kept L s₀ s) (t : Nat) (b : BayIx) (k : Nat)
    (hl : Within [.now, .mode, .pwr, .panels, .bays, .rtrs, .ctx0, .ctx1, .pages, .plans, .weights, .fab, .host, .snags, .snagNext, .out] L := by exact sub (by assumption) (by decide)) : Kept.Out L s₀ (execRecv t b k s) := by
  unfold execRecv
  repeat' first
    | with_reducible exact sub (by assumption) (by decide)
    | with_reducible assumption
    | with_reducible apply tick_kept
    | with_reducible apply setBay_kept
    | with_reducible apply xferMoved_kept
    | with_reducible refine Kept.Out.next ?_
    | exact fun h => h
    | with_reducible refine Kept.ite (fun _ => ?_) (fun _ => ?_)
    | (lift_lets; intro _)
    | split

theorem execPush_kept (h : Kept L s₀ s) (t : Nat) (b : BayIx) (k : Nat)
    (hl : Within [.now, .mode, .pwr, .panels, .bays, .rtrs, .ctx0, .ctx1, .pages, .plans, .weights, .fab, .host, .snags, .snagNext, .out] L := by exact sub (by assumption) (by decide)) : Kept.Out L s₀ (execPush t b k s) := by
  unfold execPush
  repeat' first
    | with_reducible exact sub (by assumption) (by decide)
    | with_reducible assumption
    | with_reducible apply tick_kept
    | with_reducible apply setBay_kept
    | with_reducible apply xferMoved_kept
    | with_reducible refine Kept.Out.next ?_
    | exact fun h => h
    | (lift_lets; intro _)
    | split

theorem execPop_kept (h : Kept L s₀ s) (t : Nat) (b : BayIx) (k : Nat) (ups : List Upset)
    (hl : Within [.now, .mode, .pwr, .panels, .bays, .rtrs, .ctx0, .ctx1, .pages, .plans, .weights, .fab, .host, .snags, .snagNext, .out] L := by exact sub (by assumption) (by decide)) : Kept.Out L s₀ (execPop t b k ups s) := by
  unfold execPop
  repeat' first
    | with_reducible exact sub (by assumption) (by decide)
    | with_reducible assumption
    | with_reducible apply tick_kept
    | with_reducible apply setBay_kept
    | with_reducible apply reportEcc_kept
    | with_reducible apply xferMoved_kept
    | with_reducible refine foldl_kept (fun _ _ _ => ?_) ?_
    | with_reducible refine Kept.Out.next ?_
    | exact fun h => h
    | (lift_lets; intro _)
    | split

theorem execCopy_kept (h : Kept L s₀ s) (t : Nat) (b : BayIx) (k : Nat)
    (hl : Within [.now, .mode, .pwr, .panels, .bays, .rtrs, .ctx0, .ctx1, .pages, .plans, .weights, .fab, .host, .snags, .snagNext, .out] L := by exact sub (by assumption) (by decide)) : Kept.Out L s₀ (execCopy t b k s) := by
  unfold execCopy
  repeat' first
    | with_reducible exact sub (by assumption) (by decide)
    | with_reducible assumption
    | with_reducible apply tick_kept
    | with_reducible apply xferMoved_kept
    | with_reducible refine Kept.Out.next ?_
    | split

theorem execFlagsend_kept (h : Kept L s₀ s) (t : Nat) (b : BayIx) (k : Nat)
    (hl : Within [.now, .mode, .pwr, .panels, .bays, .rtrs, .ctx0, .ctx1, .pages, .plans, .weights, .fab, .host, .snags, .snagNext, .out] L := by exact sub (by assumption) (by decide)) : Kept.Out L s₀ (execFlagsend t b k s) := by
  unfold execFlagsend
  repeat' first
    | with_reducible exact sub (by assumption) (by decide)
    | with_reducible assumption
    | with_reducible apply tick_kept
    | with_reducible apply inject_kept
    | with_reducible apply xferMoved_kept
    | with_reducible refine Kept.Out.next ?_
    | with_reducible refine Kept.ite (fun _ => ?_) (fun _ => ?_)
    | split

theorem panelIssued_kept (h : Kept L s₀ s) (k : Nat) (o : PanelOp)
    (hl : Within [.panels, .intr] L := by exact sub (by assumption) (by decide)) : Kept L s₀ (s.panelIssued k o) := by
  unfold State.panelIssued
  repeat' first
    | with_reducible exact sub (by assumption) (by decide)
    | with_reducible assumption
    | with_reducible apply setPanel_kept
    | with_reducible apply intrude_kept
    | exact fun h => h
    | exact fun _ h => h
    | decide
    | exact fun _ h => mset_canonical h _ _
    | exact fun _ h => Bay.invalidate_canonical h
    | exact fun _ h => canonical_nil _
    | exact fun _ h => Bay.storeLine_canonical h _ _
    | exact fun _ h => Bay.writeLine_canonical h _ _ _ _ _
    | exact fun _ hx => Panel.commitRow_canonical hx _ _ _
    | exact fun _ h => CtxDie.arbitrate_canonical h _
    | exact fun _ h => CtxDie.issue_canonical h _ _ _ _ _
    | exact fun _ h => CtxDie.zeroPage_canonical h _
    | with_reducible refine Kept.ite (fun _ => ?_) (fun _ => ?_)

theorem issuePanels_kept (h : Kept L s₀ s) (b : Nat) (w : BitVec 256) (r : Running)
    (hl : Within [.panels, .intr] L := by exact sub (by assumption) (by decide)) : Kept L s₀ (s.issuePanels b w r) := by
  unfold State.issuePanels
  dsimp only
  split
  · exact h
  · refine Kept.ite (fun _ => ?_) fun _ => foldl_kept (fun s p k => rowArrives_kept k _ _) h
    split
    · exact rowArrives_kept h _ _
    · exact h
  · exact foldl_kept (fun s p k => panelIssued_kept k _ _) h

theorem lockBay_kept (h : Kept L s₀ s) (b off : Nat) (v : Word)
    (hl : Within [.bays, .host, .snags, .snagNext, .out] L := by exact sub (by assumption) (by decide)) : Kept L s₀ (s.lockBay b off v) := by
  unfold State.lockBay
  repeat' first
    | with_reducible exact sub (by assumption) (by decide)
    | with_reducible assumption
    | with_reducible apply stickyBay_kept
    | exact fun _ h => h

theorem writeSegCtrl_kept (h : Kept L s₀ s) (b : Nat) (v : Word)
    (hl : Within [.bays, .host, .snags, .snagNext, .out] L := by exact sub (by assumption) (by decide)) : Kept L s₀ (s.writeSegCtrl b v) := by
  unfold State.writeSegCtrl
  exact Kept.ite (fun _ => Kept.ite (fun _ => h) fun _ => lockBay_kept h _ _ _) fun _ =>
    modBay_kept h b fun _ hy => Bay.foldl_canonical (fun _ _ g => Bay.askSeg_canonical g _ _) _ hy

theorem spStep_kept (h : Kept L s₀ s) (b : Nat)
    (hl : Within [.bays] L := by exact sub (by assumption) (by decide)) : Kept L s₀ (s.spStep b) := by
  unfold State.spStep
  repeat' first
    | with_reducible exact sub (by assumption) (by decide)
    | with_reducible assumption
    | with_reducible apply modBay_kept
    | exact fun h => h
    | exact fun _ h => h
    | decide
    | exact fun _ h => mset_canonical h _ _
    | exact fun _ h => Bay.invalidate_canonical h
    | exact fun _ h => canonical_nil _
    | exact fun _ h => Bay.storeLine_canonical h _ _
    | exact fun _ h => Bay.writeLine_canonical h _ _ _ _ _
    | exact fun _ hx => Panel.commitRow_canonical hx _ _ _
    | exact fun _ h => CtxDie.arbitrate_canonical h _
    | exact fun _ h => CtxDie.issue_canonical h _ _ _ _ _
    | exact fun _ h => CtxDie.zeroPage_canonical h _
    | exact fun _ h => by split <;> exact h

theorem serveMgmt_kept (h : Kept L s₀ s) (b : Nat) (m : Mgmt)
    (hl : Within [.panels, .bays, .rtrs, .host, .snags, .snagNext, .out] L := by exact sub (by assumption) (by decide)) : Kept L s₀ (s.serveMgmt b m) := by
  unfold State.serveMgmt
  repeat' first
    | with_reducible exact sub (by assumption) (by decide)
    | with_reducible assumption
    | with_reducible apply segError_kept
    | with_reducible apply modBay_kept
    | with_reducible apply readSp_kept
    | with_reducible apply inject_kept
    | with_reducible apply emit_kept
    | with_reducible apply spStep_kept
    | with_reducible apply rowArrives_kept
    | exact fun h => h
    | exact fun _ h => h
    | decide
    | exact fun _ h => mset_canonical h _ _
    | exact fun _ h => Bay.invalidate_canonical h
    | exact fun _ h => canonical_nil _
    | exact fun _ h => Bay.storeLine_canonical h _ _
    | exact fun _ h => Bay.writeLine_canonical h _ _ _ _ _
    | exact fun _ hx => Panel.commitRow_canonical hx _ _ _
    | exact fun _ h => CtxDie.arbitrate_canonical h _
    | exact fun _ h => CtxDie.issue_canonical h _ _ _ _ _
    | exact fun _ h => CtxDie.zeroPage_canonical h _
    | with_reducible refine Kept.ite (fun _ => ?_) (fun _ => ?_)
    | with_reducible refine Kept.ite_fst (fun _ => ?_) (fun _ => ?_)
    | refine fun _ _ _ => ?_
    | (lift_lets; intro _)
    | split

theorem serveUpTo_kept {s₀ : State} (b : Nat) (n : Nat)
    (hl : Within [.panels, .bays, .rtrs, .host, .snags, .snagNext, .out] L := by exact sub (by assumption) (by decide)) : ∀ {s : State}, Kept L s₀ s → Kept L s₀ (s.serveUpTo b n) := by
  induction n with
  | zero => exact fun h => h
  | succ n ih =>
    intro s h
    unfold State.serveUpTo
    split
    · exact h
    · exact Kept.ite (fun _ => h) fun _ => ih (serveMgmt_kept (modBay_kept h b fun _ hy => by exact hy) b _)

theorem startStroke_kept (h : Kept L s₀ s) (b : Nat) (w : BitVec 256) (watch : Bool)
    (hl : Within [.panels, .bays, .intr] L := by exact sub (by assumption) (by decide)) : Kept L s₀ (s.startStroke b w watch) := by
  unfold State.startStroke
  exact issuePanels_kept (setBay_kept (modBay_kept h b fun _ hy => by exact hy) _ fun m => by exact m) _ _ _

theorem execStrokeStart_kept (h : Kept L s₀ s) (t : Nat) (b : BayIx) (ups : List Upset)
    (hl : Within [.now, .mode, .pwr, .panels, .bays, .rtrs, .ctx0, .ctx1, .pages, .plans, .weights, .fab, .host, .intr, .snags, .snagNext, .out] L := by exact sub (by assumption) (by decide)) : Kept.Out L s₀ (execStrokeStart t b ups s) := by
  have g : Kept L s₀ ((s.tick t).modBay b fun y => y.upset ups) := modBay_kept (tick_kept h t) b fun _ hy => Bay.upset_canonical hy ups
  unfold execStrokeStart
  generalize State.modBay _ _ _ = u at g ⊢
  refine .next ?_
  dsimp only
  split
  · exact g
  · refine Kept.ite (fun _ => g) fun _ => ?_
    split
    · exact haltBay_kept g _ _ _
    · split
      · exact haltBay_kept g _ _ _
      · exact Kept.ite (fun _ => g) fun _ => Kept.ite (fun _ => intrude_kept g _) fun _ => startStroke_kept g _ _ _

theorem execSegmentSleep_kept (h : Kept L s₀ s) (t : Nat) (b : BayIx) (seg : Fin 4)
    (hl : Within [.now, .bays] L := by exact sub (by assumption) (by decide)) : Kept.Out L s₀ (execSegmentSleep t b seg s) := by
  unfold execSegmentSleep
  refine .next (modBay_kept (tick_kept h t) b fun y hy => ?_)
  split
  · split
    · exact Bay.enterSeg_canonical hy _ _
    · exact hy
  · exact hy

theorem messageComes_kept (h : Kept L s₀ s) (b src stream : Nat) (ms : List MLine)
    (hl : Within [.bays, .rtrs, .host, .snags, .snagNext, .out] L := by exact sub (by assumption) (by decide)) : Kept L s₀ (s.messageComes b src stream ms) := by
  unfold State.messageComes
  split
  · exact h
  · refine Kept.ite (fun _ => h) fun _ => ?_
    split
    · exact h
    · rename_i u e
      have g : Kept L s₀ u := (takeLocal_kept h b _) u e
      exact Kept.ite (fun _ => foldl_kept (fun s x k => dropClosed_kept k _ _) g) fun _ =>
        Kept.ite (fun _ => foldl_kept (fun s x k => dropStale_kept k _ _ _) g) fun _ => fwMessage_kept g _ _ _

theorem execScratchpadWriteMessage_kept (h : Kept L s₀ s) (t src : Nat) (b : BayIx) (ms : List MLine)
    (hl : Within [.now, .bays, .rtrs, .host, .snags, .snagNext, .out] L := by exact sub (by assumption) (by decide)) : Kept.Out L s₀ (execScratchpadWriteMessage t src b ms s) :=
  .next (messageComes_kept (tick_kept h t) _ _ _ _)

theorem execScratchpadReadMessage_kept (h : Kept L s₀ s) (t src : Nat) (b : BayIx) (m : MLine)
    (hl : Within [.now, .bays, .rtrs, .host, .snags, .snagNext, .out] L := by exact sub (by assumption) (by decide)) : Kept.Out L s₀ (execScratchpadReadMessage t src b m s) :=
  .next (messageComes_kept (tick_kept h t) _ _ _ _)

theorem execRowReadback_kept (h : Kept L s₀ s) (t src : Nat) (b : BayIx) (m : MLine)
    (hl : Within [.now, .bays, .rtrs, .host, .snags, .snagNext, .out] L := by exact sub (by assumption) (by decide)) : Kept.Out L s₀ (execRowReadback t src b m s) :=
  .next (messageComes_kept (tick_kept h t) _ _ _ _)

theorem execWeightRow_kept (h : Kept L s₀ s) (t src : Nat) (b : BayIx) (ms : List MLine)
    (hl : Within [.now, .bays, .rtrs, .host, .snags, .snagNext, .out] L := by exact sub (by assumption) (by decide)) : Kept.Out L s₀ (execWeightRow t src b ms s) :=
  .next (messageComes_kept (tick_kept h t) _ _ _ _)

theorem execStepRelease_kept (h : Kept L s₀ s) (t src : Nat) (b : BayIx) (gen : BitVec 8) (prog : Fin 16) (slots : List SlotEnt)
    (hl : Within [.now, .mode, .pwr, .bays, .rtrs, .ctx0, .ctx1, .pages, .plans, .weights, .fab, .host, .snags, .snagNext, .out] L := by exact sub (by assumption) (by decide)) :
    Kept.Out L s₀ (execStepRelease t src b gen prog slots s) := by
  unfold execStepRelease
  refine .next ?_
  have k := ctlGate_kept (tick_kept h t) b src gen
  dsimp only
  split <;> rename_i e <;> rw [e] at k
  · exact k
  · refine Kept.ite (fun _ => k) fun _ => ?_
    split
    · exact beginProgram_kept k _ _ _
    · exact modBay_kept k b fun _ hy => by exact hy
    · exact snagBay_kept k _ _ _ _

theorem execSwapArm_kept (h : Kept L s₀ s) (t src : Nat) (b : BayIx) (gen : BitVec 8) (ents : List (Nat × BitVec 32))
    (hl : Within [.now, .bays, .rtrs, .host, .snags, .snagNext, .out] L := by exact sub (by assumption) (by decide)) :
    Kept.Out L s₀ (execSwapArm t src b gen ents s) := by
  unfold execSwapArm
  refine .next ?_
  have k := ctlGate_kept (tick_kept h t) b src gen
  split <;> rename_i e <;> rw [e] at k
  · exact k
  · exact modBay_kept k b fun _ hy => by exact hy

theorem execSwapFlip_kept (h : Kept L s₀ s) (t src : Nat) (b : BayIx) (gen : BitVec 8) (layer : Nat)
    (hl : Within [.now, .panels, .bays, .rtrs, .host, .snags, .snagNext, .out] L := by exact sub (by assumption) (by decide)) :
    Kept.Out L s₀ (execSwapFlip t src b gen layer s) := by
  unfold execSwapFlip
  refine .next ?_
  have k := ctlGate_kept (tick_kept h t) b src gen
  split <;> rename_i e <;> rw [e] at k
  · exact k
  · exact boundaryIf_kept (modBay_kept k b fun _ hy => by exact hy) _

theorem execAuditArm_kept (h : Kept L s₀ s) (t src : Nat) (b : BayIx) (gen : BitVec 8) (stroke : Nat)
    (hl : Within [.now, .bays, .rtrs, .host, .snags, .snagNext, .out] L := by exact sub (by assumption) (by decide)) :
    Kept.Out L s₀ (execAuditArm t src b gen stroke s) := by
  unfold execAuditArm
  refine .next ?_
  have k := ctlGate_kept (tick_kept h t) b src gen
  split <;> rename_i e <;> rw [e] at k
  · exact k
  · exact modBay_kept k b fun y hy => by split <;> exact hy

theorem requantSat_kept (h : Kept L s₀ s) (b : Nat) (te : BitVec 64) (off : Nat) (l : List (Nat × Bool))
    (hl : Within [.bays, .host, .snags, .snagNext, .out] L := by exact sub (by assumption) (by decide)) :
    Kept L s₀ (s.requantSat b te off l) := by
  unfold State.requantSat
  repeat' first
    | with_reducible exact sub (by assumption) (by decide)
    | with_reducible assumption
    | with_reducible apply stickyBay_kept
    | exact fun _ h => h
    | (lift_lets; intro _)
    | split

theorem writeFlags_kept (h : Kept L s₀ s) (b n : Nat) (v : Word)
    (hl : Within [.bays, .host, .snags, .snagNext, .out] L := by exact sub (by assumption) (by decide)) : Kept L s₀ (s.writeFlags b n v) := by
  unfold State.writeFlags
  repeat' first
    | with_reducible exact sub (by assumption) (by decide)
    | with_reducible assumption
    | with_reducible apply setFlag_kept
    | with_reducible refine foldl_kept (fun _ _ _ => ?_) ?_

theorem execDrainComplete_kept (h : Kept L s₀ s) (t : Nat) (b : BayIx) (rf : List ResFault)
    (hl : Within [.now, .mode, .pwr, .panels, .bays, .rtrs, .ctx0, .ctx1, .pages, .plans, .weights, .fab, .host, .snags, .snagNext, .out] L := by exact sub (by assumption) (by decide)) : Kept.Out L s₀ (execDrainComplete t b rf s) := by
  unfold execDrainComplete
  repeat' first
    | with_reducible exact sub (by assumption) (by decide)
    | with_reducible assumption
    | with_reducible apply tick_kept
    | with_reducible apply modBay_kept
    | with_reducible apply requantSat_kept
    | with_reducible apply edgeResidue_kept
    | with_reducible apply strokeCheck_kept
    | with_reducible refine foldl_kept (fun _ _ _ => ?_) ?_
    | with_reducible refine Kept.Out.next ?_
    | with_reducible refine Kept.Out.ite (fun _ => ?_) (fun _ => ?_)
    | exact fun h => h
    | exact fun _ h => h
    | decide
    | exact fun _ h => mset_canonical h _ _
    | exact fun _ h => Bay.invalidate_canonical h
    | exact fun _ h => canonical_nil _
    | exact fun _ h => Bay.storeLine_canonical h _ _
    | exact fun _ h => Bay.writeLine_canonical h _ _ _ _ _
    | exact fun _ hx => Panel.commitRow_canonical hx _ _ _
    | exact fun _ h => CtxDie.arbitrate_canonical h _
    | exact fun _ h => CtxDie.issue_canonical h _ _ _ _ _
    | exact fun _ h => CtxDie.zeroPage_canonical h _
    | with_reducible refine Kept.ite (fun _ => ?_) (fun _ => ?_)
    | with_reducible refine Kept.ite_fst (fun _ => ?_) (fun _ => ?_)
    | refine fun _ _ _ => ?_
    | (lift_lets; intro _)
    | split

theorem execScratchpadAccessesComplete_kept (h : Kept L s₀ s) (t : Nat) (b : BayIx)
    (hl : Within [.now, .mode, .pwr, .panels, .bays, .rtrs, .ctx0, .ctx1, .pages, .plans, .weights, .fab, .host, .snags, .snagNext, .out] L := by exact sub (by assumption) (by decide)) : Kept.Out L s₀ (execScratchpadAccessesComplete t b s) := by
  unfold execScratchpadAccessesComplete
  repeat' first
    | with_reducible exact sub (by assumption) (by decide)
    | with_reducible assumption
    | with_reducible apply tick_kept
    | with_reducible apply modBay_kept
    | with_reducible apply segError_kept
    | with_reducible apply reportEcc_kept
    | with_reducible apply strokeCheck_kept
    | with_reducible refine foldl_kept (fun _ _ _ => ?_) ?_
    | with_reducible refine Kept.Out.next ?_
    | exact fun _ h => h
    | with_reducible refine Kept.ite (fun _ => ?_) (fun _ => ?_)
    | (lift_lets; intro _)
    | split

theorem execSegmentWakeDone_kept (h : Kept L s₀ s) (t : Nat) (b : BayIx) (seg : Fin 4)
    (hl : Within [.now, .bays] L := by exact sub (by assumption) (by decide)) : Kept.Out L s₀ (execSegmentWakeDone t b seg s) := by
  unfold execSegmentWakeDone
  repeat' first
    | with_reducible exact sub (by assumption) (by decide)
    | with_reducible assumption
    | with_reducible apply tick_kept
    | with_reducible apply modBay_kept
    | with_reducible refine Kept.Out.next ?_
    | (lift_lets; intro _)
    | split
    | intro _ _

theorem execFaultWindowClose_kept (h : Kept L s₀ s) (t : Nat) (b : BayIx)
    (hl : Within [.now, .bays, .rtrs, .host, .snags, .snagNext, .out] L := by exact sub (by assumption) (by decide)) : Kept.Out L s₀ (execFaultWindowClose t b s) := by
  unfold execFaultWindowClose
  repeat' first
    | with_reducible exact sub (by assumption) (by decide)
    | with_reducible assumption
    | with_reducible apply tick_kept
    | with_reducible apply closeWindow_kept
    | with_reducible refine Kept.Out.next ?_
    | with_reducible refine Kept.Out.ite (fun _ => ?_) (fun _ => ?_)
    | exact fun h => h
    | exact fun _ h => h
    | decide
    | exact fun _ h => mset_canonical h _ _
    | exact fun _ h => Bay.invalidate_canonical h
    | exact fun _ h => canonical_nil _
    | exact fun _ h => Bay.storeLine_canonical h _ _
    | exact fun _ h => Bay.writeLine_canonical h _ _ _ _ _
    | exact fun _ hx => Panel.commitRow_canonical hx _ _ _
    | exact fun _ h => CtxDie.arbitrate_canonical h _
    | exact fun _ h => CtxDie.issue_canonical h _ _ _ _ _
    | exact fun _ h => CtxDie.zeroPage_canonical h _
    | with_reducible refine Kept.ite (fun _ => ?_) (fun _ => ?_)
    | with_reducible refine Kept.ite_fst (fun _ => ?_) (fun _ => ?_)
    | refine fun _ _ _ => ?_
    | (lift_lets; intro _)
    | split

theorem execMgmtAccessServe_kept (h : Kept L s₀ s) (t : Nat) (b : BayIx)
    (hl : Within [.now, .panels, .bays, .rtrs, .host, .intr, .snags, .snagNext, .out] L := by exact sub (by assumption) (by decide)) : Kept.Out L s₀ (execMgmtAccessServe t b s) := by
  unfold execMgmtAccessServe
  repeat' first
    | with_reducible exact sub (by assumption) (by decide)
    | with_reducible assumption
    | with_reducible apply tick_kept
    | with_reducible apply boundary_kept
    | with_reducible apply intrude_kept
    | with_reducible apply serveUpTo_kept
    | with_reducible refine Kept.Out.next ?_
    | with_reducible refine Kept.ite (fun _ => ?_) (fun _ => ?_)

theorem execBaySpDataAccess_kept (h : Kept L s₀ s) (t : Nat) (b : BayIx) (wr : Option Word)
    (hl : Within [.now, .bays] L := by exact sub (by assumption) (by decide)) : Kept.Out L s₀ (execBaySpDataAccess t b wr s) := by
  unfold execBaySpDataAccess
  repeat' first
    | with_reducible exact sub (by assumption) (by decide)
    | with_reducible assumption
    | with_reducible apply tick_kept
    | with_reducible apply setBay_kept
    | with_reducible apply queueMgmt_kept
    | with_reducible refine Kept.Out.next ?_

theorem execBayCntClr_kept (h : Kept L s₀ s) (t : Nat) (b : BayIx)
    (hl : Within [.now, .bays] L := by exact sub (by assumption) (by decide)) : Kept.Out L s₀ (execBayCntClr t b s) := by
  unfold execBayCntClr
  repeat' first
    | with_reducible exact sub (by assumption) (by decide)
    | with_reducible assumption
    | with_reducible apply tick_kept
    | with_reducible apply modBay_kept
    | with_reducible refine Kept.Out.next ?_
    | exact fun _ h => h

theorem execBayFlagsWrite_kept (h : Kept L s₀ s) (t : Nat) (b : BayIx) (n : Fin 8) (v : Word)
    (hl : Within [.now, .bays, .host, .snags, .snagNext, .out] L := by exact sub (by assumption) (by decide)) :
    Kept.Out L s₀ (execBayFlagsWrite t b n v s) := by
  unfold execBayFlagsWrite
  repeat' first
    | with_reducible exact sub (by assumption) (by decide)
    | with_reducible assumption
    | with_reducible apply tick_kept
    | with_reducible apply writeFlags_kept
    | with_reducible refine Kept.Out.next ?_

theorem execBaySegCtrlWrite_kept (h : Kept L s₀ s) (t : Nat) (b : BayIx) (v : Word)
    (hl : Within [.now, .bays, .host, .snags, .snagNext, .out] L := by exact sub (by assumption) (by decide)) : Kept.Out L s₀ (execBaySegCtrlWrite t b v s) := by
  unfold execBaySegCtrlWrite
  repeat' first
    | with_reducible exact sub (by assumption) (by decide)
    | with_reducible assumption
    | with_reducible apply tick_kept
    | with_reducible apply writeSegCtrl_kept
    | with_reducible refine Kept.Out.next ?_

theorem execBayAllocInvalidate_kept (h : Kept L s₀ s) (t : Nat) (b : BayIx)
    (hl : Within [.now, .bays, .host, .snags, .snagNext, .out] L := by exact sub (by assumption) (by decide)) : Kept.Out L s₀ (execBayAllocInvalidate t b s) := by
  unfold execBayAllocInvalidate
  repeat' first
    | with_reducible exact sub (by assumption) (by decide)
    | with_reducible assumption
    | with_reducible apply tick_kept
    | with_reducible apply lockBay_kept
    | with_reducible apply modBay_kept
    | with_reducible refine Kept.Out.next ?_
    | exact fun _ h => Bay.invalidate_canonical h
    | with_reducible refine Kept.ite (fun _ => ?_) (fun _ => ?_)

theorem execBayStrokeCntRead_kept (h : Kept L s₀ s) (t : Nat) (b : BayIx)
    (hl : Within [.now, .bays, .out] L := by exact sub (by assumption) (by decide)) : Kept.Out L s₀ (execBayStrokeCntRead t b s) := by
  unfold execBayStrokeCntRead
  repeat' first
    | with_reducible exact sub (by assumption) (by decide)
    | with_reducible assumption
    | with_reducible apply tick_kept
    | with_reducible apply modBay_kept
    | with_reducible apply emit_kept
    | with_reducible refine Kept.Out.next ?_
    | exact fun _ h => h

theorem vecResidue_kept (h : Kept L s₀ s) (b code : Nat) (predicted : ResAt → Option (BitVec 3)) (rf : List ResAt)
    (hl : Within [.bays, .rtrs, .host, .snags, .snagNext, .out] L := by exact sub (by assumption) (by decide)) : Kept L s₀ (s.vecResidue b code predicted rf) := by
  unfold State.vecResidue
  repeat' first
    | with_reducible exact sub (by assumption) (by decide)
    | with_reducible assumption
    | with_reducible apply stickyBay_kept
    | with_reducible apply signalFault_kept
    | with_reducible refine foldl_kept (fun _ _ _ => ?_) ?_
    | exact fun h => h
    | exact fun _ h => h
    | decide
    | exact fun _ h => mset_canonical h _ _
    | exact fun _ h => Bay.invalidate_canonical h
    | exact fun _ h => canonical_nil _
    | exact fun _ h => Bay.storeLine_canonical h _ _
    | exact fun _ h => Bay.writeLine_canonical h _ _ _ _ _
    | exact fun _ hx => Panel.commitRow_canonical hx _ _ _
    | exact fun _ h => CtxDie.arbitrate_canonical h _
    | exact fun _ h => CtxDie.issue_canonical h _ _ _ _ _
    | exact fun _ h => CtxDie.zeroPage_canonical h _
    | with_reducible refine Kept.ite (fun _ => ?_) (fun _ => ?_)
    | with_reducible refine Kept.ite_fst (fun _ => ?_) (fun _ => ?_)
    | refine fun _ _ _ => ?_
    | (lift_lets; intro _)
    | split

theorem unitPartDone_kept (h : Kept L s₀ s) (b : Nat) (ws : List SpWrite)
    (hl : Within [.mode, .pwr, .panels, .bays, .rtrs, .ctx0, .ctx1, .pages, .plans, .weights, .fab, .host, .snags, .snagNext, .out] L := by exact sub (by assumption) (by decide)) : Kept L s₀ (s.unitPartDone b ws) := by
  unfold State.unitPartDone
  repeat' first
    | with_reducible exact sub (by assumption) (by decide)
    | with_reducible assumption
    | with_reducible apply modBay_kept
    | with_reducible apply strokeCheck_kept
    | exact fun _ h => h

theorem reduceOp_kept (h : Kept L s₀ s) (b code : Nat) (rf : List ResAt)
    (hl : Within [.free, .mode, .pwr, .panels, .bays, .rtrs, .ctx0, .ctx1, .pages, .plans, .weights, .fab, .host, .snags, .snagNext, .out] L := by exact sub (by assumption) (by decide)) : Kept L s₀ (s.reduceOp b code rf) := by
  unfold State.reduceOp
  repeat' first
    | with_reducible exact sub (by assumption) (by decide)
    | with_reducible assumption
    | with_reducible apply requantSat_kept
    | with_reducible apply modBay_kept
    | with_reducible apply vecResidue_kept
    | with_reducible apply drawn_kept
    | with_reducible apply unitPartDone_kept
    | exact fun h => h
    | exact fun _ h => h
    | decide
    | exact fun _ h => mset_canonical h _ _
    | exact fun _ h => Bay.invalidate_canonical h
    | exact fun _ h => canonical_nil _
    | exact fun _ h => Bay.storeLine_canonical h _ _
    | exact fun _ h => Bay.writeLine_canonical h _ _ _ _ _
    | exact fun _ hx => Panel.commitRow_canonical hx _ _ _
    | exact fun _ h => CtxDie.arbitrate_canonical h _
    | exact fun _ h => CtxDie.issue_canonical h _ _ _ _ _
    | exact fun _ h => CtxDie.zeroPage_canonical h _
    | with_reducible refine Kept.ite (fun _ => ?_) (fun _ => ?_)
    | with_reducible refine Kept.ite_fst (fun _ => ?_) (fun _ => ?_)
    | refine fun _ _ _ => ?_
    | (lift_lets; intro _)
    | split

theorem laneOp_kept (h : Kept L s₀ s) (b code : Nat) (rf : List ResAt) (pr : VecArgs → ResAt → Option (BitVec 3)) (f : VecArgs → List Num)
    (hl : Within [.mode, .pwr, .panels, .bays, .rtrs, .ctx0, .ctx1, .pages, .plans, .weights, .fab, .host, .snags, .snagNext, .out] L := by exact sub (by assumption) (by decide)) : Kept L s₀ (s.laneOp b code rf pr f) := by
  unfold State.laneOp
  repeat' first
    | with_reducible exact sub (by assumption) (by decide)
    | with_reducible assumption
    | with_reducible apply requantSat_kept
    | with_reducible apply vecResidue_kept
    | with_reducible apply unitPartDone_kept
    | exact fun h => h
    | exact fun _ h => h
    | decide
    | exact fun _ h => mset_canonical h _ _
    | exact fun _ h => Bay.invalidate_canonical h
    | exact fun _ h => canonical_nil _
    | exact fun _ h => Bay.storeLine_canonical h _ _
    | exact fun _ h => Bay.writeLine_canonical h _ _ _ _ _
    | exact fun _ hx => Panel.commitRow_canonical hx _ _ _
    | exact fun _ h => CtxDie.arbitrate_canonical h _
    | exact fun _ h => CtxDie.issue_canonical h _ _ _ _ _
    | exact fun _ h => CtxDie.zeroPage_canonical h _
    | with_reducible refine Kept.ite (fun _ => ?_) (fun _ => ?_)
    | with_reducible refine Kept.ite_fst (fun _ => ?_) (fun _ => ?_)
    | refine fun _ _ _ => ?_
    | (lift_lets; intro _)
    | split

theorem mmResidue_kept (h : Kept L s₀ s) (b op : Nat) (predicted : ResAt → Option (BitVec 3)) (rf : List ResAt)
    (hl : Within [.bays, .rtrs, .host, .snags, .snagNext, .out] L := by exact sub (by assumption) (by decide)) : Kept L s₀ (s.mmResidue b op predicted rf) := by
  unfold State.mmResidue
  repeat' first
    | with_reducible exact sub (by assumption) (by decide)
    | with_reducible assumption
    | with_reducible apply stickyBay_kept
    | with_reducible apply signalFault_kept
    | with_reducible refine foldl_kept (fun _ _ _ => ?_) ?_
    | exact fun h => h
    | exact fun _ h => h
    | decide
    | exact fun _ h => mset_canonical h _ _
    | exact fun _ h => Bay.invalidate_canonical h
    | exact fun _ h => canonical_nil _
    | exact fun _ h => Bay.storeLine_canonical h _ _
    | exact fun _ h => Bay.writeLine_canonical h _ _ _ _ _
    | exact fun _ hx => Panel.commitRow_canonical hx _ _ _
    | exact fun _ h => CtxDie.arbitrate_canonical h _
    | exact fun _ h => CtxDie.issue_canonical h _ _ _ _ _
    | exact fun _ h => CtxDie.zeroPage_canonical h _
    | with_reducible refine Kept.ite (fun _ => ?_) (fun _ => ?_)
    | with_reducible refine Kept.ite_fst (fun _ => ?_) (fun _ => ?_)
    | refine fun _ _ _ => ?_
    | (lift_lets; intro _)
    | split

theorem execAdd_kept (h : Kept L s₀ s) (t : Nat) (b : BayIx) (rf : List ResAt)
    (hl : Within [.now, .mode, .pwr, .panels, .bays, .rtrs, .ctx0, .ctx1, .pages, .plans, .weights, .fab, .host, .snags, .snagNext, .out] L := by exact sub (by assumption) (by decide)) : Kept.Out L s₀ (execAdd t b rf s) := by
  unfold execAdd
  repeat' first
    | with_reducible exact sub (by assumption) (by decide)
    | with_reducible assumption
    | with_reducible apply tick_kept
    | with_reducible apply laneOp_kept
    | with_reducible refine Kept.Out.next ?_

theorem execSub_kept (h : Kept L s₀ s) (t : Nat) (b : BayIx) (rf : List ResAt)
    (hl : Within [.now, .mode, .pwr, .panels, .bays, .rtrs, .ctx0, .ctx1, .pages, .plans, .weights, .fab, .host, .snags, .snagNext, .out] L := by exact sub (by assumption) (by decide)) : Kept.Out L s₀ (execSub t b rf s) := by
  unfold execSub
  repeat' first
    | with_reducible exact sub (by assumption) (by decide)
    | with_reducible assumption
    | with_reducible apply tick_kept
    | with_reducible apply laneOp_kept
    | with_reducible refine Kept.Out.next ?_

theorem execMul_kept (h : Kept L s₀ s) (t : Nat) (b : BayIx) (rf : List ResAt)
    (hl : Within [.now, .mode, .pwr, .panels, .bays, .rtrs, .ctx0, .ctx1, .pages, .plans, .weights, .fab, .host, .snags, .snagNext, .out] L := by exact sub (by assumption) (by decide)) : Kept.Out L s₀ (execMul t b rf s) := by
  unfold execMul
  repeat' first
    | with_reducible exact sub (by assumption) (by decide)
    | with_reducible assumption
    | with_reducible apply tick_kept
    | with_reducible apply laneOp_kept
    | with_reducible refine Kept.Out.next ?_

theorem execFma_kept (h : Kept L s₀ s) (t : Nat) (b : BayIx) (rf : List ResAt)
    (hl : Within [.now, .mode, .pwr, .panels, .bays, .rtrs, .ctx0, .ctx1, .pages, .plans, .weights, .fab, .host, .snags, .snagNext, .out] L := by exact sub (by assumption) (by decide)) : Kept.Out L s₀ (execFma t b rf s) := by
  unfold execFma
  repeat' first
    | with_reducible exact sub (by assumption) (by decide)
    | with_reducible assumption
    | with_reducible apply tick_kept
    | with_reducible apply laneOp_kept
    | with_reducible refine Kept.Out.next ?_

theorem plainOp_kept (h : Kept L s₀ s) (b code : Nat) (f : VecArgs → List Num)
    (hl : Within [.mode, .pwr, .panels, .bays, .rtrs, .ctx0, .ctx1, .pages, .plans, .weights, .fab, .host, .snags, .snagNext, .out] L := by exact sub (by assumption) (by decide)) : Kept L s₀ (s.plainOp b code f) := by
  unfold State.plainOp
  repeat' first
    | with_reducible exact sub (by assumption) (by decide)
    | with_reducible assumption
    | with_reducible apply laneOp_kept

theorem execMax_kept (h : Kept L s₀ s) (t : Nat) (b : BayIx)
    (hl : Within [.now, .mode, .pwr, .panels, .bays, .rtrs, .ctx0, .ctx1, .pages, .plans, .weights, .fab, .host, .snags, .snagNext, .out] L := by exact sub (by assumption) (by decide)) : Kept.Out L s₀ (execMax t b s) := by
  unfold execMax
  repeat' first
    | with_reducible exact sub (by assumption) (by decide)
    | with_reducible assumption
    | with_reducible apply tick_kept
    | with_reducible apply plainOp_kept
    | with_reducible refine Kept.Out.next ?_

theorem execMin_kept (h : Kept L s₀ s) (t : Nat) (b : BayIx)
    (hl : Within [.now, .mode, .pwr, .panels, .bays, .rtrs, .ctx0, .ctx1, .pages, .plans, .weights, .fab, .host, .snags, .snagNext, .out] L := by exact sub (by assumption) (by decide)) : Kept.Out L s₀ (execMin t b s) := by
  unfold execMin
  repeat' first
    | with_reducible exact sub (by assumption) (by decide)
    | with_reducible assumption
    | with_reducible apply tick_kept
    | with_reducible apply plainOp_kept
    | with_reducible refine Kept.Out.next ?_

theorem execRequant_kept (h : Kept L s₀ s) (t : Nat) (b : BayIx) (rf : List ResAt)
    (hl : Within [.now, .mode, .pwr, .panels, .bays, .rtrs, .ctx0, .ctx1, .pages, .plans, .weights, .fab, .host, .snags, .snagNext, .out] L := by exact sub (by assumption) (by decide)) : Kept.Out L s₀ (execRequant t b rf s) := by
  unfold execRequant
  refine Kept.Out.next ?_
  have k := tick_kept h t
  dsimp only
  split
  · exact k
  · exact unitPartDone_kept (vecResidue_kept (requantSat_kept k _ _ _ _) _ _ _ _) _ _

theorem execCvt_kept (h : Kept L s₀ s) (t : Nat) (b : BayIx)
    (hl : Within [.now, .mode, .pwr, .panels, .bays, .rtrs, .ctx0, .ctx1, .pages, .plans, .weights, .fab, .host, .snags, .snagNext, .out] L := by exact sub (by assumption) (by decide)) : Kept.Out L s₀ (execCvt t b s) := by
  unfold execCvt
  repeat' first
    | with_reducible exact sub (by assumption) (by decide)
    | with_reducible assumption
    | with_reducible apply tick_kept
    | with_reducible apply plainOp_kept
    | with_reducible refine Kept.Out.next ?_

theorem execRelu_kept (h : Kept L s₀ s) (t : Nat) (b : BayIx)
    (hl : Within [.now, .mode, .pwr, .panels, .bays, .rtrs, .ctx0, .ctx1, .pages, .plans, .weights, .fab, .host, .snags, .snagNext, .out] L := by exact sub (by assumption) (by decide)) : Kept.Out L s₀ (execRelu t b s) := by
  unfold execRelu
  repeat' first
    | with_reducible exact sub (by assumption) (by decide)
    | with_reducible assumption
    | with_reducible apply tick_kept
    | with_reducible apply plainOp_kept
    | with_reducible refine Kept.Out.next ?_

theorem execExp_kept (h : Kept L s₀ s) (t : Nat) (b : BayIx)
    (hl : Within [.now, .mode, .pwr, .panels, .bays, .rtrs, .ctx0, .ctx1, .pages, .plans, .weights, .fab, .host, .snags, .snagNext, .out] L := by exact sub (by assumption) (by decide)) : Kept.Out L s₀ (execExp t b s) := by
  unfold execExp
  repeat' first
    | with_reducible exact sub (by assumption) (by decide)
    | with_reducible assumption
    | with_reducible apply tick_kept
    | with_reducible apply plainOp_kept
    | with_reducible refine Kept.Out.next ?_

theorem execRecip_kept (h : Kept L s₀ s) (t : Nat) (b : BayIx)
    (hl : Within [.now, .mode, .pwr, .panels, .bays, .rtrs, .ctx0, .ctx1, .pages, .plans, .weights, .fab, .host, .snags, .snagNext, .out] L := by exact sub (by assumption) (by decide)) : Kept.Out L s₀ (execRecip t b s) := by
  unfold execRecip
  repeat' first
    | with_reducible exact sub (by assumption) (by decide)
    | with_reducible assumption
    | with_reducible apply tick_kept
    | with_reducible apply plainOp_kept
    | with_reducible refine Kept.Out.next ?_

theorem execRsqrt_kept (h : Kept L s₀ s) (t : Nat) (b : BayIx)
    (hl : Within [.now, .mode, .pwr, .panels, .bays, .rtrs, .ctx0, .ctx1, .pages, .plans, .weights, .fab, .host, .snags, .snagNext, .out] L := by exact sub (by assumption) (by decide)) : Kept.Out L s₀ (execRsqrt t b s) := by
  unfold execRsqrt
  repeat' first
    | with_reducible exact sub (by assumption) (by decide)
    | with_reducible assumption
    | with_reducible apply tick_kept
    | with_reducible apply plainOp_kept
    | with_reducible refine Kept.Out.next ?_

theorem execGelu_kept (h : Kept L s₀ s) (t : Nat) (b : BayIx)
    (hl : Within [.now, .mode, .pwr, .panels, .bays, .rtrs, .ctx0, .ctx1, .pages, .plans, .weights, .fab, .host, .snags, .snagNext, .out] L := by exact sub (by assumption) (by decide)) : Kept.Out L s₀ (execGelu t b s) := by
  unfold execGelu
  repeat' first
    | with_reducible exact sub (by assumption) (by decide)
    | with_reducible assumption
    | with_reducible apply tick_kept
    | with_reducible apply plainOp_kept
    | with_reducible refine Kept.Out.next ?_

theorem execSilu_kept (h : Kept L s₀ s) (t : Nat) (b : BayIx)
    (hl : Within [.now, .mode, .pwr, .panels, .bays, .rtrs, .ctx0, .ctx1, .pages, .plans, .weights, .fab, .host, .snags, .snagNext, .out] L := by exact sub (by assumption) (by decide)) : Kept.Out L s₀ (execSilu t b s) := by
  unfold execSilu
  repeat' first
    | with_reducible exact sub (by assumption) (by decide)
    | with_reducible assumption
    | with_reducible apply tick_kept
    | with_reducible apply plainOp_kept
    | with_reducible refine Kept.Out.next ?_

theorem execRsum_kept (h : Kept L s₀ s) (t : Nat) (b : BayIx) (rf : List ResAt)
    (hl : Within [.now, .free, .mode, .pwr, .panels, .bays, .rtrs, .ctx0, .ctx1, .pages, .plans, .weights, .fab, .host, .snags, .snagNext, .out] L := by exact sub (by assumption) (by decide)) : Kept.Out L s₀ (execRsum t b rf s) := by
  unfold execRsum
  repeat' first
    | with_reducible exact sub (by assumption) (by decide)
    | with_reducible assumption
    | with_reducible apply tick_kept
    | with_reducible apply reduceOp_kept
    | with_reducible refine Kept.Out.next ?_

theorem execRmax_kept (h : Kept L s₀ s) (t : Nat) (b : BayIx)
    (hl : Within [.now, .free, .mode, .pwr, .panels, .bays, .rtrs, .ctx0, .ctx1, .pages, .plans, .weights, .fab, .host, .snags, .snagNext, .out] L := by exact sub (by assumption) (by decide)) : Kept.Out L s₀ (execRmax t b s) := by
  unfold execRmax
  repeat' first
    | with_reducible exact sub (by assumption) (by decide)
    | with_reducible assumption
    | with_reducible apply tick_kept
    | with_reducible apply reduceOp_kept
    | with_reducible refine Kept.Out.next ?_

theorem execRsumsq_kept (h : Kept L s₀ s) (t : Nat) (b : BayIx) (rf : List ResAt)
    (hl : Within [.now, .free, .mode, .pwr, .panels, .bays, .rtrs, .ctx0, .ctx1, .pages, .plans, .weights, .fab, .host, .snags, .snagNext, .out] L := by exact sub (by assumption) (by decide)) : Kept.Out L s₀ (execRsumsq t b rf s) := by
  unfold execRsumsq
  repeat' first
    | with_reducible exact sub (by assumption) (by decide)
    | with_reducible assumption
    | with_reducible apply tick_kept
    | with_reducible apply reduceOp_kept
    | with_reducible refine Kept.Out.next ?_

theorem execMmLoadb_kept (h : Kept L s₀ s) (t : Nat) (b : BayIx)
    (hl : Within [.now, .mode, .pwr, .panels, .bays, .rtrs, .ctx0, .ctx1, .pages, .plans, .weights, .fab, .host, .snags, .snagNext, .out] L := by exact sub (by assumption) (by decide)) : Kept.Out L s₀ (execMmLoadb t b s) := by
  unfold execMmLoadb
  repeat' first
    | with_reducible exact sub (by assumption) (by decide)
    | with_reducible assumption
    | with_reducible apply tick_kept
    | with_reducible apply modBay_kept
    | with_reducible apply unitPartDone_kept
    | with_reducible refine Kept.Out.next ?_
    | exact fun _ h => h
    | split

theorem execMmMul_kept (h : Kept L s₀ s) (t : Nat) (b : BayIx) (rf : List ResAt)
    (hl : Within [.now, .mode, .pwr, .panels, .bays, .rtrs, .ctx0, .ctx1, .pages, .plans, .weights, .fab, .host, .snags, .snagNext, .out] L := by exact sub (by assumption) (by decide)) : Kept.Out L s₀ (execMmMul t b rf s) := by
  unfold execMmMul
  repeat' first
    | with_reducible exact sub (by assumption) (by decide)
    | with_reducible assumption
    | with_reducible apply tick_kept
    | with_reducible apply setBay_kept
    | with_reducible apply mmResidue_kept
    | with_reducible apply unitPartDone_kept
    | with_reducible apply accOverflow_kept
    | with_reducible refine foldl_kept (fun _ _ _ => ?_) ?_
    | with_reducible refine Kept.Out.next ?_
    | with_reducible refine Kept.Out.ite (fun _ => ?_) (fun _ => ?_)
    | exact fun h => h
    | exact fun _ h => h
    | decide
    | exact fun _ h => mset_canonical h _ _
    | exact fun _ h => Bay.invalidate_canonical h
    | exact fun _ h => canonical_nil _
    | exact fun _ h => Bay.storeLine_canonical h _ _
    | exact fun _ h => Bay.writeLine_canonical h _ _ _ _ _
    | exact fun _ hx => Panel.commitRow_canonical hx _ _ _
    | exact fun _ h => CtxDie.arbitrate_canonical h _
    | exact fun _ h => CtxDie.issue_canonical h _ _ _ _ _
    | exact fun _ h => CtxDie.zeroPage_canonical h _
    | with_reducible refine Kept.ite (fun _ => ?_) (fun _ => ?_)
    | with_reducible refine Kept.ite_fst (fun _ => ?_) (fun _ => ?_)
    | refine fun _ _ _ => ?_
    | (lift_lets; intro _)
    | split

theorem execMmDrain_kept (h : Kept L s₀ s) (t : Nat) (b : BayIx) (rf : List ResAt)
    (hl : Within [.now, .mode, .pwr, .panels, .bays, .rtrs, .ctx0, .ctx1, .pages, .plans, .weights, .fab, .host, .snags, .snagNext, .out] L := by exact sub (by assumption) (by decide)) : Kept.Out L s₀ (execMmDrain t b rf s) := by
  unfold execMmDrain
  refine Kept.Out.next ?_
  have k := tick_kept h t
  dsimp only
  split
  · exact k
  · exact unitPartDone_kept (mmResidue_kept (requantSat_kept k _ _ _ _) _ _ _ _) _ _

end Sys2Proof.Machine
end

