-- ==== Sys2Proof/Laws/KeptPlans.lean ====
section
/-! SUPPORT. `Kept` holds after the operations of the Context dies, plans, requests, weights and recovery (one lemma per operation, `<operation>_kept`). -/

namespace Sys2Proof.Machine

set_option maxRecDepth 20000
set_option Elab.async false

variable {L : List Field} {s₀ s : State}

theorem mclean_map_canonical {α : Type} [DecidableEq α] {d e : α} {m : SMap α} (h : Canonical e m) (f : α → α) :
    Canonical d (mclean d (m.map fun e => (e.1, f e.2))) :=
  ⟨List.Pairwise.filter _ (List.pairwise_map.2 (by exact h.1)), fun e he => by simpa using (List.mem_filter.1 he).2⟩

theorem loadRefused_kept (h : Kept L s₀ s) (check loc idx : Nat)
    (hl : Within [.free, .host, .snags, .snagNext, .out] L := by exact sub (by assumption) (by decide)) : (s.loadRefused check loc idx).Kept L s₀ :=
  drawn_kept (snagCtl_kept h _ _ _)

theorem admitPlan_kept (h : Kept L s₀ s) (p : PlanImg)
    (hl : Within [.host, .snags, .snagNext, .out] L := by exact sub (by assumption) (by decide)) : Kept L s₀ (s.admitPlan p).1 := by
  unfold State.admitPlan
  repeat' first
    | with_reducible exact sub (by assumption) (by decide)
    | with_reducible assumption
    | with_reducible apply snagCtl_kept
    | split

theorem loadPlan_kept (h : Kept L s₀ s) (c : Cmd) (b : List Byte)
    (hl : Within [.free, .plans, .host, .snags, .snagNext, .out] L := by exact sub (by assumption) (by decide)) : Done.Kept L s₀ (s.loadPlan c b) := by
  unfold State.loadPlan
  repeat' first
    | with_reducible exact sub (by assumption) (by decide)
    | with_reducible assumption
    | with_reducible apply loadRefused_kept
    | with_reducible apply take_kept
    | with_reducible apply admitPlan_kept
    | with_reducible refine Done.Kept.comp ?_
    | with_reducible refine Done.Kept.waits ?_
    | with_reducible refine Done.Kept.ite (fun _ => ?_) (fun _ => ?_)
    | exact fun h => h
    | exact fun _ h => h
    | decide
    | exact fun _ h => mset_canonical h _ _
    | exact fun _ h => Bay.invalidate_canonical h
    | exact fun _ h => canonical_nil _
    | exact fun _ h => Bay.storeLine_canonical h _ _
    | exact fun _ h => Bay.writeLine_canonical h _ _ _ _ _
    | exact fun _ hx => Panel.commitRow_canonical hx _ _ _
    | exact fun _ h => CtxDie.zeroPage_canonical h _
    | with_reducible refine Kept.ite (fun _ => ?_) (fun _ => ?_)
    | with_reducible refine Kept.ite_fst (fun _ => ?_) (fun _ => ?_)
    | refine fun _ _ _ => ?_
    | (lift_lets; intro _)
    | split
    | with_reducible refine Kept.same ?_

theorem execPlanLoad_kept (h : Kept L s₀ s) (t fn slot : Nat) (dma : HostRead)
    (hl : Within [.now, .free, .plans, .host, .snags, .snagNext, .out] L := by exact sub (by assumption) (by decide)) : Kept.Out L s₀ (execPlanLoad t fn slot dma s) := by
  unfold execPlanLoad
  repeat' first
    | with_reducible exact sub (by assumption) (by decide)
    | with_reducible assumption
    | with_reducible apply tick_kept
    | with_reducible apply runCmd_kept
    | with_reducible apply dmaRead_kept
    | with_reducible apply loadPlan_kept
    | with_reducible refine Kept.Out.next ?_
    | with_reducible refine Kept.Out.ite (fun _ => ?_) (fun _ => ?_)
    | with_reducible refine Done.Kept.comp ?_
    | with_reducible refine Done.Kept.waits ?_
    | with_reducible refine Done.Kept.ite (fun _ => ?_) (fun _ => ?_)
    | exact fun h => h
    | exact fun _ h => h
    | decide
    | exact fun _ h => mset_canonical h _ _
    | exact fun _ h => Bay.invalidate_canonical h
    | exact fun _ h => canonical_nil _
    | exact fun _ h => Bay.storeLine_canonical h _ _
    | exact fun _ h => Bay.writeLine_canonical h _ _ _ _ _
    | exact fun _ hx => Panel.commitRow_canonical hx _ _ _
    | exact fun _ h => CtxDie.zeroPage_canonical h _
    | (intro _ h; split <;> exact h)
    | with_reducible refine Kept.ite (fun _ => ?_) (fun _ => ?_)
    | with_reducible refine Kept.ite_fst (fun _ => ?_) (fun _ => ?_)
    | refine fun _ _ _ => ?_

theorem takeEdge_kept (h : Kept L s₀ s) (die link : Nat) (ms : List MLine)
    (hl : Within [.edgeQ, .host, .out] L := by exact sub (by assumption) (by decide)) : Kept.Opt L s₀ (s.takeEdge die link ms) := by
  unfold State.takeEdge
  split
  · exact .none
  · refine .ite (fun _ => .some h) fun _ => .ite (fun _ => .some ?_) fun _ => .none
    with_reducible exact Kept.same h

theorem arbitrate_kept (h : Kept L s₀ s) (k : Nat)
    (hl : Within [.ctx0, .ctx1] L := by exact sub (by assumption) (by decide)) : Kept L s₀ (s.arbitrate k) := by
  unfold State.arbitrate
  repeat' first
    | with_reducible exact sub (by assumption) (by decide)
    | with_reducible assumption
    | with_reducible apply modCtx_kept
    | exact fun h => h
    | exact fun _ h => h
    | decide
    | exact fun _ h => mset_canonical h _ _
    | exact fun _ h => Bay.invalidate_canonical h
    | exact fun _ h => canonical_nil _
    | exact fun _ h => Bay.storeLine_canonical h _ _
    | exact fun _ h => Bay.writeLine_canonical h _ _ _ _ _
    | exact fun _ hx => Panel.commitRow_canonical hx _ _ _
    | (intro h; rw [CtxDie.arbitrate_mem]; exact h)
    | (intro _ h; rw [CtxDie.arbitrate_mem]; exact h)

theorem runUnit_kept (h : Kept L s₀ s) (k unit op : Nat) (iss : List Nat) (ups : List Upset) {f : State → CtxReq → State}
    (hf : ∀ s r, Kept L s₀ s → Kept L s₀ (f s r))
    (hl : Within [.ctx0, .ctx1] L := by exact sub (by assumption) (by decide)) : Kept L s₀ (s.runUnit k unit op iss ups f) := by
  unfold State.runUnit
  lift_lets
  intro s1
  have h1 : Kept L s₀ s1 := modCtx_kept (arbitrate_kept h k) k fun _ hc => CtxDie.upset_canonical hc ups
  clear_value s1
  split
  · exact Kept.ite (fun _ => hf _ _ (modCtx_kept h1 k fun _ hc => by exact hc)) fun _ => h1
  · exact h1

theorem foldl_kept_fst {s₀ : State} {α β : Type} {f : State × α → β → State × α} (hf : ∀ a b, Kept L s₀ a.1 → Kept L s₀ (f a b).1)
    (l : List β) : ∀ {a : State × α}, Kept L s₀ a.1 → Kept L s₀ (l.foldl f a).1 := by
  induction l with
  | nil => exact fun h => h
  | cons b l ih => exact fun h => ih (hf _ b h)

theorem issue_kept (h : Kept L s₀ s) (k : Nat) (r : CtxReq) (keys : List Nat)
    (hl : Within [.ctx0, .ctx1] L := by exact sub (by assumption) (by decide)) : Kept L s₀ (s.issue k r keys) := by
  unfold State.issue
  repeat' first
    | with_reducible exact sub (by assumption) (by decide)
    | with_reducible assumption
    | with_reducible apply modCtx_kept
    | exact fun h => h
    | exact fun _ h => h
    | decide
    | exact fun _ h => mset_canonical h _ _
    | exact fun _ h => Bay.invalidate_canonical h
    | exact fun _ h => canonical_nil _
    | exact fun _ h => Bay.storeLine_canonical h _ _
    | exact fun _ h => Bay.writeLine_canonical h _ _ _ _ _
    | exact fun _ hx => Panel.commitRow_canonical hx _ _ _
    | (intro h; rw [CtxDie.issue_mem]; exact h)
    | (intro _ h; rw [CtxDie.issue_mem]; exact h)

theorem readLines_kept (h : Kept L s₀ s) (k : Nat) (r : CtxReq) (keys : List Nat)
    (hl : Within [.ctx0, .ctx1, .host, .snags, .snagNext, .out] L := by exact sub (by assumption) (by decide)) : Kept L s₀ (s.readLines k r keys).1 := by
  unfold State.readLines
  refine foldl_kept_fst (fun a key g => ?_) _ (issue_kept h k r keys)
  dsimp only
  split
  · dsimp only
    exact Kept.ite (fun _ => modCtx_kept g k fun _ hc => by exact hc) fun _ => snag_kept (modCtx_kept g k fun _ hc => by exact hc) _ _ _ _ _
  · split
    · exact g
    · dsimp only
      exact modCtx_kept g k fun _ hc => by exact hc

theorem ctxReply_kept (h : Kept L s₀ s) (k : Nat) (r : CtxReq) (status commit err : Nat) (data : List Line)
    (hl : Within [.rtrs, .host, .snags, .snagNext, .out] L := by exact sub (by assumption) (by decide)) :
    Kept L s₀ (s.ctxReply k r status commit err data) := by
  unfold State.ctxReply
  repeat' first
    | with_reducible exact sub (by assumption) (by decide)
    | with_reducible assumption
    | with_reducible apply edgeInject_kept
    | with_reducible refine foldl_kept (fun _ _ _ => ?_) ?_

theorem ctxFail_kept (h : Kept L s₀ s) (k : Nat) (r : CtxReq) (status commit err : Nat)
    (hl : Within [.rtrs, .host, .snags, .snagNext, .out] L := by exact sub (by assumption) (by decide)) : Kept L s₀ (s.ctxFail k r status commit err) := by
  unfold State.ctxFail
  repeat' first
    | with_reducible exact sub (by assumption) (by decide)
    | with_reducible assumption
    | with_reducible apply ctxReply_kept

theorem ctxPerm_kept (h : Kept L s₀ s) (k : Nat) (r : CtxReq) (seq where_ reason commit err : Nat)
    (hl : Within [.rtrs, .ctx0, .ctx1, .host, .snags, .snagNext, .out] L := by exact sub (by assumption) (by decide)) :
    Kept L s₀ (s.ctxPerm k r seq where_ reason commit err) := by
  unfold State.ctxPerm
  repeat' first
    | with_reducible exact sub (by assumption) (by decide)
    | with_reducible assumption
    | with_reducible apply stickyCtx_kept
    | with_reducible apply ctxFail_kept
    | exact fun _ h => h

theorem withSeq_kept (h : Kept L s₀ s) (k : Nat) (r : CtxReq) {f : Nat → SeqEnt → State} (hf : ∀ n q, Kept L s₀ (f n q))
    (hl : Within [.rtrs, .ctx0, .ctx1, .host, .snags, .snagNext, .out] L := by exact sub (by assumption) (by decide)) :
    Kept L s₀ (s.withSeq k r f) := by
  unfold State.withSeq
  exact Kept.ite (fun _ => ctxPerm_kept h _ _ _ _ _ _ _) fun _ => Kept.ite (fun _ => ctxFail_kept h _ _ _ _ _) fun _ => hf _ _

theorem allocPage_kept (h : Kept L s₀ s) (k tenant lpn : Nat) (x : State × Nat) (e : s.allocPage k tenant lpn = some x)
    (hl : Within [.ctx0, .ctx1, .pages] L := by exact sub (by assumption) (by decide)) :
    Kept L s₀ x.1 := by
  unfold State.allocPage at e
  split at e
  · exact Option.some.inj e ▸ cmmPte_kept (modCtx_kept h k fun _ hc => by exact hc) _ _ _ _
  · nomatch e

theorem pageFor_kept (h : Kept L s₀ s) (k tenant lpn : Nat) (x : State × Nat) (e : s.pageFor k tenant lpn = some x)
    (hl : Within [.ctx0, .ctx1, .pages] L := by exact sub (by assumption) (by decide)) :
    Kept L s₀ x.1 := by
  unfold State.pageFor at e
  dsimp only at e
  split at e
  · exact Option.some.inj e ▸ h
  · exact allocPage_kept h k tenant lpn x e

theorem poolEmpty_kept (h : Kept L s₀ s) (k seq lpn unit : Nat)
    (hl : Within [.ctx0, .ctx1, .host, .snags, .snagNext, .out] L := by exact sub (by assumption) (by decide)) : Kept L s₀ (s.poolEmpty k seq lpn unit) := by
  unfold State.poolEmpty
  repeat' first
    | with_reducible exact sub (by assumption) (by decide)
    | with_reducible assumption
    | with_reducible apply modCtx_kept
    | with_reducible apply stickyCtx_kept
    | exact fun _ h => h

theorem writePositions_kept {s₀ : State} (k seq : Nat) (q : SeqEnt) (r : CtxReq) (l : List (List Cell))
    (hl : Within [.ctx0, .ctx1, .pages, .host, .snags, .snagNext, .out] L := by exact sub (by assumption) (by decide)) :
    ∀ {s : State} (p : Nat), Kept L s₀ s → Kept L s₀ (s.writePositions k seq q r p l).1 := by
  induction l with
  | nil => exact fun _ h => h
  | cons b l ih =>
    intro s p h
    unfold State.writePositions
    dsimp only
    split
    · exact poolEmpty_kept h _ _ _ _
    · rename_i e
      have g := pageFor_kept h _ _ _ _ e
      split
      · exact g
      · exact ih _ (modCtx_kept g k fun _ hc => CtxDie.writeRuns_canonical _ _ _ hc)

theorem writeSpill_kept {s₀ : State} (k o base : Nat) (ls : List Line)
    (hl : Within [.ctx0, .ctx1, .pages] L := by exact sub (by assumption) (by decide)) :
    ∀ {s : State} (l : Nat), Kept L s₀ s → Kept L s₀ (s.writeSpill k o base l ls).1 := by
  induction ls with
  | nil => exact fun _ h => h
  | cons x ls ih =>
    intro s l h
    unfold State.writeSpill
    split
    · exact h
    · rename_i e
      have g := pageFor_kept h _ _ _ _ e
      split
      · exact g
      · exact ih _ (modCtx_kept g k fun _ hc => mset_canonical hc _ _)

theorem ctxWindow_kept (h : Kept L s₀ s) (k : Nat) (r : CtxReq) (seq pos commit : Nat)
    (hl : Within [.rtrs, .ctx0, .ctx1, .host, .snags, .snagNext, .out] L := by exact sub (by assumption) (by decide)) : Kept L s₀ (s.ctxWindow k r seq pos commit) := by
  unfold State.ctxWindow
  repeat' first
    | with_reducible exact sub (by assumption) (by decide)
    | with_reducible assumption
    | with_reducible apply stickyCtx_kept
    | with_reducible apply ctxFail_kept
    | exact fun _ h => h

theorem readReply_kept (h : Kept L s₀ s) (k : Nat) (r : CtxReq) (commit : Nat) (parts : List (Nat × List Nat)) (data : List Line)
    (hl : Within [.rtrs, .ctx0, .ctx1, .host, .snags, .snagNext, .out] L := by exact sub (by assumption) (by decide)) : Kept L s₀ (s.readReply k r commit parts data) := by
  unfold State.readReply
  dsimp only
  split
  · exact ctxReply_kept (readLines_kept h _ _ _) _ _ _ _ _ _
  · exact ctxReply_kept (readLines_kept h _ _ _) _ _ _ _ _ _

theorem kvStore_kept (h : Kept L s₀ s) (k : Nat) (r : CtxReq) (seq : Nat) (q : SeqEnt) (bs : List (List Cell))
    (hl : Within [.rtrs, .ctx0, .ctx1, .pages, .host, .snags, .snagNext, .out] L := by exact sub (by assumption) (by decide)) :
    Kept L s₀ (s.kvStore k r seq q bs) := by
  unfold State.kvStore
  dsimp only
  split
  · exact ctxWindow_kept h _ _ _ _ _
  · split
    · exact ctxPerm_kept h _ _ _ _ _ _ _
    · have g := (writePositions_kept k seq q r bs) r.pos h
      split <;> rename_i e <;> rw [e] at g
      · exact ctxFail_kept g _ _ _ _ _
      · exact ctxPerm_kept g _ _ _ _ _ _ _
      · exact readReply_kept (issue_kept g _ _ _) _ _ _ _ _

theorem execContextRequestArrival_kept (h : Kept L s₀ s) (t : Nat) (k : Fin 2) (link : Fin 36) (ms : List MLine)
    (hl : Within [.now, .rtrs, .edgeQ, .ctx0, .ctx1, .host, .snags, .snagNext, .out] L := by exact sub (by assumption) (by decide)) :
    Kept.Out L s₀ (execContextRequestArrival t k link ms s) := by
  have g := tick_kept h t
  unfold execContextRequestArrival
  generalize s.tick t = u at g ⊢
  refine .next ?_
  have e := takeEdge_kept g (17 + k) link ms
  dsimp only
  split
  · have e' := e _ ‹_›
    refine Kept.ite (fun _ => e') fun _ => Kept.ite (fun _ => foldl_kept (fun _ _ k => dropHeader_kept k _ _ _) e') fun _ =>
      Kept.ite (fun _ => stickyCtx_kept e' _ _ (fun _ hc => by exact hc) _ _ _ _) fun _ => Kept.ite
        (fun _ => ctxFail_kept (stickyCtx_kept e' _ _ (fun _ hc => by exact hc) _ _ _ _) _ _ _ _ _) fun _ =>
        Kept.ite (fun _ => g) fun _ => modCtx_kept e' _ fun _ hc => by exact hc
  · exact g

theorem execAttend_kept (h : Kept L s₀ s) (t : Nat) (k : Fin 2) (e : Fin 16) (iss : List Nat) (ups : List Upset)
    (hl : Within [.now, .rtrs, .ctx0, .ctx1, .host, .snags, .snagNext, .out] L := by exact sub (by assumption) (by decide)) :
    Kept.Out L s₀ (execAttend t k e iss ups s) := by
  unfold execAttend
  refine .next (runUnit_kept (tick_kept h t) _ _ _ _ _ fun s r g => withSeq_kept g _ _ fun seq q => ?_)
  refine Kept.ite (fun _ => ctxWindow_kept g _ _ _ _ _) fun _ => ?_
  dsimp only
  split
  · exact ctxPerm_kept g _ _ _ _ _ _ _
  · exact readReply_kept g _ _ _ _ _

theorem execAppend_kept (h : Kept L s₀ s) (t : Nat) (k : Fin 2) (e : Fin 16) (iss : List Nat) (ups : List Upset)
    (hl : Within [.now, .rtrs, .ctx0, .ctx1, .pages, .host, .snags, .snagNext, .out] L := by exact sub (by assumption) (by decide)) :
    Kept.Out L s₀ (execAppend t k e iss ups s) :=
  .next (runUnit_kept (tick_kept h t) _ _ _ _ _ fun _ _ g => withSeq_kept g _ _ fun _ _ => kvStore_kept g _ _ _ _ _)

theorem execCommitSet_kept (h : Kept L s₀ s) (t : Nat) (k : Fin 2)
    (hl : Within [.now, .rtrs, .ctx0, .ctx1, .host, .snags, .snagNext, .out] L := by exact sub (by assumption) (by decide)) : Kept.Out L s₀ (execCommitSet t k s) := by
  unfold execCommitSet
  exact .next (runUnit_kept (tick_kept h t) _ _ _ _ _ fun s r g => withSeq_kept g _ _ fun seq q =>
    Kept.ite (fun _ => ctxReply_kept g _ _ _ _ _ _) fun _ => Kept.ite
      (fun _ => ctxReply_kept (modCtx_kept g _ fun _ hc => by exact hc) _ _ _ _ _ _) fun _ => ctxWindow_kept g _ _ _ _ _)

theorem execKvRead_kept (h : Kept L s₀ s) (t : Nat) (k : Fin 2) (iss : List Nat) (ups : List Upset)
    (hl : Within [.now, .rtrs, .ctx0, .ctx1, .host, .snags, .snagNext, .out] L := by exact sub (by assumption) (by decide)) : Kept.Out L s₀ (execKvRead t k iss ups s) := by
  unfold execKvRead
  refine .next (runUnit_kept (tick_kept h t) _ _ _ _ _ fun s r g => withSeq_kept g _ _ fun seq q => ?_)
  dsimp only
  refine Kept.ite (fun _ => ctxWindow_kept g _ _ _ _ _) fun _ => ?_
  split
  · exact ctxWindow_kept g _ _ _ _ _
  · split
    · exact ctxPerm_kept g _ _ _ _ _ _ _
    · exact readReply_kept g _ _ _ _ _

theorem execKvWrite_kept (h : Kept L s₀ s) (t : Nat) (k : Fin 2) (iss : List Nat) (ups : List Upset)
    (hl : Within [.now, .rtrs, .ctx0, .ctx1, .pages, .host, .snags, .snagNext, .out] L := by exact sub (by assumption) (by decide)) :
    Kept.Out L s₀ (execKvWrite t k iss ups s) :=
  .next (runUnit_kept (tick_kept h t) _ _ _ _ _ fun _ _ g => withSeq_kept g _ _ fun _ _ => kvStore_kept g _ _ _ _ _)

theorem execSpillRead_kept (h : Kept L s₀ s) (t : Nat) (k : Fin 2) (iss : List Nat) (ups : List Upset)
    (hl : Within [.now, .rtrs, .ctx0, .ctx1, .host, .snags, .snagNext, .out] L := by exact sub (by assumption) (by decide)) :
    Kept.Out L s₀ (execSpillRead t k iss ups s) := by
  unfold execSpillRead
  refine .next (runUnit_kept (tick_kept h t) _ _ _ _ _ fun s r g => withSeq_kept g _ _ fun seq q => ?_)
  split
  · exact ctxPerm_kept g _ _ _ _ _ _ _
  · dsimp only
    split
    · exact ctxPerm_kept g _ _ _ _ _ _ _
    · exact readReply_kept g _ _ _ _ _

theorem execSpillWrite_kept (h : Kept L s₀ s) (t : Nat) (k : Fin 2) (iss : List Nat)
    (hl : Within [.now, .rtrs, .ctx0, .ctx1, .pages, .host, .snags, .snagNext, .out] L := by exact sub (by assumption) (by decide)) : Kept.Out L s₀ (execSpillWrite t k iss s) := by
  unfold execSpillWrite
  refine .next (runUnit_kept (tick_kept h t) _ _ _ _ _ fun s r g => withSeq_kept g _ _ fun seq q => ?_)
  split
  · exact ctxPerm_kept g _ _ _ _ _ _ _
  · dsimp only
    split
    · exact ctxPerm_kept g _ _ _ _ _ _ _
    · rename_i o base _ _ _
      have k := (writeSpill_kept k o base r.lines) (r.f 36 4) g
      split <;> rename_i e <;> rw [e] at k
      · exact ctxFail_kept (poolEmpty_kept k _ _ _ _) _ _ _ _ _
      · exact ctxPerm_kept k _ _ _ _ _ _ _
      · exact readReply_kept (issue_kept k _ _ _) _ _ _ _ _

theorem execFwWrite_kept (h : Kept L s₀ s) (t : Nat) (k : Fin 2) (iss : List Nat)
    (hl : Within [.now, .rtrs, .ctx0, .ctx1, .pages, .host, .snags, .snagNext, .out] L := by exact sub (by assumption) (by decide)) : Kept.Out L s₀ (execFwWrite t k iss s) := by
  unfold execFwWrite
  exact .next (runUnit_kept (tick_kept h t) _ _ _ _ _ fun s r g => Kept.ite (fun _ => ctxPerm_kept g _ _ _ _ _ _ _) fun _ =>
    Kept.ite (fun _ => ctxPerm_kept g _ _ _ _ _ _ _) fun _ =>
      ctxReply_kept (issue_kept (foldl_kept (fun _ _ m => fwStore_kept m _ _ _) g) _ _ _) _ _ _ _ _ _)

theorem execPageZero_kept (h : Kept L s₀ s) (t : Nat) (k : Fin 2) (iss : List Nat)
    (hl : Within [.now, .rtrs, .ctx0, .ctx1, .host, .snags, .snagNext, .out] L := by exact sub (by assumption) (by decide)) : Kept.Out L s₀ (execPageZero t k iss s) := by
  unfold execPageZero
  refine .next (runUnit_kept (tick_kept h t) _ _ _ _ _ fun s r g => ?_)
  dsimp only
  split
  · exact ctxPerm_kept g _ _ _ _ _ _ _
  · exact ctxReply_kept (issue_kept (modCtx_kept g _ fun _ hc => CtxDie.zeroPage_canonical hc _) _ _ _) _ _ _ _ _ _

theorem execPageCopy_kept (h : Kept L s₀ s) (t : Nat) (k : Fin 2) (iss : List Nat) (ups : List Upset)
    (hl : Within [.now, .rtrs, .ctx0, .ctx1, .host, .snags, .snagNext, .out] L := by exact sub (by assumption) (by decide)) :
    Kept.Out L s₀ (execPageCopy t k iss ups s) := by
  unfold execPageCopy
  refine .next (runUnit_kept (tick_kept h t) _ _ _ _ _ fun s r g => ?_)
  dsimp only
  split
  · exact ctxPerm_kept g _ _ _ _ _ _ _
  · exact ctxPerm_kept g _ _ _ _ _ _ _
  · exact readReply_kept (issue_kept (modCtx_kept g _ fun _ hc => CtxDie.copyPage_canonical hc _ _) _ _ _) _ _ _ _ _

theorem poolPush_kept (h : Kept L s₀ s) (k ppn : Nat)
    (hl : Within [.ctx0, .ctx1, .host, .snags, .snagNext, .out] L := by exact sub (by assumption) (by decide)) : Kept L s₀ (s.poolPush k ppn) := by
  unfold State.poolPush
  repeat' first
    | with_reducible exact sub (by assumption) (by decide)
    | with_reducible assumption
    | with_reducible apply modCtx_kept
    | with_reducible apply stickyCtx_kept
    | exact fun _ h => h
    | with_reducible refine Kept.ite (fun _ => ?_) (fun _ => ?_)

theorem stackLeaves_kept (h : Kept L s₀ s) (k st cause : Nat)
    (hl : Within [.ctx0, .ctx1, .host, .snags, .snagNext, .out] L := by exact sub (by assumption) (by decide)) : Kept L s₀ (s.stackLeaves k st cause) := by
  unfold State.stackLeaves
  repeat' first
    | with_reducible exact sub (by assumption) (by decide)
    | with_reducible assumption
    | with_reducible apply modCtx_kept
    | with_reducible apply snag_kept
    | exact fun _ h => h
    | with_reducible refine Kept.ite (fun _ => ?_) (fun _ => ?_)

theorem loseCtx_kept (h : Kept L s₀ s) (k : Nat)
    (hl : Within [.ctx0, .ctx1, .pages, .prefixes, .host, .snags, .snagNext, .out] L := by exact sub (by assumption) (by decide)) : Kept L s₀ (s.loseCtx k) := by
  unfold State.loseCtx
  repeat' first
    | with_reducible exact sub (by assumption) (by decide)
    | with_reducible assumption
    | with_reducible apply stackLeaves_kept
    | with_reducible apply modCtx_kept
    | with_reducible refine foldl_kept (fun _ _ _ => ?_) ?_
    | exact fun _ h => canonical_nil _
    | (lift_lets; intro s1; have hs1 : Kept L s₀ s1 := ?_; clear_value s1)
    | with_reducible refine Kept.same ?_

theorem execFwRead_kept (h : Kept L s₀ s) (t : Nat) (k : Fin 2) (iss : List Nat) (ups : List Upset)
    (hl : Within [.now, .rtrs, .ctx0, .ctx1, .host, .snags, .snagNext, .out] L := by exact sub (by assumption) (by decide)) : Kept.Out L s₀ (execFwRead t k iss ups s) := by
  unfold execFwRead
  exact .next (runUnit_kept (tick_kept h t) _ _ _ _ _ fun s r g => Kept.ite (fun _ => ctxPerm_kept g _ _ _ _ _ _ _) fun _ =>
    Kept.ite (fun _ => ctxPerm_kept g _ _ _ _ _ _ _) fun _ => readReply_kept g _ _ _ _ _)

theorem execRefreshDue_kept (h : Kept L s₀ s) (t : Nat) (k : Fin 2) (stack : Fin 6) (ch : Fin 32)
    (hl : Within [.now, .ctx0, .ctx1] L := by exact sub (by assumption) (by decide)) : Kept.Out L s₀ (execRefreshDue t k stack ch s) := by
  unfold execRefreshDue
  repeat' first
    | with_reducible exact sub (by assumption) (by decide)
    | with_reducible assumption
    | with_reducible apply tick_kept
    | with_reducible apply arbitrate_kept
    | with_reducible apply modCtx_kept
    | with_reducible refine Kept.Out.next ?_
    | with_reducible refine Kept.Out.ite (fun _ => ?_) (fun _ => ?_)
    | exact fun h => h
    | exact fun _ h => h
    | decide
    | exact fun _ h => mset_canonical h _ _
    | exact fun _ h => Bay.invalidate_canonical h
    | exact fun _ h => canonical_nil _
    | exact fun _ h => Bay.storeLine_canonical h _ _
    | exact fun _ h => Bay.writeLine_canonical h _ _ _ _ _
    | exact fun _ hx => Panel.commitRow_canonical hx _ _ _
    | exact fun _ h => CtxDie.zeroPage_canonical h _
    | with_reducible refine Kept.ite (fun _ => ?_) (fun _ => ?_)

theorem execForcedRefresh_kept (h : Kept L s₀ s) (t : Nat) (k : Fin 2) (stack : Fin 6) (ch : Fin 32)
    (hl : Within [.now, .ctx0, .ctx1, .intr] L := by exact sub (by assumption) (by decide)) : Kept.Out L s₀ (execForcedRefresh t k stack ch s) := by
  unfold execForcedRefresh
  repeat' first
    | with_reducible exact sub (by assumption) (by decide)
    | with_reducible assumption
    | with_reducible apply tick_kept
    | with_reducible apply arbitrate_kept
    | with_reducible apply modCtx_kept
    | with_reducible apply intrude_kept
    | with_reducible refine Kept.Out.next ?_
    | with_reducible refine Kept.Out.ite (fun _ => ?_) (fun _ => ?_)
    | exact fun h => h
    | exact fun _ h => h
    | decide
    | exact fun _ h => mset_canonical h _ _
    | exact fun _ h => Bay.invalidate_canonical h
    | exact fun _ h => canonical_nil _
    | exact fun _ h => Bay.storeLine_canonical h _ _
    | exact fun _ h => Bay.writeLine_canonical h _ _ _ _ _
    | exact fun _ hx => Panel.commitRow_canonical hx _ _ _
    | exact fun _ h => CtxDie.zeroPage_canonical h _
    | with_reducible refine Kept.ite (fun _ => ?_) (fun _ => ?_)

theorem execArbStarve_kept (h : Kept L s₀ s) (t : Nat) (k : Fin 2) (stack : Fin 6) (ch : Fin 32) (req : Fin 18) (level : Fin 3)
    (hl : Within [.now, .ctx0, .ctx1, .host, .snags, .snagNext, .out] L := by exact sub (by assumption) (by decide)) : Kept.Out L s₀ (execArbStarve t k stack ch req level s) := by
  unfold execArbStarve
  repeat' first
    | with_reducible exact sub (by assumption) (by decide)
    | with_reducible assumption
    | with_reducible apply tick_kept
    | with_reducible apply arbitrate_kept
    | with_reducible apply stickyCtx_kept
    | with_reducible apply pfIrq_kept
    | with_reducible refine Kept.Out.next ?_
    | with_reducible refine Kept.Out.ite (fun _ => ?_) (fun _ => ?_)
    | exact fun h => h
    | exact fun _ h => h
    | decide
    | exact fun _ h => mset_canonical h _ _
    | exact fun _ h => Bay.invalidate_canonical h
    | exact fun _ h => canonical_nil _
    | exact fun _ h => Bay.storeLine_canonical h _ _
    | exact fun _ h => Bay.writeLine_canonical h _ _ _ _ _
    | exact fun _ hx => Panel.commitRow_canonical hx _ _ _
    | exact fun _ h => CtxDie.zeroPage_canonical h _
    | with_reducible refine Kept.ite (fun _ => ?_) (fun _ => ?_)

theorem execCtxPoolPush_kept (h : Kept L s₀ s) (t : Nat) (k : Fin 2) (v : Word)
    (hl : Within [.now, .ctx0, .ctx1, .host, .snags, .snagNext, .out] L := by exact sub (by assumption) (by decide)) : Kept.Out L s₀ (execCtxPoolPush t k v s) := by
  unfold execCtxPoolPush
  repeat' first
    | with_reducible exact sub (by assumption) (by decide)
    | with_reducible assumption
    | with_reducible apply tick_kept
    | with_reducible apply poolPush_kept
    | with_reducible refine Kept.Out.next ?_

theorem execCtxCntClr_kept (h : Kept L s₀ s) (t : Nat) (k : Fin 2)
    (hl : Within [.now, .ctx0, .ctx1] L := by exact sub (by assumption) (by decide)) : Kept.Out L s₀ (execCtxCntClr t k s) := by
  unfold execCtxCntClr
  repeat' first
    | with_reducible exact sub (by assumption) (by decide)
    | with_reducible assumption
    | with_reducible apply tick_kept
    | with_reducible apply arbitrate_kept
    | with_reducible apply modCtx_kept
    | with_reducible refine Kept.Out.next ?_
    | with_reducible refine Kept.Out.ite (fun _ => ?_) (fun _ => ?_)
    | exact fun h => h
    | exact fun _ h => h

theorem execCtxStarveCapClear_kept (h : Kept L s₀ s) (t : Nat) (k : Fin 2)
    (hl : Within [.now, .ctx0, .ctx1] L := by exact sub (by assumption) (by decide)) : Kept.Out L s₀ (execCtxStarveCapClear t k s) := by
  unfold execCtxStarveCapClear
  repeat' first
    | with_reducible exact sub (by assumption) (by decide)
    | with_reducible assumption
    | with_reducible apply tick_kept
    | with_reducible apply modCtx_kept
    | with_reducible refine Kept.Out.next ?_
    | exact fun _ h => h

theorem copyOut_kept {s₀ : State} (k : Nat) (l : List (Nat × Nat))
    (hl : Within [.ctx0, .ctx1, .host, .snags, .snagNext, .out] L := by exact sub (by assumption) (by decide)) :
    ∀ {s : State}, Kept L s₀ s → ∀ x, s.copyOut k l = some x → Kept L s₀ x.1 := by
  induction l with
  | nil => exact fun h _ e => Option.some.inj e ▸ h
  | cons a l ih =>
    intro s h x e
    unfold State.copyOut at e
    split at e
    · nomatch e
    · split at e
      · rename_i e'
        obtain rfl := Option.some.inj e
        have g := fun h => ih h _ e'
        exact g (modCtx_kept (readLines_kept (modCtx_kept h k fun _ hc => by exact hc) k _ _) k fun _ hc => CtxDie.copyPage_canonical hc _ _)
      · nomatch e

theorem usePrefix_kept (h : Kept L s₀ s) (k tenant lpn jMax : Nat) (p : Prefix)
    (hl : Within [.ctx0, .ctx1, .pages, .host, .snags, .snagNext, .out] L := by exact sub (by assumption) (by decide)) : Kept L s₀ (s.usePrefix k tenant lpn jMax p).1 := by
  unfold State.usePrefix
  lift_lets
  intro page s1
  have h1 : Kept L s₀ s1 := foldl_kept (fun _ _ g => setPte_kept g _ _ _) h
  clear_value s1
  refine Kept.ite_fst (fun _ => h) fun _ => ?_
  split
  · exact h1
  · rename_i e
    exact foldl_kept (fun _ _ g => setPte_kept g _ _ _) ((copyOut_kept k _) h1 _ e)

theorem random_kept (h : Kept L s₀ s) (bits : Nat)
    (hl : Within [.free, .keep] L := by exact sub (by assumption) (by decide)) : Kept L s₀ (s.random bits).1 := by
  unfold State.random
  repeat' first
    | with_reducible exact sub (by assumption) (by decide)
    | with_reducible assumption
    | with_reducible apply drawn_kept
    | (lift_lets; intro _)
    | with_reducible refine Kept.same ?_

theorem keepPrefix_kept (h : Kept L s₀ s) (k seq n : Nat) (lead : Option Nat) (x : State × Nat)
    (e : s.keepPrefix k seq n lead = some x)
    (hl : Within [.free, .ctx0, .ctx1, .pages, .prefixes, .host, .keep, .snags, .snagNext, .out] L := by exact sub (by assumption) (by decide)) : Kept L s₀ x.1 := by
  unfold State.keepPrefix at e
  dsimp only at e
  split at e
  · nomatch e
  · split at e
    · nomatch e
    · rename_i e'
      obtain rfl := Option.some.inj e
      with_reducible refine Kept.same (random_kept (foldl_kept (fun _ _ g => setPte_kept g _ _ _) ((copyOut_kept k _) h _ e')) _)

theorem keepAtEnd_kept (h : Kept L s₀ s) (p : Loaded) (r : Req)
    (hl : Within [.free, .ctx0, .ctx1, .pages, .prefixes, .host, .keep, .snags, .snagNext, .out] L := by exact sub (by assumption) (by decide)) : Kept L s₀ (s.keepAtEnd p r).1 := by
  unfold State.keepAtEnd
  split
  · split
    · lift_lets
      intro c n
      refine Kept.ite_fst (fun _ => h) fun _ => ?_
      split
      · rename_i e
        exact keepPrefix_kept h _ _ _ _ _ e (sub hl (by decide))
      · exact h
    · exact h
  · exact h

theorem modReq_kept (h : Kept L s₀ s) (fn id : Nat) (f : Req → Req)
    (hl : Within [.reqs] L := by exact sub (by assumption) (by decide)) : Kept L s₀ (s.modReq fn id f) := by
  unfold State.modReq
  repeat' first
    | with_reducible exact sub (by assumption) (by decide)
    | with_reducible assumption
    | with_reducible refine Kept.same ?_

theorem dropReq_kept (h : Kept L s₀ s) (r : Req)
    (hl : Within [.reqs] L := by exact sub (by assumption) (by decide)) : Kept L s₀ (s.dropReq r) := by
  unfold State.dropReq
  repeat' first
    | with_reducible exact sub (by assumption) (by decide)
    | with_reducible assumption
    | with_reducible refine Kept.same ?_

theorem countFn_kept (h : Kept L s₀ s) (fn off : Nat)
    (hl : Within [.host] L := by exact sub (by assumption) (by decide)) : Kept L s₀ (s.countFn fn off) := by
  unfold State.countFn
  repeat' first
    | with_reducible exact sub (by assumption) (by decide)
    | with_reducible assumption
    | with_reducible apply modHost_kept
    | exact fun _ h => h

theorem dropPrefix_kept (h : Kept L s₀ s) (idx : Nat) (p : Prefix)
    (hl : Within [.ctx0, .ctx1, .prefixes] L := by exact sub (by assumption) (by decide)) : Kept L s₀ (s.dropPrefix idx p) := by
  unfold State.dropPrefix
  repeat' first
    | with_reducible exact sub (by assumption) (by decide)
    | with_reducible assumption
    | with_reducible apply freePage_kept
    | with_reducible refine foldl_kept (fun _ _ _ => ?_) ?_
    | with_reducible refine Kept.same ?_

theorem openSeq_kept (h : Kept L s₀ s) (p : Loaded) (slot tenant lpn cls : Nat) (seed : BitVec 64) (use : Bool) (pre : Option Prefix) (start : Option Nat)
    (hl : Within [.ctx0, .ctx1, .pages, .host, .snags, .snagNext, .out] L := by exact sub (by assumption) (by decide)) : Kept L s₀ (s.openSeq p slot tenant lpn cls seed use pre start) := by
  unfold State.openSeq
  repeat' first
    | with_reducible exact sub (by assumption) (by decide)
    | with_reducible assumption
    | with_reducible apply openTable_kept
    | with_reducible apply usePrefix_kept
    | with_reducible apply modCtx_kept
    | exact fun h => h
    | exact fun _ h => h
    | decide
    | exact fun _ h => mset_canonical h _ _
    | exact fun _ h => Bay.invalidate_canonical h
    | exact fun _ h => canonical_nil _
    | exact fun _ h => Bay.storeLine_canonical h _ _
    | exact fun _ h => Bay.writeLine_canonical h _ _ _ _ _
    | exact fun _ hx => Panel.commitRow_canonical hx _ _ _
    | exact fun _ h => CtxDie.zeroPage_canonical h _
    | (intro _ h; split <;> exact h)
    | with_reducible refine Kept.ite (fun _ => ?_) (fun _ => ?_)
    | with_reducible refine Kept.ite_fst (fun _ => ?_) (fun _ => ?_)
    | refine fun _ _ _ => ?_
    | (lift_lets; intro _)
    | split
    | with_reducible refine Kept.same ?_

theorem closeSeq_kept (h : Kept L s₀ s) (p : Loaded) (slot : Nat)
    (hl : Within [.ctx0, .ctx1, .pages] L := by exact sub (by assumption) (by decide)) : Kept L s₀ (s.closeSeq p slot) := by
  unfold State.closeSeq
  repeat' first
    | with_reducible exact sub (by assumption) (by decide)
    | with_reducible assumption
    | with_reducible apply modCtx_kept
    | with_reducible apply releaseSeq_kept
    | exact fun _ h => h
    | split

theorem giveOuts_kept (h : Kept L s₀ s) (r : Req) (l : Layout)
    (hl : Within [.out] L := by exact sub (by assumption) (by decide)) : Kept L s₀ (s.giveOuts r l).1 := by
  unfold State.giveOuts
  repeat' first
    | with_reducible exact sub (by assumption) (by decide)
    | with_reducible assumption
    | with_reducible apply hostWrite_kept
    | with_reducible refine Kept.ite (fun _ => ?_) (fun _ => ?_)
    | with_reducible refine Kept.ite_fst (fun _ => ?_) (fun _ => ?_)

theorem tellRetired_kept (h : Kept L s₀ s) (p : Loaded) (r : Req) (handle : Nat)
    (hl : Within [.plans] L := by exact sub (by assumption) (by decide)) : Kept L s₀ (s.tellRetired p r handle) := by
  unfold State.tellRetired
  repeat' first
    | with_reducible exact sub (by assumption) (by decide)
    | with_reducible assumption
    | with_reducible apply modPlan_kept
    | exact fun h => h
    | exact fun _ h => h
    | decide
    | exact fun _ h => mset_canonical h _ _
    | exact fun _ h => Bay.invalidate_canonical h
    | exact fun _ h => canonical_nil _
    | exact fun _ h => Bay.storeLine_canonical h _ _
    | exact fun _ h => Bay.writeLine_canonical h _ _ _ _ _
    | exact fun _ hx => Panel.commitRow_canonical hx _ _ _
    | exact fun _ h => CtxDie.zeroPage_canonical h _
    | with_reducible refine Kept.ite (fun _ => ?_) (fun _ => ?_)
    | with_reducible refine Kept.ite_fst (fun _ => ?_) (fun _ => ?_)
    | refine fun _ _ _ => ?_
    | (lift_lets; intro _)
    | split

theorem retire_kept (h : Kept L s₀ s) (p : Loaded) (r : Req) (status reason : Nat)
    (hl : Within [.free, .ctx0, .ctx1, .pages, .prefixes, .plans, .reqs, .host, .keep, .snags, .snagNext, .out] L := by exact sub (by assumption) (by decide)) : Kept L s₀ (s.retire p r status reason) := by
  unfold State.retire
  repeat' first
    | with_reducible exact sub (by assumption) (by decide)
    | with_reducible assumption
    | with_reducible apply giveOuts_kept
    | with_reducible apply keepAtEnd_kept
    | with_reducible apply hostWrite_kept
    | with_reducible apply raise_kept
    | with_reducible apply countFn_kept
    | with_reducible apply tellRetired_kept
    | with_reducible apply dropReq_kept
    | exact fun h => h
    | exact fun _ h => h
    | decide
    | exact fun _ h => mset_canonical h _ _
    | exact fun _ h => Bay.invalidate_canonical h
    | exact fun _ h => canonical_nil _
    | exact fun _ h => Bay.storeLine_canonical h _ _
    | exact fun _ h => Bay.writeLine_canonical h _ _ _ _ _
    | exact fun _ hx => Panel.commitRow_canonical hx _ _ _
    | exact fun _ h => CtxDie.zeroPage_canonical h _
    | with_reducible refine Kept.ite (fun _ => ?_) (fun _ => ?_)
    | with_reducible refine Kept.ite_fst (fun _ => ?_) (fun _ => ?_)

theorem sweep_kept (h : Kept L s₀ s) (id : Nat)
    (hl : Within [.ctx0, .ctx1, .pages, .plans] L := by exact sub (by assumption) (by decide)) : Kept L s₀ (s.sweep id) := by
  unfold State.sweep
  repeat' first
    | with_reducible exact sub (by assumption) (by decide)
    | with_reducible assumption
    | with_reducible apply closeSeq_kept
    | with_reducible apply modPlan_kept
    | with_reducible refine foldl_kept (fun _ _ _ => ?_) ?_
    | with_reducible refine Kept.ite (fun _ => ?_) (fun _ => ?_)
    | split

theorem removeReq_kept (h : Kept L s₀ s) (p : Loaded) (r : Req)
    (hl : Within [.plans, .reqs] L := by exact sub (by assumption) (by decide)) : Kept L s₀ (s.removeReq p r) := by
  unfold State.removeReq
  repeat' first
    | with_reducible exact sub (by assumption) (by decide)
    | with_reducible assumption
    | with_reducible apply tellRetired_kept
    | with_reducible apply dropReq_kept

theorem endReq_kept (h : Kept L s₀ s) (p : Loaded) (r : Req) (status reason : Nat)
    (hl : Within [.free, .ctx0, .ctx1, .pages, .prefixes, .plans, .reqs, .host, .keep, .snags, .snagNext, .out] L := by exact sub (by assumption) (by decide)) : Kept L s₀ (s.endReq p r status reason) := by
  unfold State.endReq
  repeat' first
    | with_reducible exact sub (by assumption) (by decide)
    | with_reducible assumption
    | with_reducible apply removeReq_kept
    | with_reducible apply retire_kept
    | exact fun h => h
    | exact fun _ h => h
    | decide
    | exact fun _ h => mset_canonical h _ _
    | exact fun _ h => Bay.invalidate_canonical h
    | exact fun _ h => canonical_nil _
    | exact fun _ h => Bay.storeLine_canonical h _ _
    | exact fun _ h => Bay.writeLine_canonical h _ _ _ _ _
    | exact fun _ hx => Panel.commitRow_canonical hx _ _ _
    | exact fun _ h => CtxDie.zeroPage_canonical h _
    | with_reducible refine Kept.ite (fun _ => ?_) (fun _ => ?_)

theorem endRequests_kept (h : Kept L s₀ s) (p : Loaded) (status reason : Nat)
    (hl : Within [.free, .ctx0, .ctx1, .pages, .prefixes, .plans, .reqs, .host, .keep, .snags, .snagNext, .out] L := by exact sub (by assumption) (by decide)) : Kept L s₀ (s.endRequests p status reason) := by
  unfold State.endRequests
  repeat' first
    | with_reducible exact sub (by assumption) (by decide)
    | with_reducible assumption
    | with_reducible apply endReq_kept
    | with_reducible apply sweep_kept
    | with_reducible refine foldl_kept (fun _ _ _ => ?_) ?_

theorem accept_kept (h : Kept L s₀ s) (fn : Nat) (c : Cmd) (p : Loaded) (bound : Nat) (input : List Byte)
    (hl : Within [.free, .reqs, .host, .keep] L := by exact sub (by assumption) (by decide)) :
    Kept L s₀ (s.accept fn c p bound input).1 := by
  unfold State.accept
  repeat' first
    | with_reducible exact sub (by assumption) (by decide)
    | with_reducible assumption
    | with_reducible apply random_kept
    | with_reducible apply modHost_kept
    | with_reducible apply countFn_kept
    | exact fun _ h => h
    | with_reducible refine Kept.ite_fst (fun _ => ?_) (fun _ => ?_)
    | (lift_lets; intro s1; have hs1 : Kept L s₀ s1 := ?_; clear_value s1)
    | split
    | with_reducible refine Kept.same ?_

theorem clearSel_kept (h : Kept L s₀ s)
    (hl : Within [.weights] L := by exact sub (by assumption) (by decide)) : Kept L s₀ (s.clearSel) := by
  unfold State.clearSel
  repeat' first
    | with_reducible exact sub (by assumption) (by decide)
    | with_reducible assumption
    | (lift_lets; intro _)
    | with_reducible refine Kept.same ?_

theorem finishSelect_kept (h : Kept L s₀ s)
    (hl : Within [.weights, .host, .snags, .snagNext, .out] L := by exact sub (by assumption) (by decide)) : Kept L s₀ s.finishSelect := by
  unfold State.finishSelect
  split
  · exact completeWaits_kept (clearSel_kept (Kept.ite (fun _ => snagCtl_kept h _ _ _) fun _ => h)) _ _ _ _
  · exact h

theorem flipRec_kept (h : Kept L s₀ s) (k : Nat) (d : BitVec 512)
    (hl : Within [.weights] L := by exact sub (by assumption) (by decide)) : Kept L s₀ (s.flipRec k d) := by
  unfold State.flipRec
  repeat' first
    | with_reducible exact sub (by assumption) (by decide)
    | with_reducible assumption
    | with_reducible apply setBank_kept

theorem flipNow_kept (h : Kept L s₀ s) (k : Nat) (d : BitVec 512)
    (hl : Within [.panels, .bays, .weights] L := by exact sub (by assumption) (by decide)) : Kept L s₀ (s.flipNow k d) := by
  unfold State.flipNow
  repeat' first
    | with_reducible exact sub (by assumption) (by decide)
    | with_reducible assumption
    | with_reducible apply flipRec_kept
    | with_reducible apply modPanel_kept
    | with_reducible apply modBay_kept
    | exact fun h => h
    | exact fun _ h => h

theorem modSel_kept (h : Kept L s₀ s) (f : Select → Select)
    (hl : Within [.weights] L := by exact sub (by assumption) (by decide)) : Kept L s₀ (s.modSel f) := by
  unfold State.modSel
  repeat' first
    | with_reducible exact sub (by assumption) (by decide)
    | with_reducible assumption
    | (lift_lets; intro _)
    | with_reducible refine Kept.same ?_

theorem planSwapped_kept (h : Kept L s₀ s) (p : Loaded)
    (hl : Within [.weights, .host, .snags, .snagNext, .out] L := by exact sub (by assumption) (by decide)) : Kept L s₀ (s.planSwapped p) := by
  unfold State.planSwapped
  repeat' first
    | with_reducible exact sub (by assumption) (by decide)
    | with_reducible assumption
    | with_reducible apply modSel_kept
    | with_reducible apply finishSelect_kept
    | with_reducible refine Kept.ite (fun _ => ?_) (fun _ => ?_)
    | (lift_lets; intro _)
    | split
    | with_reducible refine Kept.same ?_

theorem flipPlan_kept (h : Kept L s₀ s) (p : Loaded)
    (hl : Within [.panels, .bays, .weights, .host, .snags, .snagNext, .out] L := by exact sub (by assumption) (by decide)) : Kept L s₀ (s.flipPlan p) := by
  unfold State.flipPlan
  repeat' first
    | with_reducible exact sub (by assumption) (by decide)
    | with_reducible assumption
    | with_reducible apply flipNow_kept
    | with_reducible apply planSwapped_kept
    | with_reducible refine foldl_kept (fun _ _ _ => ?_) ?_

theorem drainIdle_kept (h : Kept L s₀ s) (p : Loaded)
    (hl : Within [.panels, .bays, .weights, .host, .snags, .snagNext, .out] L := by exact sub (by assumption) (by decide)) : Kept L s₀ (s.drainIdle p) := by
  unfold State.drainIdle
  repeat' first
    | with_reducible exact sub (by assumption) (by decide)
    | with_reducible assumption
    | with_reducible apply flipPlan_kept
    | with_reducible refine Kept.ite (fun _ => ?_) (fun _ => ?_)

theorem beginSwap_kept (h : Kept L s₀ s)
    (hl : Within [.panels, .bays, .weights, .host, .snags, .snagNext, .out] L := by exact sub (by assumption) (by decide)) : Kept L s₀ (s.beginSwap) := by
  unfold State.beginSwap
  repeat' first
    | with_reducible exact sub (by assumption) (by decide)
    | with_reducible assumption
    | with_reducible apply flipNow_kept
    | with_reducible apply modSel_kept
    | with_reducible apply finishSelect_kept
    | with_reducible apply drainIdle_kept
    | with_reducible refine foldl_kept (fun _ _ _ => ?_) ?_
    | with_reducible refine Kept.ite (fun _ => ?_) (fun _ => ?_)
    | (lift_lets; intro _)
    | split

theorem endSelect_kept (h : Kept L s₀ s) (status detail cause : Nat)
    (hl : Within [.weights, .host, .snags, .snagNext, .out] L := by exact sub (by assumption) (by decide)) : Kept L s₀ (s.endSelect status detail cause) := by
  unfold State.endSelect
  repeat' first
    | with_reducible exact sub (by assumption) (by decide)
    | with_reducible assumption
    | with_reducible apply setBank_kept
    | with_reducible apply snagCtl_kept
    | with_reducible apply clearSel_kept
    | with_reducible apply completeWaits_kept
    | with_reducible refine foldl_kept (fun _ _ _ => ?_) ?_
    | exact fun h => h
    | exact fun _ h => h
    | decide
    | exact fun _ h => mset_canonical h _ _
    | exact fun _ h => Bay.invalidate_canonical h
    | exact fun _ h => canonical_nil _
    | exact fun _ h => Bay.storeLine_canonical h _ _
    | exact fun _ h => Bay.writeLine_canonical h _ _ _ _ _
    | exact fun _ hx => Panel.commitRow_canonical hx _ _ _
    | exact fun _ h => CtxDie.zeroPage_canonical h _
    | with_reducible refine Kept.ite (fun _ => ?_) (fun _ => ?_)
    | with_reducible refine Kept.ite_fst (fun _ => ?_) (fun _ => ?_)
    | refine fun _ _ _ => ?_
    | split

theorem setFormat_kept (h : Kept L s₀ s) (k bank : Nat) (width : Nat) (sgn : Bool)
    (hl : Within [.panels, .bays] L := by exact sub (by assumption) (by decide)) : Kept L s₀ (s.setFormat k bank width sgn) := by
  unfold State.setFormat
  repeat' first
    | with_reducible exact sub (by assumption) (by decide)
    | with_reducible assumption
    | with_reducible apply modPanel_kept
    | with_reducible apply boundaryIf_kept
    | exact fun _ h => h

theorem sendRows_kept (h : Kept L s₀ s) (l : List Nat)
    (hl : Within [.rtrs, .host, .snags, .snagNext, .out] L := by exact sub (by assumption) (by decide)) : Kept L s₀ (s.sendRows l) := by
  unfold State.sendRows
  repeat' first
    | with_reducible exact sub (by assumption) (by decide)
    | with_reducible assumption
    | with_reducible apply toBay_kept
    | with_reducible refine foldl_kept (fun _ _ _ => ?_) ?_
    | exact fun h => h
    | exact fun _ h => h
    | decide
    | exact fun _ h => mset_canonical h _ _
    | exact fun _ h => Bay.invalidate_canonical h
    | exact fun _ h => canonical_nil _
    | exact fun _ h => Bay.storeLine_canonical h _ _
    | exact fun _ h => Bay.writeLine_canonical h _ _ _ _ _
    | exact fun _ hx => Panel.commitRow_canonical hx _ _ _
    | exact fun _ h => CtxDie.zeroPage_canonical h _
    | with_reducible refine Kept.ite (fun _ => ?_) (fun _ => ?_)
    | with_reducible refine Kept.ite_fst (fun _ => ?_) (fun _ => ?_)
    | refine fun _ _ _ => ?_
    | split

theorem beginSelect_kept (h : Kept L s₀ s) (idx : Nat) (loadOnly switch : Bool) (cmd : Option Nat)
    (hl : Within [.panels, .bays, .rtrs, .weights, .host, .snags, .snagNext, .out] L := by exact sub (by assumption) (by decide)) : Kept L s₀ (s.beginSelect idx loadOnly switch cmd) := by
  unfold State.beginSelect
  repeat' first
    | with_reducible exact sub (by assumption) (by decide)
    | with_reducible assumption
    | with_reducible apply completeWaits_kept
    | with_reducible apply finishSelect_kept
    | with_reducible apply beginSwap_kept
    | with_reducible apply endSelect_kept
    | with_reducible apply setFormat_kept
    | with_reducible apply setBank_kept
    | with_reducible apply sendRows_kept
    | with_reducible refine foldl_kept (fun _ _ _ => ?_) ?_
    | exact fun h => h
    | exact fun _ h => h
    | decide
    | exact fun _ h => mset_canonical h _ _
    | exact fun _ h => Bay.invalidate_canonical h
    | exact fun _ h => canonical_nil _
    | exact fun _ h => Bay.storeLine_canonical h _ _
    | exact fun _ h => Bay.writeLine_canonical h _ _ _ _ _
    | exact fun _ hx => Panel.commitRow_canonical hx _ _ _
    | exact fun _ h => CtxDie.zeroPage_canonical h _
    | with_reducible refine Kept.ite (fun _ => ?_) (fun _ => ?_)
    | with_reducible refine Kept.ite_fst (fun _ => ?_) (fun _ => ?_)
    | refine fun _ _ _ => ?_
    | (lift_lets; intro _)
    | split
    | with_reducible refine Kept.same ?_

theorem runStarts_kept {s₀ : State} (l : List (Nat × Bool × Bool))
    (hl : Within [.panels, .bays, .rtrs, .weights, .host, .snags, .snagNext, .out] L := by exact sub (by assumption) (by decide)) : ∀ {s : State}, Kept L s₀ s → Kept L s₀ (State.runStarts l s) := by
  induction l with
  | nil =>
    intro s h
    unfold State.runStarts
    with_reducible exact Kept.same h
  | cons e l ih =>
    intro s h
    unfold State.runStarts
    refine Kept.ite (fun _ => ?_) fun _ => Kept.ite (fun _ => ih (snagCtl_kept h _ _ _)) fun _ => Kept.ite (fun _ => ih h) fun _ =>
      ih (beginSelect_kept h _ _ _ _)
    with_reducible exact Kept.same h

theorem pumpStarts_kept (h : Kept L s₀ s)
    (hl : Within [.panels, .bays, .rtrs, .weights, .host, .snags, .snagNext, .out] L := by exact sub (by assumption) (by decide)) : Kept L s₀ s.pumpStarts :=
  Kept.ite (fun _ => (runStarts_kept _) h) fun _ => h

theorem armSwap_kept (h : Kept L s₀ s) (p : Loaded)
    (hl : Within [.rtrs, .host, .snags, .snagNext, .out] L := by exact sub (by assumption) (by decide)) : Kept L s₀ (s.armSwap p) := by
  unfold State.armSwap
  repeat' first
    | with_reducible exact sub (by assumption) (by decide)
    | with_reducible assumption
    | with_reducible apply toBay_kept
    | with_reducible refine foldl_kept (fun _ _ _ => ?_) ?_
    | exact fun h => h
    | exact fun _ h => h
    | decide
    | exact fun _ h => mset_canonical h _ _
    | exact fun _ h => Bay.invalidate_canonical h
    | exact fun _ h => canonical_nil _
    | exact fun _ h => Bay.storeLine_canonical h _ _
    | exact fun _ h => Bay.writeLine_canonical h _ _ _ _ _
    | exact fun _ hx => Panel.commitRow_canonical hx _ _ _
    | exact fun _ h => CtxDie.zeroPage_canonical h _
    | with_reducible refine Kept.ite (fun _ => ?_) (fun _ => ?_)

theorem sendFlips_kept (h : Kept L s₀ s) (p : Loaded)
    (hl : Within [.rtrs, .host, .snags, .snagNext, .out] L := by exact sub (by assumption) (by decide)) : Kept L s₀ (s.sendFlips p) := by
  unfold State.sendFlips
  repeat' first
    | with_reducible exact sub (by assumption) (by decide)
    | with_reducible assumption
    | with_reducible apply toBay_kept
    | with_reducible refine foldl_kept (fun _ _ _ => ?_) ?_

theorem swapDone_kept (h : Kept L s₀ s) (p : Loaded) (ns : Nat)
    (hl : Within [.weights, .host, .snags, .snagNext, .out] L := by exact sub (by assumption) (by decide)) : Kept L s₀ (s.swapDone p ns) := by
  unfold State.swapDone
  repeat' first
    | with_reducible exact sub (by assumption) (by decide)
    | with_reducible assumption
    | with_reducible apply flipRec_kept
    | with_reducible apply modSel_kept
    | with_reducible apply planSwapped_kept
    | with_reducible refine foldl_kept (fun _ _ _ => ?_) ?_
    | with_reducible refine Kept.ite (fun _ => ?_) (fun _ => ?_)

theorem rollback_kept (h : Kept L s₀ s) (p : Loaded)
    (hl : Within [.panels] L := by exact sub (by assumption) (by decide)) : Kept L s₀ (s.rollback p) := by
  unfold State.rollback
  repeat' first
    | with_reducible exact sub (by assumption) (by decide)
    | with_reducible assumption
    | with_reducible apply modPanel_kept
    | with_reducible refine foldl_kept (fun _ _ _ => ?_) ?_
    | exact fun _ h => h

theorem loadDone_kept (h : Kept L s₀ s)
    (hl : Within [.panels, .bays, .weights, .host, .snags, .snagNext, .out] L := by exact sub (by assumption) (by decide)) : Kept L s₀ (s.loadDone) := by
  unfold State.loadDone
  repeat' first
    | with_reducible exact sub (by assumption) (by decide)
    | with_reducible assumption
    | with_reducible apply setBank_kept
    | with_reducible apply finishSelect_kept
    | with_reducible apply beginSwap_kept
    | with_reducible refine foldl_kept (fun _ _ _ => ?_) ?_
    | with_reducible refine Kept.ite (fun _ => ?_) (fun _ => ?_)
    | split

theorem sendArms_kept (h : Kept L s₀ s) (l : List Armed)
    (hl : Within [.rtrs, .host, .snags, .snagNext, .out] L := by exact sub (by assumption) (by decide)) : Kept L s₀ (s.sendArms l) := by
  unfold State.sendArms
  repeat' first
    | with_reducible exact sub (by assumption) (by decide)
    | with_reducible assumption
    | with_reducible apply toBay_kept
    | with_reducible refine foldl_kept (fun _ _ _ => ?_) ?_

theorem sendInputs_kept (h : Kept L s₀ s) (p : Loaded) (run : StepRun)
    (hl : Within [.rtrs, .host, .snags, .snagNext, .out] L := by exact sub (by assumption) (by decide)) : Kept L s₀ (s.sendInputs p run) := by
  unfold State.sendInputs
  repeat' first
    | with_reducible exact sub (by assumption) (by decide)
    | with_reducible assumption
    | with_reducible apply toBay_kept
    | with_reducible refine foldl_kept (fun _ _ _ => ?_) ?_
    | exact fun h => h
    | exact fun _ h => h
    | decide
    | exact fun _ h => mset_canonical h _ _
    | exact fun _ h => Bay.invalidate_canonical h
    | exact fun _ h => canonical_nil _
    | exact fun _ h => Bay.storeLine_canonical h _ _
    | exact fun _ h => Bay.writeLine_canonical h _ _ _ _ _
    | exact fun _ hx => Panel.commitRow_canonical hx _ _ _
    | exact fun _ h => CtxDie.zeroPage_canonical h _
    | with_reducible refine Kept.ite (fun _ => ?_) (fun _ => ?_)
    | with_reducible refine Kept.ite_fst (fun _ => ?_) (fun _ => ?_)
    | refine fun _ _ _ => ?_
    | (lift_lets; intro _)
    | split

theorem sendOrders_kept (h : Kept L s₀ s) (p : Loaded) (run : StepRun) (rerun : Bool)
    (hl : Within [.fab, .out] L := by exact sub (by assumption) (by decide)) : Kept L s₀ (s.sendOrders p run rerun) := by
  unfold State.sendOrders
  repeat' first
    | with_reducible exact sub (by assumption) (by decide)
    | with_reducible assumption
    | with_reducible apply sendFab_kept
    | with_reducible refine foldl_kept (fun _ _ _ => ?_) ?_

theorem sendStep_kept (h : Kept L s₀ s) (p : Loaded) (run : StepRun) (rerun drained : Bool)
    (hl : Within [.panels, .bays, .rtrs, .plans, .weights, .fab, .host, .snags, .snagNext, .out] L := by exact sub (by assumption) (by decide)) : Kept L s₀ (s.sendStep p run rerun drained) := by
  unfold State.sendStep
  repeat' first
    | with_reducible exact sub (by assumption) (by decide)
    | with_reducible assumption
    | with_reducible apply sendArms_kept
    | with_reducible apply sendInputs_kept
    | with_reducible apply armSwap_kept
    | with_reducible apply flipPlan_kept
    | with_reducible apply sendOrders_kept
    | with_reducible apply toBay_kept
    | with_reducible apply sendFlips_kept
    | with_reducible apply modPlan_kept
    | with_reducible refine foldl_kept (fun _ _ _ => ?_) ?_
    | exact fun h => h
    | exact fun _ h => h
    | decide
    | exact fun _ h => mset_canonical h _ _
    | exact fun _ h => Bay.invalidate_canonical h
    | exact fun _ h => canonical_nil _
    | exact fun _ h => Bay.storeLine_canonical h _ _
    | exact fun _ h => Bay.writeLine_canonical h _ _ _ _ _
    | exact fun _ hx => Panel.commitRow_canonical hx _ _ _
    | exact fun _ h => CtxDie.zeroPage_canonical h _
    | with_reducible refine Kept.ite (fun _ => ?_) (fun _ => ?_)

theorem markLate_kept (h : Kept L s₀ s) (p : Loaded) (run : StepRun) (measured : Nat)
    (hl : Within [.plans, .reqs, .host, .snags, .snagNext, .out] L := by exact sub (by assumption) (by decide)) : Kept L s₀ (s.markLate p run measured) := by
  unfold State.markLate
  repeat' first
    | with_reducible exact sub (by assumption) (by decide)
    | with_reducible assumption
    | with_reducible apply modReq_kept
    | with_reducible apply snagCtl_kept
    | with_reducible apply modPlan_kept
    | with_reducible refine foldl_kept (fun _ _ _ => ?_) ?_
    | with_reducible refine Kept.ite (fun _ => ?_) (fun _ => ?_)
    | split

theorem measure_kept (h : Kept L s₀ s) (id ns : Nat)
    (hl : Within [.plans, .reqs, .host, .snags, .snagNext, .out] L := by exact sub (by assumption) (by decide)) : Kept L s₀ (s.measure id ns) := by
  unfold State.measure
  repeat' first
    | with_reducible exact sub (by assumption) (by decide)
    | with_reducible assumption
    | with_reducible apply modPlan_kept
    | with_reducible apply markLate_kept
    | with_reducible refine Kept.ite (fun _ => ?_) (fun _ => ?_)
    | (lift_lets; intro s1; have hs1 : Kept L s₀ s1 := ?_; clear_value s1)
    | split

theorem sendReport_kept (h : Kept L s₀ s) (id : Nat)
    (hl : Within [.fab, .out] L := by exact sub (by assumption) (by decide)) : Kept L s₀ (s.sendReport id) := by
  unfold State.sendReport
  repeat' first
    | with_reducible exact sub (by assumption) (by decide)
    | with_reducible assumption
    | with_reducible apply sendFab_kept
    | split

theorem stepCheck_kept (h : Kept L s₀ s) (id : Nat)
    (hl : Within [.plans, .reqs, .weights, .fab, .host, .snags, .snagNext, .out] L := by exact sub (by assumption) (by decide)) : Kept L s₀ (s.stepCheck id) := by
  unfold State.stepCheck
  repeat' first
    | with_reducible exact sub (by assumption) (by decide)
    | with_reducible assumption
    | with_reducible apply measure_kept
    | with_reducible apply modPlan_kept
    | with_reducible apply swapDone_kept
    | with_reducible apply sendReport_kept
    | with_reducible refine Kept.ite (fun _ => ?_) (fun _ => ?_)
    | split

theorem takeCtl_kept (h : Kept L s₀ s) (ms : List MLine)
    (hl : Within [.edgeQ, .host, .out] L := by exact sub (by assumption) (by decide)) : Kept.Opt L s₀ (s.takeCtl ms) := by
  unfold State.takeCtl
  split
  · exact .none
  · dsimp only
    split
    · rename_i e
      obtain ⟨l, _, e⟩ := List.exists_of_findSome?_eq_some e
      split at e
      · exact .some ((takeEdge_kept h _ _ _) _ e)
      · nomatch e
    · exact .ite (fun _ => .none) fun _ => .some h

theorem execResultMessage_kept (h : Kept L s₀ s) (t : Nat) (ms : List MLine)
    (hl : Within [.now, .edgeQ, .plans, .reqs, .weights, .fab, .host, .snags, .snagNext, .out] L := by exact sub (by assumption) (by decide)) : Kept.Out L s₀ (execResultMessage t ms s) := by
  have g := tick_kept h t
  unfold execResultMessage
  generalize s.tick t = u at g ⊢
  refine .next ?_
  have e := takeCtl_kept g ms
  dsimp only
  split
  · have e' := e _ ‹_›
    refine Kept.ite (fun _ => e') fun _ => ?_
    split
    · exact stepCheck_kept (modPlan_kept e' _ _) _
    · exact e'
  · exact g

theorem execPrefixKeep_kept (h : Kept L s₀ s) (t fn slot : Nat)
    (hl : Within [.now, .free, .ctx0, .ctx1, .pages, .prefixes, .host, .keep, .snags, .snagNext, .out] L := by exact sub (by assumption) (by decide)) : Kept.Out L s₀ (execPrefixKeep t fn slot s) := by
  unfold execPrefixKeep
  refine .next (runCmd_kept (tick_kept h t) _ _ _ _ _ _ fun s c g => ?_)
  split
  · exact g
  · split
    · refine .ite (fun _ => g) fun _ => .ite (fun _ => g) fun _ => ?_
      split
      · exact g
      · dsimp only
        refine .ite (fun _ => g) fun _ => .ite (fun _ => g) fun _ => ?_
        split
        · exact keepPrefix_kept g _ _ _ _ _ ‹_› (sub hl (by decide))
        · exact g
    · exact g

theorem deliverSlot_kept (h : Kept L s₀ s) (p : Loaded) (run : StepRun) (slot : Nat)
    (hl : Within [.free, .ctx0, .ctx1, .pages, .prefixes, .plans, .reqs, .host, .keep, .snags, .snagNext, .out] L := by exact sub (by assumption) (by decide)) : Kept L s₀ (s.deliverSlot p run slot) := by
  unfold State.deliverSlot
  repeat' first
    | with_reducible exact sub (by assumption) (by decide)
    | with_reducible assumption
    | with_reducible apply removeReq_kept
    | with_reducible apply retire_kept
    | with_reducible apply giveOuts_kept
    | with_reducible apply modReq_kept
    | exact fun h => h
    | exact fun _ h => h
    | decide
    | exact fun _ h => mset_canonical h _ _
    | exact fun _ h => Bay.invalidate_canonical h
    | exact fun _ h => canonical_nil _
    | exact fun _ h => Bay.storeLine_canonical h _ _
    | exact fun _ h => Bay.writeLine_canonical h _ _ _ _ _
    | exact fun _ hx => Panel.commitRow_canonical hx _ _ _
    | exact fun _ h => CtxDie.zeroPage_canonical h _
    | (intro _ h; split <;> exact h)
    | with_reducible refine Kept.ite (fun _ => ?_) (fun _ => ?_)
    | with_reducible refine Kept.ite_fst (fun _ => ?_) (fun _ => ?_)
    | refine fun _ _ _ => ?_
    | (lift_lets; intro _)
    | split

theorem testPlaced_kept (h : Kept L s₀ s) (p : Loaded) (slot : Nat)
    (hl : Within [.free, .ctx0, .ctx1, .pages, .prefixes, .plans, .reqs, .host, .keep, .snags, .snagNext, .out] L := by exact sub (by assumption) (by decide)) : Kept L s₀ (s.testPlaced p slot) := by
  unfold State.testPlaced
  repeat' first
    | with_reducible exact sub (by assumption) (by decide)
    | with_reducible assumption
    | with_reducible apply removeReq_kept
    | with_reducible apply retire_kept
    | exact fun h => h
    | exact fun _ h => h
    | decide
    | exact fun _ h => mset_canonical h _ _
    | exact fun _ h => Bay.invalidate_canonical h
    | exact fun _ h => canonical_nil _
    | exact fun _ h => Bay.storeLine_canonical h _ _
    | exact fun _ h => Bay.writeLine_canonical h _ _ _ _ _
    | exact fun _ hx => Panel.commitRow_canonical hx _ _ _
    | exact fun _ h => CtxDie.zeroPage_canonical h _
    | with_reducible refine Kept.ite (fun _ => ?_) (fun _ => ?_)
    | with_reducible refine Kept.ite_fst (fun _ => ?_) (fun _ => ?_)
    | refine fun _ _ _ => ?_
    | split

theorem deliverAll_kept (h : Kept L s₀ s) (p : Loaded)
    (hl : Within [.free, .ctx0, .ctx1, .pages, .prefixes, .plans, .reqs, .host, .keep, .snags, .snagNext, .out] L := by exact sub (by assumption) (by decide)) : Kept L s₀ (s.deliverAll p) := by
  unfold State.deliverAll
  repeat' first
    | with_reducible exact sub (by assumption) (by decide)
    | with_reducible assumption
    | with_reducible apply deliverSlot_kept
    | with_reducible apply testPlaced_kept
    | with_reducible apply removeReq_kept
    | with_reducible apply retire_kept
    | with_reducible refine foldl_kept (fun _ _ _ => ?_) ?_
    | exact fun h => h
    | exact fun _ h => h
    | decide
    | exact fun _ h => mset_canonical h _ _
    | exact fun _ h => Bay.invalidate_canonical h
    | exact fun _ h => canonical_nil _
    | exact fun _ h => Bay.storeLine_canonical h _ _
    | exact fun _ h => Bay.writeLine_canonical h _ _ _ _ _
    | exact fun _ hx => Panel.commitRow_canonical hx _ _ _
    | exact fun _ h => CtxDie.zeroPage_canonical h _
    | with_reducible refine Kept.ite (fun _ => ?_) (fun _ => ?_)

theorem place_kept (h : Kept L s₀ s) (p : Loaded) (slot : Nat)
    (hl : Within [.ctx0, .ctx1, .pages, .plans, .reqs, .host, .snags, .snagNext, .out] L := by exact sub (by assumption) (by decide)) : Kept L s₀ (s.place p slot) := by
  unfold State.place
  repeat' first
    | with_reducible exact sub (by assumption) (by decide)
    | with_reducible assumption
    | with_reducible apply modReq_kept
    | with_reducible apply modPlan_kept
    | with_reducible apply openSeq_kept
    | exact fun h => h
    | exact fun _ h => h
    | decide
    | exact fun _ h => mset_canonical h _ _
    | exact fun _ h => Bay.invalidate_canonical h
    | exact fun _ h => canonical_nil _
    | exact fun _ h => Bay.storeLine_canonical h _ _
    | exact fun _ h => Bay.writeLine_canonical h _ _ _ _ _
    | exact fun _ hx => Panel.commitRow_canonical hx _ _ _
    | exact fun _ h => CtxDie.zeroPage_canonical h _
    | with_reducible refine Kept.ite (fun _ => ?_) (fun _ => ?_)
    | with_reducible refine Kept.ite_fst (fun _ => ?_) (fun _ => ?_)
    | refine fun _ _ _ => ?_
    | (lift_lets; intro _)
    | split

theorem launch_kept (h : Kept L s₀ s) (id : Nat) (drained : Bool)
    (hl : Within [.panels, .bays, .rtrs, .plans, .weights, .fab, .host, .snags, .snagNext, .out] L := by exact sub (by assumption) (by decide)) : Kept L s₀ (s.launch id drained) := by
  unfold State.launch
  repeat' first
    | with_reducible exact sub (by assumption) (by decide)
    | with_reducible assumption
    | with_reducible apply modPlan_kept
    | with_reducible apply sendStep_kept
    | split

theorem schedule_kept (h : Kept L s₀ s) (p : Loaded)
    (hl : Within [.free, .panels, .bays, .rtrs, .ctx0, .ctx1, .pages, .prefixes, .plans, .reqs, .weights, .fab, .host, .keep, .snags, .snagNext, .out] L := by exact sub (by assumption) (by decide)) : Kept L s₀ (s.schedule p) := by
  unfold State.schedule
  repeat' first
    | with_reducible exact sub (by assumption) (by decide)
    | with_reducible assumption
    | with_reducible apply swapDone_kept
    | with_reducible apply deliverAll_kept
    | with_reducible apply modPlan_kept
    | with_reducible apply sweep_kept
    | with_reducible apply launch_kept
    | with_reducible apply drainIdle_kept
    | with_reducible apply place_kept
    | with_reducible refine foldl_kept (fun _ _ _ => ?_) ?_
    | with_reducible refine Kept.ite (fun _ => ?_) (fun _ => ?_)
    | (lift_lets; intro _)
    | split
    | with_reducible refine Kept.same ?_

theorem execSchedulingPoint_kept (h : Kept L s₀ s) (t : Nat) (plan : Nat)
    (hl : Within [.now, .free, .panels, .bays, .rtrs, .ctx0, .ctx1, .pages, .prefixes, .plans, .reqs, .weights, .fab, .host, .keep, .snags, .snagNext, .out] L := by exact sub (by assumption) (by decide)) : Kept.Out L s₀ (execSchedulingPoint t plan s) := by
  unfold execSchedulingPoint
  repeat' first
    | with_reducible exact sub (by assumption) (by decide)
    | with_reducible assumption
    | with_reducible apply tick_kept
    | with_reducible apply schedule_kept
    | with_reducible apply pumpStarts_kept
    | with_reducible refine Kept.Out.next ?_
    | with_reducible refine Kept.ite (fun _ => ?_) (fun _ => ?_)
    | split

theorem execDeadlineExpiry_kept (h : Kept L s₀ s) (t fn id : Nat)
    (hl : Within [.now] L := by exact sub (by assumption) (by decide)) : Kept.Out L s₀ (execDeadlineExpiry t fn id s) := by
  unfold execDeadlineExpiry
  repeat' first
    | with_reducible exact sub (by assumption) (by decide)
    | with_reducible assumption
    | with_reducible apply tick_kept
    | with_reducible refine Kept.Out.next ?_
    | split

theorem execStepDoneNotice_kept (h : Kept L s₀ s) (t : Nat) (b : BayIx) (gen : BitVec 8)
    (hl : Within [.now, .plans, .reqs, .weights, .fab, .host, .snags, .snagNext, .out] L := by exact sub (by assumption) (by decide)) : Kept.Out L s₀ (execStepDoneNotice t b gen s) := by
  unfold execStepDoneNotice
  repeat' first
    | with_reducible exact sub (by assumption) (by decide)
    | with_reducible assumption
    | with_reducible apply tick_kept
    | with_reducible apply modPlan_kept
    | with_reducible apply measure_kept
    | with_reducible apply stepCheck_kept
    | with_reducible refine Kept.Out.next ?_
    | with_reducible refine Kept.ite (fun _ => ?_) (fun _ => ?_)
    | (lift_lets; intro _)
    | split

theorem execSubmit_kept (h : Kept L s₀ s) (t fn slot : Nat) (dma : HostRead)
    (hl : Within [.now, .free, .panels, .bays, .rtrs, .ctx0, .ctx1, .pages, .prefixes, .plans, .reqs, .weights, .fab, .host, .keep, .snags, .snagNext, .out] L := by exact sub (by assumption) (by decide)) : Kept.Out L s₀ (execSubmit t fn slot dma s) := by
  unfold execSubmit
  repeat' first
    | with_reducible exact sub (by assumption) (by decide)
    | with_reducible assumption
    | with_reducible apply tick_kept
    | with_reducible apply runOwn_kept
    | with_reducible apply dmaRead_kept
    | with_reducible apply accept_kept
    | with_reducible apply endRequests_kept
    | with_reducible apply schedule_kept
    | with_reducible refine Kept.Out.next ?_
    | with_reducible refine Kept.Out.ite (fun _ => ?_) (fun _ => ?_)
    | with_reducible refine Done.Kept.comp ?_
    | with_reducible refine Done.Kept.waits ?_
    | with_reducible refine Done.Kept.ite (fun _ => ?_) (fun _ => ?_)
    | exact fun h => h
    | exact fun _ h => h
    | decide
    | exact fun _ h => mset_canonical h _ _
    | exact fun _ h => Bay.invalidate_canonical h
    | exact fun _ h => canonical_nil _
    | exact fun _ h => Bay.storeLine_canonical h _ _
    | exact fun _ h => Bay.writeLine_canonical h _ _ _ _ _
    | exact fun _ hx => Panel.commitRow_canonical hx _ _ _
    | exact fun _ h => CtxDie.zeroPage_canonical h _
    | (intro _ h; split <;> exact h)
    | with_reducible refine Kept.ite (fun _ => ?_) (fun _ => ?_)
    | with_reducible refine Kept.ite_fst (fun _ => ?_) (fun _ => ?_)
    | refine fun _ _ _ => ?_
    | (lift_lets; intro _)
    | split

theorem execCancel_kept (h : Kept L s₀ s) (t fn slot : Nat)
    (hl : Within [.now, .free, .ctx0, .ctx1, .pages, .prefixes, .plans, .reqs, .host, .keep, .snags, .snagNext, .out] L := by exact sub (by assumption) (by decide)) : Kept.Out L s₀ (execCancel t fn slot s) := by
  unfold execCancel
  repeat' first
    | with_reducible exact sub (by assumption) (by decide)
    | with_reducible assumption
    | with_reducible apply tick_kept
    | with_reducible apply runCmd_kept
    | with_reducible apply retire_kept
    | with_reducible apply modReq_kept
    | with_reducible refine Kept.Out.next ?_
    | with_reducible refine Done.Kept.comp ?_
    | with_reducible refine Done.Kept.ite (fun _ => ?_) (fun _ => ?_)
    | refine fun _ _ _ => ?_
    | split

theorem execPrefixDrop_kept (h : Kept L s₀ s) (t fn slot : Nat)
    (hl : Within [.now, .ctx0, .ctx1, .prefixes, .host, .out] L := by exact sub (by assumption) (by decide)) : Kept.Out L s₀ (execPrefixDrop t fn slot s) := by
  unfold execPrefixDrop
  repeat' first
    | with_reducible exact sub (by assumption) (by decide)
    | with_reducible assumption
    | with_reducible apply tick_kept
    | with_reducible apply runCmd_kept
    | with_reducible apply dropPrefix_kept
    | with_reducible refine Kept.Out.next ?_
    | with_reducible refine Done.Kept.comp ?_
    | refine fun _ _ _ => ?_
    | split

theorem initSegs_canonical {y : Bay} (h : Canonical ({} : Line) y.sp) (e : PBay) : Canonical ({} : Line) (e.initSegs y).sp :=
  Bay.foldl_canonical (fun _ _ g => Bay.enterSeg_canonical g _ _) _ h

theorem takeBack_kept (h : Kept L s₀ s) (k : Nat)
    (hl : Within [.panels, .weights, .host, .snags, .snagNext, .out] L := by exact sub (by assumption) (by decide)) : Kept L s₀ (s.takeBack k) := by
  unfold State.takeBack
  repeat' first
    | with_reducible exact sub (by assumption) (by decide)
    | with_reducible assumption
    | with_reducible apply rollback_kept
    | with_reducible apply endSelect_kept
    | with_reducible refine foldl_kept (fun _ _ _ => ?_) ?_
    | exact fun h => h
    | exact fun _ h => h
    | decide
    | exact fun _ h => mset_canonical h _ _
    | exact fun _ h => Bay.invalidate_canonical h
    | exact fun _ h => canonical_nil _
    | exact fun _ h => Bay.storeLine_canonical h _ _
    | exact fun _ h => Bay.writeLine_canonical h _ _ _ _ _
    | exact fun _ hx => Panel.commitRow_canonical hx _ _ _
    | exact fun _ h => CtxDie.zeroPage_canonical h _
    | with_reducible refine Kept.ite (fun _ => ?_) (fun _ => ?_)
    | with_reducible refine Kept.ite_fst (fun _ => ?_) (fun _ => ?_)
    | refine fun _ _ _ => ?_
    | (lift_lets; intro s1; have hs1 : Kept L s₀ s1 := ?_; clear_value s1)
    | (lift_lets; intro _)
    | split

theorem fill_kept (h : Kept L s₀ s) (x : Nat × Nat)
    (hl : Within [.panels, .bays, .weights, .host, .snags, .snagNext, .out] L := by exact sub (by assumption) (by decide)) : Kept L s₀ (s.fill x) := by
  unfold State.fill
  split
  · lift_lets
    intro s1
    have h1 : Kept L s₀ s1 := takeBack_kept h _
    clear_value s1
    intro b s2
    have h2 : Kept L s₀ s2 := modPanel_kept h1 _ fun _ hx => Panel.commitRows_canonical hx _ _ _
    clear_value s2
    exact setBank_kept (setFormat_kept h2 _ _ _ _) _ _ _
  · exact h

theorem loadTrees_kept (h : Kept L s₀ s) (p : Loaded)
    (hl : Within [.rtrs] L := by exact sub (by assumption) (by decide)) : Kept L s₀ (s.loadTrees p) := by
  unfold State.loadTrees
  repeat' first
    | with_reducible exact sub (by assumption) (by decide)
    | with_reducible assumption
    | with_reducible apply modRtr_kept
    | with_reducible refine foldl_kept (fun _ _ _ => ?_) ?_

theorem makeFills_kept (h : Kept L s₀ s) (p : Loaded)
    (hl : Within [.panels, .bays, .weights, .host, .snags, .snagNext, .out] L := by exact sub (by assumption) (by decide)) : Kept L s₀ (s.makeFills p) := by
  unfold State.makeFills
  repeat' first
    | with_reducible exact sub (by assumption) (by decide)
    | with_reducible assumption
    | with_reducible apply fill_kept
    | with_reducible refine foldl_kept (fun _ _ _ => ?_) ?_
    | split

theorem loadBays_kept (h : Kept L s₀ s) (p : Loaded)
    (hl : Within [.bays] L := by exact sub (by assumption) (by decide)) : Kept L s₀ (s.loadBays p) := by
  unfold State.loadBays
  repeat' first
    | with_reducible exact sub (by assumption) (by decide)
    | with_reducible assumption
    | with_reducible apply modBay_kept
    | with_reducible refine foldl_kept (fun _ _ _ => ?_) ?_
    | exact fun _ h => h

theorem noteSuspended_kept (h : Kept L s₀ s) (was : Bool) (id : Nat)
    (hl : Within [.host, .snags, .snagNext, .out] L := by exact sub (by assumption) (by decide)) : Kept L s₀ (s.noteSuspended was id) := by
  unfold State.noteSuspended
  repeat' first
    | with_reducible exact sub (by assumption) (by decide)
    | with_reducible assumption
    | with_reducible apply snagCtl_kept
    | with_reducible refine Kept.ite (fun _ => ?_) (fun _ => ?_)
    | split

theorem finishStart_kept (h : Kept L s₀ s) (id : Nat) (hm : .serving ∈ s.mode.next ∨ s.mode = .serving)
    (hl : Within [.mode, .panels, .bays, .rtrs, .plans, .weights, .fab, .host, .snags, .snagNext, .out] L := by exact sub (by assumption) (by decide)) : Kept L s₀ (s.finishStart id) := by
  unfold State.finishStart
  split
  · exact h
  · lift_lets
    intro shut q s1
    have w : Within [.panels, .bays, .rtrs, .plans, .weights, .host, .snags, .snagNext, .out]
      [.panels, .bays, .rtrs, .plans, .weights, .host, .snags, .snagNext, .out] := by decide
    have h1 : Kept [.panels, .bays, .rtrs, .plans, .weights, .host, .snags, .snagNext, .out] s s1 :=
      loadTrees_kept (makeFills_kept (modPlan_kept (.refl s) _ _) _) _
    clear_value s1
    intro s2
    have h2 : Kept [.panels, .bays, .rtrs, .plans, .weights, .host, .snags, .snagNext, .out] s s2 := loadBays_kept h1 _
    clear_value s2
    intro s3
    have h3 : Kept [.panels, .bays, .rtrs, .plans, .weights, .host, .snags, .snagNext, .out] s s3 :=
      foldl_kept (fun _ e g => modBay_kept g _ fun _ hy => initSegs_canonical hy e) h2
    clear_value s3
    have h4 := noteSuspended_kept h3 false id
    have e : (s3.noteSuspended false id).mode = s.mode := h4.frame .mode (by decide)
    have g : Kept L s₀ (s3.noteSuspended false id) := h.trans (h4.mono (sub hl (by decide)))
    refine completeWaits_kept ?_ _ _ _ _
    rcases hm with hm | hm
    · exact setMode_kept g (by rw [e]; exact hm) (by decide) (by decide)
    · rw [State.setMode, if_pos (e.trans hm)]; exact g

theorem stopPlan_kept (h : Kept L s₀ s) (p : Loaded) (status reason : Nat)
    (hl : Within [.free, .mode, .panels, .bays, .rtrs, .ctx0, .ctx1, .pages, .prefixes, .plans, .reqs, .weights, .fab, .host, .keep, .snags, .snagNext, .out] L := by exact sub (by assumption) (by decide)) : Kept L s₀ (s.stopPlan p status reason) := by
  unfold State.stopPlan
  repeat' first
    | with_reducible exact sub (by assumption) (by decide)
    | with_reducible assumption
    | with_reducible apply endRequests_kept
    | with_reducible apply closeSeq_kept
    | with_reducible apply flipPlan_kept
    | with_reducible apply modPlan_kept
    | with_reducible apply modBay_kept
    | with_reducible apply settleStops_kept
    | with_reducible refine foldl_kept (fun _ _ _ => ?_) ?_
    | exact fun _ h => by rw [Bay.askStop_sp]; exact h
    | with_reducible refine Kept.ite (fun _ => ?_) (fun _ => ?_)

theorem execPlanStop_kept (h : Kept L s₀ s) (t fn slot : Nat)
    (hl : Within [.now, .free, .mode, .panels, .bays, .rtrs, .ctx0, .ctx1, .pages, .prefixes, .plans, .reqs, .weights, .fab, .host, .keep, .snags, .snagNext, .out] L := by exact sub (by assumption) (by decide)) : Kept.Out L s₀ (execPlanStop t fn slot s) := by
  unfold execPlanStop
  refine .next (runCmd_kept (tick_kept h t) _ _ _ _ _ _ fun s c g => ?_)
  split
  · exact g
  · exact .ite (fun _ => .waits (pumpStarts_kept (settleStops_kept (stopPlan_kept (wait_kept g _ _ _ _) _ _ _)))) fun _ => g

theorem tryStart2_kept (h : Kept L s₀ s) (id : Nat)
    (hl : Within [.mode, .panels, .bays, .rtrs, .plans, .weights, .fab, .host, .snags, .snagNext, .out] L := by exact sub (by assumption) (by decide)) : Kept L s₀ (s.tryStart2 id) := by
  unfold State.tryStart2
  split
  · refine Kept.ite (fun c => Kept.ite (fun _ => completeWaits_kept (modPlan_kept h _ _) _ _ _ _) fun _ => finishStart_kept h _ ?_) fun _ => h
    rcases c.1 with c | c
    · exact .inl (by rw [c]; decide)
    · exact .inr c
  · exact h

theorem assign_kept (h : Kept L s₀ s) (p : Loaded) (session : Nat) (peers : List Nat)
    (hl : Within [.ctx0, .ctx1, .plans, .fab, .host, .out] L := by exact sub (by assumption) (by decide)) : Kept L s₀ (s.assign p session peers) := by
  unfold State.assign
  repeat' first
    | with_reducible exact sub (by assumption) (by decide)
    | with_reducible assumption
    | with_reducible apply take_kept
    | with_reducible apply openTable_kept
    | with_reducible apply modPlan_kept
    | with_reducible refine foldl_kept (fun _ _ _ => ?_) ?_
    | exact fun h => h
    | exact fun _ h => h
    | decide
    | exact fun _ h => mset_canonical h _ _
    | exact fun _ h => Bay.invalidate_canonical h
    | exact fun _ h => canonical_nil _
    | exact fun _ h => Bay.storeLine_canonical h _ _
    | exact fun _ h => Bay.writeLine_canonical h _ _ _ _ _
    | exact fun _ hx => Panel.commitRow_canonical hx _ _ _
    | exact fun _ h => CtxDie.zeroPage_canonical h _
    | (intro _ h; split <;> exact h)
    | with_reducible refine Kept.ite (fun _ => ?_) (fun _ => ?_)
    | with_reducible refine Kept.ite_fst (fun _ => ?_) (fun _ => ?_)
    | refine fun _ _ _ => ?_
    | (lift_lets; intro _)
    | split
    | with_reducible refine Kept.same ?_

theorem execPlanStart_kept (h : Kept L s₀ s) (t fn slot : Nat)
    (hl : Within [.now, .mode, .panels, .bays, .rtrs, .ctx0, .ctx1, .plans, .weights, .fab, .host, .snags, .snagNext, .out] L := by exact sub (by assumption) (by decide)) : Kept.Out L s₀ (execPlanStart t fn slot s) := by
  unfold execPlanStart
  repeat' first
    | with_reducible exact sub (by assumption) (by decide)
    | with_reducible assumption
    | with_reducible apply tick_kept
    | with_reducible apply runCmd_kept
    | with_reducible apply wait_kept
    | with_reducible apply assign_kept
    | with_reducible apply noticePlan_kept
    | with_reducible apply tryStart2_kept
    | with_reducible refine Kept.Out.next ?_
    | with_reducible refine Kept.Out.ite (fun _ => ?_) (fun _ => ?_)
    | with_reducible refine Done.Kept.comp ?_
    | with_reducible refine Done.Kept.waits ?_
    | with_reducible refine Done.Kept.ite (fun _ => ?_) (fun _ => ?_)
    | exact fun h => h
    | exact fun _ h => h
    | decide
    | exact fun _ h => mset_canonical h _ _
    | exact fun _ h => Bay.invalidate_canonical h
    | exact fun _ h => canonical_nil _
    | exact fun _ h => Bay.storeLine_canonical h _ _
    | exact fun _ h => Bay.writeLine_canonical h _ _ _ _ _
    | exact fun _ hx => Panel.commitRow_canonical hx _ _ _
    | exact fun _ h => CtxDie.zeroPage_canonical h _
    | (intro _ h; split <;> exact h)
    | with_reducible refine Kept.ite (fun _ => ?_) (fun _ => ?_)
    | with_reducible refine Kept.ite_fst (fun _ => ?_) (fun _ => ?_)
    | refine fun _ _ _ => ?_
    | (lift_lets; intro _)
    | split

theorem stopUnload_kept (h : Kept L s₀ s) (p : Loaded)
    (hl : Within [.free, .mode, .panels, .bays, .rtrs, .ctx0, .ctx1, .pages, .prefixes, .plans, .reqs, .weights, .fab, .host, .keep, .snags, .snagNext, .out] L := by exact sub (by assumption) (by decide)) : Kept L s₀ (s.stopUnload p) := by
  unfold State.stopUnload
  repeat' first
    | with_reducible exact sub (by assumption) (by decide)
    | with_reducible assumption
    | with_reducible apply modPlan_kept
    | with_reducible apply settleStops_kept
    | with_reducible apply stopPlan_kept
    | with_reducible apply unloadPlan_kept
    | with_reducible refine Kept.ite (fun _ => ?_) (fun _ => ?_)

theorem execPlanUnload_kept (h : Kept L s₀ s) (t fn slot : Nat)
    (hl : Within [.now, .free, .mode, .panels, .bays, .rtrs, .ctx0, .ctx1, .pages, .prefixes, .plans, .reqs, .weights, .fab, .host, .keep, .snags, .snagNext, .out] L := by exact sub (by assumption) (by decide)) : Kept.Out L s₀ (execPlanUnload t fn slot s) := by
  unfold execPlanUnload
  repeat' first
    | with_reducible exact sub (by assumption) (by decide)
    | with_reducible assumption
    | with_reducible apply tick_kept
    | with_reducible apply runCmd_kept
    | with_reducible apply wait_kept
    | with_reducible apply stopUnload_kept
    | with_reducible apply pumpStarts_kept
    | with_reducible apply unloadPlan_kept
    | with_reducible refine Kept.Out.next ?_
    | with_reducible refine Done.Kept.comp ?_
    | with_reducible refine Done.Kept.waits ?_
    | with_reducible refine Done.Kept.ite (fun _ => ?_) (fun _ => ?_)
    | refine fun _ _ _ => ?_
    | split

theorem execPlanStartPeerTimeout_kept (h : Kept L s₀ s) (t plan : Nat)
    (hl : Within [.now, .plans, .host, .out] L := by exact sub (by assumption) (by decide)) : Kept.Out L s₀ (execPlanStartPeerTimeout t plan s) := by
  unfold execPlanStartPeerTimeout
  repeat' first
    | with_reducible exact sub (by assumption) (by decide)
    | with_reducible assumption
    | with_reducible apply tick_kept
    | with_reducible apply modPlan_kept
    | with_reducible apply completeWaits_kept
    | with_reducible refine Kept.Out.next ?_
    | with_reducible refine Kept.ite (fun _ => ?_) (fun _ => ?_)
    | split

theorem modResil_kept (h : Kept L s₀ s) (f : Resil → Resil)
    (hl : Within [.resil] L := by exact sub (by assumption) (by decide)) : Kept L s₀ (s.modResil f) := by
  unfold State.modResil
  repeat' first
    | with_reducible exact sub (by assumption) (by decide)
    | with_reducible assumption
    | with_reducible refine Kept.same ?_

theorem checkCompute_kept (h : Kept L s₀ s)
    (hl : Within [.free, .mode, .panels, .bays, .rtrs, .ctx0, .ctx1, .pages, .prefixes, .plans, .reqs, .weights, .fab, .host, .keep, .snags, .snagNext, .out] L := by exact sub (by assumption) (by decide)) : Kept L s₀ (s.checkCompute) := by
  unfold State.checkCompute
  repeat' first
    | with_reducible exact sub (by assumption) (by decide)
    | with_reducible assumption
    | with_reducible apply stopPlan_kept
    | with_reducible refine foldl_kept (fun _ _ _ => ?_) ?_
    | with_reducible refine Kept.ite (fun _ => ?_) (fun _ => ?_)

theorem noDetour_kept (h : Kept L s₀ s) (p : Loaded)
    (hl : Within [.host, .snags, .snagNext, .out] L := by exact sub (by assumption) (by decide)) : Kept L s₀ (s.noDetour p) := by
  unfold State.noDetour
  repeat' first
    | with_reducible exact sub (by assumption) (by decide)
    | with_reducible assumption
    | with_reducible apply snagCtl_kept
    | split

theorem hardPlans_kept (h : Kept L s₀ s)
    (hl : Within [.free, .mode, .panels, .bays, .rtrs, .ctx0, .ctx1, .pages, .prefixes, .plans, .reqs, .weights, .fab, .host, .keep, .snags, .snagNext, .out] L := by exact sub (by assumption) (by decide)) : Kept L s₀ (s.hardPlans) := by
  unfold State.hardPlans
  repeat' first
    | with_reducible exact sub (by assumption) (by decide)
    | with_reducible assumption
    | with_reducible apply noDetour_kept
    | with_reducible apply stopUnload_kept
    | with_reducible refine foldl_kept (fun _ _ _ => ?_) ?_

theorem fenceOne_kept (h : Kept L s₀ s) (b cause : Nat)
    (hl : Within [.free, .mode, .panels, .bays, .rtrs, .ctx0, .ctx1, .pages, .prefixes, .plans, .reqs, .weights, .fab, .host, .keep, .snags, .snagNext, .out] L := by exact sub (by assumption) (by decide)) : Kept L s₀ (s.fenceOne b cause) := by
  unfold State.fenceOne
  repeat' first
    | with_reducible exact sub (by assumption) (by decide)
    | with_reducible assumption
    | with_reducible apply noDetour_kept
    | with_reducible apply stopUnload_kept
    | with_reducible apply snagBay_kept
    | with_reducible refine foldl_kept (fun _ _ _ => ?_) ?_

theorem applyFences_kept (h : Kept L s₀ s)
    (hl : Within [.rtrs, .resil] L := by exact sub (by assumption) (by decide)) : Kept L s₀ (s.applyFences) := by
  unfold State.applyFences
  repeat' first
    | with_reducible exact sub (by assumption) (by decide)
    | with_reducible assumption
    | with_reducible apply setLocalClose_kept
    | with_reducible apply modResil_kept
    | with_reducible refine foldl_kept (fun _ _ _ => ?_) ?_

theorem fenceBays_kept (h : Kept L s₀ s) (l : List Nat) (cause : Nat)
    (hl : Within [.free, .mode, .panels, .bays, .rtrs, .ctx0, .ctx1, .pages, .prefixes, .plans, .reqs, .weights, .fab, .host, .keep, .resil, .snags, .snagNext, .out] L := by exact sub (by assumption) (by decide)) : Kept L s₀ (s.fenceBays l cause) := by
  unfold State.fenceBays
  lift_lets
  intro l1 s1
  have h1 : Kept L s₀ s1 := modResil_kept h _
  clear_value s1
  intro s2
  have h2 : Kept L s₀ s2 := checkCompute_kept (hardPlans_kept (foldl_kept (fun _ _ g => fenceOne_kept g _ _) h1))
  clear_value s2
  exact Kept.ite (fun _ => h2) fun _ => applyFences_kept h2

theorem mclean_map_all {α : Type} [DecidableEq α] {d : α} {m : SMap α} {P : α → Prop} {f : α → α} (hf : ∀ x, P x → P (f x))
    (h : ∀ e ∈ m, P e.2) : ∀ e ∈ mclean d (m.map fun e => (e.1, f e.2)), P e.2 := by
  intro e he
  obtain ⟨a, ha, rfl⟩ := List.mem_map.1 (List.mem_filter.1 he).1
  exact hf _ (h a ha)

theorem resetCompute_kept (h : Kept L s₀ s)
    (hl : Within [.pwr, .panels, .bays, .rtrs, .ctx0, .ctx1] L := by exact sub (by assumption) (by decide)) : Kept L s₀ s.resetCompute := by
  refine settleLeaves_kept (h.trans ⟨rfl, rfl, le_rfl, le_rfl, List.suffix_refl _, fun _ => .refl, id, fun m =>
    ⟨mclean_map_all (P := fun y : Bay => Canonical ({} : Line) y.sp) (f := Bay.computeReset) (fun _ _ => canonical_nil _) m.1,
      mclean_map_all (P := fun x : Panel => Canonical none x.cells) (f := fun x => x.applyStg.computeReset)
        (fun x hx => by rw [Panel.computeReset_cells, Panel.applyStg_cells]; exact hx) m.2.1,
      by rw [CtxDie.abandon_mem]; exact m.2.2.1, by rw [CtxDie.abandon_mem]; exact m.2.2.2.1, m.2.2.2.2⟩,
    fun m => ⟨mclean_map_canonical m.1 Bay.computeReset, mclean_map_canonical m.2.1 fun x : Panel => x.applyStg.computeReset,
      mclean_map_canonical m.2.2 fun x : Router => { x with held := x.held.filter fun h => decide (h.1 < 16) }⟩, changed (a := [.panels, .bays, .rtrs, .ctx0, .ctx1]) (sub hl (by decide))⟩)

theorem markInterrupted_kept (h : Kept L s₀ s) (p : Loaded) (run : StepRun)
    (hl : Within [.reqs] L := by exact sub (by assumption) (by decide)) : Kept L s₀ (s.markInterrupted p run) := by
  unfold State.markInterrupted
  repeat' first
    | with_reducible exact sub (by assumption) (by decide)
    | with_reducible assumption
    | with_reducible apply modReq_kept
    | with_reducible refine foldl_kept (fun _ _ _ => ?_) ?_
    | with_reducible refine Kept.ite (fun _ => ?_) (fun _ => ?_)
    | split

theorem interrupt_kept (h : Kept L s₀ s) (p : Loaded)
    (hl : Within [.panels, .plans, .reqs] L := by exact sub (by assumption) (by decide)) : Kept L s₀ (s.interrupt p) := by
  unfold State.interrupt
  repeat' first
    | with_reducible exact sub (by assumption) (by decide)
    | with_reducible assumption
    | with_reducible apply rollback_kept
    | with_reducible apply markInterrupted_kept
    | with_reducible apply modPlan_kept
    | with_reducible refine Kept.ite (fun _ => ?_) (fun _ => ?_)
    | split

theorem cutStarts_kept (h : Kept L s₀ s)
    (hl : Within [.plans, .host, .out] L := by exact sub (by assumption) (by decide)) : Kept L s₀ (s.cutStarts) := by
  unfold State.cutStarts
  repeat' first
    | with_reducible exact sub (by assumption) (by decide)
    | with_reducible assumption
    | with_reducible apply modPlan_kept
    | with_reducible apply completeWaits_kept
    | with_reducible refine foldl_kept (fun _ _ _ => ?_) ?_

theorem unfenceOne_kept (h : Kept L s₀ s) (b replaced : Nat)
    (hl : Within [.rtrs, .host, .resil, .snags, .snagNext, .out] L := by exact sub (by assumption) (by decide)) : Kept L s₀ (s.unfenceOne b replaced) := by
  unfold State.unfenceOne
  repeat' first
    | with_reducible exact sub (by assumption) (by decide)
    | with_reducible assumption
    | with_reducible apply setLocalClose_kept
    | with_reducible apply modResil_kept
    | with_reducible apply snagBay_kept

theorem rePlace_kept (h : Kept L s₀ s) (p : Loaded)
    (hl : Within [.free, .mode, .panels, .bays, .rtrs, .ctx0, .ctx1, .pages, .prefixes, .plans, .reqs, .weights, .fab, .host, .keep, .snags, .snagNext, .out] L := by exact sub (by assumption) (by decide)) : Kept L s₀ (s.rePlace p) := by
  unfold State.rePlace
  repeat' first
    | with_reducible exact sub (by assumption) (by decide)
    | with_reducible assumption
    | with_reducible apply noDetour_kept
    | with_reducible apply stopUnload_kept
    | with_reducible apply endPlacement_kept
    | with_reducible apply modPlan_kept
    | with_reducible apply makeFills_kept
    | with_reducible apply snagCtl_kept
    | with_reducible apply noteSuspended_kept
    | with_reducible refine Kept.ite (fun _ => ?_) (fun _ => ?_)
    | (lift_lets; intro s1; have hs1 : Kept L s₀ s1 := ?_; clear_value s1)
    | (lift_lets; intro _)
    | split

theorem resetStage_kept (h : Kept L s₀ s)
    (hl : Within [.free, .mode, .gen, .pwr, .boot, .panels, .bays, .rtrs, .ctx0, .ctx1, .pages, .prefixes, .plans, .reqs, .weights, .fab, .host, .keep, .resil, .snags, .snagNext, .out] L := by exact sub (by assumption) (by decide)) : Kept L s₀ (s.resetStage) := by
  unfold State.resetStage
  repeat' first
    | with_reducible exact sub (by assumption) (by decide)
    | with_reducible assumption
    | with_reducible apply modResil_kept
    | with_reducible apply noticeAll_kept
    | with_reducible apply interrupt_kept
    | with_reducible apply resetCompute_kept
    | with_reducible apply cutStarts_kept
    | with_reducible apply settleStops_kept
    | with_reducible apply applyFences_kept
    | with_reducible apply unfenceOne_kept
    | with_reducible apply rePlace_kept
    | with_reducible apply loadTrees_kept
    | with_reducible apply loadBays_kept
    | with_reducible apply loadHomes_kept
    | with_reducible apply snagCtl_kept
    | with_reducible refine foldl_kept (fun _ _ _ => ?_) ?_
    | exact fun h => h
    | exact fun _ h => h
    | decide
    | exact fun _ h => mset_canonical h _ _
    | exact fun _ h => Bay.invalidate_canonical h
    | exact fun _ h => canonical_nil _
    | exact fun _ h => Bay.storeLine_canonical h _ _
    | exact fun _ h => Bay.writeLine_canonical h _ _ _ _ _
    | exact fun _ hx => Panel.commitRow_canonical hx _ _ _
    | exact fun _ h => CtxDie.zeroPage_canonical h _
    | with_reducible refine Kept.ite (fun _ => ?_) (fun _ => ?_)
    | with_reducible refine Kept.ite_fst (fun _ => ?_) (fun _ => ?_)
    | refine fun _ _ _ => ?_
    | (lift_lets; intro _)
    | split
    | with_reducible refine Kept.same ?_

theorem withdraw_kept (h : Kept L s₀ s) (cause : Nat) (hm : .withdrawn ∈ s.mode.next)
    (hl : Within [.free, .mode, .pwr, .panels, .bays, .rtrs, .ctx0, .ctx1, .pages, .prefixes, .plans, .reqs, .weights, .fab, .host, .keep, .resil, .snags, .snagNext, .out] L := by exact sub (by assumption) (by decide)) : Kept L s₀ (s.withdraw cause) := by
  unfold State.withdraw
  lift_lets
  intro s1
  have h1 : Kept L s₀ s1 := snagCtl_kept (setMode_kept h hm (by decide) (by decide)) _ _ _
  clear_value s1
  intro s2
  have h2 : Kept L s₀ s2 := foldl_kept (fun s p g => by
    split
    · exact Kept.ite (fun _ => rollback_kept g _) fun _ => g
    · exact g) h1
  clear_value s2
  intro s3
  have h3 : Kept L s₀ s3 := Kept.ite (fun _ => endSelect_kept h2 _ _ _) fun _ => h2
  clear_value s3
  intro s4
  have h4 : Kept L s₀ s4 := foldl_kept (fun _ _ g => stopPlan_kept g _ _ _) h3
  clear_value s4
  intro s5
  have h5 : Kept L s₀ s5 := by unfold s5; with_reducible exact Kept.same h4
  clear_value s5
  intro s6
  have h6 : Kept L s₀ s6 := applyFences_kept (settleStops_kept (resetCompute_kept h5))
  clear_value s6
  exact completeWaits_kept (modResil_kept h6 _) _ _ _ _

theorem startUp_kept (h : Kept L s₀ s)
    (hl : Within [.free, .mode, .boot, .panels, .bays, .rtrs, .ctx0, .ctx1, .pages, .prefixes, .plans, .reqs, .weights, .fab, .host, .keep, .resil, .snags, .snagNext, .out] L := by exact sub (by assumption) (by decide)) : Kept L s₀ (s.startUp) := by
  unfold State.startUp
  repeat' first
    | with_reducible exact sub (by assumption) (by decide)
    | with_reducible assumption
    | with_reducible apply fenceBays_kept
    | with_reducible apply pumpStarts_kept
    | (lift_lets; intro _)
    | with_reducible refine Kept.same ?_

theorem sendReruns_kept (h : Kept L s₀ s)
    (hl : Within [.panels, .bays, .rtrs, .plans, .weights, .fab, .host, .snags, .snagNext, .out] L := by exact sub (by assumption) (by decide)) : Kept L s₀ (s.sendReruns) := by
  unfold State.sendReruns
  repeat' first
    | with_reducible exact sub (by assumption) (by decide)
    | with_reducible assumption
    | with_reducible apply sendStep_kept
    | with_reducible refine foldl_kept (fun _ _ _ => ?_) ?_
    | with_reducible refine Kept.ite (fun _ => ?_) (fun _ => ?_)
    | (lift_lets; intro _)
    | split

theorem finishRecovery_kept (h : Kept L s₀ s) (hm : s.mode = .recovering)
    (hl : Within [.free, .mode, .boot, .panels, .bays, .rtrs, .ctx0, .ctx1, .pages, .prefixes, .plans, .reqs, .weights, .fab, .host, .keep, .resil, .snags, .snagNext, .out] L := by exact sub (by assumption) (by decide)) : Kept L s₀ s.finishRecovery := by
  unfold State.finishRecovery
  lift_lets
  intro n s1
  have h1 : Kept L s₀ s1 := setMode_kept h (by rw [hm]; split <;> decide) (by split <;> decide) (by split <;> decide)
  clear_value s1
  intro s2
  have h2 : Kept L s₀ s2 := snagCtl_kept h1 _ _ _
  clear_value s2
  intro c d s3
  have h3 : Kept L s₀ s3 := modResil_kept (Kept.ctxs h2 (fun m => by exact m) fun m => by exact m) _
  clear_value s3
  intro s4
  have h4 : Kept L s₀ s4 := completeWaits_kept h3 _ _ _ _
  clear_value s4
  intro s5
  have h5 : Kept L s₀ s5 := Kept.ite (fun _ => startUp_kept h4) fun _ => h4
  clear_value s5
  intro s6
  have h6 : Kept L s₀ s6 := by
    unfold s6
    split
    · exact Kept.ite (fun _ => h5) fun _ => sendRows_kept h5 _
    · exact h5
  clear_value s6
  intro s7
  have h7 : Kept L s₀ s7 := sendReruns_kept h6
  clear_value s7
  refine pumpStarts_kept (foldl_kept (fun s p g => ?_) h7)
  split
  · exact Kept.ite (fun _ => schedule_kept g _) fun _ => g
  · exact g

theorem startRecovery_kept (h : Kept L s₀ s) (cause : Nat) (counted abort : Bool)
    (hl : Within [.free, .mode, .pwr, .panels, .bays, .rtrs, .ctx0, .ctx1, .pages, .prefixes, .plans, .reqs, .weights, .fab, .host, .keep, .resil, .snags, .snagNext, .out] L := by exact sub (by assumption) (by decide)) : Kept L s₀ (s.startRecovery cause counted abort) := by
  unfold State.startRecovery
  refine Kept.ite (fun _ => h) fun c => Kept.ite (fun d => withdraw_kept h _ ?_)
    fun _ => setMode_kept (modResil_kept h _) ?_ (by decide) (by decide)
  · simp only [Bool.and_eq_true] at d
    cases e : s.mode <;> simp [e, d.1] at c ⊢ <;> decide
  · show .recovering ∈ s.mode.next
    cases e : s.mode <;> simp [e] at c ⊢ <;> decide

theorem detected_kept (h : Kept L s₀ s) (f : Found)
    (hl : Within [.free, .mode, .pwr, .panels, .bays, .rtrs, .ctx0, .ctx1, .pages, .prefixes, .plans, .reqs, .weights, .fab, .host, .keep, .resil, .snags, .snagNext, .out] L := by exact sub (by assumption) (by decide)) : Kept L s₀ (s.detected f) := by
  unfold State.detected
  repeat' first
    | with_reducible exact sub (by assumption) (by decide)
    | with_reducible assumption
    | with_reducible apply modResil_kept
    | with_reducible apply fenceBays_kept
    | with_reducible apply startRecovery_kept
    | with_reducible refine Kept.ite (fun _ => ?_) (fun _ => ?_)
    | with_reducible refine Kept.same ?_

theorem hardFound_kept (h : Kept L s₀ s) (l : List Nat)
    (hl : Within [.free, .mode, .pwr, .panels, .bays, .rtrs, .ctx0, .ctx1, .pages, .prefixes, .plans, .reqs, .weights, .fab, .host, .keep, .resil, .snags, .snagNext, .out] L := by exact sub (by assumption) (by decide)) : Kept L s₀ (s.hardFound l) := by
  unfold State.hardFound
  repeat' first
    | with_reducible exact sub (by assumption) (by decide)
    | with_reducible assumption
    | with_reducible apply detected_kept

theorem sendOut_kept (h : Kept L s₀ s) (p : Nat) (x : PortOut)
    (hl : Within [.out] L := by exact sub (by assumption) (by decide)) : Kept L s₀ (s.sendOut p x) := by
  unfold State.sendOut
  repeat' first
    | with_reducible exact sub (by assumption) (by decide)
    | with_reducible assumption
    | with_reducible apply emit_kept

theorem modFab_kept (h : Kept L s₀ s) (f : Fabric → Fabric)
    (hl : Within [.fab] L := by exact sub (by assumption) (by decide)) : Kept L s₀ (s.modFab f) := by
  unfold State.modFab
  repeat' first
    | with_reducible exact sub (by assumption) (by decide)
    | with_reducible assumption
    | with_reducible refine Kept.same ?_

theorem modPort_kept (h : Kept L s₀ s) (p : Nat) (f : Port → Port)
    (hl : Within [.fab] L := by exact sub (by assumption) (by decide)) : Kept L s₀ (s.modPort p f) := by
  unfold State.modPort
  repeat' first
    | with_reducible exact sub (by assumption) (by decide)
    | with_reducible assumption
    | with_reducible apply modFab_kept

theorem snagPort_kept (h : Kept L s₀ s) (p code sev : Nat) (args : List Nat)
    (hl : Within [.host, .snags, .snagNext, .out] L := by exact sub (by assumption) (by decide)) : Kept L s₀ (s.snagPort p code sev args) := by
  unfold State.snagPort
  repeat' first
    | with_reducible exact sub (by assumption) (by decide)
    | with_reducible assumption
    | with_reducible apply snag_kept

theorem portTo_kept (h : Kept L s₀ s) (p : Nat) (st : PortSt) (f : Port → Port)
    (hl : Within [.fab, .host, .snags, .snagNext, .out] L := by exact sub (by assumption) (by decide)) : Kept L s₀ (s.portTo p st f) := by
  unfold State.portTo
  repeat' first
    | with_reducible exact sub (by assumption) (by decide)
    | with_reducible assumption
    | with_reducible apply modPort_kept
    | with_reducible apply pfIrq_kept
    | with_reducible apply noteSuspended_kept
    | with_reducible refine foldl_kept (fun _ _ _ => ?_) ?_
    | with_reducible refine Kept.ite (fun _ => ?_) (fun _ => ?_)

theorem trainPort_kept (h : Kept L s₀ s) (p : Nat)
    (hl : Within [.fab, .host, .snags, .snagNext, .out] L := by exact sub (by assumption) (by decide)) : Kept L s₀ (s.trainPort p) := by
  unfold State.trainPort
  repeat' first
    | with_reducible exact sub (by assumption) (by decide)
    | with_reducible assumption
    | with_reducible apply portTo_kept
    | with_reducible apply sendOut_kept

theorem retrainFrom_kept (h : Kept L s₀ s) (l : List Nat)
    (hl : Within [.fab, .host, .resil, .snags, .snagNext, .out] L := by exact sub (by assumption) (by decide)) : Kept L s₀ (s.retrainFrom l) := by
  have g : ∀ f, Kept L s₀ (s.modResil f) := fun f => modResil_kept h f
  unfold State.retrainFrom
  dsimp only
  split
  · exact Kept.ite (fun _ => trainPort_kept (g _) _) fun _ => g _
  · exact g _

theorem retrainNext_kept (h : Kept L s₀ s) (p : Nat)
    (hl : Within [.fab, .host, .resil, .snags, .snagNext, .out] L := by exact sub (by assumption) (by decide)) : Kept L s₀ (s.retrainNext p) :=
  Kept.ite (fun _ => retrainFrom_kept h _) fun _ => h

theorem nextStage_kept (h : Kept L s₀ s)
    (hl : Within [.free, .mode, .gen, .pwr, .boot, .panels, .bays, .rtrs, .ctx0, .ctx1, .pages, .prefixes, .plans, .reqs, .weights, .fab, .host, .keep, .resil, .snags, .snagNext, .out] L := by exact sub (by assumption) (by decide)) : Kept L s₀ (s.nextStage) := by
  unfold State.nextStage
  repeat' first
    | with_reducible exact sub (by assumption) (by decide)
    | with_reducible assumption
    | with_reducible apply resetStage_kept
    | with_reducible apply retrainFrom_kept
    | with_reducible apply modResil_kept
    | with_reducible refine Kept.ite (fun _ => ?_) (fun _ => ?_)

theorem closeSlots_kept (h : Kept L s₀ s) (k : Nat)
    (hl : Within [.free, .mode, .panels, .bays, .rtrs, .ctx0, .ctx1, .pages, .prefixes, .plans, .reqs, .weights, .fab, .host, .keep, .snags, .snagNext, .out] L := by exact sub (by assumption) (by decide)) : Kept L s₀ (s.closeSlots k) := by
  unfold State.closeSlots
  repeat' first
    | with_reducible exact sub (by assumption) (by decide)
    | with_reducible assumption
    | with_reducible apply modPlan_kept
    | with_reducible apply noteSuspended_kept
    | with_reducible apply endReq_kept
    | with_reducible apply stopPlan_kept
    | with_reducible refine foldl_kept (fun _ _ _ => ?_) ?_
    | exact fun h => h
    | exact fun _ h => h
    | decide
    | exact fun _ h => mset_canonical h _ _
    | exact fun _ h => Bay.invalidate_canonical h
    | exact fun _ h => canonical_nil _
    | exact fun _ h => Bay.storeLine_canonical h _ _
    | exact fun _ h => Bay.writeLine_canonical h _ _ _ _ _
    | exact fun _ hx => Panel.commitRow_canonical hx _ _ _
    | exact fun _ h => CtxDie.zeroPage_canonical h _
    | with_reducible refine Kept.ite (fun _ => ?_) (fun _ => ?_)
    | with_reducible refine Kept.ite_fst (fun _ => ?_) (fun _ => ?_)
    | refine fun _ _ _ => ?_
    | (lift_lets; intro _)
    | split

theorem installCmd_kept (h : Kept L s₀ s) (fn slot : Nat) (form : Nat → Bool) (spare : Cmd → Bool) {body : State → Cmd → Done}
    (hb : ∀ s c, Kept L s₀ s → (body s c).Kept L s₀)
    (hl : Within [.host, .out] L := by exact sub (by assumption) (by decide)) : Kept L s₀ (s.installCmd fn slot form spare body) := by
  refine runOwn_kept h _ _ _ _ _ fun s c g => ?_
  repeat' split
  all_goals first
    | exact g
    | exact hb _ _ g

theorem installFails_kept (h : Kept L s₀ s) (status check idx : Nat)
    (hl : Within [.host, .snags, .snagNext, .out] L := by exact sub (by assumption) (by decide)) : (s.installFails status check idx).Kept L s₀ :=
  snagCtl_kept h _ _ _

theorem modWeights_kept (h : Kept L s₀ s) (f : Weights → Weights)
    (hl : Within [.weights] L := by exact sub (by assumption) (by decide)) : Kept L s₀ (s.modWeights f) := by
  unfold State.modWeights
  repeat' first
    | with_reducible exact sub (by assumption) (by decide)
    | with_reducible assumption
    | with_reducible refine Kept.same ?_

theorem installWrite_kept (h : Kept L s₀ s) (a : Auth) (img : WImage)
    (hl : Within [.store, .weights, .host, .snags, .snagNext, .out] L := by exact sub (by assumption) (by decide)) : Done.Kept L s₀ (s.installWrite a img) := by
  unfold State.installWrite
  repeat' first
    | with_reducible exact sub (by assumption) (by decide)
    | with_reducible assumption
    | with_reducible apply modWeights_kept
    | with_reducible apply installFails_kept
    | with_reducible apply snagCtl_kept
    | with_reducible refine Done.Kept.comp ?_
    | with_reducible refine Done.Kept.waits ?_
    | with_reducible refine Done.Kept.ite (fun _ => ?_) (fun _ => ?_)
    | exact fun h => h
    | exact fun _ h => h
    | decide
    | exact fun _ h => mset_canonical h _ _
    | exact fun _ h => Bay.invalidate_canonical h
    | exact fun _ h => canonical_nil _
    | exact fun _ h => Bay.storeLine_canonical h _ _
    | exact fun _ h => Bay.writeLine_canonical h _ _ _ _ _
    | exact fun _ hx => Panel.commitRow_canonical hx _ _ _
    | exact fun _ h => CtxDie.zeroPage_canonical h _
    | with_reducible refine Kept.ite (fun _ => ?_) (fun _ => ?_)
    | with_reducible refine Kept.ite_fst (fun _ => ?_) (fun _ => ?_)
    | refine fun _ _ _ => ?_
    | (lift_lets; intro _)
    | split
    | with_reducible refine Kept.same ?_

theorem readBank_kept (h : Kept L s₀ s) (k bank : Nat)
    (hl : Within [.panels, .host, .resil, .snags, .snagNext, .out] L := by exact sub (by assumption) (by decide)) : Kept L s₀ (s.readBank k bank) := by
  unfold State.readBank
  repeat' first
    | with_reducible exact sub (by assumption) (by decide)
    | with_reducible assumption
    | with_reducible apply stickyPanel_kept
    | with_reducible apply witnessStored_kept
    | exact fun _ h => h
    | split

theorem readBanks_kept (h : Kept L s₀ s) (back : Bool)
    (hl : Within [.panels, .weights, .host, .resil, .snags, .snagNext, .out] L := by exact sub (by assumption) (by decide)) : Kept L s₀ (s.readBanks back).1 := by
  unfold State.readBanks
  repeat' first
    | with_reducible exact sub (by assumption) (by decide)
    | with_reducible assumption
    | with_reducible apply readBank_kept
    | with_reducible apply modWeights_kept
    | with_reducible refine foldl_kept (fun _ _ _ => ?_) ?_

theorem loadFails_kept (h : Kept L s₀ s) (detail : Nat)
    (hl : Within [.panels, .bays, .rtrs, .weights, .host, .snags, .snagNext, .out] L := by exact sub (by assumption) (by decide)) : Kept L s₀ (s.loadFails detail) := by
  unfold State.loadFails
  repeat' first
    | with_reducible exact sub (by assumption) (by decide)
    | with_reducible assumption
    | with_reducible apply endSelect_kept
    | with_reducible apply pumpStarts_kept
    | exact fun h => h
    | exact fun _ h => h
    | decide
    | exact fun _ h => mset_canonical h _ _
    | exact fun _ h => Bay.invalidate_canonical h
    | exact fun _ h => canonical_nil _
    | exact fun _ h => Bay.storeLine_canonical h _ _
    | exact fun _ h => Bay.writeLine_canonical h _ _ _ _ _
    | exact fun _ hx => Panel.commitRow_canonical hx _ _ _
    | exact fun _ h => CtxDie.zeroPage_canonical h _
    | with_reducible refine Kept.ite (fun _ => ?_) (fun _ => ?_)
    | with_reducible refine Kept.ite_fst (fun _ => ?_) (fun _ => ?_)
    | refine fun _ _ _ => ?_
    | split

theorem execWeightsInstallNonce_kept (h : Kept L s₀ s) (t fn slot : Nat)
    (hl : Within [.now, .free, .weights, .host, .keep, .out] L := by exact sub (by assumption) (by decide)) : Kept.Out L s₀ (execWeightsInstallNonce t fn slot s) := by
  unfold execWeightsInstallNonce
  repeat' first
    | with_reducible exact sub (by assumption) (by decide)
    | with_reducible assumption
    | with_reducible apply tick_kept
    | with_reducible apply installCmd_kept
    | with_reducible apply random_kept
    | with_reducible apply modWeights_kept
    | with_reducible refine Kept.Out.next ?_
    | with_reducible refine Done.Kept.comp ?_
    | with_reducible refine Done.Kept.ite (fun _ => ?_) (fun _ => ?_)
    | refine fun _ _ _ => ?_

theorem execInstallNonceExpiry_kept (h : Kept L s₀ s) (t : Nat)
    (hl : Within [.now, .weights] L := by exact sub (by assumption) (by decide)) : Kept.Out L s₀ (execInstallNonceExpiry t s) := by
  unfold execInstallNonceExpiry
  repeat' first
    | with_reducible exact sub (by assumption) (by decide)
    | with_reducible assumption
    | with_reducible apply tick_kept
    | with_reducible apply modWeights_kept
    | with_reducible refine Kept.Out.next ?_
    | with_reducible refine Kept.ite (fun _ => ?_) (fun _ => ?_)
    | split

theorem execWeightsInstallWrite_kept (h : Kept L s₀ s) (t fn slot : Nat) (auth : Fetch Auth) (img : Fetch WImage)
    (hl : Within [.now, .store, .weights, .host, .snags, .snagNext, .out] L := by exact sub (by assumption) (by decide)) : Kept.Out L s₀ (execWeightsInstallWrite t fn slot auth img s) := by
  unfold execWeightsInstallWrite
  repeat' first
    | with_reducible exact sub (by assumption) (by decide)
    | with_reducible assumption
    | with_reducible apply tick_kept
    | with_reducible apply installCmd_kept
    | with_reducible apply dmaRead_kept
    | with_reducible apply modWeights_kept
    | with_reducible apply installFails_kept
    | with_reducible apply installWrite_kept
    | with_reducible refine Kept.Out.next ?_
    | with_reducible refine Kept.Out.ite (fun _ => ?_) (fun _ => ?_)
    | with_reducible refine Done.Kept.comp ?_
    | with_reducible refine Done.Kept.waits ?_
    | with_reducible refine Done.Kept.ite (fun _ => ?_) (fun _ => ?_)
    | exact fun h => h
    | exact fun _ h => h
    | decide
    | exact fun _ h => mset_canonical h _ _
    | exact fun _ h => Bay.invalidate_canonical h
    | exact fun _ h => canonical_nil _
    | exact fun _ h => Bay.storeLine_canonical h _ _
    | exact fun _ h => Bay.writeLine_canonical h _ _ _ _ _
    | exact fun _ hx => Panel.commitRow_canonical hx _ _ _
    | exact fun _ h => CtxDie.zeroPage_canonical h _
    | with_reducible refine Kept.ite (fun _ => ?_) (fun _ => ?_)
    | with_reducible refine Kept.ite_fst (fun _ => ?_) (fun _ => ?_)
    | refine fun _ _ _ => ?_

theorem execWeightsInstallErase_kept (h : Kept L s₀ s) (t fn slot : Nat) (auth : Fetch Auth)
    (hl : Within [.now, .store, .weights, .host, .snags, .snagNext, .out] L := by exact sub (by assumption) (by decide)) :
    Kept.Out L s₀ (execWeightsInstallErase t fn slot auth s) := by
  unfold execWeightsInstallErase
  repeat' first
    | with_reducible exact sub (by assumption) (by decide)
    | with_reducible assumption
    | with_reducible apply tick_kept
    | with_reducible apply installCmd_kept
    | with_reducible apply dmaRead_kept
    | with_reducible apply modWeights_kept
    | with_reducible apply installFails_kept
    | with_reducible refine Kept.Out.next ?_
    | with_reducible refine Done.Kept.comp ?_
    | with_reducible refine Done.Kept.ite (fun _ => ?_) (fun _ => ?_)
    | refine fun _ _ _ => ?_
    | (lift_lets; intro _)
    | split
    | with_reducible refine Kept.same ?_
    | intro _ _

theorem execWeightsSelect_kept (h : Kept L s₀ s) (t fn slot : Nat)
    (hl : Within [.now, .panels, .bays, .rtrs, .weights, .host, .snags, .snagNext, .out] L := by exact sub (by assumption) (by decide)) : Kept.Out L s₀ (execWeightsSelect t fn slot s) := by
  unfold execWeightsSelect
  repeat' first
    | with_reducible exact sub (by assumption) (by decide)
    | with_reducible assumption
    | with_reducible apply tick_kept
    | with_reducible apply runOwn_kept
    | with_reducible apply wait_kept
    | with_reducible apply beginSelect_kept
    | with_reducible apply pumpStarts_kept
    | with_reducible refine Kept.Out.next ?_
    | with_reducible refine Kept.Out.ite (fun _ => ?_) (fun _ => ?_)
    | with_reducible refine Done.Kept.comp ?_
    | with_reducible refine Done.Kept.waits ?_
    | with_reducible refine Done.Kept.ite (fun _ => ?_) (fun _ => ?_)
    | exact fun h => h
    | exact fun _ h => h
    | decide
    | exact fun _ h => mset_canonical h _ _
    | exact fun _ h => Bay.invalidate_canonical h
    | exact fun _ h => canonical_nil _
    | exact fun _ h => Bay.storeLine_canonical h _ _
    | exact fun _ h => Bay.writeLine_canonical h _ _ _ _ _
    | exact fun _ hx => Panel.commitRow_canonical hx _ _ _
    | exact fun _ h => CtxDie.zeroPage_canonical h _
    | (intro _ h; split <;> exact h)
    | with_reducible refine Kept.ite (fun _ => ?_) (fun _ => ?_)
    | with_reducible refine Kept.ite_fst (fun _ => ?_) (fun _ => ?_)
    | refine fun _ _ _ => ?_

theorem loadMismatch_kept (h : Kept L s₀ s) (idx where_ : Nat)
    (hl : Within [.panels, .bays, .rtrs, .weights, .host, .snags, .snagNext, .out] L := by exact sub (by assumption) (by decide)) : Kept L s₀ (s.loadMismatch idx where_) := by
  unfold State.loadMismatch
  repeat' first
    | with_reducible exact sub (by assumption) (by decide)
    | with_reducible assumption
    | with_reducible apply snagCtl_kept
    | with_reducible apply endSelect_kept
    | with_reducible apply pumpStarts_kept

theorem execPanelDoneNotice_kept (h : Kept L s₀ s) (t : Nat) (b : BayIx) (p : PanelIx) (gen : BitVec 8)
    (hl : Within [.now, .panels, .bays, .rtrs, .weights, .host, .snags, .snagNext, .out] L := by exact sub (by assumption) (by decide)) : Kept.Out L s₀ (execPanelDoneNotice t b p gen s) := by
  unfold execPanelDoneNotice
  repeat' first
    | with_reducible exact sub (by assumption) (by decide)
    | with_reducible assumption
    | with_reducible apply tick_kept
    | with_reducible apply loadMismatch_kept
    | with_reducible apply modSel_kept
    | with_reducible apply loadDone_kept
    | with_reducible apply pumpStarts_kept
    | with_reducible refine Kept.Out.next ?_
    | with_reducible refine Kept.Out.ite (fun _ => ?_) (fun _ => ?_)
    | exact fun h => h
    | exact fun _ h => h
    | decide
    | exact fun _ h => mset_canonical h _ _
    | exact fun _ h => Bay.invalidate_canonical h
    | exact fun _ h => canonical_nil _
    | exact fun _ h => Bay.storeLine_canonical h _ _
    | exact fun _ h => Bay.writeLine_canonical h _ _ _ _ _
    | exact fun _ hx => Panel.commitRow_canonical hx _ _ _
    | exact fun _ h => CtxDie.zeroPage_canonical h _
    | with_reducible refine Kept.ite (fun _ => ?_) (fun _ => ?_)
    | with_reducible refine Kept.ite_fst (fun _ => ?_) (fun _ => ?_)
    | refine fun _ _ _ => ?_
    | (lift_lets; intro s1; have hs1 : Kept L s₀ s1 := ?_; clear_value s1)
    | split

theorem execWeightsDigest_kept (h : Kept L s₀ s) (t fn slot : Nat)
    (hl : Within [.now, .panels, .weights, .host, .resil, .snags, .snagNext, .out] L := by exact sub (by assumption) (by decide)) : Kept.Out L s₀ (execWeightsDigest t fn slot s) := by
  unfold execWeightsDigest
  repeat' first
    | with_reducible exact sub (by assumption) (by decide)
    | with_reducible assumption
    | with_reducible apply tick_kept
    | with_reducible apply runCmd_kept
    | with_reducible apply readBanks_kept
    | with_reducible apply snagCtl_kept
    | with_reducible refine Kept.Out.next ?_
    | with_reducible refine Done.Kept.comp ?_
    | with_reducible refine Done.Kept.ite (fun _ => ?_) (fun _ => ?_)
    | refine fun _ _ _ => ?_
    | (lift_lets; intro _)
    | split

theorem execStoreReadError_kept (h : Kept L s₀ s) (t : Nat) (dev : Fin 16) (block op : Nat)
    (hl : Within [.now, .free, .mode, .panels, .bays, .rtrs, .ctx0, .ctx1, .pages, .prefixes, .plans, .reqs, .weights, .fab, .host, .keep, .snags, .snagNext, .out] L := by exact sub (by assumption) (by decide)) :
    Kept.Out L s₀ (execStoreReadError t dev block op s) := by
  unfold execStoreReadError
  repeat' first
    | with_reducible exact sub (by assumption) (by decide)
    | with_reducible assumption
    | with_reducible apply tick_kept
    | with_reducible apply modWeights_kept
    | with_reducible apply snagCtl_kept
    | with_reducible apply loadFails_kept
    | with_reducible apply stopUnload_kept
    | with_reducible refine foldl_kept (fun _ _ _ => ?_) ?_
    | with_reducible refine Kept.Out.next ?_
    | with_reducible refine Kept.ite (fun _ => ?_) (fun _ => ?_)

theorem execStoreDeviceFail_kept (h : Kept L s₀ s) (t : Nat) (dev : Fin 16)
    (hl : Within [.now, .panels, .bays, .rtrs, .weights, .host, .snags, .snagNext, .out] L := by exact sub (by assumption) (by decide)) : Kept.Out L s₀ (execStoreDeviceFail t dev s) := by
  unfold execStoreDeviceFail
  repeat' first
    | with_reducible exact sub (by assumption) (by decide)
    | with_reducible assumption
    | with_reducible apply tick_kept
    | with_reducible apply modWeights_kept
    | with_reducible apply loadFails_kept
    | with_reducible refine Kept.Out.next ?_
    | with_reducible refine Kept.ite (fun _ => ?_) (fun _ => ?_)

end Sys2Proof.Machine
end

