-- ==== Sys2Proof/Laws/KeptModule.lean ====
section
/-! SUPPORT. `Kept` holds after the operations of resilience, the Fabric die, power, the Keep, housekeeping, start-up and the host interface (one lemma per operation, `<operation>_kept`). -/

namespace Sys2Proof.Machine

set_option maxRecDepth 20000
set_option Elab.async false

variable {L : List Field} {s₀ s : State}

theorem rewritePanel_kept (h : Kept L s₀ s) (k : Nat) (ok : Bool)
    (hl : Within [.panels] L := by exact sub (by assumption) (by decide)) : Kept L s₀ (s.rewritePanel k ok).1 := by
  unfold State.rewritePanel
  dsimp only
  split
  · split
    · exact modPanel_kept h _ fun _ hx => Panel.commitRows_canonical hx _ _ _
    · exact h
  · exact h

theorem noticeStrikes_kept {s₀ : State} (b : Nat) (spared : Bool) (l : List (Nat × Nat))
    (hl : Within [.host, .resil, .snags, .snagNext, .out] L := by exact sub (by assumption) (by decide)) :
    ∀ {s : State}, Kept L s₀ s → Kept L s₀ (s.noticeStrikes b spared l).1 := by
  induction l with
  | nil => exact fun h => h
  | cons a l ih =>
    intro s h
    obtain ⟨row, panel⟩ := a
    unfold State.noticeStrikes
    dsimp only
    split
    · exact ih h
    · exact ih (strike_kept h _ _ _)

theorem execFaultNotice_kept (h : Kept L s₀ s) (t : Nat) (b : BayIx) (gen : BitVec 8) (kinds : BitVec 4) (panels : BitVec 32) (cnt : Nat)
    (hl : Within [.now, .free, .mode, .pwr, .panels, .bays, .rtrs, .ctx0, .ctx1, .pages, .prefixes, .plans, .reqs, .weights, .fab, .host, .keep, .resil, .snags, .snagNext, .out] L := by exact sub (by assumption) (by decide)) :
    Kept.Out L s₀ (execFaultNotice t b gen kinds panels cnt s) := by
  have g : Kept L s₀ ((s.tick t).pfIrq vecFault) := pfIrq_kept (tick_kept h t) _
  unfold execFaultNotice
  generalize State.pfIrq _ _ = u at g ⊢
  refine .next (Kept.ite (fun _ => g) fun _ => ?_)
  dsimp only
  split
  · exact g
  · exact detected_kept ((noticeStrikes_kept _ _ _) g) _

theorem execHbmRetrainDone_kept (h : Kept L s₀ s) (t : Nat) (failed : List (Fin 12))
    (hl : Within [.now, .free, .mode, .gen, .pwr, .boot, .panels, .bays, .rtrs, .ctx0, .ctx1, .pages, .prefixes, .plans, .reqs, .weights, .fab, .host, .keep, .resil, .snags, .snagNext, .out] L := by exact sub (by assumption) (by decide)) : Kept.Out L s₀ (execHbmRetrainDone t failed s) := by
  have g := tick_kept h t
  unfold execHbmRetrainDone
  generalize s.tick t = u at g ⊢
  refine .next (Kept.ite (fun _ => ?_) fun _ => g)
  exact nextStage_kept (modResil_kept (Kept.ctxs (closeSlots_kept (closeSlots_kept
    (foldl_kept (fun _ _ k => stackLeaves_kept k _ _ _) g) _) _) (fun m => by exact m) fun m => by exact m) _)

theorem modArms_kept (h : Kept L s₀ s) (id : Nat) (f : Armed → Armed)
    (hl : Within [.plans] L := by exact sub (by assumption) (by decide)) : Kept L s₀ (s.modArms id f) := by
  unfold State.modArms
  repeat' first
    | with_reducible exact sub (by assumption) (by decide)
    | with_reducible assumption
    | with_reducible apply modPlan_kept

theorem compared_kept (h : Kept L s₀ s) (id : Nat) (a : Armed)
    (hl : Within [.free, .mode, .pwr, .panels, .bays, .rtrs, .ctx0, .ctx1, .pages, .prefixes, .plans, .reqs, .weights, .fab, .host, .keep, .resil, .snags, .snagNext, .out] L := by exact sub (by assumption) (by decide)) : Kept L s₀ (s.compared id a) := by
  unfold State.compared
  repeat' first
    | with_reducible exact sub (by assumption) (by decide)
    | with_reducible assumption
    | with_reducible apply modArms_kept
    | with_reducible apply modResil_kept
    | with_reducible apply detected_kept
    | with_reducible apply snagCtl_kept
    | with_reducible apply strike_kept
    | with_reducible refine foldl_kept (fun _ _ _ => ?_) ?_
    | with_reducible refine Kept.ite (fun _ => ?_) (fun _ => ?_)

theorem hang_kept (h : Kept L s₀ s) (p : Loaded) (l : List Nat)
    (hl : Within [.free, .mode, .pwr, .panels, .bays, .rtrs, .ctx0, .ctx1, .pages, .prefixes, .plans, .reqs, .weights, .fab, .host, .keep, .resil, .snags, .snagNext, .out] L := by exact sub (by assumption) (by decide)) : Kept L s₀ (s.hang p l) := by
  unfold State.hang
  repeat' first
    | with_reducible exact sub (by assumption) (by decide)
    | with_reducible assumption
    | with_reducible apply snagCtl_kept
    | with_reducible apply strike_kept
    | with_reducible apply modPlan_kept
    | with_reducible apply detected_kept
    | with_reducible apply modResil_kept
    | with_reducible apply stopUnload_kept
    | with_reducible refine foldl_kept (fun _ _ _ => ?_) ?_
    | with_reducible refine Kept.ite (fun _ => ?_) (fun _ => ?_)
    | split

theorem skimDegraded_kept (h : Kept L s₀ s) (k : Nat) (res : BitVec 8)
    (hl : Within [.panels, .host, .snags, .snagNext, .out] L := by exact sub (by assumption) (by decide)) : Kept L s₀ (s.skimDegraded k res) := by
  unfold State.skimDegraded
  repeat' first
    | with_reducible exact sub (by assumption) (by decide)
    | with_reducible assumption
    | with_reducible apply skimEnds_kept
    | with_reducible apply modPanel_kept
    | with_reducible refine foldl_kept (fun _ _ _ => ?_) ?_
    | exact fun _ h => h
    | with_reducible refine Kept.ite (fun _ => ?_) (fun _ => ?_)

theorem hardFenceDie_kept (h : Kept L s₀ s) (d rail : Nat)
    (hl : Within [.rtrs, .host, .snags, .snagNext, .out] L := by exact sub (by assumption) (by decide)) : Kept L s₀ (s.hardFenceDie d rail) := by
  unfold State.hardFenceDie
  repeat' first
    | with_reducible exact sub (by assumption) (by decide)
    | with_reducible assumption
    | with_reducible apply modRtr_kept
    | with_reducible apply snagCtl_kept
    | with_reducible refine foldl_kept (fun _ _ _ => ?_) ?_

theorem lostRail_kept (h : Kept L s₀ s) (r : Nat)
    (hl : Within [.free, .mode, .pwr, .panels, .bays, .rtrs, .ctx0, .ctx1, .pages, .prefixes, .plans, .reqs, .weights, .fab, .host, .keep, .resil, .snags, .snagNext, .out] L := by exact sub (by assumption) (by decide)) : Kept L s₀ (s.lostRail r) := by
  unfold State.lostRail
  repeat' first
    | with_reducible exact sub (by assumption) (by decide)
    | with_reducible assumption
    | with_reducible apply detected_kept
    | with_reducible apply hardFenceDie_kept
    | with_reducible apply hardFound_kept
    | with_reducible apply loseCtx_kept
    | with_reducible apply closeSlots_kept
    | with_reducible refine Kept.ite (fun _ => ?_) (fun _ => ?_)
    | (lift_lets; intro _)
    | with_reducible refine Kept.same ?_

theorem execAuditSignature_kept (h : Kept L s₀ s) (t : Nat) (b : BayIx) (gen : BitVec 8) (stroke : Nat) (crc : BitVec 64)
    (hl : Within [.now, .free, .mode, .pwr, .panels, .bays, .rtrs, .ctx0, .ctx1, .pages, .prefixes, .plans, .reqs, .weights, .fab, .host, .keep, .resil, .snags, .snagNext, .out] L := by exact sub (by assumption) (by decide)) :
    Kept.Out L s₀ (execAuditSignature t b gen stroke crc s) := by
  unfold execAuditSignature
  repeat' first
    | with_reducible exact sub (by assumption) (by decide)
    | with_reducible assumption
    | with_reducible apply tick_kept
    | with_reducible apply modArms_kept
    | with_reducible apply compared_kept
    | with_reducible refine foldl_kept (fun _ _ _ => ?_) ?_
    | with_reducible refine Kept.Out.next ?_
    | with_reducible refine Kept.ite (fun _ => ?_) (fun _ => ?_)
    | (lift_lets; intro _)
    | split

theorem execAuditSignatureTimeout_kept (h : Kept L s₀ s) (t plan : Nat)
    (hl : Within [.now, .free, .mode, .pwr, .panels, .bays, .rtrs, .ctx0, .ctx1, .pages, .prefixes, .plans, .reqs, .weights, .fab, .host, .keep, .resil, .snags, .snagNext, .out] L := by exact sub (by assumption) (by decide)) : Kept.Out L s₀ (execAuditSignatureTimeout t plan s) := by
  unfold execAuditSignatureTimeout
  repeat' first
    | with_reducible exact sub (by assumption) (by decide)
    | with_reducible assumption
    | with_reducible apply tick_kept
    | with_reducible apply modResil_kept
    | with_reducible apply snagCtl_kept
    | with_reducible apply modArms_kept
    | with_reducible apply detected_kept
    | with_reducible refine foldl_kept (fun _ _ _ => ?_) ?_
    | with_reducible refine Kept.Out.next ?_
    | with_reducible refine Kept.ite (fun _ => ?_) (fun _ => ?_)
    | split

theorem execHangSample_kept (h : Kept L s₀ s) (t : Nat)
    (hl : Within [.now, .free, .mode, .pwr, .panels, .bays, .rtrs, .ctx0, .ctx1, .pages, .prefixes, .plans, .reqs, .weights, .fab, .host, .keep, .resil, .snags, .snagNext, .out] L := by exact sub (by assumption) (by decide)) : Kept.Out L s₀ (execHangSample t s) := by
  unfold execHangSample
  repeat' first
    | with_reducible exact sub (by assumption) (by decide)
    | with_reducible assumption
    | with_reducible apply tick_kept
    | with_reducible apply hang_kept
    | with_reducible apply modResil_kept
    | with_reducible refine foldl_kept (fun _ _ _ => ?_) ?_
    | with_reducible refine Kept.Out.next ?_
    | with_reducible refine Kept.ite (fun _ => ?_) (fun _ => ?_)

theorem execCoreWatchdogExpiry_kept (h : Kept L s₀ s) (t : Nat) (core : Fin 4)
    (hl : Within [.now, .host, .resil, .snags, .snagNext, .out] L := by exact sub (by assumption) (by decide)) : Kept.Out L s₀ (execCoreWatchdogExpiry t core s) := by
  unfold execCoreWatchdogExpiry
  repeat' first
    | with_reducible exact sub (by assumption) (by decide)
    | with_reducible assumption
    | with_reducible apply tick_kept
    | with_reducible apply modResil_kept
    | with_reducible apply snagCtl_kept
    | with_reducible refine Kept.Out.next ?_
    | with_reducible refine Kept.ite (fun _ => ?_) (fun _ => ?_)

theorem execQuiesceDone_kept (h : Kept L s₀ s) (t : Nat)
    (hl : Within [.now, .free, .mode, .gen, .pwr, .boot, .panels, .bays, .rtrs, .ctx0, .ctx1, .pages, .prefixes, .plans, .reqs, .weights, .fab, .host, .keep, .resil, .snags, .snagNext, .out] L := by exact sub (by assumption) (by decide)) : Kept.Out L s₀ (execQuiesceDone t s) := by
  unfold execQuiesceDone
  repeat' first
    | with_reducible exact sub (by assumption) (by decide)
    | with_reducible assumption
    | with_reducible apply tick_kept
    | with_reducible apply resetStage_kept
    | with_reducible refine Kept.Out.next ?_
    | with_reducible refine Kept.ite (fun _ => ?_) (fun _ => ?_)

theorem execComputeResetDone_kept (h : Kept L s₀ s) (t : Nat) (skims : List (Nat × BitVec 8))
    (hl : Within [.now, .free, .mode, .gen, .pwr, .boot, .panels, .bays, .rtrs, .ctx0, .ctx1, .pages, .prefixes, .plans, .reqs, .weights, .fab, .host, .keep, .resil, .snags, .snagNext, .out] L := by exact sub (by assumption) (by decide)) :
    Kept.Out L s₀ (execComputeResetDone t skims s) := by
  unfold execComputeResetDone
  repeat' first
    | with_reducible exact sub (by assumption) (by decide)
    | with_reducible assumption
    | with_reducible apply tick_kept
    | with_reducible apply skimDegraded_kept
    | with_reducible apply drawn_kept
    | with_reducible apply modResil_kept
    | with_reducible apply fenceBays_kept
    | with_reducible apply nextStage_kept
    | with_reducible refine foldl_kept (fun _ _ _ => ?_) ?_
    | with_reducible refine Kept.Out.next ?_
    | with_reducible refine Kept.ite (fun _ => ?_) (fun _ => ?_)
    | split

theorem execWeightRedigestDone_kept (h : Kept L s₀ s) (t : Nat) (bad : List (Nat × Bool))
    (hl : Within [.now, .free, .mode, .gen, .pwr, .boot, .panels, .bays, .rtrs, .ctx0, .ctx1, .pages, .prefixes, .plans, .reqs, .weights, .fab, .host, .keep, .resil, .snags, .snagNext, .out] L := by exact sub (by assumption) (by decide)) : Kept.Out L s₀ (execWeightRedigestDone t bad s) := by
  unfold execWeightRedigestDone
  repeat' first
    | with_reducible exact sub (by assumption) (by decide)
    | with_reducible assumption
    | with_reducible apply tick_kept
    | with_reducible apply readBanks_kept
    | with_reducible apply modResil_kept
    | with_reducible apply rewritePanel_kept
    | with_reducible apply snagBay_kept
    | with_reducible apply fenceBays_kept
    | with_reducible apply nextStage_kept
    | with_reducible refine foldl_kept (fun _ _ _ => ?_) ?_
    | with_reducible refine Kept.Out.next ?_
    | with_reducible refine Kept.ite (fun _ => ?_) (fun _ => ?_)

theorem execFabricRetrainDone_kept (h : Kept L s₀ s) (t : Nat)
    (hl : Within [.now, .free, .mode, .gen, .pwr, .boot, .panels, .bays, .rtrs, .ctx0, .ctx1, .pages, .prefixes, .plans, .reqs, .weights, .fab, .host, .keep, .resil, .snags, .snagNext, .out] L := by exact sub (by assumption) (by decide)) : Kept.Out L s₀ (execFabricRetrainDone t s) := by
  unfold execFabricRetrainDone
  repeat' first
    | with_reducible exact sub (by assumption) (by decide)
    | with_reducible assumption
    | with_reducible apply tick_kept
    | with_reducible apply nextStage_kept
    | with_reducible refine Kept.Out.next ?_
    | with_reducible refine Kept.ite (fun _ => ?_) (fun _ => ?_)

theorem execResumeDone_kept (h : Kept L s₀ s) (t : Nat)
    (hl : Within [.now, .free, .mode, .gen, .pwr, .boot, .panels, .bays, .rtrs, .ctx0, .ctx1, .pages, .prefixes, .plans, .reqs, .weights, .fab, .host, .keep, .resil, .snags, .snagNext, .out] L := by exact sub (by assumption) (by decide)) : Kept.Out L s₀ (execResumeDone t s) :=
  .next (Kept.ite (fun c => Kept.ite (fun _ => nextStage_kept (tick_kept h t)) fun _ =>
    Kept.ite (fun _ => withdraw_kept (tick_kept h t) _ (by rw [c.1]; decide)) fun _ => finishRecovery_kept (tick_kept h t) c.1)
    fun _ => tick_kept h t)

theorem execRecoveryTimeout_kept (h : Kept L s₀ s) (t : Nat)
    (hl : Within [.now, .free, .mode, .pwr, .panels, .bays, .rtrs, .ctx0, .ctx1, .pages, .prefixes, .plans, .reqs, .weights, .fab, .host, .keep, .resil, .snags, .snagNext, .out] L := by exact sub (by assumption) (by decide)) : Kept.Out L s₀ (execRecoveryTimeout t s) := by
  exact .next (Kept.ite (fun c => withdraw_kept (tick_kept h t) _ (by rw [c.1]; decide)) fun _ => tick_kept h t)

theorem execFence_kept (h : Kept L s₀ s) (t fn slot : Nat)
    (hl : Within [.now, .free, .mode, .pwr, .panels, .bays, .rtrs, .ctx0, .ctx1, .pages, .prefixes, .plans, .reqs, .weights, .fab, .host, .keep, .resil, .snags, .snagNext, .out] L := by exact sub (by assumption) (by decide)) : Kept.Out L s₀ (execFence t fn slot s) := by
  unfold execFence
  repeat' first
    | with_reducible exact sub (by assumption) (by decide)
    | with_reducible assumption
    | with_reducible apply tick_kept
    | with_reducible apply runCmd_kept
    | with_reducible apply wait_kept
    | with_reducible apply startRecovery_kept
    | with_reducible apply fenceBays_kept
    | with_reducible refine Kept.Out.next ?_
    | with_reducible refine Done.Kept.comp ?_
    | with_reducible refine Done.Kept.waits ?_
    | with_reducible refine Done.Kept.ite (fun _ => ?_) (fun _ => ?_)
    | refine fun _ _ _ => ?_

theorem execFenceRouter_kept (h : Kept L s₀ s) (t fn slot : Nat)
    (hl : Within [.now, .free, .mode, .pwr, .panels, .bays, .rtrs, .ctx0, .ctx1, .pages, .prefixes, .plans, .reqs, .weights, .fab, .host, .keep, .resil, .snags, .snagNext, .out] L := by exact sub (by assumption) (by decide)) : Kept.Out L s₀ (execFenceRouter t fn slot s) := by
  unfold execFenceRouter
  repeat' first
    | with_reducible exact sub (by assumption) (by decide)
    | with_reducible assumption
    | with_reducible apply tick_kept
    | with_reducible apply runCmd_kept
    | with_reducible apply hardFence_kept
    | with_reducible apply wait_kept
    | with_reducible apply startRecovery_kept
    | with_reducible apply fenceBays_kept
    | with_reducible refine Kept.Out.next ?_
    | with_reducible refine Done.Kept.comp ?_
    | with_reducible refine Done.Kept.waits ?_
    | with_reducible refine Done.Kept.ite (fun _ => ?_) (fun _ => ?_)
    | refine fun _ _ _ => ?_

theorem execUnfence_kept (h : Kept L s₀ s) (t fn slot : Nat)
    (hl : Within [.now, .free, .mode, .pwr, .panels, .bays, .rtrs, .ctx0, .ctx1, .pages, .prefixes, .plans, .reqs, .weights, .fab, .host, .keep, .resil, .snags, .snagNext, .out] L := by exact sub (by assumption) (by decide)) : Kept.Out L s₀ (execUnfence t fn slot s) := by
  unfold execUnfence
  repeat' first
    | with_reducible exact sub (by assumption) (by decide)
    | with_reducible assumption
    | with_reducible apply tick_kept
    | with_reducible apply runCmd_kept
    | with_reducible apply wait_kept
    | with_reducible apply startRecovery_kept
    | with_reducible apply modResil_kept
    | with_reducible apply unfenceOne_kept
    | with_reducible refine Kept.Out.next ?_
    | with_reducible refine Done.Kept.comp ?_
    | with_reducible refine Done.Kept.waits ?_
    | with_reducible refine Done.Kept.ite (fun _ => ?_) (fun _ => ?_)
    | refine fun _ _ _ => ?_

theorem execResetCompute_kept (h : Kept L s₀ s) (t fn slot : Nat)
    (hl : Within [.now, .free, .mode, .pwr, .panels, .bays, .rtrs, .ctx0, .ctx1, .pages, .prefixes, .plans, .reqs, .weights, .fab, .host, .keep, .resil, .snags, .snagNext, .out] L := by exact sub (by assumption) (by decide)) : Kept.Out L s₀ (execResetCompute t fn slot s) := by
  unfold execResetCompute
  repeat' first
    | with_reducible exact sub (by assumption) (by decide)
    | with_reducible assumption
    | with_reducible apply tick_kept
    | with_reducible apply runCmd_kept
    | with_reducible apply wait_kept
    | with_reducible apply startRecovery_kept
    | with_reducible refine Kept.Out.next ?_
    | with_reducible refine Done.Kept.waits ?_
    | refine fun _ _ _ => ?_

theorem execLinkCrcFail_kept (h : Kept L s₀ s) (t : Nat) (b : BayIx) (port : Fin 4)
    (hl : Within [.now, .free, .mode, .pwr, .panels, .bays, .rtrs, .ctx0, .ctx1, .pages, .prefixes, .plans, .reqs, .weights, .fab, .host, .keep, .resil, .intr, .snags, .snagNext, .out] L := by exact sub (by assumption) (by decide)) : Kept.Out L s₀ (execLinkCrcFail t b port s) := by
  unfold execLinkCrcFail
  repeat' first
    | with_reducible exact sub (by assumption) (by decide)
    | with_reducible assumption
    | with_reducible apply tick_kept
    | with_reducible apply stickyRtr_kept
    | with_reducible apply intrude_kept
    | with_reducible apply modRtr_kept
    | with_reducible apply hardFence_kept
    | with_reducible apply hardFound_kept
    | with_reducible refine Kept.Out.next ?_
    | with_reducible refine Kept.ite (fun _ => ?_) (fun _ => ?_)
    | (lift_lets; intro _)
    | split
    | with_reducible refine Kept.same ?_

theorem execRtrHardFenceWrite_kept (h : Kept L s₀ s) (t : Nat) (b : BayIx)
    (hl : Within [.now, .free, .mode, .pwr, .panels, .bays, .rtrs, .ctx0, .ctx1, .pages, .prefixes, .plans, .reqs, .weights, .fab, .host, .keep, .resil, .snags, .snagNext, .out] L := by exact sub (by assumption) (by decide)) : Kept.Out L s₀ (execRtrHardFenceWrite t b s) := by
  unfold execRtrHardFenceWrite
  repeat' first
    | with_reducible exact sub (by assumption) (by decide)
    | with_reducible assumption
    | with_reducible apply tick_kept
    | with_reducible apply hardFence_kept
    | with_reducible apply hardFound_kept
    | with_reducible refine Kept.Out.next ?_
    | with_reducible refine Kept.ite (fun _ => ?_) (fun _ => ?_)

theorem pumpPort_kept {s₀ : State} (p : Nat) (n : Nat)
    (hl : Within [.fab, .out] L := by exact sub (by assumption) (by decide)) : ∀ {s : State}, Kept L s₀ s → Kept L s₀ (s.pumpPort p n) := by
  induction n with
  | zero => exact fun h => h
  | succ n ih =>
    intro s h
    unfold State.pumpPort
    dsimp only
    refine Kept.ite (fun _ => h) fun _ => ?_
    split
    · exact h
    · exact ih (sendOut_kept (modPort_kept h _ _) _ _)

theorem pump_kept (h : Kept L s₀ s) (p : Nat)
    (hl : Within [.fab, .out] L := by exact sub (by assumption) (by decide)) : Kept L s₀ (s.pump p) := by
  unfold State.pump
  repeat' first
    | with_reducible exact sub (by assumption) (by decide)
    | with_reducible assumption
    | with_reducible apply pumpPort_kept

theorem frame_kept (h : Kept L s₀ s) (p plane link : Nat) (f : Flit) (ls : List Line)
    (hl : Within [.fab, .keep, .out] L := by exact sub (by assumption) (by decide)) : Kept L s₀ (s.frame p plane link f ls) := by
  unfold State.frame
  repeat' first
    | with_reducible exact sub (by assumption) (by decide)
    | with_reducible assumption
    | with_reducible apply modPort_kept
    | with_reducible apply pump_kept
    | exact fun h => h
    | exact fun _ h => h
    | decide
    | exact fun _ h => mset_canonical h _ _
    | exact fun _ h => Bay.invalidate_canonical h
    | exact fun _ h => canonical_nil _
    | exact fun _ h => Bay.storeLine_canonical h _ _
    | exact fun _ h => Bay.writeLine_canonical h _ _ _ _ _
    | exact fun _ hx => Panel.commitRow_canonical hx _ _ _
    | exact fun _ h => CtxDie.zeroPage_canonical h _
    | with_reducible refine Kept.ite (fun _ => ?_) (fun _ => ?_)
    | with_reducible refine Kept.ite_fst (fun _ => ?_) (fun _ => ?_)
    | refine fun _ _ _ => ?_
    | (lift_lets; intro _)
    | split
    | with_reducible refine Kept.same ?_

theorem dropRest_kept (h : Kept L s₀ s) (p : Nat) (f : Flit)
    (hl : Within [.fab] L := by exact sub (by assumption) (by decide)) : Kept L s₀ (s.dropRest p f) := by
  unfold State.dropRest
  repeat' first
    | with_reducible exact sub (by assumption) (by decide)
    | with_reducible assumption
    | with_reducible apply modPort_kept

theorem rehome_kept (h : Kept L s₀ s)
    (hl : Within [.fab, .out] L := by exact sub (by assumption) (by decide)) : Kept L s₀ (s.rehome) := by
  unfold State.rehome
  repeat' first
    | with_reducible exact sub (by assumption) (by decide)
    | with_reducible assumption
    | with_reducible apply modPort_kept
    | with_reducible apply pump_kept
    | with_reducible refine foldl_kept (fun _ _ _ => ?_) ?_
    | exact fun h => h
    | exact fun _ h => h
    | decide
    | exact fun _ h => mset_canonical h _ _
    | exact fun _ h => Bay.invalidate_canonical h
    | exact fun _ h => canonical_nil _
    | exact fun _ h => Bay.storeLine_canonical h _ _
    | exact fun _ h => Bay.writeLine_canonical h _ _ _ _ _
    | exact fun _ hx => Panel.commitRow_canonical hx _ _ _
    | exact fun _ h => CtxDie.zeroPage_canonical h _
    | with_reducible refine Kept.ite (fun _ => ?_) (fun _ => ?_)
    | with_reducible refine Kept.ite_fst (fun _ => ?_) (fun _ => ?_)
    | refine fun _ _ _ => ?_
    | (lift_lets; intro _)
    | split

theorem violation_kept (h : Kept L s₀ s) (p reason seq vc : Nat)
    (hl : Within [.fab, .host, .snags, .snagNext, .out] L := by exact sub (by assumption) (by decide)) : Kept L s₀ (s.violation p reason seq vc) := by
  unfold State.violation
  repeat' first
    | with_reducible exact sub (by assumption) (by decide)
    | with_reducible assumption
    | with_reducible apply modPort_kept
    | with_reducible apply snagPort_kept
    | with_reducible apply sendOut_kept
    | with_reducible apply portTo_kept
    | with_reducible apply rehome_kept
    | exact fun h => h
    | exact fun _ h => h
    | decide
    | exact fun _ h => mset_canonical h _ _
    | exact fun _ h => Bay.invalidate_canonical h
    | exact fun _ h => canonical_nil _
    | exact fun _ h => Bay.storeLine_canonical h _ _
    | exact fun _ h => Bay.writeLine_canonical h _ _ _ _ _
    | exact fun _ hx => Panel.commitRow_canonical hx _ _ _
    | exact fun _ h => CtxDie.zeroPage_canonical h _
    | with_reducible refine Kept.ite (fun _ => ?_) (fun _ => ?_)

theorem rxFlit_kept (h : Kept L s₀ s) (p : Nat) (f : Flit)
    (hl : Within [.fab, .host, .snags, .snagNext, .out] L := by exact sub (by assumption) (by decide)) : Kept L s₀ (s.rxFlit p f).1 := by
  unfold State.rxFlit
  dsimp only
  refine Kept.ite_fst (fun _ => h) fun _ => ?_
  have h1 : Kept L s₀ (s.modPort p fun x => x.fec f) := modPort_kept h _ _
  generalize s.modPort p (fun x => x.fec f) = s1 at h1 ⊢
  refine Kept.ite_fst (fun _ => Kept.ite_fst (fun _ => h1) fun _ => sendOut_kept (modPort_kept h1 _ _) _ _) fun _ =>
    Kept.ite_fst (fun _ => h1) fun _ => Kept.ite_fst (fun _ => pump_kept (Kept.ite (fun _ => modPort_kept h1 _ _) fun _ => h1) _) fun _ => ?_
  split
  · exact violation_kept (dropRest_kept (Kept.ite (fun _ => modPort_kept (modPort_kept h1 _ _) _ _) fun _ => modPort_kept h1 _ _) _ _) _ _ _ _
  · refine Kept.ite_fst (fun _ => ?_) fun _ => ?_
    all_goals
      dsimp only
      exact modPort_kept (modPort_kept (modPort_kept h1 _ _) _ _) _ _

theorem applyRec_kept (h : Kept L s₀ s) (id : Nat) (x : StepRec)
    (hl : Within [.free, .ctx0, .ctx1, .pages, .prefixes, .host, .keep, .snags, .snagNext, .out] L := by exact sub (by assumption) (by decide)) : Kept L s₀ (s.applyRec id x) := by
  unfold State.applyRec
  repeat' first
    | with_reducible exact sub (by assumption) (by decide)
    | with_reducible assumption
    | with_reducible apply openSeq_kept
    | with_reducible apply keepPrefix_kept
    | with_reducible apply closeSeq_kept
    | exact fun h => h
    | exact fun _ h => h
    | decide
    | exact fun _ h => mset_canonical h _ _
    | exact fun _ h => Bay.invalidate_canonical h
    | exact fun _ h => canonical_nil _
    | exact fun _ h => Bay.storeLine_canonical h _ _
    | exact fun _ h => Bay.writeLine_canonical h _ _ _ _ _
    | exact fun _ hx => Panel.commitRow_canonical hx _ _ _
    | exact fun _ h => CtxDie.zeroPage_canonical h _
    | with_reducible refine Kept.ite (fun _ => ?_) (fun _ => ?_)
    | with_reducible refine Kept.ite_fst (fun _ => ?_) (fun _ => ?_)
    | refine fun _ _ _ => ?_
    | (lift_lets; intro _)
    | split

theorem frameMgmt_kept (h : Kept L s₀ s)
    (hl : Within [.fab, .keep, .out] L := by exact sub (by assumption) (by decide)) : Kept L s₀ (s.frameMgmt) := by
  unfold State.frameMgmt
  repeat' first
    | with_reducible exact sub (by assumption) (by decide)
    | with_reducible assumption
    | with_reducible apply modFab_kept
    | with_reducible apply frame_kept
    | exact fun h => h
    | exact fun _ h => h
    | decide
    | exact fun _ h => mset_canonical h _ _
    | exact fun _ h => Bay.invalidate_canonical h
    | exact fun _ h => canonical_nil _
    | exact fun _ h => Bay.storeLine_canonical h _ _
    | exact fun _ h => Bay.writeLine_canonical h _ _ _ _ _
    | exact fun _ hx => Panel.commitRow_canonical hx _ _ _
    | exact fun _ h => CtxDie.zeroPage_canonical h _
    | (intro _ h; split <;> exact h)
    | with_reducible refine Kept.ite (fun _ => ?_) (fun _ => ?_)
    | with_reducible refine Kept.ite_fst (fun _ => ?_) (fun _ => ?_)
    | refine fun _ _ _ => ?_
    | (lift_lets; intro _)
    | split

theorem staleFab_kept (h : Kept L s₀ s) (f : Option Flit)
    (hl : Within [.fab, .host, .snags, .snagNext, .out] L := by exact sub (by assumption) (by decide)) : Kept L s₀ (s.staleFab f) := by
  unfold State.staleFab
  repeat' first
    | with_reducible exact sub (by assumption) (by decide)
    | with_reducible assumption
    | with_reducible apply modFab_kept
    | with_reducible apply snag_kept
    | with_reducible refine Kept.ite (fun _ => ?_) (fun _ => ?_)
    | (lift_lets; intro _)
    | split

theorem targetDrop_kept (h : Kept L s₀ s)
    (hl : Within [.fab] L := by exact sub (by assumption) (by decide)) : Kept L s₀ (s.targetDrop) := by
  unfold State.targetDrop
  repeat' first
    | with_reducible exact sub (by assumption) (by decide)
    | with_reducible assumption
    | with_reducible apply modFab_kept

theorem execFabricEgressMessage_kept (h : Kept L s₀ s) (t : Nat) (link : Fin 32) (ms : List MLine)
    (hl : Within [.now, .edgeQ, .fab, .host, .keep, .snags, .snagNext, .out] L := by exact sub (by assumption) (by decide)) :
    Kept.Out L s₀ (execFabricEgressMessage t link ms s) := by
  have g := tick_kept h t
  unfold execFabricEgressMessage
  generalize s.tick t = u at g ⊢
  refine .next ?_
  dsimp only
  split
  · exact frameMgmt_kept g
  · have k := takeEdge_kept g 16 link
    split
    · exact g
    · have e := k _ _ ‹_›
      refine Kept.ite (fun _ => staleFab_kept e _) fun _ => Kept.ite (fun _ => g) fun _ => ?_
      split
      · exact targetDrop_kept e
      · split
        · exact modFab_kept e _
        · split
          · exact g
          · exact frame_kept e _ _ _ _ _

theorem startPorts_kept (h : Kept L s₀ s)
    (hl : Within [.fab, .host, .snags, .snagNext, .out] L := by exact sub (by assumption) (by decide)) : Kept L s₀ (s.startPorts) := by
  unfold State.startPorts
  repeat' first
    | with_reducible exact sub (by assumption) (by decide)
    | with_reducible assumption
    | with_reducible apply trainPort_kept
    | with_reducible refine foldl_kept (fun _ _ _ => ?_) ?_
    | with_reducible refine Kept.ite (fun _ => ?_) (fun _ => ?_)

theorem portDown_kept (h : Kept L s₀ s) (p cause : Nat)
    (hl : Within [.fab, .host, .snags, .snagNext, .out] L := by exact sub (by assumption) (by decide)) : Kept L s₀ (s.portDown p cause) := by
  unfold State.portDown
  repeat' first
    | with_reducible exact sub (by assumption) (by decide)
    | with_reducible assumption
    | with_reducible apply portTo_kept
    | with_reducible apply snagPort_kept
    | with_reducible apply rehome_kept

theorem replayPort_kept (h : Kept L s₀ s) (p : Nat)
    (hl : Within [.fab, .host, .intr, .snags, .snagNext, .out] L := by exact sub (by assumption) (by decide)) : Kept L s₀ (s.replayPort p) := by
  unfold State.replayPort
  repeat' first
    | with_reducible exact sub (by assumption) (by decide)
    | with_reducible assumption
    | with_reducible apply sendOut_kept
    | with_reducible apply modPort_kept
    | with_reducible apply intrude_kept
    | with_reducible apply portDown_kept
    | with_reducible refine foldl_kept (fun _ _ _ => ?_) ?_
    | with_reducible refine Kept.ite (fun _ => ?_) (fun _ => ?_)

theorem keepOpen_kept (h : Kept L s₀ s) (p : Nat) (f : Flit)
    (hl : Within [.fab] L := by exact sub (by assumption) (by decide)) : Kept L s₀ (s.keepOpen p f) := by
  unfold State.keepOpen
  repeat' first
    | with_reducible exact sub (by assumption) (by decide)
    | with_reducible assumption
    | with_reducible apply modPort_kept

theorem tagDrop_kept (h : Kept L s₀ s) (p : Nat) (f : Flit)
    (hl : Within [.fab, .host, .snags, .snagNext, .out] L := by exact sub (by assumption) (by decide)) : Kept L s₀ (s.tagDrop p f) := by
  unfold State.tagDrop
  repeat' first
    | with_reducible exact sub (by assumption) (by decide)
    | with_reducible assumption
    | with_reducible apply modFab_kept
    | with_reducible apply snag_kept
    | with_reducible refine Kept.ite (fun _ => ?_) (fun _ => ?_)

theorem ivAccept_kept (h : Kept L s₀ s) (f : Flit)
    (hl : Within [.keep] L := by exact sub (by assumption) (by decide)) : Kept L s₀ (s.ivAccept f) := by
  unfold State.ivAccept
  repeat' first
    | with_reducible exact sub (by assumption) (by decide)
    | with_reducible assumption
    | with_reducible refine Kept.ite (fun _ => ?_) (fun _ => ?_)
    | (lift_lets; intro _)
    | with_reducible refine Kept.same ?_

theorem injectFlit_kept (h : Kept L s₀ s) (f : Flit)
    (hl : Within [.rtrs, .host, .snags, .snagNext, .out] L := by exact sub (by assumption) (by decide)) : Kept L s₀ (s.injectFlit f) := by
  unfold State.injectFlit
  repeat' first
    | with_reducible exact sub (by assumption) (by decide)
    | with_reducible assumption
    | with_reducible apply edgeInject_kept
    | with_reducible refine foldl_kept (fun _ _ _ => ?_) ?_

theorem startWidth_kept (h : Kept L s₀ s) (p w lane uncorr ratio : Nat)
    (hl : Within [.fab, .host, .intr, .snags, .snagNext, .out] L := by exact sub (by assumption) (by decide)) : Kept L s₀ (s.startWidth p w lane uncorr ratio) := by
  unfold State.startWidth
  repeat' first
    | with_reducible exact sub (by assumption) (by decide)
    | with_reducible assumption
    | with_reducible apply portDown_kept
    | with_reducible apply modPort_kept
    | with_reducible apply sendOut_kept
    | with_reducible apply intrude_kept
    | with_reducible apply snagPort_kept
    | with_reducible refine Kept.ite (fun _ => ?_) (fun _ => ?_)

theorem releasePort_kept (h : Kept L s₀ s) (p : Nat)
    (hl : Within [.fab, .host, .snags, .snagNext, .out] L := by exact sub (by assumption) (by decide)) : Kept L s₀ (s.releasePort p) := by
  unfold State.releasePort
  repeat' first
    | with_reducible exact sub (by assumption) (by decide)
    | with_reducible assumption
    | with_reducible apply trainPort_kept
    | with_reducible refine Kept.ite (fun _ => ?_) (fun _ => ?_)

theorem retrainPort_kept (h : Kept L s₀ s) (p : Nat)
    (hl : Within [.fab, .host, .snags, .snagNext, .out] L := by exact sub (by assumption) (by decide)) : Kept L s₀ (s.retrainPort p) := by
  unfold State.retrainPort
  repeat' first
    | with_reducible exact sub (by assumption) (by decide)
    | with_reducible assumption
    | with_reducible apply rehome_kept
    | with_reducible apply trainPort_kept
    | with_reducible apply modPort_kept
    | with_reducible refine Kept.ite (fun _ => ?_) (fun _ => ?_)
    | split

theorem clearPort_kept (h : Kept L s₀ s) (p : Nat)
    (hl : Within [.fab] L := by exact sub (by assumption) (by decide)) : Kept L s₀ (s.clearPort p) := by
  unfold State.clearPort
  repeat' first
    | with_reducible exact sub (by assumption) (by decide)
    | with_reducible assumption
    | with_reducible apply modPort_kept

theorem clearFab_kept (h : Kept L s₀ s)
    (hl : Within [.fab] L := by exact sub (by assumption) (by decide)) : Kept L s₀ (s.clearFab) := by
  unfold State.clearFab
  repeat' first
    | with_reducible exact sub (by assumption) (by decide)
    | with_reducible assumption
    | with_reducible apply modFab_kept

theorem sendAborts_kept (h : Kept L s₀ s) (p : Loaded) (no : Nat)
    (hl : Within [.fab, .out] L := by exact sub (by assumption) (by decide)) : Kept L s₀ (s.sendAborts p no) := by
  unfold State.sendAborts
  repeat' first
    | with_reducible exact sub (by assumption) (by decide)
    | with_reducible assumption
    | with_reducible apply sendFab_kept
    | with_reducible refine foldl_kept (fun _ _ _ => ?_) ?_

theorem abortReset_kept (h : Kept L s₀ s)
    (hl : Within [.free, .mode, .pwr, .panels, .bays, .rtrs, .ctx0, .ctx1, .pages, .prefixes, .plans, .reqs, .weights, .fab, .host, .keep, .resil, .snags, .snagNext, .out] L := by exact sub (by assumption) (by decide)) : Kept L s₀ (s.abortReset) := by
  unfold State.abortReset
  repeat' first
    | with_reducible exact sub (by assumption) (by decide)
    | with_reducible assumption
    | with_reducible apply startRecovery_kept
    | with_reducible refine Kept.ite (fun _ => ?_) (fun _ => ?_)

theorem peerChanged_kept (h : Kept L s₀ s) (p : Loaded) (src : Nat)
    (hl : Within [.free, .mode, .pwr, .panels, .bays, .rtrs, .ctx0, .ctx1, .pages, .prefixes, .plans, .reqs, .weights, .fab, .host, .keep, .resil, .snags, .snagNext, .out] L := by exact sub (by assumption) (by decide)) : Kept L s₀ (s.peerChanged p src) := by
  unfold State.peerChanged
  repeat' first
    | with_reducible exact sub (by assumption) (by decide)
    | with_reducible assumption
    | with_reducible apply abortReset_kept
    | with_reducible apply sendAborts_kept
    | with_reducible refine Kept.ite (fun _ => ?_) (fun _ => ?_)
    | split

theorem peerStops_kept (h : Kept L s₀ s) (p : Loaded) (src why : Nat)
    (hl : Within [.free, .mode, .panels, .bays, .rtrs, .ctx0, .ctx1, .pages, .prefixes, .plans, .reqs, .weights, .fab, .host, .keep, .snags, .snagNext, .out] L := by exact sub (by assumption) (by decide)) : Kept L s₀ (s.peerStops p src why) := by
  unfold State.peerStops
  repeat' first
    | with_reducible exact sub (by assumption) (by decide)
    | with_reducible assumption
    | with_reducible apply snag_kept
    | with_reducible apply stopPlan_kept
    | with_reducible refine Kept.ite (fun _ => ?_) (fun _ => ?_)

theorem execPortTrainingDone_kept (h : Kept L s₀ s) (t : Nat) (p : Fin 16) (lanes : BitVec 8) (plane rack down : Nat)
    (hl : Within [.now, .fab, .host, .resil, .snags, .snagNext, .out] L := by exact sub (by assumption) (by decide)) : Kept.Out L s₀ (execPortTrainingDone t p lanes plane rack down s) := by
  unfold execPortTrainingDone
  repeat' first
    | with_reducible exact sub (by assumption) (by decide)
    | with_reducible assumption
    | with_reducible apply tick_kept
    | with_reducible apply retrainNext_kept
    | with_reducible apply portDown_kept
    | with_reducible apply portTo_kept
    | with_reducible apply snagPort_kept
    | with_reducible apply rehome_kept
    | with_reducible refine Kept.Out.next ?_
    | with_reducible refine Kept.Out.ite (fun _ => ?_) (fun _ => ?_)
    | exact fun h => h
    | exact fun _ h => h
    | decide
    | exact fun _ h => mset_canonical h _ _
    | exact fun _ h => Bay.invalidate_canonical h
    | exact fun _ h => canonical_nil _
    | exact fun _ h => Bay.storeLine_canonical h _ _
    | exact fun _ h => Bay.writeLine_canonical h _ _ _ _ _
    | exact fun _ hx => Panel.commitRow_canonical hx _ _ _
    | exact fun _ h => CtxDie.zeroPage_canonical h _
    | with_reducible refine Kept.ite (fun _ => ?_) (fun _ => ?_)
    | with_reducible refine Kept.ite_fst (fun _ => ?_) (fun _ => ?_)
    | refine fun _ _ _ => ?_
    | (lift_lets; intro _)
    | split

theorem takeData_kept (h : Kept L s₀ s) (p : Nat) (f : Flit)
    (hl : Within [.rtrs, .fab, .host, .keep, .snags, .snagNext, .out] L := by exact sub (by assumption) (by decide)) : Kept L s₀ (s.takeData p f) := by
  unfold State.takeData
  repeat' first
    | with_reducible exact sub (by assumption) (by decide)
    | with_reducible assumption
    | with_reducible apply targetDrop_kept
    | with_reducible apply dropRest_kept
    | with_reducible apply staleFab_kept
    | with_reducible apply tagDrop_kept
    | with_reducible apply ivAccept_kept
    | with_reducible apply injectFlit_kept
    | with_reducible apply keepOpen_kept
    | with_reducible refine foldl_kept (fun _ _ _ => ?_) ?_
    | exact fun h => h
    | exact fun _ h => h
    | decide
    | exact fun _ h => mset_canonical h _ _
    | exact fun _ h => Bay.invalidate_canonical h
    | exact fun _ h => canonical_nil _
    | exact fun _ h => Bay.storeLine_canonical h _ _
    | exact fun _ h => Bay.writeLine_canonical h _ _ _ _ _
    | exact fun _ hx => Panel.commitRow_canonical hx _ _ _
    | exact fun _ h => CtxDie.zeroPage_canonical h _
    | with_reducible refine Kept.ite (fun _ => ?_) (fun _ => ?_)

theorem giveBack_kept (h : Kept L s₀ s) (p : Nat)
    (hl : Within [.fab, .out] L := by exact sub (by assumption) (by decide)) : Kept L s₀ (s.giveBack p) := by
  unfold State.giveBack
  repeat' first
    | with_reducible exact sub (by assumption) (by decide)
    | with_reducible assumption
    | with_reducible apply modPort_kept
    | with_reducible apply sendOut_kept
    | exact fun h => h
    | exact fun _ h => h
    | decide
    | exact fun _ h => mset_canonical h _ _
    | exact fun _ h => Bay.invalidate_canonical h
    | exact fun _ h => canonical_nil _
    | exact fun _ h => Bay.storeLine_canonical h _ _
    | exact fun _ h => Bay.writeLine_canonical h _ _ _ _ _
    | exact fun _ hx => Panel.commitRow_canonical hx _ _ _
    | exact fun _ h => CtxDie.zeroPage_canonical h _
    | with_reducible refine Kept.ite (fun _ => ?_) (fun _ => ?_)

theorem settlePort_kept (h : Kept L s₀ s) (p : Nat)
    (hl : Within [.fab, .out] L := by exact sub (by assumption) (by decide)) : Kept L s₀ (s.settlePort p) := by
  unfold State.settlePort
  repeat' first
    | with_reducible exact sub (by assumption) (by decide)
    | with_reducible assumption
    | with_reducible apply pump_kept
    | with_reducible apply giveBack_kept

theorem execDataFlit_kept (h : Kept L s₀ s) (t : Nat) (p : Fin 16) (f : Flit)
    (hl : Within [.now, .rtrs, .fab, .host, .keep, .snags, .snagNext, .out] L := by exact sub (by assumption) (by decide)) : Kept.Out L s₀ (execDataFlit t p f s) :=
  .next (settlePort_kept (Kept.ite (fun _ => takeData_kept (rxFlit_kept (tick_kept h t) _ _) _ _) fun _ => rxFlit_kept (tick_kept h t) _ _) _)

theorem fabToCtl_kept (h : Kept L s₀ s) (src : Nat) (ls : List Line)
    (hl : Within [.rtrs, .host, .snags, .snagNext, .out] L := by exact sub (by assumption) (by decide)) : Kept L s₀ (s.fabToCtl src ls) := by
  unfold State.fabToCtl
  dsimp only
  split
  · rename_i b r _
    have g := sendAlong_kept h ls.length b (novkoHdr r 2 s.gen)
    generalize s.sendAlong ls.length b (novkoHdr r 2 s.gen) = o at g ⊢
    cases o with
    | error d => exact g
    | ok d => exact emit_kept g _
  · exact h

theorem takeMgmt_kept (h : Kept L s₀ s) (p : Nat) (f : Flit)
    (hl : Within [.rtrs, .fab, .host, .keep, .snags, .snagNext, .out] L := by exact sub (by assumption) (by decide)) : Kept L s₀ (s.takeMgmt p f) := by
  unfold State.takeMgmt
  repeat' first
    | with_reducible exact sub (by assumption) (by decide)
    | with_reducible assumption
    | with_reducible apply targetDrop_kept
    | with_reducible apply dropRest_kept
    | with_reducible apply staleFab_kept
    | with_reducible apply tagDrop_kept
    | with_reducible apply take_kept
    | with_reducible apply ivAccept_kept
    | with_reducible apply fabToCtl_kept
    | with_reducible apply keepOpen_kept
    | exact fun h => h
    | exact fun _ h => h
    | decide
    | exact fun _ h => mset_canonical h _ _
    | exact fun _ h => Bay.invalidate_canonical h
    | exact fun _ h => canonical_nil _
    | exact fun _ h => Bay.storeLine_canonical h _ _
    | exact fun _ h => Bay.writeLine_canonical h _ _ _ _ _
    | exact fun _ hx => Panel.commitRow_canonical hx _ _ _
    | exact fun _ h => CtxDie.zeroPage_canonical h _
    | with_reducible refine Kept.ite (fun _ => ?_) (fun _ => ?_)

theorem execMgmtFlit_kept (h : Kept L s₀ s) (t : Nat) (p : Fin 16) (f : Flit)
    (hl : Within [.now, .rtrs, .fab, .host, .keep, .snags, .snagNext, .out] L := by exact sub (by assumption) (by decide)) : Kept.Out L s₀ (execMgmtFlit t p f s) :=
  .next (settlePort_kept (Kept.ite (fun _ => takeMgmt_kept (rxFlit_kept (tick_kept h t) _ _) _ _) fun _ => rxFlit_kept (tick_kept h t) _ _) _)

theorem execIdleFlit_kept (h : Kept L s₀ s) (t : Nat) (p : Fin 16) (f : Flit)
    (hl : Within [.now, .fab, .host, .snags, .snagNext, .out] L := by exact sub (by assumption) (by decide)) : Kept.Out L s₀ (execIdleFlit t p f s) := by
  unfold execIdleFlit
  repeat' first
    | with_reducible exact sub (by assumption) (by decide)
    | with_reducible assumption
    | with_reducible apply tick_kept
    | with_reducible apply modPort_kept
    | with_reducible apply sendOut_kept
    | with_reducible apply violation_kept
    | with_reducible apply settlePort_kept
    | with_reducible refine Kept.Out.next ?_
    | with_reducible refine Kept.Out.ite (fun _ => ?_) (fun _ => ?_)
    | exact fun h => h
    | exact fun _ h => h
    | decide
    | exact fun _ h => mset_canonical h _ _
    | exact fun _ h => Bay.invalidate_canonical h
    | exact fun _ h => canonical_nil _
    | exact fun _ h => Bay.storeLine_canonical h _ _
    | exact fun _ h => Bay.writeLine_canonical h _ _ _ _ _
    | exact fun _ hx => Panel.commitRow_canonical hx _ _ _
    | exact fun _ h => CtxDie.zeroPage_canonical h _
    | with_reducible refine Kept.ite (fun _ => ?_) (fun _ => ?_)

theorem execNakFlit_kept (h : Kept L s₀ s) (t : Nat) (p : Fin 16) (reason seq vc ack : Nat)
    (hl : Within [.now, .fab, .host, .intr, .snags, .snagNext, .out] L := by exact sub (by assumption) (by decide)) : Kept.Out L s₀ (execNakFlit t p reason seq vc ack s) := by
  unfold execNakFlit
  repeat' first
    | with_reducible exact sub (by assumption) (by decide)
    | with_reducible assumption
    | with_reducible apply tick_kept
    | with_reducible apply violation_kept
    | with_reducible apply modPort_kept
    | with_reducible apply replayPort_kept
    | with_reducible apply pump_kept
    | with_reducible refine Kept.Out.next ?_
    | with_reducible refine Kept.Out.ite (fun _ => ?_) (fun _ => ?_)
    | exact fun h => h
    | exact fun _ h => h
    | decide
    | exact fun _ h => mset_canonical h _ _
    | exact fun _ h => Bay.invalidate_canonical h
    | exact fun _ h => canonical_nil _
    | exact fun _ h => Bay.storeLine_canonical h _ _
    | exact fun _ h => Bay.writeLine_canonical h _ _ _ _ _
    | exact fun _ hx => Panel.commitRow_canonical hx _ _ _
    | exact fun _ h => CtxDie.zeroPage_canonical h _
    | with_reducible refine Kept.ite (fun _ => ?_) (fun _ => ?_)

theorem execLinkIdFlit_kept (h : Kept L s₀ s) (t : Nat) (p : Fin 16) (plane rack down : Nat)
    (hl : Within [.now, .fab, .host, .resil, .snags, .snagNext, .out] L := by exact sub (by assumption) (by decide)) :
    Kept.Out L s₀ (execLinkIdFlit t p plane rack down s) := by
  unfold execLinkIdFlit
  repeat' first
    | with_reducible exact sub (by assumption) (by decide)
    | with_reducible assumption
    | with_reducible apply tick_kept
    | with_reducible apply retrainNext_kept
    | with_reducible apply violation_kept
    | with_reducible apply portTo_kept
    | with_reducible apply snagPort_kept
    | with_reducible apply modPort_kept
    | with_reducible refine Kept.Out.next ?_
    | with_reducible refine Kept.ite (fun _ => ?_) (fun _ => ?_)
    | split

theorem execLaneBad_kept (h : Kept L s₀ s) (t : Nat) (p : Fin 16) (lane : Fin 8) (uncorr ratio : Nat)
    (hl : Within [.now, .fab, .host, .intr, .snags, .snagNext, .out] L := by exact sub (by assumption) (by decide)) :
    Kept.Out L s₀ (execLaneBad t p lane uncorr ratio s) := by
  unfold execLaneBad
  repeat' first
    | with_reducible exact sub (by assumption) (by decide)
    | with_reducible assumption
    | with_reducible apply tick_kept
    | with_reducible apply modPort_kept
    | with_reducible apply portDown_kept
    | with_reducible apply startWidth_kept
    | with_reducible refine Kept.Out.next ?_
    | with_reducible refine Kept.ite (fun _ => ?_) (fun _ => ?_)

theorem execWidthFlit_kept (h : Kept L s₀ s) (t : Nat) (p : Fin 16) (w : Nat)
    (hl : Within [.now, .fab, .host, .intr, .snags, .snagNext, .out] L := by exact sub (by assumption) (by decide)) : Kept.Out L s₀ (execWidthFlit t p w s) := by
  unfold execWidthFlit
  repeat' first
    | with_reducible exact sub (by assumption) (by decide)
    | with_reducible assumption
    | with_reducible apply tick_kept
    | with_reducible apply violation_kept
    | with_reducible apply portDown_kept
    | with_reducible apply modPort_kept
    | with_reducible apply startWidth_kept
    | with_reducible refine Kept.Out.next ?_
    | with_reducible refine Kept.ite (fun _ => ?_) (fun _ => ?_)

theorem execWidthChangeDone_kept (h : Kept L s₀ s) (t : Nat) (p : Fin 16)
    (hl : Within [.now, .fab, .host, .intr, .snags, .snagNext, .out] L := by exact sub (by assumption) (by decide)) : Kept.Out L s₀ (execWidthChangeDone t p s) := by
  unfold execWidthChangeDone
  repeat' first
    | with_reducible exact sub (by assumption) (by decide)
    | with_reducible assumption
    | with_reducible apply tick_kept
    | with_reducible apply modPort_kept
    | with_reducible apply replayPort_kept
    | with_reducible apply pump_kept
    | with_reducible refine Kept.Out.next ?_
    | with_reducible refine Kept.Out.ite (fun _ => ?_) (fun _ => ?_)
    | exact fun h => h
    | exact fun _ h => h
    | decide
    | exact fun _ h => mset_canonical h _ _
    | exact fun _ h => Bay.invalidate_canonical h
    | exact fun _ h => canonical_nil _
    | exact fun _ h => Bay.storeLine_canonical h _ _
    | exact fun _ h => Bay.writeLine_canonical h _ _ _ _ _
    | exact fun _ hx => Panel.commitRow_canonical hx _ _ _
    | exact fun _ h => CtxDie.zeroPage_canonical h _
    | with_reducible refine Kept.ite (fun _ => ?_) (fun _ => ?_)

theorem execFabricReplayTimeout_kept (h : Kept L s₀ s) (t : Nat) (p : Fin 16)
    (hl : Within [.now, .fab, .host, .intr, .snags, .snagNext, .out] L := by exact sub (by assumption) (by decide)) : Kept.Out L s₀ (execFabricReplayTimeout t p s) := by
  unfold execFabricReplayTimeout
  repeat' first
    | with_reducible exact sub (by assumption) (by decide)
    | with_reducible assumption
    | with_reducible apply tick_kept
    | with_reducible apply replayPort_kept
    | with_reducible apply modPort_kept
    | with_reducible refine Kept.Out.next ?_
    | with_reducible refine Kept.Out.ite (fun _ => ?_) (fun _ => ?_)
    | exact fun h => h
    | exact fun _ h => h
    | decide
    | exact fun _ h => mset_canonical h _ _
    | exact fun _ h => Bay.invalidate_canonical h
    | exact fun _ h => canonical_nil _
    | exact fun _ h => Bay.storeLine_canonical h _ _
    | exact fun _ h => Bay.writeLine_canonical h _ _ _ _ _
    | exact fun _ hx => Panel.commitRow_canonical hx _ _ _
    | exact fun _ h => CtxDie.zeroPage_canonical h _
    | with_reducible refine Kept.ite (fun _ => ?_) (fun _ => ?_)

theorem execControlFlitRepeat_kept (h : Kept L s₀ s) (t : Nat) (p : Fin 16)
    (hl : Within [.now, .fab, .out] L := by exact sub (by assumption) (by decide)) : Kept.Out L s₀ (execControlFlitRepeat t p s) := by
  unfold execControlFlitRepeat
  repeat' first
    | with_reducible exact sub (by assumption) (by decide)
    | with_reducible assumption
    | with_reducible apply tick_kept
    | with_reducible apply modPort_kept
    | with_reducible apply sendOut_kept
    | with_reducible refine Kept.Out.next ?_
    | with_reducible refine Kept.Out.ite (fun _ => ?_) (fun _ => ?_)
    | exact fun h => h
    | exact fun _ h => h
    | decide
    | exact fun _ h => mset_canonical h _ _
    | exact fun _ h => Bay.invalidate_canonical h
    | exact fun _ h => canonical_nil _
    | exact fun _ h => Bay.storeLine_canonical h _ _
    | exact fun _ h => Bay.writeLine_canonical h _ _ _ _ _
    | exact fun _ hx => Panel.commitRow_canonical hx _ _ _
    | exact fun _ h => CtxDie.zeroPage_canonical h _
    | with_reducible refine Kept.ite (fun _ => ?_) (fun _ => ?_)

theorem execPortAutoRetrain_kept (h : Kept L s₀ s) (t : Nat) (p : Fin 16)
    (hl : Within [.now, .fab, .host, .snags, .snagNext, .out] L := by exact sub (by assumption) (by decide)) : Kept.Out L s₀ (execPortAutoRetrain t p s) := by
  unfold execPortAutoRetrain
  repeat' first
    | with_reducible exact sub (by assumption) (by decide)
    | with_reducible assumption
    | with_reducible apply tick_kept
    | with_reducible apply trainPort_kept
    | with_reducible refine Kept.Out.next ?_
    | with_reducible refine Kept.ite (fun _ => ?_) (fun _ => ?_)

theorem execFabPortRelease_kept (h : Kept L s₀ s) (t : Nat) (p : Fin 16)
    (hl : Within [.now, .fab, .host, .snags, .snagNext, .out] L := by exact sub (by assumption) (by decide)) : Kept.Out L s₀ (execFabPortRelease t p s) := by
  unfold execFabPortRelease
  repeat' first
    | with_reducible exact sub (by assumption) (by decide)
    | with_reducible assumption
    | with_reducible apply tick_kept
    | with_reducible apply releasePort_kept
    | with_reducible refine Kept.Out.next ?_

theorem execFabPortRetrain_kept (h : Kept L s₀ s) (t : Nat) (p : Fin 16)
    (hl : Within [.now, .fab, .host, .snags, .snagNext, .out] L := by exact sub (by assumption) (by decide)) : Kept.Out L s₀ (execFabPortRetrain t p s) := by
  unfold execFabPortRetrain
  repeat' first
    | with_reducible exact sub (by assumption) (by decide)
    | with_reducible assumption
    | with_reducible apply tick_kept
    | with_reducible apply retrainPort_kept
    | with_reducible refine Kept.Out.next ?_

theorem execFabPortCntClr_kept (h : Kept L s₀ s) (t : Nat) (p : Fin 16)
    (hl : Within [.now, .fab] L := by exact sub (by assumption) (by decide)) : Kept.Out L s₀ (execFabPortCntClr t p s) := by
  unfold execFabPortCntClr
  repeat' first
    | with_reducible exact sub (by assumption) (by decide)
    | with_reducible assumption
    | with_reducible apply tick_kept
    | with_reducible apply clearPort_kept
    | with_reducible refine Kept.Out.next ?_

theorem execFabCntClr_kept (h : Kept L s₀ s) (t : Nat)
    (hl : Within [.now, .fab] L := by exact sub (by assumption) (by decide)) : Kept.Out L s₀ (execFabCntClr t s) := by
  unfold execFabCntClr
  repeat' first
    | with_reducible exact sub (by assumption) (by decide)
    | with_reducible assumption
    | with_reducible apply tick_kept
    | with_reducible apply clearFab_kept
    | with_reducible refine Kept.Out.next ?_

theorem execGenNotice_kept (h : Kept L s₀ s) (t src plan st : Nat) (gen : BitVec 8) (auth : Bool)
    (hl : Within [.now, .free, .mode, .pwr, .panels, .bays, .rtrs, .ctx0, .ctx1, .pages, .prefixes, .plans, .reqs, .weights, .fab, .host, .keep, .resil, .snags, .snagNext, .out] L := by exact sub (by assumption) (by decide)) :
    Kept.Out L s₀ (execGenNotice t src plan st gen auth s) := by
  unfold execGenNotice
  repeat' first
    | with_reducible exact sub (by assumption) (by decide)
    | with_reducible assumption
    | with_reducible apply tick_kept
    | with_reducible apply modFab_kept
    | with_reducible apply modPlan_kept
    | with_reducible apply peerChanged_kept
    | with_reducible apply peerStops_kept
    | with_reducible apply tryStart2_kept
    | with_reducible apply sendReruns_kept
    | with_reducible apply pumpStarts_kept
    | with_reducible refine Kept.Out.next ?_
    | with_reducible refine Kept.ite (fun _ => ?_) (fun _ => ?_)
    | (lift_lets; intro _)
    | split
    | with_reducible refine Kept.same ?_

theorem execGenNoticeTimer_kept (h : Kept L s₀ s) (t : Nat)
    (hl : Within [.now, .fab, .out] L := by exact sub (by assumption) (by decide)) : Kept.Out L s₀ (execGenNoticeTimer t s) := by
  unfold execGenNoticeTimer
  repeat' first
    | with_reducible exact sub (by assumption) (by decide)
    | with_reducible assumption
    | with_reducible apply tick_kept
    | with_reducible apply noticeAll_kept
    | with_reducible refine Kept.Out.next ?_
    | with_reducible refine Kept.ite (fun _ => ?_) (fun _ => ?_)

theorem execPeerTimeoutExpiry_kept (h : Kept L s₀ s) (t plan peer : Nat)
    (hl : Within [.now, .free, .mode, .panels, .bays, .rtrs, .ctx0, .ctx1, .pages, .prefixes, .plans, .reqs, .weights, .fab, .host, .keep, .snags, .snagNext, .out] L := by exact sub (by assumption) (by decide)) : Kept.Out L s₀ (execPeerTimeoutExpiry t plan peer s) := by
  unfold execPeerTimeoutExpiry
  repeat' first
    | with_reducible exact sub (by assumption) (by decide)
    | with_reducible assumption
    | with_reducible apply tick_kept
    | with_reducible apply peerStops_kept
    | with_reducible apply pumpStarts_kept
    | with_reducible refine Kept.Out.next ?_
    | with_reducible refine Kept.ite (fun _ => ?_) (fun _ => ?_)
    | split

theorem execStepOrder_kept (h : Kept L s₀ s) (t src plan stepNo : Nat) (prog : Fin 16) (swap rerun : Bool) (slots : List SlotEnt) (recs : List StepRec)
    (hl : Within [.now, .free, .panels, .bays, .rtrs, .ctx0, .ctx1, .pages, .prefixes, .plans, .weights, .fab, .host, .keep, .snags, .snagNext, .out] L := by exact sub (by assumption) (by decide)) :
    Kept.Out L s₀ (execStepOrder t src plan stepNo prog swap rerun slots recs s) := by
  unfold execStepOrder
  repeat' first
    | with_reducible exact sub (by assumption) (by decide)
    | with_reducible assumption
    | with_reducible apply tick_kept
    | with_reducible apply applyRec_kept
    | with_reducible apply sendStep_kept
    | with_reducible apply pumpStarts_kept
    | with_reducible refine foldl_kept (fun _ _ _ => ?_) ?_
    | with_reducible refine Kept.Out.next ?_
    | with_reducible refine Kept.ite (fun _ => ?_) (fun _ => ?_)
    | (lift_lets; intro _)
    | split

theorem execStepReport_kept (h : Kept L s₀ s) (t src plan stepNo : Nat) (done late resident : Bool) (measured : Nat)
    (hl : Within [.now, .plans, .reqs, .weights, .fab, .host, .snags, .snagNext, .out] L := by exact sub (by assumption) (by decide)) :
    Kept.Out L s₀ (execStepReport t src plan stepNo done late resident measured s) := by
  unfold execStepReport
  repeat' first
    | with_reducible exact sub (by assumption) (by decide)
    | with_reducible assumption
    | with_reducible apply tick_kept
    | with_reducible apply modPlan_kept
    | with_reducible apply markLate_kept
    | with_reducible apply stepCheck_kept
    | with_reducible refine Kept.Out.next ?_
    | with_reducible refine Kept.ite (fun _ => ?_) (fun _ => ?_)
    | (lift_lets; intro s1; have hs1 : Kept L s₀ s1 := ?_; clear_value s1)
    | split

theorem execStepAbort_kept (h : Kept L s₀ s) (t src plan stepNo : Nat)
    (hl : Within [.now, .free, .mode, .pwr, .panels, .bays, .rtrs, .ctx0, .ctx1, .pages, .prefixes, .plans, .reqs, .weights, .fab, .host, .keep, .resil, .snags, .snagNext, .out] L := by exact sub (by assumption) (by decide)) : Kept.Out L s₀ (execStepAbort t src plan stepNo s) := by
  unfold execStepAbort
  repeat' first
    | with_reducible exact sub (by assumption) (by decide)
    | with_reducible assumption
    | with_reducible apply tick_kept
    | with_reducible apply abortReset_kept
    | with_reducible refine Kept.Out.next ?_
    | with_reducible refine Kept.ite (fun _ => ?_) (fun _ => ?_)
    | split

theorem railFault_kept (h : Kept L s₀ s) (r mv : Nat)
    (hl : Within [.epoch, .free, .mode, .gen, .pwr, .boot, .sense, .panels, .bays, .rtrs, .edgeQ, .ctx0, .ctx1, .pages, .prefixes, .plans, .reqs, .weights, .fab, .host, .keep, .snap, .resil, .intr, .snags, .snagNext, .out] L := by exact sub (by assumption) (by decide)) : Kept L s₀ (s.railFault r mv) := by
  unfold State.railFault
  refine Kept.ite (fun _ => assertReset_kept h _ _ fun _ => rfl) fun _ => ?_
  lift_lets
  intro sp p rails s1
  have h1 : Kept L s₀ s1 := by
    unfold s1
    with_reducible refine Kept.power h ?_
    rfl
  clear_value s1
  exact lostRail_kept (snag_kept h1 _ _ _ _ _) _

theorem goOff_pwr_kept (h : Kept L s₀ s) {p : Power} (hp : p.stage1Up = false)
    (hl : Within [.epoch, .mode, .gen, .pwr, .boot, .sense, .panels, .bays, .rtrs, .edgeQ, .ctx0, .ctx1, .pages, .prefixes, .plans, .reqs, .weights, .fab, .host, .keep, .snap, .resil, .intr, .snags, .snagNext] L := by exact sub (by assumption) (by decide)) : Kept L s₀ { s.goOff with pwr := p } :=
  Kept.power (goOff_kept h) hp

theorem execInputPowerLoss_kept (h : Kept L s₀ s) (t : Nat)
    (hl : Within [.epoch, .now, .mode, .gen, .pwr, .boot, .sense, .panels, .bays, .rtrs, .edgeQ, .ctx0, .ctx1, .pages, .prefixes, .plans, .reqs, .weights, .fab, .host, .keep, .snap, .resil, .intr, .snags, .snagNext] L := by exact sub (by assumption) (by decide)) : Kept.Out L s₀ (execInputPowerLoss t s) :=
  .next (goOff_pwr_kept (p := { rstN := s.pwr.rstN }) (tick_kept h t) rfl)

theorem execVauxFault_kept (h : Kept L s₀ s) (t : Nat)
    (hl : Within [.epoch, .now, .mode, .gen, .pwr, .boot, .sense, .panels, .bays, .rtrs, .edgeQ, .ctx0, .ctx1, .pages, .prefixes, .plans, .reqs, .weights, .fab, .host, .keep, .snap, .resil, .intr, .snags, .snagNext] L := by exact sub (by assumption) (by decide)) : Kept.Out L s₀ (execVauxFault t s) :=
  .next (Kept.ite (fun _ => goOff_pwr_kept (p := { inputOn := true, vauxLatched := true, rstN := s.pwr.rstN }) (tick_kept h t) rfl)
    fun _ => tick_kept h t)

theorem execStage1InRegulation_kept (h : Kept L s₀ s) (t : Nat)
    (hl : Within [.now, .leftOff, .mode, .pwr] L := by exact sub (by assumption) (by decide)) : Kept.Out L s₀ (execStage1InRegulation t s) := by
  refine .next (Kept.ite (fun _ => tick_kept h t) fun _ => ?_)
  rename_i c
  have off (o : (s.tick t).ordered) : (s.tick t).mode = .off := o.2.2 (by simpa using (show _ ∧ _ from by simpa using c).2)
  exact (tick_kept h t).trans ⟨rfl, rfl, le_rfl, le_rfl, List.suffix_refl _, fun o => by rw [off o]; exact .single (show Mode.primed ∈ Mode.off.next by decide),
    fun o => ⟨o.1, nofun, nofun⟩, id, id, changed hl⟩

theorem execStage2InRegulation_kept (h : Kept L s₀ s) (t : Nat)
    (hl : Within [.now, .pwr, .fab, .host, .snags, .snagNext, .out] L := by exact sub (by assumption) (by decide)) : Kept.Out L s₀ (execStage2InRegulation t s) := by
  have g := tick_kept h t
  unfold execStage2InRegulation
  generalize s.tick t = u at g ⊢
  refine .next ?_
  dsimp only
  refine Kept.ite (fun _ => ?_) fun _ => g
  with_reducible refine startPorts_kept ?_
  with_reducible refine Kept.power g ?_
  dsimp only
  rw [Power.startLeaves_stage1Up, Power.raiseRails_stage1Up]

theorem execStage3GroupInRegulation_kept (h : Kept L s₀ s) (t : Nat)
    (hl : Within [.now, .pwr] L := by exact sub (by assumption) (by decide)) : Kept.Out L s₀ (execStage3GroupInRegulation t s) := by
  have g := tick_kept h t
  unfold execStage3GroupInRegulation
  generalize s.tick t = u at g ⊢
  refine .next ?_
  dsimp only
  refine Kept.ite (fun _ => ?_) fun _ => g
  with_reducible refine Kept.power g ?_
  dsimp only
  rw [Power.raiseRails_stage1Up]

theorem execInputPowerOn_kept (h : Kept L s₀ s) (t : Nat)
    (hl : Within [.now, .pwr] L := by exact sub (by assumption) (by decide)) : Kept.Out L s₀ (execInputPowerOn t s) := by
  unfold execInputPowerOn
  repeat' first
    | with_reducible exact sub (by assumption) (by decide)
    | with_reducible assumption
    | with_reducible apply tick_kept
    | with_reducible refine Kept.Out.next ?_
    | with_reducible refine Kept.ite (fun _ => ?_) (fun _ => ?_)
    | (lift_lets; intro _)
    | with_reducible refine Kept.power ?_ ?_
    | rfl

theorem execSupplyWarningAssert_kept (h : Kept L s₀ s) (t mv : Nat)
    (hl : Within [.now, .pwr, .host, .intr, .snags, .snagNext, .out] L := by exact sub (by assumption) (by decide)) : Kept.Out L s₀ (execSupplyWarningAssert t mv s) := by
  unfold execSupplyWarningAssert
  repeat' first
    | with_reducible exact sub (by assumption) (by decide)
    | with_reducible assumption
    | with_reducible apply tick_kept
    | with_reducible apply intrude_kept
    | with_reducible apply snagCtl_kept
    | with_reducible apply pfIrq_kept
    | with_reducible refine Kept.Out.next ?_
    | with_reducible refine Kept.ite (fun _ => ?_) (fun _ => ?_)
    | (lift_lets; intro _)
    | with_reducible refine Kept.power ?_ ?_
    | rfl

theorem execSupplyWarningRelease_kept (h : Kept L s₀ s) (t mv : Nat)
    (hl : Within [.now, .pwr, .host, .snags, .snagNext, .out] L := by exact sub (by assumption) (by decide)) : Kept.Out L s₀ (execSupplyWarningRelease t mv s) := by
  unfold execSupplyWarningRelease
  repeat' first
    | with_reducible exact sub (by assumption) (by decide)
    | with_reducible assumption
    | with_reducible apply tick_kept
    | with_reducible apply snagCtl_kept
    | with_reducible apply resumeRamps_kept
    | with_reducible refine Kept.Out.next ?_
    | with_reducible refine Kept.Out.ite (fun _ => ?_) (fun _ => ?_)
    | exact fun h => h
    | exact fun _ h => h
    | decide
    | exact fun _ h => mset_canonical h _ _
    | exact fun _ h => Bay.invalidate_canonical h
    | exact fun _ h => canonical_nil _
    | exact fun _ h => Bay.storeLine_canonical h _ _
    | exact fun _ h => Bay.writeLine_canonical h _ _ _ _ _
    | exact fun _ hx => Panel.commitRow_canonical hx _ _ _
    | exact fun _ h => CtxDie.zeroPage_canonical h _
    | with_reducible refine Kept.ite (fun _ => ?_) (fun _ => ?_)
    | with_reducible refine Kept.ite_fst (fun _ => ?_) (fun _ => ?_)
    | refine fun _ _ _ => ?_
    | (lift_lets; intro _)
    | split
    | with_reducible refine Kept.same ?_
    | with_reducible refine Kept.power ?_ rfl
    | with_reducible refine Kept.power ?_ ?_
    | exact Power.moveRails_stage1Up _ _ _ _
    | rfl

theorem execSagHoldExpiry_kept (h : Kept L s₀ s) (t : Nat)
    (hl : Within [.now, .pwr, .intr] L := by exact sub (by assumption) (by decide)) : Kept.Out L s₀ (execSagHoldExpiry t s) := by
  unfold execSagHoldExpiry
  repeat' first
    | with_reducible exact sub (by assumption) (by decide)
    | with_reducible assumption
    | with_reducible apply tick_kept
    | with_reducible apply intrude_kept
    | with_reducible refine Kept.Out.next ?_
    | with_reducible refine Kept.ite (fun _ => ?_) (fun _ => ?_)
    | (lift_lets; intro _)
    | with_reducible refine Kept.power ?_ ?_
    | rfl

theorem execResetThreshold_kept (h : Kept L s₀ s) (t : Nat)
    (hl : Within [.epoch, .now, .mode, .gen, .pwr, .boot, .sense, .panels, .bays, .rtrs, .edgeQ, .ctx0, .ctx1, .pages, .prefixes, .plans, .reqs, .weights, .fab, .host, .keep, .snap, .resil, .intr, .snags, .snagNext] L := by exact sub (by assumption) (by decide)) : Kept.Out L s₀ (execResetThreshold t s) := by
  unfold execResetThreshold
  repeat' first
    | with_reducible exact sub (by assumption) (by decide)
    | with_reducible assumption
    | with_reducible apply tick_kept
    | with_reducible apply assertReset_kept
    | with_reducible refine Kept.Out.next ?_
    | (lift_lets; intro _)
    | rfl

theorem execResetThresholdRelease_kept (h : Kept L s₀ s) (t : Nat)
    (hl : Within [.now, .pwr] L := by exact sub (by assumption) (by decide)) : Kept.Out L s₀ (execResetThresholdRelease t s) := by
  unfold execResetThresholdRelease
  repeat' first
    | with_reducible exact sub (by assumption) (by decide)
    | with_reducible assumption
    | with_reducible apply tick_kept
    | with_reducible apply tryStart_kept
    | with_reducible refine Kept.Out.next ?_
    | (lift_lets; intro _)
    | with_reducible refine Kept.power ?_ ?_
    | rfl

theorem execOvervoltageCut_kept (h : Kept L s₀ s) (t : Nat)
    (hl : Within [.epoch, .now, .mode, .gen, .pwr, .boot, .sense, .panels, .bays, .rtrs, .edgeQ, .ctx0, .ctx1, .pages, .prefixes, .plans, .reqs, .weights, .fab, .host, .keep, .snap, .resil, .intr, .snags, .snagNext] L := by exact sub (by assumption) (by decide)) : Kept.Out L s₀ (execOvervoltageCut t s) := by
  unfold execOvervoltageCut
  repeat' first
    | with_reducible exact sub (by assumption) (by decide)
    | with_reducible assumption
    | with_reducible apply tick_kept
    | with_reducible apply assertReset_kept
    | with_reducible refine Kept.Out.next ?_
    | (lift_lets; intro _)
    | rfl

theorem execOvervoltageRelease_kept (h : Kept L s₀ s) (t : Nat)
    (hl : Within [.now, .pwr] L := by exact sub (by assumption) (by decide)) : Kept.Out L s₀ (execOvervoltageRelease t s) := by
  unfold execOvervoltageRelease
  repeat' first
    | with_reducible exact sub (by assumption) (by decide)
    | with_reducible assumption
    | with_reducible apply tick_kept
    | with_reducible apply tryStart_kept
    | with_reducible refine Kept.Out.next ?_
    | (lift_lets; intro _)
    | with_reducible refine Kept.power ?_ ?_
    | rfl

theorem execOvercurrentCut_kept (h : Kept L s₀ s) (t : Nat)
    (hl : Within [.epoch, .now, .mode, .gen, .pwr, .boot, .sense, .panels, .bays, .rtrs, .edgeQ, .ctx0, .ctx1, .pages, .prefixes, .plans, .reqs, .weights, .fab, .host, .keep, .snap, .resil, .intr, .snags, .snagNext] L := by exact sub (by assumption) (by decide)) : Kept.Out L s₀ (execOvercurrentCut t s) := by
  unfold execOvercurrentCut
  repeat' first
    | with_reducible exact sub (by assumption) (by decide)
    | with_reducible assumption
    | with_reducible apply tick_kept
    | with_reducible apply assertReset_kept
    | with_reducible refine Kept.Out.next ?_
    | with_reducible refine Kept.ite (fun _ => ?_) (fun _ => ?_)
    | (lift_lets; intro _)
    | rfl

theorem execModRstNAssert_kept (h : Kept L s₀ s) (t : Nat)
    (hl : Within [.epoch, .now, .mode, .gen, .pwr, .boot, .sense, .panels, .bays, .rtrs, .edgeQ, .ctx0, .ctx1, .pages, .prefixes, .plans, .reqs, .weights, .fab, .host, .keep, .snap, .resil, .intr, .snags, .snagNext] L := by exact sub (by assumption) (by decide)) : Kept.Out L s₀ (execModRstNAssert t s) := by
  unfold execModRstNAssert
  repeat' first
    | with_reducible exact sub (by assumption) (by decide)
    | with_reducible assumption
    | with_reducible apply tick_kept
    | with_reducible apply assertReset_kept
    | with_reducible refine Kept.Out.next ?_
    | (lift_lets; intro _)
    | rfl

theorem execModRstNRelease_kept (h : Kept L s₀ s) (t : Nat)
    (hl : Within [.now, .pwr] L := by exact sub (by assumption) (by decide)) : Kept.Out L s₀ (execModRstNRelease t s) := by
  unfold execModRstNRelease
  repeat' first
    | with_reducible exact sub (by assumption) (by decide)
    | with_reducible assumption
    | with_reducible apply tick_kept
    | with_reducible apply tryStart_kept
    | with_reducible refine Kept.Out.next ?_
    | with_reducible refine Kept.ite (fun _ => ?_) (fun _ => ?_)
    | (lift_lets; intro _)
    | with_reducible refine Kept.power ?_ ?_
    | rfl

theorem execRailFault_kept (h : Kept L s₀ s) (t : Nat) (rail : Fin 79) (mv : Nat)
    (hl : Within [.epoch, .now, .free, .mode, .gen, .pwr, .boot, .sense, .panels, .bays, .rtrs, .edgeQ, .ctx0, .ctx1, .pages, .prefixes, .plans, .reqs, .weights, .fab, .host, .keep, .snap, .resil, .intr, .snags, .snagNext, .out] L := by exact sub (by assumption) (by decide)) : Kept.Out L s₀ (execRailFault t rail mv s) := by
  unfold execRailFault
  repeat' first
    | with_reducible exact sub (by assumption) (by decide)
    | with_reducible assumption
    | with_reducible apply tick_kept
    | with_reducible apply railFault_kept
    | with_reducible apply wait_kept
    | with_reducible refine Kept.Out.next ?_
    | with_reducible refine Kept.Out.ite (fun _ => ?_) (fun _ => ?_)
    | exact fun h => h
    | exact fun _ h => h
    | decide
    | exact fun _ h => mset_canonical h _ _
    | exact fun _ h => Bay.invalidate_canonical h
    | exact fun _ h => canonical_nil _
    | exact fun _ h => Bay.storeLine_canonical h _ _
    | exact fun _ h => Bay.writeLine_canonical h _ _ _ _ _
    | exact fun _ hx => Panel.commitRow_canonical hx _ _ _
    | exact fun _ h => CtxDie.zeroPage_canonical h _
    | with_reducible refine Kept.ite (fun _ => ?_) (fun _ => ?_)
    | with_reducible refine Kept.ite_fst (fun _ => ?_) (fun _ => ?_)
    | refine fun _ _ _ => ?_
    | (lift_lets; intro _)
    | split
    | with_reducible refine Kept.same ?_
    | with_reducible refine Kept.power ?_ rfl
    | with_reducible refine Kept.power ?_ ?_
    | exact Power.moveRails_stage1Up _ _ _ _

theorem execRailRampTimeout_kept (h : Kept L s₀ s) (t : Nat) (rail : Fin 79) (mv : Nat)
    (hl : Within [.epoch, .now, .free, .mode, .gen, .pwr, .boot, .sense, .panels, .bays, .rtrs, .edgeQ, .ctx0, .ctx1, .pages, .prefixes, .plans, .reqs, .weights, .fab, .host, .keep, .snap, .resil, .intr, .snags, .snagNext, .out] L := by exact sub (by assumption) (by decide)) : Kept.Out L s₀ (execRailRampTimeout t rail mv s) := by
  unfold execRailRampTimeout
  repeat' first
    | with_reducible exact sub (by assumption) (by decide)
    | with_reducible assumption
    | with_reducible apply tick_kept
    | with_reducible apply wait_kept
    | with_reducible apply railFault_kept
    | with_reducible refine Kept.Out.next ?_
    | with_reducible refine Kept.Out.ite (fun _ => ?_) (fun _ => ?_)
    | exact fun h => h
    | exact fun _ h => h
    | decide
    | exact fun _ h => mset_canonical h _ _
    | exact fun _ h => Bay.invalidate_canonical h
    | exact fun _ h => canonical_nil _
    | exact fun _ h => Bay.storeLine_canonical h _ _
    | exact fun _ h => Bay.writeLine_canonical h _ _ _ _ _
    | exact fun _ hx => Panel.commitRow_canonical hx _ _ _
    | exact fun _ h => CtxDie.zeroPage_canonical h _
    | with_reducible refine Kept.ite (fun _ => ?_) (fun _ => ?_)
    | with_reducible refine Kept.ite_fst (fun _ => ?_) (fun _ => ?_)
    | refine fun _ _ _ => ?_
    | (lift_lets; intro _)
    | split
    | with_reducible refine Kept.same ?_
    | with_reducible refine Kept.power ?_ rfl
    | with_reducible refine Kept.power ?_ ?_
    | exact Power.moveRails_stage1Up _ _ _ _

theorem execThermalTrip_kept (h : Kept L s₀ s) (t : Nat) (die : Fin 32)
    (hl : Within [.epoch, .now, .mode, .gen, .pwr, .boot, .sense, .panels, .bays, .rtrs, .edgeQ, .ctx0, .ctx1, .pages, .prefixes, .plans, .reqs, .weights, .fab, .host, .keep, .snap, .resil, .intr, .snags, .snagNext] L := by exact sub (by assumption) (by decide)) : Kept.Out L s₀ (execThermalTrip t die s) := by
  unfold execThermalTrip
  repeat' first
    | with_reducible exact sub (by assumption) (by decide)
    | with_reducible assumption
    | with_reducible apply tick_kept
    | with_reducible apply assertReset_kept
    | with_reducible refine Kept.Out.next ?_
    | with_reducible refine Kept.ite (fun _ => ?_) (fun _ => ?_)
    | (lift_lets; intro _)
    | rfl

theorem execSagThrottleWrite_kept (h : Kept L s₀ s) (t : Nat) (v : Bool)
    (hl : Within [.now, .pwr, .intr] L := by exact sub (by assumption) (by decide)) : Kept.Out L s₀ (execSagThrottleWrite t v s) := by
  unfold execSagThrottleWrite
  repeat' first
    | with_reducible exact sub (by assumption) (by decide)
    | with_reducible assumption
    | with_reducible apply tick_kept
    | with_reducible apply writeSagThrottle_kept
    | with_reducible apply intrude_kept
    | with_reducible refine Kept.Out.next ?_
    | with_reducible refine Kept.ite (fun _ => ?_) (fun _ => ?_)

theorem execCtlPwrLeafVsetWrite_kept (h : Kept L s₀ s) (t : Nat) (n : Fin 16) (v : Word)
    (hl : Within [.now, .pwr, .host, .snags, .snagNext, .out] L := by exact sub (by assumption) (by decide)) : Kept.Out L s₀ (execCtlPwrLeafVsetWrite t n v s) := by
  unfold execCtlPwrLeafVsetWrite
  repeat' first
    | with_reducible exact sub (by assumption) (by decide)
    | with_reducible assumption
    | with_reducible apply tick_kept
    | with_reducible apply writeLeafVset_kept
    | with_reducible refine Kept.Out.next ?_
    | with_reducible refine Kept.ite (fun _ => ?_) (fun _ => ?_)

theorem execVsetCommit_kept (h : Kept L s₀ s) (t : Nat)
    (hl : Within [.now, .pwr] L := by exact sub (by assumption) (by decide)) : Kept.Out L s₀ (execVsetCommit t s) := by
  unfold execVsetCommit
  repeat' first
    | with_reducible exact sub (by assumption) (by decide)
    | with_reducible assumption
    | with_reducible apply tick_kept
    | with_reducible apply commitVset_kept
    | with_reducible refine Kept.Out.next ?_
    | with_reducible refine Kept.ite (fun _ => ?_) (fun _ => ?_)

theorem execVsetRampDone_kept (h : Kept L s₀ s) (t : Nat)
    (hl : Within [.now, .pwr] L := by exact sub (by assumption) (by decide)) : Kept.Out L s₀ (execVsetRampDone t s) := by
  unfold execVsetRampDone
  repeat' first
    | with_reducible exact sub (by assumption) (by decide)
    | with_reducible assumption
    | with_reducible apply tick_kept
    | with_reducible refine Kept.Out.next ?_
    | (lift_lets; intro _)
    | with_reducible refine Kept.power ?_ ?_
    | rfl

theorem modKeep_kept (h : Kept L s₀ s) (f : Keep → Keep)
    (hl : Within [.keep] L := by exact sub (by assumption) (by decide)) : Kept L s₀ (s.modKeep f) := by
  unfold State.modKeep
  repeat' first
    | with_reducible exact sub (by assumption) (by decide)
    | with_reducible assumption
    | with_reducible refine Kept.same ?_

theorem closeHost_kept (h : Kept L s₀ s) (fn cause : Nat)
    (hl : Within [.host, .keep, .snags, .snagNext, .out] L := by exact sub (by assumption) (by decide)) : Kept L s₀ (s.closeHost fn cause) := by
  unfold State.closeHost
  repeat' first
    | with_reducible exact sub (by assumption) (by decide)
    | with_reducible assumption
    | with_reducible apply modKeep_kept
    | with_reducible apply snag_kept
    | split

theorem setFabSession_kept (h : Kept L s₀ s) (i : Nat) (x : Option FabSess)
    (hl : Within [.keep] L := by exact sub (by assumption) (by decide)) : Kept L s₀ (s.setFabSession i x) := by
  unfold State.setFabSession
  repeat' first
    | with_reducible exact sub (by assumption) (by decide)
    | with_reducible assumption
    | with_reducible apply modKeep_kept

theorem dropFabSession_kept (h : Kept L s₀ s) (i : Nat)
    (hl : Within [.keep] L := by exact sub (by assumption) (by decide)) : Kept L s₀ (s.dropFabSession i) := by
  unfold State.dropFabSession
  repeat' first
    | with_reducible exact sub (by assumption) (by decide)
    | with_reducible assumption
    | with_reducible apply modKeep_kept

theorem refuseKey_kept (h : Kept L s₀ s) (session sender reason : Nat)
    (hl : Within [.host, .snags, .snagNext, .out] L := by exact sub (by assumption) (by decide)) : Kept L s₀ (s.refuseKey session sender reason) := by
  unfold State.refuseKey
  repeat' first
    | with_reducible exact sub (by assumption) (by decide)
    | with_reducible assumption
    | with_reducible apply snagCtl_kept

theorem execSessionOpenHost_kept (h : Kept L s₀ s) (t fn slot : Nat)
    (hl : Within [.now, .free, .host, .keep, .snags, .snagNext, .out] L := by exact sub (by assumption) (by decide)) : Kept.Out L s₀ (execSessionOpenHost t fn slot s) := by
  unfold execSessionOpenHost
  repeat' first
    | with_reducible exact sub (by assumption) (by decide)
    | with_reducible assumption
    | with_reducible apply tick_kept
    | with_reducible apply runCmd_kept
    | with_reducible apply random_kept
    | with_reducible apply drawn_kept
    | with_reducible apply modKeep_kept
    | with_reducible apply snag_kept
    | with_reducible refine Kept.Out.next ?_
    | with_reducible refine Kept.Out.ite (fun _ => ?_) (fun _ => ?_)
    | with_reducible refine Done.Kept.comp ?_
    | with_reducible refine Done.Kept.waits ?_
    | with_reducible refine Done.Kept.ite (fun _ => ?_) (fun _ => ?_)
    | exact fun h => h
    | exact fun _ h => h
    | decide
    | exact fun _ h => mset_canonical h _ _
    | exact fun _ h => Bay.invalidate_canonical h
    | exact fun _ h => canonical_nil _
    | exact fun _ h => Bay.storeLine_canonical h _ _
    | exact fun _ h => Bay.writeLine_canonical h _ _ _ _ _
    | exact fun _ hx => Panel.commitRow_canonical hx _ _ _
    | exact fun _ h => CtxDie.zeroPage_canonical h _
    | (intro _ h; split <;> exact h)
    | with_reducible refine Kept.ite (fun _ => ?_) (fun _ => ?_)
    | with_reducible refine Kept.ite_fst (fun _ => ?_) (fun _ => ?_)
    | refine fun _ _ _ => ?_
    | (lift_lets; intro _)
    | split

theorem execSessionCloseHost_kept (h : Kept L s₀ s) (t fn slot : Nat)
    (hl : Within [.now, .host, .keep, .snags, .snagNext, .out] L := by exact sub (by assumption) (by decide)) : Kept.Out L s₀ (execSessionCloseHost t fn slot s) := by
  unfold execSessionCloseHost
  repeat' first
    | with_reducible exact sub (by assumption) (by decide)
    | with_reducible assumption
    | with_reducible apply tick_kept
    | with_reducible apply runCmd_kept
    | with_reducible apply closeHost_kept
    | with_reducible refine Kept.Out.next ?_
    | with_reducible refine Done.Kept.comp ?_
    | with_reducible refine Done.Kept.ite (fun _ => ?_) (fun _ => ?_)
    | refine fun _ _ _ => ?_

theorem execSessionOpenLeader_kept (h : Kept L s₀ s) (t fn slot : Nat)
    (hl : Within [.now, .free, .host, .keep, .out] L := by exact sub (by assumption) (by decide)) : Kept.Out L s₀ (execSessionOpenLeader t fn slot s) := by
  unfold execSessionOpenLeader
  repeat' first
    | with_reducible exact sub (by assumption) (by decide)
    | with_reducible assumption
    | with_reducible apply tick_kept
    | with_reducible apply runCmd_kept
    | with_reducible apply random_kept
    | with_reducible apply setFabSession_kept
    | with_reducible apply wait_kept
    | with_reducible refine Kept.Out.next ?_
    | with_reducible refine Done.Kept.comp ?_
    | with_reducible refine Done.Kept.waits ?_
    | refine fun _ _ _ => ?_
    | (lift_lets; intro _)
    | split

theorem sendRequest_kept (h : Kept L s₀ s) (i leader : Nat)
    (hl : Within [.free, .fab, .out] L := by exact sub (by assumption) (by decide)) : Kept L s₀ (s.sendRequest i leader) := by
  unfold State.sendRequest
  repeat' first
    | with_reducible exact sub (by assumption) (by decide)
    | with_reducible assumption
    | with_reducible apply drawn_kept
    | with_reducible apply sendFab_kept

theorem execSessionOpenFollower_kept (h : Kept L s₀ s) (t fn slot : Nat)
    (hl : Within [.now, .free, .fab, .host, .keep, .out] L := by exact sub (by assumption) (by decide)) : Kept.Out L s₀ (execSessionOpenFollower t fn slot s) := by
  unfold execSessionOpenFollower
  repeat' first
    | with_reducible exact sub (by assumption) (by decide)
    | with_reducible assumption
    | with_reducible apply tick_kept
    | with_reducible apply runCmd_kept
    | with_reducible apply setFabSession_kept
    | with_reducible apply wait_kept
    | with_reducible apply sendRequest_kept
    | with_reducible refine Kept.Out.next ?_
    | with_reducible refine Kept.Out.ite (fun _ => ?_) (fun _ => ?_)
    | with_reducible refine Done.Kept.comp ?_
    | with_reducible refine Done.Kept.waits ?_
    | with_reducible refine Done.Kept.ite (fun _ => ?_) (fun _ => ?_)
    | exact fun h => h
    | exact fun _ h => h
    | decide
    | exact fun _ h => mset_canonical h _ _
    | exact fun _ h => Bay.invalidate_canonical h
    | exact fun _ h => canonical_nil _
    | exact fun _ h => Bay.storeLine_canonical h _ _
    | exact fun _ h => Bay.writeLine_canonical h _ _ _ _ _
    | exact fun _ hx => Panel.commitRow_canonical hx _ _ _
    | exact fun _ h => CtxDie.zeroPage_canonical h _
    | (intro _ h; split <;> exact h)
    | with_reducible refine Kept.ite (fun _ => ?_) (fun _ => ?_)
    | with_reducible refine Kept.ite_fst (fun _ => ?_) (fun _ => ?_)
    | refine fun _ _ _ => ?_
    | (lift_lets; intro _)
    | split

theorem execSessionCloseFabric_kept (h : Kept L s₀ s) (t fn slot : Nat)
    (hl : Within [.now, .host, .keep, .snags, .snagNext, .out] L := by exact sub (by assumption) (by decide)) : Kept.Out L s₀ (execSessionCloseFabric t fn slot s) := by
  unfold execSessionCloseFabric
  repeat' first
    | with_reducible exact sub (by assumption) (by decide)
    | with_reducible assumption
    | with_reducible apply tick_kept
    | with_reducible apply runCmd_kept
    | with_reducible apply dropFabSession_kept
    | with_reducible apply completeWaits_kept
    | with_reducible apply snagCtl_kept
    | with_reducible refine Kept.Out.next ?_
    | with_reducible refine Done.Kept.comp ?_
    | with_reducible refine Done.Kept.ite (fun _ => ?_) (fun _ => ?_)
    | refine fun _ _ _ => ?_

theorem sendGrant_kept (h : Kept L s₀ s) (x : FabSess) (m : KeyMsg)
    (hl : Within [.free, .fab, .keep, .out] L := by exact sub (by assumption) (by decide)) : Kept L s₀ (s.sendGrant x m) := by
  unfold State.sendGrant
  repeat' first
    | with_reducible exact sub (by assumption) (by decide)
    | with_reducible assumption
    | with_reducible apply random_kept
    | with_reducible apply drawn_kept
    | with_reducible apply sendFab_kept

theorem execKeyRequest_kept (h : Kept L s₀ s) (t : Nat) (m : KeyMsg)
    (hl : Within [.now, .free, .fab, .host, .keep, .snags, .snagNext, .out] L := by exact sub (by assumption) (by decide)) : Kept.Out L s₀ (execKeyRequest t m s) := by
  unfold execKeyRequest
  repeat' first
    | with_reducible exact sub (by assumption) (by decide)
    | with_reducible assumption
    | with_reducible apply tick_kept
    | with_reducible apply refuseKey_kept
    | with_reducible apply sendGrant_kept
    | with_reducible refine Kept.Out.next ?_
    | with_reducible refine Kept.Out.ite (fun _ => ?_) (fun _ => ?_)
    | exact fun h => h
    | exact fun _ h => h
    | decide
    | exact fun _ h => mset_canonical h _ _
    | exact fun _ h => Bay.invalidate_canonical h
    | exact fun _ h => canonical_nil _
    | exact fun _ h => Bay.storeLine_canonical h _ _
    | exact fun _ h => Bay.writeLine_canonical h _ _ _ _ _
    | exact fun _ hx => Panel.commitRow_canonical hx _ _ _
    | exact fun _ h => CtxDie.zeroPage_canonical h _
    | with_reducible refine Kept.ite (fun _ => ?_) (fun _ => ?_)
    | with_reducible refine Kept.ite_fst (fun _ => ?_) (fun _ => ?_)
    | refine fun _ _ _ => ?_
    | (lift_lets; intro _)
    | split

theorem execKeyGrant_kept (h : Kept L s₀ s) (t : Nat) (m : KeyMsg)
    (hl : Within [.now, .fab, .host, .keep, .snags, .snagNext, .out] L := by exact sub (by assumption) (by decide)) : Kept.Out L s₀ (execKeyGrant t m s) := by
  unfold execKeyGrant
  repeat' first
    | with_reducible exact sub (by assumption) (by decide)
    | with_reducible assumption
    | with_reducible apply tick_kept
    | with_reducible apply refuseKey_kept
    | with_reducible apply setFabSession_kept
    | with_reducible apply sendFab_kept
    | with_reducible apply snagCtl_kept
    | with_reducible apply completeWaits_kept
    | with_reducible refine Kept.Out.next ?_
    | with_reducible refine Kept.Out.ite (fun _ => ?_) (fun _ => ?_)
    | exact fun h => h
    | exact fun _ h => h
    | decide
    | exact fun _ h => mset_canonical h _ _
    | exact fun _ h => Bay.invalidate_canonical h
    | exact fun _ h => canonical_nil _
    | exact fun _ h => Bay.storeLine_canonical h _ _
    | exact fun _ h => Bay.writeLine_canonical h _ _ _ _ _
    | exact fun _ hx => Panel.commitRow_canonical hx _ _ _
    | exact fun _ h => CtxDie.zeroPage_canonical h _
    | with_reducible refine Kept.ite (fun _ => ?_) (fun _ => ?_)
    | with_reducible refine Kept.ite_fst (fun _ => ?_) (fun _ => ?_)
    | refine fun _ _ _ => ?_
    | (lift_lets; intro _)
    | split

theorem execKeyAck_kept (h : Kept L s₀ s) (t session sender : Nat) (auth : Bool)
    (hl : Within [.now, .host, .keep, .snags, .snagNext, .out] L := by exact sub (by assumption) (by decide)) : Kept.Out L s₀ (execKeyAck t session sender auth s) := by
  unfold execKeyAck
  repeat' first
    | with_reducible exact sub (by assumption) (by decide)
    | with_reducible assumption
    | with_reducible apply tick_kept
    | with_reducible apply refuseKey_kept
    | with_reducible apply setFabSession_kept
    | with_reducible apply snagCtl_kept
    | with_reducible apply completeWaits_kept
    | with_reducible refine Kept.Out.next ?_
    | with_reducible refine Kept.Out.ite (fun _ => ?_) (fun _ => ?_)
    | exact fun h => h
    | exact fun _ h => h
    | decide
    | exact fun _ h => mset_canonical h _ _
    | exact fun _ h => Bay.invalidate_canonical h
    | exact fun _ h => canonical_nil _
    | exact fun _ h => Bay.storeLine_canonical h _ _
    | exact fun _ h => Bay.writeLine_canonical h _ _ _ _ _
    | exact fun _ hx => Panel.commitRow_canonical hx _ _ _
    | exact fun _ h => CtxDie.zeroPage_canonical h _
    | with_reducible refine Kept.ite (fun _ => ?_) (fun _ => ?_)
    | with_reducible refine Kept.ite_fst (fun _ => ?_) (fun _ => ?_)
    | refine fun _ _ _ => ?_
    | (lift_lets; intro _)
    | split

theorem execKeyRequestResend_kept (h : Kept L s₀ s) (t session : Nat)
    (hl : Within [.now, .free, .fab, .keep, .out] L := by exact sub (by assumption) (by decide)) : Kept.Out L s₀ (execKeyRequestResend t session s) := by
  unfold execKeyRequestResend
  repeat' first
    | with_reducible exact sub (by assumption) (by decide)
    | with_reducible assumption
    | with_reducible apply tick_kept
    | with_reducible apply setFabSession_kept
    | with_reducible apply sendRequest_kept
    | with_reducible refine Kept.ite (fun _ => ?_) (fun _ => ?_)
    | with_reducible refine Kept.Out.next ?_
    | with_reducible refine Kept.Out.ite (fun _ => ?_) (fun _ => ?_)
    | exact fun h => h
    | exact fun _ h => h
    | decide
    | exact fun _ h => mset_canonical h _ _
    | exact fun _ h => Bay.invalidate_canonical h
    | exact fun _ h => canonical_nil _
    | exact fun _ h => Bay.storeLine_canonical h _ _
    | exact fun _ h => Bay.writeLine_canonical h _ _ _ _ _
    | exact fun _ hx => Panel.commitRow_canonical hx _ _ _
    | exact fun _ h => CtxDie.zeroPage_canonical h _
    | with_reducible refine Kept.ite (fun _ => ?_) (fun _ => ?_)
    | with_reducible refine Kept.ite_fst (fun _ => ?_) (fun _ => ?_)
    | refine fun _ _ _ => ?_
    | (lift_lets; intro _)
    | split

theorem execSessionSetupTimeout_kept (h : Kept L s₀ s) (t session : Nat)
    (hl : Within [.now, .host, .keep, .snags, .snagNext, .out] L := by exact sub (by assumption) (by decide)) : Kept.Out L s₀ (execSessionSetupTimeout t session s) := by
  unfold execSessionSetupTimeout
  repeat' first
    | with_reducible exact sub (by assumption) (by decide)
    | with_reducible assumption
    | with_reducible apply tick_kept
    | with_reducible apply dropFabSession_kept
    | with_reducible apply snagCtl_kept
    | with_reducible apply completeWaits_kept
    | with_reducible refine Kept.Out.next ?_
    | with_reducible refine Kept.ite (fun _ => ?_) (fun _ => ?_)
    | split

theorem execAttest_kept (h : Kept L s₀ s) (t fn slot : Nat)
    (hl : Within [.now, .free, .host, .out] L := by exact sub (by assumption) (by decide)) : Kept.Out L s₀ (execAttest t fn slot s) := by
  unfold execAttest
  repeat' first
    | with_reducible exact sub (by assumption) (by decide)
    | with_reducible assumption
    | with_reducible apply tick_kept
    | with_reducible apply runCmd_kept
    | with_reducible apply drawn_kept
    | with_reducible refine Kept.Out.next ?_
    | with_reducible refine Done.Kept.comp ?_
    | with_reducible refine Done.Kept.ite (fun _ => ?_) (fun _ => ?_)
    | refine fun _ _ _ => ?_

theorem execAttestCert_kept (h : Kept L s₀ s) (t fn slot : Nat)
    (hl : Within [.now, .host, .out] L := by exact sub (by assumption) (by decide)) : Kept.Out L s₀ (execAttestCert t fn slot s) := by
  unfold execAttestCert
  repeat' first
    | with_reducible exact sub (by assumption) (by decide)
    | with_reducible assumption
    | with_reducible apply tick_kept
    | with_reducible apply runCmd_kept
    | with_reducible refine Kept.Out.next ?_
    | with_reducible refine Done.Kept.comp ?_
    | with_reducible refine Done.Kept.ite (fun _ => ?_) (fun _ => ?_)
    | refine fun _ _ _ => ?_

theorem execEntropyHealthFail_kept (h : Kept L s₀ s) (t : Nat) (test : Fin 2)
    (hl : Within [.now, .host, .keep, .snags, .snagNext, .out] L := by exact sub (by assumption) (by decide)) : Kept.Out L s₀ (execEntropyHealthFail t test s) := by
  unfold execEntropyHealthFail
  repeat' first
    | with_reducible exact sub (by assumption) (by decide)
    | with_reducible assumption
    | with_reducible apply tick_kept
    | with_reducible apply modKeep_kept
    | with_reducible apply snagCtl_kept
    | with_reducible refine Kept.Out.next ?_
    | with_reducible refine Kept.ite (fun _ => ?_) (fun _ => ?_)

theorem execEntropyRetest_kept (h : Kept L s₀ s) (t : Nat) (ok : Bool)
    (hl : Within [.now, .host, .keep, .snags, .snagNext, .out] L := by exact sub (by assumption) (by decide)) : Kept.Out L s₀ (execEntropyRetest t ok s) := by
  unfold execEntropyRetest
  repeat' first
    | with_reducible exact sub (by assumption) (by decide)
    | with_reducible assumption
    | with_reducible apply tick_kept
    | with_reducible apply modKeep_kept
    | with_reducible apply snagCtl_kept
    | with_reducible refine Kept.Out.next ?_
    | with_reducible refine Kept.ite (fun _ => ?_) (fun _ => ?_)

theorem execDrbgReseed_kept (h : Kept L s₀ s) (t : Nat)
    (hl : Within [.now, .keep] L := by exact sub (by assumption) (by decide)) : Kept.Out L s₀ (execDrbgReseed t s) := by
  unfold execDrbgReseed
  repeat' first
    | with_reducible exact sub (by assumption) (by decide)
    | with_reducible assumption
    | with_reducible apply tick_kept
    | with_reducible apply modKeep_kept
    | with_reducible refine Kept.Out.next ?_
    | with_reducible refine Kept.ite (fun _ => ?_) (fun _ => ?_)

theorem execKeepCntClr_kept (h : Kept L s₀ s) (t : Nat)
    (hl : Within [.now, .keep] L := by exact sub (by assumption) (by decide)) : Kept.Out L s₀ (execKeepCntClr t s) := by
  unfold execKeepCntClr
  repeat' first
    | with_reducible exact sub (by assumption) (by decide)
    | with_reducible assumption
    | with_reducible apply tick_kept
    | with_reducible apply modKeep_kept
    | with_reducible refine Kept.Out.next ?_
    | with_reducible refine Kept.ite (fun _ => ?_) (fun _ => ?_)

theorem modSense_kept (h : Kept L s₀ s) (f : Sense → Sense)
    (hl : Within [.sense] L := by exact sub (by assumption) (by decide)) : Kept L s₀ (s.modSense f) := by
  unfold State.modSense
  repeat' first
    | with_reducible exact sub (by assumption) (by decide)
    | with_reducible assumption
    | with_reducible refine Kept.same ?_

theorem mergeEvents_kept (h : Kept L s₀ s) (i n : Nat)
    (hl : Within [.free, .sense, .host, .snags, .snagNext, .out] L := by exact sub (by assumption) (by decide)) : Kept L s₀ (s.mergeEvents i n) := by
  unfold State.mergeEvents
  repeat' first
    | with_reducible exact sub (by assumption) (by decide)
    | with_reducible assumption
    | with_reducible apply modSense_kept
    | with_reducible apply snag_kept
    | with_reducible apply drawn_kept
    | with_reducible refine Kept.ite (fun _ => ?_) (fun _ => ?_)

theorem takeRef_kept (h : Kept L s₀ s) (mv bg : Nat)
    (hl : Within [.sense, .host, .snags, .snagNext, .out] L := by exact sub (by assumption) (by decide)) : Kept L s₀ (s.takeRef mv bg) := by
  unfold State.takeRef
  repeat' first
    | with_reducible exact sub (by assumption) (by decide)
    | with_reducible assumption
    | with_reducible apply modSense_kept
    | with_reducible apply snagCtl_kept
    | with_reducible refine Kept.ite (fun _ => ?_) (fun _ => ?_)

theorem trimLadder_kept (h : Kept L s₀ s) (die : Nat)
    (hl : Within [.sense, .host, .snags, .snagNext, .out] L := by exact sub (by assumption) (by decide)) : Kept L s₀ (s.trimLadder die) := by
  unfold State.trimLadder
  repeat' first
    | with_reducible exact sub (by assumption) (by decide)
    | with_reducible assumption
    | with_reducible apply modSense_kept
    | with_reducible apply snag_kept
    | with_reducible refine Kept.ite (fun _ => ?_) (fun _ => ?_)

theorem throttleLeaf_kept (h : Kept L s₀ s) (n : Nat) (v : Int)
    (hl : Within [.sense, .host, .intr, .snags, .snagNext, .out] L := by exact sub (by assumption) (by decide)) : Kept L s₀ (s.throttleLeaf n v) := by
  unfold State.throttleLeaf
  repeat' first
    | with_reducible exact sub (by assumption) (by decide)
    | with_reducible assumption
    | with_reducible apply modSense_kept
    | with_reducible apply snag_kept
    | with_reducible apply intrude_kept
    | with_reducible refine Kept.ite (fun _ => ?_) (fun _ => ?_)

theorem report_kept (h : Kept L s₀ s) (n : Nat) (v : Int)
    (hl : Within [.sense, .host, .intr, .snags, .snagNext, .out] L := by exact sub (by assumption) (by decide)) : Kept L s₀ (s.report n v) := by
  unfold State.report
  repeat' first
    | with_reducible exact sub (by assumption) (by decide)
    | with_reducible assumption
    | with_reducible apply modSense_kept
    | with_reducible apply snag_kept
    | with_reducible apply throttleLeaf_kept
    | with_reducible refine Kept.ite (fun _ => ?_) (fun _ => ?_)

theorem breakSensor_kept (h : Kept L s₀ s) (n cause : Nat)
    (hl : Within [.sense, .host, .intr, .snags, .snagNext, .out] L := by exact sub (by assumption) (by decide)) : Kept L s₀ (s.breakSensor n cause) := by
  unfold State.breakSensor
  repeat' first
    | with_reducible exact sub (by assumption) (by decide)
    | with_reducible assumption
    | with_reducible apply modSense_kept
    | with_reducible apply snag_kept
    | with_reducible apply report_kept

theorem execAdcConversion_kept (h : Kept L s₀ s) (t : Nat) (ch : Fin 32) (code : Int) (ovr : Bool) (merged : Nat)
    (hl : Within [.now, .free, .sense, .host, .snags, .snagNext, .out] L := by exact sub (by assumption) (by decide)) :
    Kept.Out L s₀ (execAdcConversion t ch code ovr merged s) := by
  unfold execAdcConversion
  repeat' first
    | with_reducible exact sub (by assumption) (by decide)
    | with_reducible assumption
    | with_reducible apply tick_kept
    | with_reducible apply modSense_kept
    | with_reducible apply mergeEvents_kept
    | with_reducible refine Kept.Out.next ?_
    | with_reducible refine Kept.ite (fun _ => ?_) (fun _ => ?_)

theorem execAdcCalPeriod_kept (h : Kept L s₀ s) (t : Nat)
    (hl : Within [.now, .sense] L := by exact sub (by assumption) (by decide)) : Kept.Out L s₀ (execAdcCalPeriod t s) := by
  unfold execAdcCalPeriod
  repeat' first
    | with_reducible exact sub (by assumption) (by decide)
    | with_reducible assumption
    | with_reducible apply tick_kept
    | with_reducible apply modSense_kept
    | with_reducible refine Kept.Out.next ?_
    | with_reducible refine Kept.ite (fun _ => ?_) (fun _ => ?_)

theorem execHkSelfCal_kept (h : Kept L s₀ s) (t : Nat)
    (hl : Within [.now, .sense] L := by exact sub (by assumption) (by decide)) : Kept.Out L s₀ (execHkSelfCal t s) := by
  unfold execHkSelfCal
  repeat' first
    | with_reducible exact sub (by assumption) (by decide)
    | with_reducible assumption
    | with_reducible apply tick_kept
    | with_reducible apply modSense_kept
    | with_reducible refine Kept.Out.next ?_
    | with_reducible refine Kept.ite (fun _ => ?_) (fun _ => ?_)

theorem execAdcSelfCalDone_kept (h : Kept L s₀ s) (t : Nat) (offset gain : Int) (refMv bgMv : Nat)
    (hl : Within [.now, .sense, .host, .snags, .snagNext, .out] L := by exact sub (by assumption) (by decide)) :
    Kept.Out L s₀ (execAdcSelfCalDone t offset gain refMv bgMv s) := by
  unfold execAdcSelfCalDone
  repeat' first
    | with_reducible exact sub (by assumption) (by decide)
    | with_reducible assumption
    | with_reducible apply tick_kept
    | with_reducible apply modSense_kept
    | with_reducible apply snagCtl_kept
    | with_reducible apply takeRef_kept
    | with_reducible refine Kept.Out.next ?_
    | with_reducible refine Kept.ite (fun _ => ?_) (fun _ => ?_)

theorem execLadderTrimTick_kept (h : Kept L s₀ s) (t : Nat)
    (hl : Within [.now, .sense, .host, .snags, .snagNext, .out] L := by exact sub (by assumption) (by decide)) : Kept.Out L s₀ (execLadderTrimTick t s) := by
  unfold execLadderTrimTick
  repeat' first
    | with_reducible exact sub (by assumption) (by decide)
    | with_reducible assumption
    | with_reducible apply tick_kept
    | with_reducible apply trimLadder_kept
    | with_reducible apply modSense_kept
    | with_reducible refine foldl_kept (fun _ _ _ => ?_) ?_
    | with_reducible refine Kept.Out.next ?_
    | with_reducible refine Kept.ite (fun _ => ?_) (fun _ => ?_)

theorem execLadderStepApply_kept (h : Kept L s₀ s) (t : Nat) (die : Fin 16)
    (hl : Within [.now, .free, .sense] L := by exact sub (by assumption) (by decide)) : Kept.Out L s₀ (execLadderStepApply t die s) := by
  unfold execLadderStepApply
  repeat' first
    | with_reducible exact sub (by assumption) (by decide)
    | with_reducible assumption
    | with_reducible apply tick_kept
    | with_reducible apply drawn_kept
    | with_reducible apply modSense_kept
    | with_reducible refine Kept.Out.next ?_
    | with_reducible refine Kept.ite (fun _ => ?_) (fun _ => ?_)

theorem execSensorReading_kept (h : Kept L s₀ s) (t : Nat) (n : Fin 48) (v : Int) (merged : Nat)
    (hl : Within [.now, .free, .sense, .host, .intr, .snags, .snagNext, .out] L := by exact sub (by assumption) (by decide)) :
    Kept.Out L s₀ (execSensorReading t n v merged s) := by
  unfold execSensorReading
  repeat' first
    | with_reducible exact sub (by assumption) (by decide)
    | with_reducible assumption
    | with_reducible apply tick_kept
    | with_reducible apply mergeEvents_kept
    | with_reducible apply report_kept
    | with_reducible apply breakSensor_kept
    | with_reducible apply modSense_kept
    | with_reducible refine Kept.Out.next ?_
    | with_reducible refine Kept.ite (fun _ => ?_) (fun _ => ?_)

theorem execSensorSilent_kept (h : Kept L s₀ s) (t : Nat) (n : Fin 48)
    (hl : Within [.now, .sense, .host, .intr, .snags, .snagNext, .out] L := by exact sub (by assumption) (by decide)) : Kept.Out L s₀ (execSensorSilent t n s) := by
  unfold execSensorSilent
  repeat' first
    | with_reducible exact sub (by assumption) (by decide)
    | with_reducible assumption
    | with_reducible apply tick_kept
    | with_reducible apply breakSensor_kept
    | with_reducible refine Kept.Out.next ?_
    | with_reducible refine Kept.ite (fun _ => ?_) (fun _ => ?_)

theorem execSkipHoldEnd_kept (h : Kept L s₀ s) (t : Nat) (b : BayIx)
    (hl : Within [.now, .bays] L := by exact sub (by assumption) (by decide)) : Kept.Out L s₀ (execSkipHoldEnd t b s) :=
  .next (modBay_kept (tick_kept h t) b fun _ hy => by split <;> exact hy)

theorem execPowerWindow_kept (h : Kept L s₀ s) (t : Nat) (leaves : List Nat)
    (hl : Within [.now, .free, .sense, .snap] L := by exact sub (by assumption) (by decide)) : Kept.Out L s₀ (execPowerWindow t leaves s) := by
  unfold execPowerWindow
  repeat' first
    | with_reducible exact sub (by assumption) (by decide)
    | with_reducible assumption
    | with_reducible apply tick_kept
    | with_reducible apply drawn_kept
    | with_reducible apply modSense_kept
    | with_reducible refine Kept.Out.next ?_
    | with_reducible refine Kept.ite (fun _ => ?_) (fun _ => ?_)
    | with_reducible refine Kept.same ?_

theorem execManualDivWrite_kept (h : Kept L s₀ s) (t : Nat) (leaf : Fin 32) (v : BitVec 2)
    (hl : Within [.now, .sense, .intr] L := by exact sub (by assumption) (by decide)) : Kept.Out L s₀ (execManualDivWrite t leaf v s) := by
  unfold execManualDivWrite
  repeat' first
    | with_reducible exact sub (by assumption) (by decide)
    | with_reducible assumption
    | with_reducible apply tick_kept
    | with_reducible apply intrude_kept
    | with_reducible apply modSense_kept
    | with_reducible refine Kept.Out.next ?_
    | with_reducible refine Kept.Out.ite (fun _ => ?_) (fun _ => ?_)
    | exact fun h => h
    | exact fun _ h => h
    | decide
    | exact fun _ h => mset_canonical h _ _
    | exact fun _ h => Bay.invalidate_canonical h
    | exact fun _ h => canonical_nil _
    | exact fun _ h => Bay.storeLine_canonical h _ _
    | exact fun _ h => Bay.writeLine_canonical h _ _ _ _ _
    | exact fun _ hx => Panel.commitRow_canonical hx _ _ _
    | exact fun _ h => CtxDie.zeroPage_canonical h _
    | with_reducible refine Kept.ite (fun _ => ?_) (fun _ => ?_)

theorem execHkXingCntClr_kept (h : Kept L s₀ s) (t : Nat)
    (hl : Within [.now, .sense] L := by exact sub (by assumption) (by decide)) : Kept.Out L s₀ (execHkXingCntClr t s) := by
  unfold execHkXingCntClr
  repeat' first
    | with_reducible exact sub (by assumption) (by decide)
    | with_reducible assumption
    | with_reducible apply tick_kept
    | with_reducible apply modSense_kept
    | with_reducible refine Kept.Out.next ?_

theorem execStartupCalibrationDone_kept (h : Kept L s₀ s) (t : Nat) (res : BitVec 8) (exc : List (Nat × BitVec 8)) (lad : List (Nat × Int))
    (hl : Within [.now, .sense] L := by exact sub (by assumption) (by decide)) :
    Kept.Out L s₀ (execStartupCalibrationDone t res exc lad s) := by
  unfold execStartupCalibrationDone
  repeat' first
    | with_reducible exact sub (by assumption) (by decide)
    | with_reducible assumption
    | with_reducible apply tick_kept
    | with_reducible apply modSense_kept
    | with_reducible refine Kept.Out.next ?_
    | with_reducible refine Kept.ite (fun _ => ?_) (fun _ => ?_)

theorem snagAt_kept (h : Kept L s₀ s) (ts code sev : Nat) (args : List Nat)
    (hl : Within [.host, .snags, .snagNext, .out] L := by exact sub (by assumption) (by decide)) : Kept L s₀ (s.snagAt ts code sev args) := by
  have g := snagCtl_kept h code sev args
  unfold State.snagAt
  generalize s.snagCtl code sev args = u at g ⊢
  exact g.trans ⟨rfl, rfl, le_rfl, le_rfl, List.suffix_refl _, fun _ => .refl, fun o => ⟨o.1.trans (by dsimp only; cases u.snags <;> rfl), o.2⟩, id, id, changed hl⟩

theorem modBoot_kept (h : Kept L s₀ s) (f : Boot → Boot)
    (hl : Within [.boot] L := by exact sub (by assumption) (by decide)) : Kept L s₀ (s.modBoot f) := by
  unfold State.modBoot
  repeat' first
    | with_reducible exact sub (by assumption) (by decide)
    | with_reducible assumption
    | with_reducible refine Kept.same ?_

theorem reclaim_kept (h : Kept L s₀ s)
    (hl : Within [.store] L := by exact sub (by assumption) (by decide)) : Kept L s₀ (s.reclaim) := by
  unfold State.reclaim
  repeat' first
    | with_reducible exact sub (by assumption) (by decide)
    | with_reducible assumption
    | with_reducible refine Kept.ite (fun _ => ?_) (fun _ => ?_)
    | with_reducible refine Kept.same ?_

theorem newStartKey_kept (h : Kept L s₀ s)
    (hl : Within [.free, .keep] L := by exact sub (by assumption) (by decide)) : Kept L s₀ s.newStartKey := by
  have g := random_kept h 512
  unfold State.newStartKey
  dsimp only
  generalize s.random 512 = r at g ⊢
  exact Kept.same g

theorem joinBus_kept (h : Kept L s₀ s)
    (hl : Within [.boot, .out] L := by exact sub (by assumption) (by decide)) : Kept L s₀ (s.joinBus) := by
  unfold State.joinBus
  repeat' first
    | with_reducible exact sub (by assumption) (by decide)
    | with_reducible assumption
    | with_reducible apply modBoot_kept
    | with_reducible apply emit_kept
    | exact fun h => h
    | exact fun _ h => h
    | decide
    | exact fun _ h => mset_canonical h _ _
    | exact fun _ h => Bay.invalidate_canonical h
    | exact fun _ h => canonical_nil _
    | exact fun _ h => Bay.storeLine_canonical h _ _
    | exact fun _ h => Bay.writeLine_canonical h _ _ _ _ _
    | exact fun _ hx => Panel.commitRow_canonical hx _ _ _
    | exact fun _ h => CtxDie.zeroPage_canonical h _
    | with_reducible refine Kept.ite (fun _ => ?_) (fun _ => ?_)

theorem novkoStarts_kept (h : Kept L s₀ s) (i mv : Nat) (hm : s.mode = .primed)
    (hl : Within [.free, .mode, .pwr, .boot, .flash, .store, .sense, .fab, .host, .keep, .snags, .snagNext, .out] L := by exact sub (by assumption) (by decide)) : Kept L s₀ (s.novkoStarts i mv) := by
  unfold State.novkoStarts
  lift_lets
  intro x was fl s1
  have h1 : Kept L s₀ s1 := by
    unfold s1
    with_reducible refine newStartKey_kept ?_
    with_reducible exact Kept.same h
  have e1 : s1.mode = .primed := hm
  clear_value s1
  intro s2
  have h2 : Kept L s₀ s2 := modBoot_kept h1 _
  have e2 : s2.mode = .primed := e1
  clear_value s2
  intro s3
  have h3 : Kept L s₀ s3 := joinBus_kept (setMode_kept h2 (by rw [e2]; decide) (by decide) (by decide))
  clear_value s3
  intro s4
  have h4 : Kept L s₀ s4 := snagAt_kept h3 _ _ _ _
  clear_value s4
  intro s5
  have h5 : Kept L s₀ s5 := Kept.ite (fun _ => h4) fun _ => snagCtl_kept h4 _ _ _
  clear_value s5
  intro pw s6
  have h6 : Kept L s₀ s6 := Kept.ite (fun _ => snagCtl_kept (by
    with_reducible refine Kept.power h5 ?_
    rfl) _ _ _) fun _ => h5
  clear_value s6
  exact reclaim_kept (modSense_kept h6 _)

theorem setNvm_kept (h : Kept L s₀ s) {x : KeepNvm} (hx : s.nvm.minSvn ≤ x.minSvn)
    (hl : Within [.nvm] L := by exact sub (by assumption) (by decide)) : Kept L s₀ { s with nvm := x } :=
  h.trans ⟨rfl, rfl, le_rfl, hx, List.suffix_refl _, fun _ => .refl, id, id, id, changed hl⟩

theorem applyVoucher_kept (h : Kept L s₀ s) (v : List Byte)
    (hl : Within [.nvm, .store, .weights, .host, .snags, .snagNext, .out] L := by exact sub (by assumption) (by decide)) : Kept L s₀ (s.applyVoucher v) := by
  unfold State.applyVoucher
  lift_lets
  intro n nv st w s1
  have h1 : Kept L s₀ s1 := (setNvm_kept h (x := { s.nvm with voucher := voucherCounter v, owners := [(0, some (7, voucherRoot v))] }) le_rfl).same
  clear_value s1
  exact snagCtl_kept h1 _ _ _

theorem applyKeys_kept (h : Kept L s₀ s) (l : List (Nat × Nat × List Byte)) (start : Bool)
    (hl : Within [.nvm, .host, .snags, .snagNext, .out] L := by exact sub (by assumption) (by decide)) : Kept L s₀ (s.applyKeys l start) := by
  unfold State.applyKeys
  lift_lets
  intro own nv u
  have h1 : Kept L s₀ u := setNvm_kept h le_rfl
  clear_value u
  exact Kept.ite (fun _ => h1) fun _ => snagCtl_kept h1 _ _ _

theorem applySettings_kept (h : Kept L s₀ s) (x : List Byte)
    (hl : Within [.pwr, .boot, .sense, .ctx0, .ctx1, .fab, .host, .resil, .intr, .snags, .snagNext, .out] L := by exact sub (by assumption) (by decide)) : Kept L s₀ (s.applySettings x) := by
  unfold State.applySettings
  repeat' first
    | with_reducible exact sub (by assumption) (by decide)
    | with_reducible assumption
    | with_reducible apply writeLeafVset_kept
    | with_reducible apply modBoot_kept
    | with_reducible apply modResil_kept
    | with_reducible apply writeSagThrottle_kept
    | with_reducible apply intrude_kept
    | with_reducible apply modCtx_kept
    | with_reducible apply modSense_kept
    | with_reducible apply modFab_kept
    | with_reducible refine foldl_kept (fun _ _ _ => ?_) ?_
    | exact fun _ h => h
    | with_reducible refine Kept.ite (fun _ => ?_) (fun _ => ?_)

theorem applyImage_kept (h : Kept L s₀ s) (g : CfgImg) (start : Bool)
    (hl : Within [.pwr, .boot, .nvm, .store, .sense, .ctx0, .ctx1, .weights, .fab, .host, .resil, .intr, .snags, .snagNext, .out] L := by exact sub (by assumption) (by decide)) : Kept L s₀ (s.applyImage g start) := by
  unfold State.applyImage
  lift_lets
  intro s1
  have h1 : Kept L s₀ s1 := by
    unfold s1
    split
    · exact applyVoucher_kept h _
    · exact h
  clear_value s1
  intro s2
  have h2 : Kept L s₀ s2 := by
    unfold s2
    split
    · exact applyKeys_kept h1 _ _
    · exact h1
  clear_value s2
  intro nv s3
  have h3 : Kept L s₀ s3 := setNvm_kept (x := { s2.nvm with minSvn := max s2.nvm.minSvn g.minSvn }) h2 (le_max_left _ _)
  clear_value s3
  exact modBoot_kept (applySettings_kept h3 _) _

theorem useHeld_kept (h : Kept L s₀ s)
    (hl : Within [.fab, .host, .snags, .snagNext, .out] L := by exact sub (by assumption) (by decide)) : Kept L s₀ (s.useHeld) := by
  unfold State.useHeld
  repeat' first
    | with_reducible exact sub (by assumption) (by decide)
    | with_reducible assumption
    | with_reducible apply modFab_kept
    | with_reducible apply startPorts_kept
    | split

theorem awaitCoords_kept (h : Kept L s₀ s) (hm : .awaitingCoords ∈ s.mode.next)
    (hl : Within [.mode, .pwr, .fab, .host, .snags, .snagNext, .out] L := by exact sub (by assumption) (by decide)) : Kept L s₀ s.awaitCoords :=
  useHeld_kept (requestStage2_kept (setMode_kept h hm (by decide) (by decide)))

theorem darkenPort_kept (h : Kept L s₀ s) (p : Nat)
    (hl : Within [.fab, .host, .snags, .snagNext, .out] L := by exact sub (by assumption) (by decide)) : Kept L s₀ (s.darkenPort p) := by
  unfold State.darkenPort
  repeat' first
    | with_reducible exact sub (by assumption) (by decide)
    | with_reducible assumption
    | with_reducible apply portTo_kept

theorem settlePorts_kept (h : Kept L s₀ s) (l : List Nat)
    (hl : Within [.fab, .host, .snags, .snagNext, .out] L := by exact sub (by assumption) (by decide)) : Kept L s₀ (s.settlePorts l) := by
  unfold State.settlePorts
  repeat' first
    | with_reducible exact sub (by assumption) (by decide)
    | with_reducible assumption
    | with_reducible apply trainPort_kept
    | with_reducible apply darkenPort_kept
    | with_reducible refine foldl_kept (fun _ _ _ => ?_) ?_
    | with_reducible refine Kept.ite (fun _ => ?_) (fun _ => ?_)

theorem recheckPlans_kept (h : Kept L s₀ s)
    (hl : Within [.bays, .rtrs, .ctx0, .ctx1, .pages, .plans, .fab, .host, .snags, .snagNext, .out] L := by exact sub (by assumption) (by decide)) : Kept L s₀ (s.recheckPlans) := by
  unfold State.recheckPlans
  repeat' first
    | with_reducible exact sub (by assumption) (by decide)
    | with_reducible assumption
    | with_reducible apply snagCtl_kept
    | with_reducible apply unloadPlan_kept
    | with_reducible refine foldl_kept (fun _ _ _ => ?_) ?_
    | with_reducible refine Kept.ite (fun _ => ?_) (fun _ => ?_)

theorem afterCommit_kept (h : Kept L s₀ s) (ports : BitVec 16)
    (hl : Within [.free, .mode, .pwr, .panels, .bays, .rtrs, .ctx0, .ctx1, .pages, .prefixes, .plans, .reqs, .weights, .fab, .host, .keep, .resil, .snags, .snagNext, .out] L := by exact sub (by assumption) (by decide)) : Kept L s₀ (s.afterCommit ports) := by
  unfold State.afterCommit
  lift_lets
  intro moved
  have g := settlePorts_kept (commitVset_kept h) moved
  split
  · rename_i e
    exact awaitCoords_kept h (by rw [e]; decide)
  · exact g
  · exact recheckPlans_kept g
  · exact startRecovery_kept (drawn_kept (modResil_kept (recheckPlans_kept g) _)) _ _ _
  · exact h

theorem holdPrimed_kept (h : Kept L s₀ s) (cause alg a b : Nat)
    (hl : Within [.boot, .keep, .out] L := by exact sub (by assumption) (by decide)) : Kept L s₀ (s.holdPrimed cause alg a b) := by
  unfold State.holdPrimed
  repeat' first
    | with_reducible exact sub (by assumption) (by decide)
    | with_reducible assumption
    | with_reducible apply modBoot_kept
    | with_reducible apply joinBus_kept
    | exact fun h => h
    | exact fun _ h => h
    | decide
    | exact fun _ h => mset_canonical h _ _
    | exact fun _ h => Bay.invalidate_canonical h
    | exact fun _ h => canonical_nil _
    | exact fun _ h => Bay.storeLine_canonical h _ _
    | exact fun _ h => Bay.writeLine_canonical h _ _ _ _ _
    | exact fun _ hx => Panel.commitRow_canonical hx _ _ _
    | exact fun _ h => CtxDie.zeroPage_canonical h _
    | with_reducible refine Kept.ite (fun _ => ?_) (fun _ => ?_)
    | with_reducible refine Kept.ite_fst (fun _ => ?_) (fun _ => ?_)
    | refine fun _ _ _ => ?_
    | (lift_lets; intro _)
    | split
    | with_reducible refine Kept.same ?_

theorem haltConfig_kept (h : Kept L s₀ s) (check slot seq : Nat) (hm : s.mode = .awaitingConfig)
    (hl : Within [.mode, .boot, .fab, .host, .snags, .snagNext, .out] L := by exact sub (by assumption) (by decide)) : Kept L s₀ (s.haltConfig check slot seq) := by
  unfold State.haltConfig
  exact snagCtl_kept (setMode_kept (modBoot_kept h _) (by show _ ∈ s.mode.next; rw [hm]; decide) (by decide) (by decide)) _ _ _

theorem putSlot_kept (h : Kept L s₀ s) (i : Nat) (c : CfgSlot)
    (hl : Within [.flash] L := by exact sub (by assumption) (by decide)) : Kept L s₀ (s.putSlot i c) := by
  unfold State.putSlot
  repeat' first
    | with_reducible exact sub (by assumption) (by decide)
    | with_reducible assumption
    | (lift_lets; intro _)
    | split
    | with_reducible refine Kept.same ?_

theorem execPrimerVerifyDone_kept (h : Kept L s₀ s) (t mv : Nat) (st : SelfTest)
    (hl : Within [.now, .free, .mode, .pwr, .boot, .flash, .store, .sense, .fab, .host, .keep, .snags, .snagNext, .out] L := by exact sub (by assumption) (by decide)) :
    Kept.Out L s₀ (execPrimerVerifyDone t mv st s) := by
  refine .next (Kept.ite (fun _ => tick_kept h t) fun c => Kept.ite (fun _ => holdPrimed_kept (tick_kept h t) _ _ _ _) fun _ => ?_)
  have e : (s.tick t).mode = .primed := by simpa using (not_or.1 c).1
  dsimp only
  split
  · exact novkoStarts_kept (tick_kept h t) _ _ e
  · exact holdPrimed_kept (tick_kept h t) _ _ _ _

theorem execConfigReadDone_kept (h : Kept L s₀ s) (t : Nat) (digestOk : Bool)
    (hl : Within [.now, .mode, .pwr, .boot, .nvm, .store, .sense, .ctx0, .ctx1, .weights, .fab, .host, .resil, .intr, .snags, .snagNext, .out] L := by exact sub (by assumption) (by decide)) :
    Kept.Out L s₀ (execConfigReadDone t digestOk s) := by
  refine .next (Kept.ite (fun _ => tick_kept h t) fun c => ?_)
  have e : (s.tick t).mode = .awaitingConfig := by simpa using c
  have g := tick_kept (L := L) h t
  generalize s.tick t = u at e g ⊢
  split
  · exact haltConfig_kept g _ _ _ e
  · lift_lets
    intro v
    have gv : Kept L s₀ v := modBoot_kept g _
    have ev : v.mode = .awaitingConfig := e
    clear_value v
    split
    · exact haltConfig_kept gv _ _ _ ev
    · refine awaitCoords_kept (applyImage_kept gv _ _) ?_
      have w : Within [.pwr, .boot, .nvm, .store, .sense, .ctx0, .ctx1, .weights, .fab, .host, .resil, .intr, .snags, .snagNext, .out]
        [.pwr, .boot, .nvm, .store, .sense, .ctx0, .ctx1, .weights, .fab, .host, .resil, .intr, .snags, .snagNext, .out] := by decide
      have := (applyImage_kept (L := [.pwr, .boot, .nvm, .store, .sense, .ctx0, .ctx1, .weights, .fab, .host, .resil, .intr, .snags, .snagNext, .out])
        (.refl v) ‹CfgImg› true).frame .mode (by decide)
      rw [show (v.applyImage _ true).mode = v.mode from this, ev]; decide

theorem execConfigLoad_kept (h : Kept L s₀ s) (t fn slot : Nat) (dma : HostRead)
    (hl : Within [.now, .free, .boot, .flash, .host, .snags, .snagNext, .out] L := by exact sub (by assumption) (by decide)) : Kept.Out L s₀ (execConfigLoad t fn slot dma s) := by
  unfold execConfigLoad
  repeat' first
    | with_reducible exact sub (by assumption) (by decide)
    | with_reducible assumption
    | with_reducible apply tick_kept
    | with_reducible apply runCmd_kept
    | with_reducible apply dmaRead_kept
    | with_reducible apply take_kept
    | with_reducible apply modBoot_kept
    | with_reducible apply snagCtl_kept
    | with_reducible apply drawn_kept
    | with_reducible apply putSlot_kept
    | with_reducible refine Kept.Out.next ?_
    | with_reducible refine Kept.Out.ite (fun _ => ?_) (fun _ => ?_)
    | with_reducible refine Done.Kept.comp ?_
    | with_reducible refine Done.Kept.waits ?_
    | with_reducible refine Done.Kept.ite (fun _ => ?_) (fun _ => ?_)
    | exact fun h => h
    | exact fun _ h => h
    | decide
    | exact fun _ h => mset_canonical h _ _
    | exact fun _ h => Bay.invalidate_canonical h
    | exact fun _ h => canonical_nil _
    | exact fun _ h => Bay.storeLine_canonical h _ _
    | exact fun _ h => Bay.writeLine_canonical h _ _ _ _ _
    | exact fun _ hx => Panel.commitRow_canonical hx _ _ _
    | exact fun _ h => CtxDie.zeroPage_canonical h _
    | (intro _ h; split <;> exact h)
    | with_reducible refine Kept.ite (fun _ => ?_) (fun _ => ?_)
    | with_reducible refine Kept.ite_fst (fun _ => ?_) (fun _ => ?_)
    | refine fun _ _ _ => ?_
    | (lift_lets; intro _)
    | split

theorem execConfigCommit_kept (h : Kept L s₀ s) (t fn slot : Nat)
    (hl : Within [.now, .free, .mode, .pwr, .boot, .flash, .nvm, .store, .sense, .panels, .bays, .rtrs, .ctx0, .ctx1, .pages, .prefixes, .plans, .reqs, .weights, .fab, .host, .keep, .resil, .intr, .snags, .snagNext, .out] L := by exact sub (by assumption) (by decide)) : Kept.Out L s₀ (execConfigCommit t fn slot s) := by
  unfold execConfigCommit
  repeat' first
    | with_reducible exact sub (by assumption) (by decide)
    | with_reducible assumption
    | with_reducible apply tick_kept
    | with_reducible apply runCmd_kept
    | with_reducible apply putSlot_kept
    | with_reducible apply modBoot_kept
    | with_reducible apply applyImage_kept
    | with_reducible apply snagCtl_kept
    | with_reducible apply afterCommit_kept
    | with_reducible refine Kept.Out.next ?_
    | with_reducible refine Done.Kept.comp ?_
    | with_reducible refine Done.Kept.ite (fun _ => ?_) (fun _ => ?_)
    | refine fun _ _ _ => ?_
    | (lift_lets; intro _)
    | split

theorem execD2dLinkTrainingDone_kept (h : Kept L s₀ s) (t : Nat) (b : BayIx) (port : Fin 4) (ok : Bool)
    (hl : Within [.now, .boot, .rtrs, .host, .snags, .snagNext, .out] L := by exact sub (by assumption) (by decide)) :
    Kept.Out L s₀ (execD2dLinkTrainingDone t b port ok s) := by
  unfold execD2dLinkTrainingDone
  repeat' first
    | with_reducible exact sub (by assumption) (by decide)
    | with_reducible assumption
    | with_reducible apply tick_kept
    | with_reducible apply modBoot_kept
    | with_reducible apply stickyRtr_kept
    | with_reducible refine Kept.Out.next ?_
    | with_reducible refine Kept.ite (fun _ => ?_) (fun _ => ?_)
    | split

theorem execHbmStackTrainingDone_kept (h : Kept L s₀ s) (t : Nat) (stack : Fin 12) (ok : Bool)
    (hl : Within [.now, .free, .mode, .boot, .panels, .bays, .rtrs, .ctx0, .ctx1, .pages, .prefixes, .plans, .reqs, .weights, .fab, .host, .keep, .snags, .snagNext, .out] L := by exact sub (by assumption) (by decide)) :
    Kept.Out L s₀ (execHbmStackTrainingDone t stack ok s) := by
  unfold execHbmStackTrainingDone
  repeat' first
    | with_reducible exact sub (by assumption) (by decide)
    | with_reducible assumption
    | with_reducible apply tick_kept
    | with_reducible apply modBoot_kept
    | with_reducible apply stackLeaves_kept
    | with_reducible apply closeSlots_kept
    | with_reducible refine Kept.Out.next ?_
    | with_reducible refine Kept.ite (fun _ => ?_) (fun _ => ?_)

theorem execReadyEntry_kept (h : Kept L s₀ s) (t : Nat)
    (hl : Within [.now, .free, .mode, .boot, .panels, .bays, .rtrs, .ctx0, .ctx1, .pages, .prefixes, .plans, .reqs, .weights, .fab, .host, .keep, .resil, .snags, .snagNext, .out] L := by exact sub (by assumption) (by decide)) : Kept.Out L s₀ (execReadyEntry t s) := by
  refine .next (Kept.ite (fun c => startUp_kept (loadHomes_kept (setMode_kept (tick_kept h t) ?_ (by decide) (by decide)))) fun _ => tick_kept h t)
  have e : (s.tick t).mode = .awaitingCoords := by
    unfold State.readyDue at c
    simp only [Bool.and_eq_true, beq_iff_eq] at c
    exact c.1.1.1.1.1.1.1
  rw [e]; decide

theorem pldm_kept (h : Kept L s₀ s) (ty cmd : Nat) {novko : State → State} (hn : Kept L s₀ (novko s))
    (hl : Within [.out] L := by exact sub (by assumption) (by decide)) : Kept L s₀ (s.pldm ty cmd novko) :=
  Kept.ite (fun _ => hn) fun _ => Kept.ite (fun _ => emit_kept h _) fun _ => h

theorem execPldmFirmwareUpdate_kept (h : Kept L s₀ s) (t : Nat) (bankB : Bool) (img : FwImage)
    (hl : Within [.now, .flash, .out] L := by exact sub (by assumption) (by decide)) :
    Kept.Out L s₀ (execPldmFirmwareUpdate t bankB img s) := by
  have put : ∀ {u : State}, Kept L s₀ u → Kept L s₀ (State.emit { u with flash := if bankB then { u.flash with bankB := img } else { u.flash with bankA := img } }
      (.pldm 5 0x10 .success [])) := fun k => emit_kept (by with_reducible exact Kept.same k) _
  have g := tick_kept h t
  unfold execPldmFirmwareUpdate
  generalize s.tick t = u at g ⊢
  refine .next ?_
  dsimp only
  split
  · exact Kept.ite (fun _ => put g) fun _ => pldm_kept g _ _ g
  · exact pldm_kept g _ _ (Kept.ite (fun _ => emit_kept g _) fun _ => put g)

theorem coordsTaken_kept (h : Kept L s₀ s) (c : Coords)
    (hl : Within [.host, .snags, .snagNext, .out] L := by exact sub (by assumption) (by decide)) : Kept L s₀ (s.coordsTaken c) := by
  unfold State.coordsTaken
  repeat' first
    | with_reducible exact sub (by assumption) (by decide)
    | with_reducible assumption
    | with_reducible apply snag_kept

theorem setCoords_kept (h : Kept L s₀ s) (b : List Byte)
    (hl : Within [.fab, .host, .snags, .snagNext, .out] L := by exact sub (by assumption) (by decide)) : Kept L s₀ (s.setCoords b) := by
  unfold State.setCoords
  repeat' first
    | with_reducible exact sub (by assumption) (by decide)
    | with_reducible assumption
    | with_reducible apply emit_kept
    | with_reducible apply pldm_kept
    | with_reducible apply modFab_kept
    | with_reducible apply coordsTaken_kept
    | with_reducible apply settlePorts_kept
    | with_reducible apply snag_kept
    | exact fun h => h
    | exact fun _ h => h
    | decide
    | exact fun _ h => mset_canonical h _ _
    | exact fun _ h => Bay.invalidate_canonical h
    | exact fun _ h => canonical_nil _
    | exact fun _ h => Bay.storeLine_canonical h _ _
    | exact fun _ h => Bay.writeLine_canonical h _ _ _ _ _
    | exact fun _ hx => Panel.commitRow_canonical hx _ _ _
    | exact fun _ h => CtxDie.zeroPage_canonical h _
    | with_reducible refine Kept.ite (fun _ => ?_) (fun _ => ?_)
    | with_reducible refine Kept.ite_fst (fun _ => ?_) (fun _ => ?_)
    | refine fun _ _ _ => ?_
    | (lift_lets; intro s1; have hs1 : Kept L s₀ s1 := ?_; clear_value s1)
    | split

theorem execGetTid_kept (h : Kept L s₀ s) (t : Nat)
    (hl : Within [.now, .free, .out] L := by exact sub (by assumption) (by decide)) : Kept.Out L s₀ (execGetTid t s) := by
  unfold execGetTid
  repeat' first
    | with_reducible exact sub (by assumption) (by decide)
    | with_reducible assumption
    | with_reducible apply tick_kept
    | with_reducible apply pldm_kept
    | with_reducible apply drawn_kept
    | with_reducible apply emit_kept
    | with_reducible refine Kept.Out.next ?_

theorem execGetPldmVersion_kept (h : Kept L s₀ s) (t ty : Nat)
    (hl : Within [.now, .free, .out] L := by exact sub (by assumption) (by decide)) : Kept.Out L s₀ (execGetPldmVersion t ty s) := by
  unfold execGetPldmVersion
  repeat' first
    | with_reducible exact sub (by assumption) (by decide)
    | with_reducible assumption
    | with_reducible apply tick_kept
    | with_reducible apply pldm_kept
    | with_reducible apply drawn_kept
    | with_reducible apply emit_kept
    | with_reducible refine Kept.Out.next ?_
    | with_reducible refine Kept.ite (fun _ => ?_) (fun _ => ?_)

theorem execGetPldmTypes_kept (h : Kept L s₀ s) (t : Nat)
    (hl : Within [.now, .out] L := by exact sub (by assumption) (by decide)) : Kept.Out L s₀ (execGetPldmTypes t s) := by
  unfold execGetPldmTypes
  repeat' first
    | with_reducible exact sub (by assumption) (by decide)
    | with_reducible assumption
    | with_reducible apply tick_kept
    | with_reducible apply pldm_kept
    | with_reducible apply emit_kept
    | with_reducible refine Kept.Out.next ?_

theorem execGetPldmCommands_kept (h : Kept L s₀ s) (t ty : Nat)
    (hl : Within [.now, .free, .out] L := by exact sub (by assumption) (by decide)) : Kept.Out L s₀ (execGetPldmCommands t ty s) := by
  unfold execGetPldmCommands
  repeat' first
    | with_reducible exact sub (by assumption) (by decide)
    | with_reducible assumption
    | with_reducible apply tick_kept
    | with_reducible apply pldm_kept
    | with_reducible apply drawn_kept
    | with_reducible apply emit_kept
    | with_reducible refine Kept.Out.next ?_
    | with_reducible refine Kept.ite (fun _ => ?_) (fun _ => ?_)

theorem execPldmUnsupportedCommand_kept (h : Kept L s₀ s) (t ty code : Nat)
    (hl : Within [.now, .out] L := by exact sub (by assumption) (by decide)) : Kept.Out L s₀ (execPldmUnsupportedCommand t ty code s) := by
  unfold execPldmUnsupportedCommand
  repeat' first
    | with_reducible exact sub (by assumption) (by decide)
    | with_reducible assumption
    | with_reducible apply tick_kept
    | with_reducible apply pldm_kept
    | with_reducible apply emit_kept
    | with_reducible refine Kept.Out.next ?_
    | with_reducible refine Kept.ite (fun _ => ?_) (fun _ => ?_)

theorem execSetCoords_kept (h : Kept L s₀ s) (t : Nat) (rec : List Byte)
    (hl : Within [.now, .fab, .host, .snags, .snagNext, .out] L := by exact sub (by assumption) (by decide)) : Kept.Out L s₀ (execSetCoords t rec s) := by
  unfold execSetCoords
  repeat' first
    | with_reducible exact sub (by assumption) (by decide)
    | with_reducible assumption
    | with_reducible apply tick_kept
    | with_reducible apply pldm_kept
    | with_reducible apply setCoords_kept
    | with_reducible refine Kept.Out.next ?_

theorem execGetCoords_kept (h : Kept L s₀ s) (t : Nat)
    (hl : Within [.now, .out] L := by exact sub (by assumption) (by decide)) : Kept.Out L s₀ (execGetCoords t s) := by
  unfold execGetCoords
  repeat' first
    | with_reducible exact sub (by assumption) (by decide)
    | with_reducible assumption
    | with_reducible apply tick_kept
    | with_reducible apply pldm_kept
    | with_reducible apply emit_kept
    | with_reducible refine Kept.Out.next ?_

theorem execGetPowerStatus_kept (h : Kept L s₀ s) (t : Nat)
    (hl : Within [.now, .out] L := by exact sub (by assumption) (by decide)) : Kept.Out L s₀ (execGetPowerStatus t s) := by
  unfold execGetPowerStatus
  repeat' first
    | with_reducible exact sub (by assumption) (by decide)
    | with_reducible assumption
    | with_reducible apply tick_kept
    | with_reducible apply pldm_kept
    | with_reducible apply emit_kept
    | with_reducible refine Kept.Out.next ?_

theorem execSidebandSnagRead_kept (h : Kept L s₀ s) (t cursor max : Nat)
    (hl : Within [.now, .out] L := by exact sub (by assumption) (by decide)) : Kept.Out L s₀ (execSidebandSnagRead t cursor max s) := by
  unfold execSidebandSnagRead
  repeat' first
    | with_reducible exact sub (by assumption) (by decide)
    | with_reducible assumption
    | with_reducible apply tick_kept
    | with_reducible apply pldm_kept
    | with_reducible apply emit_kept
    | with_reducible refine Kept.Out.next ?_
    | with_reducible refine Kept.ite (fun _ => ?_) (fun _ => ?_)

theorem execGetPrimerStatus_kept (h : Kept L s₀ s) (t : Nat)
    (hl : Within [.now, .out] L := by exact sub (by assumption) (by decide)) : Kept.Out L s₀ (execGetPrimerStatus t s) := by
  unfold execGetPrimerStatus
  repeat' first
    | with_reducible exact sub (by assumption) (by decide)
    | with_reducible assumption
    | with_reducible apply tick_kept
    | with_reducible apply emit_kept
    | with_reducible apply pldm_kept
    | with_reducible refine Kept.Out.next ?_
    | split

theorem execMctpControlMessage_kept (h : Kept L s₀ s) (t : Nat) (code : Byte)
    (hl : Within [.now, .free, .out] L := by exact sub (by assumption) (by decide)) : Kept.Out L s₀ (execMctpControlMessage t code s) := by
  unfold execMctpControlMessage
  repeat' first
    | with_reducible exact sub (by assumption) (by decide)
    | with_reducible assumption
    | with_reducible apply tick_kept
    | with_reducible apply drawn_kept
    | with_reducible apply emit_kept
    | with_reducible refine Kept.Out.next ?_
    | with_reducible refine Kept.ite (fun _ => ?_) (fun _ => ?_)

theorem setSlot_kept_of {s u : State} (h : Kept L s u) (fn slot : Nat) {x : Slot} (hx : s.memWf → Canonical 0 x.mem)
    (hl : Within [.host] L := by exact sub (by assumption) (by decide)) :
    Kept L s (u.setSlot fn slot x) :=
  ⟨h.pending, h.part, h.now, h.svn, h.out, h.moves, h.ordered, fun m =>
    have k := h.mem m
    ⟨k.1, k.2.1, k.2.2.1, k.2.2.2.1, mset_all (P := fun x : Slot => Canonical 0 x.mem) k.2.2.2.2 (hx m) _⟩, h.maps,
    fun f hf => Field.same_trans (h.frame f hf) ((changed (s := u) (t := u.setSlot fn slot x) hl) f hf)⟩

theorem snagFn_kept (h : Kept L s₀ s) (fn code sev : Nat) (args : List Nat)
    (hl : Within [.host, .snags, .snagNext, .out] L := by exact sub (by assumption) (by decide)) : Kept L s₀ (s.snagFn fn code sev args) := by
  unfold State.snagFn
  repeat' first
    | with_reducible exact sub (by assumption) (by decide)
    | with_reducible assumption
    | with_reducible apply snag_kept

theorem removeRequests_kept (h : Kept L s₀ s) (fn : Nat)
    (hl : Within [.free, .panels, .bays, .rtrs, .ctx0, .ctx1, .pages, .prefixes, .plans, .reqs, .weights, .fab, .host, .keep, .snags, .snagNext, .out] L := by exact sub (by assumption) (by decide)) : Kept L s₀ (s.removeRequests fn) := by
  unfold State.removeRequests
  repeat' first
    | with_reducible exact sub (by assumption) (by decide)
    | with_reducible assumption
    | with_reducible apply schedule_kept
    | with_reducible refine foldl_kept (fun _ _ _ => ?_) ?_
    | with_reducible refine Kept.ite (fun _ => ?_) (fun _ => ?_)
    | split
    | with_reducible refine Kept.same ?_

theorem resetFunction_kept (h : Kept L s₀ s) (fn cause : Nat)
    (hl : Within [.free, .panels, .bays, .rtrs, .ctx0, .ctx1, .pages, .prefixes, .plans, .reqs, .weights, .fab, .host, .keep, .snags, .snagNext, .out] L := by exact sub (by assumption) (by decide)) : Kept L s₀ (s.resetFunction fn cause) := by
  have g : ∀ (l : List Nat) {u : State}, Kept L s u →
      Kept L s ((l.map fun i => (i, s.slot fn i)).foldl (fun s e => s.setSlot fn e.1 e.2.cleared) u) := by
    intro l
    induction l with
    | nil => exact fun g => g
    | cons i l ih => exact fun g => ih (setSlot_kept_of g fn i fun m => slot_canonical m.2.2.2.2 fn i)
  unfold State.resetFunction
  lift_lets
  intro slots busy gone s1
  have h1 : Kept L s₀ s1 := h.trans (g _ (Kept.refl s))
  clear_value s1
  intro s2
  have h2 : Kept L s₀ s2 := modHost_kept h1 fun _ m => by exact m
  clear_value s2
  exact snagFn_kept (closeHost_kept (removeRequests_kept h2 _) _ _) _ _ _ _

theorem sendPending_kept (h : Kept L s₀ s) (fn : Nat)
    (hl : Within [.host, .out] L := by exact sub (by assumption) (by decide)) : Kept L s₀ (s.sendPending fn) := by
  unfold State.sendPending
  repeat' first
    | with_reducible exact sub (by assumption) (by decide)
    | with_reducible assumption
    | with_reducible apply modHost_kept
    | with_reducible apply emit_kept
    | with_reducible refine foldl_kept (fun _ _ _ => ?_) ?_
    | exact fun _ h => h
    | with_reducible refine Kept.ite (fun _ => ?_) (fun _ => ?_)

theorem setMask_kept (h : Kept L s₀ s) (fn vec : Nat) (masked : Bool)
    (hl : Within [.host, .out] L := by exact sub (by assumption) (by decide)) : Kept L s₀ (s.setMask fn vec masked) := by
  unfold State.setMask
  repeat' first
    | with_reducible exact sub (by assumption) (by decide)
    | with_reducible assumption
    | with_reducible apply modHost_kept
    | with_reducible apply sendPending_kept
    | exact fun _ h => h
    | with_reducible refine Kept.ite (fun _ => ?_) (fun _ => ?_)

theorem setBusMaster_kept (h : Kept L s₀ s) (fn : Nat) (v : Bool)
    (hl : Within [.host, .out] L := by exact sub (by assumption) (by decide)) : Kept L s₀ (s.setBusMaster fn v) := by
  unfold State.setBusMaster
  repeat' first
    | with_reducible exact sub (by assumption) (by decide)
    | with_reducible assumption
    | with_reducible apply modHost_kept
    | with_reducible apply sendPending_kept
    | exact fun _ h => h
    | with_reducible refine Kept.ite (fun _ => ?_) (fun _ => ?_)

theorem setExpert_kept (h : Kept L s₀ s) (fn : Nat) (v : Bool) (cause : Nat)
    (hl : Within [.host, .snags, .snagNext, .out] L := by exact sub (by assumption) (by decide)) : Kept L s₀ (s.setExpert fn v cause) := by
  unfold State.setExpert
  repeat' first
    | with_reducible exact sub (by assumption) (by decide)
    | with_reducible assumption
    | with_reducible apply modHost_kept
    | with_reducible apply snagFn_kept
    | exact fun _ h => h
    | with_reducible refine Kept.ite (fun _ => ?_) (fun _ => ?_)

theorem disableVfs_kept (h : Kept L s₀ s)
    (hl : Within [.free, .panels, .bays, .rtrs, .ctx0, .ctx1, .pages, .prefixes, .plans, .reqs, .weights, .fab, .host, .keep, .snags, .snagNext, .out] L := by exact sub (by assumption) (by decide)) : Kept L s₀ (s.disableVfs) := by
  unfold State.disableVfs
  repeat' first
    | with_reducible exact sub (by assumption) (by decide)
    | with_reducible assumption
    | with_reducible apply resetFunction_kept
    | with_reducible apply dropPrefix_kept
    | with_reducible apply setExpert_kept
    | with_reducible apply modHost_kept
    | with_reducible refine foldl_kept (fun _ _ _ => ?_) ?_
    | exact fun _ h => h
    | with_reducible refine Kept.ite (fun _ => ?_) (fun _ => ?_)
    | split

theorem setNumVfs_kept (h : Kept L s₀ s) (n : Nat)
    (hl : Within [.free, .panels, .bays, .rtrs, .ctx0, .ctx1, .pages, .prefixes, .plans, .reqs, .weights, .fab, .host, .keep, .snags, .snagNext, .out] L := by exact sub (by assumption) (by decide)) : Kept L s₀ (s.setNumVfs n) := by
  unfold State.setNumVfs
  repeat' first
    | with_reducible exact sub (by assumption) (by decide)
    | with_reducible assumption
    | with_reducible apply disableVfs_kept
    | with_reducible apply modHost_kept
    | exact fun _ h => h
    | with_reducible refine Kept.ite (fun _ => ?_) (fun _ => ?_)

theorem setStream_kept (h : Kept L s₀ s) (fn : Nat) (v : Bool)
    (hl : Within [.keep, .out] L := by exact sub (by assumption) (by decide)) : Kept L s₀ (s.setStream fn v) := by
  unfold State.setStream
  repeat' first
    | with_reducible exact sub (by assumption) (by decide)
    | with_reducible assumption
    | with_reducible apply modKeep_kept
    | with_reducible apply emit_kept
    | split

theorem execMsixVectorUnmask_kept (h : Kept L s₀ s) (t fn vec : Nat)
    (hl : Within [.now, .host, .out] L := by exact sub (by assumption) (by decide)) : Kept.Out L s₀ (execMsixVectorUnmask t fn vec s) := by
  unfold execMsixVectorUnmask
  repeat' first
    | with_reducible exact sub (by assumption) (by decide)
    | with_reducible assumption
    | with_reducible apply tick_kept
    | with_reducible apply setMask_kept
    | with_reducible refine Kept.Out.next ?_
    | with_reducible refine Kept.ite (fun _ => ?_) (fun _ => ?_)

theorem execFunctionLevelReset_kept (h : Kept L s₀ s) (t fn : Nat)
    (hl : Within [.now, .free, .panels, .bays, .rtrs, .ctx0, .ctx1, .pages, .prefixes, .plans, .reqs, .weights, .fab, .host, .keep, .snags, .snagNext, .out] L := by exact sub (by assumption) (by decide)) : Kept.Out L s₀ (execFunctionLevelReset t fn s) := by
  unfold execFunctionLevelReset
  repeat' first
    | with_reducible exact sub (by assumption) (by decide)
    | with_reducible assumption
    | with_reducible apply tick_kept
    | with_reducible apply resetFunction_kept
    | with_reducible refine Kept.Out.next ?_
    | with_reducible refine Kept.ite (fun _ => ?_) (fun _ => ?_)

theorem execD3hotEntry_kept (h : Kept L s₀ s) (t fn : Nat)
    (hl : Within [.now, .free, .panels, .bays, .rtrs, .ctx0, .ctx1, .pages, .prefixes, .plans, .reqs, .weights, .fab, .host, .keep, .snags, .snagNext, .out] L := by exact sub (by assumption) (by decide)) : Kept.Out L s₀ (execD3hotEntry t fn s) := by
  unfold execD3hotEntry
  repeat' first
    | with_reducible exact sub (by assumption) (by decide)
    | with_reducible assumption
    | with_reducible apply tick_kept
    | with_reducible apply resetFunction_kept
    | with_reducible refine Kept.Out.next ?_
    | with_reducible refine Kept.ite (fun _ => ?_) (fun _ => ?_)

theorem execEndpointReset_kept (h : Kept L s₀ s) (t : Nat) (linkLoss : Bool)
    (hl : Within [.now, .free, .panels, .bays, .rtrs, .ctx0, .ctx1, .pages, .prefixes, .plans, .reqs, .weights, .fab, .host, .keep, .snags, .snagNext, .out] L := by exact sub (by assumption) (by decide)) : Kept.Out L s₀ (execEndpointReset t linkLoss s) := by
  unfold execEndpointReset
  repeat' first
    | with_reducible exact sub (by assumption) (by decide)
    | with_reducible assumption
    | with_reducible apply tick_kept
    | with_reducible apply modHost_kept
    | with_reducible apply snagFn_kept
    | with_reducible apply resetFunction_kept
    | with_reducible refine foldl_kept (fun _ _ _ => ?_) ?_
    | with_reducible refine Kept.Out.next ?_
    | exact fun _ h => h
    | with_reducible refine Kept.ite (fun _ => ?_) (fun _ => ?_)

theorem execPcieLinkUp_kept (h : Kept L s₀ s) (t : Nat) (speed : Fin 7)
    (hl : Within [.now, .host] L := by exact sub (by assumption) (by decide)) : Kept.Out L s₀ (execPcieLinkUp t speed s) := by
  unfold execPcieLinkUp
  repeat' first
    | with_reducible exact sub (by assumption) (by decide)
    | with_reducible assumption
    | with_reducible apply tick_kept
    | with_reducible apply modHost_kept
    | with_reducible refine Kept.Out.next ?_
    | exact fun _ h => h
    | with_reducible refine Kept.ite (fun _ => ?_) (fun _ => ?_)

theorem execVfDisable_kept (h : Kept L s₀ s) (t : Nat)
    (hl : Within [.now, .free, .panels, .bays, .rtrs, .ctx0, .ctx1, .pages, .prefixes, .plans, .reqs, .weights, .fab, .host, .keep, .snags, .snagNext, .out] L := by exact sub (by assumption) (by decide)) : Kept.Out L s₀ (execVfDisable t s) := by
  unfold execVfDisable
  repeat' first
    | with_reducible exact sub (by assumption) (by decide)
    | with_reducible assumption
    | with_reducible apply tick_kept
    | with_reducible apply disableVfs_kept
    | with_reducible refine Kept.Out.next ?_
    | with_reducible refine Kept.ite (fun _ => ?_) (fun _ => ?_)

theorem execExpertEnable_kept (h : Kept L s₀ s) (t fn slot : Nat)
    (hl : Within [.now, .host, .snags, .snagNext, .out] L := by exact sub (by assumption) (by decide)) : Kept.Out L s₀ (execExpertEnable t fn slot s) := by
  unfold execExpertEnable
  repeat' first
    | with_reducible exact sub (by assumption) (by decide)
    | with_reducible assumption
    | with_reducible apply tick_kept
    | with_reducible apply runCmd_kept
    | with_reducible apply setExpert_kept
    | with_reducible refine Kept.Out.next ?_
    | with_reducible refine Done.Kept.comp ?_
    | with_reducible refine Done.Kept.ite (fun _ => ?_) (fun _ => ?_)
    | refine fun _ _ _ => ?_

theorem execIdeKSetGo_kept (h : Kept L s₀ s) (t fn : Nat)
    (hl : Within [.now, .keep, .out] L := by exact sub (by assumption) (by decide)) : Kept.Out L s₀ (execIdeKSetGo t fn s) := by
  unfold execIdeKSetGo
  repeat' first
    | with_reducible exact sub (by assumption) (by decide)
    | with_reducible assumption
    | with_reducible apply tick_kept
    | with_reducible apply setStream_kept
    | with_reducible refine Kept.Out.next ?_

theorem execIdeKSetStop_kept (h : Kept L s₀ s) (t fn : Nat)
    (hl : Within [.now, .keep, .out] L := by exact sub (by assumption) (by decide)) : Kept.Out L s₀ (execIdeKSetStop t fn s) := by
  unfold execIdeKSetStop
  repeat' first
    | with_reducible exact sub (by assumption) (by decide)
    | with_reducible assumption
    | with_reducible apply tick_kept
    | with_reducible apply setStream_kept
    | with_reducible refine Kept.Out.next ?_

theorem execIdeKeyProg_kept (h : Kept L s₀ s) (t : Nat)
    (hl : Within [.now, .free, .out] L := by exact sub (by assumption) (by decide)) : Kept.Out L s₀ (execIdeKeyProg t s) := by
  unfold execIdeKeyProg
  repeat' first
    | with_reducible exact sub (by assumption) (by decide)
    | with_reducible assumption
    | with_reducible apply tick_kept
    | with_reducible apply drawn_kept
    | with_reducible apply emit_kept
    | with_reducible refine Kept.Out.next ?_
    | with_reducible refine Kept.ite (fun _ => ?_) (fun _ => ?_)

theorem execDoeSpdmRequest_kept (h : Kept L s₀ s) (t : Nat) (code : Byte)
    (hl : Within [.now, .free, .out] L := by exact sub (by assumption) (by decide)) : Kept.Out L s₀ (execDoeSpdmRequest t code s) := by
  unfold execDoeSpdmRequest
  repeat' first
    | with_reducible exact sub (by assumption) (by decide)
    | with_reducible assumption
    | with_reducible apply tick_kept
    | with_reducible apply drawn_kept
    | with_reducible apply emit_kept
    | with_reducible refine Kept.Out.next ?_
    | with_reducible refine Kept.ite (fun _ => ?_) (fun _ => ?_)

theorem execMbCntClr_kept (h : Kept L s₀ s) (t : Nat)
    (hl : Within [.now, .host] L := by exact sub (by assumption) (by decide)) : Kept.Out L s₀ (execMbCntClr t s) := by
  unfold execMbCntClr
  repeat' first
    | with_reducible exact sub (by assumption) (by decide)
    | with_reducible assumption
    | with_reducible apply tick_kept
    | with_reducible apply modHost_kept
    | with_reducible refine Kept.Out.next ?_
    | exact fun _ h => h
    | with_reducible refine Kept.ite (fun _ => ?_) (fun _ => ?_)

theorem via_kept (h : Kept L s₀ s) {f : State → Host.Outcome State Fault Refusal} (hf : Kept.Out L s₀ (f s)) : Kept L s₀ (s.via f) := by
  unfold State.via
  split
  · exact hf _ ‹_›
  · exact h

theorem onBit_kept (h : Kept L s₀ s) (v : Word) (bit : Nat) {f : State → State} (hf : Kept L s₀ s → Kept L s₀ (f s)) :
    Kept L s₀ (s.onBit v bit f) :=
  Kept.ite (fun _ => hf h) fun _ => h

theorem writeAlloc_kept (h : Kept L s₀ s) (b : Nat) (v : Word)
    (hl : Within [.bays, .host, .snags, .snagNext, .out] L := by exact sub (by assumption) (by decide)) : Kept L s₀ (s.writeAlloc b v) := by
  unfold State.writeAlloc
  lift_lets
  intro y valid same
  refine Kept.ite (fun _ => Kept.ite (fun _ => h) fun _ => lockBay_kept h _ _ _) fun _ => modBay_kept h b fun y hy => ?_
  dsimp only
  split
  · exact Bay.invalidate_canonical hy
  · exact hy

theorem writeCtl_kept (h : Kept L s₀ s) (off : Nat) (v : Word)
    (hl : Within [.now, .pwr, .weights, .host, .resil, .intr, .snags, .snagNext, .out] L := by exact sub (by assumption) (by decide)) : Kept L s₀ (s.writeCtl off v) := by
  unfold State.writeCtl
  repeat' first
    | with_reducible exact sub (by assumption) (by decide)
    | with_reducible assumption
    | with_reducible apply via_kept
    | with_reducible apply onBit_kept
    | with_reducible apply modWeights_kept
    | with_reducible apply modHost_kept
    | with_reducible apply modResil_kept
    | with_reducible apply execCtlPwrLeafVsetWrite_kept
    | with_reducible apply execSagThrottleWrite_kept
    | with_reducible apply execVsetCommit_kept
    | with_reducible apply execMbCntClr_kept
    | exact fun _ h => h
    | with_reducible refine Kept.ite (fun _ => ?_) (fun _ => ?_)
    | (lift_lets; intro _)
    | split
    | with_reducible refine Kept.power ?_ ?_
    | rfl

theorem writeKeep_kept (h : Kept L s₀ s) (off : Nat) (v : Word)
    (hl : Within [.now, .keep] L := by exact sub (by assumption) (by decide)) : Kept L s₀ (s.writeKeep off v) := by
  unfold State.writeKeep
  repeat' first
    | with_reducible exact sub (by assumption) (by decide)
    | with_reducible assumption
    | with_reducible apply modKeep_kept
    | with_reducible apply onBit_kept
    | with_reducible apply via_kept
    | with_reducible apply execKeepCntClr_kept
    | (lift_lets; intro _)
    | split

theorem writeHk_kept (h : Kept L s₀ s) (off : Nat) (v : Word)
    (hl : Within [.now, .sense, .intr] L := by exact sub (by assumption) (by decide)) : Kept L s₀ (s.writeHk off v) := by
  unfold State.writeHk
  repeat' first
    | with_reducible exact sub (by assumption) (by decide)
    | with_reducible assumption
    | with_reducible apply via_kept
    | with_reducible apply modSense_kept
    | with_reducible apply onBit_kept
    | with_reducible apply execManualDivWrite_kept
    | with_reducible apply execHkSelfCal_kept
    | with_reducible apply execHkXingCntClr_kept
    | with_reducible refine Kept.ite (fun _ => ?_) (fun _ => ?_)
    | (lift_lets; intro _)
    | split

theorem writePortCtrl_kept (h : Kept L s₀ s) (p : Nat) (v : Word)
    (hl : Within [.free, .fab, .host, .snags, .snagNext, .out] L := by exact sub (by assumption) (by decide)) : Kept L s₀ (s.writePortCtrl p v) := by
  unfold State.writePortCtrl
  repeat' first
    | with_reducible exact sub (by assumption) (by decide)
    | with_reducible assumption
    | with_reducible apply modFab_kept
    | with_reducible apply snag_kept
    | with_reducible apply drawn_kept
    | with_reducible apply modPort_kept
    | with_reducible apply onBit_kept
    | with_reducible apply clearPort_kept
    | with_reducible apply releasePort_kept
    | with_reducible apply retrainPort_kept
    | exact fun h => h
    | exact fun _ h => h
    | decide
    | exact fun _ h => mset_canonical h _ _
    | exact fun _ h => Bay.invalidate_canonical h
    | exact fun _ h => canonical_nil _
    | exact fun _ h => Bay.storeLine_canonical h _ _
    | exact fun _ h => Bay.writeLine_canonical h _ _ _ _ _
    | exact fun _ hx => Panel.commitRow_canonical hx _ _ _
    | exact fun _ h => CtxDie.zeroPage_canonical h _
    | with_reducible refine Kept.ite (fun _ => ?_) (fun _ => ?_)
    | with_reducible refine Kept.ite_fst (fun _ => ?_) (fun _ => ?_)
    | refine fun _ _ _ => ?_
    | (lift_lets; intro _)

theorem writeFab_kept (h : Kept L s₀ s) (off : Nat) (v : Word)
    (hl : Within [.free, .fab, .host, .snags, .snagNext, .out] L := by exact sub (by assumption) (by decide)) : Kept L s₀ (s.writeFab off v) := by
  unfold State.writeFab
  repeat' first
    | with_reducible exact sub (by assumption) (by decide)
    | with_reducible assumption
    | with_reducible apply modPort_kept
    | with_reducible apply writePortCtrl_kept
    | with_reducible apply modFab_kept
    | with_reducible apply onBit_kept
    | with_reducible apply clearFab_kept
    | with_reducible refine Kept.ite (fun _ => ?_) (fun _ => ?_)
    | (lift_lets; intro _)
    | split

theorem writeArbCfg_kept (h : Kept L s₀ s) (k : Nat) (v : Word)
    (hl : Within [.ctx0, .ctx1, .host, .snags, .snagNext, .out] L := by exact sub (by assumption) (by decide)) : Kept L s₀ (s.writeArbCfg k v) := by
  unfold State.writeArbCfg
  repeat' first
    | with_reducible exact sub (by assumption) (by decide)
    | with_reducible assumption
    | with_reducible apply arbitrate_kept
    | with_reducible apply modCtx_kept
    | with_reducible apply snag_kept
    | exact fun h => h
    | exact fun _ h => h
    | decide
    | exact fun _ h => mset_canonical h _ _
    | exact fun _ h => Bay.invalidate_canonical h
    | exact fun _ h => canonical_nil _
    | exact fun _ h => Bay.storeLine_canonical h _ _
    | exact fun _ h => Bay.writeLine_canonical h _ _ _ _ _
    | exact fun _ hx => Panel.commitRow_canonical hx _ _ _
    | exact fun _ h => CtxDie.zeroPage_canonical h _
    | with_reducible refine Kept.ite (fun _ => ?_) (fun _ => ?_)

theorem writeCtx_kept (h : Kept L s₀ s) (k off : Nat) (v : Word)
    (hl : Within [.now, .ctx0, .ctx1, .host, .snags, .snagNext, .out] L := by exact sub (by assumption) (by decide)) : Kept L s₀ (s.writeCtx k off v) := by
  unfold State.writeCtx
  repeat' first
    | with_reducible exact sub (by assumption) (by decide)
    | with_reducible assumption
    | with_reducible apply modCtx_kept
    | with_reducible apply onBit_kept
    | with_reducible apply via_kept
    | with_reducible apply writeArbCfg_kept
    | with_reducible apply execCtxCntClr_kept
    | with_reducible apply execCtxStarveCapClear_kept
    | with_reducible apply execCtxPoolPush_kept
    | exact fun _ h => h
    | (lift_lets; intro _)
    | split

theorem writeBay_kept (h : Kept L s₀ s) (b off : Nat) (v : Word)
    (hl : Within [.now, .free, .mode, .pwr, .panels, .bays, .rtrs, .ctx0, .ctx1, .pages, .prefixes, .plans, .reqs, .weights, .fab, .host, .keep, .resil, .snags, .snagNext, .out] L := by exact sub (by assumption) (by decide)) : Kept L s₀ (s.writeBay b off v) := by
  unfold State.writeBay
  repeat' first
    | with_reducible exact sub (by assumption) (by decide)
    | with_reducible assumption
    | with_reducible apply writeFlags_kept
    | with_reducible apply modBay_kept
    | with_reducible apply boundaryIf_kept
    | with_reducible apply onBit_kept
    | with_reducible apply via_kept
    | with_reducible apply writeSegCtrl_kept
    | with_reducible apply writeAlloc_kept
    | with_reducible apply modRtr_kept
    | with_reducible apply execBayCntClr_kept
    | with_reducible apply execBaySpDataAccess_kept
    | with_reducible apply execRtrLocalCloseWrite_kept
    | with_reducible apply execRtrCntClr_kept
    | with_reducible apply execRtrHardFenceWrite_kept
    | exact fun _ h => h
    | with_reducible refine Kept.ite (fun _ => ?_) (fun _ => ?_)
    | (lift_lets; intro s1; have hs1 : Kept L s₀ s1 := ?_; clear_value s1)
    | (lift_lets; intro _)
    | split

theorem lockPanel_kept (h : Kept L s₀ s) (b p off : Nat) (v : Word)
    (hl : Within [.panels, .host, .snags, .snagNext, .out] L := by exact sub (by assumption) (by decide)) : Kept L s₀ (s.lockPanel b p off v) := by
  unfold State.lockPanel
  repeat' first
    | with_reducible exact sub (by assumption) (by decide)
    | with_reducible assumption
    | with_reducible apply stickyPanel_kept
    | exact fun _ h => h

theorem writePanelCfg_kept (h : Kept L s₀ s) (b p : Nat) (v : Word)
    (hl : Within [.panels, .bays, .host, .snags, .snagNext, .out] L := by exact sub (by assumption) (by decide)) : Kept L s₀ (s.writePanelCfg b p v) := by
  unfold State.writePanelCfg
  repeat' first
    | with_reducible exact sub (by assumption) (by decide)
    | with_reducible assumption
    | with_reducible apply lockPanel_kept
    | with_reducible apply modPanel_kept
    | with_reducible apply boundaryIf_kept
    | exact fun _ h => h
    | with_reducible refine Kept.ite (fun _ => ?_) (fun _ => ?_)

theorem writePanel_kept (h : Kept L s₀ s) (b p off : Nat) (v : Word)
    (hl : Within [.now, .panels, .bays, .host, .snags, .snagNext, .out] L := by exact sub (by assumption) (by decide)) : Kept L s₀ (s.writePanel b p off v) := by
  unfold State.writePanel
  repeat' first
    | with_reducible exact sub (by assumption) (by decide)
    | with_reducible assumption
    | with_reducible apply writePanelCfg_kept
    | with_reducible apply modPanel_kept
    | with_reducible apply boundaryIf_kept
    | with_reducible apply onBit_kept
    | with_reducible apply via_kept
    | with_reducible apply execPnlCntClr_kept
    | with_reducible apply execPnlWitMismatchClear_kept
    | with_reducible apply execPnlWinDataClear_kept
    | exact fun _ h => h
    | (lift_lets; intro _)
    | split

theorem writeReg_kept (h : Kept L s₀ s) (o : Nat) (v : Word)
    (hl : Within [.now, .free, .mode, .pwr, .sense, .panels, .bays, .rtrs, .ctx0, .ctx1, .pages, .prefixes, .plans, .reqs, .weights, .fab, .host, .keep, .resil, .intr, .snags, .snagNext, .out] L := by exact sub (by assumption) (by decide)) : Kept L s₀ (s.writeReg o v) := by
  unfold State.writeReg
  repeat' first
    | with_reducible exact sub (by assumption) (by decide)
    | with_reducible assumption
    | with_reducible apply writeCtl_kept
    | with_reducible apply writeKeep_kept
    | with_reducible apply writeHk_kept
    | with_reducible apply writeFab_kept
    | with_reducible apply writeCtx_kept
    | with_reducible apply writeBay_kept
    | with_reducible apply writePanel_kept
    | split

theorem hostReadReg_kept (h : Kept L s₀ s) (o : Nat)
    (hl : Within [.now, .free, .bays, .out] L := by exact sub (by assumption) (by decide)) : Kept L s₀ (s.hostReadReg o) := by
  unfold State.hostReadReg
  repeat' first
    | with_reducible exact sub (by assumption) (by decide)
    | with_reducible assumption
    | with_reducible apply via_kept
    | with_reducible apply drawn_kept
    | with_reducible apply emit_kept
    | with_reducible apply execBayStrokeCntRead_kept
    | with_reducible apply execBaySpDataAccess_kept
    | with_reducible refine Kept.ite (fun _ => ?_) (fun _ => ?_)
    | split

theorem execRegisterWrite_kept (h : Kept L s₀ s) (t : Nat) (a : RegAddr) (v : Word)
    (hl : Within [.now, .free, .mode, .pwr, .sense, .panels, .bays, .rtrs, .ctx0, .ctx1, .pages, .prefixes, .plans, .reqs, .weights, .fab, .host, .keep, .resil, .intr, .snags, .snagNext, .out] L := by exact sub (by assumption) (by decide)) : Kept.Out L s₀ (execRegisterWrite t a v s) := by
  unfold execRegisterWrite
  repeat' first
    | with_reducible exact sub (by assumption) (by decide)
    | with_reducible assumption
    | with_reducible apply tick_kept
    | with_reducible apply writeReg_kept
    | with_reducible apply setBusMaster_kept
    | with_reducible apply setNumVfs_kept
    | with_reducible apply setMask_kept
    | with_reducible refine Kept.Out.next ?_
    | with_reducible refine Kept.ite (fun _ => ?_) (fun _ => ?_)
    | split

theorem busyWrite_kept (h : Kept L s₀ s) (fn slot off : Nat) (b : List Byte)
    (hl : Within [.host, .snags, .snagNext, .out] L := by exact sub (by assumption) (by decide)) : Kept L s₀ (s.busyWrite fn slot off b) := by
  unfold State.busyWrite
  repeat' first
    | with_reducible exact sub (by assumption) (by decide)
    | with_reducible assumption
    | with_reducible apply modHost_kept
    | with_reducible apply snagFn_kept
    | exact fun _ h => h
    | with_reducible refine Kept.ite (fun _ => ?_) (fun _ => ?_)

theorem post_kept (h : Kept L s₀ s) (fn slot : Nat)
    (hl : Within [.host, .out] L := by exact sub (by assumption) (by decide)) : Kept L s₀ (s.post fn slot) := by
  unfold State.post
  exact (takeReserved_kept _) (modHost_kept (setSlot_kept h _ _ fun m => by exact slot_canonical m _ _) fun _ m => by exact m)

theorem postWrite_kept (h : Kept L s₀ s) (fn slot off : Nat) (b : List Byte)
    (hl : Within [.host, .snags, .snagNext, .out] L := by exact sub (by assumption) (by decide)) : Kept L s₀ (s.postWrite fn slot off b) := by
  unfold State.postWrite
  repeat' first
    | with_reducible exact sub (by assumption) (by decide)
    | with_reducible assumption
    | with_reducible apply busyWrite_kept
    | with_reducible apply setSlot_kept
    | with_reducible apply post_kept
    | exact foldl_canonical _ (fun _ _ g => mset_canonical g _ _) _ (slot_canonical (by assumption) _ _)
    | with_reducible refine Kept.ite (fun _ => ?_) (fun _ => ?_)
    | (lift_lets; intro _)

theorem readSlot_kept (h : Kept L s₀ s) (fn : Nat) (completion : Bool) (slot off len : Nat)
    (hl : Within [.free, .out] L := by exact sub (by assumption) (by decide)) :
    Kept L s₀ (s.readSlot fn completion slot off len) := by
  unfold State.readSlot
  repeat' first
    | with_reducible exact sub (by assumption) (by decide)
    | with_reducible assumption
    | with_reducible apply emit_kept
    | with_reducible apply drawn_kept
    | with_reducible refine Kept.ite (fun _ => ?_) (fun _ => ?_)
    | split

theorem dropTlp_kept (h : Kept L s₀ s) (fn : Nat) (x : Tlp)
    (hl : Within [.free, .host, .keep, .snags, .snagNext, .out] L := by exact sub (by assumption) (by decide)) : Kept L s₀ (s.dropTlp fn x) := by
  unfold State.dropTlp
  repeat' first
    | with_reducible exact sub (by assumption) (by decide)
    | with_reducible assumption
    | with_reducible apply modKeep_kept
    | with_reducible apply random_kept
    | with_reducible apply snagFn_kept
    | with_reducible apply emit_kept
    | with_reducible refine Kept.ite (fun _ => ?_) (fun _ => ?_)

theorem badTlp_kept (h : Kept L s₀ s) (fn aerBit : Nat) (dw0 dw1 : Word)
    (hl : Within [.host, .snags, .snagNext, .out] L := by exact sub (by assumption) (by decide)) : Kept L s₀ (s.badTlp fn aerBit dw0 dw1) := by
  unfold State.badTlp
  repeat' first
    | with_reducible exact sub (by assumption) (by decide)
    | with_reducible assumption
    | with_reducible apply modHost_kept
    | with_reducible apply snagFn_kept
    | exact fun _ h => h
    | with_reducible refine Kept.ite (fun _ => ?_) (fun _ => ?_)

theorem execCommandPost_kept (h : Kept L s₀ s) (t fn slot off : Nat) (b : List Byte)
    (hl : Within [.now, .host, .snags, .snagNext, .out] L := by exact sub (by assumption) (by decide)) : Kept.Out L s₀ (execCommandPost t fn slot off b s) := by
  unfold execCommandPost
  repeat' first
    | with_reducible exact sub (by assumption) (by decide)
    | with_reducible assumption
    | with_reducible apply tick_kept
    | with_reducible apply postWrite_kept
    | with_reducible refine Kept.Out.next ?_

theorem writeMsix_kept (h : Kept L s₀ s) (fn o : Nat) (b : List Byte)
    (hl : Within [.host, .out] L := by exact sub (by assumption) (by decide)) : Kept L s₀ (s.writeMsix fn o b) := by
  unfold State.writeMsix
  repeat' first
    | with_reducible exact sub (by assumption) (by decide)
    | with_reducible assumption
    | with_reducible apply setMask_kept
    | with_reducible apply modHost_kept
    | with_reducible refine foldl_kept (fun _ _ _ => ?_) ?_
    | exact fun h => h
    | exact fun _ h => h
    | decide
    | exact fun _ h => mset_canonical h _ _
    | exact fun _ h => Bay.invalidate_canonical h
    | exact fun _ h => canonical_nil _
    | exact fun _ h => Bay.storeLine_canonical h _ _
    | exact fun _ h => Bay.writeLine_canonical h _ _ _ _ _
    | exact fun _ hx => Panel.commitRow_canonical hx _ _ _
    | exact fun _ h => CtxDie.zeroPage_canonical h _
    | with_reducible refine Kept.ite (fun _ => ?_) (fun _ => ?_)

theorem winWrite_kept (h : Kept L s₀ s) (fn off : Nat) (b : List Byte)
    (hl : Within [.host, .snags, .snagNext, .out] L := by exact sub (by assumption) (by decide)) : Kept L s₀ (s.winWrite fn off b) := by
  unfold State.winWrite
  repeat' first
    | with_reducible exact sub (by assumption) (by decide)
    | with_reducible assumption
    | with_reducible apply postWrite_kept
    | with_reducible apply writeMsix_kept
    | exact fun h => h
    | exact fun _ h => h
    | decide
    | exact fun _ h => mset_canonical h _ _
    | exact fun _ h => Bay.invalidate_canonical h
    | exact fun _ h => canonical_nil _
    | exact fun _ h => Bay.storeLine_canonical h _ _
    | exact fun _ h => Bay.writeLine_canonical h _ _ _ _ _
    | exact fun _ hx => Panel.commitRow_canonical hx _ _ _
    | exact fun _ h => CtxDie.zeroPage_canonical h _
    | with_reducible refine Kept.ite (fun _ => ?_) (fun _ => ?_)

theorem winRead_kept (h : Kept L s₀ s) (fn off len : Nat)
    (hl : Within [.free, .out] L := by exact sub (by assumption) (by decide)) : Kept L s₀ (s.winRead fn off len) := by
  unfold State.winRead
  repeat' first
    | with_reducible exact sub (by assumption) (by decide)
    | with_reducible assumption
    | with_reducible apply readSlot_kept
    | with_reducible apply emit_kept
    | exact fun h => h
    | exact fun _ h => h
    | decide
    | exact fun _ h => mset_canonical h _ _
    | exact fun _ h => Bay.invalidate_canonical h
    | exact fun _ h => canonical_nil _
    | exact fun _ h => Bay.storeLine_canonical h _ _
    | exact fun _ h => Bay.writeLine_canonical h _ _ _ _ _
    | exact fun _ hx => Panel.commitRow_canonical hx _ _ _
    | exact fun _ h => CtxDie.zeroPage_canonical h _
    | with_reducible refine Kept.ite (fun _ => ?_) (fun _ => ?_)

theorem cfgRead_kept (h : Kept L s₀ s) (fn dw : Nat)
    (hl : Within [.free, .out] L := by exact sub (by assumption) (by decide)) : Kept L s₀ (s.cfgRead fn dw) := by
  unfold State.cfgRead
  repeat' first
    | with_reducible exact sub (by assumption) (by decide)
    | with_reducible assumption
    | with_reducible apply drawn_kept
    | with_reducible apply emit_kept

theorem execTlpReceive_kept (h : Kept L s₀ s) (t fn : Nat) (onStream : Bool) (x : Tlp)
    (hl : Within [.now, .free, .mode, .pwr, .sense, .panels, .bays, .rtrs, .ctx0, .ctx1, .pages, .prefixes, .plans, .reqs, .weights, .fab, .host, .keep, .resil, .intr, .snags, .snagNext, .out] L := by exact sub (by assumption) (by decide)) : Kept.Out L s₀ (execTlpReceive t fn onStream x s) := by
  unfold execTlpReceive
  repeat' first
    | with_reducible exact sub (by assumption) (by decide)
    | with_reducible assumption
    | with_reducible apply tick_kept
    | with_reducible apply dropTlp_kept
    | with_reducible apply postWrite_kept
    | with_reducible apply writeReg_kept
    | with_reducible apply hostReadReg_kept
    | with_reducible apply emit_kept
    | with_reducible apply readSlot_kept
    | with_reducible apply winWrite_kept
    | with_reducible apply winRead_kept
    | with_reducible apply cfgRead_kept
    | with_reducible apply badTlp_kept
    | with_reducible refine Kept.Out.next ?_
    | with_reducible refine Kept.Out.ite (fun _ => ?_) (fun _ => ?_)
    | exact fun h => h
    | exact fun _ h => h
    | decide
    | exact fun _ h => mset_canonical h _ _
    | exact fun _ h => Bay.invalidate_canonical h
    | exact fun _ h => canonical_nil _
    | exact fun _ h => Bay.storeLine_canonical h _ _
    | exact fun _ h => Bay.writeLine_canonical h _ _ _ _ _
    | exact fun _ hx => Panel.commitRow_canonical hx _ _ _
    | exact fun _ h => CtxDie.zeroPage_canonical h _
    | with_reducible refine Kept.ite (fun _ => ?_) (fun _ => ?_)
    | with_reducible refine Kept.ite_fst (fun _ => ?_) (fun _ => ?_)
    | refine fun _ _ _ => ?_
    | (lift_lets; intro _)
    | split

theorem execDeviceInfo_kept (h : Kept L s₀ s) (t fn slot : Nat)
    (hl : Within [.now, .host, .out] L := by exact sub (by assumption) (by decide)) : Kept.Out L s₀ (execDeviceInfo t fn slot s) := by
  unfold execDeviceInfo
  repeat' first
    | with_reducible exact sub (by assumption) (by decide)
    | with_reducible assumption
    | with_reducible apply tick_kept
    | with_reducible apply runCmd_kept
    | with_reducible refine Kept.Out.next ?_
    | with_reducible refine Done.Kept.comp ?_
    | refine fun _ _ _ => ?_

theorem execCounters_kept (h : Kept L s₀ s) (t fn slot : Nat)
    (hl : Within [.now, .host, .out] L := by exact sub (by assumption) (by decide)) : Kept.Out L s₀ (execCounters t fn slot s) := by
  unfold execCounters
  repeat' first
    | with_reducible exact sub (by assumption) (by decide)
    | with_reducible assumption
    | with_reducible apply tick_kept
    | with_reducible apply runCmd_kept
    | with_reducible refine Kept.Out.next ?_
    | with_reducible refine Done.Kept.comp ?_
    | refine fun _ _ _ => ?_
    | split

theorem execTenantSnapshotWindow_kept (h : Kept L s₀ s) (t : Nat)
    (hl : Within [.now, .snap] L := by exact sub (by assumption) (by decide)) : Kept.Out L s₀ (execTenantSnapshotWindow t s) := by
  unfold execTenantSnapshotWindow
  repeat' first
    | with_reducible exact sub (by assumption) (by decide)
    | with_reducible assumption
    | with_reducible apply tick_kept
    | with_reducible refine Kept.Out.next ?_
    | with_reducible refine Kept.ite (fun _ => ?_) (fun _ => ?_)
    | (lift_lets; intro _)
    | with_reducible refine Kept.same ?_

theorem execSnagRead_kept (h : Kept L s₀ s) (t fn slot : Nat)
    (hl : Within [.now, .host, .out] L := by exact sub (by assumption) (by decide)) : Kept.Out L s₀ (execSnagRead t fn slot s) := by
  unfold execSnagRead
  repeat' first
    | with_reducible exact sub (by assumption) (by decide)
    | with_reducible assumption
    | with_reducible apply tick_kept
    | with_reducible apply runCmd_kept
    | with_reducible refine Kept.Out.next ?_
    | with_reducible refine Done.Kept.comp ?_
    | with_reducible refine Done.Kept.ite (fun _ => ?_) (fun _ => ?_)
    | refine fun _ _ _ => ?_

end Sys2Proof.Machine
end

