-- ==== Sys2Proof/Laws/State.lean ====
section
/-! SUPPORT. What each update of the state does to each field. -/

namespace Sys2Proof.Machine

set_option Elab.async false

variable (s : State)

/-! ### `tick` -/

@[simp] theorem State.tick_part (t : Nat) : (s.tick t).part = s.part := rfl
@[simp] theorem State.tick_epoch (t : Nat) : (s.tick t).epoch = s.epoch := rfl
@[simp] theorem State.tick_now (t : Nat) : (s.tick t).now = max s.now t := rfl
@[simp] theorem State.tick_leftOff (t : Nat) : (s.tick t).leftOff = s.leftOff := rfl
@[simp] theorem State.tick_free (t : Nat) : (s.tick t).free = s.free := rfl
@[simp] theorem State.tick_mode (t : Nat) : (s.tick t).mode = s.mode := rfl
@[simp] theorem State.tick_gen (t : Nat) : (s.tick t).gen = s.gen := rfl
@[simp] theorem State.tick_pwr (t : Nat) : (s.tick t).pwr = s.pwr := rfl
@[simp] theorem State.tick_boot (t : Nat) : (s.tick t).boot = s.boot := rfl
@[simp] theorem State.tick_flash (t : Nat) : (s.tick t).flash = s.flash := rfl
@[simp] theorem State.tick_nvm (t : Nat) : (s.tick t).nvm = s.nvm := rfl
@[simp] theorem State.tick_store (t : Nat) : (s.tick t).store = s.store := rfl
@[simp] theorem State.tick_sense (t : Nat) : (s.tick t).sense = s.sense := rfl
@[simp] theorem State.tick_panels (t : Nat) : (s.tick t).panels = s.panels := rfl
@[simp] theorem State.tick_bays (t : Nat) : (s.tick t).bays = s.bays := rfl
@[simp] theorem State.tick_rtrs (t : Nat) : (s.tick t).rtrs = s.rtrs := rfl
@[simp] theorem State.tick_edgeQ (t : Nat) : (s.tick t).edgeQ = s.edgeQ := rfl
@[simp] theorem State.tick_ctx0 (t : Nat) : (s.tick t).ctx0 = s.ctx0 := rfl
@[simp] theorem State.tick_ctx1 (t : Nat) : (s.tick t).ctx1 = s.ctx1 := rfl
@[simp] theorem State.tick_pages (t : Nat) : (s.tick t).pages = s.pages := rfl
@[simp] theorem State.tick_prefixes (t : Nat) : (s.tick t).prefixes = s.prefixes := rfl
@[simp] theorem State.tick_plans (t : Nat) : (s.tick t).plans = s.plans := rfl
@[simp] theorem State.tick_reqs (t : Nat) : (s.tick t).reqs = s.reqs := rfl
@[simp] theorem State.tick_weights (t : Nat) : (s.tick t).weights = s.weights := rfl
@[simp] theorem State.tick_fab (t : Nat) : (s.tick t).fab = s.fab := rfl
@[simp] theorem State.tick_host (t : Nat) : (s.tick t).host = s.host := rfl
@[simp] theorem State.tick_keep (t : Nat) : (s.tick t).keep = s.keep := rfl
@[simp] theorem State.tick_snap (t : Nat) : (s.tick t).snap = s.snap := rfl
@[simp] theorem State.tick_resil (t : Nat) : (s.tick t).resil = s.resil := rfl
@[simp] theorem State.tick_intr (t : Nat) : (s.tick t).intr = s.intr := rfl
@[simp] theorem State.tick_snags (t : Nat) : (s.tick t).snags = s.snags := rfl
@[simp] theorem State.tick_snagNext (t : Nat) : (s.tick t).snagNext = s.snagNext := rfl
@[simp] theorem State.tick_out (t : Nat) : (s.tick t).out = s.out := rfl
@[simp] theorem State.tick_pending (t : Nat) : (s.tick t).pending = s.pending := rfl

/-! ### `drawn` -/

@[simp] theorem State.drawn_part : (s.drawn).part = s.part := rfl
@[simp] theorem State.drawn_epoch : (s.drawn).epoch = s.epoch := rfl
@[simp] theorem State.drawn_now : (s.drawn).now = s.now := rfl
@[simp] theorem State.drawn_leftOff : (s.drawn).leftOff = s.leftOff := rfl
@[simp] theorem State.drawn_free : (s.drawn).free = s.free + 1 := rfl
@[simp] theorem State.drawn_mode : (s.drawn).mode = s.mode := rfl
@[simp] theorem State.drawn_gen : (s.drawn).gen = s.gen := rfl
@[simp] theorem State.drawn_pwr : (s.drawn).pwr = s.pwr := rfl
@[simp] theorem State.drawn_boot : (s.drawn).boot = s.boot := rfl
@[simp] theorem State.drawn_flash : (s.drawn).flash = s.flash := rfl
@[simp] theorem State.drawn_nvm : (s.drawn).nvm = s.nvm := rfl
@[simp] theorem State.drawn_store : (s.drawn).store = s.store := rfl
@[simp] theorem State.drawn_sense : (s.drawn).sense = s.sense := rfl
@[simp] theorem State.drawn_panels : (s.drawn).panels = s.panels := rfl
@[simp] theorem State.drawn_bays : (s.drawn).bays = s.bays := rfl
@[simp] theorem State.drawn_rtrs : (s.drawn).rtrs = s.rtrs := rfl
@[simp] theorem State.drawn_edgeQ : (s.drawn).edgeQ = s.edgeQ := rfl
@[simp] theorem State.drawn_ctx0 : (s.drawn).ctx0 = s.ctx0 := rfl
@[simp] theorem State.drawn_ctx1 : (s.drawn).ctx1 = s.ctx1 := rfl
@[simp] theorem State.drawn_pages : (s.drawn).pages = s.pages := rfl
@[simp] theorem State.drawn_prefixes : (s.drawn).prefixes = s.prefixes := rfl
@[simp] theorem State.drawn_plans : (s.drawn).plans = s.plans := rfl
@[simp] theorem State.drawn_reqs : (s.drawn).reqs = s.reqs := rfl
@[simp] theorem State.drawn_weights : (s.drawn).weights = s.weights := rfl
@[simp] theorem State.drawn_fab : (s.drawn).fab = s.fab := rfl
@[simp] theorem State.drawn_host : (s.drawn).host = s.host := rfl
@[simp] theorem State.drawn_keep : (s.drawn).keep = s.keep := rfl
@[simp] theorem State.drawn_snap : (s.drawn).snap = s.snap := rfl
@[simp] theorem State.drawn_resil : (s.drawn).resil = s.resil := rfl
@[simp] theorem State.drawn_intr : (s.drawn).intr = s.intr := rfl
@[simp] theorem State.drawn_snags : (s.drawn).snags = s.snags := rfl
@[simp] theorem State.drawn_snagNext : (s.drawn).snagNext = s.snagNext := rfl
@[simp] theorem State.drawn_out : (s.drawn).out = s.out := rfl
@[simp] theorem State.drawn_pending : (s.drawn).pending = s.pending := rfl

/-! ### `emit` -/

@[simp] theorem State.emit_part (o : Output) : (s.emit o).part = s.part := rfl
@[simp] theorem State.emit_epoch (o : Output) : (s.emit o).epoch = s.epoch := rfl
@[simp] theorem State.emit_now (o : Output) : (s.emit o).now = s.now := rfl
@[simp] theorem State.emit_leftOff (o : Output) : (s.emit o).leftOff = s.leftOff := rfl
@[simp] theorem State.emit_free (o : Output) : (s.emit o).free = s.free := rfl
@[simp] theorem State.emit_mode (o : Output) : (s.emit o).mode = s.mode := rfl
@[simp] theorem State.emit_gen (o : Output) : (s.emit o).gen = s.gen := rfl
@[simp] theorem State.emit_pwr (o : Output) : (s.emit o).pwr = s.pwr := rfl
@[simp] theorem State.emit_boot (o : Output) : (s.emit o).boot = s.boot := rfl
@[simp] theorem State.emit_flash (o : Output) : (s.emit o).flash = s.flash := rfl
@[simp] theorem State.emit_nvm (o : Output) : (s.emit o).nvm = s.nvm := rfl
@[simp] theorem State.emit_store (o : Output) : (s.emit o).store = s.store := rfl
@[simp] theorem State.emit_sense (o : Output) : (s.emit o).sense = s.sense := rfl
@[simp] theorem State.emit_panels (o : Output) : (s.emit o).panels = s.panels := rfl
@[simp] theorem State.emit_bays (o : Output) : (s.emit o).bays = s.bays := rfl
@[simp] theorem State.emit_rtrs (o : Output) : (s.emit o).rtrs = s.rtrs := rfl
@[simp] theorem State.emit_edgeQ (o : Output) : (s.emit o).edgeQ = s.edgeQ := rfl
@[simp] theorem State.emit_ctx0 (o : Output) : (s.emit o).ctx0 = s.ctx0 := rfl
@[simp] theorem State.emit_ctx1 (o : Output) : (s.emit o).ctx1 = s.ctx1 := rfl
@[simp] theorem State.emit_pages (o : Output) : (s.emit o).pages = s.pages := rfl
@[simp] theorem State.emit_prefixes (o : Output) : (s.emit o).prefixes = s.prefixes := rfl
@[simp] theorem State.emit_plans (o : Output) : (s.emit o).plans = s.plans := rfl
@[simp] theorem State.emit_reqs (o : Output) : (s.emit o).reqs = s.reqs := rfl
@[simp] theorem State.emit_weights (o : Output) : (s.emit o).weights = s.weights := rfl
@[simp] theorem State.emit_fab (o : Output) : (s.emit o).fab = s.fab := rfl
@[simp] theorem State.emit_host (o : Output) : (s.emit o).host = s.host := rfl
@[simp] theorem State.emit_keep (o : Output) : (s.emit o).keep = s.keep := rfl
@[simp] theorem State.emit_snap (o : Output) : (s.emit o).snap = s.snap := rfl
@[simp] theorem State.emit_resil (o : Output) : (s.emit o).resil = s.resil := rfl
@[simp] theorem State.emit_intr (o : Output) : (s.emit o).intr = s.intr := rfl
@[simp] theorem State.emit_snags (o : Output) : (s.emit o).snags = s.snags := rfl
@[simp] theorem State.emit_snagNext (o : Output) : (s.emit o).snagNext = s.snagNext := rfl
@[simp] theorem State.emit_out (o : Output) : (s.emit o).out = o :: s.out := rfl
@[simp] theorem State.emit_pending (o : Output) : (s.emit o).pending = s.pending := rfl

/-! ### `intrude` -/

@[simp] theorem State.intrude_part (n : Nat) : (s.intrude n).part = s.part := rfl
@[simp] theorem State.intrude_epoch (n : Nat) : (s.intrude n).epoch = s.epoch := rfl
@[simp] theorem State.intrude_now (n : Nat) : (s.intrude n).now = s.now := rfl
@[simp] theorem State.intrude_leftOff (n : Nat) : (s.intrude n).leftOff = s.leftOff := rfl
@[simp] theorem State.intrude_free (n : Nat) : (s.intrude n).free = s.free := rfl
@[simp] theorem State.intrude_mode (n : Nat) : (s.intrude n).mode = s.mode := rfl
@[simp] theorem State.intrude_gen (n : Nat) : (s.intrude n).gen = s.gen := rfl
@[simp] theorem State.intrude_pwr (n : Nat) : (s.intrude n).pwr = s.pwr := rfl
@[simp] theorem State.intrude_boot (n : Nat) : (s.intrude n).boot = s.boot := rfl
@[simp] theorem State.intrude_flash (n : Nat) : (s.intrude n).flash = s.flash := rfl
@[simp] theorem State.intrude_nvm (n : Nat) : (s.intrude n).nvm = s.nvm := rfl
@[simp] theorem State.intrude_store (n : Nat) : (s.intrude n).store = s.store := rfl
@[simp] theorem State.intrude_sense (n : Nat) : (s.intrude n).sense = s.sense := rfl
@[simp] theorem State.intrude_panels (n : Nat) : (s.intrude n).panels = s.panels := rfl
@[simp] theorem State.intrude_bays (n : Nat) : (s.intrude n).bays = s.bays := rfl
@[simp] theorem State.intrude_rtrs (n : Nat) : (s.intrude n).rtrs = s.rtrs := rfl
@[simp] theorem State.intrude_edgeQ (n : Nat) : (s.intrude n).edgeQ = s.edgeQ := rfl
@[simp] theorem State.intrude_ctx0 (n : Nat) : (s.intrude n).ctx0 = s.ctx0 := rfl
@[simp] theorem State.intrude_ctx1 (n : Nat) : (s.intrude n).ctx1 = s.ctx1 := rfl
@[simp] theorem State.intrude_pages (n : Nat) : (s.intrude n).pages = s.pages := rfl
@[simp] theorem State.intrude_prefixes (n : Nat) : (s.intrude n).prefixes = s.prefixes := rfl
@[simp] theorem State.intrude_plans (n : Nat) : (s.intrude n).plans = s.plans := rfl
@[simp] theorem State.intrude_reqs (n : Nat) : (s.intrude n).reqs = s.reqs := rfl
@[simp] theorem State.intrude_weights (n : Nat) : (s.intrude n).weights = s.weights := rfl
@[simp] theorem State.intrude_fab (n : Nat) : (s.intrude n).fab = s.fab := rfl
@[simp] theorem State.intrude_host (n : Nat) : (s.intrude n).host = s.host := rfl
@[simp] theorem State.intrude_keep (n : Nat) : (s.intrude n).keep = s.keep := rfl
@[simp] theorem State.intrude_snap (n : Nat) : (s.intrude n).snap = s.snap := rfl
@[simp] theorem State.intrude_resil (n : Nat) : (s.intrude n).resil = s.resil := rfl
@[simp] theorem State.intrude_intr (n : Nat) : (s.intrude n).intr = s.intr.filter (·.1 != n) ++ [(n, s.now)] := rfl
@[simp] theorem State.intrude_snags (n : Nat) : (s.intrude n).snags = s.snags := rfl
@[simp] theorem State.intrude_snagNext (n : Nat) : (s.intrude n).snagNext = s.snagNext := rfl
@[simp] theorem State.intrude_out (n : Nat) : (s.intrude n).out = s.out := rfl
@[simp] theorem State.intrude_pending (n : Nat) : (s.intrude n).pending = s.pending := rfl

/-! ### `setBay` -/

@[simp] theorem State.setBay_part (b : Nat) (y : Bay) : (s.setBay b y).part = s.part := rfl
@[simp] theorem State.setBay_epoch (b : Nat) (y : Bay) : (s.setBay b y).epoch = s.epoch := rfl
@[simp] theorem State.setBay_now (b : Nat) (y : Bay) : (s.setBay b y).now = s.now := rfl
@[simp] theorem State.setBay_leftOff (b : Nat) (y : Bay) : (s.setBay b y).leftOff = s.leftOff := rfl
@[simp] theorem State.setBay_free (b : Nat) (y : Bay) : (s.setBay b y).free = s.free := rfl
@[simp] theorem State.setBay_mode (b : Nat) (y : Bay) : (s.setBay b y).mode = s.mode := rfl
@[simp] theorem State.setBay_gen (b : Nat) (y : Bay) : (s.setBay b y).gen = s.gen := rfl
@[simp] theorem State.setBay_pwr (b : Nat) (y : Bay) : (s.setBay b y).pwr = s.pwr := rfl
@[simp] theorem State.setBay_boot (b : Nat) (y : Bay) : (s.setBay b y).boot = s.boot := rfl
@[simp] theorem State.setBay_flash (b : Nat) (y : Bay) : (s.setBay b y).flash = s.flash := rfl
@[simp] theorem State.setBay_nvm (b : Nat) (y : Bay) : (s.setBay b y).nvm = s.nvm := rfl
@[simp] theorem State.setBay_store (b : Nat) (y : Bay) : (s.setBay b y).store = s.store := rfl
@[simp] theorem State.setBay_sense (b : Nat) (y : Bay) : (s.setBay b y).sense = s.sense := rfl
@[simp] theorem State.setBay_panels (b : Nat) (y : Bay) : (s.setBay b y).panels = s.panels := rfl
@[simp] theorem State.setBay_bays (b : Nat) (y : Bay) : (s.setBay b y).bays = mset {} s.bays b y := rfl
@[simp] theorem State.setBay_rtrs (b : Nat) (y : Bay) : (s.setBay b y).rtrs = s.rtrs := rfl
@[simp] theorem State.setBay_edgeQ (b : Nat) (y : Bay) : (s.setBay b y).edgeQ = s.edgeQ := rfl
@[simp] theorem State.setBay_ctx0 (b : Nat) (y : Bay) : (s.setBay b y).ctx0 = s.ctx0 := rfl
@[simp] theorem State.setBay_ctx1 (b : Nat) (y : Bay) : (s.setBay b y).ctx1 = s.ctx1 := rfl
@[simp] theorem State.setBay_pages (b : Nat) (y : Bay) : (s.setBay b y).pages = s.pages := rfl
@[simp] theorem State.setBay_prefixes (b : Nat) (y : Bay) : (s.setBay b y).prefixes = s.prefixes := rfl
@[simp] theorem State.setBay_plans (b : Nat) (y : Bay) : (s.setBay b y).plans = s.plans := rfl
@[simp] theorem State.setBay_reqs (b : Nat) (y : Bay) : (s.setBay b y).reqs = s.reqs := rfl
@[simp] theorem State.setBay_weights (b : Nat) (y : Bay) : (s.setBay b y).weights = s.weights := rfl
@[simp] theorem State.setBay_fab (b : Nat) (y : Bay) : (s.setBay b y).fab = s.fab := rfl
@[simp] theorem State.setBay_host (b : Nat) (y : Bay) : (s.setBay b y).host = s.host := rfl
@[simp] theorem State.setBay_keep (b : Nat) (y : Bay) : (s.setBay b y).keep = s.keep := rfl
@[simp] theorem State.setBay_snap (b : Nat) (y : Bay) : (s.setBay b y).snap = s.snap := rfl
@[simp] theorem State.setBay_resil (b : Nat) (y : Bay) : (s.setBay b y).resil = s.resil := rfl
@[simp] theorem State.setBay_intr (b : Nat) (y : Bay) : (s.setBay b y).intr = s.intr := rfl
@[simp] theorem State.setBay_snags (b : Nat) (y : Bay) : (s.setBay b y).snags = s.snags := rfl
@[simp] theorem State.setBay_snagNext (b : Nat) (y : Bay) : (s.setBay b y).snagNext = s.snagNext := rfl
@[simp] theorem State.setBay_out (b : Nat) (y : Bay) : (s.setBay b y).out = s.out := rfl
@[simp] theorem State.setBay_pending (b : Nat) (y : Bay) : (s.setBay b y).pending = s.pending := rfl

/-! ### `modBay` -/

@[simp] theorem State.modBay_part (b : Nat) (f : Bay → Bay) : (s.modBay b f).part = s.part := rfl
@[simp] theorem State.modBay_epoch (b : Nat) (f : Bay → Bay) : (s.modBay b f).epoch = s.epoch := rfl
@[simp] theorem State.modBay_now (b : Nat) (f : Bay → Bay) : (s.modBay b f).now = s.now := rfl
@[simp] theorem State.modBay_leftOff (b : Nat) (f : Bay → Bay) : (s.modBay b f).leftOff = s.leftOff := rfl
@[simp] theorem State.modBay_free (b : Nat) (f : Bay → Bay) : (s.modBay b f).free = s.free := rfl
@[simp] theorem State.modBay_mode (b : Nat) (f : Bay → Bay) : (s.modBay b f).mode = s.mode := rfl
@[simp] theorem State.modBay_gen (b : Nat) (f : Bay → Bay) : (s.modBay b f).gen = s.gen := rfl
@[simp] theorem State.modBay_pwr (b : Nat) (f : Bay → Bay) : (s.modBay b f).pwr = s.pwr := rfl
@[simp] theorem State.modBay_boot (b : Nat) (f : Bay → Bay) : (s.modBay b f).boot = s.boot := rfl
@[simp] theorem State.modBay_flash (b : Nat) (f : Bay → Bay) : (s.modBay b f).flash = s.flash := rfl
@[simp] theorem State.modBay_nvm (b : Nat) (f : Bay → Bay) : (s.modBay b f).nvm = s.nvm := rfl
@[simp] theorem State.modBay_store (b : Nat) (f : Bay → Bay) : (s.modBay b f).store = s.store := rfl
@[simp] theorem State.modBay_sense (b : Nat) (f : Bay → Bay) : (s.modBay b f).sense = s.sense := rfl
@[simp] theorem State.modBay_panels (b : Nat) (f : Bay → Bay) : (s.modBay b f).panels = s.panels := rfl
@[simp] theorem State.modBay_bays (b : Nat) (f : Bay → Bay) : (s.modBay b f).bays = mset {} s.bays b (f (s.bay b)) := rfl
@[simp] theorem State.modBay_rtrs (b : Nat) (f : Bay → Bay) : (s.modBay b f).rtrs = s.rtrs := rfl
@[simp] theorem State.modBay_edgeQ (b : Nat) (f : Bay → Bay) : (s.modBay b f).edgeQ = s.edgeQ := rfl
@[simp] theorem State.modBay_ctx0 (b : Nat) (f : Bay → Bay) : (s.modBay b f).ctx0 = s.ctx0 := rfl
@[simp] theorem State.modBay_ctx1 (b : Nat) (f : Bay → Bay) : (s.modBay b f).ctx1 = s.ctx1 := rfl
@[simp] theorem State.modBay_pages (b : Nat) (f : Bay → Bay) : (s.modBay b f).pages = s.pages := rfl
@[simp] theorem State.modBay_prefixes (b : Nat) (f : Bay → Bay) : (s.modBay b f).prefixes = s.prefixes := rfl
@[simp] theorem State.modBay_plans (b : Nat) (f : Bay → Bay) : (s.modBay b f).plans = s.plans := rfl
@[simp] theorem State.modBay_reqs (b : Nat) (f : Bay → Bay) : (s.modBay b f).reqs = s.reqs := rfl
@[simp] theorem State.modBay_weights (b : Nat) (f : Bay → Bay) : (s.modBay b f).weights = s.weights := rfl
@[simp] theorem State.modBay_fab (b : Nat) (f : Bay → Bay) : (s.modBay b f).fab = s.fab := rfl
@[simp] theorem State.modBay_host (b : Nat) (f : Bay → Bay) : (s.modBay b f).host = s.host := rfl
@[simp] theorem State.modBay_keep (b : Nat) (f : Bay → Bay) : (s.modBay b f).keep = s.keep := rfl
@[simp] theorem State.modBay_snap (b : Nat) (f : Bay → Bay) : (s.modBay b f).snap = s.snap := rfl
@[simp] theorem State.modBay_resil (b : Nat) (f : Bay → Bay) : (s.modBay b f).resil = s.resil := rfl
@[simp] theorem State.modBay_intr (b : Nat) (f : Bay → Bay) : (s.modBay b f).intr = s.intr := rfl
@[simp] theorem State.modBay_snags (b : Nat) (f : Bay → Bay) : (s.modBay b f).snags = s.snags := rfl
@[simp] theorem State.modBay_snagNext (b : Nat) (f : Bay → Bay) : (s.modBay b f).snagNext = s.snagNext := rfl
@[simp] theorem State.modBay_out (b : Nat) (f : Bay → Bay) : (s.modBay b f).out = s.out := rfl
@[simp] theorem State.modBay_pending (b : Nat) (f : Bay → Bay) : (s.modBay b f).pending = s.pending := rfl

/-! ### `setPanel` -/

@[simp] theorem State.setPanel_part (k : Nat) (x : Panel) : (s.setPanel k x).part = s.part := rfl
@[simp] theorem State.setPanel_epoch (k : Nat) (x : Panel) : (s.setPanel k x).epoch = s.epoch := rfl
@[simp] theorem State.setPanel_now (k : Nat) (x : Panel) : (s.setPanel k x).now = s.now := rfl
@[simp] theorem State.setPanel_leftOff (k : Nat) (x : Panel) : (s.setPanel k x).leftOff = s.leftOff := rfl
@[simp] theorem State.setPanel_free (k : Nat) (x : Panel) : (s.setPanel k x).free = s.free := rfl
@[simp] theorem State.setPanel_mode (k : Nat) (x : Panel) : (s.setPanel k x).mode = s.mode := rfl
@[simp] theorem State.setPanel_gen (k : Nat) (x : Panel) : (s.setPanel k x).gen = s.gen := rfl
@[simp] theorem State.setPanel_pwr (k : Nat) (x : Panel) : (s.setPanel k x).pwr = s.pwr := rfl
@[simp] theorem State.setPanel_boot (k : Nat) (x : Panel) : (s.setPanel k x).boot = s.boot := rfl
@[simp] theorem State.setPanel_flash (k : Nat) (x : Panel) : (s.setPanel k x).flash = s.flash := rfl
@[simp] theorem State.setPanel_nvm (k : Nat) (x : Panel) : (s.setPanel k x).nvm = s.nvm := rfl
@[simp] theorem State.setPanel_store (k : Nat) (x : Panel) : (s.setPanel k x).store = s.store := rfl
@[simp] theorem State.setPanel_sense (k : Nat) (x : Panel) : (s.setPanel k x).sense = s.sense := rfl
@[simp] theorem State.setPanel_panels (k : Nat) (x : Panel) : (s.setPanel k x).panels = mset {} s.panels k x := rfl
@[simp] theorem State.setPanel_bays (k : Nat) (x : Panel) : (s.setPanel k x).bays = s.bays := rfl
@[simp] theorem State.setPanel_rtrs (k : Nat) (x : Panel) : (s.setPanel k x).rtrs = s.rtrs := rfl
@[simp] theorem State.setPanel_edgeQ (k : Nat) (x : Panel) : (s.setPanel k x).edgeQ = s.edgeQ := rfl
@[simp] theorem State.setPanel_ctx0 (k : Nat) (x : Panel) : (s.setPanel k x).ctx0 = s.ctx0 := rfl
@[simp] theorem State.setPanel_ctx1 (k : Nat) (x : Panel) : (s.setPanel k x).ctx1 = s.ctx1 := rfl
@[simp] theorem State.setPanel_pages (k : Nat) (x : Panel) : (s.setPanel k x).pages = s.pages := rfl
@[simp] theorem State.setPanel_prefixes (k : Nat) (x : Panel) : (s.setPanel k x).prefixes = s.prefixes := rfl
@[simp] theorem State.setPanel_plans (k : Nat) (x : Panel) : (s.setPanel k x).plans = s.plans := rfl
@[simp] theorem State.setPanel_reqs (k : Nat) (x : Panel) : (s.setPanel k x).reqs = s.reqs := rfl
@[simp] theorem State.setPanel_weights (k : Nat) (x : Panel) : (s.setPanel k x).weights = s.weights := rfl
@[simp] theorem State.setPanel_fab (k : Nat) (x : Panel) : (s.setPanel k x).fab = s.fab := rfl
@[simp] theorem State.setPanel_host (k : Nat) (x : Panel) : (s.setPanel k x).host = s.host := rfl
@[simp] theorem State.setPanel_keep (k : Nat) (x : Panel) : (s.setPanel k x).keep = s.keep := rfl
@[simp] theorem State.setPanel_snap (k : Nat) (x : Panel) : (s.setPanel k x).snap = s.snap := rfl
@[simp] theorem State.setPanel_resil (k : Nat) (x : Panel) : (s.setPanel k x).resil = s.resil := rfl
@[simp] theorem State.setPanel_intr (k : Nat) (x : Panel) : (s.setPanel k x).intr = s.intr := rfl
@[simp] theorem State.setPanel_snags (k : Nat) (x : Panel) : (s.setPanel k x).snags = s.snags := rfl
@[simp] theorem State.setPanel_snagNext (k : Nat) (x : Panel) : (s.setPanel k x).snagNext = s.snagNext := rfl
@[simp] theorem State.setPanel_out (k : Nat) (x : Panel) : (s.setPanel k x).out = s.out := rfl
@[simp] theorem State.setPanel_pending (k : Nat) (x : Panel) : (s.setPanel k x).pending = s.pending := rfl

/-! ### `modPanel` -/

@[simp] theorem State.modPanel_part (k : Nat) (f : Panel → Panel) : (s.modPanel k f).part = s.part := rfl
@[simp] theorem State.modPanel_epoch (k : Nat) (f : Panel → Panel) : (s.modPanel k f).epoch = s.epoch := rfl
@[simp] theorem State.modPanel_now (k : Nat) (f : Panel → Panel) : (s.modPanel k f).now = s.now := rfl
@[simp] theorem State.modPanel_leftOff (k : Nat) (f : Panel → Panel) : (s.modPanel k f).leftOff = s.leftOff := rfl
@[simp] theorem State.modPanel_free (k : Nat) (f : Panel → Panel) : (s.modPanel k f).free = s.free := rfl
@[simp] theorem State.modPanel_mode (k : Nat) (f : Panel → Panel) : (s.modPanel k f).mode = s.mode := rfl
@[simp] theorem State.modPanel_gen (k : Nat) (f : Panel → Panel) : (s.modPanel k f).gen = s.gen := rfl
@[simp] theorem State.modPanel_pwr (k : Nat) (f : Panel → Panel) : (s.modPanel k f).pwr = s.pwr := rfl
@[simp] theorem State.modPanel_boot (k : Nat) (f : Panel → Panel) : (s.modPanel k f).boot = s.boot := rfl
@[simp] theorem State.modPanel_flash (k : Nat) (f : Panel → Panel) : (s.modPanel k f).flash = s.flash := rfl
@[simp] theorem State.modPanel_nvm (k : Nat) (f : Panel → Panel) : (s.modPanel k f).nvm = s.nvm := rfl
@[simp] theorem State.modPanel_store (k : Nat) (f : Panel → Panel) : (s.modPanel k f).store = s.store := rfl
@[simp] theorem State.modPanel_sense (k : Nat) (f : Panel → Panel) : (s.modPanel k f).sense = s.sense := rfl
@[simp] theorem State.modPanel_panels (k : Nat) (f : Panel → Panel) : (s.modPanel k f).panels = mset {} s.panels k (f (s.panel k)) := rfl
@[simp] theorem State.modPanel_bays (k : Nat) (f : Panel → Panel) : (s.modPanel k f).bays = s.bays := rfl
@[simp] theorem State.modPanel_rtrs (k : Nat) (f : Panel → Panel) : (s.modPanel k f).rtrs = s.rtrs := rfl
@[simp] theorem State.modPanel_edgeQ (k : Nat) (f : Panel → Panel) : (s.modPanel k f).edgeQ = s.edgeQ := rfl
@[simp] theorem State.modPanel_ctx0 (k : Nat) (f : Panel → Panel) : (s.modPanel k f).ctx0 = s.ctx0 := rfl
@[simp] theorem State.modPanel_ctx1 (k : Nat) (f : Panel → Panel) : (s.modPanel k f).ctx1 = s.ctx1 := rfl
@[simp] theorem State.modPanel_pages (k : Nat) (f : Panel → Panel) : (s.modPanel k f).pages = s.pages := rfl
@[simp] theorem State.modPanel_prefixes (k : Nat) (f : Panel → Panel) : (s.modPanel k f).prefixes = s.prefixes := rfl
@[simp] theorem State.modPanel_plans (k : Nat) (f : Panel → Panel) : (s.modPanel k f).plans = s.plans := rfl
@[simp] theorem State.modPanel_reqs (k : Nat) (f : Panel → Panel) : (s.modPanel k f).reqs = s.reqs := rfl
@[simp] theorem State.modPanel_weights (k : Nat) (f : Panel → Panel) : (s.modPanel k f).weights = s.weights := rfl
@[simp] theorem State.modPanel_fab (k : Nat) (f : Panel → Panel) : (s.modPanel k f).fab = s.fab := rfl
@[simp] theorem State.modPanel_host (k : Nat) (f : Panel → Panel) : (s.modPanel k f).host = s.host := rfl
@[simp] theorem State.modPanel_keep (k : Nat) (f : Panel → Panel) : (s.modPanel k f).keep = s.keep := rfl
@[simp] theorem State.modPanel_snap (k : Nat) (f : Panel → Panel) : (s.modPanel k f).snap = s.snap := rfl
@[simp] theorem State.modPanel_resil (k : Nat) (f : Panel → Panel) : (s.modPanel k f).resil = s.resil := rfl
@[simp] theorem State.modPanel_intr (k : Nat) (f : Panel → Panel) : (s.modPanel k f).intr = s.intr := rfl
@[simp] theorem State.modPanel_snags (k : Nat) (f : Panel → Panel) : (s.modPanel k f).snags = s.snags := rfl
@[simp] theorem State.modPanel_snagNext (k : Nat) (f : Panel → Panel) : (s.modPanel k f).snagNext = s.snagNext := rfl
@[simp] theorem State.modPanel_out (k : Nat) (f : Panel → Panel) : (s.modPanel k f).out = s.out := rfl
@[simp] theorem State.modPanel_pending (k : Nat) (f : Panel → Panel) : (s.modPanel k f).pending = s.pending := rfl

/-! ### `setRtr` -/

@[simp] theorem State.setRtr_part (b : Nat) (x : Router) : (s.setRtr b x).part = s.part := rfl
@[simp] theorem State.setRtr_epoch (b : Nat) (x : Router) : (s.setRtr b x).epoch = s.epoch := rfl
@[simp] theorem State.setRtr_now (b : Nat) (x : Router) : (s.setRtr b x).now = s.now := rfl
@[simp] theorem State.setRtr_leftOff (b : Nat) (x : Router) : (s.setRtr b x).leftOff = s.leftOff := rfl
@[simp] theorem State.setRtr_free (b : Nat) (x : Router) : (s.setRtr b x).free = s.free := rfl
@[simp] theorem State.setRtr_mode (b : Nat) (x : Router) : (s.setRtr b x).mode = s.mode := rfl
@[simp] theorem State.setRtr_gen (b : Nat) (x : Router) : (s.setRtr b x).gen = s.gen := rfl
@[simp] theorem State.setRtr_pwr (b : Nat) (x : Router) : (s.setRtr b x).pwr = s.pwr := rfl
@[simp] theorem State.setRtr_boot (b : Nat) (x : Router) : (s.setRtr b x).boot = s.boot := rfl
@[simp] theorem State.setRtr_flash (b : Nat) (x : Router) : (s.setRtr b x).flash = s.flash := rfl
@[simp] theorem State.setRtr_nvm (b : Nat) (x : Router) : (s.setRtr b x).nvm = s.nvm := rfl
@[simp] theorem State.setRtr_store (b : Nat) (x : Router) : (s.setRtr b x).store = s.store := rfl
@[simp] theorem State.setRtr_sense (b : Nat) (x : Router) : (s.setRtr b x).sense = s.sense := rfl
@[simp] theorem State.setRtr_panels (b : Nat) (x : Router) : (s.setRtr b x).panels = s.panels := rfl
@[simp] theorem State.setRtr_bays (b : Nat) (x : Router) : (s.setRtr b x).bays = s.bays := rfl
@[simp] theorem State.setRtr_rtrs (b : Nat) (x : Router) : (s.setRtr b x).rtrs = mset {} s.rtrs b x := rfl
@[simp] theorem State.setRtr_edgeQ (b : Nat) (x : Router) : (s.setRtr b x).edgeQ = s.edgeQ := rfl
@[simp] theorem State.setRtr_ctx0 (b : Nat) (x : Router) : (s.setRtr b x).ctx0 = s.ctx0 := rfl
@[simp] theorem State.setRtr_ctx1 (b : Nat) (x : Router) : (s.setRtr b x).ctx1 = s.ctx1 := rfl
@[simp] theorem State.setRtr_pages (b : Nat) (x : Router) : (s.setRtr b x).pages = s.pages := rfl
@[simp] theorem State.setRtr_prefixes (b : Nat) (x : Router) : (s.setRtr b x).prefixes = s.prefixes := rfl
@[simp] theorem State.setRtr_plans (b : Nat) (x : Router) : (s.setRtr b x).plans = s.plans := rfl
@[simp] theorem State.setRtr_reqs (b : Nat) (x : Router) : (s.setRtr b x).reqs = s.reqs := rfl
@[simp] theorem State.setRtr_weights (b : Nat) (x : Router) : (s.setRtr b x).weights = s.weights := rfl
@[simp] theorem State.setRtr_fab (b : Nat) (x : Router) : (s.setRtr b x).fab = s.fab := rfl
@[simp] theorem State.setRtr_host (b : Nat) (x : Router) : (s.setRtr b x).host = s.host := rfl
@[simp] theorem State.setRtr_keep (b : Nat) (x : Router) : (s.setRtr b x).keep = s.keep := rfl
@[simp] theorem State.setRtr_snap (b : Nat) (x : Router) : (s.setRtr b x).snap = s.snap := rfl
@[simp] theorem State.setRtr_resil (b : Nat) (x : Router) : (s.setRtr b x).resil = s.resil := rfl
@[simp] theorem State.setRtr_intr (b : Nat) (x : Router) : (s.setRtr b x).intr = s.intr := rfl
@[simp] theorem State.setRtr_snags (b : Nat) (x : Router) : (s.setRtr b x).snags = s.snags := rfl
@[simp] theorem State.setRtr_snagNext (b : Nat) (x : Router) : (s.setRtr b x).snagNext = s.snagNext := rfl
@[simp] theorem State.setRtr_out (b : Nat) (x : Router) : (s.setRtr b x).out = s.out := rfl
@[simp] theorem State.setRtr_pending (b : Nat) (x : Router) : (s.setRtr b x).pending = s.pending := rfl

/-! ### `modRtr` -/

@[simp] theorem State.modRtr_part (b : Nat) (f : Router → Router) : (s.modRtr b f).part = s.part := rfl
@[simp] theorem State.modRtr_epoch (b : Nat) (f : Router → Router) : (s.modRtr b f).epoch = s.epoch := rfl
@[simp] theorem State.modRtr_now (b : Nat) (f : Router → Router) : (s.modRtr b f).now = s.now := rfl
@[simp] theorem State.modRtr_leftOff (b : Nat) (f : Router → Router) : (s.modRtr b f).leftOff = s.leftOff := rfl
@[simp] theorem State.modRtr_free (b : Nat) (f : Router → Router) : (s.modRtr b f).free = s.free := rfl
@[simp] theorem State.modRtr_mode (b : Nat) (f : Router → Router) : (s.modRtr b f).mode = s.mode := rfl
@[simp] theorem State.modRtr_gen (b : Nat) (f : Router → Router) : (s.modRtr b f).gen = s.gen := rfl
@[simp] theorem State.modRtr_pwr (b : Nat) (f : Router → Router) : (s.modRtr b f).pwr = s.pwr := rfl
@[simp] theorem State.modRtr_boot (b : Nat) (f : Router → Router) : (s.modRtr b f).boot = s.boot := rfl
@[simp] theorem State.modRtr_flash (b : Nat) (f : Router → Router) : (s.modRtr b f).flash = s.flash := rfl
@[simp] theorem State.modRtr_nvm (b : Nat) (f : Router → Router) : (s.modRtr b f).nvm = s.nvm := rfl
@[simp] theorem State.modRtr_store (b : Nat) (f : Router → Router) : (s.modRtr b f).store = s.store := rfl
@[simp] theorem State.modRtr_sense (b : Nat) (f : Router → Router) : (s.modRtr b f).sense = s.sense := rfl
@[simp] theorem State.modRtr_panels (b : Nat) (f : Router → Router) : (s.modRtr b f).panels = s.panels := rfl
@[simp] theorem State.modRtr_bays (b : Nat) (f : Router → Router) : (s.modRtr b f).bays = s.bays := rfl
@[simp] theorem State.modRtr_rtrs (b : Nat) (f : Router → Router) : (s.modRtr b f).rtrs = mset {} s.rtrs b (f (s.rtr b)) := rfl
@[simp] theorem State.modRtr_edgeQ (b : Nat) (f : Router → Router) : (s.modRtr b f).edgeQ = s.edgeQ := rfl
@[simp] theorem State.modRtr_ctx0 (b : Nat) (f : Router → Router) : (s.modRtr b f).ctx0 = s.ctx0 := rfl
@[simp] theorem State.modRtr_ctx1 (b : Nat) (f : Router → Router) : (s.modRtr b f).ctx1 = s.ctx1 := rfl
@[simp] theorem State.modRtr_pages (b : Nat) (f : Router → Router) : (s.modRtr b f).pages = s.pages := rfl
@[simp] theorem State.modRtr_prefixes (b : Nat) (f : Router → Router) : (s.modRtr b f).prefixes = s.prefixes := rfl
@[simp] theorem State.modRtr_plans (b : Nat) (f : Router → Router) : (s.modRtr b f).plans = s.plans := rfl
@[simp] theorem State.modRtr_reqs (b : Nat) (f : Router → Router) : (s.modRtr b f).reqs = s.reqs := rfl
@[simp] theorem State.modRtr_weights (b : Nat) (f : Router → Router) : (s.modRtr b f).weights = s.weights := rfl
@[simp] theorem State.modRtr_fab (b : Nat) (f : Router → Router) : (s.modRtr b f).fab = s.fab := rfl
@[simp] theorem State.modRtr_host (b : Nat) (f : Router → Router) : (s.modRtr b f).host = s.host := rfl
@[simp] theorem State.modRtr_keep (b : Nat) (f : Router → Router) : (s.modRtr b f).keep = s.keep := rfl
@[simp] theorem State.modRtr_snap (b : Nat) (f : Router → Router) : (s.modRtr b f).snap = s.snap := rfl
@[simp] theorem State.modRtr_resil (b : Nat) (f : Router → Router) : (s.modRtr b f).resil = s.resil := rfl
@[simp] theorem State.modRtr_intr (b : Nat) (f : Router → Router) : (s.modRtr b f).intr = s.intr := rfl
@[simp] theorem State.modRtr_snags (b : Nat) (f : Router → Router) : (s.modRtr b f).snags = s.snags := rfl
@[simp] theorem State.modRtr_snagNext (b : Nat) (f : Router → Router) : (s.modRtr b f).snagNext = s.snagNext := rfl
@[simp] theorem State.modRtr_out (b : Nat) (f : Router → Router) : (s.modRtr b f).out = s.out := rfl
@[simp] theorem State.modRtr_pending (b : Nat) (f : Router → Router) : (s.modRtr b f).pending = s.pending := rfl

/-! ### `modHost` -/

@[simp] theorem State.modHost_part (f : HostIf → HostIf) : (s.modHost f).part = s.part := rfl
@[simp] theorem State.modHost_epoch (f : HostIf → HostIf) : (s.modHost f).epoch = s.epoch := rfl
@[simp] theorem State.modHost_now (f : HostIf → HostIf) : (s.modHost f).now = s.now := rfl
@[simp] theorem State.modHost_leftOff (f : HostIf → HostIf) : (s.modHost f).leftOff = s.leftOff := rfl
@[simp] theorem State.modHost_free (f : HostIf → HostIf) : (s.modHost f).free = s.free := rfl
@[simp] theorem State.modHost_mode (f : HostIf → HostIf) : (s.modHost f).mode = s.mode := rfl
@[simp] theorem State.modHost_gen (f : HostIf → HostIf) : (s.modHost f).gen = s.gen := rfl
@[simp] theorem State.modHost_pwr (f : HostIf → HostIf) : (s.modHost f).pwr = s.pwr := rfl
@[simp] theorem State.modHost_boot (f : HostIf → HostIf) : (s.modHost f).boot = s.boot := rfl
@[simp] theorem State.modHost_flash (f : HostIf → HostIf) : (s.modHost f).flash = s.flash := rfl
@[simp] theorem State.modHost_nvm (f : HostIf → HostIf) : (s.modHost f).nvm = s.nvm := rfl
@[simp] theorem State.modHost_store (f : HostIf → HostIf) : (s.modHost f).store = s.store := rfl
@[simp] theorem State.modHost_sense (f : HostIf → HostIf) : (s.modHost f).sense = s.sense := rfl
@[simp] theorem State.modHost_panels (f : HostIf → HostIf) : (s.modHost f).panels = s.panels := rfl
@[simp] theorem State.modHost_bays (f : HostIf → HostIf) : (s.modHost f).bays = s.bays := rfl
@[simp] theorem State.modHost_rtrs (f : HostIf → HostIf) : (s.modHost f).rtrs = s.rtrs := rfl
@[simp] theorem State.modHost_edgeQ (f : HostIf → HostIf) : (s.modHost f).edgeQ = s.edgeQ := rfl
@[simp] theorem State.modHost_ctx0 (f : HostIf → HostIf) : (s.modHost f).ctx0 = s.ctx0 := rfl
@[simp] theorem State.modHost_ctx1 (f : HostIf → HostIf) : (s.modHost f).ctx1 = s.ctx1 := rfl
@[simp] theorem State.modHost_pages (f : HostIf → HostIf) : (s.modHost f).pages = s.pages := rfl
@[simp] theorem State.modHost_prefixes (f : HostIf → HostIf) : (s.modHost f).prefixes = s.prefixes := rfl
@[simp] theorem State.modHost_plans (f : HostIf → HostIf) : (s.modHost f).plans = s.plans := rfl
@[simp] theorem State.modHost_reqs (f : HostIf → HostIf) : (s.modHost f).reqs = s.reqs := rfl
@[simp] theorem State.modHost_weights (f : HostIf → HostIf) : (s.modHost f).weights = s.weights := rfl
@[simp] theorem State.modHost_fab (f : HostIf → HostIf) : (s.modHost f).fab = s.fab := rfl
@[simp] theorem State.modHost_host (f : HostIf → HostIf) : (s.modHost f).host = f s.host := rfl
@[simp] theorem State.modHost_keep (f : HostIf → HostIf) : (s.modHost f).keep = s.keep := rfl
@[simp] theorem State.modHost_snap (f : HostIf → HostIf) : (s.modHost f).snap = s.snap := rfl
@[simp] theorem State.modHost_resil (f : HostIf → HostIf) : (s.modHost f).resil = s.resil := rfl
@[simp] theorem State.modHost_intr (f : HostIf → HostIf) : (s.modHost f).intr = s.intr := rfl
@[simp] theorem State.modHost_snags (f : HostIf → HostIf) : (s.modHost f).snags = s.snags := rfl
@[simp] theorem State.modHost_snagNext (f : HostIf → HostIf) : (s.modHost f).snagNext = s.snagNext := rfl
@[simp] theorem State.modHost_out (f : HostIf → HostIf) : (s.modHost f).out = s.out := rfl
@[simp] theorem State.modHost_pending (f : HostIf → HostIf) : (s.modHost f).pending = s.pending := rfl

/-! ### `modBoot` -/

@[simp] theorem State.modBoot_part (f : Boot → Boot) : (s.modBoot f).part = s.part := rfl
@[simp] theorem State.modBoot_epoch (f : Boot → Boot) : (s.modBoot f).epoch = s.epoch := rfl
@[simp] theorem State.modBoot_now (f : Boot → Boot) : (s.modBoot f).now = s.now := rfl
@[simp] theorem State.modBoot_leftOff (f : Boot → Boot) : (s.modBoot f).leftOff = s.leftOff := rfl
@[simp] theorem State.modBoot_free (f : Boot → Boot) : (s.modBoot f).free = s.free := rfl
@[simp] theorem State.modBoot_mode (f : Boot → Boot) : (s.modBoot f).mode = s.mode := rfl
@[simp] theorem State.modBoot_gen (f : Boot → Boot) : (s.modBoot f).gen = s.gen := rfl
@[simp] theorem State.modBoot_pwr (f : Boot → Boot) : (s.modBoot f).pwr = s.pwr := rfl
@[simp] theorem State.modBoot_boot (f : Boot → Boot) : (s.modBoot f).boot = f s.boot := rfl
@[simp] theorem State.modBoot_flash (f : Boot → Boot) : (s.modBoot f).flash = s.flash := rfl
@[simp] theorem State.modBoot_nvm (f : Boot → Boot) : (s.modBoot f).nvm = s.nvm := rfl
@[simp] theorem State.modBoot_store (f : Boot → Boot) : (s.modBoot f).store = s.store := rfl
@[simp] theorem State.modBoot_sense (f : Boot → Boot) : (s.modBoot f).sense = s.sense := rfl
@[simp] theorem State.modBoot_panels (f : Boot → Boot) : (s.modBoot f).panels = s.panels := rfl
@[simp] theorem State.modBoot_bays (f : Boot → Boot) : (s.modBoot f).bays = s.bays := rfl
@[simp] theorem State.modBoot_rtrs (f : Boot → Boot) : (s.modBoot f).rtrs = s.rtrs := rfl
@[simp] theorem State.modBoot_edgeQ (f : Boot → Boot) : (s.modBoot f).edgeQ = s.edgeQ := rfl
@[simp] theorem State.modBoot_ctx0 (f : Boot → Boot) : (s.modBoot f).ctx0 = s.ctx0 := rfl
@[simp] theorem State.modBoot_ctx1 (f : Boot → Boot) : (s.modBoot f).ctx1 = s.ctx1 := rfl
@[simp] theorem State.modBoot_pages (f : Boot → Boot) : (s.modBoot f).pages = s.pages := rfl
@[simp] theorem State.modBoot_prefixes (f : Boot → Boot) : (s.modBoot f).prefixes = s.prefixes := rfl
@[simp] theorem State.modBoot_plans (f : Boot → Boot) : (s.modBoot f).plans = s.plans := rfl
@[simp] theorem State.modBoot_reqs (f : Boot → Boot) : (s.modBoot f).reqs = s.reqs := rfl
@[simp] theorem State.modBoot_weights (f : Boot → Boot) : (s.modBoot f).weights = s.weights := rfl
@[simp] theorem State.modBoot_fab (f : Boot → Boot) : (s.modBoot f).fab = s.fab := rfl
@[simp] theorem State.modBoot_host (f : Boot → Boot) : (s.modBoot f).host = s.host := rfl
@[simp] theorem State.modBoot_keep (f : Boot → Boot) : (s.modBoot f).keep = s.keep := rfl
@[simp] theorem State.modBoot_snap (f : Boot → Boot) : (s.modBoot f).snap = s.snap := rfl
@[simp] theorem State.modBoot_resil (f : Boot → Boot) : (s.modBoot f).resil = s.resil := rfl
@[simp] theorem State.modBoot_intr (f : Boot → Boot) : (s.modBoot f).intr = s.intr := rfl
@[simp] theorem State.modBoot_snags (f : Boot → Boot) : (s.modBoot f).snags = s.snags := rfl
@[simp] theorem State.modBoot_snagNext (f : Boot → Boot) : (s.modBoot f).snagNext = s.snagNext := rfl
@[simp] theorem State.modBoot_out (f : Boot → Boot) : (s.modBoot f).out = s.out := rfl
@[simp] theorem State.modBoot_pending (f : Boot → Boot) : (s.modBoot f).pending = s.pending := rfl

/-! ### `modSense` -/

@[simp] theorem State.modSense_part (f : Sense → Sense) : (s.modSense f).part = s.part := rfl
@[simp] theorem State.modSense_epoch (f : Sense → Sense) : (s.modSense f).epoch = s.epoch := rfl
@[simp] theorem State.modSense_now (f : Sense → Sense) : (s.modSense f).now = s.now := rfl
@[simp] theorem State.modSense_leftOff (f : Sense → Sense) : (s.modSense f).leftOff = s.leftOff := rfl
@[simp] theorem State.modSense_free (f : Sense → Sense) : (s.modSense f).free = s.free := rfl
@[simp] theorem State.modSense_mode (f : Sense → Sense) : (s.modSense f).mode = s.mode := rfl
@[simp] theorem State.modSense_gen (f : Sense → Sense) : (s.modSense f).gen = s.gen := rfl
@[simp] theorem State.modSense_pwr (f : Sense → Sense) : (s.modSense f).pwr = s.pwr := rfl
@[simp] theorem State.modSense_boot (f : Sense → Sense) : (s.modSense f).boot = s.boot := rfl
@[simp] theorem State.modSense_flash (f : Sense → Sense) : (s.modSense f).flash = s.flash := rfl
@[simp] theorem State.modSense_nvm (f : Sense → Sense) : (s.modSense f).nvm = s.nvm := rfl
@[simp] theorem State.modSense_store (f : Sense → Sense) : (s.modSense f).store = s.store := rfl
@[simp] theorem State.modSense_sense (f : Sense → Sense) : (s.modSense f).sense = f s.sense := rfl
@[simp] theorem State.modSense_panels (f : Sense → Sense) : (s.modSense f).panels = s.panels := rfl
@[simp] theorem State.modSense_bays (f : Sense → Sense) : (s.modSense f).bays = s.bays := rfl
@[simp] theorem State.modSense_rtrs (f : Sense → Sense) : (s.modSense f).rtrs = s.rtrs := rfl
@[simp] theorem State.modSense_edgeQ (f : Sense → Sense) : (s.modSense f).edgeQ = s.edgeQ := rfl
@[simp] theorem State.modSense_ctx0 (f : Sense → Sense) : (s.modSense f).ctx0 = s.ctx0 := rfl
@[simp] theorem State.modSense_ctx1 (f : Sense → Sense) : (s.modSense f).ctx1 = s.ctx1 := rfl
@[simp] theorem State.modSense_pages (f : Sense → Sense) : (s.modSense f).pages = s.pages := rfl
@[simp] theorem State.modSense_prefixes (f : Sense → Sense) : (s.modSense f).prefixes = s.prefixes := rfl
@[simp] theorem State.modSense_plans (f : Sense → Sense) : (s.modSense f).plans = s.plans := rfl
@[simp] theorem State.modSense_reqs (f : Sense → Sense) : (s.modSense f).reqs = s.reqs := rfl
@[simp] theorem State.modSense_weights (f : Sense → Sense) : (s.modSense f).weights = s.weights := rfl
@[simp] theorem State.modSense_fab (f : Sense → Sense) : (s.modSense f).fab = s.fab := rfl
@[simp] theorem State.modSense_host (f : Sense → Sense) : (s.modSense f).host = s.host := rfl
@[simp] theorem State.modSense_keep (f : Sense → Sense) : (s.modSense f).keep = s.keep := rfl
@[simp] theorem State.modSense_snap (f : Sense → Sense) : (s.modSense f).snap = s.snap := rfl
@[simp] theorem State.modSense_resil (f : Sense → Sense) : (s.modSense f).resil = s.resil := rfl
@[simp] theorem State.modSense_intr (f : Sense → Sense) : (s.modSense f).intr = s.intr := rfl
@[simp] theorem State.modSense_snags (f : Sense → Sense) : (s.modSense f).snags = s.snags := rfl
@[simp] theorem State.modSense_snagNext (f : Sense → Sense) : (s.modSense f).snagNext = s.snagNext := rfl
@[simp] theorem State.modSense_out (f : Sense → Sense) : (s.modSense f).out = s.out := rfl
@[simp] theorem State.modSense_pending (f : Sense → Sense) : (s.modSense f).pending = s.pending := rfl

/-! ### `modKeep` -/

@[simp] theorem State.modKeep_part (f : Keep → Keep) : (s.modKeep f).part = s.part := rfl
@[simp] theorem State.modKeep_epoch (f : Keep → Keep) : (s.modKeep f).epoch = s.epoch := rfl
@[simp] theorem State.modKeep_now (f : Keep → Keep) : (s.modKeep f).now = s.now := rfl
@[simp] theorem State.modKeep_leftOff (f : Keep → Keep) : (s.modKeep f).leftOff = s.leftOff := rfl
@[simp] theorem State.modKeep_free (f : Keep → Keep) : (s.modKeep f).free = s.free := rfl
@[simp] theorem State.modKeep_mode (f : Keep → Keep) : (s.modKeep f).mode = s.mode := rfl
@[simp] theorem State.modKeep_gen (f : Keep → Keep) : (s.modKeep f).gen = s.gen := rfl
@[simp] theorem State.modKeep_pwr (f : Keep → Keep) : (s.modKeep f).pwr = s.pwr := rfl
@[simp] theorem State.modKeep_boot (f : Keep → Keep) : (s.modKeep f).boot = s.boot := rfl
@[simp] theorem State.modKeep_flash (f : Keep → Keep) : (s.modKeep f).flash = s.flash := rfl
@[simp] theorem State.modKeep_nvm (f : Keep → Keep) : (s.modKeep f).nvm = s.nvm := rfl
@[simp] theorem State.modKeep_store (f : Keep → Keep) : (s.modKeep f).store = s.store := rfl
@[simp] theorem State.modKeep_sense (f : Keep → Keep) : (s.modKeep f).sense = s.sense := rfl
@[simp] theorem State.modKeep_panels (f : Keep → Keep) : (s.modKeep f).panels = s.panels := rfl
@[simp] theorem State.modKeep_bays (f : Keep → Keep) : (s.modKeep f).bays = s.bays := rfl
@[simp] theorem State.modKeep_rtrs (f : Keep → Keep) : (s.modKeep f).rtrs = s.rtrs := rfl
@[simp] theorem State.modKeep_edgeQ (f : Keep → Keep) : (s.modKeep f).edgeQ = s.edgeQ := rfl
@[simp] theorem State.modKeep_ctx0 (f : Keep → Keep) : (s.modKeep f).ctx0 = s.ctx0 := rfl
@[simp] theorem State.modKeep_ctx1 (f : Keep → Keep) : (s.modKeep f).ctx1 = s.ctx1 := rfl
@[simp] theorem State.modKeep_pages (f : Keep → Keep) : (s.modKeep f).pages = s.pages := rfl
@[simp] theorem State.modKeep_prefixes (f : Keep → Keep) : (s.modKeep f).prefixes = s.prefixes := rfl
@[simp] theorem State.modKeep_plans (f : Keep → Keep) : (s.modKeep f).plans = s.plans := rfl
@[simp] theorem State.modKeep_reqs (f : Keep → Keep) : (s.modKeep f).reqs = s.reqs := rfl
@[simp] theorem State.modKeep_weights (f : Keep → Keep) : (s.modKeep f).weights = s.weights := rfl
@[simp] theorem State.modKeep_fab (f : Keep → Keep) : (s.modKeep f).fab = s.fab := rfl
@[simp] theorem State.modKeep_host (f : Keep → Keep) : (s.modKeep f).host = s.host := rfl
@[simp] theorem State.modKeep_keep (f : Keep → Keep) : (s.modKeep f).keep = f s.keep := rfl
@[simp] theorem State.modKeep_snap (f : Keep → Keep) : (s.modKeep f).snap = s.snap := rfl
@[simp] theorem State.modKeep_resil (f : Keep → Keep) : (s.modKeep f).resil = s.resil := rfl
@[simp] theorem State.modKeep_intr (f : Keep → Keep) : (s.modKeep f).intr = s.intr := rfl
@[simp] theorem State.modKeep_snags (f : Keep → Keep) : (s.modKeep f).snags = s.snags := rfl
@[simp] theorem State.modKeep_snagNext (f : Keep → Keep) : (s.modKeep f).snagNext = s.snagNext := rfl
@[simp] theorem State.modKeep_out (f : Keep → Keep) : (s.modKeep f).out = s.out := rfl
@[simp] theorem State.modKeep_pending (f : Keep → Keep) : (s.modKeep f).pending = s.pending := rfl

/-! ### `modFab` -/

@[simp] theorem State.modFab_part (f : Fabric → Fabric) : (s.modFab f).part = s.part := rfl
@[simp] theorem State.modFab_epoch (f : Fabric → Fabric) : (s.modFab f).epoch = s.epoch := rfl
@[simp] theorem State.modFab_now (f : Fabric → Fabric) : (s.modFab f).now = s.now := rfl
@[simp] theorem State.modFab_leftOff (f : Fabric → Fabric) : (s.modFab f).leftOff = s.leftOff := rfl
@[simp] theorem State.modFab_free (f : Fabric → Fabric) : (s.modFab f).free = s.free := rfl
@[simp] theorem State.modFab_mode (f : Fabric → Fabric) : (s.modFab f).mode = s.mode := rfl
@[simp] theorem State.modFab_gen (f : Fabric → Fabric) : (s.modFab f).gen = s.gen := rfl
@[simp] theorem State.modFab_pwr (f : Fabric → Fabric) : (s.modFab f).pwr = s.pwr := rfl
@[simp] theorem State.modFab_boot (f : Fabric → Fabric) : (s.modFab f).boot = s.boot := rfl
@[simp] theorem State.modFab_flash (f : Fabric → Fabric) : (s.modFab f).flash = s.flash := rfl
@[simp] theorem State.modFab_nvm (f : Fabric → Fabric) : (s.modFab f).nvm = s.nvm := rfl
@[simp] theorem State.modFab_store (f : Fabric → Fabric) : (s.modFab f).store = s.store := rfl
@[simp] theorem State.modFab_sense (f : Fabric → Fabric) : (s.modFab f).sense = s.sense := rfl
@[simp] theorem State.modFab_panels (f : Fabric → Fabric) : (s.modFab f).panels = s.panels := rfl
@[simp] theorem State.modFab_bays (f : Fabric → Fabric) : (s.modFab f).bays = s.bays := rfl
@[simp] theorem State.modFab_rtrs (f : Fabric → Fabric) : (s.modFab f).rtrs = s.rtrs := rfl
@[simp] theorem State.modFab_edgeQ (f : Fabric → Fabric) : (s.modFab f).edgeQ = s.edgeQ := rfl
@[simp] theorem State.modFab_ctx0 (f : Fabric → Fabric) : (s.modFab f).ctx0 = s.ctx0 := rfl
@[simp] theorem State.modFab_ctx1 (f : Fabric → Fabric) : (s.modFab f).ctx1 = s.ctx1 := rfl
@[simp] theorem State.modFab_pages (f : Fabric → Fabric) : (s.modFab f).pages = s.pages := rfl
@[simp] theorem State.modFab_prefixes (f : Fabric → Fabric) : (s.modFab f).prefixes = s.prefixes := rfl
@[simp] theorem State.modFab_plans (f : Fabric → Fabric) : (s.modFab f).plans = s.plans := rfl
@[simp] theorem State.modFab_reqs (f : Fabric → Fabric) : (s.modFab f).reqs = s.reqs := rfl
@[simp] theorem State.modFab_weights (f : Fabric → Fabric) : (s.modFab f).weights = s.weights := rfl
@[simp] theorem State.modFab_fab (f : Fabric → Fabric) : (s.modFab f).fab = f s.fab := rfl
@[simp] theorem State.modFab_host (f : Fabric → Fabric) : (s.modFab f).host = s.host := rfl
@[simp] theorem State.modFab_keep (f : Fabric → Fabric) : (s.modFab f).keep = s.keep := rfl
@[simp] theorem State.modFab_snap (f : Fabric → Fabric) : (s.modFab f).snap = s.snap := rfl
@[simp] theorem State.modFab_resil (f : Fabric → Fabric) : (s.modFab f).resil = s.resil := rfl
@[simp] theorem State.modFab_intr (f : Fabric → Fabric) : (s.modFab f).intr = s.intr := rfl
@[simp] theorem State.modFab_snags (f : Fabric → Fabric) : (s.modFab f).snags = s.snags := rfl
@[simp] theorem State.modFab_snagNext (f : Fabric → Fabric) : (s.modFab f).snagNext = s.snagNext := rfl
@[simp] theorem State.modFab_out (f : Fabric → Fabric) : (s.modFab f).out = s.out := rfl
@[simp] theorem State.modFab_pending (f : Fabric → Fabric) : (s.modFab f).pending = s.pending := rfl

/-! ### `modResil` -/

@[simp] theorem State.modResil_part (f : Resil → Resil) : (s.modResil f).part = s.part := rfl
@[simp] theorem State.modResil_epoch (f : Resil → Resil) : (s.modResil f).epoch = s.epoch := rfl
@[simp] theorem State.modResil_now (f : Resil → Resil) : (s.modResil f).now = s.now := rfl
@[simp] theorem State.modResil_leftOff (f : Resil → Resil) : (s.modResil f).leftOff = s.leftOff := rfl
@[simp] theorem State.modResil_free (f : Resil → Resil) : (s.modResil f).free = s.free := rfl
@[simp] theorem State.modResil_mode (f : Resil → Resil) : (s.modResil f).mode = s.mode := rfl
@[simp] theorem State.modResil_gen (f : Resil → Resil) : (s.modResil f).gen = s.gen := rfl
@[simp] theorem State.modResil_pwr (f : Resil → Resil) : (s.modResil f).pwr = s.pwr := rfl
@[simp] theorem State.modResil_boot (f : Resil → Resil) : (s.modResil f).boot = s.boot := rfl
@[simp] theorem State.modResil_flash (f : Resil → Resil) : (s.modResil f).flash = s.flash := rfl
@[simp] theorem State.modResil_nvm (f : Resil → Resil) : (s.modResil f).nvm = s.nvm := rfl
@[simp] theorem State.modResil_store (f : Resil → Resil) : (s.modResil f).store = s.store := rfl
@[simp] theorem State.modResil_sense (f : Resil → Resil) : (s.modResil f).sense = s.sense := rfl
@[simp] theorem State.modResil_panels (f : Resil → Resil) : (s.modResil f).panels = s.panels := rfl
@[simp] theorem State.modResil_bays (f : Resil → Resil) : (s.modResil f).bays = s.bays := rfl
@[simp] theorem State.modResil_rtrs (f : Resil → Resil) : (s.modResil f).rtrs = s.rtrs := rfl
@[simp] theorem State.modResil_edgeQ (f : Resil → Resil) : (s.modResil f).edgeQ = s.edgeQ := rfl
@[simp] theorem State.modResil_ctx0 (f : Resil → Resil) : (s.modResil f).ctx0 = s.ctx0 := rfl
@[simp] theorem State.modResil_ctx1 (f : Resil → Resil) : (s.modResil f).ctx1 = s.ctx1 := rfl
@[simp] theorem State.modResil_pages (f : Resil → Resil) : (s.modResil f).pages = s.pages := rfl
@[simp] theorem State.modResil_prefixes (f : Resil → Resil) : (s.modResil f).prefixes = s.prefixes := rfl
@[simp] theorem State.modResil_plans (f : Resil → Resil) : (s.modResil f).plans = s.plans := rfl
@[simp] theorem State.modResil_reqs (f : Resil → Resil) : (s.modResil f).reqs = s.reqs := rfl
@[simp] theorem State.modResil_weights (f : Resil → Resil) : (s.modResil f).weights = s.weights := rfl
@[simp] theorem State.modResil_fab (f : Resil → Resil) : (s.modResil f).fab = s.fab := rfl
@[simp] theorem State.modResil_host (f : Resil → Resil) : (s.modResil f).host = s.host := rfl
@[simp] theorem State.modResil_keep (f : Resil → Resil) : (s.modResil f).keep = s.keep := rfl
@[simp] theorem State.modResil_snap (f : Resil → Resil) : (s.modResil f).snap = s.snap := rfl
@[simp] theorem State.modResil_resil (f : Resil → Resil) : (s.modResil f).resil = f s.resil := rfl
@[simp] theorem State.modResil_intr (f : Resil → Resil) : (s.modResil f).intr = s.intr := rfl
@[simp] theorem State.modResil_snags (f : Resil → Resil) : (s.modResil f).snags = s.snags := rfl
@[simp] theorem State.modResil_snagNext (f : Resil → Resil) : (s.modResil f).snagNext = s.snagNext := rfl
@[simp] theorem State.modResil_out (f : Resil → Resil) : (s.modResil f).out = s.out := rfl
@[simp] theorem State.modResil_pending (f : Resil → Resil) : (s.modResil f).pending = s.pending := rfl

/-! ### `modWeights` -/

@[simp] theorem State.modWeights_part (f : Weights → Weights) : (s.modWeights f).part = s.part := rfl
@[simp] theorem State.modWeights_epoch (f : Weights → Weights) : (s.modWeights f).epoch = s.epoch := rfl
@[simp] theorem State.modWeights_now (f : Weights → Weights) : (s.modWeights f).now = s.now := rfl
@[simp] theorem State.modWeights_leftOff (f : Weights → Weights) : (s.modWeights f).leftOff = s.leftOff := rfl
@[simp] theorem State.modWeights_free (f : Weights → Weights) : (s.modWeights f).free = s.free := rfl
@[simp] theorem State.modWeights_mode (f : Weights → Weights) : (s.modWeights f).mode = s.mode := rfl
@[simp] theorem State.modWeights_gen (f : Weights → Weights) : (s.modWeights f).gen = s.gen := rfl
@[simp] theorem State.modWeights_pwr (f : Weights → Weights) : (s.modWeights f).pwr = s.pwr := rfl
@[simp] theorem State.modWeights_boot (f : Weights → Weights) : (s.modWeights f).boot = s.boot := rfl
@[simp] theorem State.modWeights_flash (f : Weights → Weights) : (s.modWeights f).flash = s.flash := rfl
@[simp] theorem State.modWeights_nvm (f : Weights → Weights) : (s.modWeights f).nvm = s.nvm := rfl
@[simp] theorem State.modWeights_store (f : Weights → Weights) : (s.modWeights f).store = s.store := rfl
@[simp] theorem State.modWeights_sense (f : Weights → Weights) : (s.modWeights f).sense = s.sense := rfl
@[simp] theorem State.modWeights_panels (f : Weights → Weights) : (s.modWeights f).panels = s.panels := rfl
@[simp] theorem State.modWeights_bays (f : Weights → Weights) : (s.modWeights f).bays = s.bays := rfl
@[simp] theorem State.modWeights_rtrs (f : Weights → Weights) : (s.modWeights f).rtrs = s.rtrs := rfl
@[simp] theorem State.modWeights_edgeQ (f : Weights → Weights) : (s.modWeights f).edgeQ = s.edgeQ := rfl
@[simp] theorem State.modWeights_ctx0 (f : Weights → Weights) : (s.modWeights f).ctx0 = s.ctx0 := rfl
@[simp] theorem State.modWeights_ctx1 (f : Weights → Weights) : (s.modWeights f).ctx1 = s.ctx1 := rfl
@[simp] theorem State.modWeights_pages (f : Weights → Weights) : (s.modWeights f).pages = s.pages := rfl
@[simp] theorem State.modWeights_prefixes (f : Weights → Weights) : (s.modWeights f).prefixes = s.prefixes := rfl
@[simp] theorem State.modWeights_plans (f : Weights → Weights) : (s.modWeights f).plans = s.plans := rfl
@[simp] theorem State.modWeights_reqs (f : Weights → Weights) : (s.modWeights f).reqs = s.reqs := rfl
@[simp] theorem State.modWeights_weights (f : Weights → Weights) : (s.modWeights f).weights = f s.weights := rfl
@[simp] theorem State.modWeights_fab (f : Weights → Weights) : (s.modWeights f).fab = s.fab := rfl
@[simp] theorem State.modWeights_host (f : Weights → Weights) : (s.modWeights f).host = s.host := rfl
@[simp] theorem State.modWeights_keep (f : Weights → Weights) : (s.modWeights f).keep = s.keep := rfl
@[simp] theorem State.modWeights_snap (f : Weights → Weights) : (s.modWeights f).snap = s.snap := rfl
@[simp] theorem State.modWeights_resil (f : Weights → Weights) : (s.modWeights f).resil = s.resil := rfl
@[simp] theorem State.modWeights_intr (f : Weights → Weights) : (s.modWeights f).intr = s.intr := rfl
@[simp] theorem State.modWeights_snags (f : Weights → Weights) : (s.modWeights f).snags = s.snags := rfl
@[simp] theorem State.modWeights_snagNext (f : Weights → Weights) : (s.modWeights f).snagNext = s.snagNext := rfl
@[simp] theorem State.modWeights_out (f : Weights → Weights) : (s.modWeights f).out = s.out := rfl
@[simp] theorem State.modWeights_pending (f : Weights → Weights) : (s.modWeights f).pending = s.pending := rfl

/-! ### `setPte` -/

@[simp] theorem State.setPte_part (n l : Nat) (v : BitVec 32) : (s.setPte n l v).part = s.part := rfl
@[simp] theorem State.setPte_epoch (n l : Nat) (v : BitVec 32) : (s.setPte n l v).epoch = s.epoch := rfl
@[simp] theorem State.setPte_now (n l : Nat) (v : BitVec 32) : (s.setPte n l v).now = s.now := rfl
@[simp] theorem State.setPte_leftOff (n l : Nat) (v : BitVec 32) : (s.setPte n l v).leftOff = s.leftOff := rfl
@[simp] theorem State.setPte_free (n l : Nat) (v : BitVec 32) : (s.setPte n l v).free = s.free := rfl
@[simp] theorem State.setPte_mode (n l : Nat) (v : BitVec 32) : (s.setPte n l v).mode = s.mode := rfl
@[simp] theorem State.setPte_gen (n l : Nat) (v : BitVec 32) : (s.setPte n l v).gen = s.gen := rfl
@[simp] theorem State.setPte_pwr (n l : Nat) (v : BitVec 32) : (s.setPte n l v).pwr = s.pwr := rfl
@[simp] theorem State.setPte_boot (n l : Nat) (v : BitVec 32) : (s.setPte n l v).boot = s.boot := rfl
@[simp] theorem State.setPte_flash (n l : Nat) (v : BitVec 32) : (s.setPte n l v).flash = s.flash := rfl
@[simp] theorem State.setPte_nvm (n l : Nat) (v : BitVec 32) : (s.setPte n l v).nvm = s.nvm := rfl
@[simp] theorem State.setPte_store (n l : Nat) (v : BitVec 32) : (s.setPte n l v).store = s.store := rfl
@[simp] theorem State.setPte_sense (n l : Nat) (v : BitVec 32) : (s.setPte n l v).sense = s.sense := rfl
@[simp] theorem State.setPte_panels (n l : Nat) (v : BitVec 32) : (s.setPte n l v).panels = s.panels := rfl
@[simp] theorem State.setPte_bays (n l : Nat) (v : BitVec 32) : (s.setPte n l v).bays = s.bays := rfl
@[simp] theorem State.setPte_rtrs (n l : Nat) (v : BitVec 32) : (s.setPte n l v).rtrs = s.rtrs := rfl
@[simp] theorem State.setPte_edgeQ (n l : Nat) (v : BitVec 32) : (s.setPte n l v).edgeQ = s.edgeQ := rfl
@[simp] theorem State.setPte_ctx0 (n l : Nat) (v : BitVec 32) : (s.setPte n l v).ctx0 = s.ctx0 := rfl
@[simp] theorem State.setPte_ctx1 (n l : Nat) (v : BitVec 32) : (s.setPte n l v).ctx1 = s.ctx1 := rfl
@[simp] theorem State.setPte_pages (n l : Nat) (v : BitVec 32) : (s.setPte n l v).pages = mset 0 s.pages (2 ^ 25 * n + l) v := rfl
@[simp] theorem State.setPte_prefixes (n l : Nat) (v : BitVec 32) : (s.setPte n l v).prefixes = s.prefixes := rfl
@[simp] theorem State.setPte_plans (n l : Nat) (v : BitVec 32) : (s.setPte n l v).plans = s.plans := rfl
@[simp] theorem State.setPte_reqs (n l : Nat) (v : BitVec 32) : (s.setPte n l v).reqs = s.reqs := rfl
@[simp] theorem State.setPte_weights (n l : Nat) (v : BitVec 32) : (s.setPte n l v).weights = s.weights := rfl
@[simp] theorem State.setPte_fab (n l : Nat) (v : BitVec 32) : (s.setPte n l v).fab = s.fab := rfl
@[simp] theorem State.setPte_host (n l : Nat) (v : BitVec 32) : (s.setPte n l v).host = s.host := rfl
@[simp] theorem State.setPte_keep (n l : Nat) (v : BitVec 32) : (s.setPte n l v).keep = s.keep := rfl
@[simp] theorem State.setPte_snap (n l : Nat) (v : BitVec 32) : (s.setPte n l v).snap = s.snap := rfl
@[simp] theorem State.setPte_resil (n l : Nat) (v : BitVec 32) : (s.setPte n l v).resil = s.resil := rfl
@[simp] theorem State.setPte_intr (n l : Nat) (v : BitVec 32) : (s.setPte n l v).intr = s.intr := rfl
@[simp] theorem State.setPte_snags (n l : Nat) (v : BitVec 32) : (s.setPte n l v).snags = s.snags := rfl
@[simp] theorem State.setPte_snagNext (n l : Nat) (v : BitVec 32) : (s.setPte n l v).snagNext = s.snagNext := rfl
@[simp] theorem State.setPte_out (n l : Nat) (v : BitVec 32) : (s.setPte n l v).out = s.out := rfl
@[simp] theorem State.setPte_pending (n l : Nat) (v : BitVec 32) : (s.setPte n l v).pending = s.pending := rfl

/-! ### `recordOff` -/

@[simp] theorem State.recordOff_part (c r : Nat) : (s.recordOff c r).part = s.part := rfl
@[simp] theorem State.recordOff_epoch (c r : Nat) : (s.recordOff c r).epoch = s.epoch := rfl
@[simp] theorem State.recordOff_now (c r : Nat) : (s.recordOff c r).now = s.now := rfl
@[simp] theorem State.recordOff_leftOff (c r : Nat) : (s.recordOff c r).leftOff = s.leftOff := rfl
@[simp] theorem State.recordOff_free (c r : Nat) : (s.recordOff c r).free = s.free := rfl
@[simp] theorem State.recordOff_mode (c r : Nat) : (s.recordOff c r).mode = s.mode := rfl
@[simp] theorem State.recordOff_gen (c r : Nat) : (s.recordOff c r).gen = s.gen := rfl
@[simp] theorem State.recordOff_pwr (c r : Nat) : (s.recordOff c r).pwr = { s.pwr with offCause := c, offRail := r, offAt := s.now } := rfl
@[simp] theorem State.recordOff_boot (c r : Nat) : (s.recordOff c r).boot = s.boot := rfl
@[simp] theorem State.recordOff_flash (c r : Nat) : (s.recordOff c r).flash = s.flash := rfl
@[simp] theorem State.recordOff_nvm (c r : Nat) : (s.recordOff c r).nvm = s.nvm := rfl
@[simp] theorem State.recordOff_store (c r : Nat) : (s.recordOff c r).store = s.store := rfl
@[simp] theorem State.recordOff_sense (c r : Nat) : (s.recordOff c r).sense = s.sense := rfl
@[simp] theorem State.recordOff_panels (c r : Nat) : (s.recordOff c r).panels = s.panels := rfl
@[simp] theorem State.recordOff_bays (c r : Nat) : (s.recordOff c r).bays = s.bays := rfl
@[simp] theorem State.recordOff_rtrs (c r : Nat) : (s.recordOff c r).rtrs = s.rtrs := rfl
@[simp] theorem State.recordOff_edgeQ (c r : Nat) : (s.recordOff c r).edgeQ = s.edgeQ := rfl
@[simp] theorem State.recordOff_ctx0 (c r : Nat) : (s.recordOff c r).ctx0 = s.ctx0 := rfl
@[simp] theorem State.recordOff_ctx1 (c r : Nat) : (s.recordOff c r).ctx1 = s.ctx1 := rfl
@[simp] theorem State.recordOff_pages (c r : Nat) : (s.recordOff c r).pages = s.pages := rfl
@[simp] theorem State.recordOff_prefixes (c r : Nat) : (s.recordOff c r).prefixes = s.prefixes := rfl
@[simp] theorem State.recordOff_plans (c r : Nat) : (s.recordOff c r).plans = s.plans := rfl
@[simp] theorem State.recordOff_reqs (c r : Nat) : (s.recordOff c r).reqs = s.reqs := rfl
@[simp] theorem State.recordOff_weights (c r : Nat) : (s.recordOff c r).weights = s.weights := rfl
@[simp] theorem State.recordOff_fab (c r : Nat) : (s.recordOff c r).fab = s.fab := rfl
@[simp] theorem State.recordOff_host (c r : Nat) : (s.recordOff c r).host = s.host := rfl
@[simp] theorem State.recordOff_keep (c r : Nat) : (s.recordOff c r).keep = s.keep := rfl
@[simp] theorem State.recordOff_snap (c r : Nat) : (s.recordOff c r).snap = s.snap := rfl
@[simp] theorem State.recordOff_resil (c r : Nat) : (s.recordOff c r).resil = s.resil := rfl
@[simp] theorem State.recordOff_intr (c r : Nat) : (s.recordOff c r).intr = s.intr := rfl
@[simp] theorem State.recordOff_snags (c r : Nat) : (s.recordOff c r).snags = s.snags := rfl
@[simp] theorem State.recordOff_snagNext (c r : Nat) : (s.recordOff c r).snagNext = s.snagNext := rfl
@[simp] theorem State.recordOff_out (c r : Nat) : (s.recordOff c r).out = s.out := rfl
@[simp] theorem State.recordOff_pending (c r : Nat) : (s.recordOff c r).pending = s.pending := rfl

/-! ### Reading a part after writing one -/

theorem State.bay_setBay (s : State) (b c : Nat) (y : Bay) : (s.setBay b y).bay c = if c = b then y else s.bay c := by
  unfold State.bay State.setBay
  split
  · subst c
    exact mget_mset_same b y
  · exact mget_mset_other ‹_› y

theorem State.bay_modBay (s : State) (b c : Nat) (f : Bay → Bay) :
    (s.modBay b f).bay c = if c = b then f (s.bay b) else s.bay c := State.bay_setBay s b c _

theorem State.panel_setPanel (s : State) (k j : Nat) (x : Panel) :
    (s.setPanel k x).panel j = if j = k then x else s.panel j := by
  unfold State.panel State.setPanel
  split
  · subst j
    exact mget_mset_same k x
  · exact mget_mset_other ‹_› x

theorem State.panel_modPanel (s : State) (k j : Nat) (f : Panel → Panel) :
    (s.modPanel k f).panel j = if j = k then f (s.panel k) else s.panel j := State.panel_setPanel s k j _

theorem State.rtr_setRtr (s : State) (b c : Nat) (x : Router) : (s.setRtr b x).rtr c = if c = b then x else s.rtr c := by
  unfold State.rtr State.setRtr
  split
  · subst c
    exact mget_mset_same b x
  · exact mget_mset_other ‹_› x

theorem State.rtr_modRtr (s : State) (b c : Nat) (f : Router → Router) :
    (s.modRtr b f).rtr c = if c = b then f (s.rtr b) else s.rtr c := State.rtr_setRtr s b c _

@[simp] theorem State.bay_tick (k : Nat) (t : Nat) : (s.tick t).bay k = s.bay k := rfl
@[simp] theorem State.bay_drawn (k : Nat) : (s.drawn).bay k = s.bay k := rfl
@[simp] theorem State.bay_emit (k : Nat) (o : Output) : (s.emit o).bay k = s.bay k := rfl
@[simp] theorem State.bay_intrude (k : Nat) (n : Nat) : (s.intrude n).bay k = s.bay k := rfl
@[simp] theorem State.bay_setPanel (k : Nat) (j : Nat) (x : Panel) : (s.setPanel j x).bay k = s.bay k := rfl
@[simp] theorem State.bay_modPanel (k : Nat) (j : Nat) (f : Panel → Panel) : (s.modPanel j f).bay k = s.bay k := rfl
@[simp] theorem State.bay_setRtr (k : Nat) (b : Nat) (x : Router) : (s.setRtr b x).bay k = s.bay k := rfl
@[simp] theorem State.bay_modRtr (k : Nat) (b : Nat) (f : Router → Router) : (s.modRtr b f).bay k = s.bay k := rfl
@[simp] theorem State.bay_modHost (k : Nat) (f : HostIf → HostIf) : (s.modHost f).bay k = s.bay k := rfl
@[simp] theorem State.bay_modBoot (k : Nat) (f : Boot → Boot) : (s.modBoot f).bay k = s.bay k := rfl
@[simp] theorem State.bay_modSense (k : Nat) (f : Sense → Sense) : (s.modSense f).bay k = s.bay k := rfl
@[simp] theorem State.bay_modKeep (k : Nat) (f : Keep → Keep) : (s.modKeep f).bay k = s.bay k := rfl
@[simp] theorem State.bay_modFab (k : Nat) (f : Fabric → Fabric) : (s.modFab f).bay k = s.bay k := rfl
@[simp] theorem State.bay_modResil (k : Nat) (f : Resil → Resil) : (s.modResil f).bay k = s.bay k := rfl
@[simp] theorem State.bay_modWeights (k : Nat) (f : Weights → Weights) : (s.modWeights f).bay k = s.bay k := rfl
@[simp] theorem State.bay_setPte (k : Nat) (n l : Nat) (v : BitVec 32) : (s.setPte n l v).bay k = s.bay k := rfl
@[simp] theorem State.bay_recordOff (k : Nat) (c r : Nat) : (s.recordOff c r).bay k = s.bay k := rfl
@[simp] theorem State.panel_tick (k : Nat) (t : Nat) : (s.tick t).panel k = s.panel k := rfl
@[simp] theorem State.panel_drawn (k : Nat) : (s.drawn).panel k = s.panel k := rfl
@[simp] theorem State.panel_emit (k : Nat) (o : Output) : (s.emit o).panel k = s.panel k := rfl
@[simp] theorem State.panel_intrude (k : Nat) (n : Nat) : (s.intrude n).panel k = s.panel k := rfl
@[simp] theorem State.panel_setBay (k : Nat) (b : Nat) (y : Bay) : (s.setBay b y).panel k = s.panel k := rfl
@[simp] theorem State.panel_modBay (k : Nat) (b : Nat) (f : Bay → Bay) : (s.modBay b f).panel k = s.panel k := rfl
@[simp] theorem State.panel_setRtr (k : Nat) (b : Nat) (x : Router) : (s.setRtr b x).panel k = s.panel k := rfl
@[simp] theorem State.panel_modRtr (k : Nat) (b : Nat) (f : Router → Router) : (s.modRtr b f).panel k = s.panel k := rfl
@[simp] theorem State.panel_modHost (k : Nat) (f : HostIf → HostIf) : (s.modHost f).panel k = s.panel k := rfl
@[simp] theorem State.panel_modBoot (k : Nat) (f : Boot → Boot) : (s.modBoot f).panel k = s.panel k := rfl
@[simp] theorem State.panel_modSense (k : Nat) (f : Sense → Sense) : (s.modSense f).panel k = s.panel k := rfl
@[simp] theorem State.panel_modKeep (k : Nat) (f : Keep → Keep) : (s.modKeep f).panel k = s.panel k := rfl
@[simp] theorem State.panel_modFab (k : Nat) (f : Fabric → Fabric) : (s.modFab f).panel k = s.panel k := rfl
@[simp] theorem State.panel_modResil (k : Nat) (f : Resil → Resil) : (s.modResil f).panel k = s.panel k := rfl
@[simp] theorem State.panel_modWeights (k : Nat) (f : Weights → Weights) : (s.modWeights f).panel k = s.panel k := rfl
@[simp] theorem State.panel_setPte (k : Nat) (n l : Nat) (v : BitVec 32) : (s.setPte n l v).panel k = s.panel k := rfl
@[simp] theorem State.panel_recordOff (k : Nat) (c r : Nat) : (s.recordOff c r).panel k = s.panel k := rfl
@[simp] theorem State.rtr_tick (k : Nat) (t : Nat) : (s.tick t).rtr k = s.rtr k := rfl
@[simp] theorem State.rtr_drawn (k : Nat) : (s.drawn).rtr k = s.rtr k := rfl
@[simp] theorem State.rtr_emit (k : Nat) (o : Output) : (s.emit o).rtr k = s.rtr k := rfl
@[simp] theorem State.rtr_intrude (k : Nat) (n : Nat) : (s.intrude n).rtr k = s.rtr k := rfl
@[simp] theorem State.rtr_setBay (k : Nat) (b : Nat) (y : Bay) : (s.setBay b y).rtr k = s.rtr k := rfl
@[simp] theorem State.rtr_modBay (k : Nat) (b : Nat) (f : Bay → Bay) : (s.modBay b f).rtr k = s.rtr k := rfl
@[simp] theorem State.rtr_setPanel (k : Nat) (j : Nat) (x : Panel) : (s.setPanel j x).rtr k = s.rtr k := rfl
@[simp] theorem State.rtr_modPanel (k : Nat) (j : Nat) (f : Panel → Panel) : (s.modPanel j f).rtr k = s.rtr k := rfl
@[simp] theorem State.rtr_modHost (k : Nat) (f : HostIf → HostIf) : (s.modHost f).rtr k = s.rtr k := rfl
@[simp] theorem State.rtr_modBoot (k : Nat) (f : Boot → Boot) : (s.modBoot f).rtr k = s.rtr k := rfl
@[simp] theorem State.rtr_modSense (k : Nat) (f : Sense → Sense) : (s.modSense f).rtr k = s.rtr k := rfl
@[simp] theorem State.rtr_modKeep (k : Nat) (f : Keep → Keep) : (s.modKeep f).rtr k = s.rtr k := rfl
@[simp] theorem State.rtr_modFab (k : Nat) (f : Fabric → Fabric) : (s.modFab f).rtr k = s.rtr k := rfl
@[simp] theorem State.rtr_modResil (k : Nat) (f : Resil → Resil) : (s.modResil f).rtr k = s.rtr k := rfl
@[simp] theorem State.rtr_modWeights (k : Nat) (f : Weights → Weights) : (s.modWeights f).rtr k = s.rtr k := rfl
@[simp] theorem State.rtr_setPte (k : Nat) (n l : Nat) (v : BitVec 32) : (s.setPte n l v).rtr k = s.rtr k := rfl
@[simp] theorem State.rtr_recordOff (k : Nat) (c r : Nat) : (s.recordOff c r).rtr k = s.rtr k := rfl

end Sys2Proof.Machine
end

