-- ==== Sys2Proof/WellFormed.lean ====
section
/-! DEFINITION. Which commands are well formed: operands within the ranges the manual gives them. -/

namespace Sys2Proof

/-- A function: the PF or one of 1,024 VFs (11 R301). -/
def fnOk (fn : Nat) : Bool := decide (fn ≤ 1024)

/-- A slot of a function (11 R304). -/
def slotOk (fn slot : Nat) : Bool := fnOk fn && decide (slot < 4)

/-- Bytes within one slot (11 R306). -/
def bytesOk (off : Nat) (b : List Byte) : Bool := b != [] && decide (off + b.length ≤ 4096)

/-- An MSI-X vector (11 R321). -/
def vecOk (vec : Nat) : Bool := decide (vec < 64)

/-- A virtual channel (10 R278). -/
def vcOk (vc : Nat) : Bool := decide (vc < 4)

/-- A PLDM type and a command code (01 R429). -/
def typeOk (ty : Nat) : Bool := decide (ty < 64)
def codeOk (code : Nat) : Bool := decide (code < 256)

/-- A bit of a row: 1,024 data cells and the witness columns (02 R43, R46). -/
def cellOk (i : Nat) : Bool := decide (i < 1136)

/-- A panel of the module: 32·bay number + panel. -/
def panelOk (k : Nat) : Bool := decide (k < 36864)

/-- One power reading for each leaf (01 R30, 14 R404). -/
def leavesOk (l : List Nat) : Bool := decide (l.length = 32)

/-- A message has at least one line. -/
def linesOk (ms : List MLine) : Bool := ms != []

/-- The cause of a failed host memory read (11 R324). -/
def HostRead.ok : HostRead → Bool
  | .bytes _ => true
  | .fail c => decide (c < 4)

def Fetch.ok {α : Type} : Fetch α → Bool
  | .got _ => true
  | .fail c => decide (c < 4)

/-- A converter (02 R48, R52): 16 bit planes, four row segments, 1,024 columns and 4 witness columns. -/
def Dev.ok (d : Dev) : Bool := decide (d.plane < 16 ∧ d.seg < 4 ∧ d.col < 1136)

/-- A check of a panel operation's edge stages (03 R100, R103): column weighting to saturation. -/
def ResFault.okEdge (r : ResFault) : Bool :=
  decide (r.panel < 32 ∧ r.stage < 5 ∧ r.output < 1024 ∧ r.plane < 8 ∧ r.seg < 4 ∧ r.sub < 8)

/-- A check of a drain (03 R90, R100): the saturation of a drain to I32, or the requantiser. -/
def ResFault.okDrain (r : ResFault) : Bool :=
  decide (r.panel < 32 ∧ (r.stage = 4 ∨ r.stage = 5) ∧ r.output < 1024 ∧ r.sub < 4)

/-- A check of the vector unit (03 R100; 05 R148). -/
def ResAt.okVec (r : ResAt) : Bool := decide (r.elem < 4096 ∧ r.step < 9)

/-- A check of the matrix unit (04 R124). -/
def ResAt.okMat (r : ResAt) : Bool := decide (r.elem < 4096 ∧ r.term < 64 ∧ r.step < 4)

/-- A bit of a line and its check bits (04 R113). -/
def Upset.ok (u : Upset) : Bool := decide (u.bit < 576)

/-- A flit's channel and credits (10 R278). -/
def Flit.ok (f : Flit) : Bool :=
  decide (f.vc < 4 ∧ f.ftype < 16 ∧ f.nlines < 16 ∧ f.seq < 4096 ∧ f.ack < 4096 ∧ f.session < 4096 ∧ f.dst < 65536 ∧ f.src < 65536 ∧
    f.credit.length = 4 ∧ f.corr < 16) && f.credit.all fun c => decide (c < 16)

/-- A TLP within the BARs (11 R304). -/
def Tlp.ok : Tlp → Bool
  | .slotWrite slot off b => decide (slot < 4) && bytesOk off b
  | .regWrite off _ | .regRead off => decide (off < 0x4000000 ∧ off % 4 = 0)
  | .slotRead _ slot off len => decide (slot < 4 ∧ off + len ≤ 4096)
  | .winWrite off b => decide (off < 65536) && bytesOk (off % 4096) b
  | .winRead off len => decide (off % 4096 + len ≤ 4096 ∧ off < 65536)
  | .cfgRead dw => decide (dw < 1024)
  | .malformed bit _ _ => decide (bit < 32)

/-- A register address (00 R9). -/
def RegAddr.ok : RegAddr → Bool
  | .bar0 off => decide (off < 0x4000000 ∧ off % 4 = 0)
  | .busMaster fn => fnOk fn
  | .numVfs => true
  | .msixMask fn vec => fnOk fn && vecOk vec

/-- A well-formed command. -/
def Instr.wf : Instr → Bool
  | .getPldmVersion _ ty => typeOk ty
  | .getPldmCommands _ ty => typeOk ty
  | .pldmUnsupportedCommand _ ty code => typeOk ty && codeOk code
  | .computeOpComplete _ _ _ devs rf => devs.all Dev.ok && rf.all ResFault.okEdge
  | .rowReadComplete _ _ _ flips => flips.all cellOk
  | .strokeStart _ _ ups => ups.all Upset.ok
  | .drainComplete _ _ rf => rf.all ResFault.okDrain
  | .add _ _ rf => rf.all ResAt.okVec
  | .sub _ _ rf => rf.all ResAt.okVec
  | .mul _ _ rf => rf.all ResAt.okVec
  | .fma _ _ rf => rf.all ResAt.okVec
  | .requant _ _ rf => rf.all ResAt.okVec
  | .rsum _ _ rf => rf.all ResAt.okVec
  | .rsumsq _ _ rf => rf.all ResAt.okVec
  | .mmMul _ _ rf => rf.all ResAt.okMat
  | .mmDrain _ _ rf => rf.all ResAt.okMat
  | .pop _ _ _ ups => ups.all Upset.ok
  | .scratchpadWriteMessage _ _ _ ms => linesOk ms
  | .weightRow _ _ _ ms => linesOk ms
  | .contextRequestArrival _ _ _ ms => linesOk ms
  | .attend _ _ _ _ ups => ups.all Upset.ok
  | .append _ _ _ _ ups => ups.all Upset.ok
  | .kvRead _ _ _ ups => ups.all Upset.ok
  | .kvWrite _ _ _ ups => ups.all Upset.ok
  | .spillRead _ _ _ ups => ups.all Upset.ok
  | .fwRead _ _ _ ups => ups.all Upset.ok
  | .pageCopy _ _ _ ups => ups.all Upset.ok
  | .submit _ fn slot dma => slotOk fn slot && dma.ok
  | .cancel _ fn slot => slotOk fn slot
  | .prefixKeep _ fn slot => slotOk fn slot
  | .prefixDrop _ fn slot => slotOk fn slot
  | .resultMessage _ ms => linesOk ms
  | .deadlineExpiry _ fn _ => fnOk fn
  | .weightsInstallNonce _ fn slot => slotOk fn slot
  | .weightsInstallWrite _ fn slot auth img => slotOk fn slot && auth.ok && img.ok
  | .weightsInstallErase _ fn slot auth => slotOk fn slot && auth.ok
  | .weightsSelect _ fn slot => slotOk fn slot
  | .weightsDigest _ fn slot => slotOk fn slot
  | .nakFlit _ _ _ _ vc _ => vcOk vc
  | .idleFlit _ _ f => f.ok
  | .dataFlit _ _ f => f.ok
  | .mgmtFlit _ _ f => f.ok
  | .fabricEgressMessage _ _ ms => linesOk ms
  | .functionLevelReset _ fn => fnOk fn
  | .d3hotEntry _ fn => fnOk fn
  | .commandPost _ fn slot off b => slotOk fn slot && bytesOk off b
  | .tlpReceive _ fn _ x => fnOk fn && x.ok
  | .ideKSetGo _ fn => fnOk fn
  | .ideKSetStop _ fn => fnOk fn
  | .deviceInfo _ fn slot => slotOk fn slot
  | .configLoad _ fn slot dma => slotOk fn slot && dma.ok
  | .configCommit _ fn slot => slotOk fn slot
  | .planLoad _ fn slot dma => slotOk fn slot && dma.ok
  | .planUnload _ fn slot => slotOk fn slot
  | .planStart _ fn slot => slotOk fn slot
  | .planStop _ fn slot => slotOk fn slot
  | .sessionOpenHost _ fn slot => slotOk fn slot
  | .sessionOpenLeader _ fn slot => slotOk fn slot
  | .sessionOpenFollower _ fn slot => slotOk fn slot
  | .sessionCloseHost _ fn slot => slotOk fn slot
  | .sessionCloseFabric _ fn slot => slotOk fn slot
  | .counters _ fn slot => slotOk fn slot
  | .snagRead _ fn slot => slotOk fn slot
  | .attest _ fn slot => slotOk fn slot
  | .attestCert _ fn slot => slotOk fn slot
  | .fence _ fn slot => slotOk fn slot
  | .fenceRouter _ fn slot => slotOk fn slot
  | .unfence _ fn slot => slotOk fn slot
  | .resetCompute _ fn slot => slotOk fn slot
  | .expertEnable _ fn slot => slotOk fn slot
  | .computeResetDone _ skims => (skims.all fun e => panelOk e.1)
  | .weightRedigestDone _ bad => (bad.all fun e => panelOk e.1)
  | .powerWindow _ leaves => leavesOk leaves
  | .registerWrite _ a _ => a.ok
  | .msixVectorUnmask _ fn vec => fnOk fn && vecOk vec
  | .inputPowerOn .. | .inputPowerLoss .. | .supplyWarningAssert .. | .supplyWarningRelease .. | .sagHoldExpiry .. | .resetThreshold .. |
    .resetThresholdRelease .. | .overvoltageCut .. | .overvoltageRelease .. | .overcurrentCut .. | .modRstNAssert .. |
    .modRstNRelease .. | .stage1InRegulation .. | .stage2InRegulation .. | .stage3GroupInRegulation .. | .railFault .. |
    .railRampTimeout .. | .vauxFault .. | .thermalTrip .. | .sagThrottleWrite .. | .ctlPwrLeafVsetWrite .. | .vsetCommit .. |
    .vsetRampDone .. | .getTid .. | .getPldmTypes .. | .pldmFirmwareUpdate .. | .setCoords .. | .getCoords .. | .getPowerStatus .. |
    .sidebandSnagRead .. | .getPrimerStatus .. | .primerVerifyDone .. | .configReadDone .. | .d2dLinkTrainingDone .. |
    .hbmStackTrainingDone .. | .startupCalibrationDone .. | .readyEntry .. | .panelOpStart .. | .skimComplete .. | .rowAccessStart .. |
    .rowWriteCommit .. | .pnlCntClr .. | .pnlWitMismatchClear .. | .pnlWinDataClear .. | .pnlLiveWrite .. |
    .scratchpadAccessesComplete .. | .segmentWakeDone .. | .segmentSleep .. | .max .. | .min .. | .cvt .. | .relu .. | .exp .. |
    .recip .. | .rsqrt .. | .gelu .. | .silu .. | .rmax .. | .mmLoadb .. | .send .. | .recv .. | .push .. | .copy .. | .flagsend .. |
    .faultWindowClose .. | .mgmtAccessServe .. | .baySpDataAccess .. | .bayCntClr .. | .bayFlagsWrite .. | .baySegCtrlWrite .. |
    .bayAllocInvalidate .. | .bayStrokeCntRead .. | .flagSetMessage .. | .stepRelease .. | .swapArm .. | .swapFlip .. | .auditArm .. |
    .mgmtQueuePush .. | .scratchpadReadMessage .. | .rowReadback .. | .dataLineAccept .. | .lineForward .. | .linkCrcFail .. |
    .rtrHardFenceWrite .. | .rtrLocalCloseWrite .. | .rtrCntClr .. | .commitSet .. | .spillWrite .. | .fwWrite .. | .pageZero .. |
    .refreshDue .. | .forcedRefresh .. | .arbStarve .. | .ctxPoolPush .. | .ctxCntClr .. | .ctxStarveCapClear .. | .stepDoneNotice .. |
    .schedulingPoint .. | .installNonceExpiry .. | .panelDoneNotice .. | .storeReadError .. | .storeDeviceFail .. |
    .portTrainingDone .. | .linkIdFlit .. | .widthFlit .. | .fabricReplayTimeout .. | .portAutoRetrain .. | .laneBad .. |
    .widthChangeDone .. | .controlFlitRepeat .. | .genNotice .. | .genNoticeTimer .. | .stepOrder .. | .stepReport .. | .stepAbort .. |
    .peerTimeoutExpiry .. | .keyRequest .. | .keyGrant .. | .keyAck .. | .keyRequestResend .. | .sessionSetupTimeout .. |
    .fabPortRelease .. | .fabPortRetrain .. | .fabPortCntClr .. | .fabCntClr .. | .endpointReset .. | .vfDisable .. | .ideKeyProg .. |
    .mbCntClr .. | .keepCntClr .. | .entropyHealthFail .. | .entropyRetest .. | .drbgReseed .. | .faultNotice .. | .auditSignature .. |
    .auditSignatureTimeout .. | .hangSample .. | .coreWatchdogExpiry .. | .quiesceDone .. | .hbmRetrainDone .. | .fabricRetrainDone .. |
    .resumeDone .. | .recoveryTimeout .. | .adcConversion .. | .adcCalPeriod .. | .hkSelfCal .. | .adcSelfCalDone .. |
    .ladderTrimTick .. | .ladderStepApply .. | .sensorReading .. | .sensorSilent .. | .skipHoldEnd .. | .tenantSnapshotWindow .. |
    .manualDivWrite .. | .hkXingCntClr .. | .pcieLinkUp .. | .mctpControlMessage .. | .planStartPeerTimeout .. |
    .doeSpdmRequest .. => true

end Sys2Proof
end

