-- ==== Sys2Proof/Tests/Slice0.lean ====
section
/-! SUPPORT. Tests. The well-formedness checks, each with a term it refuses; for every
statement with premises, concrete states and operands that meet the premises of its clauses; and small tests with values from the manual. -/

namespace Sys2Proof.Tests

set_option maxRecDepth 20000
set_option Elab.async false

open Sys2Proof.Machine

/-- A module in READY with every rail up, for the witnesses to vary. -/
def lit : State :=
  { mode := .ready, gen := 1
    pwr := { inputOn := true, underVolt := false, rstN := false, rails := (List.range 79).map fun r => (r, .up),
             stage1Up := true, stage2Req := true, stage2Up := true, groups := 8 }
    boot := { hbmUp := 0xFFF, hbmEnded := 0xFFF }
    host := { linkUp := true }
    keep := { identityOk := true, selftestOk := true, entropyOk := true, unsealed := true } }

def lit.panel0 (x : Panel) : State := { lit with panels := [(0, x)] }
def lit.both (y : Bay) (x : Panel) : State := { lit with bays := [(0, y)], panels := [(0, x)] }

/-- A control message of the bay reaches CTL, as a computation; and a message of Novko's the bay. -/
def hears (s : State) (b : Nat) : Bool :=
  match s.homeOf b with
  | some x => !s.localClosed b && (walk 256 b (novkoHdr x.up 2 s.gen)).any fun l => (s.sinkOn l).isNone
  | none => false

def tells (s : State) (b vc : Nat) : Bool :=
  match s.homeOf b with
  | some x => s.attachUp x.att && (walk 256 (ctlRouter x.att) (novkoHdr x.down vc s.gen)).any fun l => (s.sinkOn l).isNone
  | none => false

theorem heard_of {s : State} {b : Nat} (h : hears s b = true) : s.heard b := by
  unfold hears at h
  split at h
  · simp only [Bool.and_eq_true, Bool.not_eq_true', Option.any_eq_true, Option.isNone_iff_eq_none] at h
    obtain ⟨h1, l, h2, h3⟩ := h
    exact ⟨_, l, ‹_›, h1, h2, h3⟩
  · cases h

theorem told_of {s : State} {b vc : Nat} (h : tells s b vc = true) : s.told b vc := by
  unfold tells at h
  split at h
  · simp only [Bool.and_eq_true, Option.any_eq_true, Option.isNone_iff_eq_none] at h
    obtain ⟨h1, l, h2, h3⟩ := h
    exact ⟨_, l, ‹_›, h1, h2, h3⟩
  · cases h

theorem witness_paths : lit.heard 0 ∧ lit.heard 1151 ∧ lit.told 0 2 ∧ lit.told 1151 2 ∧ lit.told 0 3 ∧ lit.told 1151 3 := by
  and_intros <;> first | exact heard_of (by decide +kernel) | exact told_of (by decide +kernel)

/-! ### Well-formedness: a term that each check refuses -/

theorem refused_functions : (Instr.deadlineExpiry 0 1025 0).wf = false ∧ (Instr.cancel 0 0 4).wf = false ∧ (Instr.cancel 0 1025 0).wf = false ∧
    (Instr.msixVectorUnmask 0 0 64).wf = false ∧ (Instr.functionLevelReset 0 1025).wf = false := by decide

theorem refused_bytes : (Instr.commandPost 0 0 0 0 []).wf = false ∧ (Instr.commandPost 0 0 0 4095 [0, 0]).wf = false := by decide

theorem refused_reads : (Instr.submit 0 0 0 (.fail 4)).wf = false ∧ (Instr.weightsInstallErase 0 0 0 (.fail 4)).wf = false := by decide

theorem refused_pldm : (Instr.getPldmVersion 0 64).wf = false ∧ (Instr.pldmUnsupportedCommand 0 0 256).wf = false := by decide

theorem refused_panels : (Instr.computeOpComplete 0 0 0 [{ plane := 16, seg := 0, col := 0, off := 1 }] []).wf = false ∧
    (Instr.computeOpComplete 0 0 0 [{ plane := 0, seg := 4, col := 0, off := 1 }] []).wf = false ∧
    (Instr.computeOpComplete 0 0 0 [{ plane := 0, seg := 0, col := 1136, off := 1 }] []).wf = false ∧
    (Instr.rowReadComplete 0 0 0 [1136]).wf = false ∧ (Instr.computeResetDone 0 [(36864, 0)]).wf = false := by decide

theorem refused_lines : (Instr.scratchpadWriteMessage 0 0 0 []).wf = false ∧ (Instr.nakFlit 0 0 0 0 4 0).wf = false ∧
    (Instr.dataFlit 0 0 { credit := [] }).wf = false ∧ (Instr.powerWindow 0 []).wf = false := by decide

theorem refused_registers : (Instr.registerWrite 0 (.bar0 2) 0).wf = false ∧ (Instr.registerWrite 0 (.bar0 0x4000000) 0).wf = false ∧
    (Instr.registerWrite 0 (.busMaster 1025) 0).wf = false ∧ (Instr.registerWrite 0 (.msixMask 0 64) 0).wf = false ∧
    (Instr.tlpReceive 0 0 false (.slotRead false 4 0 0)).wf = false ∧ (Instr.tlpReceive 0 0 false (.regRead 2)).wf = false ∧
    (Instr.tlpReceive 0 0 false (.malformed 32 0 0)).wf = false ∧ (Instr.tlpReceive 0 0 false (.slotWrite 0 4096 [0])).wf = false := by decide

/-! ### Power, sideband, boot and sensing -/

theorem witness_InputAndResetCauses : State.reset.pwr.inputOn = false ∧ lit.pwr.vauxUp = true ∧ lit.pwr.resetAsserted = false ∧
    lit.comparatorArmed 0 = true ∧ lit.comparatorArmed 31 = true ∧
    ({ lit with now := 1, pwr := { lit.pwr with rstN := true } } : State).pwr.resetAsserted = true ∧
    ({ lit with now := 1, pwr := { lit.pwr with rstN := true } } : State).pwr.offAt < max 1 0 := by decide +kernel

theorem witness_ReleasesAndStages :
    let a : Power := { inputOn := true, underVolt := false }
    let b : Power := { inputOn := true, underVolt := false, rstN := false }
    a.vauxUp = true ∧ a.rstN = true ∧ a.rails = [] ∧ a.stage1Up = false ∧ b.resetAsserted = false ∧ b.stage1Up = false ∧
    ({ lit.pwr with stage2Up := false } : Power).stage2Req = true ∧ lit.pwr.vinWarn = false ∧ ({ lit.pwr with groups := 7 } : Power).groups < 8 ∧
    mget 0 lit.pwr.rampAt 28 ≤ max lit.now 0 ∧ ¬ mget 0 (mset 0 lit.pwr.rampAt 28 7) 28 ≤ max lit.now 6 ∧
    mget .off lit.pwr.rails 0 ∈ [Rail.off, .wait, .ramp, .up] ∧
    ({ lit.pwr with vinWarn := true } : Power).vinWarn = true := by decide +kernel

theorem witness_SupplyWarning : lit.pwr.vauxUp = true ∧ lit.pwr.vinWarn = false ∧ lit.pwr.stage1Up = true ∧
    ({ lit.pwr with vinWarn := true } : Power).vauxUp = true ∧ ({ lit.pwr with vinWarn := true, sagHold := true } : Power).sagHold = true ∧
    lit.pwr.warnOff + 10000000 ≤ max lit.now 10000000 ∧ ¬ lit.pwr.warnOff + 10000000 ≤ max lit.now 9999999 := by decide +kernel

theorem witness_RailFault :
    let ramps (r at_ : Nat) : Power := { lit.pwr with rails := mset .off lit.pwr.rails r .ramp, rampAt := mset 0 lit.pwr.rampAt r at_ }
    mget .off lit.pwr.rails 74 = .up ∧ mget .off lit.pwr.rails 73 = .up ∧ mget .off lit.pwr.rails 78 = .up ∧
    lit.pwr.resetAsserted = false ∧ mget .off State.reset.pwr.rails 0 = .off ∧
    (∀ r ∈ [0, 73, 74, 78], mget .off (ramps r 5).rails r = .ramp ∧ mget 0 (ramps r 5).rampAt r ≤ 5 ∧
      mget 0 (ramps r 5).rampAt r + 5000000 ≤ max lit.now 5000005 ∧ ¬ mget 0 (ramps r 5).rampAt r + 5000000 ≤ max lit.now 5000004 ∧
      ¬ mget 0 (ramps r 5).rampAt r ≤ max lit.now 4) := by decide +kernel

def heldPrimed : State :=
  { lit with mode := .primed
             boot := { hold := some { cause := 5, alg := 0, bankA := 1, bankB := 1, minSvn := 0, keepBits := 0 } } }

theorem witness_NovkoAndPrimer : lit.novkoUp = true ∧ lit.boot.hold = none ∧ 0 ∈ pldmTypes ∧ 1 ∉ pldmTypes ∧ 0 ∉ pldmCodes 0 ∧ 2 ∈ pldmCodes 0 ∧
    heldPrimed.boot.hold.isSome = true ∧ heldPrimed.novkoUp = false ∧ lit.flash.active = 0 ∧
    ({ lit.flash with active := 1 } : Flash).active = 1 := by decide +kernel

def record (rack slot : Nat) : List Byte := leBytes 2 rack ++ leBytes 1 slot ++ [0] ++ (List.range 16).map (BitVec.ofNat 8 ·)

theorem witness_SetCoords : lit.novkoUp = true ∧ (record 1023 63).length = 20 ∧ (parseCoords (record 1023 63)).valid = true ∧
    (parseCoords (record 1024 63)).valid = false ∧ (parseCoords (record 1023 64)).valid = false ∧ ([] : List Byte).length ≠ 20 ∧
    lit.fab.coords ≠ some (parseCoords (record 1023 63)) ∧
    ({ lit.fab with coords := some (parseCoords (record 1023 63)) } : Fabric).coords = some (parseCoords (record 1023 63)) := by decide +kernel

theorem witness_PrimerStarts : ({ lit with mode := .primed } : State).mode = .primed ∧ lit.boot.hold = none ∧ lit.resil.coresUp ≠ 0 ∧
    lit.flash.active < 2 := by decide +kernel

/-- A well-formed configuration image: header, two sections (settings and signature), settings in range (15 R415, R416). -/
def image : List Byte :=
  leBytes 4 0x47464E43 ++ leBytes 2 1 ++ leBytes 2 2 ++ leBytes 8 0 ++ leBytes 8 1856 ++ leBytes 2 0 ++ leBytes 1 3 ++ List.replicate 229 0 ++
  leBytes 4 1 ++ leBytes 4 256 ++ leBytes 8 320 ++ leBytes 4 15 ++ leBytes 4 1280 ++ leBytes 8 576 ++ List.replicate 32 0 ++
  List.replicate 32 30 ++ List.replicate 32 130 ++ leBytes 2 0xFFFF ++ leBytes 2 1024 ++ leBytes 2 256 ++ leBytes 1 10 ++ leBytes 1 0 ++
  leBytes 8 0 ++ leBytes 2 4096 ++ leBytes 1 110 ++ leBytes 1 109 ++ leBytes 1 0 ++ leBytes 3 0x010101 ++ List.replicate 168 0 ++
  List.replicate 1280 0

def configured (b : List Byte) : State :=
  { lit with mode := .awaitingConfig, nvm := { owners := [(0, some (7, []))] }
             flash := { slot1 := some { seq := 1, image := b, digest := 0, committed := true } } }

theorem witness_ConfigurationImage : (configured image).mode = .awaitingConfig ∧ lit.resil.coresUp ≠ 0 ∧ lit.curSlot = none ∧
    (configured image).curSlot = some (1, { seq := 1, image := image, digest := 0, committed := true }) ∧
    ((configured []).checkCfg [] true true).toOption.isSome = false := by decide +kernel

/-- A module that awaits coordinates, all else of 15 R419 done. -/
def trained : State :=
  { lit with
    mode := .awaitingCoords
    fab := { coords := some { rack := 0, slot := 0, planes := [] } }
    sense := { startCal := some { at_ := 0, bands := [], res := 0, exc := [] } }
    boot := { hbmUp := 0xFFF, hbmEnded := 0xFFF, portEnable := 0,
              d2d := ((List.range 4608).filter fun k => portD2d (k / 4) (k % 4) && linkKey (k / 4) (k % 4) == k).map (·, 1) } }

theorem witness_TrainingAndCalibration : lit.pwr.stage2Up = true ∧ portD2d 0 0 = true ∧ mget 0 lit.boot.d2d (linkKey 0 0) = 0 ∧
    State.reset.boot.hbmEnded.getLsbD 11 = false ∧ lit.pwr.groups = 8 ∧ lit.sense.startCal = none ∧ lit.plans = [] ∧
    lit.readyDue = false ∧ trained.readyDue = true ∧ trained.plans = [] := by decide +kernel

theorem witness_ConverterAndReference :
    let a : Sense := { scanning := true }
    let b : Sense := { calBusy := true, refState := 1 }
    max lit.now 999 < a.convAt + (if a.convLow then 4000 else 1000) ∧ a.convAt + (if a.convLow then 4000 else 1000) ≤ max lit.now 1000 ∧
    ¬ max lit.now 10000000000 < a.calAt + 1000000000 * a.calPeriod ∧
    a.scanning = true ∧ a.calBusy = false ∧ a.cur = 0 ∧ ({ a with cur := 31 } : Sense).cur = 31 ∧ lit.novkoUp = true ∧ a.calPeriod ≠ 0 ∧
    b.calBusy = true ∧ classifyRef 2500 = b.refState ∧ lit.resil.coresUp ≠ 0 ∧ lit.mode = .ready ∧ (16 : Int).natAbs ≤ 16 ∧ (-300 : Int).natAbs ≤ 300 ∧
    (2 : Nat) ≠ b.refState := by decide +kernel

def skims : Panel := { op := some { w2 := 0, desc := 0, started := true } }

theorem witness_LadderTrims : lit.novkoUp = true ∧ (mget ({} : Ladder) lit.sense.ladders 15).trim.natAbs ≤ 127 ∧
    (mget ({} : Ladder) [(15, { trim := 127 })] 15).trim.natAbs ≤ 127 ∧ lit.sense.trimAt = none ∧
    ¬ (∀ a, ({ trimAt := some 1 } : Sense).trimAt = some a → a + 1000000000 ≤ 1000000000) ∧ ({ step := -1 } : Ladder).step ≠ 0 ∧ lit.skimRunning 0 = false ∧ (lit.panel0 skims).skimRunning 0 = true := by decide +kernel

theorem witness_SensorsAndThermalLevels : lit.sensorPowered 0 = true ∧ lit.sensorPowered 31 = true ∧ lit.sensorPowered 47 = true ∧
    (lit.sensor 0).broken = false ∧ lit.hottest (lit.substGroup 0) = none ∧ lit.hottest (lit.substGroup 47) = none ∧ (-320 : Int) ≤ -320 ∧
    (2240 : Int) ≤ 2240 ∧ (2240 : Int) < 2241 ∧ (lit.sensor 0).band ≤ 3 ∧
    (∀ a, (lit.sensor 47).at_ = some a → a + 100000 ≤ max lit.now 0) ∧ (∀ a, ({ at_ := some 0 } : Sensor).at_ = some a → a + 100000 ≤ 100000) ∧
    ¬ (∀ a, ({ at_ := some 0 } : Sensor).at_ = some a → a + 100000 ≤ 99999) ∧
    lit.sensorSince 47 + 1000000 ≤ max lit.now 1000000 ∧ ¬ lit.sensorSince 0 + 1000000 ≤ max lit.now 999999 := by decide +kernel

theorem witness_PowerWindows : lit.pwr.stage1Up = true ∧ (99 : Nat) ≤ ({ lit.snap with windows := 99 } : Snapshot).windows ∧
    max lit.sense.winAt lit.leftOff + 1000000 ≤ max lit.now 1000000 ∧ max lit.now 999999 < max lit.sense.winAt lit.leftOff + 1000000 ∧
    (lit.leaf 31).manual = 0 ∧ (lit.bay 0).holdTill ≤ max lit.now 0 ∧ ¬ ({ holdTill := 10000 } : Bay).holdTill ≤ max lit.now 9999 := by decide +kernel

/-! ### Panels and bays -/

/-- A compute of every band on bank A, exact, eight planes, signed eight-bit input; and a stroke in flight that issued it. -/
def op8 : PanelOp := { w2 := 0x7F89, desc := 0x17 }
def run0 : Running := { word := 0, panels := [0], sp := true }
def flying (r : Running) : Bay := { seq := { running := true, prog := some 0, cur := some r, strokes := [r.word] } }
def issued (x : Panel) : State := { lit.both (flying run0) x with sense := { temps := [(0, { seen := true })] } }
def blind (x : Panel) : State := lit.both (flying run0) x
/-- A stroke that writes a row of panel 0 from lines 0 and 1. -/
def rowWord : BitVec 256 := BitVec.ofNat 256 (2 ^ 32 + 3 * 2 ^ 64)
def fresh : SMap (Option Trim) := [(0, some { res := 0, cur := some 0 })]

theorem witness_PanelOperations :
    let w : RowAcc := { bank := .a, row := 0, data := none, src := .stroke }
    let done := { op8 with started := true }
    (issued { op := some op8, rowCur := some (0, w) }).leafBand (leafOf 0) = some 0 ∧ op8.compute = true ∧ panelSegs op8.w2 ≠ none ∧
    ({ rowCur := some (0, w) } : Panel).resolve (bankSel (fld op8.w2 2 2)) = 0 ∧
    (issued { op := some op8 }).skimDue 0 0 false = true ∧ (issued { op := some op8, trims := fresh }).skimDue 0 0 false = false ∧
    ({ op8 with w2 := 0 } : PanelOp).compute = false ∧ ({ op8 with w2 := 1 } : PanelOp).compute = true ∧ panelSegs 1 = none ∧
    max (issued {}).now 5 < (mget ({} : Ladder) [(0, { settled := 6 })] 0).settled ∧ ¬ max (issued {}).now 5 < (mget ({} : Ladder) (issued {}).sense.ladders 0).settled ∧
    run0.sp = true ∧ ((issued {}).bay 0).seq.cur = some run0 ∧ (blind { op := some op8 }).leafBand (leafOf 0) = none ∧
    ((issued {}).bay 0).waking (panelAccesses ((issued {}).bay 0).seq run0.word) = false ∧
    ({ flying run0 with segs := [(0, { waking := true })] } : Bay).waking (panelAccesses (flying run0).seq rowWord) = true ∧
    op8.started = false ∧ op8.skimming = false ∧
    (issued { op := some done }).panel (pkey 0 0) = { op := some done } ∧ done.started = true ∧
    ({ op := some done, trimSet := some 0 } : Panel).trimSet = some 0 ∧ ({ op8 with skimming := true } : PanelOp).skimming = true := by decide +kernel

theorem witness_ExactBands : ({ op8 with exactBands := 15 } : PanelOp).w2.getLsbD 4 = false ∧
    ({ op8 with exactBands := 15 } : PanelOp).exactBands.getLsbD 3 = true ∧ 1023 < 1024 := by decide +kernel

theorem witness_ExactOperation :
    let o : PanelOp := { op8 with started := true, exactBands := 15, inp := List.replicate 1024 255 }
    let s := issued { op := some o }
    (s.panel (pkey 0 0)).op = some o ∧ o.compute = true ∧ (s.bay 0).seq.cur = some run0 ∧ run0.sp = true ∧ panelSegs o.w2 ≠ none ∧
    o.w2.getLsbD 4 = false ∧ o.w2.getLsbD 17 = false ∧ o.exactBands = BitVec.ofNat 4 (fld o.w2 7 4) ∧ Fmt.ofDesc o.desc = .int 8 true ∧
    o.inp.length = 1024 := by decide +kernel

theorem witness_RowPort :
    let rd (src : RowFrom) (d : Option (BitVec 1024)) : RowAcc := { bank := .b, row := 1023, data := d, src := src }
    let x (a : RowAcc) : Panel := { cells := [(2047, some (cellsOf 7))], rowCur := some (1, a) }
    (issued { rowQ := [rd .stroke none] }).panel (pkey 0 0) = { rowQ := [rd .stroke none] } ∧
    ((issued {}).bay 0).waking (panelAccesses ((issued {}).bay 0).seq run0.word) = false ∧
    (x (rd .stroke (some 0))).rowCur = some (1, rd .stroke (some 0)) ∧ (x (rd (.message true) (some 0))).rowCur.isSome = true ∧
    ((issued (x (rd .stroke none))).bay 0).seq.cur = some run0 ∧ run0.sp = true ∧
    (issued (x (rd .stroke none))).rowOf (pkey 0 0) 1 1023 = cellsOf 7 := by decide +kernel

theorem witness_PanelRegisters : ({ winSel := 0x23 } : Panel).winSel.toNat < 0x24 ∧ (lit.bay 0).atBoundary = true ∧
    ((issued {}).bay 0).atBoundary = false := by decide +kernel

/-- A bay with a program of one stroke that waits for flag 0. -/
def ready (w : BitVec 256) (flags : BitVec 256) (first : Nat) : Bay :=
  { flags := flags, flagFirst := first, flagLast := 255, queueLast := 31, holds := [(9, 1)]
    seq := { running := true, prog := some 0, strokes := [w] } }

theorem witness_StrokesStart :
    let w : BitVec 256 := 0x0100
    let h : BitVec 256 := 0x0100 ||| BitVec.ofNat 256 (2 ^ 227 + 9 * 2 ^ 240)
    let y := ready w 1 0
    y.seq.prog = some 0 ∧ y.seq.running = true ∧ y.seq.halted = false ∧ y.seq.cur = none ∧ y.skipHold = false ∧ y.seq.strokes[y.seq.pc]? = some w ∧
    stAudit w = false ∧ stAudit h = false ∧ (ready w 1 1).outOfBounds w = some (0, 0) ∧ (ready w 1 1).seq.stop = false ∧ lit.plans = [] ∧
    y.outOfBounds w = none ∧ (stWaits w).all (ready w 0 0).flag = false ∧ (stWaits w).all y.flag = true ∧ y.held w = false ∧
    (ready h 1 0).outOfBounds h = none ∧ (stWaits h).all (ready h 1 0).flag = true ∧ (ready h 1 0).held h = true ∧
    stKind w = 0 ∧ stKind (1 ||| 2 ^ 64) = 1 := by decide +kernel

theorem witness_StrokesEnd :
    let w : BitVec 256 := 0x01050000
    let r : Running := { word := w, sp := true }
    let acc (r : Running) : List Access := servedOrder (flying r).seq r.word (lit.xferLink 0)
    let clean (r : Running) : Bool := (acc r).all fun a => decide (a.line < 6144) && r.segs.getLsbD (segOf a.line) &&
      !(mget ({} : Seg) (flying r).segs (segOf a.line)).waking && (a.write || (r.raw a.line).flips == 0)
    clean r = true ∧ (flying r).waking (acc r) = false ∧ (flying r).waking (drainAccesses (flying r).seq r.word) = false ∧
    ({ flying run0 with segs := [(0, { waking := true })] } : Bay).waking (servedOrder (flying run0).seq rowWord (lit.xferLink 0)) = true ∧ ({ r with sp := false, rows := [0] } : Running).complete = false ∧ ({ r with drain := some [] } : Running).drain = some [] ∧
    ({ r with sp := false } : Running).complete = true ∧ r.crc = none ∧ stEnd r.word = false ∧ sw r.word 6 24 4 = 0 ∧
    (stSets r.word).all (fun f => decide (f < 256) && !(flying r).flag f) = true ∧ (stSets r.word).Nodup ∧ stSets r.word = [5] ∧
    (flying r).lineOn 6143 = true ∧ ({ client := 7, line := 6143, data := 1 } : SpWrite).client < 8 := by decide +kernel

theorem witness_BaySegments :
    let g : Gather := { at_ := 0, kinds := 1, panels := 1, cnt := 0 }
    let rd : Bay := { budget := 1, mgmt := [.spRead], spAddr := 0x5FFFC }
    (mget ({} : Seg) ({ segs := [(3, { waking := true })] } : Bay).segs 3).waking = true ∧
    (mget ({} : Seg) ({ segs := [(3, { goal := some .off })] } : Bay).segs 3).goal = some .off ∧ lit.bay 0 = {} ∧ ({} : Bay).seq.cur = none ∧
    ({ det := some g } : Bay).det = some g ∧ max lit.now 999 < g.at_ + gatherNs ∧ g.at_ + gatherNs ≤ max lit.now 1000 ∧
    rd.seq.cur = none ∧ rd.flipsDue = 0 ∧ rd.budgetStg = none ∧ rd.autoIncStg = none ∧ rd.spAddrStg = none ∧ rd.spByte / 64 = 6143 ∧
    (rd.line 6143).flips = 0 ∧ rd.lineOn 6143 = true ∧ (mget ({} : Seg) rd.segs (segOf 6143)).waking = false ∧ (flying run0).seq.running = true ∧
    (mget ({} : Seg) (flying run0).segs 3).mode ≠ segModeOf (fld (0x40 : Word) 6 2) ∧ ({} : Bay).seq.running = false ∧
    (mget ({} : Seg) ({} : Bay).segs 3).goal = none ∧ ({ flying run0 with allocValid := true } : Bay).allocValid = true := by decide +kernel

/-- A line of the current generation, of this VC, kind and stream. -/
def msg (vc kind stream gen data : Nat) : MLine :=
  { hdr := BitVec.ofNat 64 (vc + 4 * kind + gen * 2 ^ 34 + stream * 2 ^ 42), line := { data := BitVec.ofNat 512 data } }

def formed (stream : Nat) (l : List MLine) : Bool :=
  l.all fun m => hKind m.hdr == 0 && hStream m.hdr == stream && decide (2 ≤ hVc m.hdr) && hGen m.hdr == lit.gen

theorem witness_MessagesReach :
    let w := msg 3 0 0xF20 1 (6142 + 2 * 2 ^ 16)
    let r := msg 2 0 0xF21 1 (6142 + 2 * 2 ^ 16)
    let b := msg 2 0 0xFE1 1 (31 + 2 ^ 8 + 1023 * 2 ^ 16)
    let k := msg 2 0 0xFE0 1 (31 + 1023 * 2 ^ 16)
    let full : Queue := { items := List.replicate 16 {} }
    let got : Bay := { seq := { routes := [2 ||| BitVec.ofNat 64 (0xEFF * 2 ^ 37 + 3 * 2 ^ 57)] } }
    let y : Bay := { budget := 1, mgmt := [.write 6143 { data := 1 }] }
    lit.localClosed 0 = false ∧ lit.heldInReset = false ∧ (mget ({} : Seg) y.segs (segOf 6143)).waking = false ∧ formed 0xF20 [w, w, w] = true ∧ headBytes w 0 2 = 6142 ∧ headBytes w 2 2 = 2 ∧ headBytes w 4 60 = 0 ∧
    formed 0xF21 [r] = true ∧ headBytes r 0 2 + 2 ≤ 6144 ∧ headBytes r 2 2 = 2 ∧ headBytes r 4 4 = 0 ∧ headBytes r 16 48 = 0 ∧
    formed 0xFE1 [b] = true ∧ headBytes b 0 1 < 32 ∧ headBytes b 1 1 < 2 ∧ headBytes b 2 2 < 1024 ∧ headBytes b 4 4 = 0 ∧ headBytes b 16 48 = 0 ∧
    formed 0xFE0 [k, k, k] = true ∧ headBytes k 4 60 = 0 ∧ k.line.flips = 0 ∧
    y.seq.cur = none ∧ y.seq.running = false ∧ y.flipsDue = 0 ∧ y.budgetStg = none ∧ y.autoIncStg = none ∧ y.spAddrStg = none ∧ y.lineOn 6143 = true ∧
    mget none (lit.rtr 0).localIn 2 = none ∧ formed 0xF1F [msg 2 0 0xF1F 1 0] = true ∧ (({} : Bay).queue 31).items.length < 16 ∧
    16 + (({ lit.both { queues := [(31, full)] } {} with now := 0 } : State).tick 0).popsNow 0 31 ≤ (({ queues := [(31, full)] } : Bay).queue 31).items.length ∧ hKind (msg 0 1 255 1 0).hdr = 1 ∧ hStream (msg 0 1 255 1 0).hdr < 256 ∧
    hKind (msg 3 0 0xEFF 1 0).hdr = 0 ∧ hStream (msg 3 0 0xEFF 1 0).hdr < 0xF00 ∧ got.seq.receives 0xEFF 3 = true ∧
    (mget [] got.eject 3).length < 8 := by decide +kernel

theorem witness_BaysDropStale :
    let stale (m : MLine) : Bool := hGen m.hdr != lit.gen
    lit.localClosed 0 = false ∧ lit.heldInReset = false ∧ stale (msg 3 0 0xEFF 0 0) = true ∧ mget none (lit.rtr 0).localIn 3 = none ∧ hKind (msg 0 1 9 2 0).hdr = 1 ∧
    stale (msg 0 1 9 2 0) = true ∧ stale (msg 2 0 0xF00 2 0) = true ∧ hStream (msg 2 0 0xF00 2 0).hdr = 0xF00 ∧
    hStream (msg 2 0 0xF1F 2 0).hdr = 0xF1F ∧ stale (msg 2 0 0xF20 2 0) = true ∧ hStream (msg 2 0 0xF20 2 0).hdr = 0xF20 ∧
    stale (msg 2 0 0xFE0 2 0) = true ∧ stale (msg 3 0 0xF21 2 0) = true ∧ stale (msg 3 0 0xFE1 2 0) = true ∧ hVc (msg 2 0 0xF20 2 0).hdr = 2 ∧
    (2 : BitVec 8) ≠ lit.gen ∧ lit.novkoUp = true := by decide +kernel

theorem witness_ControlMessages :
    let y : Bay := { seq := { running := true, entries := [0, 0xFFFF] } }
    let z : Bay := { seq := { running := true, prog := some 0, held := some (1, [], 1) } }
    lit.localClosed 0 = false ∧ lit.heldInReset = false ∧ y.seq.running = true ∧ y.seq.halted = false ∧ y.seq.prog = none ∧ y.seq.entries.getD 0 0xFFFF ≠ 0xFFFF ∧
    (flying run0).seq.prog = some 0 ∧ (flying run0).seq.held = none ∧ z.seq.held.isSome = true ∧ lit.novkoUp = true ∧
    (lit.bay 0).seq.running = false ∧ (flying run0).seq.cur.isSome = true ∧ y.seq.cur = none ∧ y.flipsDue = 0 ∧
    (lit.panel 31).stg = {} := by decide +kernel

/-! ### Vector and matrix units, transfers and the mesh -/

/-- Bay 0 with an open operation of this unit and code on tensors of one format. -/
def unitRun (unit : Nat) : Running := { word := BitVec.ofNat 256 (unit * 2 ^ 172), unit := true, sp := true }
def opOf (code : Nat) : BitVec 128 := BitVec.ofNat 128 code
def unitState (unit code fmt : Nat) (mmB : List Nat) : State :=
  lit.both { mmB := mmB, seq := { running := true, prog := some 0, ops := [opOf code], tensors := [BitVec.ofNat 64 fmt],
                                  cur := some (unitRun unit) } } {}

/-- The operation of the unit is open and every tensor it names has the format. -/
def opens (unit code fmt : Nat) (f : Fmt) : Prop :=
  (unitState unit code fmt []).unitOpen 0 unit code (unitRun unit) (opOf code) ∧ opBKind (opOf code) = 0 ∧
    teFmt (BitVec.ofNat 64 fmt) = f ∧ descSr (teDesc (BitVec.ofNat 64 fmt)) = false

theorem witness_IntegerVector : ∀ c ∈ [1, 2, 3, 5, 6, 8, 9, 7], opens 1 c 12 .i32 := by
  simp only [opens, State.unitOpen]; decide +kernel

theorem witness_FloatVector : ∀ c ∈ [4, 0xA, 0xB, 0xC, 0xD, 0xE], opens 1 c 11 .f32 := by
  simp only [opens, State.unitOpen]; decide +kernel

theorem witness_Reductions : (∀ c ∈ [0x10, 0x11], opens 1 c 12 .i32 ∧ (opOf c).getLsbD 22 = false) ∧ opens 1 0x12 11 .f32 ∧
    opens 1 (0x10) 12 .i32 ∧ opCode (opOf (0x10 + 2 ^ 22)) = 0x10 ∧ (opOf (0x10 + 2 ^ 22)).getLsbD 22 = true := by
  simp only [opens, State.unitOpen]; decide +kernel

theorem witness_MatrixUnit : opens 2 0x40 0x17 (.int 8 true) ∧ opens 2 0x41 7 (.int 8 false) ∧ opens 2 0x42 12 .i32 ∧
    ((unitState 2 0x41 7 (List.replicate 4096 0)).bay 0).mmB.length = 4096 ∧ ((unitState 2 0x41 7 []).bay 0).mmFloat = false := by
  simp only [opens, State.unitOpen]; decide +kernel

def moving (w : BitVec 64) : Running := { word := 0, sp := true, xfers := [{ word := w }] }
def routed (r : Router) : State := { lit with bays := [(0, flying (moving 0))], rtrs := [(0, r)] }

theorem witness_TransferRecords :
    let x (kind : Nat) : Xfer := { word := BitVec.ofNat 64 (kind + 255 * 2 ^ 12 + (if kind = 1 then 2 ^ 11 else 0)) }
    (∀ k ∈ List.range 6, ((flying (moving (x k).word)).seq.cur = some (moving (x k).word)) ∧ xKind (x k).word = k ∧
      (x k).moved ≤ xLines (x k).word ∧ (x k).finished = false ∧ (moving (x k).word).xfers[0]? = some (x k) ∧
      (moving (x k).word).vcBusy 0 (xVc (x k).word) = false) ∧ xToQueue (x 1).word = true ∧ xToQueue (1 : BitVec 64) = false ∧
    (flying (moving (x 0).word)).waking (xferAccesses (x 0).word) = false ∧
    ({ flying (moving (x 0).word) with segs := [(0, { waking := true })] } : Bay).waking (xferAccesses (x 0).word) = true ∧
    (routed {}).localClosed 0 = false ∧ ((lit.rtr 0).buf 4 0).length < 4 ∧ 0 < 4 - ((lit.rtr 0).buf 4 0).length ∧ (routed { localClose := true }).localClosed 0 = true ∧
    (({} : Bay).queue 31).items.length ≤ 16 ∧ (({} : Bay).queue 31).items = [] := by decide +kernel

theorem witness_Headers : rtType (0 : BitVec 64) ≠ 1 ∧ 3 < 4 ∧ 4095 < 4096 := by decide +kernel

theorem witness_UnicastSteps : hMcast (0 : BitVec 64) = false ∧ hWp (0x80 : BitVec 64) = true ∧ hWpr (markWaypoint 1 0x80) = false ∧
    hWpr (markWaypoint 0 0x80) = true ∧ meshX 0 = hDx (0 : BitVec 64) ∧ meshY 0 = hDy (0 : BitVec 64) ∧ hDy (0 : BitVec 64) ≤ 35 := by decide +kernel

def eastbound : MLine := { hdr := BitVec.ofNat 64 (16 + 2 ^ 9 + 2 ^ 34), line := {} }
def sending : Router := { bufs := [(16, [(0, eastbound)])] }

theorem witness_LinesMove :
    let s := { lit with rtrs := [(0, sending)] }
    s.rtrFenced 0 = false ∧ mget .off s.pwr.rails (32 + dieOf 0) = .up ∧ (s.tick 0).pickLine 0 4 = none ∧ (s.tick 9).pickLine 0 1 = some (4, 0, false) ∧
    (s.rtr 0).buf 4 0 = [(0, eastbound)] ∧ s.badHeader 0 eastbound.hdr = false ∧ hMcast eastbound.hdr = false ∧ hVc eastbound.hdr = 0 ∧
    mget none (s.rtr 0).replay 1 = none ∧ nbr 0 1 = .router 1 ∧ s.isSink 0 1 = false := by decide +kernel

theorem witness_RoutersClose : (lit.rtr 0).hardFenced = false ∧ lit.plans = [] ∧ lit.mode = .ready ∧ lit.resil.coresUp ≠ 0 ∧ lit.linkUp 0 1 = true ∧
    mget 0 (lit.rtr 0).fails 1 < (lit.rtr 0).retryLimit.toNat ∧
    (({ fails := [(1, 15)] } : Router).retryLimit.toNat ≤ mget 0 ({ fails := [(1, 15)] } : Router).fails 1) ∧ nbr 0 1 = .router 1 := by decide +kernel

/-! ### Context dies -/

/-- A request of this unit, VC and operation, with the rest of its header. -/
def creq (unit vc op : Nat) (rest : Nat := 0) (lines : List Line := []) : CtxReq :=
  { link := 0, vc := vc, gen := 1, unit := unit, hdr := BitVec.ofNat 512 (op + rest), lines := lines }

/-- Context die 0 in service, with a sequence of one page, a page in the ring, a plan with a page of spill area, and this request waiting. -/
def ctxState (unit : Nat) (r : CtxReq) : State :=
  { lit with
    boot := { lit.boot with d2d := [(4 * bayAt 0 0 + 3, 1)] }
    pages := [(0, BitVec.ofNat 32 (2 ^ 28 + 32768))]
    plans := [{ img := { id := 1, layout := { spill := 1 } }, map := some 0 }]
    ctx0 := { maps := [(0, { valid := true })], ring := [32769], queues := [(4 * unit + r.vc, [r])], tenants := [(0, { base := 32767, len := 8 })]
              seqs := [(0, { valid := true, heads := 1, layers := 1, jMax := 1, window := 8 })] } }

/-- The request is the unit's next, its die in service and its attach link open. -/
def waits (unit op : Nat) (r : CtxReq) : Prop := (ctxState unit r).nextOp 0 unit op r

theorem witness_ContextDie :
    let m (op unit gen : Nat) : MLine := { hdr := BitVec.ofNat 64 (gen * 2 ^ 34 + unit * 2 ^ 54), line := { data := BitVec.ofNat 512 op } }
    let s := ctxState 17 (creq 17 0 3)
    let r (m : MLine) : CtxReq := { link := 0, vc := hVc m.hdr, gen := hGen m.hdr, unit := hUnit m.hdr, hdr := m.line.data, lines := [] }
    mget [] s.edgeQ (64 * 17) = [] ∧ s.ctxInService 0 = true ∧ hKind (m 3 17 1).hdr = 0 ∧ (r (m 3 17 1)).fn < 19 ∧ hGen (m 3 17 1).hdr = s.gen ∧
    (r (m 3 17 1)).placed = true ∧ (r (m 3 17 1)).reservedOk = true ∧ s.ctxShapeOk 0 (r (m 3 17 1)) = true ∧ ((s.ctx 0).queue 17 0).length < 4 ∧
    hGen (m 3 17 2).hdr ≠ s.gen ∧ ((r (m 0xFF 18 1)).placed && (r (m 0xFF 18 1)).reservedOk && s.ctxShapeOk 0 (r (m 0xFF 18 1))) = false ∧
    s.rtrFenced (ctxLink 0 0).1 = false ∧ s.linkDown (ctxLink 0 0).1 (ctxLink 0 0).2 = false ∧ s.stackUp 0 5 = true ∧
    s.tRefi 0 = 3900 ∧ ({ s with sense := { temps := [(41, { val := 1440, band := 3 })] } } : State).tRefi 0 = 1950 ∧
    (∀ a, (({ chans := [(191, { refAt := some 0 })] } : CtxDie).chan 191).refAt = some a → a + 3900 ≤ 3900) ∧
    (({ chans := [(191, { due := 8 })] } : CtxDie).maxPostpone ≤ ((({ chans := [(191, { due := 8, at_ := 9 })] } : CtxDie).arbitrate 9).chan 191).due) ∧
    ((({ chans := [(191, { starved := [4 * 17 + 2], due := 1, at_ := 9 })] } : CtxDie).arbitrate 9).chan 191).starved.contains (4 * 17 + 2) = true ∧
    (s.ctx 0).arbStarve = false := by decide +kernel

theorem witness_SequenceRequests :
    let s := ctxState 0 (creq 0 0 1 (2 ^ 24 + 2 ^ 48))
    let a := creq 0 0 1 (2 ^ 24 + 2 ^ 48)
    let p := creq 0 0 2 (2 ^ 24)
    let kw := creq 16 0 0x11 (2 ^ 96) (List.replicate 4 {})
    waits 0 1 a ∧ waits 15 2 p ∧ waits 17 3 (creq 17 0 3 (9 * 2 ^ 64)) ∧ waits 16 0x10 (creq 16 1 0x10 (2 ^ 48 + 2 ^ 96)) ∧ waits 16 0x11 kw ∧
    (s.mapOf 0 a).valid = true ∧ (s.seqOf 0 0).valid = true ∧ (s.seqOf 0 0).fault = false ∧ (s.seqOf 0 0).format < 3 ∧ (s.seqOf 0 0).dsel < 3 ∧
    (s.seqOf 0 0).tenant < 8 ∧ a.vis = 1 ∧ a.vis ≤ (s.seqOf 0 0).window ∧ p.g = 1 ∧ p.g ≤ (s.ctx 0).ring.length ∧ kw.count = 1 ∧ kw.pos = 0 ∧
    kw.lines.length = (posBytes 0 (headDim 0) + 63) / 64 ∧ (s.mapOf 0 (creq 16 0 0x10 256)).valid = false ∧ waits 16 0x10 (creq 16 0 0x10 256) := by
  simp only [waits, State.nextOp]; decide +kernel

theorem witness_SequencePages : ∀ r ∈ [creq 0 0 1 (2 ^ 24 + 2 ^ 48), creq 0 0 2 (2 ^ 24), creq 16 0 0x11 (2 ^ 96)], ∀ w ∈ [false, true],
    (ctxState 0 r).transPos 0 ((ctxState 0 r).seqOf 0 0) r 0 w = .page 32768 ∧
    (∀ p ∈ ((ctxState 0 r).ctx 0).ring, (ctxState 0 r).stackUp 0 (ppnStack p) = true) ∧ (∀ x ∈ ((ctxState 0 r).ctx 0).mem, x.2.flips = 0) ∧
    (ctxState 0 r).firstPerm 0 ((ctxState 0 r).seqOf 0 0) r [0] w = none := by decide +kernel

theorem witness_MemoryRequests :
    let sp := creq 16 0 0x12 (2 ^ 96)
    let sw := creq 16 0 0x13 (2 ^ 96) [{}]
    let fr := creq 16 3 0x20 ((2 ^ 31 - 64) * 2 ^ 328 + 2 ^ 96)
    let fw := creq 16 3 0x21 ((2 ^ 31 - 64) * 2 ^ 328 + 2 ^ 96) [{}]
    let tw := creq 16 3 0x21 (32767 * 65536 * 2 ^ 328 + 2 ^ 96) [{}]
    let z := creq 18 3 0x30 (32768 * 65536 * 2 ^ 328)
    let c := creq 18 3 0x31 (32768 * 65536 * 2 ^ 328 + 32769 * 65536 * 2 ^ 368)
    waits 16 0x12 sp ∧ waits 16 0x13 sw ∧ waits 16 0x20 fr ∧ waits 16 0x21 fw ∧ waits 18 0x30 z ∧ waits 18 0x31 c ∧
    (ctxState 16 sp).spillArea sp = some (0, 0) ∧ (ctxState 16 sw).spillArea sw = some (0, 0) ∧ sp.count = 1 ∧ sw.lines = [{}] ∧ fwLegal 0 fr = true ∧
    fwLegal 0 fw = true ∧ fw.lines.length = fw.count ∧ (ctxState 18 c).stackUp 0 0 = true ∧
    (ctxState 18 c).pageLegal 0 (c.f 41 5 / 65536) = none ∧ (ctxState 18 c).pageLegal 0 (c.f 46 5 / 65536) = none ∧
    c.f 41 5 / 65536 ≠ c.f 46 5 / 65536 ∧ (ctxState 16 fw).tableAt 0 (fw.f 41 5 / 64) = none ∧
    waits 16 0x21 tw ∧ fwLegal 0 tw = true ∧ (ctxState 16 tw).tableAt 0 (tw.f 41 5 / 64) = some (0, 0) ∧
    lineKey 32768 0 ∉ (ctxState 16 sw).pteKeys 0 0 [0] ∧ (∀ w ∈ [false, true], (ctxState 16 sp).translate 0 0 0 w = .page 32768) := by
  simp only [waits, State.nextOp]; and_intros <;> decide +kernel

/-! ### The machine, the mailbox, the functions and the registers -/

theorem witness_StepRunsTheFrontCommand : ({ lit with pending := [.mbCntClr 0, .fabCntClr 0] } : State).pending = .mbCntClr 0 :: [.fabCntClr 0] ∧
    lit.pending = [] := by decide +kernel

theorem lit_inv : lit.Inv := by decide +kernel

theorem witness_EveryStep : (∃ t, step { lit with pending := [.mbCntClr 5] } = .next t ∧ t.now = 5) ∧
    ∃ t, exec (.fabPortCntClr 7 15) lit = .next t ∧ t.now = 7 := ⟨⟨_, rfl, rfl⟩, ⟨_, rfl, rfl⟩⟩

/-- `s` with command `c` posted in a slot of a function, next to be taken. -/
def post (fn slot : Nat) (c : Cmd) (s : State) : State :=
  { s with host := { s.host with order := [(fn, slot)], slots := [(slotKey fn slot, { cmd := some c })] } }

/-- A command with its argument bytes. -/
def cmd (op : Nat) (args : List Byte) (flags : Nat := 0) : Cmd :=
  { id := 0, op, flags, argLen := args.length, tag := 0, seq := 1, args, headerOk := true }

theorem due_of {s : State} {i : Instr} {fn slot : Nat} {c : Cmd} (h : (match i.mailbox with
    | some m => m.fn == fn && m.slot == slot && s.posted m.fn m.slot == some c && c.op == m.op && m.form c && (s.checkFails m c).isNone
    | none => false) = true) : s.due i fn slot c := by
  cases hm : i.mailbox with
  | none => simp [hm] at h
  | some m =>
    simp only [hm, Bool.and_eq_true, beq_iff_eq, Option.isNone_iff_eq_none] at h
    exact ⟨m, ⟨hm, h.1.1.1.2, h.1.1.2, h.1.2⟩, h.2, h.1.1.1.1.1.symm, h.1.1.1.1.2.symm⟩

def failing : State := { lit with mode := .withdrawn }

theorem witness_CommandChecksFail :
    (∃ m, (post 0 3 (cmd 0x11 (leBytes 9 1 ++ [7])) lit).takes (.planUnload 0 0 3) m (cmd 0x11 (leBytes 9 1 ++ [7])) ∧
      lit.checkFails m (cmd 0x11 (leBytes 9 1 ++ [7])) = some 3) ∧
    (∃ m, (post 0 3 (cmd 0x11 []) failing).takes (.planUnload 0 0 3) m (cmd 0x11 []) ∧ failing.checkFails m (cmd 0x11 []) = some 8) ∧
    (∃ m, (post 0 3 (cmd 0x11 []) trained).takes (.planUnload 0 0 3) m (cmd 0x11 []) ∧ trained.checkFails m (cmd 0x11 []) = some 2) :=
  ⟨⟨_, ⟨rfl, by decide +kernel, rfl, rfl⟩, by decide +kernel⟩, ⟨_, ⟨rfl, by decide +kernel, rfl, rfl⟩, by decide +kernel⟩,
    ⟨_, ⟨rfl, by decide +kernel, rfl, rfl⟩, by decide +kernel⟩⟩

/-- The physical function and two virtual ones. -/
def two : State := { lit with host := { lit.host with numVfs := 2, busMaster := [(0, true), (1, true), (2, true)] } }

theorem witness_HostCommands :
    let w (_ n seq : Nat) : List Byte := List.replicate (n - 4) 0 ++ leBytes 4 seq
    two.endpointUp = true ∧ two.host.linkUp = true ∧ two.fnExists 2 = true ∧ two.fnExists 3 = false ∧ 4092 + (w 4092 4 1).length = 4096 ∧
    w 4092 4 1 ≠ [] ∧ (two.slot 2 3).cmd = none ∧ leNat (w 4092 4 1) ≠ (two.slot 2 3).last ∧
    ((post 2 3 (cmd 1 []) two).slot 2 3).cmd.isSome = true := by decide +kernel

theorem witness_HostCommandsDue :
    (post 2 3 (cmd 1 []) two).due (.deviceInfo 0 2 3) 2 3 (cmd 1 []) ∧
    (post 0 0 (cmd 1 [] 1) two).due (.deviceInfo 0 0 0) 0 0 (cmd 1 [] 1) ∧
    (post 0 0 (cmd 0x50 (leBytes 20 0)) two).due (.counters 0 0 0) 0 0 (cmd 0x50 (leBytes 20 0)) ∧
    (post 0 0 (cmd 0x50 [3]) two).due (.counters 0 0 0) 0 0 (cmd 0x50 [3]) ∧
    (post 0 0 (cmd 0x51 (leBytes 8 0 ++ leBytes 2 62)) two).due (.snagRead 0 0 0) 0 0 (cmd 0x51 (leBytes 8 0 ++ leBytes 2 62)) ∧
    (post 0 0 (cmd 0x51 (leBytes 8 0 ++ leBytes 2 63)) two).due (.snagRead 0 0 0) 0 0 (cmd 0x51 (leBytes 8 0 ++ leBytes 2 63)) ∧
    (post 0 0 (cmd 0x7F (leBytes 2 2 ++ [1])) two).due (.expertEnable 0 0 0) 0 0 (cmd 0x7F (leBytes 2 2 ++ [1])) ∧
    (post 0 0 (cmd 0x7F (leBytes 2 3 ++ [1])) two).due (.expertEnable 0 0 0) 0 0 (cmd 0x7F (leBytes 2 3 ++ [1])) ∧
    (post 1 0 (cmd 0x60 (List.replicate 32 7)) two).due (.attest 0 1 0) 1 0 (cmd 0x60 (List.replicate 32 7)) ∧
    (post 1 0 (cmd 0x60 (List.replicate 32 0 ++ [1])) two).due (.attestCert 0 1 0) 1 0 (cmd 0x60 (List.replicate 32 0 ++ [1])) := by
  and_intros <;> first | exact due_of (by decide +kernel) | decide +kernel

theorem witness_FunctionResets : two.endpointUp = true ∧ two.novkoUp = true ∧ two.fnExists 2 = true ∧ (∀ p ∈ two.plans, p.step.isSome = true) ∧
    two.host.perst = false ∧ State.reset.host.linkUp = false ∧ (63 : Nat) < 64 ∧
    mget false [(64 * 2 + 7, true)] (64 * 2 + 7) = true := by decide +kernel

/-- A VF whose session requires its stream. -/
def streamed : State := { two with keep := { two.keep with hostSess := [(1, some { stream := 0, require := true, active := true })] } }

theorem witness_TlpsAndRegisters : two.endpointUp = true ∧ two.host.linkUp = true ∧ two.fnExists 1 = true ∧ two.outsideStream 1 false = false ∧
    streamed.outsideStream 1 false = true ∧ streamed.outsideStream 1 true = false ∧ lit.pwr.stage1Up = true ∧ lit.host.numVfs = 0 ∧
    0 < (1024 : Word).toNat ∧ (1024 : Word).toNat ≤ 1024 ∧ lit.mode ≠ .off ∧
    lit.snap.time < (lit.tick 10000000000).mtime / 10000000 * 10000000 ∧
    (({ lit with bays := [(0, { seq := { running := true } })] } : State).bay 0).seq.running = true := by decide +kernel

/-! ### Configuration images and plans -/

/-- The module with the PF able to read host memory and the first owner key enrolled. -/
def owned : State := { lit with
  host := { lit.host with busMaster := [(0, true)] }
  nvm := { owners := [(0, some (7, []))] } }

/-- CONFIG_LOAD of `image`. -/
def loadImage : Cmd := cmd 0x02 (leBytes 8 0 ++ leBytes 4 1856)

theorem witness_ConfigurationImages :
    (post 0 0 loadImage owned).due (.configLoad 0 0 0 (.bytes image)) 0 0 loadImage ∧
    owned.storeBusy = false ∧ mget false owned.host.busMaster 0 = true ∧ mget false lit.host.busMaster 0 = false ∧
    ({ owned with resil := { owned.resil with stage := 3 } } : State).storeBusy = true ∧ image.length = loadImage.arg 8 4 ∧
    (post 0 0 (cmd 0x03 []) owned).due (.configCommit 0 0 0) 0 0 (cmd 0x03 []) ∧
    (post 0 0 (cmd 0x03 []) { owned with mode := .haltedConfig }).due (.configCommit 0 0 0) 0 0 (cmd 0x03 []) ∧
    (parseCfg image).isSome = true ∧ owned.plans = [] := by
  and_intros <;> first | exact due_of (by decide +kernel) | decide +kernel

/-- The sections of a plan image (05 R153, R154): type, length and offset. -/
def planSecs : List (Nat × Nat × Nat) := [(1, 80, 384), (2, 32, 512), (3, 0, 576), (9, 64, 576), (10, 323, 640), (15, 1280, 1024)]

/-- A plan image of one bay whose one program is a single stroke that ends the program. -/
def planBytes : List Byte :=
  let pad (n : Nat) (l : List Byte) : List Byte := l ++ List.replicate (n - l.length) 0
  pad 384 (pad 256 (leBytes 4 0x4E414C50 ++ leBytes 2 1 ++ leBytes 2 6 ++ leBytes 8 5 ++ leBytes 8 2304 ++ leBytes 2 1 ++ leBytes 2 1 ++
    leBytes 2 0 ++ leBytes 2 16) ++ planSecs.flatMap fun s => leBytes 2 s.1 ++ leBytes 2 0 ++ leBytes 4 s.2.1 ++ leBytes 8 s.2.2) ++
  pad 128 (leBytes 4 0x07000000 ++ leBytes 4 1 ++ leBytes 4 0 ++ leBytes 2 1 ++ List.replicate 26 0 ++ leBytes 2 0 ++ List.replicate 30 0xFF) ++
  pad 64 (List.replicate 28 0 ++ [3]) ++ List.replicate 64 0 ++
  pad 384 (leBytes 2 1 ++ leBytes 2 1 ++ List.replicate 62 0 ++ leBytes 8 (1 + 2 ^ 48)) ++ List.replicate 1280 0

/-- PLAN_LOAD of `planBytes` for tenant 1,024, closed to all but the PF. -/
def loadPlan : Cmd := cmd 0x10 (leBytes 8 0 ++ leBytes 8 2304 ++ leBytes 2 1024 ++ leBytes 2 0)

theorem witness_PlanLoad :
    (post 0 0 loadPlan owned).due (.planLoad 0 0 0 (.bytes planBytes)) 0 0 loadPlan ∧ loadPlan.arg 16 2 ≤ 1024 ∧ loadPlan.arg 18 2 ≤ 1000 ∧
    16 ≤ (List.replicate 16 ({ img := { id := 0 } } : Loaded)).length ∧ owned.plans.length < 16 ∧ mget false owned.host.busMaster 0 = true ∧
    findSig [] = none ∧ findSig planBytes = some 1024 ∧
    (parsePlan (planBytes.set 0 0) 1024).isNone = true ∧ (parsePlan planBytes 1024).isSome = true ∧
    ((parsePlan planBytes 1024).any fun p => p.id == 5 && (owned.firstFail p none).isNone) = true ∧
    ((parsePlan planBytes 1024).any fun p =>
      (({ owned with boot := { owned.boot with auditMin := 17 } } : State).firstFail p none).isSome) = true := by
  and_intros <;> first | exact due_of (by decide +kernel) | decide +kernel

/-- A bay whose one program is a single anchored stroke. -/
def oneBay (b : Nat) : PBay :=
  { bay := b, flagFirst := 0, flagLast := 7, queueFirst := 0, queueLast := 0, segInit := 0, strokes := [BitVec.ofNat 256 (3 * 2 ^ 224)],
    tensors := [], ops := [], xfers := [], routes := [], entries := 0 :: List.replicate 15 0xFFFF }

/-- A loaded plan on bays 0 and 1,151, with a slot, a prefill program and a stream of results. -/
def onePlan : Loaded :=
  { img := { id := 5, bays := [oneBay 0, oneBay 1151],
             layout := { slots := [(false, false)], maxPrompt := 8, maxSeq := 16, stream := 9, progs := [{ role := 1 }], cycle := [0] } } }

/-- The module with plans loaded and the weight set of `onePlan` live. -/
def holding (l : List Loaded) (m : Mode := .serving) : State :=
  { owned with mode := m, plans := l, weights := { banks := [(0, { st := .live })] }, fab := { owned.fab with peerTimeout := 10 } }

/-- PLAN_START of plan 5 with these peers. -/
def startOf (peers : List Nat) : Cmd := cmd 0x12 (leBytes 8 5 ++ leBytes 2 0 ++ leBytes 2 peers.length ++ leBytes 4 0 ++ peers.flatMap (leBytes 2))

theorem witness_PlansStartStop :
    let up : Loaded := { onePlan with started := true }
    let coming : Loaded := { onePlan with starting := true }
    (post 0 0 (startOf []) (holding [] .ready)).due (.planStart 0 0 0) 0 0 (startOf []) ∧ (holding []).plan ((startOf []).arg 0 8) = none ∧
    (post 0 0 (startOf []) (holding [onePlan] .ready)).due (.planStart 0 0 0) 0 0 (startOf []) ∧
    (holding [onePlan] .ready).plan ((startOf []).arg 0 8) = some onePlan ∧ (startOf []).arg 10 2 ≠ 1 ∧ (startOf [0, 7]).arg 10 2 ≤ 2000 ∧
    (holding [onePlan] .ready).startRefused onePlan 0 [] = false ∧ (holding [up]).startRefused up 0 [] = true ∧
    (post 0 0 (startOf [0, 7]) (holding [onePlan] .ready)).due (.planStart 0 0 0) 0 0 (startOf [0, 7]) ∧
    (holding [onePlan] .ready).startRefused onePlan 0 [0, 7] = false ∧
    [0, 7].filter (· != (holding [onePlan] .ready).moduleAddr) ≠ [] ∧
    (post 0 0 (cmd 0x13 (leBytes 8 5)) (holding [onePlan])).due (.planStop 0 0 0) 0 0 (cmd 0x13 (leBytes 8 5)) ∧
    (post 0 0 (cmd 0x13 (leBytes 8 5)) (holding [up])).due (.planStop 0 0 0) 0 0 (cmd 0x13 (leBytes 8 5)) ∧
    (holding [up]).plan 5 = some up ∧ up.started = true ∧ up.stopping = false ∧ (holding [up]).weights.sel = none ∧
    (post 0 0 (cmd 0x11 (leBytes 8 5)) (holding [coming])).due (.planUnload 0 0 0) 0 0 (cmd 0x11 (leBytes 8 5)) ∧
    (post 0 0 (cmd 0x11 (leBytes 8 5)) (holding [up])).due (.planUnload 0 0 0) 0 0 (cmd 0x11 (leBytes 8 5)) ∧
    coming.starting = true ∧ coming.startedAt + 1000000000 * max 1 (holding [coming]).fab.peerTimeout.toNat ≤ max (holding [coming]).now 10000000000 := by
  and_intros <;> first | exact due_of (by decide +kernel) | decide +kernel

/-! ### Requests and steps -/

/-- `onePlan` started, with this step in flight. -/
def run (x : Option StepRun) : Loaded := { onePlan with started := true, step := x }

/-- A class-1 request of plan 5. -/
def request (slot : Option Nat) (deadline : Option Nat := none) : Req :=
  { fn := 0, id := 1, plan := 5, seed := 0, cls := 1, outAddr := 64, outLen := 128, maxTok := 1, keepN := 0, lateDel := false, stream := false,
    drawn := false, keep := false, tag := 0, deadline, input := [], prompt := 1, slot }

/-- SUBMIT of one prompt position to plan 5 in this class. -/
def submitOf (cls : Nat) : Cmd :=
  cmd 0x40 (leBytes 8 5 ++ leBytes 8 0 ++ leBytes 8 0 ++ leBytes 8 0 ++ leBytes 8 64 ++ leBytes 4 4 ++ leBytes 4 128 ++ leBytes 4 0 ++
    leBytes 4 1 ++ leBytes 4 0 ++ leBytes 1 cls ++ leBytes 3 0)

/-- A started plan with its context map, its slot's sequence open on die 0. -/
def withSeq : State :=
  { holding [{ run none with map := some 0, slots := [(0, some (0, 1))] }] with
    reqs := [request (some 0)]
    ctx0 := { maps := [(0, { valid := true })], seqs := [(0, { valid := true, heads := 1, layers := 1, jMax := 1, commit := 1 })] } }

theorem witness_Requests :
    let s := holding [run (some { prog := 0, slots := [] })]
    let q (r : Req) : State := { s with reqs := [r] }
    let halting : State := holding [{ run (some { prog := 0, slots := [] }) with stopping := true }]
    let lone : Loaded := { run none with map := some 0, slots := [(0, some (0, 1))] }
    (post 0 0 (submitOf 3) s).due (.submit 0 0 0 (.bytes [])) 0 0 (submitOf 3) ∧ (s.submitCheck 0 (submitOf 3) matches .error _) = true ∧
    (post 0 0 (submitOf 1) s).due (.submit 0 0 0 (.bytes [])) 0 0 (submitOf 1) ∧
    (match s.submitCheck 0 (submitOf 1) with | .ok (p, w) => s.plan p.img.id == some p && p.step.isSome && w == 0 | .error _ => false) = true ∧
    (match halting.submitCheck 0 (submitOf 1) with | .ok (p, _) => halting.plan p.img.id == some p && p.stopping | .error _ => false) = true ∧
    (post 0 0 (submitOf 1) halting).due (.submit 0 0 0 (.bytes [])) 0 0 (submitOf 1) ∧ s.keep.entropyOk = true ∧ mget false s.host.busMaster 0 = true ∧
    (post 0 0 (cmd 0x41 (leBytes 4 1)) s).due (.cancel 0 0 0) 0 0 (cmd 0x41 (leBytes 4 1)) ∧ s.req 0 1 = none ∧
    (q (request none)).req 0 1 = some (request none) ∧ (q (request (some 0))).req 0 1 = some (request (some 0)) ∧
    (post 0 0 (cmd 0x42 (leBytes 8 1)) withSeq).due (.prefixKeep 0 0 0) 0 0 (cmd 0x42 (leBytes 8 1)) ∧
    withSeq.req 0 1 = some (request (some 0)) ∧ withSeq.plan 5 = some lone ∧ withSeq.othersOf lone = [] ∧
    withSeq.othersOf { lone with peers := [0, 7] } ≠ [] ∧ withSeq.slotSeq lone 0 = some (0, 0) ∧ (withSeq.seqOf 0 0).commit = 1 ∧
    (post 0 0 (cmd 0x43 (leBytes 8 (2 ^ 17))) s).due (.prefixDrop 0 0 0) 0 0 (cmd 0x43 (leBytes 8 (2 ^ 17))) ∧ s.prefixOf 0 (2 ^ 17) = none ∧
    (({ s with prefixes := [(0, some { tenant := 0, die := 0, format := 0, dsel := 0, heads := 1, layers := 1, n := 1, tag := 1, pages := [], copies := [] })] }
      : State).prefixOf 0 (2 ^ 17)).isSome = true := by
  and_intros <;> first | exact due_of (by decide +kernel) | decide +kernel

theorem witness_StepsAndSchedulingPoints :
    let going (w : List Nat) (sl : List SlotEnt) : StepRun := { prog := 0, slots := sl, waiting := w }
    let ent (v : Bool) : SlotEnt := { seed := 0, pos := 0, valid := v }
    let s (w : List Nat) (sl : List SlotEnt) : State := holding [run (some (going w sl))]
    let h : BitVec 64 := BitVec.ofNat 64 (9 * 2 ^ 42 + 2 ^ 34 + 1)
    let m : MLine := { hdr := h, line := {} }
    let fresh : State := { holding [run none] with reqs := [request none] }
    (2 : BitVec 8) ≠ (holding []).gen ∧ (s [0, 1151] []).plan 5 = some (run (some (going [0, 1151] []))) ∧ [0, 1151].any (· ≠ 1151) = true ∧
    (going [1151] []).peers = [] ∧ (going [1151] []).answered = true ∧ (run none).live.any (·.anchor 0) = true ∧
    onePlan.img.layout.stream = hStream m.hdr ∧ hKind m.hdr = 0 ∧ hVc m.hdr = 1 ∧ hGen m.hdr = (s [0] []).gen ∧
    (∀ l < 4, mget [] (s [0] []).edgeQ (64 * 19 + l) = []) ∧ ((going [0] [ent true]).slots.getD 0 {}).valid = true ∧
    ((going [0] [ent false]).slots.getD 0 {}).valid = false ∧ ((s [0] []).tick 0).pointDue (run (some (going [0] []))) = false ∧
    fresh.plans = [run none] ∧ fresh.reqs = [request none] ∧ (request none).sent < (request none).prompt ∧
    (0 : Nat) ≤ (fresh.tick 0).mtime ∧ ({ fresh with reqs := [request none (some 9)] } : State).req 0 1 = some (request none (some 9)) := by decide +kernel

/-! ### The weight library -/

/-- A set image of one panel record, at the last panel of the module. -/
def oneSet : WImage := { nPanels := 1, layers := 1, setDigest := 7, records := [{ die := 15, bay := 71, panel := 31, width := 0, sgn := false, layer := 0 }] }

/-- The store with `oneSet` in its last directory entry. -/
def stored : Store :=
  { dir0 := [(1023, some { st := 2, first := 512, blocks := 3, nPanels := 1, name := 0, model := 0, setDigest := 7, layout := 0, slice := 0, slices := 1, key := 0, seq := 1 })]
    lib := [(512, some oneSet)] }

/-- A store whose library region is taken up by one set being written. -/
def full : Store :=
  { dir0 := [(0, some { st := 1, first := 512, blocks := 33553920, nPanels := 0, name := 0, model := 0, setDigest := 0, layout := 0, slice := 0, slices := 1, key := 0, seq := 1 })] }

/-- READY with an install nonce handed out, or without. -/
def installing (x : Store) (n : Bool := true) : State := { holding [] .ready with store := x, weights := { nonce := if n then some (9, 0) else none } }

/-- Arguments of a WEIGHTS_INSTALL sub-operation. -/
def install (sub idx : Nat) : Cmd := cmd 0x20 (leBytes 2 sub ++ leBytes 2 idx)

theorem witness_WeightSetsInstalled :
    let a : Auth := { nonce := 9, setDigest := 7 }
    let e : Auth := { action := 2, nonce := 9, setDigest := 7, dirIndex := 1023 }
    (post 0 0 (install 0 0) (holding [])).due (.weightsInstallNonce 0 0 0) 0 0 (install 0 0) ∧ (holding []).mode ≠ .ready ∧
    (post 0 0 (install 0 0) (installing {})).due (.weightsInstallNonce 0 0 0) 0 0 (install 0 0) ∧ (installing {}).mode = .ready ∧
    (installing {}).weights.sel = none ∧ (installing {}).weights.startQ = [] ∧ mget false (installing {}).host.busMaster 0 = true ∧
    (post 0 0 (install 1 0) (installing {})).due (.weightsInstallWrite 0 0 0 (.got a) (.got oneSet)) 0 0 (install 1 0) ∧
    a.action = 1 ∧ oneSet.magic = 0x54455357 ∧ oneSet.format = 1 ∧ oneSet.rsv = 0 ∧ oneSet.nPanels = 1 ∧ oneSet.slice < oneSet.slices ∧
    (({} : Store).byDigest 7 = none ∧ (stored.byDigest 7).isSome = true ∧ ({} : Store).firstFit (imgBlocks oneSet) = some 512 ∧ ({} : Store).freeEntry = some 0 ∧
      (full.firstFit (imgBlocks oneSet)) = none) ∧
    imgRecordsOk oneSet = true ∧ imgRecordsOk { oneSet with layers := 0 } = false ∧ oneSet.setDigest = a.setDigest ∧
    (post 0 0 (install 2 1023) (installing stored)).due (.weightsInstallErase 0 0 0 (.got e)) 0 0 (install 2 1023) ∧ (install 2 1023).arg 8 16 = 0 ∧
    (install 2 1023).arg 2 2 = 1023 ∧ (stored.entry 1023).isSome = true ∧ stored.entry 0 = none ∧ e.action = 2 ∧
    e.dirIndex = 1023 ∧ (installing stored).pwr.stage1Up = true ∧ (installing stored).novkoUp = true ∧ (installing stored).resil.stage ≠ 2 := by
  and_intros <;> first | exact due_of (by decide +kernel) | decide +kernel

/-- WEIGHTS_SELECT of a directory entry. -/
def selectOf (idx opt : Nat) : Cmd := cmd 0x21 (leBytes 2 idx ++ leBytes 1 opt)

theorem witness_WeightSetsSelected :
    let k := pkey 1151 31
    let s : State := installing stored
    let live : State := { s with weights := { banks := [(2 * k, { st := .live, set := 7 })] } }
    let x : Select := { idx := 1023, loadOnly := true, switch := false, cmd := none, cover := [k], load := [k], left := [k], flips := [k] }
    (post 0 0 (selectOf 1 0) s).due (.weightsSelect 0 0 0) 0 0 (selectOf 1 0) ∧ s.store.entry 1 = none ∧
    (post 0 0 (selectOf 1023 1) s).due (.weightsSelect 0 0 0) 0 0 (selectOf 1023 1) ∧ (s.store.entry 1023).isSome = true ∧
    s.selectBlocked (s.store.image 1023) false = false ∧ s.mode ∈ modesSession ∧
    ((s.store.image 1023).records.map recKey).filter (fun k => !live.holdsLive k (s.store.image 1023).setDigest) = [] ∧
    (((s.store.image 1023).records.map recKey).filter (fun k => !s.holdsLive k (s.store.image 1023).setDigest)).filter
      (fun k => !s.holdsBack k (s.store.image 1023).setDigest) = [k] ∧ s.weights.devBad = 0 ∧
    ({ s with weights := { sel := some x } } : State).weights.sel = some x ∧ x.swapping = false ∧ x.left = [k] ∧
    [k, 0].any (· ≠ k) = true ∧ (1 : BitVec 8) = s.gen ∧ (2 : BitVec 8) ≠ s.gen ∧
    (post 0 0 (cmd 0x22 [1]) s).due (.weightsDigest 0 0 0) 0 0 (cmd 0x22 [1]) ∧ (cmd 0x22 [1]).arg 0 1 ≤ 1 ∧ s.resil.stage ≠ 3 ∧
    ({ s with resil := { stage := 3 } } : State).resil.stage = 3 := by
  and_intros <;> first | exact due_of (by decide +kernel) | decide +kernel

/-! ### The fabric -/

def where_ : Coords := { rack := 1023, slot := 63, planes := List.range 16 }

/-- The module in its place, its configuration in force, with this as its last port. -/
def ported (x : Port) : State := { lit with boot := { lit.boot with inForce := true }, fab := { coords := some where_, ports := [(15, x)], addr := 0 } }

theorem witness_FabricPorts :
    let up : Port := { st := .up, width := 8, lanes := 0xFF, linkId := some (15, 7, 3), sent := [(5, {}), (6, {})], acked := 4 }
    let tr : Port := { st := .training, ctrl := true, minWidth := 1 }
    (ported tr).port 15 = tr ∧ (ported tr).fab.coords = some where_ ∧ laneWidth (0x80 &&& ~~~tr.disable) = 1 ∧ laneWidth (0x80 &&& ~~~tr.disable) < 2 ^ tr.minWidth.toNat ∧
    laneWidth 0 = 0 ∧ 0 < laneWidth (0xC0 &&& ~~~tr.disable) ∧ 2 ^ tr.minWidth.toNat ≤ laneWidth (0xC0 &&& ~~~tr.disable) ∧ where_.planes.getD 15 0xFF = 15 ∧ where_.rack = 1023 ∧
    (ported up).port 15 = up ∧ up.lanes.getLsbD 7 = true ∧ ({ up with changing := true } : Port).changing = true ∧ up.sent ≠ [] ∧ up.ackOk 4 = true ∧ up.ackOk 7 = false ∧
    up.ackAt + 4000 ≤ max (ported up).now 4000 ∧ max (ported up).now 3999 < up.ackAt + 4000 ∧ tr.ctrlAt + 1000 ≤ max (ported tr).now 1000 ∧ max (ported tr).now 999 < tr.ctrlAt + 1000 ∧
    (up.acknowledge 7 5 []).sent ≠ [] ∧ (up.acknowledge 7 5 []).replays < 15 ∧ up.queue = [] ∧ (∀ q < 16, ((ported up).port q).queue = []) ∧
    ({ ftype := 4 } : Flit).rsv = 0 ∧ ({ nlines := 0 } : Flit).nlines = 0 ∧ ({ ack := 6 } : Flit).ack ≠ up.acked ∧ (ported up).crcOk { lost := true } = false ∧
    ({ st := .down } : Port).trainAt + 2000000000 ≤ max (ported {}).now 2000000000 ∧ (ported {}).portsMayTrain = true ∧ ((ported {}).portPlane 15).isSome = true ∧
    (let u := ported tr
     let s : State := { u with mode := .recovering, resil := { stage := 5, retrainQ := [15, 0] }, fab := { u.fab with ports := [(0, { st := .down }), (15, tr)] } }
     s.mode = .recovering ∧ s.resil.stage = 5 ∧ s.resil.retrainQ.head? = some 15 ∧ s.resil.retrainQ = 15 :: 0 :: [] ∧ (s.port 15).st = .training ∧
     s.portsMayTrain = true ∧ ∀ k ∈ 0 :: ([] : List Nat), k ≠ 15 ∧ (s.port k).st = .down) := by decide +kernel

/-- The module in its place with its last port up, two streams and a peer; and a flit of eight lines that the port expects from that peer, with its CRC. -/
def linked : State :=
  { ported { st := .up, width := 8, lanes := 0xFF } with
    fab := { coords := some where_, ports := [(15, { st := .up, width := 8, lanes := 0xFF })], peers := [(9, some 4)],
             streams := [(8, some { plan := 5, plane := 15, vc := 1, dst := 9, target := 0, session := 0 }),
                         (12, some { plan := 5, plane := 15, vc := 1, dst := 10, target := 0, session := 0 })] } }
def flit8 : Flit := { vc := 3, nlines := 8, seq := 0, ack := 0xFFF, dst := 0, src := 9, genSrc := 4, genDst := 1, lines := List.replicate 8 {} }
def sealed (f : Flit) : Flit := { f with crc := crcOf (linked.fabKey f.session) f }

/-- The CRC of a flit does not cover the CRC itself: what a sender computes is right. -/
theorem crcOf_sealed (key : List Byte) (f : Flit) (c : BitVec 64) : crcOf key { f with crc := c } = crcOf key f := by
  simp only [crcOf, coveredOf, headOf, slotsOf, sealOf, nonceOf]

/-- What a sender computes is what the receiver computes, whatever the key and the flit. -/
theorem crcOk_sealed (s : State) (f : Flit) (c : BitVec 64) (h : f.lost = false) (hc : c = crcOf (s.fabKey f.session) f) :
    s.crcOk { f with crc := c } = true := by
  unfold State.crcOk
  dsimp only
  rw [crcOf_sealed, ← hc, h]
  simp only [Bool.not_false, Bool.true_and, beq_self_eq_true]

theorem witness_FlitCrc : linked.crcOk (sealed flit8) = true := crcOk_sealed linked flit8 _ rfl rfl

/-- A line of the mesh that the witnesses put at an edge. -/
def edgeLine (gen st kind : Nat) : MLine := { hdr := BitVec.ofNat 64 (1 + kind * 4 + gen * 2 ^ 34 + st * 2 ^ 42), line := {} }

theorem witness_FlitReceived :
    let up := linked.port 15
    let f := sealed flit8
    up.st = .up ∧ up.changing = false ∧ f.seq = up.rxSeq ∧ up.rxSeq < 4096 ∧ up.rx.getD f.vc 0 ≠ 0 ∧ f.ftype < 4 ∧ f.vc < 4 ∧ f.rsv = 0 ∧ 0 < f.nlines ∧ f.nlines ≤ 8 ∧
      f.session < 4096 ∧ up.ackOk f.ack = true ∧ f.first = true ∧ f.lines.length = f.nlines ∧ mget 0 up.open_ f.vc = 0 ∧ mget [] up.asm f.vc = [] ∧ f.dst = linked.moduleAddr := by
  and_intros <;> decide +kernel

theorem witness_FlitDelivered :
    let s := linked
    let f := sealed flit8
    f.genAny = false ∧ f.genDst = s.gen ∧ mget none s.fab.peers f.src = some f.genSrc ∧ s.tagGood f = true ∧ targetBad f.target = false ∧
      s.rtrFenced (bayAt (fld f.target 0 5) 0) = false ∧ s.linkDown (bayAt (fld f.target 0 5) 0) 0 = false ∧ f.last = true := by
  and_intros <;> decide +kernel

theorem witness_FlitTurnedAway :
    let s := linked
    let f := sealed flit8
    ({ f with genSrc := 5 } : Flit).genSrc ≠ 4 ∧ s.tagGood { f with enc := true, session := 1 } = false ∧ targetBad (BitVec.ofNat 40 (36 * 2 ^ 5)) = true ∧
      targetBad (BitVec.ofNat 40 (35 * 2 ^ 5 + 31)) = false ∧ s.crcOk { f with lost := true } = false := by
  and_intros <;> decide +kernel

theorem witness_ManagementFlit :
    let s := linked
    s.rtrFenced (bayAt 0 0) = false ∧ s.linkDown (bayAt 0 0) 0 = false ∧ s.attachUp 0 = true ∧
      (s.novkoRoute (bayAt 0 0) (ctlRouter 0) 3 []).any (fun e => (walk 256 (bayAt 0 0) (novkoHdr e.1 2 s.gen)).any fun l => (s.sinkOn l).isNone) = true := by
  and_intros <;> decide +kernel

theorem witness_EgressLine :
    let s := linked
    mget [] s.edgeQ (64 * 16 + 31) = [] ∧ hGen (edgeLine 1 8 0).hdr = s.gen ∧ hGen (edgeLine 2 8 0).hdr ≠ s.gen ∧ hKind (edgeLine 1 8 1).hdr ≠ 0 ∧ hKind (edgeLine 1 8 0).hdr = 0 ∧
    hUnit (edgeLine 1 8 0).hdr = 0 ∧ s.noticeDue = false ∧ ({ s with fab := { s.fab with mgmtQ := [(9, 0, 2, .genNotice 5 6 1)] } } : State).noticeDue = true ∧
    mget none s.fab.streams (hStream (edgeLine 1 16 0).hdr) = none ∧ (mget none s.fab.streams (hStream (edgeLine 1 8 0).hdr)).isSome = true ∧
    mget none s.fab.peers 10 = none ∧ mget none s.fab.streams (hStream (edgeLine 1 12 0).hdr) ≠ none := by
  and_intros <;> decide +kernel

theorem witness_EgressPort :
    let up := linked.port 15
    linked.portOf 15 = some 15 ∧ hVc (edgeLine 1 8 0).hdr = 1 ∧ up.tx.getD 1 0 ≠ 0 ∧ up.tx.length = 4 ∧ up.queue = [] ∧ mget 0 up.txOpen 1 = 0 ∧
    (List.range 16).find? (fun p => (linked.port p).st == .up) = some 15 ∧ up.tx.getD 2 0 ≠ 0 ∧ mget 0 up.txOpen 2 = 0 := by
  and_intros <;> decide +kernel

theorem witness_SpreadPlans :
    let led (st : Bool) (x : Option StepRun) (peer : Bool := false) : Loaded :=
      { onePlan with img := { onePlan.img with layout := { onePlan.img.layout with peer } }, started := st, starting := !st, step := x, peers := [0, 7], heard := [(7, some (0, 5, 1))] }
    let r : StepRun := { prog := 0, slots := [], no := 3, waiting := [0] }
    let s (p : Loaded) : State := { holding [p] with fab := { peerTimeout := 10, peers := [(7, some 1)] } }
    (s (led false none)).plan 5 = some (led false none) ∧ (s (led true none)).plan 6 = none ∧ 7 ∈ (s (led true none)).othersOf (led true none) ∧
    (s (led true none)).weights.sel = none ∧ (s (led true none)).weights.startQ = [] ∧ (∀ q ∈ (s (led true none)).plans, q.rerun = none) ∧
    ((led false none).starting = true ∧ ∀ a ∈ (s (led false none)).othersOf (led false none), a ≠ 7 → (mget none (led false none).heard a).isSome = true) ∧
    ((led true (some r)).started = true ∧ (led true (some r)).step = some r ∧ (s (led true (some r))).mode = .serving ∧ mget none (s (led true (some r))).fab.peers 7 = some 1 ∧ (1 : BitVec 8) ≠ 2) ∧
    (led true none).stopping = false ∧ mget none (led true none).heard 7 = some (0, 5, 1) ∧
    0 + 1000000000 * max 1 (s (led true none)).fab.peerTimeout.toNat ≤ max (s (led true none)).now 10000000000 ∧
    max (s (led true none)).now 9999999999 < 0 + 1000000000 * max 1 (s (led true none)).fab.peerTimeout.toNat ∧
    (∀ e ∈ (led false none).bays, (s (led false none)).heldByOther 5 e.bay = false) ∧ (led true none true).img.layout.peer = true ∧ r.no = 3 ∧ r.doneAt = none ∧ r.waiting ≠ [] ∧ (s (led true none)).novkoUp = true := by decide +kernel

/-! ### Sessions and entropy -/

/-- Arguments of SESSION_OPEN or SESSION_CLOSE. -/
def open_ (kind idx : Nat) (peers : List Nat) : Cmd :=
  cmd 0x30 (leBytes 2 kind ++ leBytes 2 idx ++ leBytes 4 (if kind = 2 then 7 * 2 ^ 16 else 0) ++ (if peers = [] then [] else leBytes 8 peers.length) ++ peers.flatMap (leBytes 2))

/-- A module with this fabric session at index 4,095. -/
def keeping (x : Option FabSess) : State := { two with keep := { two.keep with fabSess := [(4095, x)] } }

theorem witness_Sessions :
    let lead : FabSess := { leader := true, owner := 0, addr := 0, peers := [7, 8], keyed := true }
    let foll : FabSess := { leader := false, owner := 0, addr := 7 }
    let host : State := { two with keep := { two.keep with hostSess := [(1, some { stream := 0, require := false })] } }
    (post 1 0 (open_ 0 0 []) two).due (.sessionOpenHost 0 1 0) 1 0 (open_ 0 0 []) ∧ 1 ∉ two.hostFns ∧ two.freeStream = some 0 ∧ 1 ∈ host.hostFns ∧
    (post 1 0 (open_ 0 1 []) two).due (.sessionOpenHost 0 1 0) 1 0 (open_ 0 1 []) ∧ (open_ 0 1 []).arg 2 2 ≠ 0 ∧ (open_ 0 0 []).arg 2 2 = 0 ∧ (open_ 0 0 []).arg 1 1 < 2 ∧
    (post 1 0 (cmd 0x31 [0]) host).due (.sessionCloseHost 0 1 0) 1 0 (cmd 0x31 [0]) ∧ (host.hostSession 1).isSome = true ∧ (host.hostSession 2).isSome = false ∧
    (post 0 0 (open_ 1 4095 [7, 8]) two).due (.sessionOpenLeader 0 0 0) 0 0 (open_ 1 4095 [7, 8]) ∧ (open_ 1 4095 [7, 8]).arg 8 2 = 2 ∧ (open_ 1 4095 [7, 8]).arg 2 2 = 4095 ∧
    two.fabSession 4095 = none ∧ two.fabIds.length < 64 ∧ ((keeping (some lead)).fabSession 4095).isSome = true ∧
    (post 0 0 (open_ 2 4095 []) two).due (.sessionOpenFollower 0 0 0) 0 0 (open_ 2 4095 []) ∧
    (post 0 0 (cmd 0x31 (leBytes 2 1 ++ leBytes 2 4095)) (keeping (some lead))).due (.sessionCloseFabric 0 0 0) 0 0 (cmd 0x31 (leBytes 2 1 ++ leBytes 2 4095)) ∧
    (keeping (some lead)).sessionUsed 4095 = false ∧ ({ keeping (some lead) with plans := [{ run none with session := 4095 }] } : State).sessionUsed 4095 = true ∧
    7 ∈ lead.peers ∧ 9 ∉ lead.peers ∧ foll.leader = false ∧ foll.addr = 7 ∧ foll.keyed = false ∧ foll.reqAt + 1000000000 ≤ max two.now 1000000000 ∧ max two.now 999999999 < foll.reqAt + 1000000000 ∧ 7 ∉ lead.acks ∧
    (∃ w ∈ [({ id := 0, fn := 0, slot := 0, kind := .leader 4095, since := 0 } : Wait)], w.kind.opens 4095 = true ∧ w.since + 1000000000 * max 1 two.fab.peerTimeout.toNat ≤ 10000000000) := by
  and_intros <;> first | exact due_of (by decide +kernel) | decide +kernel

theorem witness_Entropy :
    let s : State := { two with keep := { two.keep with entropyOk := false } }
    s.keep.retestAt = none ∧ ¬ (∀ a, ({ retestAt := some 0 } : Keep).retestAt = some a → a + 10000000000 ≤ 9999999999) ∧
    two.pwr.stage1Up = true ∧ two.keep.entropyOk = true ∧ two.keep.failSeen = false ∧ s.keep.selftestOk = true ∧ s.keep.entropyOk = false ∧ two.keep.reseedAt + 1000000000 ≤ max two.now 1000000000 ∧
    (post 0 0 (open_ 1 4095 [7]) s).due (.sessionOpenLeader 0 0 0) 0 0 (open_ 1 4095 [7]) ∧ (open_ 1 4095 [7]).arg 0 1 = 1 ∧ s.fabSession 4095 = none ∧ s.fabIds.length < 64 := by
  and_intros <;> first | exact due_of (by decide +kernel) | decide +kernel

/-! ### Resilience -/

theorem witness_Faults :
    let r (a : List Armed) (d : Option Nat := none) : StepRun := { prog := 0, slots := [], arms := a, doneAt := d }
    let pair : Pair := { obay := 0, ostroke := 0, abay := 1151, afirst := 0, astroke := 0, prog := 0 }
    let a (o : Option (BitVec 64)) : Armed := { pair, osig := o }
    let s (x : StepRun) : State := holding [run (some x)]
    let idle : State := holding [] .ready
    let gone : State := { idle with resil := { idle.resil with fences := [(1151, 2)] } }
    let hard : State := { idle with rtrs := [(1151, { hardFenced := true })] }
    let stuck : State := { holding [run none] with bays := [(0, { seq := { running := true, prog := some 0 } })], now := 50000000 }
    let ex (z : State) : State := { z with host := { z.host with expert := [(0, true)] } }
    let f : Cmd := cmd 0x70 [0, 15, 71]
    let fr (fl : Nat) : Cmd := cmd 0x70 [1, 15, 71] fl
    let un : Cmd := cmd 0x71 [0, 15, 71]
    ((2 : BitVec 8) ≠ idle.gen ∧ idle.novkoUp = true ∧ idle.mode = .ready ∧ idle.plans = [] ∧ mget 0 idle.resil.fences 1151 = 0 ∧ (s (r [])).mode = .serving ∧
      (run (some (r []))) ∈ (s (r [])).plans ∧ ((s (r [])).tick 0).countedResets < 2) ∧
    ((s (r [a none])).plan 5 = some (run (some (r [a none]))) ∧ (a none).asig = none ∧ pair.obay ≠ 1151 ∧ (a (some 3)).osig = some 3 ∧ (3 : BitVec 64) ≠ 4 ∧
      (r [a (some 3)] (some 0)).doneAt = some 0 ∧ 0 + 1000000 ≤ max (s (r [])).now 1000000 ∧ max (s (r [])).now 999999 < 0 + 1000000) ∧
    ((∀ e ∈ (run none).live, ((holding [run none]).tick 0).hung (run none) e.bay = false) ∧ stuck.running = [run none] ∧ (∃ e ∈ (run none).live, (stuck.tick 0).hung (run none) e.bay = true) ∧
      stuck.resil.sampled = none ∧ ({ sampled := some 0 } : Resil).sampled = some 0 ∧ max (holding [run none]).now 9999999 < 0 + 10000000) ∧
    idle.resil.coresUp.getLsbD 3 = true ∧
    (post 0 0 (cmd 0x70 [0, 16, 71]) idle).due (.fence 0 0 0) 0 0 (cmd 0x70 [0, 16, 71]) ∧ (post 0 0 f idle).due (.fence 0 0 0) 0 0 f ∧ f.arg 1 1 = 15 ∧ f.arg 2 1 = 71 ∧
    idle.fenced 1151 = false ∧ gone.fenced 1151 = true ∧ idle.running = [] ∧ idle.placedBy 1151 = false ∧ (s (r [])).placedBy 1151 = true ∧
    (post 0 0 (fr 0) idle).due (.fenceRouter 0 0 0) 0 0 (fr 0) ∧ (post 0 0 (fr 1) (ex idle)).due (.fenceRouter 0 0 0) 0 0 (fr 1) ∧ (fr 1).expert = true ∧ (fr 0).expert = false ∧
    hard.rtrFenced 1151 = true ∧ idle.rtrFenced 1151 = false ∧
    (post 0 0 un gone).due (.unfence 0 0 0) 0 0 un ∧ gone.rtrFenced 1151 = false ∧ gone.railGone 1151 = false ∧
    (post 0 0 (cmd 0x72 []) idle).due (.resetCompute 0 0 0) 0 0 (cmd 0x72 []) ∧ (idle.tick 0).countedResets < 2 ∧
    ¬ (({ idle with resil := { idle.resil with resets := [0, 0] } } : State).tick 0).countedResets < 2 := by
  and_intros <;> first | exact due_of (by decide +kernel) | decide +kernel

theorem witness_Recovery :
    let s (n : Nat) (l : List Loaded := []) : State := { holding l .recovering with resil := { stage := n }, weights := {} }
    (∀ n ∈ [1, 2, 3, 4, 5, 6], (s n).mode = .recovering ∧ (s n).resil.stage = n ∧ (s n).running = [] ∧ (s n).novkoUp = true) ∧ (s 2).resil.degraded = [] ∧
    (({ s 3 with resil := { stage := 3, ran := 8 } } : State).resil.ran.getLsbD 3 = true) ∧ (s 3).weights.banks = [] ∧ (s 4).resil.redig = false ∧
    (s 6).stageDue 3 = false ∧ (s 6).stageDue 4 = false ∧ (s 6).stageDue 5 = false ∧ (s 6).boot.startFences = [] ∧ (s 6).boot.startSets = [] ∧
    (∃ p ∈ (s 6 [run (some { prog := 0, slots := [] })]).plans, p.started = true) ∧
    (∀ p ∈ (s 6 [run (some { prog := 0, slots := [] })]).plans, p.step.isSome = true ∧ p.rerun = none) ∧
    (({ s 3 with weights := { banks := [(2 * 36863, { st := .live })] } } : State).bankRec 36863 0).st = .live ∧
    (s 1).resil.entered + 8000000000 ≤ max (s 1).now 8000000000 ∧ ¬ (s 1).resil.entered + 8000000000 ≤ max (s 1).now 7999999999 ∧
    max (s 6).now 7999999999 < (s 6).resil.entered + 8000000000 ∧ (s 5).retraining = false ∧
    (let p : Loaded := { run none with peers := [0, 9], img := { onePlan.img with streams := [{ id := 0, plane := 15, vc := 0, slice := 1, target := 0 }] } }
     let u : State := { s 4 [p] with boot := { lit.boot with inForce := true, d2d := [(3, 1), (4 * bayAt 31 0 + 1, 1)] }, fab := { coords := some where_, ports := [(15, { st := .down })], addr := 0 } }
     u.ctxInService 0 = true ∧ u.ctxInService 1 = true ∧ u.stageDue 5 = true ∧ u.portsMayTrain = true ∧ u.portsDown = [15] ∧ u.resil.again = false ∧
     ({ u with resil := { stage := 5, retrainQ := [15] }, fab := { u.fab with ports := [(15, { st := .training })] } } : State).retraining = true) := by decide +kernel

/-! ### Small tests, with values from the manual -/

/-- Code 2,503 of channel 1 is 44 V, and with code 1,208 of channel 2 about 5,190 W (14 R387); 1,092 is 0.8 V on a ladder's channel. -/
theorem test_power_window : ({ areaV := 2503 * 1000000 } : Sense).meanVin 1000000 = 4399 ∧
    ({ areaP := 2503 * 1208 * 1000000 } : Sense).meanPin 1000000 0 = 41523 ∧ ({ codes := List.replicate 64 1092 } : Ladder).off = false ∧
    ({ codes := List.replicate 64 1094 } : Ladder).off = true ∧ ({ codes := List.replicate 64 1092 } : Ladder).mean = 7998 := by decide +kernel

theorem test_no_words : decodeTableWord 32 0 = none ∧ lit.withFetchWord 32 0 = lit := by decide +kernel

/-- 00, "locating a bay": bay 19 of AD5 is at (11, 11), in the west leaf. -/
theorem test_locates_a_bay : bayAt 11 11 = 72 * 5 + 19 ∧ meshX (72 * 5 + 19) = 11 ∧ meshY (72 * 5 + 19) = 11 ∧ leafOf (72 * 5 + 19) = 10 := by decide

/-- 00, "a panel register address": panel 3 of bay 19 of AD5. -/
theorem test_panel_register_address : placeOf 0x1513860 = .panel (72 * 5 + 19) 3 0 := by decide +kernel

/-- 01, "lowering one leaf": WEST = 6 in CTL_PWR_LEAF_VSET9, committed; the east leaf keeps what its word staged. -/
theorem test_leaf_vset : (match exec (.ctlPwrLeafVsetWrite 0 9 0x1406) lit with
    | .next s => (match exec (.vsetCommit 0) s with
      | .next u => mget 20 u.pwr.vset 18 == 6 && mget 20 u.pwr.vset 19 == 20 && mget 20 u.pwr.vset 17 == 20
      | _ => false)
    | _ => false) = true := by decide +kernel

/-- 02, "a clip": 540 active products in time mode at gain ½ clip at 255; column 517 belongs to bit 5 of window word 0x10. -/
theorem test_clip : convert true 1 540 0 = 255 ∧ 517 / 32 = 0x10 ∧ 517 % 32 = 5 ∧ muxPhase 517 = 5 := by decide

/-- 02, "an exact-mode mismatch": Wsum 3,517 and D 3,519 of group 5 leave the capture words of the example. -/
theorem test_witness_capture :
    (witnessGroup (List.replicate 383 0 ++ [3519] ++ List.replicate 640 0 ++ List.replicate 35 0 ++ [11, 5, 22, 30, 48, 35, 20]) true 0x28
      (2 ^ 31 + 2 * 2 ^ 12 + 2 ^ 9) 5 {} 8).cap = some [0x80002205, 3519, 3517, 8] := by decide +kernel

/-- 03, "from input bits to an activation": the plane partials of output 3, and its accumulator. -/
theorem test_plane_partials :
    let v (a b c d : Nat) : Int := (planePartials 4 true (List.replicate 12 0 ++ [a, b, c, d]) 2).getD 3 0
    v 2 1 2 0 = 12 ∧ v 2 1 2 1 = 4 ∧ v 1 0 1 2 = -11 ∧ v 1 0 1 1 = -3 ∧ accAdd (12 + 2 * 4) (4 * -11 + 8 * -3) = (-48, none) := by decide +kernel

/-- 03, "requantising output 3". -/
theorem test_requantise : Scale.ofBits 0x0008002D00000064 = { bias := 100, mult := 45, shift := 8 } ∧ roundShift 2340 8 .rne = 9 ∧
    roundShift 2340 8 (.sr 8000) = 10 ∧ roundShift 2340 8 (.sr 9216) = 9 ∧ descSr 0x00310037 = true ∧ descId 0x00310037 = 0x31 ∧
    Fmt.ofDesc 0x00310037 = .int 8 true ∧ residue (-48) = 1 := by decide +kernel

/-- 03, "encoding one BX4 block": exponent 129; 5, −3, 2 and 0. -/
theorem test_bx4_block :
    let xs : List Machine.Num := [.fin false 85 (-2), .fin true 13 0, .fin false 6 0, .fin false 7 (-3)]
    bxExp xs 7 = 129 ∧ xs.map (fun x => (bxElem x 7 129 .rne).1) = [5, -3, 2, 0] := by decide +kernel

/-- 05, "encoding a forecast-layer stroke". -/
theorem test_stroke_words :
    let w : BitVec 256 := BitVec.ofNat 256 (0x010D010C + 0xFFFF * 2 ^ 32 + 0x00809FD1 * 2 ^ 64 + 5 * 2 ^ 96 + 0x000E0020 * 2 ^ 224)
    stWaits w = [12] ∧ stSets w = [13] ∧ stPanels w = List.range 16 ∧ stKind w = 1 ∧ stInLine w = 16 ∧ panelPlanes (w.extractLsb' 64 32) = 4 ∧
    panelSegs (w.extractLsb' 64 32) = some [(0, 0, 1024, 15)] ∧ stDrained w = [] ∧ stUnit w = 0 ∧ stEnd w = false ∧ sw w 7 4 8 = 2 ∧ stLayer w = 14 := by
  decide +kernel

/-- 06, "a link fails": route entry 0x0000_0540_0000_1980, and its replacement through the waypoint (19, 13). -/
theorem test_route_entries :
    let h := mkHdr 0x0000054000001980 1 0 0x2A 7 true
    let d := mkHdr 0x0000054006CC1988 1 0 0x2A 7 true
    hDx h = 24 ∧ hDy h = 12 ∧ exitPort (hExit h) = 4 ∧ hStream h = 0x2A ∧ hOrder h = false ∧ hWp h = false ∧ fld (0x0000054000001980 : BitVec 64) 37 12 = 0x2A ∧
    hDx d = 24 ∧ hDy d = 12 ∧ hWp d = true ∧ hWx d = 19 ∧ hWy d = 13 := by decide +kernel

/-- 08, "the bound of a route-planning query": 30,459,680 ns. -/
theorem test_class0_bound :
    let img : PlanImg :=
      { id := 1, layout := { progs := [{ role := 2 }, { role := 1, chunk := 256 }], cycle := [0, 0, 0, 1] }
        cert := some { allowance := 30, cover := 0, pace := [], steps := [(0, 212000, 1), (1, 1180000, 1)] } }
    img.c0Bound 600 40 = some 30459680000 := by decide +kernel

/-- 10, "a peer recovers": the addresses of the scheduling module and of peer A. -/
theorem test_module_addresses : ({ rack := 3, slot := 0, planes := [] } : Coords).addr = 0x00C0 ∧
    ({ rack := 17, slot := 9, planes := [] } : Coords).addr = 0x0449 := by decide

/-- 11 R303, R310: the last taken value of a slot that is reset is 0. -/
theorem test_flr_clears_slots : (match exec (.functionLevelReset 0 2) (post 2 3 (cmd 1 []) two) with
    | .next s => (s.slot 2 3).cmd == none && (s.slot 2 3).last == 0 && s.host.order == []
    | _ => false) = true := by decide +kernel

/-- 10 R292, a new generation after a compute reset: 13 R378. -/
theorem test_quiesce_resets : (match exec (.quiesceDone 0) { lit with mode := .recovering, gen := 0xFF, resil := { stage := 1 } } with
    | .next s => s.gen == 0 && s.resil.stage == 2 && s.mode == .recovering
    | _ => false) = true := by decide +kernel

end Sys2Proof.Tests
end

section
/-! SUPPORT. Interrupts, snags, TLPs and register writes: what each does to the parts of the state that a statement about the host's
side asks for (00 R8–R16; 11 R301–R325; 12 R337). -/

namespace Sys2Proof.Machine

variable (s : State)

/-! ### Interrupts and snags -/

/-- The host interface apart from the pending bits of its vectors: what raising an interrupt leaves alone. -/
def HostIf.settled (h : HostIf) : HostIf := { h with msixPend := [] }

/-- The slots do not depend on what an interrupt changes. -/
theorem slot_of_settled {s u : State} (h : u.host.settled = s.host.settled) (fn slot : Nat) : u.slot fn slot = s.slot fn slot := by
  have hs := congrArg HostIf.slots h
  exact congrArg (mget {} · (slotKey fn slot)) hs

@[simp] theorem raise_settled (fn vec : Nat) : (s.raise fn vec).host.settled = s.host.settled := by
  unfold State.raise
  dsimp only
  repeat' split
  all_goals rfl

@[simp] theorem raise_snags (fn vec : Nat) : (s.raise fn vec).snags = s.snags :=
  (raise_kept (L := [.host, .out]) (Kept.refl s) fn vec (by decide)).frame .snags (by decide)

@[simp] theorem sendPending_settled (fn : Nat) : (s.sendPending fn).host.settled = s.host.settled := by
  refine List.foldlRecOn _ _ (motive := fun u : State => u.host.settled = s.host.settled) rfl fun u hu v _ => ?_
  dsimp only
  split <;> exact hu

/-- The record that a snag leaves in the log (00 R16). -/
def State.snagRecord (code sev die unit : Nat) (args : List Nat) : Snag :=
  { code := code, sev := sev, gen := s.gen, src := BitVec.ofNat 32 (s.moduleAddr * 2 ^ 16 + die * 2 ^ 11 + unit), ts := s.mtime,
    args := (args ++ [0, 0, 0, 0]).take 4 }

/-- A property that logging the record and every interrupt keep holds after the snag. -/
theorem snag_induction {P : State → Prop} (code sev die unit : Nat) (args : List Nat) (h : s.novkoUp = false → P s)
    (hlog : s.novkoUp = true →
      P { s with snags := s.snagRecord code sev die unit args :: s.snags, snagNext := s.snagNext + 1 })
    (hraise : ∀ u fn vec, P u → P (u.raise fn vec)) : P (s.snag code sev die unit args) := by
  unfold State.snag
  dsimp only
  split
  · rename_i hup
    refine List.foldlRecOn _ _ ?_ fun u hu i _ => ?_
    · split
      · exact hraise _ _ _ (hlog hup)
      · exact hlog hup
    · split
      · exact hraise _ _ _ hu
      · exact hu
  · rename_i hup
    exact h (Bool.eq_false_iff.2 hup)

@[simp] theorem snag_settled (code sev die unit : Nat) (args : List Nat) :
    (s.snag code sev die unit args).host.settled = s.host.settled :=
  snag_induction s (P := fun u => u.host.settled = s.host.settled) code sev die unit args (fun _ => rfl) (fun _ => rfl)
    fun u fn vec hu => (raise_settled u fn vec).trans hu

/-- While Novko runs a snag adds its record to the log (00 R15; 01 R42). -/
theorem snag_snags (h : s.novkoUp = true) (code sev die unit : Nat) (args : List Nat) :
    (s.snag code sev die unit args).snags = s.snagRecord code sev die unit args :: s.snags :=
  snag_induction s (P := fun u => u.snags = s.snagRecord code sev die unit args :: s.snags) code sev die unit args
    (fun h' => absurd h (by simp [h'])) (fun _ => rfl) fun u fn vec hu => (raise_snags u fn vec).trans hu

/-- A snag touches the log, the host interface and the outputs only. -/
theorem snag_same (code sev die unit : Nat) (args : List Nat) {f : Field} (hf : f ∉ logged) :
    f.same s (s.snag code sev die unit args) :=
  (snag_kept (L := logged) (Kept.refl s) code sev die unit args (by decide)).frame f hf

@[simp] theorem snag_keep (code sev die unit : Nat) (args : List Nat) : (s.snag code sev die unit args).keep = s.keep :=
  snag_same s code sev die unit args (f := .keep) (by decide)

@[simp] theorem snag_bay (code sev die unit : Nat) (args : List Nat) (b : Nat) :
    (s.snag code sev die unit args).bay b = s.bay b :=
  congrArg (mget ({} : Bay) · b) (snag_same s code sev die unit args (f := .bays) (by decide))

/-! ### Sticky bits of a bay and the lock of its K fields (05 R174) -/

theorem bay_stickyBay (b : Nat) (was : Bool) (set : Bay → Bay) (code sev : Nat) (args : List Nat) (c : Nat) :
    (s.stickyBay b was set code sev args).bay c = if c = b then set (s.bay b) else s.bay c := by
  unfold State.stickyBay State.snagBay
  dsimp only
  split
  · exact State.bay_modBay s b c set
  · exact (snag_bay _ _ _ _ _ _ c).trans (State.bay_modBay s b c set)

theorem bay_lockBay (b off : Nat) (v : Word) (c : Nat) :
    (s.lockBay b off v).bay c = if c = b then { s.bay b with cfgLocked := true } else s.bay c := bay_stickyBay s b _ _ _ _ _ c

/-- The fields of BAY_ALLOC are those of the word (04 R136). -/
def Bay.AllocIs (y : Bay) (v : Word) : Prop :=
  y.allocValid = v.getLsbD 31 ∧ y.flagFirst = (v.extractLsb' 0 8).toNat ∧ y.flagLast = (v.extractLsb' 8 8).toNat ∧
    y.queueFirst = (v.extractLsb' 16 5).toNat ∧ y.queueLast = (v.extractLsb' 24 5).toNat

/-- The fields of BAY_ALLOC are those of another bay state. -/
def Bay.SameAlloc (z y : Bay) : Prop :=
  z.allocValid = y.allocValid ∧ z.flagFirst = y.flagFirst ∧ z.flagLast = y.flagLast ∧ z.queueFirst = y.queueFirst ∧
    z.queueLast = y.queueLast

/-- BAY_ALLOC of a bay that does not run takes the word written (04 R133). -/
theorem writeAlloc_idle {b : Nat} (h : (s.bay b).seq.running = false) (v : Word) : ((s.writeAlloc b v).bay b).AllocIs v := by
  unfold State.writeAlloc
  simp [h, State.bay_modBay, Bay.AllocIs, fld]

/-- BAY_ALLOC of a bay that runs stays as it is, and a write that would change it is locked out (05 R174). -/
theorem writeAlloc_running {b : Nat} (h : (s.bay b).seq.running = true) (v : Word) :
    ((s.writeAlloc b v).bay b).SameAlloc (s.bay b) ∧
      (((s.writeAlloc b v).bay b).cfgLocked = true ∨
        ((s.writeAlloc b v).bay b).cfgLocked = (s.bay b).cfgLocked ∧ (s.bay b).AllocIs v) := by
  unfold State.writeAlloc
  dsimp only
  rw [if_pos h]
  split
  · rename_i hsame
    simp only [Bool.and_eq_true, beq_iff_eq, fld] at hsame
    obtain ⟨⟨⟨⟨hv, hql⟩, hqf⟩, hfl⟩, hff⟩ := hsame
    exact ⟨⟨rfl, rfl, rfl, rfl, rfl⟩, .inr ⟨rfl, hv, hff, hfl, hqf, hql⟩⟩
  · rw [bay_lockBay, if_pos rfl]
    exact ⟨⟨rfl, rfl, rfl, rfl, rfl⟩, .inl rfl⟩

/-! ### The block map (00 R9, R10) -/

/-- The registers of a bay. -/
theorem placeOf_bay (b : BayIx) {r : Nat} (hr : r < 0x800) :
    placeOf (0x1000000 + 0x100000 * (b.val / 72) + 0x1000 * (b.val % 72) + r) = .bay b.val r := by
  have hb : b.val < 1152 := b.isLt
  generalize ho : 0x1000000 + 0x100000 * (b.val / 72) + 0x1000 * (b.val % 72) + r = o
  have hdie : (o - 0x1000000) / 0x100000 = b.val / 72 := by omega
  have hbay : o % 0x100000 / 0x1000 = b.val % 72 := by omega
  have hreg : o % 0x1000 = r := by omega
  have hnum : 72 * (b.val / 72) + b.val % 72 = b.val := by omega
  unfold placeOf
  dsimp only
  rw [if_neg (by omega), if_neg (by omega), if_neg (by omega), if_neg (by omega), if_neg (by omega), if_pos (by omega), hdie, hbay,
    hreg, if_neg (by omega), if_pos hr, hnum]

/-- BAY_ALLOC is register 0x010 of its bay (04 R136). -/
theorem writeReg_bayAlloc (b : BayIx) (v : Word) :
    s.writeReg (0x1000000 + 0x100000 * (b.val / 72) + 0x1000 * (b.val % 72) + 0x10) v = s.writeAlloc b.val v := by
  rw [State.writeReg, placeOf_bay b (by decide)]
  rfl

/-- Nothing lies past the bays. -/
theorem placeOf_nowhere {o : Nat} (h : 0x2000000 ≤ o) : placeOf o = .nowhere := by
  unfold placeOf
  rw [if_neg (by omega), if_neg (by omega), if_neg (by omega), if_neg (by omega), if_neg (by omega), if_neg (by omega)]

/-- A read in the CTL, Keep and housekeeping blocks has no side effect. -/
theorem hostReadReg_low {o : Nat} (h : o < 0x300000) : s.hostReadReg o = s.emit (.regRead o (s.readReg o) (s.streamOf 0)) := by
  have hp : (∃ x, placeOf o = .ctl x) ∨ (∃ x, placeOf o = .keep x) ∨ ∃ x, placeOf o = .hk x := by
    unfold placeOf
    by_cases h1 : o < 0x100000
    · exact .inl ⟨_, if_pos h1⟩
    by_cases h2 : o < 0x200000
    · exact .inr (.inl ⟨_, by rw [if_neg h1, if_pos h2]⟩)
    · exact .inr (.inr ⟨_, by rw [if_neg h1, if_neg h2, if_pos h]⟩)
  unfold State.hostReadReg
  rcases hp with ⟨x, hx⟩ | ⟨x, hx⟩ | ⟨x, hx⟩ <;> rw [hx]

/-! ### Register writes (00 R12; 05 R172) -/

section
variable {s} (hpwr : s.pwr.stage1Up = true)
include hpwr

/-- With stage 1 up a write of PF BAR0 is one of the register at its offset. -/
theorem registerWrite_bar0 (t off : Nat) (v : Word) :
    exec (.registerWrite t (.bar0 off) v) s = .next ((s.tick t).writeReg off v) := by
  simp [exec_registerWrite, execRegisterWrite, hpwr]

theorem registerWrite_busMaster (t fn : Nat) (v : Word) :
    exec (.registerWrite t (.busMaster fn) v) s = .next ((s.tick t).setBusMaster fn (v.getLsbD 0)) := by
  simp [exec_registerWrite, execRegisterWrite, hpwr]

theorem registerWrite_numVfs (t : Nat) (v : Word) :
    exec (.registerWrite t .numVfs v) s = .next ((s.tick t).setNumVfs v.toNat) := by
  simp [exec_registerWrite, execRegisterWrite, hpwr]

theorem mbCntClr_clears (t : Nat) :
    exec (.mbCntClr t) s = .next { s.tick t with host := { s.host with dmaCnt := 0, busyCnt := 0 } } := by
  simp [exec_mbCntClr, execMbCntClr, hpwr, State.modHost]

theorem keepCntClr_clears (t : Nat) :
    exec (.keepCntClr t) s = .next { s.tick t with keep := { s.keep with drops := 0 } } := by
  simp [exec_keepCntClr, execKeepCntClr, hpwr, State.modKeep]

/-- MB_CTRL takes the severity level, and its W1S bit 8 clears the counters (11 R325). -/
theorem writeCtl_mbCtrl (v : Word) : (s.writeCtl 0x4000 v).host = { s.host with
    sevSel := v.extractLsb' 0 2, dmaCnt := if v.getLsbD 8 then 0 else s.host.dmaCnt,
    busyCnt := if v.getLsbD 8 then 0 else s.host.busyCnt } := by
  change ((s.modHost fun h => { h with sevSel := v.extractLsb' 0 2 }).onBit v 8 fun s => s.via (execMbCntClr s.now)).host = _
  unfold State.onBit
  split
  · simp [State.via, execMbCntClr, hpwr, State.modHost]
  · rfl

end

/-- MB_STATUS clears the W1C bits written with 1 (00 R12; 11 R325). -/
theorem writeCtl_mbStatus (v : Word) : (s.writeCtl 0x4004 v).host = { s.host with
    perst := w1c s.host.perst v 3, tlpErr := w1c s.host.tlpErr v 2, dmaErr := w1c s.host.dmaErr v 1,
    busyWrite := w1c s.host.busyWrite v 0 } := rfl

/-- HK_THR_CFG takes its three fields (14 R409). -/
theorem writeHk_thr (v : Word) : (s.writeHk 0x300 v).sense = { s.sense with
    thrMode := v.getLsbD 16, thrOff := v.extractLsb' 8 8, thrOn := v.extractLsb' 0 8 } := rfl

/-- Bus Master Enable of a function is the bit written (11 R305). -/
theorem setBusMaster_busMaster {fn : Nat} (hfn : s.fnExists fn = true) (on : Bool) :
    mget false (s.setBusMaster fn on).host.busMaster fn = on := by
  unfold State.setBusMaster
  rw [if_pos hfn]
  have h := congrArg HostIf.busMaster (sendPending_settled (s.modHost fun h => { h with busMaster := mset false h.busMaster fn on }) fn)
  exact (congrArg (mget false · fn) h).trans (mget_mset_same fn on)

/-- NumVFs is set once, to at most 1,024 (11 R301). -/
theorem setNumVfs_numVfs (h0 : s.host.numVfs = 0) {n : Nat} (hpos : 0 < n) (hn : n ≤ 1024) :
    (s.setNumVfs n).host.numVfs = n := by
  unfold State.setNumVfs
  rw [if_neg (by omega), if_pos ⟨h0, hn⟩]
  rfl

/-! ### TLPs (11 R304, R324; 12 R337) -/

/-- A TLP on this function is accepted: the link is up, the function exists and the TLP is on the stream it requires. -/
structure State.TakesTlp (s : State) (fn : Nat) (on : Bool) : Prop where
  up : s.endpointUp = true
  link : s.host.linkUp = true
  fnExists : s.fnExists fn = true
  stream : s.outsideStream fn on = false

/-- What an accepted TLP does. -/
def State.serveTlp (s : State) (fn : Nat) : Tlp → State
  | .slotWrite slot off b => s.postWrite fn slot off b
  | .regWrite off v => if fn = 0 then s.writeReg off v else s
  | .regRead off => if fn = 0 then s.hostReadReg off else s.emit (.regRead off 0 (s.streamOf fn))
  | .slotRead completion slot off len => s.readSlot fn completion slot off len
  | .winWrite off b => s.winWrite fn off b
  | .winRead off len => s.winRead fn off len
  | .cfgRead dw => s.cfgRead fn dw
  | .malformed aerBit dw0 dw1 => s.badTlp fn aerBit dw0 dw1

@[simp] theorem tick_endpointUp (t : Nat) : (s.tick t).endpointUp = s.endpointUp := rfl
@[simp] theorem tick_fnExists (t fn : Nat) : (s.tick t).fnExists fn = s.fnExists fn := rfl
@[simp] theorem tick_outsideStream (t fn : Nat) (on : Bool) : (s.tick t).outsideStream fn on = s.outsideStream fn on := rfl
@[simp] theorem tick_novkoUp (t : Nat) : (s.tick t).novkoUp = s.novkoUp := rfl

section
variable {s} {fn : Nat} {on : Bool}

theorem tlpReceive_served (h : s.TakesTlp fn on) (t : Nat) (x : Tlp) :
    exec (.tlpReceive t fn on x) s = .next ((s.tick t).serveTlp fn x) := by
  cases x <;> simp [exec_tlpReceive, execTlpReceive, h.up, h.link, h.fnExists, h.stream, State.serveTlp]

/-- A TLP off the stream its function requires is dropped. -/
theorem tlpReceive_dropped (hup : s.endpointUp = true) (hlink : s.host.linkUp = true) (hfn : s.fnExists fn = true)
    (hout : s.outsideStream fn on = true) (t : Nat) {x : Tlp} (hx : Tlp.config x = false) :
    exec (.tlpReceive t fn on x) s = .next ((s.tick t).dropTlp fn x) := by
  simp [exec_tlpReceive, execTlpReceive, hup, hlink, hfn, hout, hx]

/-- Where a function's TLP is accepted, the PF's on its stream is. -/
theorem State.TakesTlp.pf (h : s.TakesTlp fn on) : s.TakesTlp 0 true :=
  ⟨h.up, h.link, by simp [State.fnExists], by simp [State.outsideStream]⟩

end

/-- The completion slots are read-only (11 R304, R310). -/
theorem winWrite_completion {off : Nat} (hlo : 0x4000 ≤ off) (hhi : off < 0x8000) (fn : Nat) (b : List Byte) :
    s.winWrite fn off b = s := by
  unfold State.winWrite
  rw [if_neg (by omega), if_neg (by omega)]

/-- The class code of a configuration read of double word 2 (11 R301). -/
theorem cfgRead_classCode (fn : Nat) :
    ∃ w : Word, (s.cfgRead fn 2).out = .cfgRead fn 2 w :: s.out ∧ w.toNat / 256 = 0x120000 := by
  refine ⟨BitVec.ofNat 32 (classCode * 256 + s.freeVal % 256), rfl, ?_⟩
  have hlow : s.freeVal % 256 < 256 := Nat.mod_lt _ (by decide)
  rw [BitVec.toNat_ofNat, classCode]
  omega

/-- A malformed TLP sets TLP_ERR, and the first one logs its snag (11 R324). -/
theorem badTlp_tlpErr (fn aerBit : Nat) (d0 d1 : Word) : (s.badTlp fn aerBit d0 d1).host.tlpErr = true := by
  unfold State.badTlp State.snagFn
  dsimp only
  split
  · rfl
  · exact congrArg HostIf.tlpErr (snag_settled _ _ _ _ _ _)

theorem badTlp_snags (hup : s.novkoUp = true) (hfirst : s.host.tlpErr = false) (fn aerBit : Nat) (d0 d1 : Word) :
    ∃ r, (s.badTlp fn aerBit d0 d1).snags = r :: s.snags ∧ r.code = 0x6040 ∧ r.args = [aerBit, d0.toNat, d1.toNat, 0] := by
  have hup' : (s.modHost fun h => { h with tlpErr := true }).novkoUp = true := hup
  unfold State.badTlp State.snagFn
  dsimp only
  rw [if_neg (by simp [hfirst])]
  exact ⟨_, snag_snags _ hup' _ _ _ _ _, rfl, rfl⟩

@[simp] theorem random_ideDrop (n : Nat) : (s.random n).1.keep.ideDrop = s.keep.ideDrop := by
  unfold State.random
  dsimp only
  split <;> rfl

@[simp] theorem random_drops (n : Nat) : (s.random n).1.keep.drops = s.keep.drops := by
  unfold State.random
  dsimp only
  split <;> rfl

@[simp] theorem random_host (n : Nat) : (s.random n).1.host = s.host := rfl

/-- Dropping a TLP logs a snag the first time and answers a non-posted request; neither touches the slots (12 R337). -/
theorem dropTlp_settled (fn : Nat) (x : Tlp) : (s.dropTlp fn x).host.settled = s.host.settled := by
  unfold State.dropTlp State.snagFn
  dsimp only
  repeat' split
  all_goals simp

/-- A dropped TLP is counted (12 R354). -/
theorem dropTlp_keep (fn : Nat) (x : Tlp) :
    (s.dropTlp fn x).keep.ideDrop = true ∧ (s.dropTlp fn x).keep.drops = min (s.keep.drops + 1) 0xFFFF := by
  unfold State.dropTlp State.snagFn
  dsimp only
  repeat' split
  all_goals simp [satAdd]

/-! ### The tenants' snapshot (12 R346) -/

/-- A 10 ms window that has not been taken yet is taken. -/
theorem tenantSnapshotWindow_takes {t : Nat} (hm : s.mode ≠ .off) (hw : s.snap.time < (s.tick t).mtime / 10000000 * 10000000) :
    exec (.tenantSnapshotWindow t) s = .next { s.tick t with snap := { s.snap with
      time := (s.tick t).mtime / 10000000 * 10000000, panels := s.panels, bays := s.bays, rtrs := s.rtrs,
      ctx0 := s.ctx0.stopped (max s.now t), ctx1 := s.ctx1.stopped (max s.now t), fab := s.fab, resil := s.resil,
      sense := s.sense } } := by
  simp [exec_tenantSnapshotWindow, execTenantSnapshotWindow, hm, hw]

end Sys2Proof.Machine

namespace Sys2Proof

open Machine

/-- Settles O47: a TLP is served or dropped by its function and stream, and what a register write does follows from where the block map
places its offset and from the write rule of the register there. -/
theorem tlpsAndRegistersAct : Obligations.TlpsAndRegistersAct := by
  intro t fn off slot on b v d0 d1 bay s bar
  refine ⟨fun hup hlink hfn hin => ?_, fun hup hlink hfn hout => ?_, fun hpwr => ?_, fun hm hw => ?_⟩
  · have h : s.TakesTlp fn on := ⟨hup, hlink, hfn, hin⟩
    refine ⟨tlpReceive_served h t _, fun hpwr => ?_, fun hne => ⟨?_, ?_⟩, fun hlow => ?_, fun n => tlpReceive_served h t _,
      fun hlo hhi => ?_, ?_, ?_⟩
    · exact (tlpReceive_served h.pf t _).trans (registerWrite_bar0 hpwr t off v).symm
    · rw [tlpReceive_served h, State.serveTlp, if_neg hne]
    · rw [tlpReceive_served h, State.serveTlp, if_neg hne]; rfl
    · rw [tlpReceive_served h.pf, State.serveTlp, if_pos rfl, hostReadReg_low _ hlow]; rfl
    · rw [tlpReceive_served h, State.serveTlp, winWrite_completion _ hlo hhi]
    · obtain ⟨w, hout, hcode⟩ := cfgRead_classCode (s.tick t) fn
      exact ⟨w, _, tlpReceive_served h t _, hout, hcode⟩
    · exact ⟨_, tlpReceive_served h t _, badTlp_tlpErr _ fn slot d0 d1,
        fun hnovko hfirst => badTlp_snags (s.tick t) hnovko hfirst fn slot d0 d1⟩
  · obtain ⟨hdrop, hcount⟩ := dropTlp_keep (s.tick t) fn (.slotWrite slot off b)
    have hslot := slot_of_settled (dropTlp_settled (s.tick t) fn (.slotWrite slot off b)) fn slot
    exact ⟨_, tlpReceive_dropped hup hlink hfn hout t rfl, hslot, hdrop, hcount⟩
  · have htick : (s.tick t).pwr.stage1Up = true := hpwr
    have hbar := registerWrite_bar0 hpwr t
    refine ⟨⟨_, hbar _ v, ?_⟩, ⟨_, hbar _ v, writeCtl_mbStatus (s.tick t) v⟩, ⟨_, hbar _ v, ?_⟩, ⟨_, hbar _ v, ?_⟩,
      fun hoff => ?_, fun hfn => ?_, fun h0 hpos hn => ?_, mbCntClr_clears hpwr t, keepCntClr_clears hpwr t⟩
    · have hctl := writeCtl_mbCtrl htick v
      exact ⟨congrArg HostIf.sevSel hctl, congrArg HostIf.dmaCnt hctl, congrArg HostIf.busyCnt hctl⟩
    · have hthr := writeHk_thr (s.tick t) v
      exact ⟨congrArg Sense.thrOn hthr, congrArg Sense.thrOff hthr, congrArg Sense.thrMode hthr⟩
    · rw [writeReg_bayAlloc]
      dsimp only
      split
      · rename_i hrun
        obtain ⟨⟨hvalid, hff, hfl, hqf, hql⟩, hlock⟩ := writeAlloc_running (s.tick t) hrun v
        exact ⟨hvalid, hff, hfl, hqf, hql, hlock⟩
      · rename_i hrun
        exact writeAlloc_idle (s.tick t) (Bool.eq_false_iff.2 hrun) v
    · exact (hbar off v).trans (by rw [State.writeReg, placeOf_nowhere hoff])
    · exact ⟨_, registerWrite_busMaster hpwr t fn v, setBusMaster_busMaster (s.tick t) hfn _⟩
    · exact ⟨_, registerWrite_numVfs hpwr t v, setNumVfs_numVfs (s.tick t) h0 hpos hn⟩
  · exact ⟨_, tenantSnapshotWindow_takes s hm hw, rfl, rfl, rfl, rfl, rfl, rfl, rfl, rfl⟩

end Sys2Proof
end

section
/-! SUPPORT. What every command, and so every step, keeps. -/

namespace Sys2Proof.Machine

/-- Every command keeps what `Kept` says, and changes the time and the parts named for it only. -/
theorem exec_kept (c : Instr) (s : State) : Kept.Out (.now :: c.touches) s (exec c s) := by
  cases c with
  | inputPowerOn t => exact execInputPowerOn_kept (Kept.refl s) t rfl
  | inputPowerLoss t => exact execInputPowerLoss_kept (Kept.refl s) t rfl
  | supplyWarningAssert t mv => exact execSupplyWarningAssert_kept (Kept.refl s) t mv rfl
  | supplyWarningRelease t mv => exact execSupplyWarningRelease_kept (Kept.refl s) t mv rfl
  | sagHoldExpiry t => exact execSagHoldExpiry_kept (Kept.refl s) t rfl
  | resetThreshold t => exact execResetThreshold_kept (Kept.refl s) t rfl
  | resetThresholdRelease t => exact execResetThresholdRelease_kept (Kept.refl s) t rfl
  | overvoltageCut t => exact execOvervoltageCut_kept (Kept.refl s) t rfl
  | overvoltageRelease t => exact execOvervoltageRelease_kept (Kept.refl s) t rfl
  | overcurrentCut t => exact execOvercurrentCut_kept (Kept.refl s) t rfl
  | modRstNAssert t => exact execModRstNAssert_kept (Kept.refl s) t rfl
  | modRstNRelease t => exact execModRstNRelease_kept (Kept.refl s) t rfl
  | stage1InRegulation t => exact execStage1InRegulation_kept (Kept.refl s) t rfl
  | stage2InRegulation t => exact execStage2InRegulation_kept (Kept.refl s) t rfl
  | stage3GroupInRegulation t => exact execStage3GroupInRegulation_kept (Kept.refl s) t rfl
  | railFault t rail mv => exact execRailFault_kept (Kept.refl s) t rail mv rfl
  | railRampTimeout t rail mv => exact execRailRampTimeout_kept (Kept.refl s) t rail mv rfl
  | vauxFault t => exact execVauxFault_kept (Kept.refl s) t rfl
  | thermalTrip t die => exact execThermalTrip_kept (Kept.refl s) t die rfl
  | sagThrottleWrite t v => exact execSagThrottleWrite_kept (Kept.refl s) t v rfl
  | ctlPwrLeafVsetWrite t n v => exact execCtlPwrLeafVsetWrite_kept (Kept.refl s) t n v rfl
  | vsetCommit t => exact execVsetCommit_kept (Kept.refl s) t rfl
  | vsetRampDone t => exact execVsetRampDone_kept (Kept.refl s) t rfl
  | getTid t => exact execGetTid_kept (Kept.refl s) t rfl
  | getPldmVersion t ty => exact execGetPldmVersion_kept (Kept.refl s) t ty rfl
  | getPldmTypes t => exact execGetPldmTypes_kept (Kept.refl s) t rfl
  | getPldmCommands t ty => exact execGetPldmCommands_kept (Kept.refl s) t ty rfl
  | pldmFirmwareUpdate t bankB img => exact execPldmFirmwareUpdate_kept (Kept.refl s) t bankB img rfl
  | setCoords t rec => exact execSetCoords_kept (Kept.refl s) t rec rfl
  | getCoords t => exact execGetCoords_kept (Kept.refl s) t rfl
  | getPowerStatus t => exact execGetPowerStatus_kept (Kept.refl s) t rfl
  | sidebandSnagRead t cursor max => exact execSidebandSnagRead_kept (Kept.refl s) t cursor max rfl
  | getPrimerStatus t => exact execGetPrimerStatus_kept (Kept.refl s) t rfl
  | pldmUnsupportedCommand t ty code => exact execPldmUnsupportedCommand_kept (Kept.refl s) t ty code rfl
  | primerVerifyDone t mv st => exact execPrimerVerifyDone_kept (Kept.refl s) t mv st rfl
  | configReadDone t digestOk => exact execConfigReadDone_kept (Kept.refl s) t digestOk rfl
  | d2dLinkTrainingDone t b port ok => exact execD2dLinkTrainingDone_kept (Kept.refl s) t b port ok rfl
  | hbmStackTrainingDone t stack ok => exact execHbmStackTrainingDone_kept (Kept.refl s) t stack ok rfl
  | startupCalibrationDone t res exc lad => exact execStartupCalibrationDone_kept (Kept.refl s) t res exc lad rfl
  | readyEntry t => exact execReadyEntry_kept (Kept.refl s) t rfl
  | panelOpStart t b p => exact execPanelOpStart_kept (Kept.refl s) t b p rfl
  | computeOpComplete t b p devs rf => exact execComputeOpComplete_kept (Kept.refl s) t b p devs rf rfl
  | skimComplete t b p res => exact execSkimComplete_kept (Kept.refl s) t b p res rfl
  | rowAccessStart t b p => exact execRowAccessStart_kept (Kept.refl s) t b p rfl
  | rowWriteCommit t b p => exact execRowWriteCommit_kept (Kept.refl s) t b p rfl
  | rowReadComplete t b p flips => exact execRowReadComplete_kept (Kept.refl s) t b p flips rfl
  | pnlCntClr t b p => exact execPnlCntClr_kept (Kept.refl s) t b p rfl
  | pnlWitMismatchClear t b p => exact execPnlWitMismatchClear_kept (Kept.refl s) t b p rfl
  | pnlWinDataClear t b p v => exact execPnlWinDataClear_kept (Kept.refl s) t b p v rfl
  | pnlLiveWrite t b p live => exact execPnlLiveWrite_kept (Kept.refl s) t b p live rfl
  | strokeStart t b ups => exact execStrokeStart_kept (Kept.refl s) t b ups rfl
  | scratchpadAccessesComplete t b => exact execScratchpadAccessesComplete_kept (Kept.refl s) t b rfl
  | segmentWakeDone t b seg => exact execSegmentWakeDone_kept (Kept.refl s) t b seg rfl
  | segmentSleep t b seg => exact execSegmentSleep_kept (Kept.refl s) t b seg rfl
  | drainComplete t b rf => exact execDrainComplete_kept (Kept.refl s) t b rf rfl
  | add t b rf => exact execAdd_kept (Kept.refl s) t b rf rfl
  | sub t b rf => exact execSub_kept (Kept.refl s) t b rf rfl
  | mul t b rf => exact execMul_kept (Kept.refl s) t b rf rfl
  | fma t b rf => exact execFma_kept (Kept.refl s) t b rf rfl
  | max t b => exact execMax_kept (Kept.refl s) t b rfl
  | min t b => exact execMin_kept (Kept.refl s) t b rfl
  | requant t b rf => exact execRequant_kept (Kept.refl s) t b rf rfl
  | cvt t b => exact execCvt_kept (Kept.refl s) t b rfl
  | relu t b => exact execRelu_kept (Kept.refl s) t b rfl
  | exp t b => exact execExp_kept (Kept.refl s) t b rfl
  | recip t b => exact execRecip_kept (Kept.refl s) t b rfl
  | rsqrt t b => exact execRsqrt_kept (Kept.refl s) t b rfl
  | gelu t b => exact execGelu_kept (Kept.refl s) t b rfl
  | silu t b => exact execSilu_kept (Kept.refl s) t b rfl
  | rsum t b rf => exact execRsum_kept (Kept.refl s) t b rf rfl
  | rmax t b => exact execRmax_kept (Kept.refl s) t b rfl
  | rsumsq t b rf => exact execRsumsq_kept (Kept.refl s) t b rf rfl
  | mmLoadb t b => exact execMmLoadb_kept (Kept.refl s) t b rfl
  | mmMul t b rf => exact execMmMul_kept (Kept.refl s) t b rf rfl
  | mmDrain t b rf => exact execMmDrain_kept (Kept.refl s) t b rf rfl
  | send t b k => exact execSend_kept (Kept.refl s) t b k rfl
  | recv t b k => exact execRecv_kept (Kept.refl s) t b k rfl
  | push t b k => exact execPush_kept (Kept.refl s) t b k rfl
  | pop t b k ups => exact execPop_kept (Kept.refl s) t b k ups rfl
  | copy t b k => exact execCopy_kept (Kept.refl s) t b k rfl
  | flagsend t b k => exact execFlagsend_kept (Kept.refl s) t b k rfl
  | faultWindowClose t b => exact execFaultWindowClose_kept (Kept.refl s) t b rfl
  | mgmtAccessServe t b => exact execMgmtAccessServe_kept (Kept.refl s) t b rfl
  | baySpDataAccess t b wr => exact execBaySpDataAccess_kept (Kept.refl s) t b wr rfl
  | bayCntClr t b => exact execBayCntClr_kept (Kept.refl s) t b rfl
  | bayFlagsWrite t b n v => exact execBayFlagsWrite_kept (Kept.refl s) t b n v rfl
  | baySegCtrlWrite t b v => exact execBaySegCtrlWrite_kept (Kept.refl s) t b v rfl
  | bayAllocInvalidate t b => exact execBayAllocInvalidate_kept (Kept.refl s) t b rfl
  | bayStrokeCntRead t b => exact execBayStrokeCntRead_kept (Kept.refl s) t b rfl
  | flagSetMessage t src b m => exact execFlagSetMessage_kept (Kept.refl s) t src b m rfl
  | stepRelease t src b gen prog slots => exact execStepRelease_kept (Kept.refl s) t src b gen prog slots rfl
  | swapArm t src b gen ents => exact execSwapArm_kept (Kept.refl s) t src b gen ents rfl
  | swapFlip t src b gen layer => exact execSwapFlip_kept (Kept.refl s) t src b gen layer rfl
  | auditArm t src b gen stroke => exact execAuditArm_kept (Kept.refl s) t src b gen stroke rfl
  | mgmtQueuePush t src b m => exact execMgmtQueuePush_kept (Kept.refl s) t src b m rfl
  | scratchpadWriteMessage t src b ms => exact execScratchpadWriteMessage_kept (Kept.refl s) t src b ms rfl
  | scratchpadReadMessage t src b m => exact execScratchpadReadMessage_kept (Kept.refl s) t src b m rfl
  | weightRow t src b ms => exact execWeightRow_kept (Kept.refl s) t src b ms rfl
  | rowReadback t src b m => exact execRowReadback_kept (Kept.refl s) t src b m rfl
  | dataLineAccept t src b m => exact execDataLineAccept_kept (Kept.refl s) t src b m rfl
  | lineForward t b out => exact execLineForward_kept (Kept.refl s) t b out rfl
  | linkCrcFail t b port => exact execLinkCrcFail_kept (Kept.refl s) t b port rfl
  | rtrHardFenceWrite t b => exact execRtrHardFenceWrite_kept (Kept.refl s) t b rfl
  | rtrLocalCloseWrite t b v => exact execRtrLocalCloseWrite_kept (Kept.refl s) t b v rfl
  | rtrCntClr t b => exact execRtrCntClr_kept (Kept.refl s) t b rfl
  | contextRequestArrival t k link ms => exact execContextRequestArrival_kept (Kept.refl s) t k link ms rfl
  | attend t k e iss ups => exact execAttend_kept (Kept.refl s) t k e iss ups rfl
  | append t k e iss ups => exact execAppend_kept (Kept.refl s) t k e iss ups rfl
  | commitSet t k => exact execCommitSet_kept (Kept.refl s) t k rfl
  | kvRead t k iss ups => exact execKvRead_kept (Kept.refl s) t k iss ups rfl
  | kvWrite t k iss ups => exact execKvWrite_kept (Kept.refl s) t k iss ups rfl
  | spillRead t k iss ups => exact execSpillRead_kept (Kept.refl s) t k iss ups rfl
  | spillWrite t k iss => exact execSpillWrite_kept (Kept.refl s) t k iss rfl
  | fwRead t k iss ups => exact execFwRead_kept (Kept.refl s) t k iss ups rfl
  | fwWrite t k iss => exact execFwWrite_kept (Kept.refl s) t k iss rfl
  | pageZero t k iss => exact execPageZero_kept (Kept.refl s) t k iss rfl
  | pageCopy t k iss ups => exact execPageCopy_kept (Kept.refl s) t k iss ups rfl
  | refreshDue t k stack ch => exact execRefreshDue_kept (Kept.refl s) t k stack ch rfl
  | forcedRefresh t k stack ch => exact execForcedRefresh_kept (Kept.refl s) t k stack ch rfl
  | arbStarve t k stack ch req level => exact execArbStarve_kept (Kept.refl s) t k stack ch req level rfl
  | ctxPoolPush t k v => exact execCtxPoolPush_kept (Kept.refl s) t k v rfl
  | ctxCntClr t k => exact execCtxCntClr_kept (Kept.refl s) t k rfl
  | ctxStarveCapClear t k => exact execCtxStarveCapClear_kept (Kept.refl s) t k rfl
  | submit t fn slot dma => exact execSubmit_kept (Kept.refl s) t fn slot dma rfl
  | cancel t fn slot => exact execCancel_kept (Kept.refl s) t fn slot rfl
  | prefixKeep t fn slot => exact execPrefixKeep_kept (Kept.refl s) t fn slot rfl
  | prefixDrop t fn slot => exact execPrefixDrop_kept (Kept.refl s) t fn slot rfl
  | stepDoneNotice t b gen => exact execStepDoneNotice_kept (Kept.refl s) t b gen rfl
  | resultMessage t ms => exact execResultMessage_kept (Kept.refl s) t ms rfl
  | schedulingPoint t plan => exact execSchedulingPoint_kept (Kept.refl s) t plan rfl
  | deadlineExpiry t fn id => exact execDeadlineExpiry_kept (Kept.refl s) t fn id rfl
  | weightsInstallNonce t fn slot => exact execWeightsInstallNonce_kept (Kept.refl s) t fn slot rfl
  | installNonceExpiry t => exact execInstallNonceExpiry_kept (Kept.refl s) t rfl
  | weightsInstallWrite t fn slot auth img => exact execWeightsInstallWrite_kept (Kept.refl s) t fn slot auth img rfl
  | weightsInstallErase t fn slot auth => exact execWeightsInstallErase_kept (Kept.refl s) t fn slot auth rfl
  | weightsSelect t fn slot => exact execWeightsSelect_kept (Kept.refl s) t fn slot rfl
  | panelDoneNotice t b p gen => exact execPanelDoneNotice_kept (Kept.refl s) t b p gen rfl
  | weightsDigest t fn slot => exact execWeightsDigest_kept (Kept.refl s) t fn slot rfl
  | storeReadError t dev block op => exact execStoreReadError_kept (Kept.refl s) t dev block op rfl
  | storeDeviceFail t dev => exact execStoreDeviceFail_kept (Kept.refl s) t dev rfl
  | portTrainingDone t p lanes plane rack down => exact execPortTrainingDone_kept (Kept.refl s) t p lanes plane rack down rfl
  | linkIdFlit t p plane rack down => exact execLinkIdFlit_kept (Kept.refl s) t p plane rack down rfl
  | widthFlit t p w => exact execWidthFlit_kept (Kept.refl s) t p w rfl
  | nakFlit t p reason seq vc ack => exact execNakFlit_kept (Kept.refl s) t p reason seq vc ack rfl
  | idleFlit t p f => exact execIdleFlit_kept (Kept.refl s) t p f rfl
  | dataFlit t p f => exact execDataFlit_kept (Kept.refl s) t p f rfl
  | mgmtFlit t p f => exact execMgmtFlit_kept (Kept.refl s) t p f rfl
  | fabricReplayTimeout t p => exact execFabricReplayTimeout_kept (Kept.refl s) t p rfl
  | portAutoRetrain t p => exact execPortAutoRetrain_kept (Kept.refl s) t p rfl
  | laneBad t p lane uncorr ratio => exact execLaneBad_kept (Kept.refl s) t p lane uncorr ratio rfl
  | widthChangeDone t p => exact execWidthChangeDone_kept (Kept.refl s) t p rfl
  | controlFlitRepeat t p => exact execControlFlitRepeat_kept (Kept.refl s) t p rfl
  | fabricEgressMessage t link ms => exact execFabricEgressMessage_kept (Kept.refl s) t link ms rfl
  | genNotice t src plan st gen auth => exact execGenNotice_kept (Kept.refl s) t src plan st gen auth rfl
  | genNoticeTimer t => exact execGenNoticeTimer_kept (Kept.refl s) t rfl
  | stepOrder t src plan stepNo prog swap rerun slots recs => exact execStepOrder_kept (Kept.refl s) t src plan stepNo prog swap rerun slots recs rfl
  | stepReport t src plan stepNo done late resident measured => exact execStepReport_kept (Kept.refl s) t src plan stepNo done late resident measured rfl
  | stepAbort t src plan stepNo => exact execStepAbort_kept (Kept.refl s) t src plan stepNo rfl
  | peerTimeoutExpiry t plan peer => exact execPeerTimeoutExpiry_kept (Kept.refl s) t plan peer rfl
  | keyRequest t m => exact execKeyRequest_kept (Kept.refl s) t m rfl
  | keyGrant t m => exact execKeyGrant_kept (Kept.refl s) t m rfl
  | keyAck t session sender auth => exact execKeyAck_kept (Kept.refl s) t session sender auth rfl
  | keyRequestResend t session => exact execKeyRequestResend_kept (Kept.refl s) t session rfl
  | sessionSetupTimeout t session => exact execSessionSetupTimeout_kept (Kept.refl s) t session rfl
  | fabPortRelease t p => exact execFabPortRelease_kept (Kept.refl s) t p rfl
  | fabPortRetrain t p => exact execFabPortRetrain_kept (Kept.refl s) t p rfl
  | fabPortCntClr t p => exact execFabPortCntClr_kept (Kept.refl s) t p rfl
  | fabCntClr t => exact execFabCntClr_kept (Kept.refl s) t rfl
  | endpointReset t linkLoss => exact execEndpointReset_kept (Kept.refl s) t linkLoss rfl
  | functionLevelReset t fn => exact execFunctionLevelReset_kept (Kept.refl s) t fn rfl
  | d3hotEntry t fn => exact execD3hotEntry_kept (Kept.refl s) t fn rfl
  | vfDisable t => exact execVfDisable_kept (Kept.refl s) t rfl
  | commandPost t fn slot off b => exact execCommandPost_kept (Kept.refl s) t fn slot off b rfl
  | tlpReceive t fn onStream x => exact execTlpReceive_kept (Kept.refl s) t fn onStream x rfl
  | ideKSetGo t fn => exact execIdeKSetGo_kept (Kept.refl s) t fn rfl
  | ideKSetStop t fn => exact execIdeKSetStop_kept (Kept.refl s) t fn rfl
  | ideKeyProg t => exact execIdeKeyProg_kept (Kept.refl s) t rfl
  | deviceInfo t fn slot => exact execDeviceInfo_kept (Kept.refl s) t fn slot rfl
  | configLoad t fn slot dma => exact execConfigLoad_kept (Kept.refl s) t fn slot dma rfl
  | configCommit t fn slot => exact execConfigCommit_kept (Kept.refl s) t fn slot rfl
  | planLoad t fn slot dma => exact execPlanLoad_kept (Kept.refl s) t fn slot dma rfl
  | planUnload t fn slot => exact execPlanUnload_kept (Kept.refl s) t fn slot rfl
  | planStart t fn slot => exact execPlanStart_kept (Kept.refl s) t fn slot rfl
  | planStop t fn slot => exact execPlanStop_kept (Kept.refl s) t fn slot rfl
  | sessionOpenHost t fn slot => exact execSessionOpenHost_kept (Kept.refl s) t fn slot rfl
  | sessionOpenLeader t fn slot => exact execSessionOpenLeader_kept (Kept.refl s) t fn slot rfl
  | sessionOpenFollower t fn slot => exact execSessionOpenFollower_kept (Kept.refl s) t fn slot rfl
  | sessionCloseHost t fn slot => exact execSessionCloseHost_kept (Kept.refl s) t fn slot rfl
  | sessionCloseFabric t fn slot => exact execSessionCloseFabric_kept (Kept.refl s) t fn slot rfl
  | counters t fn slot => exact execCounters_kept (Kept.refl s) t fn slot rfl
  | snagRead t fn slot => exact execSnagRead_kept (Kept.refl s) t fn slot rfl
  | attest t fn slot => exact execAttest_kept (Kept.refl s) t fn slot rfl
  | attestCert t fn slot => exact execAttestCert_kept (Kept.refl s) t fn slot rfl
  | fence t fn slot => exact execFence_kept (Kept.refl s) t fn slot rfl
  | fenceRouter t fn slot => exact execFenceRouter_kept (Kept.refl s) t fn slot rfl
  | unfence t fn slot => exact execUnfence_kept (Kept.refl s) t fn slot rfl
  | resetCompute t fn slot => exact execResetCompute_kept (Kept.refl s) t fn slot rfl
  | expertEnable t fn slot => exact execExpertEnable_kept (Kept.refl s) t fn slot rfl
  | mbCntClr t => exact execMbCntClr_kept (Kept.refl s) t rfl
  | keepCntClr t => exact execKeepCntClr_kept (Kept.refl s) t rfl
  | entropyHealthFail t test => exact execEntropyHealthFail_kept (Kept.refl s) t test rfl
  | entropyRetest t ok => exact execEntropyRetest_kept (Kept.refl s) t ok rfl
  | drbgReseed t => exact execDrbgReseed_kept (Kept.refl s) t rfl
  | faultNotice t b gen kinds panels cnt => exact execFaultNotice_kept (Kept.refl s) t b gen kinds panels cnt rfl
  | auditSignature t b gen stroke crc => exact execAuditSignature_kept (Kept.refl s) t b gen stroke crc rfl
  | auditSignatureTimeout t plan => exact execAuditSignatureTimeout_kept (Kept.refl s) t plan rfl
  | hangSample t => exact execHangSample_kept (Kept.refl s) t rfl
  | coreWatchdogExpiry t core => exact execCoreWatchdogExpiry_kept (Kept.refl s) t core rfl
  | quiesceDone t => exact execQuiesceDone_kept (Kept.refl s) t rfl
  | computeResetDone t skims => exact execComputeResetDone_kept (Kept.refl s) t skims rfl
  | weightRedigestDone t bad => exact execWeightRedigestDone_kept (Kept.refl s) t bad rfl
  | hbmRetrainDone t failed => exact execHbmRetrainDone_kept (Kept.refl s) t failed rfl
  | fabricRetrainDone t => exact execFabricRetrainDone_kept (Kept.refl s) t rfl
  | resumeDone t => exact execResumeDone_kept (Kept.refl s) t rfl
  | recoveryTimeout t => exact execRecoveryTimeout_kept (Kept.refl s) t rfl
  | adcConversion t ch code ovr merged => exact execAdcConversion_kept (Kept.refl s) t ch code ovr merged rfl
  | adcCalPeriod t => exact execAdcCalPeriod_kept (Kept.refl s) t rfl
  | hkSelfCal t => exact execHkSelfCal_kept (Kept.refl s) t rfl
  | adcSelfCalDone t offset gain refMv bgMv => exact execAdcSelfCalDone_kept (Kept.refl s) t offset gain refMv bgMv rfl
  | ladderTrimTick t => exact execLadderTrimTick_kept (Kept.refl s) t rfl
  | ladderStepApply t die => exact execLadderStepApply_kept (Kept.refl s) t die rfl
  | sensorReading t n v merged => exact execSensorReading_kept (Kept.refl s) t n v merged rfl
  | sensorSilent t n => exact execSensorSilent_kept (Kept.refl s) t n rfl
  | skipHoldEnd t b => exact execSkipHoldEnd_kept (Kept.refl s) t b rfl
  | powerWindow t leaves => exact execPowerWindow_kept (Kept.refl s) t leaves rfl
  | tenantSnapshotWindow t => exact execTenantSnapshotWindow_kept (Kept.refl s) t rfl
  | manualDivWrite t leaf v => exact execManualDivWrite_kept (Kept.refl s) t leaf v rfl
  | hkXingCntClr t => exact execHkXingCntClr_kept (Kept.refl s) t rfl
  | registerWrite t a v => exact execRegisterWrite_kept (Kept.refl s) t a v rfl
  | pcieLinkUp t speed => exact execPcieLinkUp_kept (Kept.refl s) t speed rfl
  | mctpControlMessage t code => exact execMctpControlMessage_kept (Kept.refl s) t code rfl
  | planStartPeerTimeout t plan => exact execPlanStartPeerTimeout_kept (Kept.refl s) t plan rfl
  | doeSpdmRequest t code => exact execDoeSpdmRequest_kept (Kept.refl s) t code rfl
  | msixVectorUnmask t fn vec => exact execMsixVectorUnmask_kept (Kept.refl s) t fn vec rfl

variable {L : List Field} {s t : State}

theorem Kept.inv (h : Kept L s t) (i : s.Inv) : t.Inv := by
  obtain ⟨hmem, hmaps, hsnags, hoff⟩ := i
  exact ⟨h.mem hmem, h.maps hmaps, h.ordered ⟨hsnags, hoff⟩⟩

/-- A step takes commands off the queue, and keeps what its command keeps. -/
theorem step_kept (h : step s = .next t) : ∃ L q, Kept L { s with pending := q } t := by
  unfold step at h
  split at h
  · injection h with h
    exact ⟨[], s.pending, h ▸ Kept.refl s⟩
  · rename_i c q _
    exact ⟨_, q, exec_kept c _ t h⟩

/-- The state after reset lists nothing, and stage 1 is out of regulation (01 R31). -/
theorem reset_inv : State.reset.Inv :=
  ⟨⟨List.forall_mem_nil _, List.forall_mem_nil _, canonical_nil _, canonical_nil _, List.forall_mem_nil _⟩,
    ⟨canonical_nil _, canonical_nil _, canonical_nil _⟩, rfl, iff_of_true rfl rfl⟩

end Sys2Proof.Machine

namespace Sys2Proof

open Machine

/-- Settles O41: every command keeps the invariant, and the queue, which alone a step changes besides, is no part of it. -/
theorem everyStepKeepsTheInvariant : Obligations.EveryStepKeepsTheInvariant := by
  intro s t h
  obtain ⟨L, q, k⟩ := step_kept h
  exact ⟨fun i => k.inv i, k.now, k.svn, k.out⟩

/-- Settles O40: after reset nothing is listed and no command waits. -/
theorem invariantHoldsAtReset : Obligations.InvariantHoldsAtReset :=
  ⟨reset_inv, rfl, rfl⟩

end Sys2Proof
end

section
/-! SUPPORT. The power sequencer: what the reset conditions, the ramps of the rails, the supply warning, the leaves' set points and the
faults of rails do to the power state (chapter 01). -/

namespace Sys2Proof.Machine

variable (s : State)

section
variable {a b : State} {c : Prop} [Decidable c] {P : State → Prop}

/-- A command whose condition holds takes its effect. -/
theorem next_ite_pos (hc : c) (h : P a) : Next (.next (if c then a else b)) P := ⟨a, congrArg _ (if_pos hc), h⟩

theorem next_ite_neg (hc : ¬c) (h : P b) : Next (.next (if c then a else b)) P := ⟨b, congrArg _ (if_neg hc), h⟩

end

/-! ### Reset conditions (01 R21, R25–R28, R33) -/

theorem Power.vauxUp_of_released {p : Power} (h : p.resetAsserted = false) : p.vauxUp = true := by
  simp only [Power.resetAsserted, Bool.or_eq_false_iff, Bool.not_eq_false'] at h
  obtain ⟨⟨⟨⟨⟨⟨hup, -⟩, -⟩, -⟩, -⟩, -⟩, -⟩ := h
  exact hup

/-- Without VAUX the reset is asserted, and with it an overvoltage asserts it (01 R25, R28). -/
theorem Power.overVolt_resets (p : Power) : ({ p with overVolt := p.vauxUp } : Power).resetAsserted = true := by
  change (!p.vauxUp || p.underVolt || p.vauxUp || p.ocLatch || p.thermLatch || p.railLatch || p.rstN) = true
  cases p.vauxUp <;> simp

/-- The module has gone to OFF by a reset of this cause, which is recorded; only what needs no power is kept (01 R26, R27). -/
def State.ResetBy (u s : State) (cause rail : Nat) : Prop :=
  u.mode = .off ∧ u.pwr.resetAsserted = true ∧ u.pwr.offCause = cause ∧ u.pwr.offRail = rail ∧ u.pwr.offAt = s.now ∧ u.pwr.rails = [] ∧
    u.pwrGood = false ∧ u.panels = [] ∧ u.bays = [] ∧ u.snags = [] ∧ u.gen = 1 ∧ u.nvm = s.nvm ∧ u.flash = s.flash ∧ u.store = s.store

section
variable {s} {f : Power → Power}

/-- A condition that arises while the reset is released takes the module to OFF with the condition set. -/
theorem assertReset_released (h : s.pwr.resetAsserted = false) (cause rail : Nat) (f : Power → Power) : ∃ armed,
    s.assertReset cause rail f = (State.goOff { s with pwr := { f s.pwr with wasArmed := armed } }).recordOff cause rail := by
  unfold State.assertReset
  dsimp only
  rw [if_neg (by simp [h])]
  exact ⟨_, rfl⟩

theorem assertReset_resetBy (h : s.pwr.resetAsserted = false) (hf : (f s.pwr).resetAsserted = true) (cause rail : Nat) :
    (s.assertReset cause rail f).ResetBy s cause rail := by
  obtain ⟨armed, e⟩ := assertReset_released h cause rail f
  have hu : (s.assertReset cause rail f).pwr.resetAsserted = true := by rw [e]; exact hf
  have hgood : (s.assertReset cause rail f).pwrGood = false := by simp [State.pwrGood, hu]
  rw [e] at hu hgood ⊢
  exact ⟨rfl, hu, rfl, rfl, rfl, rfl, hgood, rfl, rfl, rfl, rfl, rfl, rfl, rfl⟩

/-- A condition that arises while the reset is asserted, at a later instant than the record's, is set and no more (01 R26). -/
theorem assertReset_later (h : s.pwr.resetAsserted = true) (hat : s.pwr.offAt < s.now) (cause rail : Nat) (f : Power → Power) :
    s.assertReset cause rail f = { s with pwr := f s.pwr } := by
  have hne : (s.pwr.offAt == s.now) = false := by simpa using hat.ne
  unfold State.assertReset
  simp [h, hne]

theorem overcurrentCut_released (h : s.pwr.resetAsserted = false) (t : Nat) : exec (.overcurrentCut t) s =
    .next ((s.tick t).assertReset 6 0xFF fun p => { p with ocLatch := p.vauxUp }) := by
  simp [exec_overcurrentCut, execOvercurrentCut, h]

theorem overcurrentCut_later (h : s.pwr.resetAsserted = true) {t : Nat} (hat : s.pwr.offAt < max s.now t) :
    exec (.overcurrentCut t) s = .next (s.tick t) := by
  have hne : s.pwr.offAt ≠ max s.now t := hat.ne
  simp [exec_overcurrentCut, execOvercurrentCut, h, hne]

theorem thermalTrip_armed {die : Fin 32} (h : s.comparatorArmed die = true) (t : Nat) : exec (.thermalTrip t die) s =
    .next ((s.tick t).assertReset 3 0xFF fun p => { p with thermLatch := true }) := by
  have harmed : (s.tick t).comparatorArmed die = true := h
  simp [exec_thermalTrip, execThermalTrip, harmed]

end

/-! ### Writes of several keys -/

section
variable {α : Type} {d : α}

/-- What is read after each key of a list is written in turn, where a second write of a key changes nothing more. -/
theorem mget_foldl {g : SMap α → Nat → SMap α} {f : Nat → α → α}
    (hg : ∀ m r k, mget d (g m r) k = if k = r then f k (mget d m k) else mget d m k) (hf : ∀ k x, f k (f k x) = f k x)
    (l : List Nat) (m : SMap α) (k : Nat) : mget d (l.foldl g m) k = if k ∈ l then f k (mget d m k) else mget d m k := by
  induction l generalizing m with
  | nil => rfl
  | cons r l ih =>
    rw [List.foldl_cons, ih, hg]
    by_cases hk : k = r
    · simp [hk, hf]
    · simp [hk]

variable [DecidableEq α] {v : Nat → α}

theorem mget_foldl_mset (l : List Nat) (m : SMap α) (k : Nat) :
    mget d (l.foldl (fun m r => mset d m r (v r)) m) k = if k ∈ l then v k else mget d m k := by
  refine mget_foldl (f := fun k _ => v k) (fun m r k => ?_) (fun _ _ => rfl) l m k
  rw [mget_mset]
  by_cases hk : k = r <;> simp [hk]

theorem mget_foldl_mset_if {c : Nat → Prop} [DecidablePred c] (l : List Nat) (m : SMap α) (k : Nat) :
    mget d (l.foldl (fun m r => if c r then mset d m r (v r) else m) m) k = if k ∈ l ∧ c k then v k else mget d m k := by
  rw [ite_and]
  refine mget_foldl (f := fun k x => if c k then v k else x) (fun m r k => ?_) (fun k _ => by split <;> rfl) l m k
  by_cases hr : c r
  · rw [if_pos hr, mget_mset]
    by_cases hk : k = r <;> simp [hk, hr]
  · rw [if_neg hr]
    by_cases hk : k = r <;> simp [hk, hr]

end

/-! ### Rails and ramps (01 R31, R32) -/

theorem mem_map_range_add (a n k : Nat) : k ∈ (List.range n).map (a + ·) ↔ a ≤ k ∧ k < a + n := by
  simp only [List.mem_map, List.mem_range]
  exact ⟨by rintro ⟨i, hi, rfl⟩; omega, fun h => ⟨k - a, by omega, by omega⟩⟩

theorem stage2Rails_ge : ∀ r ∈ stage2Rails, 32 ≤ r := by decide

section
variable (p : Power) (l : List Nat)

@[simp] theorem Power.moveRails_rampAt (a b : Rail) : (p.moveRails l a b).rampAt = p.rampAt := rfl

/-- The rails `l` in one state go to another; every other rail stays. -/
theorem mget_moveRails (a b : Rail) (k : Nat) :
    mget .off (p.moveRails l a b).rails k = if k ∈ l ∧ mget .off p.rails k = a then b else mget .off p.rails k := by
  rw [ite_and]
  refine mget_foldl (f := fun _ x => if x = a then b else x) (fun m r k => ?_) (fun k x => ?_) l p.rails k
  · by_cases hr : mget .off m r = a
    · rw [if_pos hr, mget_mset]
      by_cases hk : k = r <;> simp [hk, hr]
    · rw [if_neg hr]
      by_cases hk : k = r <;> simp [hk, hr]
  · by_cases hx : x = a <;> simp [hx]

/-- A rail that has moved was in the one state and is in the other. -/
theorem moveRails_moved (a b : Rail) (q : Nat) : mget .off (p.moveRails l a b).rails q = mget .off p.rails q ∨
    mget .off p.rails q = a ∧ mget .off (p.moveRails l a b).rails q = b := by
  rw [mget_moveRails]
  split
  · rename_i hq
    exact .inr ⟨hq.2, rfl⟩
  · exact .inl rfl

/-- Rails that are off, waiting or ramping come into regulation. -/
theorem mget_raiseRails (now k : Nat) : mget .off (p.raiseRails l now).rails k =
    if k ∈ l ∧ mget .off p.rails k ∈ [Rail.off, .wait, .ramp] then .up else mget .off p.rails k := by
  unfold Power.raiseRails
  simp only [mget_moveRails]
  by_cases hk : k ∈ l
  · cases mget .off p.rails k <;> simp [hk]
  · simp [hk]

/-- Of the rails of a stage that are off the first starts to ramp, and the others wait. -/
theorem mget_startRamp (now k : Nat) : mget .off (p.startRamp l now).rails k =
    if mget .off p.rails k = .off then if k ∈ l.take 1 then .ramp else if k ∈ l.drop 1 then .wait else .off
    else mget .off p.rails k := by
  unfold Power.startRamp
  simp only [mget_moveRails]
  by_cases hoff : mget .off p.rails k = .off
  · by_cases hfirst : k ∈ l.take 1 <;> simp [hoff, hfirst]
  · simp [hoff]

theorem startRamp_rampAt (now k : Nat) : mget 0 (p.startRamp l now).rampAt k =
    if k ∈ l ∧ mget .off p.rails k = .off then now else mget 0 p.rampAt k :=
  mget_foldl_mset_if (c := fun r => mget .off p.rails r = .off) (v := fun _ => now) l p.rampAt k

/-- The first group of leaves starts to ramp, and the others wait. -/
theorem mget_startLeaves (now k : Nat) : mget .off (p.startLeaves now).rails k =
    if mget .off p.rails k = .off ∧ k < 32 then if k < 4 then .ramp else .wait else mget .off p.rails k := by
  unfold Power.startLeaves
  simp only [mget_moveRails, mem_map_range_add, List.mem_range]
  by_cases hoff : mget .off p.rails k = .off
  · by_cases h4 : k < 4
    · simp [hoff, h4, show k < 32 by omega]
    · simp [hoff, h4, show 4 ≤ k by omega]
  · simp [hoff]

theorem startLeaves_rampAt (now k : Nat) : mget 0 (p.startLeaves now).rampAt k =
    if k < 32 then now + 1000000 * (k / 4) else mget 0 p.rampAt k := by
  simp only [Power.startLeaves, Power.moveRails_rampAt, mget_foldl_mset, List.mem_range]

/-- A start of ramps writes the state of the rails and when their ramps start, and no more. -/
theorem startRamp_eq (now : Nat) : ∃ rails rampAt, p.startRamp l now = { p with rails := rails, rampAt := rampAt } := ⟨_, _, rfl⟩

theorem startLeaves_eq (now : Nat) : ∃ rails rampAt, p.startLeaves now = { p with rails := rails, rampAt := rampAt } := ⟨_, _, rfl⟩

theorem raiseRails_eq (now : Nat) : ∃ rails upAt, p.raiseRails l now = { p with rails := rails, upAt := upAt } := ⟨_, _, rfl⟩

@[simp] theorem raiseRails_groups (now : Nat) : (p.raiseRails l now).groups = p.groups := rfl

@[simp] theorem startLeaves_groups (now : Nat) : (p.startLeaves now).groups = p.groups := by
  obtain ⟨_, _, e⟩ := startLeaves_eq p now
  rw [e]

end

theorem tryStart_eq : ∃ rails rampAt, s.tryStart = { s with pwr := { s.pwr with rails := rails, rampAt := rampAt } } := by
  unfold State.tryStart
  split
  · exact ⟨s.pwr.rails, s.pwr.rampAt, rfl⟩
  · obtain ⟨_, _, e⟩ := startRamp_eq s.pwr stage1Rails s.now
    exact ⟨_, _, by rw [e]⟩

@[simp] theorem tryStart_resetAsserted : s.tryStart.pwr.resetAsserted = s.pwr.resetAsserted := by
  obtain ⟨_, _, e⟩ := tryStart_eq s
  rw [e]
  rfl

@[simp] theorem startPorts_mode : s.startPorts.mode = s.mode :=
  (startPorts_kept (L := .fab :: logged) (Kept.refl s) (by decide)).frame .mode (by decide)

@[simp] theorem startPorts_pwr : s.startPorts.pwr = s.pwr :=
  (startPorts_kept (L := .fab :: logged) (Kept.refl s) (by decide)).frame .pwr (by decide)

section
variable {s}

/-- Once no condition is left stage 1 starts: its first rail ramps, and the others wait for their turn (01 R31). -/
theorem tryStart_stage1 (hrails : s.pwr.rails = []) (hdown : s.pwr.stage1Up = false) : ∀ r ∈ stage1Rails,
    mget .off s.tryStart.pwr.rails r = (if s.tryStart.pwr.resetAsserted then .off else if r = 74 then .ramp else .wait) ∧
      (s.tryStart.pwr.resetAsserted = false → mget 0 s.tryStart.pwr.rampAt r = s.now) := by
  intro r hr
  have hoff : mget .off s.pwr.rails r = .off := by rw [hrails, mget]
  rw [tryStart_resetAsserted]
  cases ha : s.pwr.resetAsserted
  · have e : s.tryStart = { s with pwr := s.pwr.startRamp stage1Rails s.now } := if_neg (by simp [ha, hdown])
    rw [e]
    refine ⟨?_, fun _ => ?_⟩
    · dsimp only
      rw [mget_startRamp, if_pos hoff]
      simp only [stage1Rails, List.mem_cons, List.not_mem_nil, or_false] at hr
      rcases hr with rfl | rfl | rfl | rfl | rfl <;> rfl
    · dsimp only
      rw [startRamp_rampAt, if_pos ⟨hr, hoff⟩]
  · have e : s.tryStart = s := if_pos (by simp [ha])
    rw [e]
    exact ⟨hoff, fun h => nomatch h⟩

/-- Stage 2 in regulation starts the groups of leaves (01 R32). -/
theorem stage2InRegulation_starts (hreq : s.pwr.stage2Req = true) (hdown : s.pwr.stage2Up = false) (hwarn : s.pwr.vinWarn = false) (t : Nat) :
    Next (exec (.stage2InRegulation t) s) fun u => u.mode = s.mode ∧ u.pwr.stage2Up = true ∧ u.pwr.groups = s.pwr.groups ∧
      u.pwr.rails = ((s.pwr.raiseRails stage2Rails (max s.now t)).startLeaves (max s.now t)).rails ∧
      u.pwr.rampAt = ((s.pwr.raiseRails stage2Rails (max s.now t)).startLeaves (max s.now t)).rampAt := by
  refine next_ite_pos (by simp [hreq, hdown, hwarn]) ?_
  simp only [startPorts_mode, startPorts_pwr, startLeaves_groups, raiseRails_groups, State.tick_pwr, State.tick_now, State.tick_mode,
    and_self]

end

/-! ### Snags and interrupts -/

@[simp] theorem snag_pwr (code sev die unit : Nat) (args : List Nat) : (s.snag code sev die unit args).pwr = s.pwr :=
  snag_same s code sev die unit args (f := .pwr) (by decide)

@[simp] theorem snag_bays (code sev die unit : Nat) (args : List Nat) : (s.snag code sev die unit args).bays = s.bays :=
  snag_same s code sev die unit args (f := .bays) (by decide)

@[simp] theorem snag_now (code sev die unit : Nat) (args : List Nat) : (s.snag code sev die unit args).now = s.now :=
  snag_same s code sev die unit args (f := .now) (by decide)

@[simp] theorem raise_pwr (fn vec : Nat) : (s.raise fn vec).pwr = s.pwr :=
  (raise_kept (L := [.host, .out]) (Kept.refl s) fn vec (by decide)).frame .pwr (by decide)

/-- Before Novko runs nothing is logged (01 R42). -/
theorem snag_of_novko_down (h : s.novkoUp = false) (code sev die unit : Nat) (args : List Nat) :
    s.snag code sev die unit args = s := if_neg (by simp [h])

/-- Since `s` one snag was logged if Novko runs, and else none (00 R15; 01 R42). -/
def State.Logged (u s : State) (code sev : Nat) (args : List Nat) : Prop :=
  if s.novkoUp then ∃ r, u.snags = r :: s.snags ∧ r.code = code ∧ r.sev = sev ∧ r.args = args else u.snags = s.snags

theorem snag_logged (code sev die unit : Nat) (args : List Nat) :
    (s.snag code sev die unit args).Logged s code sev ((args ++ [0, 0, 0, 0]).take 4) := by
  unfold State.Logged
  split
  · exact ⟨_, snag_snags s ‹_› code sev die unit args, rfl, rfl, rfl⟩
  · rw [snag_of_novko_down s (Bool.eq_false_iff.2 ‹_›)]

/-! ### The supply warning (01 R25, R29, R42) -/

/-- The supply warning as it is held, before what makes it known (01 R25, R29). -/
def State.warned (s : State) (mv : Nat) : State :=
  { s with pwr := { s.pwr with
    vinWarn := true, warnAt := s.now, minMv := mv, sagHold := false,
    vinWarnSeen := s.pwr.vinWarnSeen || s.pwr.stage1Up,
    sagActing := s.pwr.sagActing || (s.pwr.sagThrottle && s.pwr.stage1Up) } }

/-- The supply warning as it is released, before what its release logs and starts (01 R25, R29). -/
def State.warningOver (s : State) (mv : Nat) : State :=
  { s with pwr := { s.pwr with
    vinWarn := false, warnOff := s.now, minMv := min s.pwr.minMv mv, sagHold := s.pwr.sagActing } }

/-- What makes the warning known, an intrusion, a snag and an interrupt, leaves the power state alone. -/
theorem warning_logged (c d : State → Bool) (code sev : Nat) (args : Power → List Nat) :
    let x := if c s then s.intrude 0 else s
    let y := x.snagCtl code sev (args x.pwr)
    let u := if d y then y.pfIrq vecPower else y
    u.pwr = s.pwr ∧ u.Logged s code sev ((args s.pwr ++ [0, 0, 0, 0]).take 4) := by
  have irq {y : State} (hpwr : y.pwr = s.pwr) (hlog : y.Logged s code sev ((args s.pwr ++ [0, 0, 0, 0]).take 4)) :
      let u := if d y then y.pfIrq vecPower else y
      u.pwr = s.pwr ∧ u.Logged s code sev ((args s.pwr ++ [0, 0, 0, 0]).take 4) := by
    dsimp only
    split
    · exact ⟨(raise_pwr _ _ _).trans hpwr, by rw [State.Logged, State.pfIrq, raise_snags]; exact hlog⟩
    · exact ⟨hpwr, hlog⟩
  dsimp only
  split
  · exact irq (snag_pwr _ _ _ _ _ _) (snag_logged (s.intrude 0) _ _ _ _ _)
  · exact irq (snag_pwr _ _ _ _ _ _) (snag_logged s _ _ _ _ _)

/-- The release of the supply warning changes the rails and when their ramps start, and no more (01 R31, R32). -/
theorem resumeRamps_eq : ∃ rails rampAt, s.resumeRamps = { s with pwr := { s.pwr with rails := rails, rampAt := rampAt } } := by
  unfold State.resumeRamps
  dsimp only
  split
  · exact ⟨s.pwr.rails, _, rfl⟩
  · split
    · exact ⟨_, _, rfl⟩
    · exact ⟨s.pwr.rails, s.pwr.rampAt, rfl⟩

theorem resumeRamps_logged (code sev : Nat) (args : List Nat) :
    let u := (s.snagCtl code sev args).resumeRamps
    (∃ rails rampAt, u.pwr = { s.pwr with rails := rails, rampAt := rampAt }) ∧
      u.Logged s code sev ((args ++ [0, 0, 0, 0]).take 4) := by
  obtain ⟨rails, rampAt, e⟩ := resumeRamps_eq (s.snagCtl code sev args)
  have hpwr : (s.snagCtl code sev args).pwr = s.pwr := snag_pwr _ _ _ _ _ _
  dsimp only
  rw [e, hpwr]
  exact ⟨⟨rails, rampAt, rfl⟩, snag_logged s code sev 19 0x7FF args⟩

/-- With VAUX in regulation the warning drives ALERT_N low (01 R23). -/
theorem alertLow_of_vinWarn (hup : s.pwr.vauxUp = true) (hwarn : s.pwr.vinWarn = true) : s.alertLow = true := by
  simp [State.alertLow, hup, hwarn]

section
variable {s}

theorem supplyWarningAssert_warns (hoff : s.pwr.vinWarn = false) (hup : s.pwr.vauxUp = true) (t mv : Nat) :
    Next (exec (.supplyWarningAssert t mv) s) fun u => u.pwr = ((s.tick t).warned mv).pwr ∧
      u.Logged ((s.tick t).warned mv) 0x8001 1 [mv, if s.pwr.sagThrottle then 1 else 0, 0, 0] :=
  next_ite_neg (by simp [hoff, hup]) (warning_logged ((s.tick t).warned mv) (fun y => y.pwr.sagActing)
    (fun y => y.novkoUp && y.pwr.warnIrqEn) 0x8001 1 fun p => [mv, if p.sagThrottle then 1 else 0])

theorem supplyWarningRelease_logs (hon : s.pwr.vinWarn = true) (hup : s.pwr.vauxUp = true) (t mv : Nat) :
    Next (exec (.supplyWarningRelease t mv) s) fun u =>
      (∃ rails rampAt, u.pwr = { ((s.tick t).warningOver mv).pwr with rails := rails, rampAt := rampAt }) ∧
      u.Logged ((s.tick t).warningOver mv) 0x8002 0 [(max s.now t - s.pwr.warnAt) / 1000, min s.pwr.minMv mv, 0, 0] :=
  next_ite_neg (by simp [hon, hup]) (resumeRamps_logged ((s.tick t).warningOver mv) 0x8002 0
    [(max s.now t - s.pwr.warnAt) / 1000, min s.pwr.minMv mv])

theorem sagThrottleWrite_writes (h1 : s.pwr.stage1Up = true) (t : Nat) (v : Bool) :
    Next (exec (.sagThrottleWrite t v) s) fun u => u.pwr = (s.writeSagThrottle v).pwr := by
  refine next_ite_pos h1 ?_
  dsimp only
  split <;> rfl

end

/-! ### Leaf set points (01 R43; 00 R13) -/

/-- Whether a leaf is idle depends on the rails and the bays alone. -/
theorem leafIdle_congr {s u : State} (hrails : u.pwr.rails = s.pwr.rails) (hbays : u.bays = s.bays) (leaf : Nat) :
    u.leafIdle leaf = s.leafIdle leaf := by
  unfold State.leafIdle
  rw [hrails, hbays]

theorem settleLeaf_eq (p : Power) (leaf : Nat) : ∃ vset vsetStg, p.settleLeaf leaf = { p with vset := vset, vsetStg := vsetStg } := by
  unfold Power.settleLeaf
  split
  · exact ⟨p.vset, p.vsetStg, rfl⟩
  · exact ⟨_, _, rfl⟩

/-- A settled leaf takes the code staged for it. -/
theorem settleLeaf_get {p : Power} {leaf c : Nat} (h : (mget {} p.vsetStg leaf).code = some c) (k : Nat) :
    mget 20 (p.settleLeaf leaf).vset k = (if k = leaf then c else mget 20 p.vset k) ∧
      mget {} (p.settleLeaf leaf).vsetStg k = if k = leaf then {} else mget {} p.vsetStg k := by
  have e : p.settleLeaf leaf = { p with vset := mset 20 p.vset leaf c, vsetStg := mset {} p.vsetStg leaf {} } := by
    unfold Power.settleLeaf
    rw [h]
  rw [e]
  exact ⟨mget_mset 20 p.vset leaf c k, mget_mset {} p.vsetStg leaf {} k⟩

/-- A leaf with a code staged, before an idle leaf takes it. -/
def State.stageLeaf (s : State) (leaf code : Nat) : State :=
  { s with pwr := { s.pwr with
    vsetStg := mset {} s.pwr.vsetStg leaf ((mget ({} : LeafStg) s.pwr.vsetStg leaf).write s.now (min code 30)) } }

section
variable (leaf code : Nat)

theorem stageLeaf_get (k : Nat) : mget {} (s.stageLeaf leaf code).pwr.vsetStg k =
    if k = leaf then (mget ({} : LeafStg) s.pwr.vsetStg leaf).write s.now (min code 30) else mget {} s.pwr.vsetStg k := by
  unfold State.stageLeaf
  rw [mget_mset]

/-- A write of a set point logs a snag for code 31, stages the code and lets an idle leaf take it. -/
theorem writeLeafVset_eq : ∃ u : State, u.pwr = s.pwr ∧ u.now = s.now ∧ u.bays = s.bays ∧ s.writeLeafVset leaf code =
    if s.leafIdle leaf then { u.stageLeaf leaf code with pwr := (u.stageLeaf leaf code).pwr.settleLeaf leaf } else u.stageLeaf leaf code := by
  have staged (u : State) (hpwr : u.pwr = s.pwr) (hbays : u.bays = s.bays) : (u.stageLeaf leaf code).leafIdle leaf = s.leafIdle leaf :=
    leafIdle_congr (congrArg Power.rails hpwr) hbays leaf
  unfold State.writeLeafVset
  dsimp only
  by_cases h31 : code = 31
  · refine ⟨s.snagCtl 0x8021 1 [leaf / 2, leaf % 2], snag_pwr _ _ _ _ _ _, snag_now _ _ _ _ _ _, snag_bays _ _ _ _ _ _, ?_⟩
    rw [if_pos h31, ← staged _ (snag_pwr _ _ _ _ _ _) (snag_bays _ _ _ _ _ _)]
    rfl
  · refine ⟨s, rfl, rfl, rfl, ?_⟩
    rw [if_neg h31, ← staged s rfl rfl]
    rfl

theorem writeLeafVset_bays : (s.writeLeafVset leaf code).bays = s.bays := by
  obtain ⟨u, _, _, hbays, e⟩ := writeLeafVset_eq s leaf code
  rw [e]
  split <;> exact hbays

theorem writeLeafVset_rails : (s.writeLeafVset leaf code).pwr.rails = s.pwr.rails := by
  obtain ⟨u, hpwr, _, _, e⟩ := writeLeafVset_eq s leaf code
  obtain ⟨_, _, es⟩ := settleLeaf_eq (u.stageLeaf leaf code).pwr leaf
  rw [e, es, ← hpwr]
  split <;> rfl

@[simp] theorem writeLeafVset_leafIdle (k : Nat) : (s.writeLeafVset leaf code).leafIdle k = s.leafIdle k :=
  leafIdle_congr (writeLeafVset_rails s leaf code) (writeLeafVset_bays s leaf code) k

/-- A write of a leaf's set point stages code 31 as 30, and an idle leaf takes it at once. -/
theorem writeLeafVset_get (k : Nat) :
    mget 20 (s.writeLeafVset leaf code).pwr.vset k = (if k = leaf ∧ s.leafIdle leaf then min code 30 else mget 20 s.pwr.vset k) ∧
    (mget {} (s.writeLeafVset leaf code).pwr.vsetStg k).code =
      if k = leaf then if s.leafIdle leaf then none else some (min code 30) else (mget {} s.pwr.vsetStg k).code := by
  obtain ⟨u, hpwr, hnow, _, e⟩ := writeLeafVset_eq s leaf code
  have hstg := stageLeaf_get u leaf code
  rw [hpwr, hnow] at hstg
  have hvset : (u.stageLeaf leaf code).pwr.vset = s.pwr.vset := (congrArg Power.vset hpwr :)
  rw [e]
  cases s.leafIdle leaf
  · refine ⟨by simp [hvset], ?_⟩
    by_cases hk : k = leaf <;> simp [hstg, hk, LeafStg.write]
  · obtain ⟨hv, hs⟩ := settleLeaf_get (p := (u.stageLeaf leaf code).pwr) (leaf := leaf) (c := min code 30)
      (by simp [hstg, LeafStg.write]) k
    simp only [if_true, hv, hs, hvset, hstg, and_true]
    by_cases hk : k = leaf <;> simp [hk]

end

/-- What a commit leaves staged of a leaf (00 R13). -/
def LeafStg.left (x : LeafStg) (now : Nat) : LeafStg := if x.at_ < now then {} else { x with old := none }

theorem LeafStg.left_left (x : LeafStg) (now : Nat) : (x.left now).left now = x.left now := by
  by_cases h : x.at_ < now <;> simp [LeafStg.left, h]

theorem LeafStg.left_taken (x : LeafStg) (now : Nat) : (x.left now).taken now = none := by
  by_cases h : x.at_ < now <;> simp [LeafStg.left, LeafStg.taken, h]

theorem commitLeaf_get (p : Power) (now leaf k : Nat) :
    let x := mget ({} : LeafStg) p.vsetStg k
    mget {} (p.commitLeaf now leaf).vsetStg k = (if k = leaf then x.left now else x) ∧
    mget 20 (p.commitLeaf now leaf).vset k = if k = leaf then (x.taken now).getD (mget 20 p.vset k) else mget 20 p.vset k := by
  unfold Power.commitLeaf
  dsimp only
  refine ⟨?_, ?_⟩
  · rw [mget_mset]
    by_cases hk : k = leaf <;> simp [hk, LeafStg.left]
  · by_cases hk : k = leaf
    · subst hk
      cases (mget ({} : LeafStg) p.vsetStg k).taken now <;> simp [mget_mset]
    · cases (mget ({} : LeafStg) p.vsetStg leaf).taken now <;> simp [hk, mget_mset]

/-- A commit over a list of leaves, each of which may come more than once. -/
theorem commitLeaves_get (l : SMap LeafStg) (p : Power) (now k : Nat) :
    let q := l.foldl (fun p e => p.commitLeaf now e.1) p
    let x := mget ({} : LeafStg) p.vsetStg k
    mget {} q.vsetStg k = (if k ∈ l.map Prod.fst then x.left now else x) ∧
    mget 20 q.vset k = if k ∈ l.map Prod.fst then (x.taken now).getD (mget 20 p.vset k) else mget 20 p.vset k := by
  induction l generalizing p with
  | nil => exact ⟨rfl, rfl⟩
  | cons e l ih =>
    obtain ⟨hstg, hvset⟩ := ih (p.commitLeaf now e.1)
    obtain ⟨hstg1, hvset1⟩ := commitLeaf_get p now e.1 k
    dsimp only at hstg hvset hstg1 hvset1 ⊢
    rw [List.foldl_cons, hstg, hvset, hstg1, hvset1]
    by_cases hk : k = e.1
    · subst hk
      simp [LeafStg.left_left, LeafStg.left_taken]
    · simp only [List.map_cons, List.mem_cons, hk, false_or, if_false, and_self]

/-- A commit lets every leaf take the code staged before its instant, and leaves what was staged at that instant (00 R13). -/
theorem commitVset_get (k : Nat) :
    let x := mget ({} : LeafStg) s.pwr.vsetStg k
    mget {} s.commitVset.pwr.vsetStg k = x.left s.now ∧
    mget 20 s.commitVset.pwr.vset k = (x.taken s.now).getD (mget 20 s.pwr.vset k) := by
  obtain ⟨hstg, hvset⟩ := commitLeaves_get s.pwr.vsetStg s.pwr s.now k
  by_cases hk : k ∈ s.pwr.vsetStg.map Prod.fst
  · exact ⟨hstg.trans (if_pos hk), hvset.trans (if_pos hk)⟩
  · have hx : mget ({} : LeafStg) s.pwr.vsetStg k = {} := mget_default fun e he h => hk (List.mem_map.2 ⟨e, he, h⟩)
    refine ⟨hstg.trans ?_, hvset.trans ?_⟩
    · simp [hk, hx, LeafStg.left]
    · simp [hk, hx, LeafStg.taken]

/-! ### What a recovery leaves of the power state (01 R43; 13 R368) -/

/-- The power state apart from the leaves' codes, which leaves that fall idle may take (01 R43). -/
def Power.butCodes (p : Power) : Power := { p with vset := [], vsetStg := [] }

@[simp] theorem settleLeaf_butCodes (p : Power) (leaf : Nat) : (p.settleLeaf leaf).butCodes = p.butCodes := by
  obtain ⟨_, _, e⟩ := settleLeaf_eq p leaf
  rw [e]
  rfl

@[simp] theorem settleLeaves_butCodes : s.settleLeaves.pwr.butCodes = s.pwr.butCodes := by
  refine List.foldlRecOn _ _ (motive := fun p : Power => p.butCodes = s.pwr.butCodes) rfl fun p hp e _ => ?_
  split
  · exact (settleLeaf_butCodes p e.1).trans hp
  · exact hp

@[simp] theorem resetCompute_butCodes : s.resetCompute.pwr.butCodes = s.pwr.butCodes := settleLeaves_butCodes _

/-- What the end of a plan, a fence or a lost Context die may change: no part of the power state. -/
def unpowered : List Field :=
  [.free, .mode, .panels, .bays, .rtrs, .ctx0, .ctx1, .pages, .prefixes, .plans, .reqs, .weights, .fab, .host, .keep, .resil, .snags,
    .snagNext, .out]

theorem within_unpowered : Within unpowered unpowered := by decide

theorem Kept.pwr_eq {s t : State} (h : Kept unpowered s t) : t.pwr = s.pwr := h.frame .pwr (by decide)

@[simp] theorem setMode_pwr (m : Mode) : (s.setMode m).pwr = s.pwr := by
  have hl := within_unpowered
  unfold State.setMode
  split
  · rfl
  · exact (noticeAll_kept (foldl_kept (fun _ _ g => raise_kept g _ _) (Kept.refl { s with mode := m }))).pwr_eq

@[simp] theorem fenceBays_pwr (l : List Nat) (cause : Nat) : (s.fenceBays l cause).pwr = s.pwr := by
  have hl := within_unpowered
  exact (fenceBays_kept (Kept.refl s) l cause).pwr_eq

@[simp] theorem withdraw_butCodes (cause : Nat) : (s.withdraw cause).pwr.butCodes = s.pwr.butCodes := by
  have hl := within_unpowered
  unfold State.withdraw
  lift_lets
  intro s1 s2 s3 s4 s5 s6
  have h1 : s1.pwr = s.pwr := (snag_pwr _ _ _ _ _ _).trans (setMode_pwr s .withdrawn)
  have k2 : Kept unpowered s1 s2 := foldl_kept (fun _ _ g => by
    split
    · exact Kept.ite (fun _ => rollback_kept g _) fun _ => g
    · exact g) (Kept.refl s1)
  have k3 : Kept unpowered s1 s3 := Kept.ite (fun _ => endSelect_kept k2 _ _ _) fun _ => k2
  have k4 : Kept unpowered s1 s4 := foldl_kept (fun _ _ g => stopPlan_kept g _ _ _) k3
  have h5 : s5.pwr = s.pwr := k4.pwr_eq.trans h1
  have k6 : Kept unpowered s5.resetCompute s6 := applyFences_kept (settleStops_kept (Kept.refl _))
  have k7 := completeWaits_kept (modResil_kept k6 fun x => { x with stage := 0, again := false, abort := false })
    WaitKind.cut stWithdrawn 0 []
  rw [k7.pwr_eq, resetCompute_butCodes, h5]

@[simp] theorem startRecovery_butCodes (cause : Nat) (counted abort : Bool) :
    (s.startRecovery cause counted abort).pwr.butCodes = s.pwr.butCodes := by
  unfold State.startRecovery
  dsimp only
  split
  · rfl
  · split
    · exact withdraw_butCodes s 0
    · rw [setMode_pwr]; rfl

@[simp] theorem detected_butCodes (f : Found) : (s.detected f).pwr.butCodes = s.pwr.butCodes := by
  unfold State.detected
  dsimp only
  split
  · rfl
  · split
    · rw [State.modResil_pwr, fenceBays_pwr, State.modResil_pwr]
    · split
      · rw [fenceBays_pwr]
        split
        · rw [State.modResil_pwr, startRecovery_butCodes]
        · rw [startRecovery_butCodes]
      · rw [fenceBays_pwr, State.modResil_pwr]

@[simp] theorem lostRail_butCodes (r : Nat) : (s.lostRail r).pwr.butCodes = s.pwr.butCodes := by
  have hl := within_unpowered
  unfold State.lostRail
  split
  · exact detected_butCodes s _
  · split
    · rw [State.hardFound, detected_butCodes, (hardFenceDie_kept (Kept.refl s) _ _ : Kept unpowered _ _).pwr_eq]
    · split
      · exact detected_butCodes s _
      · split
        · rfl
        · rw [(closeSlots_kept (loseCtx_kept (Kept.refl s) _) _ : Kept unpowered _ _).pwr_eq]

/-! ### Rail faults (01 R34) -/

/-- The rails once a fault has switched off rail `r` and those that hang on it. -/
def cutRails (m : SMap Rail) (r : Nat) : SMap Rail :=
  (railDependents r).foldl (fun m d => if mget .off m d = .fault then m else mset .off m d .cut) (mset .off m r .fault)

theorem not_mem_railDependents : ∀ r < 74, r ∉ railDependents r := by decide

theorem mget_cutRails (m : SMap Rail) {r : Nat} (hr : r < 74) (q : Nat) : mget .off (cutRails m r) q =
    if q = r then .fault
    else if q ∈ railDependents r then if mget .off m q = .fault then .fault else .cut else mget .off m q := by
  have hcut : mget .off (cutRails m r) q = if q ∈ railDependents r then
      if mget .off (mset .off m r .fault) q = .fault then .fault else .cut else mget .off (mset .off m r .fault) q := by
    refine mget_foldl (f := fun _ x => if x = Rail.fault then .fault else .cut) (fun m d k => ?_) (fun k x => ?_) _ _ q
    · by_cases hd : mget .off m d = .fault
      · rw [if_pos hd]
        by_cases hk : k = d <;> simp [hk, hd]
      · rw [if_neg hd, mget_mset]
        by_cases hk : k = d <;> simp [hk, hd]
    · by_cases hx : x = .fault <;> simp [hx]
  rw [hcut, mget_mset]
  by_cases hq : q = r
  · subst hq; simp [not_mem_railDependents q hr]
  · simp [hq]

/-- The fault of a rail of stage 2 or 3 is recorded, and what it takes with it leaves the record and the rails alone. -/
theorem railFault_records {r : Nat} (hr : r < 74) (mv : Nat) :
    (s.railFault r mv).pwr.railFaultSeen = true ∧
    (s.railFault r mv).pwr.faultRail = (if s.pwr.faultRail = 0xFF then r else s.pwr.faultRail) ∧
    (s.railFault r mv).pwr.rails = cutRails s.pwr.rails r := by
  have e : (s.railFault r mv).pwr.butCodes = ({ s.pwr with
      rails := cutRails s.pwr.rails r, railFaultSeen := true,
      faultRail := if s.pwr.faultRail = 0xFF then r else s.pwr.faultRail } : Power).butCodes := by
    unfold State.railFault
    rw [if_neg (by omega)]
    dsimp only
    rw [lostRail_butCodes, snag_pwr]
    rfl
  exact ⟨congrArg Power.railFaultSeen e, congrArg Power.faultRail e, congrArg Power.rails e⟩

/-- The fault of a rail of stage 1 takes the module to OFF, with cause 4 and the rail. -/
theorem railFault_stage1 {r : Nat} (hr : 74 ≤ r) (h : s.pwr.resetAsserted = false) (mv : Nat) :
    let u := s.railFault r mv
    u.mode = .off ∧ u.pwr.offCause = 4 ∧ u.pwr.offRail = r ∧ u.pwr.railLatch = true ∧ u.snags = [] := by
  obtain ⟨armed, e⟩ := assertReset_released h 4 r fun p => { p with railLatch := true }
  have e' : s.railFault r mv = _ := (if_pos hr).trans e
  rw [e']
  exact ⟨rfl, rfl, rfl, rfl, rfl⟩

/-- The ramp of rail `r` may have started by the time `now` (01 R31, R32). -/
def Power.Began (p : Power) (r now : Nat) : Prop :=
  mget 0 p.rampAt r ≤ if p.vinWarn = true ∧ r < 74 then min now p.warnAt else now

theorem turnCame_iff (r : Nat) : s.turnCame r = true ↔ s.pwr.Began r s.now := by
  simp [State.turnCame, Power.Began]

/-- The state in which a fault of rail `r` meets the module: the rails before `r`, unless it was up, have had their turn. -/
structure State.Reached (y s : State) (r : Nat) : Prop where
  power : ∃ rails, y.pwr = { s.pwr with rails := rails }
  rails (q : Nat) : mget .off y.pwr.rails q = mget .off s.pwr.rails q ∨
    mget .off s.pwr.rails r ≠ .up ∧ mget .off s.pwr.rails q = .wait ∧ mget .off y.pwr.rails q = .ramp

section
variable {s} {r : Fin 79} {t : Nat}

theorem reached_tick : (s.tick t).Reached s r := ⟨⟨s.pwr.rails, rfl⟩, fun _ => .inl rfl⟩

theorem reached_reachRail (h : mget .off s.pwr.rails r ∈ [Rail.ramp, .wait]) :
    State.Reached { s.tick t with pwr := s.pwr.reachRail r } s r := by
  have hup : mget .off s.pwr.rails r ≠ .up := fun e => absurd (e ▸ h) (by decide)
  exact ⟨⟨_, rfl⟩, fun q => (moveRails_moved s.pwr _ .wait .ramp q).imp_right fun hq => ⟨hup, hq⟩⟩

/-- The fault of an armed rail takes its effect: one that is up, or one whose ramp has started. -/
theorem railFault_armed (h : mget .off s.pwr.rails r = .up ∨
      mget .off s.pwr.rails r ∈ [Rail.ramp, .wait] ∧ s.pwr.Began r (max s.now t)) (mv : Nat) :
    ∃ y : State, exec (.railFault t r mv) s = .next (y.railFault r mv) ∧ y.Reached s r := by
  rcases h with hx | ⟨hx, hbegan⟩
  · exact ⟨s.tick t, by simp [exec_railFault, execRailFault, hx], reached_tick⟩
  · have hcame : (s.tick t).turnCame r = true := (turnCame_iff _ _).2 hbegan
    refine ⟨_, ?_, reached_reachRail (t := t) hx⟩
    simp only [List.mem_cons, List.not_mem_nil, or_false] at hx
    rcases hx with hx | hx <;> simp [exec_railFault, execRailFault, hx, hcame]

theorem railFault_unarmed (h : ¬(mget .off s.pwr.rails r = .up ∨
      mget .off s.pwr.rails r ∈ [Rail.ramp, .wait] ∧ s.pwr.Began r (max s.now t))) (mv : Nat) :
    exec (.railFault t r mv) s = .next (s.tick t) := by
  have hcame (hx : mget .off s.pwr.rails r ∈ [Rail.ramp, .wait]) : (s.tick t).turnCame r = false :=
    Bool.eq_false_iff.2 fun hc => h (.inr ⟨hx, (turnCame_iff _ _).1 hc⟩)
  cases hx : mget .off s.pwr.rails r with
  | up => exact absurd (.inl hx) h
  | ramp | wait => simp [exec_railFault, execRailFault, hx, hcame (by simp [hx])]
  | off | fault | cut => simp [exec_railFault, execRailFault, hx]

/-- A ramp time-out is the fault of a rail whose ramp started 5 ms ago. -/
theorem railRampTimeout_late (h : mget .off s.pwr.rails r ∈ [Rail.ramp, .wait] ∧ s.pwr.Began r (max s.now t) ∧
      mget 0 s.pwr.rampAt r + 5000000 ≤ max s.now t) (mv : Nat) :
    ∃ y : State, exec (.railRampTimeout t r mv) s = .next (y.railFault r mv) ∧ y.Reached s r := by
  obtain ⟨hx, hbegan, hlate⟩ := h
  have hcame : (s.tick t).turnCame r = true := (turnCame_iff _ _).2 hbegan
  refine ⟨_, ?_, reached_reachRail (t := t) hx⟩
  simp only [List.mem_cons, List.not_mem_nil, or_false] at hx
  rcases hx with hx | hx <;> simp [exec_railRampTimeout, execRailRampTimeout, hx, hcame, hlate]

theorem railRampTimeout_early (h : ¬(mget .off s.pwr.rails r ∈ [Rail.ramp, .wait] ∧ s.pwr.Began r (max s.now t) ∧
      mget 0 s.pwr.rampAt r + 5000000 ≤ max s.now t)) (mv : Nat) :
    exec (.railRampTimeout t r mv) s = .next (s.tick t) := by
  have hcame (hx : mget .off s.pwr.rails r ∈ [Rail.ramp, .wait]) (hlate : mget 0 s.pwr.rampAt r + 5000000 ≤ max s.now t) :
      (s.tick t).turnCame r = false :=
    Bool.eq_false_iff.2 fun hc => h ⟨hx, (turnCame_iff _ _).1 hc, hlate⟩
  cases hx : mget .off s.pwr.rails r with
  | ramp | wait =>
    by_cases hlate : mget 0 s.pwr.rampAt r + 5000000 ≤ max s.now t
    · simp [exec_railRampTimeout, execRailRampTimeout, hx, hcame (by simp [hx]) hlate]
    · simp [exec_railRampTimeout, execRailRampTimeout, hx, hlate]
  | up | off | fault | cut => simp [exec_railRampTimeout, execRailRampTimeout, hx]

variable {c : Instr} {mv : Nat} (h : ∃ y : State, exec c s = .next (y.railFault r mv) ∧ y.Reached s r)
include h

/-- A command by which a rail of stage 1 faults takes the module to OFF. -/
theorem next_railFault_stage1 (hr : 74 ≤ r.val) (hoff : s.pwr.resetAsserted = false) :
    Next (exec c s) fun u => u.mode = .off ∧ u.pwr.offCause = 4 ∧ u.pwr.offRail = r ∧ u.pwr.railLatch = true ∧ u.snags = [] := by
  obtain ⟨y, hy, ⟨_, hp⟩, _⟩ := h
  exact ⟨_, hy, railFault_stage1 y hr (by rw [hp]; exact hoff) mv⟩

/-- A command by which another rail faults switches off the rail and those that hang on it. -/
theorem next_railFault_cuts (hr : r.val < 74) : Next (exec c s) fun u => u.pwr.railFaultSeen = true ∧
    u.pwr.faultRail = (if s.pwr.faultRail = 0xFF then r.val else s.pwr.faultRail) ∧ mget .off u.pwr.rails r = .fault ∧
    (∀ d ∈ railDependents r, mget .off u.pwr.rails d = if mget .off s.pwr.rails d = .fault then .fault else .cut) ∧
    ∀ q, q ≠ r.val → q ∉ railDependents r → mget .off u.pwr.rails q = mget .off s.pwr.rails q ∨
      mget .off s.pwr.rails r ≠ .up ∧ mget .off s.pwr.rails q = .wait ∧ mget .off u.pwr.rails q = .ramp := by
  obtain ⟨y, hy, ⟨_, hp⟩, hrails⟩ := h
  obtain ⟨hseen, hfault, hcut⟩ := railFault_records y hr mv
  refine ⟨_, hy, hseen, by rw [hfault, hp], ?_, fun d hd => ?_, fun q hq hqd => ?_⟩
  · rw [hcut, mget_cutRails _ hr, if_pos rfl]
  · have hdr : d ≠ r.val := fun e => not_mem_railDependents r hr (e ▸ hd)
    rw [hcut, mget_cutRails _ hr, if_neg hdr, if_pos hd]
    rcases hrails d with h | ⟨-, hs, hramp⟩
    · rw [h]
    · simp [hs, hramp]
  · rw [hcut, mget_cutRails _ hr, if_neg hq, if_neg hqd]
    exact hrails q

end

end Sys2Proof.Machine

namespace Sys2Proof

open Machine

/-- Settles O1: each cause arises by `assertReset`, which asserts a released reset and records the cause, and only sets its condition while
the reset is asserted. -/
theorem inputAndResetCausesTakeTheModuleToOff : Obligations.InputAndResetCausesTakeTheModuleToOff := by
  refine ⟨fun t s => ⟨fun h => ?_, ?_, fun h => ?_⟩, fun t die s h => ?_, fun t s h hat => ?_⟩
  · simp [exec_inputPowerOn, execInputPowerOn, h]
  · exact ⟨_, rfl, rfl, rfl, rfl, rfl, rfl, rfl, rfl, rfl⟩
  · exact next_ite_pos h ⟨rfl, rfl, rfl, rfl, rfl, rfl, rfl, rfl⟩
  · have hup : s.pwr.vauxUp = true := Power.vauxUp_of_released h
    have resets := fun {f : Power → Power} (hf : (f s.pwr).resetAsserted = true) (cause : Nat) =>
      assertReset_resetBy (s := s.tick t) h hf cause 0xFF
    refine List.forall_mem_append.2 ⟨?_, fun e he => ?_⟩
    · simp only [List.forall_mem_cons]
      exact ⟨⟨_, rfl, resets (by simp [Power.resetAsserted]) 1⟩, ⟨_, rfl, resets (by simp [Power.resetAsserted]) 2⟩,
        ⟨_, rfl, resets (Power.overVolt_resets _) 5⟩,
        ⟨_, overcurrentCut_released h t, resets (by simp [Power.resetAsserted, hup]) 6⟩, List.forall_mem_nil _⟩
    · split at he
      · obtain rfl := List.mem_singleton.1 he
        exact ⟨_, thermalTrip_armed ‹_› t, resets (by simp [Power.resetAsserted]) 3⟩
      · exact absurd he List.not_mem_nil
  · have later (cause : Nat) (f : Power → Power) : Host.Outcome.next (φ := Fault) (ρ := Refusal)
        ((s.tick t).assertReset cause 0xFF f) = .next { s.tick t with pwr := f s.pwr } :=
      congrArg _ (assertReset_later (s := s.tick t) h hat cause 0xFF f)
    simp only [List.forall_mem_cons]
    exact ⟨⟨_, later 1 _, by simp [Power.resetAsserted], rfl, rfl, rfl, rfl⟩,
      ⟨_, later 2 _, by simp [Power.resetAsserted], rfl, rfl, rfl, rfl⟩,
      ⟨_, later 5 _, Power.overVolt_resets _, rfl, rfl, rfl, rfl⟩,
      ⟨_, overcurrentCut_later h hat, h, rfl, rfl, rfl, rfl⟩, List.forall_mem_nil _⟩

/-- Settles O2: each release only clears its conditions before it tries to start stage 1, and each stage raises its own rails. -/
theorem releasesAndStagesBringTheModuleUp : Obligations.ReleasesAndStagesBringTheModuleUp := by
  refine ⟨fun t s hup => ⟨?_, ?_, fun hrst => ?_, fun c hc hrails hdown hrst => ?_⟩,
    fun t s => ⟨fun ha hdown => ?_, fun hreq hdown hwarn => ?_, fun h2 hgroups hwarn => ?_, fun hwarn => ?_⟩⟩
  · refine ⟨_, rfl, ?_⟩
    obtain ⟨_, _, e⟩ := tryStart_eq { s.tick t with pwr := { s.pwr with underVolt := !s.pwr.vauxUp } }
    rw [State.tick_pwr, e]
    exact ⟨by simp [hup], rfl, rfl, rfl, rfl, rfl⟩
  · refine ⟨_, rfl, ?_⟩
    obtain ⟨_, _, e⟩ := tryStart_eq { s.tick t with pwr := { s.pwr with overVolt := false } }
    rw [State.tick_pwr, e]
    exact ⟨rfl, rfl, rfl, rfl, rfl⟩
  · refine next_ite_pos hrst ?_
    obtain ⟨_, _, e⟩ := tryStart_eq { s.tick t with pwr :=
      { s.pwr with rstN := false, ocLatch := false, thermLatch := false, railLatch := false } }
    rw [State.tick_pwr, e]
    exact ⟨rfl, rfl, rfl, rfl, rfl, rfl⟩
  · simp only [List.mem_cons, List.not_mem_nil, or_false] at hc
    rcases hc with rfl | rfl | rfl
    · exact ⟨_, rfl, tryStart_stage1 hrails hdown⟩
    · exact ⟨_, rfl, tryStart_stage1 hrails hdown⟩
    · exact next_ite_pos hrst (tryStart_stage1 hrails hdown)
  · refine next_ite_neg (by simp [ha, hdown]) ⟨rfl, rfl, rfl, ?_, rfl, fun r hr hx => ?_⟩
    · have hup := Power.vauxUp_of_released ha
      obtain ⟨_, _, e⟩ := raiseRails_eq s.pwr stage1Rails (max s.now t)
      simp only [State.pwrGood, State.tick_pwr, State.tick_now, e]
      exact Bool.and_eq_true_iff.2 ⟨Bool.and_eq_true_iff.2 ⟨hup, congrArg (!·) ha⟩, rfl⟩
    · dsimp only [State.tick_pwr]
      rw [mget_raiseRails, if_pos ⟨hr, hx⟩]
  · obtain ⟨u, hu, hmode, hup, hgroups, hrails, hramp⟩ := stage2InRegulation_starts hreq hdown hwarn t
    refine ⟨u, hu, hup, hgroups, hmode, fun r hr hx => ?_, fun r hr => ⟨?_, fun hoff => ?_⟩⟩
    · rw [hrails, mget_startLeaves, mget_raiseRails]
      simp only [hr, hx, and_self, if_true, reduceCtorEq, false_and, if_false]
    · rw [hramp, startLeaves_rampAt, if_pos hr]
    · have hr2 : r ∉ stage2Rails := fun h => absurd (stage2Rails_ge r h) (by omega)
      rw [hrails, mget_startLeaves, mget_raiseRails]
      simp [hr2, hoff, hr]
  · have hcame : (s.tick t).turnCame (4 * s.pwr.groups) = decide (mget 0 s.pwr.rampAt (4 * s.pwr.groups) ≤ max s.now t) := by
      simp [State.turnCame, hwarn]
    split
    · rename_i hat
      refine next_ite_pos (by simp [h2, hgroups, hwarn, hcame, hat]) ⟨rfl, fun r => ?_⟩
      simp only [mget_raiseRails, mem_map_range_add, and_assoc, State.tick_pwr]
    · rename_i hat
      exact congrArg Host.Outcome.next (if_neg (by simp [hcame, hat]))
  · exact ⟨congrArg Host.Outcome.next (if_neg (by simp [hwarn])), congrArg Host.Outcome.next (if_neg (by simp [hwarn]))⟩

/-- Settles O3: what makes the warning and its release known changes nothing of the power state but the rails and when their ramps start. -/
theorem supplyWarningThrottlesAndIsLogged : Obligations.SupplyWarningThrottlesAndIsLogged := by
  intro t mv v s hup
  refine ⟨fun hoff => ?_, fun hon => ?_, fun hhold => ?_, fun h1 => ?_⟩
  · obtain ⟨u, hu, hpwr, hlog⟩ := supplyWarningAssert_warns hoff hup t mv
    refine ⟨u, hu, ?_, alertLow_of_vinWarn u ?_ ?_, ?_, ?_, ?_, ?_, ?_, hlog⟩
    all_goals rw [hpwr]
    exacts [rfl, hup, rfl, rfl, rfl, rfl, rfl, rfl]
  · obtain ⟨u, hu, ⟨_, _, hpwr⟩, hlog⟩ := supplyWarningRelease_logs hon hup t mv
    refine ⟨u, hu, ?_, ?_, ?_, ?_, hlog⟩
    all_goals rw [hpwr]; rfl
  · split
    · rename_i hat
      exact next_ite_pos (by simp [hhold, hat]) ⟨rfl, rfl⟩
    · rename_i hat
      exact congrArg Host.Outcome.next (if_neg (by simpa [hhold] using hat))
  · obtain ⟨u, hu, hpwr⟩ := sagThrottleWrite_writes h1 t v
    refine ⟨u, hu, ?_, ?_, ?_⟩
    all_goals rw [hpwr]; cases v <;> rfl

/-- Settles O4: a write touches the staged code of its own leaf, and a commit each leaf once however often it is listed. -/
theorem leafSetPointsAreStagedAndCommitted : Obligations.LeafSetPointsAreStagedAndCommitted := by
  intro t n v s h1
  refine ⟨next_ite_pos h1 fun leaf => ?_, next_ite_pos h1 fun leaf => ?_, ⟨_, rfl, rfl, rfl⟩⟩
  · obtain ⟨heast, hstgEast⟩ := writeLeafVset_get ((s.tick t).writeLeafVset (2 * n) (fld v 0 5)) (2 * n + 1) (fld v 8 5) leaf
    obtain ⟨hwest, hstgWest⟩ := writeLeafVset_get (s.tick t) (2 * n) (fld v 0 5) leaf
    have hidle (k : Nat) : (s.tick t).leafIdle k = s.leafIdle k := leafIdle_congr rfl rfl k
    rw [heast, hstgEast, hwest, hstgWest]
    simp only [writeLeafVset_leafIdle, hidle]
    by_cases h0 : leaf = 2 * n.val
    · subst h0
      cases s.leafIdle (2 * n.val) <;> simp
    · by_cases h1 : leaf = 2 * n.val + 1
      · subst h1
        cases s.leafIdle (2 * n.val + 1) <;> simp
      · cases s.leafIdle leaf <;> simp [h0, h1]
  · obtain ⟨hstg, hvset⟩ := commitVset_get (s.tick t) leaf
    rw [hstg, hvset]
    by_cases hat : (mget ({} : LeafStg) s.pwr.vsetStg leaf).at_ < max s.now t <;>
      simp [LeafStg.left, LeafStg.taken, hat]

/-- Settles O5: an armed rail faults in a state that differs only in rails whose turn has come, and all that a rail takes with it leaves the
rails alone. -/
theorem railFaultSwitchesOffWhatHangsOnIt : Obligations.RailFaultSwitchesOffWhatHangsOnIt := by
  intro t mv r s x now began armed late
  simp only [List.forall_mem_cons]
  exact ⟨⟨fun h => next_railFault_stage1 (railFault_armed h mv), fun h => next_railFault_cuts (railFault_armed h mv),
      fun h => railFault_unarmed h mv⟩,
    ⟨fun h => next_railFault_stage1 (railRampTimeout_late h mv), fun h => next_railFault_cuts (railRampTimeout_late h mv),
      fun h => railRampTimeout_early h mv⟩,
    List.forall_mem_nil _⟩

end Sys2Proof
end

section
/-! SUPPORT. The sideband: who answers a command and with which bytes (01 R429; 10 R281; 15 R411, R412). -/

namespace Sys2Proof.Machine

variable (s : State)

/-! ### Bytes -/

@[simp] theorem length_leBytes (n x : Nat) : (leBytes n x).length = n := by
  induction n generalizing x with
  | zero => rfl
  | succ n ih => rw [leBytes, List.length_cons, ih]

/-- A number of one byte, in four. -/
theorem leBytes_four_of_lt {x : Nat} (h : x < 256) : leBytes 4 x = leBytes 1 x ++ leBytes 3 0 := by
  have h0 : x / 256 = 0 := Nat.div_eq_of_lt h
  simp [leBytes, h0]

theorem Mode.num_lt (m : Mode) : m.num < 256 := by cases m <;> decide

/-! ### Who answers (01 R429; 15 R412) -/

section
variable {s} {ty cmd : Nat} {f : State → State} (t : Nat)

/-- Once Novko runs it answers. -/
theorem pldm_novko (h : s.novkoUp = true) : s.pldm ty cmd f = f s := if_pos h

/-- The primer that holds the module in PRIMED is not ready for a command that is not its own. -/
theorem pldm_primer (hdown : s.novkoUp = false) (hold : s.boot.hold.isSome = true) :
    s.pldm ty cmd f = s.emit (.pldm ty cmd .errorNotReady []) := by
  simp [State.pldm, hdown, hold]

/-- What Novko answers to a command at time `t`. -/
theorem next_novko {P : State → Prop} (hup : s.novkoUp = true) (h : P (f (s.tick t))) : Next (.next ((s.tick t).pldm ty cmd f)) P :=
  ⟨_, congrArg _ (pldm_novko (s := s.tick t) hup), h⟩

theorem getPldmVersion_answers (hup : s.novkoUp = true) (ty : Nat) :
    if ty ∈ pldmTypes then ∃ b, b.length = 13 ∧ Next (exec (.getPldmVersion t ty) s) fun u => u.out = .pldm 0 3 .success b :: s.out
    else Next (exec (.getPldmVersion t ty) s) fun u => u.out = .pldm 0 3 .errorInvalidData [] :: s.out := by
  split
  · rename_i hty
    exact ⟨leBytes 13 s.freeVal, length_leBytes _ _, next_novko t hup (by simp [hty]; rfl)⟩
  · rename_i hty
    exact next_novko t hup (by simp [hty])

theorem getPldmCommands_answers (hup : s.novkoUp = true) {ty : Nat} (hty : ty ∈ pldmTypes) :
    ∃ b, b.length = 32 ∧ Next (exec (.getPldmCommands t ty) s) fun u => u.out = .pldm 0 5 .success b :: s.out := by
  by_cases h5 : ty = 5
  · exact ⟨leBytes 32 s.freeVal, length_leBytes _ _, next_novko t hup (by simp [h5]; rfl)⟩
  · exact ⟨leBytes 32 ((pldmCodes ty).map (2 ^ ·)).sum, length_leBytes _ _, next_novko t hup (by simp [h5, hty])⟩

theorem pldmUnsupportedCommand_answers (hup : s.novkoUp = true) {ty code : Nat} (hcode : code ∉ pldmCodes ty) :
    Next (exec (.pldmUnsupportedCommand t ty code) s) fun u => u.out = .pldm ty code
      (if ty = 0 ∨ ty = 5 ∨ ty = 63 then .errorUnsupportedPldmCmd else .errorInvalidPldmType) [] :: s.out := by
  refine ⟨_, congrArg Host.Outcome.next ((if_neg (by simpa using hcode)).trans (pldm_novko (s := s.tick t) hup)), ?_⟩
  simp [pldmTypes]

theorem getPrimerStatus_novko (hup : s.novkoUp = true) (hhold : s.boot.hold = none) :
    exec (.getPrimerStatus t) s = .next ((s.tick t).emit (.pldm 63 0x10 .errorNotReady [])) := by
  simp [exec_getPrimerStatus, execGetPrimerStatus, hhold, pldm_novko (s := s.tick t) hup]

theorem getPowerStatus_novko (hup : s.novkoUp = true) : exec (.getPowerStatus t) s = .next ((s.tick t).emit (.pldm 63 3 .success
    (leBytes 4 s.pwrStatus ++ leBytes 4 s.tempStatus ++ leBytes 1 s.mode.num ++ leBytes 3 0 ++ leBytes 2 s.sense.vin ++
      leBytes 2 (s.sense.pin / 8)))) := by
  refine (congrArg Host.Outcome.next (pldm_novko (s := s.tick t) hup)).trans ?_
  rw [State.tick_mode, leBytes_four_of_lt s.mode.num_lt, ← List.append_assoc]
  rfl

theorem getCoords_novko (hup : s.novkoUp = true) : exec (.getCoords t) s = .next ((s.tick t).emit (.pldm 63 2 .success
    (if s.fab.coords = none ∧ s.fab.held = none then leBytes 21 0
      else leBytes 1 (if s.fab.coords.isSome then 2 else 1) ++ ((s.fab.coords.or s.fab.held).elim [] Coords.bytes)))) := by
  refine (congrArg Host.Outcome.next (pldm_novko (s := s.tick t) hup)).trans ?_
  rw [State.tick_fab]
  cases s.fab.coords with
  | some c => rfl
  | none => cases s.fab.held <;> rfl

theorem length_readSnags_le (fn cursor n : Nat) : (s.readSnags fn cursor n).2.2.length ≤ n := by
  simp [State.readSnags]

theorem sidebandSnagRead_novko (hup : s.novkoUp = true) {cursor max : Nat} (hmax : 1 ≤ max ∧ max ≤ 16) :
    let r := s.readSnags 0 cursor max
    exec (.sidebandSnagRead t cursor max) s = .next ((s.tick t).emit (.pldm 63 4 .success
      (leBytes 8 r.1 ++ leBytes 4 r.2.1 ++ leBytes 1 r.2.2.length ++ leBytes 3 0 ++ r.2.2.flatMap Snag.bytes))) := by
  have hlen : (s.readSnags 0 cursor max).2.2.length < 256 := (length_readSnags_le 0 cursor max).trans_lt (by omega)
  refine (congrArg Host.Outcome.next (pldm_novko (s := s.tick t) hup)).trans ((congrArg Host.Outcome.next (if_pos hmax)).trans ?_)
  change Host.Outcome.next ((s.tick t).emit (.pldm 63 4 .success (leBytes 8 (s.readSnags 0 cursor max).1 ++
    leBytes 4 (s.readSnags 0 cursor max).2.1 ++ leBytes 4 (s.readSnags 0 cursor max).2.2.length ++ _))) = _
  rw [leBytes_four_of_lt hlen, ← List.append_assoc]
  rfl

/-- The primer completes every command of the table but its own with ERROR_NOT_READY. -/
theorem primer_notReady (hdown : s.novkoUp = false) (hold : s.boot.hold.isSome = true) :
    Host.Outcome.next (φ := Fault) (ρ := Refusal) ((s.tick t).pldm ty cmd f) = .next ((s.tick t).emit (.pldm ty cmd .errorNotReady [])) :=
  congrArg _ (pldm_primer (s := s.tick t) hdown hold)

/-- The flash with an image written into one bank (15 R411). -/
def Flash.put (x : Flash) (bankB : Bool) (img : FwImage) : Flash := if bankB then { x with bankB := img } else { x with bankA := img }

theorem pldmFirmwareUpdate_novko (hup : s.novkoUp = true) (hold : s.boot.hold = none) (bankB : Bool) (img : FwImage) :
    exec (.pldmFirmwareUpdate t bankB img) s = .next (
      if (s.flash.active == 1) == bankB then (s.tick t).emit (.pldm 5 0x10 .errorInvalidData [])
      else State.emit { s.tick t with flash := s.flash.put bankB img } (.pldm 5 0x10 .success [])) := by
  simp only [exec_pldmFirmwareUpdate, execPldmFirmwareUpdate, State.tick_boot, hold]
  exact congrArg _ (pldm_novko (s := s.tick t) hup)

theorem pldmFirmwareUpdate_primer (hdown : s.novkoUp = false) {r : PrimerRec} (hold : s.boot.hold = some r) (bankB : Bool) (img : FwImage) :
    exec (.pldmFirmwareUpdate t bankB img) s = .next (
      if r.cause = 5 then State.emit { s.tick t with flash := s.flash.put bankB img } (.pldm 5 0x10 .success [])
      else (s.tick t).emit (.pldm 5 0x10 .errorNotReady [])) := by
  simp only [exec_pldmFirmwareUpdate, execPldmFirmwareUpdate, State.tick_boot, hold]
  rw [pldm_primer (s := s.tick t) hdown (by simp [hold])]
  rfl

theorem getPrimerStatus_primer {r : PrimerRec} (hold : s.boot.hold = some r) :
    exec (.getPrimerStatus t) s = .next ((s.tick t).emit (.pldm 63 0x10 .success (s.primerRecord r))) := by
  simp only [exec_getPrimerStatus, execGetPrimerStatus, State.tick_boot, hold]
  rfl

theorem mctpControlMessage_answers (h : s.novkoUp = true ∨ s.boot.hold.isSome = true) (x : Byte) :
    ∃ b, Next (exec (.mctpControlMessage t x) s) fun u => u.out = .mctp x b :: s.out :=
  ⟨_, _, congrArg Host.Outcome.next (if_pos (by simpa using h)), rfl⟩

end

end Sys2Proof.Machine

namespace Sys2Proof

open Machine

/-- Settles O6: a command is answered by Novko or by the primer that holds the module, as `State.pldm` decides, and each answer is the one
its command gives. -/
theorem novkoAndPrimerAnswerTheSideband : Obligations.NovkoAndPrimerAnswerTheSideband := by
  refine ⟨fun t ty code s hup hhold => ?_, fun t cursor max s hup => ?_, fun t ty code cursor max bankB img x rec r s hhold hdown => ?_,
    fun t img x s hup hhold => ?_⟩
  · exact ⟨⟨leBytes 1 s.freeVal, length_leBytes _ _, next_novko t hup rfl⟩, getPldmVersion_answers t hup ty,
      next_novko t hup rfl, next_novko t hup rfl, getPldmCommands_answers t hup, pldmUnsupportedCommand_answers t hup,
      ⟨_, getPrimerStatus_novko t hup hhold, rfl⟩⟩
  · refine ⟨getPowerStatus_novko t hup, getCoords_novko t hup, ?_⟩
    split
    · rename_i hmax
      exact ⟨length_readSnags_le 0 cursor max, sidebandSnagRead_novko t hup hmax⟩
    · rename_i hmax
      exact congrArg Host.Outcome.next ((pldm_novko (s := s.tick t) hup).trans (if_neg hmax))
  · have hold : s.boot.hold.isSome = true := by simp [hhold]
    refine ⟨getPrimerStatus_primer t hhold, ⟨_, pldmFirmwareUpdate_primer t hdown hhold bankB img, ?_⟩,
      mctpControlMessage_answers t (.inr hold) x, List.forall_mem_append.2 ⟨?_, fun e he => ?_⟩⟩
    · by_cases h5 : r.cause = 5
      · cases bankB <;> simp [h5, Flash.put]
      · simp [h5]
    · simp only [List.forall_mem_cons]
      exact ⟨primer_notReady t hdown hold, primer_notReady t hdown hold, primer_notReady t hdown hold, primer_notReady t hdown hold,
        primer_notReady t hdown hold, primer_notReady t hdown hold, primer_notReady t hdown hold, primer_notReady t hdown hold,
        List.forall_mem_nil _⟩
    · split at he
      · exact absurd he List.not_mem_nil
      · rename_i hcode
        obtain rfl := List.mem_singleton.1 he
        exact congrArg Host.Outcome.next ((if_neg (by simpa using hcode)).trans (pldm_primer (s := s.tick t) hdown hold))
  · have update := pldmFirmwareUpdate_novko t hup hhold
    refine ⟨fun h0 => ⟨_, update true img, ?_⟩, fun h1 => ⟨_, update false img, ?_⟩, fun _ => ⟨_, update (s.flash.active == 1) img, ?_⟩,
      mctpControlMessage_answers t (.inl hup) x⟩
    · simp [h0, Flash.put]
    · simp [h1, Flash.put]
    · simp

end Sys2Proof
end

section
/-! SUPPORT. The panels' arithmetic: what an exact band's columns count, what its witness columns compare, and how the weights of columns
and planes make a dot product of the counts (chapter 02; 03 R83–R87). -/

namespace Sys2Proof.Machine

/-! ### Sums of bits -/

/-- The sums of a statement are lists; here they are taken over `Finset.range`. -/
theorem sum_map_range {M : Type} [AddCommMonoid M] (f : Nat → M) (n : Nat) : ((List.range n).map f).sum = ∑ i ∈ Finset.range n, f i := rfl

theorem sum_map_filter {α : Type} (l : List α) (p : α → Bool) (f : α → Int) :
    ((l.filter p).map f).sum = (l.map fun a => if p a then f a else 0).sum := by
  induction l with
  | nil => rfl
  | cons a l ih => by_cases h : p a <;> simp [h, ih]

theorem countP_range (p : Nat → Bool) (n : Nat) : (List.range n).countP p = ∑ i ∈ Finset.range n, (p i).toNat := by
  induction n with
  | zero => rfl
  | succ n ih => rw [List.range_succ, List.countP_append, ih, Finset.sum_range_succ]; cases h : p n <;> simp [h]

/-- A number's low bits by their weights. -/
theorem sum_bits (x n : Nat) : ∑ j ∈ Finset.range n, 2 ^ j * (x.testBit j).toNat = x % 2 ^ n := by
  induction n with
  | zero => simp [Nat.mod_one]
  | succ n ih => rw [Finset.sum_range_succ, ih, Nat.mod_pow_succ, Nat.toNat_testBit]

/-- The number of `n` bits, in two's complement where signed. -/
def intOf (n : Nat) (sgn : Bool) (x : Nat) : Int := if sgn then twos n x else ((x % 2 ^ n : Nat) : Int)

/-- The weights of columns and of planes (02 R46; 03 R85) give the number their bits spell. -/
theorem sum_colWeight {n : Nat} (hn : 0 < n) (sgn : Bool) (x : Nat) :
    ∑ j ∈ Finset.range n, colWeight n sgn j * ((x.testBit j).toNat : Int) = intOf n sgn x := by
  obtain ⟨m, rfl⟩ : ∃ m, n = m + 1 := ⟨n - 1, by omega⟩
  have hlow : ∑ j ∈ Finset.range m, colWeight (m + 1) sgn j * ((x.testBit j).toNat : Int) = ((x % 2 ^ m : Nat) : Int) := by
    rw [← sum_bits x m, Nat.cast_sum]
    refine Finset.sum_congr rfl fun j hj => ?_
    have hne : j ≠ m := (Finset.mem_range.1 hj).ne
    simp [colWeight, hne]
  have hlt : x % 2 ^ m < 2 ^ m := Nat.mod_lt _ (by positivity)
  have hpow : (2 : Int) ^ (m + 1) = 2 * 2 ^ m := by ring
  have hcast : ((2 ^ m : Nat) : Int) = 2 ^ m := by simp
  rw [Finset.sum_range_succ, hlow, intOf, twos, Nat.mod_pow_succ, ← Nat.toNat_testBit, Nat.add_sub_cancel]
  cases sgn with
  | false => simp [colWeight]
  | true =>
    cases x.testBit m with
    | false => simp [colWeight, hlt]
    | true =>
      simp only [colWeight, hpow, Bool.toNat_true, beq_self_eq_true, Bool.and_self, if_true]
      omega

/-- A packed number's digit. -/
theorem packed_digit {c : Nat} {f : Nat → Nat} (n : Nat) : (∀ i < n, f i < 2 ^ c) → ∀ i < n,
    (List.range n).foldr (fun i acc => f i + 2 ^ c * acc) 0 / 2 ^ (c * i) % 2 ^ c = f i := by
  induction n generalizing f with
  | zero => exact fun _ i hi => absurd hi (Nat.not_lt_zero i)
  | succ n ih =>
    intro hf i hi
    rw [List.range_succ_eq_map, List.foldr_cons, List.foldr_map]
    cases i with
    | zero => simp [Nat.add_mul_mod_self_left, Nat.mod_eq_of_lt (hf 0 hi)]
    | succ i =>
      rw [Nat.mul_succ, Nat.add_comm (c * i), Nat.pow_add, ← Nat.div_div_eq_div_mul,
        Nat.add_mul_div_left _ _ (by positivity), Nat.div_eq_of_lt (hf 0 (by omega)), Nat.zero_add]
      exact ih (f := fun i => f (i + 1)) (fun i hi => hf (i + 1) (by omega)) i (by omega)

theorem packed_lt {c : Nat} {f : Nat → Nat} (n : Nat) : (∀ i < n, f i < 2 ^ c) →
    (List.range n).foldr (fun i acc => f i + 2 ^ c * acc) 0 < 2 ^ (c * n) := by
  induction n generalizing f with
  | zero => exact fun _ => by simp
  | succ n ih =>
    intro hf
    rw [List.range_succ_eq_map, List.foldr_cons, List.foldr_map]
    have h0 := hf 0 (by omega)
    have hrest : (List.range n).foldr (fun i acc => f (i + 1) + 2 ^ c * acc) 0 + 1 ≤ 2 ^ (c * n) :=
      ih (f := fun i => f (i + 1)) fun i hi => hf (i + 1) (by omega)
    calc f 0 + 2 ^ c * (List.range n).foldr (fun i acc => f (i + 1) + 2 ^ c * acc) 0
        < 2 ^ c * ((List.range n).foldr (fun i acc => f (i + 1) + 2 ^ c * acc) 0 + 1) := by rw [Nat.mul_add]; omega
      _ ≤ 2 ^ c * 2 ^ (c * n) := Nat.mul_le_mul_left _ hrest
      _ = 2 ^ (c * (n + 1)) := by rw [← Nat.pow_add]; congr 1; ring

/-! ### Driven rows and column counts (02 R47, R50) -/

theorem addRow_map_range (n : Nat) (f : Nat → Nat) (x : Nat) :
    addRow ((List.range n).map f) x = (List.range n).map fun i => f i + (x.testBit i).toNat := by
  induction n generalizing f x with
  | zero => rfl
  | succ n ih =>
    have h0 : x % 2 = (x.testBit 0).toNat := by rw [Nat.testBit_zero]; rcases Nat.mod_two_eq_zero_or_one x with h | h <;> simp [h]
    rw [List.range_succ_eq_map, List.map_cons, List.map_map, addRow, ih, h0]
    simp [Nat.testBit_succ, Function.comp_def]

/-- The active products of a column are the rows that hold a 1 there. -/
theorem columnCounts_eq (rows : List Nat) :
    columnCounts rows = (List.range 1136).map fun c => rows.countP (·.testBit c) := by
  have key : ∀ (rows : List Nat) (f : Nat → Nat), rows.foldl addRow ((List.range 1136).map f) =
      (List.range 1136).map fun c => f c + rows.countP (·.testBit c) := by
    intro rows
    induction rows with
    | nil => simp
    | cons x rows ih =>
      intro f
      rw [List.foldl_cons, addRow_map_range, ih]
      refine List.map_congr_left fun c _ => ?_
      cases h : x.testBit c <;> simp [h, Nat.add_assoc, Nat.add_comm 1]
  have h := key rows fun _ => 0
  simpa only [columnCounts, List.map_const', List.length_range, Nat.zero_add] using h

theorem filterMap_zipIdx_eq {β : Type} {g : Nat → Nat → Option β} {l : List Nat} {n : Nat} (hg : ∀ i, g 0 i = none) (hl : l.length ≤ n) :
    (l.zipIdx.filterMap fun e => g e.1 e.2) = (List.range n).filterMap fun i => g (l.getD i 0) i := by
  induction l generalizing n g with
  | nil => simp [hg]
  | cons a l ih =>
    obtain ⟨m, rfl⟩ : ∃ m, n = m + 1 := ⟨n - 1, by simp at hl; omega⟩
    have h := ih (g := fun v i => g v (i + 1)) (n := m) (fun i => hg _) (by simpa using hl)
    rw [List.range_succ_eq_map, List.zipIdx_cons, List.zipIdx_succ]
    cases hh : g a 0 <;> simp [List.filterMap_map, hh, h]

/-- In an exact band the rows driven are those but the last whose input has a 1 in the plane (02 R50; 03 R83). -/
theorem drivenRows_exact (inp : List Nat) (first k : Nat) : drivenRows inp first 256 k true =
    ((List.range 255).filter fun i => (inp.getD (first + i) 0).testBit k).map (first + ·) := by
  have hin (i : Nat) (hi : i < 255) : ((inp.drop first).take 256)[i]?.getD 0 = inp[first + i]?.getD 0 := by
    simp [show i < 256 by omega]
  unfold drivenRows
  rw [filterMap_zipIdx_eq (n := 256) (g := fun v i => if v / 2 ^ k % 2 = 1 ∧ ¬((true = true) ∧ i % 256 = 255) then some (first + i) else none)
    (by simp) (by simp), List.range_succ, List.filterMap_append, ← List.filterMap_eq_map, List.filterMap_filter]
  simp only [List.filterMap_cons, List.filterMap_nil, Nat.reduceMod, and_true, not_true_eq_false, and_false, if_false, List.append_nil]
  refine List.filterMap_congr fun i hi => ?_
  have hi := List.mem_range.1 hi
  have hne : i % 256 ≠ 255 := by omega
  simp [hin i hi, hne, Nat.testBit_eq_decide_div_mod_eq]

theorem length_drivenRows_exact (inp : List Nat) (first k : Nat) : (drivenRows inp first 256 k true).length ≤ 255 := by
  rw [drivenRows_exact, List.length_map]
  exact (List.length_filter_le _ _).trans_eq List.length_range

/-- The sum over an exact band's driven rows, by the inputs' bits. -/
theorem sum_drivenRows_exact (inp : List Nat) (first k : Nat) (f : Nat → Int) : ((drivenRows inp first 256 k true).map f).sum =
    ∑ i ∈ Finset.range 255, (((inp.getD (first + i) 0).testBit k).toNat : Int) * f (first + i) := by
  rw [drivenRows_exact, List.map_map, sum_map_filter, sum_map_range]
  refine Finset.sum_congr rfl fun i _ => ?_
  cases (inp.getD (first + i) 0).testBit k <;> simp

/-! ### Exact conversion (02 R50, R52, R55–R57) -/

/-- The counts of an exact band's columns, which are the codes its converters give. -/
def exactCodes (rows : Nat → Nat) (driven : List Nat) : List Nat :=
  (List.range 1136).map fun col => driven.countP fun q => (rows q).testBit col

/-- What an exact band passes for the data columns. -/
def exactPassed (rows : Nat → Nat) (driven : List Nat) : List Nat :=
  (List.range 1024).map fun col => driven.countP fun q => (rows q).testBit col

theorem exactPassed_append (rows : Nat → Nat) (l m : List Nat) :
    List.zipWith (· + ·) (exactPassed rows l) (exactPassed rows m) = exactPassed rows (l ++ m) := by
  simp only [exactPassed, List.zipWith_map, List.zipWith_self, List.countP_append]

theorem exactPassed_nil (rows : Nat → Nat) : exactPassed rows [] = List.replicate 1024 0 := by
  simp only [exactPassed, List.countP_nil, List.map_const', List.length_range]

theorem exactPassed_getD (rows : Nat → Nat) (driven : List Nat) {col : Nat} (h : col < 1024) :
    (exactPassed rows driven).getD col 0 = driven.countP fun q => (rows q).testBit col := by
  simp [exactPassed, h]

theorem convert_exact {n : Nat} (h : n ≤ 255) : convert false 0 n 0 = n := by
  have hlo : ¬((n : Int) < 0) := by omega
  have hhi : ¬255 < n := by omega
  simp [convert, saturate, h, hlo, hhi]

/-- A converter at its ideal code gives a count it can hold. -/
theorem exactCodes_eq (rows : Nat → Nat) {driven : List Nat} (h : driven.length ≤ 255) :
    ((columnCounts (driven.map rows)).zipIdx.map fun e => convert false 0 e.1 0) = exactCodes rows driven := by
  have hmap (l : List Nat) (f : Nat → Nat) : (l.zipIdx.map fun e => f e.1) = l.map f := by
    rw [← List.zipIdx_map_fst 0 l, List.map_map]
    simp
  rw [hmap _ fun v => convert false 0 v 0, columnCounts_eq, List.map_map]
  refine List.map_congr_left fun c _ => ?_
  simp only [Function.comp_apply, List.countP_map]
  exact convert_exact (List.countP_le_length.trans h)

/-- In an exact band the comparison is exact and never skipped. -/
theorem witnessGroup_exact (codes : List Nat) (tol cap0 g : Nat) (c : Conv) (cnt : Nat) :
    let d := ((codes.drop (64 * g)).take 64).sum
    let w := ((codes.drop (1024 + 7 * g)).take 7).foldr (fun v acc => v + 2 * acc) 0
    witnessGroup codes true tol cap0 g c cnt =
      if d = w then c else { c with miss := c.miss + 1, cap := if c.cap.isSome then c.cap else some [cap0 + g, d, w, cnt % 2 ^ 32] } := by
  simp [witnessGroup]

/-- The word an exact capture of plane `k` and band `n` starts with (02 R58). -/
def exactCap (k n : Nat) : Nat := 2 ^ 31 + k * 2 ^ 16 + n * 2 ^ 12 + 2 ^ 9

section
variable (rows : Nat → Nat) {o : PanelOp} (hcur : o.w2.getLsbD 4 = false) {n : Nat} (hband : o.exactBands.getLsbD n = true)
  (witEn : Bool) (tol cnt k : Nat) (c : Conv)
include hcur hband

/-- One plane of an exact band: every column passes its count, nothing clips, and the witness columns are compared. -/
theorem convertSeg_exact : convertSeg rows o [] witEn tol cnt k (n, 256 * n, 256, 2 ^ n) c =
    let driven := drivenRows o.inp (256 * n) 256 k true
    (exactPassed rows driven, driven.length,
      if driven.isEmpty = false ∧ witEn = true then
        (List.range 16).foldl (fun c g => witnessGroup (exactCodes rows driven) true tol (exactCap k n) g c cnt) c
      else c) := by
  have hlen := length_drivenRows_exact o.inp (256 * n) k
  unfold convertSeg
  simp only [hcur, hband, Bool.not_false, Bool.and_self, if_true, Bool.false_eq_true, if_false, List.find?_nil]
  generalize drivenRows o.inp (256 * n) 256 k true = driven at hlen
  cases driven with
  | nil => simp only [List.isEmpty_nil, if_true, exactPassed_nil, List.length_nil, reduceCtorEq, false_and, if_false]
  | cons q driven =>
    have hpass : ((exactCodes rows (q :: driven)).take 1024).map (· * 2 ^ 0) = exactPassed rows (q :: driven) := by
      rw [exactCodes, ← List.map_take, List.take_range, List.map_map]
      simp only [Function.comp_def, Nat.pow_zero, Nat.mul_one]
      rfl
    rw [exactCodes_eq rows hlen, hpass]
    simp [exactCap, show firstClip [] = none from rfl]

/-- An exact comparison moves neither the clips nor the skips. -/
theorem convertSeg_exact_effects : let y := convertSeg rows o [] witEn tol cnt k (n, 256 * n, 256, 2 ^ n) c
    y.2.2.sats = c.sats ∧ y.2.2.clips = c.clips ∧ y.2.2.skips = c.skips := by
  rw [convertSeg_exact rows hcur hband]
  dsimp only
  split
  · refine List.foldlRecOn _ _ (motive := fun d : Conv => d.sats = c.sats ∧ d.clips = c.clips ∧ d.skips = c.skips) ⟨rfl, rfl, rfl⟩
      fun d hd g _ => ?_
    rw [witnessGroup_exact]
    split <;> exact hd
  · exact ⟨rfl, rfl, rfl⟩

end

/-! ### Witness columns (02 R56, R57) -/

/-- The number of data bits of group `g` that are 1. -/
def groupSum (d : BitVec 1024) (g : Nat) : Nat := (bitsOf (d.extractLsb' (64 * g) 64) 64).length

theorem groupSum_le (d : BitVec 1024) (g : Nat) : groupSum d g ≤ 64 :=
  (List.length_filter_le _ _).trans_eq List.length_range

/-- Seven witness bits of a group are its sum. -/
theorem witnessOf_group (d : BitVec 1024) {g : Nat} (hg : g < 16) : witnessOf d / 2 ^ (7 * g) % 2 ^ 7 = groupSum d g :=
  packed_digit 16 (fun i _ => (groupSum_le d i).trans_lt (by decide)) g hg

theorem witnessOf_lt (d : BitVec 1024) : witnessOf d < 2 ^ 112 :=
  packed_lt (c := 7) (f := groupSum d) 16 fun i _ => (groupSum_le d i).trans_lt (by decide)

/-- A clean row's columns: its data, then the witness bits computed from them. -/
theorem cellsOf_toNat (d : BitVec 1024) : (cellsOf d).toNat = d.toNat + 2 ^ 1024 * witnessOf d := by
  have hd := d.isLt
  have hw := witnessOf_lt d
  rw [cellsOf, BitVec.toNat_ofNat, Nat.mod_eq_of_lt]
  calc d.toNat + 2 ^ 1024 * witnessOf d < 2 ^ 1024 * (witnessOf d + 1) := by rw [Nat.mul_add]; omega
    _ ≤ 2 ^ 1024 * 2 ^ 112 := Nat.mul_le_mul_left _ hw
    _ = 2 ^ 1136 := by rw [← Nat.pow_add]

theorem cellsOf_data (d : BitVec 1024) {c : Nat} (hc : c < 1024) : (cellsOf d).toNat.testBit c = d.getLsbD c := by
  rw [cellsOf_toNat, Nat.add_comm, Nat.testBit_two_pow_mul_add _ d.isLt, if_pos hc, BitVec.testBit_toNat]

theorem cellsOf_witness (d : BitVec 1024) (w : Nat) : (cellsOf d).toNat.testBit (1024 + w) = (witnessOf d).testBit w := by
  rw [cellsOf_toNat, Nat.add_comm (d.toNat), Nat.testBit_two_pow_mul_add _ d.isLt, if_neg (by omega), Nat.add_sub_cancel_left]

/-- In a clean row the witness bits of a group spell the sum of its data bits. -/
theorem cellsOf_agree (d : BitVec 1024) {g : Nat} (hg : g < 16) :
    ∑ i ∈ Finset.range 64, ((cellsOf d).toNat.testBit (64 * g + i)).toNat =
      ∑ j ∈ Finset.range 7, 2 ^ j * ((cellsOf d).toNat.testBit (1024 + 7 * g + j)).toNat := by
  have hwit : ∑ j ∈ Finset.range 7, 2 ^ j * ((cellsOf d).toNat.testBit (1024 + 7 * g + j)).toNat = groupSum d g := by
    rw [← witnessOf_group d hg, ← sum_bits]
    refine Finset.sum_congr rfl fun j _ => ?_
    rw [Nat.add_assoc, cellsOf_witness, Nat.testBit_div_two_pow, Nat.add_comm j]
  rw [hwit, groupSum, bitsOf, ← List.countP_eq_length_filter, countP_range]
  refine Finset.sum_congr rfl fun i hi => ?_
  have hi := Finset.mem_range.1 hi
  rw [cellsOf_data d (by omega), BitVec.getLsbD_extractLsb']
  simp [hi]

/-- A run of an exact band's codes. -/
theorem exactCodes_slice (rows : Nat → Nat) (driven : List Nat) {a n : Nat} (h : a + n ≤ 1136) :
    ((exactCodes rows driven).drop a).take n = (List.range n).map fun i => driven.countP fun q => (rows q).testBit (a + i) := by
  refine List.ext_getElem (by simp [exactCodes]; omega) fun i hi _ => ?_
  simp [exactCodes]

theorem foldr_double (f : Nat → Nat) (n : Nat) :
    ((List.range n).map f).foldr (fun v acc => v + 2 * acc) 0 = ∑ j ∈ Finset.range n, 2 ^ j * f j := by
  induction n generalizing f with
  | zero => rfl
  | succ n ih =>
    rw [List.range_succ_eq_map, List.map_cons, List.map_map, List.foldr_cons, ih, Finset.sum_range_succ', Finset.mul_sum, Nat.pow_zero,
      Nat.one_mul, Nat.add_comm]
    refine congrArg (· + f 0) (Finset.sum_congr rfl fun j _ => ?_)
    rw [Function.comp_apply, Nat.pow_succ]
    ring

/-- The comparison of clean rows: the columns' counts agree because the columns of each row do. -/
theorem counts_agree (data : Nat → BitVec 1024) {g : Nat} (hg : g < 16) (driven : List Nat) :
    ∑ i ∈ Finset.range 64, driven.countP (fun q => (cellsOf (data q)).toNat.testBit (64 * g + i)) =
      ∑ j ∈ Finset.range 7, 2 ^ j * driven.countP (fun q => (cellsOf (data q)).toNat.testBit (1024 + 7 * g + j)) := by
  induction driven with
  | nil => simp
  | cons q driven ih =>
    have hcons (c : Nat) : (q :: driven).countP (fun q => (cellsOf (data q)).toNat.testBit c) =
        driven.countP (fun q => (cellsOf (data q)).toNat.testBit c) + ((cellsOf (data q)).toNat.testBit c).toNat := by
      cases h : (cellsOf (data q)).toNat.testBit c <;> simp [h]
    simp only [hcons, Finset.sum_add_distrib, Nat.mul_add, ih, cellsOf_agree _ hg]

theorem witnessGroup_clean (data : Nat → BitVec 1024) (driven : List Nat) (tol cap0 : Nat) {g : Nat} (hg : g < 16) (c : Conv) (cnt : Nat) :
    witnessGroup (exactCodes (fun q => (cellsOf (data q)).toNat) driven) true tol cap0 g c cnt = c := by
  rw [witnessGroup_exact, exactCodes_slice _ _ (by omega), exactCodes_slice _ _ (by omega), foldr_double, sum_map_range]
  exact if_pos (counts_agree data hg driven)

/-! ### Weights and sums of an exact operation (02 R46, R47, R49; 03 R83–R87) -/

/-- The bands of an operation that sums currents, as `panelSegs` lists them. -/
theorem panelSegs_current {w2 : BitVec 32} (hcur : w2.getLsbD 4 = false) (hlegal : panelSegs w2 ≠ none) :
    panelSegs w2 = some ((bitsOf (BitVec.ofNat 4 (fld w2 7 4)) 4).map fun k => (k, 256 * k, 256, 2 ^ k)) := by
  unfold panelSegs at hlegal ⊢
  simp only [hcur, Bool.false_eq_true, if_false] at hlegal ⊢
  split at hlegal
  · exact absurd rfl hlegal
  · exact if_neg ‹_›

/-- The rows an exact operation drives in plane `k`, over its bands. -/
def drivenOver (inp : List Nat) (bands : List Nat) (k : Nat) : List Nat := bands.flatMap fun n => drivenRows inp (256 * n) 256 k true

/-- The operation sums currents, runs exactly in each of its bands, and no converter is off its ideal code. -/
structure Edge.Exact (e : Edge) (bands : List Nat) : Prop where
  current : e.op.w2.getLsbD 4 = false
  exact : ∀ n ∈ bands, e.op.exactBands.getLsbD n = true
  ideal : e.devs = []
  segs : e.segs = bands.map fun k => (k, 256 * k, 256, 2 ^ k)

/-- The segment `sg` added to the sums over the segments before it. -/
def Edge.addSeg (e : Edge) (k : Nat) (a : List Nat × Nat × Conv) (sg : Nat × Nat × Nat × Nat) : List Nat × Nat × Conv :=
  let x := convertSeg e.rows e.op e.devs e.witEn e.tol e.cnt k sg a.2.2
  (List.zipWith (· + ·) a.1 x.1, a.2.1 + x.2.1, x.2.2)

theorem Edge.plane_eq (e : Edge) (k : Nat) (c : Conv) : e.plane k c = e.segs.foldl (e.addSeg k) (List.replicate 1024 0, 0, c) := rfl

/-- A plane of an exact operation passes the counts of the rows driven over all bands, and their number. -/
theorem Edge.plane_exact {e : Edge} {bands : List Nat} (h : e.Exact bands) (k : Nat) (c : Conv) :
    (e.plane k c).1 = exactPassed e.rows (drivenOver e.op.inp bands k) ∧
      (e.plane k c).2.1 = (drivenOver e.op.inp bands k).length := by
  have key : ∀ (bands l : List Nat) (c : Conv), (∀ n ∈ bands, e.op.exactBands.getLsbD n = true) →
      let y := (bands.map fun k => (k, 256 * k, 256, 2 ^ k)).foldl (e.addSeg k) (exactPassed e.rows l, l.length, c)
      y.1 = exactPassed e.rows (l ++ drivenOver e.op.inp bands k) ∧ y.2.1 = (l ++ drivenOver e.op.inp bands k).length := by
    intro bands
    induction bands with
    | nil => exact fun l c _ => by simp [drivenOver]
    | cons n bands ih =>
      intro l c hb
      have hn := convertSeg_exact e.rows h.current (hb n (by simp)) e.witEn e.tol e.cnt k c
      obtain ⟨d, hseg⟩ : ∃ d, e.addSeg k (exactPassed e.rows l, l.length, c) (n, 256 * n, 256, 2 ^ n) =
          (exactPassed e.rows (l ++ drivenRows e.op.inp (256 * n) 256 k true), (l ++ drivenRows e.op.inp (256 * n) 256 k true).length, d) := by
        simp only [addSeg, h.ideal, hn, exactPassed_append, List.length_append, Prod.mk.injEq, true_and, exists_eq']
      have hrest := ih (l ++ drivenRows e.op.inp (256 * n) 256 k true) d fun m hm => hb m (by simp [hm])
      rw [List.map_cons, List.foldl_cons, hseg]
      simpa only [drivenOver, List.flatMap_cons, List.append_assoc] using hrest
  have hall := key bands [] c h.exact
  rw [plane_eq, h.segs, ← exactPassed_nil e.rows]
  simpa only [List.length_nil, List.nil_append] using hall

/-- The weight of output `o` in a row's cells (02 R46): ±1 for one bit. -/
def cellWeight (w : Nat) (sgn : Bool) (row o : Nat) : Int :=
  if w = 1 then 2 * ((row.testBit o).toNat : Int) - 1
  else ∑ j ∈ Finset.range w, colWeight w sgn j * ((row.testBit (w * o + j)).toNat : Int)

/-- The plane partials (03 R86) of the rows driven are the sums of their weights. -/
theorem planePartials_exact {w : Nat} (sgn : Bool) (rows : Nat → Nat) (l : List Nat) :
    planePartials w sgn (exactPassed rows l) l.length = (List.range (1024 / w)).map fun o => (l.map fun q => cellWeight w sgn (rows q) o).sum := by
  have hcount (col : Nat) (q : Nat) (l : List Nat) : (((q :: l).countP fun q => (rows q).testBit col : Nat) : Int) =
      ((rows q).testBit col).toNat + ((l.countP fun q => (rows q).testBit col : Nat) : Int) := by
    cases h : (rows q).testBit col <;> simp [h, add_comm]
  unfold planePartials
  split
  · rename_i hw
    subst hw
    simp only [List.bind_eq_flatMap, List.pure_def, ← List.map_eq_flatMap, exactPassed, List.map_map, Nat.div_one]
    refine List.map_congr_left fun o _ => ?_
    induction l with
    | nil => simp
    | cons q l ih =>
      rw [List.map_cons, List.sum_cons, ← ih]
      simp only [Function.comp_apply, hcount, cellWeight, if_true, List.length_cons]
      push_cast
      ring
  · rename_i hw
    refine List.map_congr_left fun o ho => ?_
    have hcol (j : Nat) (hj : j < w) : w * o + j < 1024 := by
      have := List.mem_range.1 ho
      calc w * o + j < w * (o + 1) := by rw [Nat.mul_succ]; omega
        _ ≤ w * (1024 / w) := Nat.mul_le_mul_left _ this
        _ ≤ 1024 := Nat.mul_div_le _ _
    have hsum : ((List.range w).map fun j => colWeight w sgn j * (((exactPassed rows l).getD (w * o + j) 0 : Nat) : Int)).sum =
        ∑ j ∈ Finset.range w, colWeight w sgn j * ((l.countP fun q => (rows q).testBit (w * o + j) : Nat) : Int) :=
      (sum_map_range _ w).trans (Finset.sum_congr rfl fun j hj => by rw [exactPassed_getD _ _ (hcol j (Finset.mem_range.1 hj))])
    rw [hsum]
    clear hsum
    induction l with
    | nil => simp
    | cons q l ih => simp only [hcount, mul_add, Finset.sum_add_distrib, ih, List.map_cons, List.sum_cons, cellWeight, if_neg hw]

/-! ### Accumulation (03 R85, R87) -/

/-- An addition within 40 bits does not saturate. -/
theorem accAdd_exact {a x : Int} (h : |a + x| < 2 ^ 39) : (accAdd a x).1 = a + x := by
  obtain ⟨hlo, hhi⟩ := abs_lt.1 h
  rw [accAdd, saturate, if_neg (by omega), if_neg (by omega)]

/-- One increment added, with the saturations so far. -/
def accStep (st : SMap Int × List (Nat × Bool)) (e : Int × Nat) : SMap Int × List (Nat × Bool) :=
  let y := accAdd (mget 0 st.1 e.2) e.1
  (mset 0 st.1 e.2 y.1, match y.2 with | some h => st.2 ++ [(e.2, h)] | none => st.2)

theorem addAccs_eq (acc : SMap Int) (incs : List Int) : addAccs acc incs = incs.zipIdx.foldl accStep (acc, []) := rfl

theorem mget_addAccs (acc : SMap Int) {incs : List Int} {j : Nat} {x : Int} (h : incs[j]? = some x) :
    mget 0 (addAccs acc incs).1 j = (accAdd (mget 0 acc j) x).1 := by
  have key : ∀ (incs : List Int) (i : Nat) (st : SMap Int × List (Nat × Bool)),
      mget 0 ((incs.zipIdx i).foldl accStep st).1 j =
        if i ≤ j then incs[j - i]?.elim (mget 0 st.1 j) fun x => (accAdd (mget 0 st.1 j) x).1 else mget 0 st.1 j := by
    intro incs
    induction incs with
    | nil => exact fun i st => by simp
    | cons a incs ih =>
      intro i st
      rw [List.zipIdx_cons, List.foldl_cons, ih, accStep, mget_mset]
      rcases Nat.lt_trichotomy i j with hij | rfl | hij
      · obtain ⟨d, rfl⟩ : ∃ d, j = i + 1 + d := ⟨j - (i + 1), by omega⟩
        simp [show i + 1 + d - i = d + 1 by omega, show i + 1 + d ≠ i by omega, show i ≤ i + 1 + d by omega]
      · simp
      · simp [show ¬i ≤ j by omega, show ¬i + 1 ≤ j by omega, show j ≠ i by omega]
  rw [addAccs_eq, key incs 0 (acc, []), if_pos (Nat.zero_le j), Nat.sub_zero, h, Option.elim_some]

theorem mget_clearAccs (acc : SMap Int) {n j : Nat} (h : j < n) : mget 0 (clearAccs acc n) j = 0 :=
  mget_default fun e he => by
    have := (List.mem_filter.1 he).2
    simp only [decide_eq_true_eq] at this
    omega

theorem abs_bit_le (b : Bool) : |((b.toNat : Nat) : Int)| ≤ 1 := by cases b <;> simp

theorem abs_colWeight (w : Nat) (sgn : Bool) (j : Nat) : |colWeight w sgn j| = 2 ^ j := by
  unfold colWeight
  split <;> simp

/-- A sum of weighted bits is at most the number of bits times the largest weight. -/
theorem abs_sum_colWeight_le {w n : Nat} (hn : n ≤ 8) (sgn : Bool) (b : Nat → Int) {m : Int} (hb : ∀ j < n, |b j| ≤ m) (hm : 0 ≤ m) :
    |∑ j ∈ Finset.range n, colWeight w sgn j * b j| ≤ 2 ^ 10 * m := by
  calc |∑ j ∈ Finset.range n, colWeight w sgn j * b j|
      ≤ ∑ j ∈ Finset.range n, |colWeight w sgn j * b j| := Finset.abs_sum_le_sum_abs _ _
    _ ≤ ∑ _j ∈ Finset.range n, 2 ^ 7 * m := Finset.sum_le_sum fun j hj => by
        have hj := Finset.mem_range.1 hj
        rw [abs_mul, abs_colWeight]
        exact mul_le_mul (pow_le_pow_right₀ (by norm_num) (by omega)) (hb j hj) (abs_nonneg _) (by positivity)
    _ = n * (2 ^ 7 * m) := by simp
    _ ≤ 8 * (2 ^ 7 * m) := mul_le_mul_of_nonneg_right (by exact_mod_cast hn) (by positivity)
    _ = 2 ^ 10 * m := by ring

theorem abs_cellWeight_le {w : Nat} (hw : w ≤ 8) (sgn : Bool) (row o : Nat) : |cellWeight w sgn row o| ≤ 2 ^ 10 := by
  unfold cellWeight
  split
  · cases row.testBit o <;> simp
  · simpa using abs_sum_colWeight_le (w := w) hw sgn (fun j => ((row.testBit (w * o + j)).toNat : Int)) (m := 1) (fun j _ => abs_bit_le _) (by simp)

theorem abs_sum_map_le {α : Type} (l : List α) (f : α → Int) {m : Int} (hf : ∀ a, |f a| ≤ m) : |(l.map f).sum| ≤ l.length * m := by
  induction l with
  | nil => simp
  | cons a l ih =>
    simp only [List.map_cons, List.sum_cons, List.length_cons]
    calc |f a + (l.map f).sum| ≤ |f a| + |(l.map f).sum| := abs_add_le _ _
      _ ≤ m + l.length * m := add_le_add (hf a) ih
      _ = ((l.length + 1 : Nat) : Int) * m := by push_cast; ring

theorem length_drivenOver_le (inp bands : List Nat) (k : Nat) : (drivenOver inp bands k).length ≤ 255 * bands.length := by
  induction bands with
  | nil => simp [drivenOver]
  | cons n bands ih =>
    have hn := length_drivenRows_exact inp (256 * n) k
    simp only [drivenOver, List.flatMap_cons, List.length_append, List.length_cons] at ih ⊢
    omega

/-- What plane `k` of an exact operation adds to output `j` before the plane's weight. -/
def Edge.partialSum (e : Edge) (bands : List Nat) (j k : Nat) : Int :=
  ((drivenOver e.op.inp bands k).map fun q => cellWeight e.w e.sgnW (e.rows q) j).sum

/-- Plane by plane an accumulator that starts from zero takes the weighted partials, and 40 bits hold them. -/
theorem Edge.run_exact {e : Edge} {bands : List Nat} (h : e.Exact bands) (hnum : bands.length ≤ 4) (hw : e.w ≤ 8) {acc : SMap Int} {j : Nat}
    (hj : j < 1024 / e.w) (hacc : mget 0 acc j = 0) (n : Nat) (hn : n ≤ 8) :
    mget 0 (e.run n acc).1 j =
      ∑ k ∈ Finset.range n, planeWeight (panelPlanes e.op.w2) e.sgnIn k * e.partialSum bands j k := by
  have hpart (k : Nat) : |e.partialSum bands j k| ≤ 2 ^ 20 := by
    have hlen := length_drivenOver_le e.op.inp bands k
    calc |e.partialSum bands j k| ≤ (drivenOver e.op.inp bands k).length * 2 ^ 10 :=
          abs_sum_map_le _ _ fun q => abs_cellWeight_le hw _ _ _
      _ ≤ 2 ^ 20 := by omega
  induction n with
  | zero => simpa [Edge.run] using hacc
  | succ n ih =>
    have hrun : (e.run (n + 1) acc).1 = (addAccs (e.run n acc).1 ((planePartials e.w e.sgnW (e.plane n (e.run n acc).2.1).1
        (e.plane n (e.run n acc).2.1).2.1).map (planeWeight (panelPlanes e.op.w2) e.sgnIn n * ·))).1 := by
      simp only [Edge.run, List.range_succ, List.foldl_append, List.foldl_cons, List.foldl_nil]
    obtain ⟨hpassed, hrows⟩ := Edge.plane_exact h n (e.run n acc).2.1
    have hbound := abs_sum_colWeight_le (w := panelPlanes e.op.w2) hn e.sgnIn (e.partialSum bands j) (fun k _ => hpart k) (by positivity)
    rw [hrun, hpassed, hrows, planePartials_exact, mget_addAccs (x := planeWeight (panelPlanes e.op.w2) e.sgnIn n * e.partialSum bands j n),
      accAdd_exact, ih (by omega), Finset.sum_range_succ]
    · rw [ih (by omega), ← Finset.sum_range_succ]
      exact lt_of_le_of_lt hbound (by norm_num)
    · simp [hj, Edge.partialSum]

/-- The partials of all planes sum to the dot product: a row's input is the weighted sum of its plane bits. -/
theorem Edge.sum_partialSum (e : Edge) (bands : List Nat) (j : Nat) :
    ∑ k ∈ Finset.range (panelPlanes e.op.w2), planeWeight (panelPlanes e.op.w2) e.sgnIn k * e.partialSum bands j k =
      (bands.map fun n => ∑ i ∈ Finset.range 255,
        intOf (panelPlanes e.op.w2) e.sgnIn (e.op.inp.getD (256 * n + i) 0) * cellWeight e.w e.sgnW (e.rows (256 * n + i)) j).sum := by
  induction bands with
  | nil => simp [partialSum, drivenOver]
  | cons n bands ih =>
    have hcons (k : Nat) : e.partialSum (n :: bands) j k = (∑ i ∈ Finset.range 255,
        (((e.op.inp.getD (256 * n + i) 0).testBit k).toNat : Int) * cellWeight e.w e.sgnW (e.rows (256 * n + i)) j) +
          e.partialSum bands j k := by
      rw [partialSum, drivenOver, List.flatMap_cons, List.map_append, List.sum_append, sum_drivenRows_exact]
      rfl
    simp only [hcons, mul_add, Finset.sum_add_distrib, List.map_cons, List.sum_cons, ← ih, Finset.mul_sum]
    rw [Finset.sum_comm]
    refine congrArg (· + _) (Finset.sum_congr rfl fun i _ => ?_)
    rw [← sum_colWeight (show 0 < panelPlanes e.op.w2 from Nat.succ_pos _), Finset.sum_mul]
    exact Finset.sum_congr rfl fun k _ => (mul_assoc _ _ _).symm

/-- A weight (02 R46) is the number its cells hold. -/
theorem cellWeight_eq {w : Nat} (hw : 0 < w) (sgn : Bool) (row : BitVec 1136) (j : Nat) : cellWeight w sgn row.toNat j =
    let v := (row.extractLsb' (w * j) w).toNat
    if w = 1 then 2 * (v : Int) - 1 else if sgn then twos w v else v := by
  have hbit (i : Nat) (hi : i < w) : (row.extractLsb' (w * j) w).toNat.testBit i = row.toNat.testBit (w * j + i) := by
    simp [BitVec.testBit_toNat, hi]
  have hmod : (row.extractLsb' (w * j) w).toNat % 2 ^ w = (row.extractLsb' (w * j) w).toNat := Nat.mod_eq_of_lt (BitVec.isLt _)
  dsimp only
  unfold cellWeight
  split
  · subst w
    have h := sum_bits (row.extractLsb' (1 * j) 1).toNat 1
    rw [hmod, Finset.sum_range_one, hbit 0 Nat.one_pos, Nat.pow_zero, Nat.one_mul, Nat.one_mul, Nat.add_zero] at h
    rw [h, Nat.one_mul]
  · have h := sum_colWeight hw sgn (row.extractLsb' (w * j) w).toNat
    rw [intOf, hmod] at h
    rw [← h]
    exact Finset.sum_congr rfl fun i hi => by rw [hbit i (Finset.mem_range.1 hi)]

end Sys2Proof.Machine
end

section
/-! SUPPORT. The panels and their bay's stroke: what the shared operations leave of them, and what a panel's part of a stroke does
(chapter 02; 05 R137). -/

namespace Sys2Proof.Machine

variable (s : State)

/-! ### What snags, sticky bits and messages leave alone -/

theorem panel_congr {s u : State} (h : u.panels = s.panels) (k : Nat) : u.panel k = s.panel k := congrArg (mget ({} : Panel) · k) h

theorem bay_congr {s u : State} (h : u.bays = s.bays) (b : Nat) : u.bay b = s.bay b := congrArg (mget ({} : Bay) · b) h

@[simp] theorem snag_panels (code sev die unit : Nat) (args : List Nat) : (s.snag code sev die unit args).panels = s.panels :=
  snag_same s code sev die unit args (f := .panels) (by decide)

@[simp] theorem stickyBay_panels (b : Nat) (was : Bool) (set : Bay → Bay) (code sev : Nat) (args : List Nat) :
    (s.stickyBay b was set code sev args).panels = s.panels := by
  cases was
  · exact snag_panels _ _ _ _ _ _
  · rfl

theorem panel_stickyPanel (b p : Nat) (was : Bool) (set : Panel → Panel) (code sev : Nat) (args : List Nat) (k : Nat) :
    (s.stickyPanel b p was set code sev args).panel k = if k = pkey b p then set (s.panel (pkey b p)) else s.panel k := by
  rw [← State.panel_modPanel]
  cases was
  · exact panel_congr (snag_panels _ _ _ _ _ _) k
  · rfl

@[simp] theorem stickyPanel_bays (b p : Nat) (was : Bool) (set : Panel → Panel) (code sev : Nat) (args : List Nat) :
    (s.stickyPanel b p was set code sev args).bays = s.bays := by
  cases was
  · exact snag_bays _ _ _ _ _ _
  · rfl

@[simp] theorem toCtl_panels (b : Nat) (m : BayMsg) : (s.toCtl b m).panels = s.panels :=
  (toCtl_kept (L := .rtrs :: logged) (Kept.refl s) b m (by decide)).frame .panels (by decide)

@[simp] theorem toCtl_bays (b : Nat) (m : BayMsg) : (s.toCtl b m).bays = s.bays :=
  (toCtl_kept (L := .rtrs :: logged) (Kept.refl s) b m (by decide)).frame .bays (by decide)

@[simp] theorem signalFault_panels (b kind : Nat) (panel : Option Nat) : (s.signalFault b kind panel).panels = s.panels :=
  (signalFault_kept (L := [.bays, .rtrs] ++ logged) (Kept.refl s) b kind panel (by decide)).frame .panels (by decide)

/-! ### Strokes in flight -/

/-- The bays' sequencers and scratchpads are those of the state `s`. -/
def State.SameStrokes (u s : State) : Prop := ∀ c, (u.bay c).seq = (s.bay c).seq ∧ (u.bay c).sp = (s.bay c).sp

section
variable {s} {u : State}

theorem State.SameStrokes.of_bays {v : State} (h : u.SameStrokes s) (hv : v.bays = u.bays) : v.SameStrokes s :=
  fun c => bay_congr hv c ▸ h c

theorem State.SameStrokes.refl (s : State) : s.SameStrokes s := fun _ => ⟨rfl, rfl⟩

theorem State.SameStrokes.modBay (h : u.SameStrokes s) (b : Nat) {f : Bay → Bay} (hf : ∀ y, (f y).seq = y.seq ∧ (f y).sp = y.sp) :
    (u.modBay b f).SameStrokes s := by
  intro c
  rw [State.bay_modBay]
  split
  · subst c
    exact ⟨(hf _).1.trans (h b).1, (hf _).2.trans (h b).2⟩
  · exact h c

theorem State.SameStrokes.stickyBay (h : u.SameStrokes s) (b : Nat) (was : Bool) {set : Bay → Bay}
    (hset : ∀ y, (set y).seq = y.seq ∧ (set y).sp = y.sp) (code sev : Nat) (args : List Nat) :
    (u.stickyBay b was set code sev args).SameStrokes s := by
  cases was
  · exact (h.modBay b hset).of_bays (snag_bays _ _ _ _ _ _)
  · exact h.modBay b hset

theorem State.SameStrokes.closeWindow (h : u.SameStrokes s) (b : Nat) : (u.closeWindow b).SameStrokes s := by
  unfold State.closeWindow
  split
  · refine State.SameStrokes.of_bays ?_ (toCtl_bays _ _ _)
    exact h.modBay b fun _ => ⟨rfl, rfl⟩
  · exact h

theorem State.SameStrokes.signalFault (h : u.SameStrokes s) (b kind : Nat) (panel : Option Nat) :
    (u.signalFault b kind panel).SameStrokes s := by
  unfold State.signalFault
  refine State.SameStrokes.modBay ?_ b fun _ => ⟨rfl, rfl⟩
  split
  · split
    · exact h.closeWindow b
    · exact h
  · exact h

theorem State.SameStrokes.accOverflow (h : u.SameStrokes s) (b panel : Nat) (l : List (Nat × Bool)) :
    (u.accOverflow b panel l).SameStrokes s := by
  cases l with
  | nil => exact h
  | cons e l =>
    refine State.SameStrokes.stickyBay h b _ (fun y => ?_) _ _ _
    exact ⟨rfl, rfl⟩

end

/-- A stroke whose scratchpad part is open has not ended. -/
theorem Running.complete_of_sp {r : Running} (h : r.sp = true) : r.complete = false := by simp [Running.complete, h]

/-- A part of the stroke ends while its scratchpad part is open: the stroke goes on. -/
theorem strokeCheck_modCur {b : Nat} {r : Running} (hcur : (s.bay b).seq.cur = some r) {f : Running → Running} (hf : (f r).sp = true) :
    (s.modBay b fun y => y.modCur f).strokeCheck b = s.modBay b fun y => y.modCur f := by
  have hbay : ((s.modBay b fun y => y.modCur f).bay b).seq.cur = some (f r) := by
    rw [State.bay_modBay, if_pos rfl, Bay.modCur, hcur]
    rfl
  unfold State.strokeCheck
  rw [hbay]
  exact if_neg (by simp [Running.complete_of_sp hf])

theorem cur_modCur {b : Nat} {r : Running} (hcur : (s.bay b).seq.cur = some r) (f : Running → Running) :
    ((s.modBay b fun y => y.modCur f).bay b).seq.cur = some (f r) := by
  rw [State.bay_modBay, if_pos rfl, Bay.modCur, hcur]
  rfl

/-! ### Row commits (02 R48, R56, R60) -/

theorem commitRow_cells (x : Panel) (bank row : Nat) (d : BitVec 1024) :
    (x.commitRow bank row d).cells = mset none x.cells (1024 * bank + row) (some (cellsOf d)) := by
  unfold Panel.commitRow
  dsimp only
  split
  · split <;> rfl
  · rfl

/-- The guard bit of a row is 1 where its data is 0 (02 R48). -/
theorem guardBit_written (g : BitVec 4) (d : BitVec 1024) {m n : Nat} (hm : m < 4) (hn : n < 4) :
    (if d = 0 then g ||| BitVec.ofNat 4 (2 ^ m) else g &&& ~~~(BitVec.ofNat 4 (2 ^ m))).getLsbD n =
      if m = n then d == 0 else g.getLsbD n := by
  have hbits : ∀ m < 4, ∀ n < 4, (BitVec.ofNat 4 (2 ^ m)).getLsbD n = decide (m = n) := by decide
  have hbit := hbits m hm n hn
  split
  · rename_i hd
    rw [BitVec.getLsbD_or, hbit]
    by_cases hmn : m = n <;> simp [hd, hmn]
  · rename_i hd
    rw [BitVec.getLsbD_and, BitVec.getLsbD_not, hbit]
    by_cases hmn : m = n
    · simp only [hmn, decide_true, Bool.not_true, Bool.and_false, if_true]
      exact (beq_eq_false_iff_ne.2 hd).symm
    · simp [hmn, hn]

theorem commitRow_guard (x : Panel) {bank row : Nat} (hbank : bank < 2) (hrow : row < 1024) (d : BitVec 1024) {bk n : Nat} (hbk : bk < 2)
    (hn : n < 4) : ((x.commitRow bank row d).guard bk).getLsbD n =
      if bk = bank ∧ row = 256 * n + 255 then d == 0 else (x.guard bk).getLsbD n := by
  by_cases hlast : row % 256 = 255
  · have hrow : row = 256 * n + 255 ↔ row / 256 = n := by omega
    have hcommit : (x.commitRow bank row d).guard bk = if bk = bank then
        (if d = 0 then x.guard bk ||| BitVec.ofNat 4 (2 ^ (row / 256)) else x.guard bk &&& ~~~(BitVec.ofNat 4 (2 ^ (row / 256))))
        else x.guard bk := by
      obtain rfl | rfl : bank = 0 ∨ bank = 1 := by omega
      all_goals
        obtain rfl | rfl : bk = 0 ∨ bk = 1 := by omega
        all_goals simp [Panel.commitRow, Panel.guard, hlast]
    rw [hcommit]
    by_cases hb : bk = bank
    · rw [if_pos hb, guardBit_written _ _ (by omega) hn]
      simp only [hb, hrow, true_and]
    · simp only [hb, false_and, if_false]
  · have hrow : row ≠ 256 * n + 255 := by omega
    simp [Panel.commitRow, Panel.guard, hlast, hrow]

/-! ### What the end of a stroke leaves of a panel (05 R137, R172) -/

/-- The cells and guard bits are those of another panel state. -/
def Panel.SameStores (y x : Panel) : Prop := y.cells = x.cells ∧ y.guardA = x.guardA ∧ y.guardB = x.guardB

theorem Panel.SameStores.refl (x : Panel) : x.SameStores x := ⟨rfl, rfl, rfl⟩

theorem Panel.SameStores.trans {x y z : Panel} (h : z.SameStores y) (g : y.SameStores x) : z.SameStores x :=
  ⟨h.1.trans g.1, h.2.1.trans g.2.1, h.2.2.trans g.2.2⟩

theorem Panel.SameStores.guard {x y : Panel} (h : y.SameStores x) (bank : Nat) : y.guard bank = x.guard bank := by
  rw [Panel.guard, Panel.guard, h.2.1, h.2.2]

theorem Panel.applyStg_sameStores (x : Panel) : x.applyStg.SameStores x := by
  unfold Panel.applyStg
  split <;> exact ⟨rfl, rfl, rfl⟩

theorem modPanel_sameStores {f : Panel → Panel} (hf : ∀ x, (f x).SameStores x) (j k : Nat) :
    ((s.modPanel j f).panel k).SameStores (s.panel k) := by
  rw [State.panel_modPanel]
  split
  · subst k
    exact hf _
  · exact .refl _

theorem foldl_modPanel_sameStores {l : List Nat} {key : Nat → Nat} {f : Panel → Panel} (hf : ∀ x, (f x).SameStores x) (k : Nat) :
    ((l.foldl (fun s j => s.modPanel (key j) f) s).panel k).SameStores (s.panel k) :=
  List.foldlRecOn l _ (motive := fun u : State => (u.panel k).SameStores (s.panel k)) (.refl _)
    fun u hu j _ => (modPanel_sameStores u hf (key j) k).trans hu

/-- At a boundary fields change that wait for it, and LIVE. -/
theorem boundary_sameStores (b k : Nat) : ((s.boundary b).panel k).SameStores (s.panel k) := by
  unfold State.boundary
  refine (foldl_modPanel_sameStores _ (key := pkey b) (f := fun x => { x with live := !x.live }) (fun x => ⟨rfl, rfl, rfl⟩) k).trans ?_
  exact foldl_modPanel_sameStores (s.modBay b _) (key := id) Panel.applyStg_sameStores k

/-- What the end of a stroke may change but for the boundary. -/
def strokeEnd : List Field :=
  [.mode, .pwr, .bays, .rtrs, .ctx0, .ctx1, .pages, .plans, .weights, .fab, .host, .snags, .snagNext, .out]

theorem Kept.panel_eq {s u : State} (h : Kept strokeEnd s u) (k : Nat) : u.panel k = s.panel k :=
  panel_congr (h.frame .panels (by decide)) k

theorem finishStroke_sameStores (b : Nat) (r : Running) (k : Nat) : ((s.finishStroke b r).panel k).SameStores (s.panel k) := by
  unfold State.finishStroke
  lift_lets
  intro w free s1
  have h1 : s1.panel k = s.panel k := rfl
  clear_value s1
  intro s2
  have h2 : Kept strokeEnd s1 s2 := foldl_kept (fun s f g => setFlag_kept g b f 0 0 (by decide)) (.refl s1)
  clear_value s2
  intro s3
  have h3 : Kept strokeEnd (s2.boundary b) s3 := skipAfter_kept (.refl _) b _ (by decide)
  clear_value s3
  have hstores : (s3.panel k).SameStores (s.panel k) := by
    rw [h3.panel_eq, ← h1, ← h2.panel_eq]
    exact boundary_sameStores s2 b k
  have hlast : ∀ u, Kept strokeEnd s3 u → (u.panel k).SameStores (s.panel k) := fun u hu => by
    rw [hu.panel_eq]
    exact hstores
  intro s4
  have h4 : Kept strokeEnd s3 s4 := by
    unfold s4
    split
    · exact toCtl_kept (modBay_kept (.refl s3) b (fun _ hy => by exact hy) (by decide)) _ _ (by decide)
    · exact .refl s3
  clear_value s4
  refine hlast _ (Kept.ite (fun _ => ?_) fun _ => modBay_kept h4 b (fun _ hy => by exact hy) (by decide))
  exact endProgram_kept (Kept.ite (fun _ => toCtl_kept h4 _ _ (by decide)) fun _ => h4) b (by decide)

theorem strokeCheck_sameStores (b k : Nat) : ((s.strokeCheck b).panel k).SameStores (s.panel k) := by
  unfold State.strokeCheck
  split
  · split
    · exact finishStroke_sameStores s b _ k
    · exact .refl _
  · exact .refl _

theorem rowPartDone_sameStores (b p : Nat) (ws : List SpWrite) (k : Nat) : ((s.rowPartDone b p ws).panel k).SameStores (s.panel k) :=
  strokeCheck_sameStores (s.modBay b _) b k

theorem rowPartDone_epoch (b p : Nat) (ws : List SpWrite) : (s.rowPartDone b p ws).epoch = s.epoch :=
  (rowPartDone_kept (L := .panels :: strokeEnd) (.refl s) b p ws (by decide)).frame .epoch (by decide)

theorem rowPartDone_open {b : Nat} {r : Running} (hcur : (s.bay b).seq.cur = some r) (hsp : r.sp = true) (p : Nat) (ws : List SpWrite) :
    s.rowPartDone b p ws = s.modBay b fun y => y.modCur fun r => { r with rows := r.rows.erase p, writes := r.writes ++ ws } :=
  strokeCheck_modCur s hcur hsp

theorem panelPartDone_open {b : Nat} {r : Running} (hcur : (s.bay b).seq.cur = some r) (hsp : r.sp = true) (p : Nat) :
    s.panelPartDone b p = s.modBay b fun y => y.modCur fun r => { r with panels := r.panels.erase p } :=
  strokeCheck_modCur s hcur hsp

/-! ### A compute operation completes (02 R55, R57, R58, R67; 03 R85–R87) -/

/-- What the compute operation `o` of panel `p` of bay `b` converts and adds with. -/
def State.edgeOf (s : State) (b p : Nat) (o : PanelOp) (devs : List Dev) : Edge where
  rows := fun r => (s.rowOf (pkey b p) o.bank r).toNat
  op := o
  devs := devs
  witEn := (s.panel (pkey b p)).witEn
  sgnIn := match Fmt.ofDesc o.desc with | .int _ g => g | .bx _ => true | _ => false
  sgnW := (s.panel (pkey b p)).weightSigned o.bank
  w := (s.panel (pkey b p)).width o.bank
  tol := (s.panel (pkey b p)).tol.toNat
  cnt := (s.bay b).strokeCnt
  segs := (panelSegs o.w2).getD []

/-- The accumulators, conversions and saturations of the operation. -/
def State.computed (s : State) (b p : Nat) (o : PanelOp) (devs : List Dev) : SMap Int × Conv × List (Nat × Bool) :=
  let x := s.panel (pkey b p)
  (s.edgeOf b p o devs).run (panelPlanes o.w2) (if o.w2.getLsbD 17 then x.acc else clearAccs x.acc (1024 / x.width o.bank))

/-- The panel after the operation, but for its sticky bits and capture. -/
def State.computedPanel (s : State) (b p : Nat) (o : PanelOp) (devs : List Dev) : Panel :=
  let x := s.panel (pkey b p)
  let c := (s.computed b p o devs).2.1
  { x with
    op := none, acc := (s.computed b p o devs).1, sats := x.sats ||| c.sats, satCnt := satAdd x.satCnt c.clips 0xFFFFFFFF,
    skipCnt := satAdd x.skipCnt c.skips 0xFFFF, misCnt := satAdd x.misCnt c.miss 0xFFFF }

/-- `u` differs from `s` in what the end of an operation of panel `k` writes: the panel is `y` but for its sticky bits and capture, and the
other panels and the strokes are the same. -/
structure State.Computing (u s : State) (k : Nat) (y : Panel) : Prop where
  panel : ∃ sat mis cap, u.panel k = { y with sat := sat, witMismatch := mis, cap := cap }
  others : ∀ j, j ≠ k → u.panel j = s.panel j
  strokes : u.SameStrokes s

section
variable {s} {u : State} {b p : Nat} {y : Panel}

/-- A step that leaves the panels alone. -/
theorem State.Computing.of_panels {v : State} {k : Nat} (h : u.Computing s k y) (hp : v.panels = u.panels) (hs : v.SameStrokes s) :
    v.Computing s k y :=
  ⟨panel_congr hp k ▸ h.panel, fun j hj => (panel_congr hp j).trans (h.others j hj), hs⟩

theorem State.Computing.stickyPanel (h : u.Computing s (pkey b p) y) (was : Bool) {set : Panel → Panel}
    (hset : ∀ x, ∃ sat mis cap, set x = { x with sat := sat, witMismatch := mis, cap := cap }) (code sev : Nat) (args : List Nat) :
    (u.stickyPanel b p was set code sev args).Computing s (pkey b p) y := by
  obtain ⟨_, _, _, hy⟩ := h.panel
  obtain ⟨sat, mis, cap, hx⟩ := hset (u.panel (pkey b p))
  refine ⟨⟨sat, mis, cap, ?_⟩, fun j hj => ?_, h.strokes.of_bays (stickyPanel_bays _ _ _ _ _ _ _ _)⟩
  · rw [panel_stickyPanel, if_pos rfl, hx, hy]
  · rw [panel_stickyPanel, if_neg hj, h.others j hj]

end

theorem accOverflow_panels (b panel : Nat) (l : List (Nat × Bool)) : (s.accOverflow b panel l).panels = s.panels := by
  cases l with
  | nil => rfl
  | cons e l => exact stickyBay_panels _ _ _ _ _ _ _

/-- A compute operation completes while the stroke's scratchpad part is open. -/
theorem completeCompute_open {b : Nat} {r : Running} (hcur : (s.bay b).seq.cur = some r) (hsp : r.sp = true) (p : Nat) (o : PanelOp)
    (devs : List Dev) : ∃ u : State, u.Computing s (pkey b p) (s.computedPanel b p o devs) ∧
      s.completeCompute b p o devs [] = u.modBay b fun y => y.modCur fun r => { r with panels := r.panels.erase p } := by
  suffices ∃ u : State, u.Computing s (pkey b p) (s.computedPanel b p o devs) ∧ s.completeCompute b p o devs [] = u.panelPartDone b p by
    obtain ⟨u, hu, he⟩ := this
    refine ⟨u, hu, he.trans (panelPartDone_open u ?_ hsp p)⟩
    rw [(hu.strokes b).1, hcur]
  unfold State.completeCompute
  lift_lets
  intro k x cnt w fd sgnIn acc0 e res c time s1
  have h1 : s1.Computing s (pkey b p) (s.computedPanel b p o devs) :=
    ⟨⟨_, _, _, (State.panel_setPanel s _ _ _).trans (if_pos rfl)⟩, fun j hj => (State.panel_setPanel s _ _ _).trans (if_neg hj), .refl s⟩
  clear_value s1
  intro s2
  have h2 : s2.Computing s (pkey b p) (s.computedPanel b p o devs) := by
    unfold s2
    split
    · exact h1
    · exact h1.stickyPanel _ (fun x => ⟨true, x.witMismatch, x.cap, rfl⟩) _ _ _
  clear_value s2
  intro s3
  have h3 : s3.Computing s (pkey b p) (s.computedPanel b p o devs) := by
    unfold s3
    split
    · exact h2
    · rename_i cap _
      have hcap := h2.stickyPanel (b := b) (p := p) x.witMismatch
        (set := fun x => if x.witMismatch then x else { x with witMismatch := true, cap := cap })
        (fun x => by split <;> exact ⟨_, _, _, rfl⟩) 0x1010 2 (cap.take 3)
      exact hcap.of_panels (signalFault_panels _ _ _ _) (hcap.strokes.signalFault _ _ _)
  clear_value s3
  intro s4 s5
  exact ⟨s5, h3.of_panels (accOverflow_panels _ _ _ _) (h3.strokes.accOverflow _ _ _), rfl⟩

@[simp] theorem tick_leafBand (t leaf : Nat) : (s.tick t).leafBand leaf = s.leafBand leaf := rfl

/-! ### Skims (02 R53, R54; 14 R392) -/

/-- A trim set after a skim (02 R53): the residual it found, its sum mode and its time. -/
def Trim.skimmed (z : Trim) (time : Bool) (res : BitVec 8) (at_ : Nat) : Trim :=
  { z with res := res, mode := time, cur := if time then z.cur else some at_, tim := if time then some at_ else z.tim }

theorem Trim.skimmed_at (z : Trim) (time : Bool) (res : BitVec 8) (at_ : Nat) :
    (if time then (z.skimmed time res at_).tim else (z.skimmed time res at_).cur) = some at_ := by cases time <;> rfl

/-- The panel after a skim on its latched trim set `set`. -/
def State.skimmedPanel (s : State) (k : Nat) (set : BitVec 2) (time : Bool) (res : BitVec 8) : Panel :=
  let x := s.panel k
  { x with trims := mset none x.trims set.toNat (some ((s.trimOf k set.toNat).skimmed time res s.mtime)), skimCnt := (x.skimCnt + 1) % 256 }

theorem skimEnds_parts (b p : Nat) (time : Bool) (res : BitVec 8) {set : BitVec 2} (hset : (s.panel (pkey b p)).trimSet = some set) :
    (s.skimEnds b p time res).panels = (s.setPanel (pkey b p) (s.skimmedPanel (pkey b p) set time res)).panels ∧
      (s.skimEnds b p time res).bays = s.bays := by
  have hlatched : s.trimSetOf (pkey b p) = set.toNat := by simp [State.trimSetOf, hset]
  unfold State.skimEnds
  lift_lets
  intro k x set' was old new s1 s2
  have h1 : s1 = s.setPanel k (s.skimmedPanel k set time res) := by
    have hset' : set' = set.toNat := hlatched
    have hk : x.trimSet = some (BitVec.ofNat 2 set.toNat) := by simpa [x, k] using hset
    simp only [s1, new, old, hset', State.skimmedPanel, Trim.skimmed, ← hk]
    rfl
  have h2 : s2.panels = s1.panels ∧ s2.bays = s1.bays := by
    unfold s2
    split
    · exact ⟨snag_panels _ _ _ _ _ _, snag_bays _ _ _ _ _ _⟩
    · exact ⟨rfl, rfl⟩
  exact ⟨h2.1.trans (congrArg State.panels h1), h2.2.trans (by rw [h1]; rfl)⟩

/-! ### A compute operation starts (02 R49, R53, R62) -/

/-- The bands of an operation that asks for exactness and whose last row is not a guard row. -/
def PanelOp.lost (o : PanelOp) (guard : BitVec 4) : BitVec 4 :=
  if o.w2.getLsbD 14 then BitVec.ofNat 4 (fld o.w2 7 4) &&& ~~~guard else 0

/-- The operation as it runs on its bank: `inp` is its aligned input. -/
def PanelOp.running (o : PanelOp) (x : Panel) (bank : Nat) (inp : List Nat) : PanelOp :=
  { o with
    started := true, skimming := false, bank := bank, inp := inp,
    exactBands := if o.w2.getLsbD 14 then BitVec.ofNat 4 (fld o.w2 7 4) &&& x.guard bank else 0 }

/-- The panel with the operation started on a bank and a trim set. -/
def Panel.startedOn (x : Panel) (o : PanelOp) (set bank : Nat) (inp : List Nat) : Panel :=
  { x with
    trimSet := some (BitVec.ofNat 2 set), wrHeld := x.wrHeld || x.rowQ.any fun a => x.resolve a.bank == bank,
    op := some (o.running x bank inp), exactLost := x.exactLost || o.lost (x.guard bank) != 0 }

/-- What the input's alignment reports changes no panel. -/
theorem startCompute_panel (b p : Nat) (o : PanelOp) (r : Running) (set bank : Nat) : ∃ inp, ∀ j,
    (s.startCompute b p o r set bank).panel j = if j = pkey b p then (s.panel (pkey b p)).startedOn o set bank inp else s.panel j := by
  unfold State.startCompute
  lift_lets
  intro k x mask exact lost inp cnt s1 s2 s3
  have h2 (j : Nat) : s2.panel j = if j = pkey b p then x.startedOn o set bank inp.1 else s.panel j := by
    have h1 := State.panel_setPanel s k
    unfold s2
    split
    · rename_i hlost
      rw [h1]
      split
      · have hlost' : o.lost (x.guard bank) = 0 := hlost
        simp only [Panel.startedOn, hlost', bne_self_eq_false, Bool.or_false]
        rfl
      · rfl
    · rename_i hlost
      rw [panel_stickyPanel, h1, h1, if_pos rfl]
      split
      · have hlost' : (o.lost (x.guard bank) != 0) = true := bne_iff_ne.2 hlost
        simp only [Panel.startedOn, hlost', Bool.or_true]
        rfl
      · rfl
  have h3 : s3.panels = s2.panels := by
    unfold s3
    split
    · rfl
    · exact stickyBay_panels _ _ _ _ _ _ _
  refine ⟨inp.1, fun j => (panel_congr (Eq.trans ?_ h3) j).trans (h2 j)⟩
  split
  · rfl
  · exact stickyBay_panels _ _ _ _ _ _ _

/-- Illegal parameters end the panel's part while the stroke's scratchpad part is open (02 R66). -/
theorem illegalPanelOp_open {b : Nat} {r : Running} (hcur : (s.bay b).seq.cur = some r) (hsp : r.sp = true) (p : Nat) (o : PanelOp) :
    ((s.illegalPanelOp b p o).panel (pkey b p)).op = none ∧ ((s.illegalPanelOp b p o).panel (pkey b p)).opErr = true ∧
      ((s.illegalPanelOp b p o).bay b).seq.cur = some { r with panels := r.panels.erase p } := by
  unfold State.illegalPanelOp
  lift_lets
  intro x s1 s2
  have hbays : s2.bays = s.bays := stickyPanel_bays _ _ _ _ _ _ _ _
  have hcur2 : (s2.bay b).seq.cur = some r := by rw [bay_congr hbays, hcur]
  have hpanel : s2.panel (pkey b p) = { x with op := none, opErr := true } := by
    have h1 := State.panel_modPanel s (pkey b p) (pkey b p) fun x => { x with op := none }
    rw [if_pos rfl] at h1
    exact (panel_stickyPanel _ _ _ _ _ _ _ _ _).trans ((if_pos rfl).trans (by rw [h1]))
  rw [strokeCheck_modCur s2 hcur2 hsp, cur_modCur s2 hcur2, State.panel_modBay, hpanel]
  exact ⟨rfl, rfl, rfl⟩

/-! ### PANEL_OP_START (02 R49, R53, R62, R66; 14 R392) -/

section
variable {s} {b : BayIx} {p : PanelIx} {o : PanelOp} {r : Running} (hop : (s.panel (pkey b p)).op = some o)
  (hcur : (s.bay b).seq.cur = some r) (t : Nat)
include hop hcur

theorem panelOpStart_waking (hwake : (s.bay b).waking (panelAccesses (s.bay b).seq r.word) = true) :
    exec (.panelOpStart t b p) s = .next (s.tick t) := by
  simp [exec_panelOpStart, execPanelOpStart, hop, hcur, hwake]

variable (hwait : o.started = false) (hidle : o.skimming = false)
  (hwake : (s.bay b).waking (panelAccesses (s.bay b).seq r.word) = false)
include hwait hidle hwake

theorem panelOpStart_illegal (hc : o.compute = true) (hseg : panelSegs o.w2 = none) :
    exec (.panelOpStart t b p) s = .next ((s.tick t).illegalPanelOp b p o) := by
  simp [exec_panelOpStart, execPanelOpStart, hop, hwait, hidle, hcur, hwake, hc, hseg]

theorem panelOpStart_noBand (hlegal : o.compute = true → panelSegs o.w2 ≠ none) (hband : s.leafBand (leafOf b) = none) :
    exec (.panelOpStart t b p) s = .next (s.tick t) := by
  have hl : (o.compute && (panelSegs o.w2).isNone) = false := by
    cases hc : o.compute
    · rfl
    · simpa [Option.isSome_iff_ne_none] using hlegal hc
  simp only [exec_panelOpStart, execPanelOpStart, State.panel_tick, State.bay_tick, tick_leafBand, hop, hwait, hidle, hcur, hwake, hl, hband]
  rfl

variable {set : Nat} (hband : s.leafBand (leafOf b) = some set)
include hband

theorem panelOpStart_skim (hc : o.compute = false) : exec (.panelOpStart t b p) s = .next (((s.tick t).setPanel (pkey b p)
    { s.panel (pkey b p) with trimSet := some (BitVec.ofNat 2 set), op := some { o with started := true } }).skimStarts (dieOf b)) := by
  simp [exec_panelOpStart, execPanelOpStart, hop, hwait, hidle, hcur, hwake, hc, hband]

variable (hc : o.compute = true) (hseg : panelSegs o.w2 ≠ none)
include hc hseg

theorem panelOpStart_held {a : RowAcc} (hrow : (s.panel (pkey b p)).rowCur = some ((s.panel (pkey b p)).resolve (bankSel (fld o.w2 2 2)), a)) :
    exec (.panelOpStart t b p) s =
      .next (((s.tick t).setPanel (pkey b p) { s.panel (pkey b p) with wrHeld := true }).intrude 2) := by
  simp [exec_panelOpStart, execPanelOpStart, hop, hwait, hidle, hcur, hwake, hc, hseg, hband, hrow]

/-- No row access holds the bank: a skim that is due comes first. -/
theorem panelOpStart_free
    (hfree : ¬∃ a, (s.panel (pkey b p)).rowCur = some ((s.panel (pkey b p)).resolve (bankSel (fld o.w2 2 2)), a)) :
    exec (.panelOpStart t b p) s = .next (
      if (s.tick t).skimDue (pkey b p) set (o.w2.getLsbD 4) = true then (s.tick t).setPanel (pkey b p)
        { s.panel (pkey b p) with trimSet := some (BitVec.ofNat 2 set), op := some { o with skimming := true } }
      else (s.tick t).startCompute b p o r set ((s.panel (pkey b p)).resolve (bankSel (fld o.w2 2 2)))) := by
  cases hrow : (s.panel (pkey b p)).rowCur with
  | none => simp [exec_panelOpStart, execPanelOpStart, hop, hwait, hidle, hcur, hwake, hc, hseg, hband, hrow]
  | some e =>
    obtain ⟨rb, a⟩ := e
    have hne : rb ≠ (s.panel (pkey b p)).resolve (bankSel (fld o.w2 2 2)) := fun h => hfree ⟨a, h ▸ hrow⟩
    simp [exec_panelOpStart, execPanelOpStart, hop, hwait, hidle, hcur, hwake, hc, hseg, hband, hrow, hne]

end

/-! ### Row accesses (02 R59–R63) -/

section
variable {s} {b : BayIx} {p : PanelIx}

theorem tick_opFirst (t b k bank : Nat) : (s.tick t).opFirst b k bank = s.opFirst b k bank := rfl

theorem rowAccessStart_front {a : RowAcc} {q : List RowAcc} (hidle : (s.panel (pkey b p)).rowCur = none)
    (hq : (s.panel (pkey b p)).rowQ = a :: q)
    (hwake : a.src = .stroke → ∀ r, (s.bay b).seq.cur = some r → (s.bay b).waking (panelAccesses (s.bay b).seq r.word) = false) (t : Nat) :
    let x := s.panel (pkey b p)
    exec (.rowAccessStart t b p) s = .next (
      if x.opOn (x.resolve a.bank) = true ∨ s.opFirst b (pkey b p) (x.resolve a.bank) = true then
        (s.tick t).setPanel (pkey b p) { x with wrHeld := true }
      else (s.tick t).setPanel (pkey b p) { x with rowQ := q, rowCur := some (x.resolve a.bank, a) }) := by
  simp only [exec_rowAccessStart, execRowAccessStart, State.panel_tick, State.bay_tick, tick_opFirst, hidle, hq, ← Bool.or_eq_true]
  refine congrArg Host.Outcome.next (if_neg ?_)
  split
  · exact Bool.eq_false_iff.1 (hwake ‹_› _ ‹_›)
  · exact Bool.false_ne_true

/-- The state in which the row has been written and its access has ended. -/
def State.rowWritten (s : State) (k bank row : Nat) (d : BitVec 1024) : State :=
  s.setPanel k { (s.panel k).commitRow bank row d with rowCur := none }

variable {bank : Nat} {a : RowAcc} {d : BitVec 1024} (hrow : (s.panel (pkey b p)).rowCur = some (bank, a)) (hdata : a.data = some d) (t : Nat)
include hrow hdata

theorem rowWriteCommit_stroke (hsrc : a.src = .stroke) :
    exec (.rowWriteCommit t b p) s = .next (((s.tick t).rowWritten (pkey b p) bank a.row d).rowPartDone b p []) := by
  simp only [exec_rowWriteCommit, execRowWriteCommit, State.panel_tick, hrow, hdata, hsrc]
  rfl

theorem rowWriteCommit_message {last : Bool} (hsrc : a.src = .message last) : exec (.rowWriteCommit t b p) s = .next (
    if last then ((s.tick t).rowWritten (pkey b p) bank a.row d).toCtl b (.panelDone p s.gen)
    else (s.tick t).rowWritten (pkey b p) bank a.row d) := by
  simp only [exec_rowWriteCommit, execRowWriteCommit, State.panel_tick, hrow, hdata, hsrc]
  rfl

theorem rowWriteCommit_readback {route : BitVec 64} (hsrc : a.src = .readback route) :
    exec (.rowWriteCommit t b p) s = .next ((s.tick t).rowWritten (pkey b p) bank a.row d) := by
  simp only [exec_rowWriteCommit, execRowWriteCommit, State.panel_tick, hrow, hdata, hsrc]
  rfl

/-- Whatever the access ends, the row's data, witness bits and guard bit are the ones written. -/
theorem rowWriteCommit_stores : ∃ u, exec (.rowWriteCommit t b p) s = .next u ∧ u.epoch = s.epoch ∧
    (u.panel (pkey b p)).SameStores ((s.panel (pkey b p)).commitRow bank a.row d) := by
  have hwritten : (((s.tick t).rowWritten (pkey b p) bank a.row d).panel (pkey b p)).SameStores
      ((s.panel (pkey b p)).commitRow bank a.row d) := by
    rw [State.rowWritten, State.panel_setPanel, if_pos rfl]
    exact ⟨rfl, rfl, rfl⟩
  cases hsrc : a.src with
  | stroke => exact ⟨_, rowWriteCommit_stroke hrow hdata t hsrc, rowPartDone_epoch _ _ _ _, (rowPartDone_sameStores _ _ _ _ _).trans hwritten⟩
  | message last =>
    refine ⟨_, rowWriteCommit_message hrow hdata t hsrc, ?_⟩
    cases last
    · exact ⟨rfl, hwritten⟩
    · simp only [if_true]
      rw [panel_congr (toCtl_panels _ _ _)]
      exact ⟨(toCtl_kept (L := .rtrs :: logged) (Kept.refl _) b _ (by decide)).frame .epoch (by decide), hwritten⟩
  | readback route => exact ⟨_, rowWriteCommit_readback hrow hdata t hsrc, rfl, hwritten⟩

end

/-- What a row's cells are after a row of the same bank or the other has been written. -/
theorem rowOf_commitRow {u : State} {k bank row : Nat} {d : BitVec 1024} (hepoch : u.epoch = s.epoch)
    (hu : (u.panel k).SameStores ((s.panel k).commitRow bank row d)) (hrow : row < 1024) {bk q : Nat} (hq : q < 1024) :
    u.rowOf k bk q = if bk = bank ∧ q = row then cellsOf d else s.rowOf k bk q := by
  have hkey : 1024 * bk + q = 1024 * bank + row ↔ bk = bank ∧ q = row := by omega
  rw [State.rowOf, hu.1, commitRow_cells, mget_mset, hepoch]
  simp only [hkey]
  split <;> rfl

/-- A message of a bay that reaches CTL (06 R186, R427). -/
theorem toCtl_heard {b : Nat} (h : s.heard b) (m : BayMsg) : s.toCtl b m = s.emit (.bayMsg b m) := by
  obtain ⟨x, l, hhome, hopen, hwalk, hsink⟩ := h
  simp [State.toCtl, hhome, hopen, State.sendAlong, hwalk, hsink]

/-- A message's way depends on neither the clock nor the panels. -/
theorem heard_rowWritten {b : Nat} (h : s.heard b) (t k bank row : Nat) (d : BitVec 1024) : ((s.tick t).rowWritten k bank row d).heard b := by
  obtain ⟨x, l, hhome, hopen, hwalk, hsink⟩ := h
  refine ⟨x, l, hhome, hopen, hwalk, Eq.trans ?_ hsink⟩
  clear hwalk hsink
  induction l with
  | nil => rfl
  | cons e l ih =>
    rw [State.sinkOn, State.sinkOn, ih]
    rfl

/-- The row of a message commits: its access has ended, and the last one of a load is told to CTL (09 R265). -/
theorem rowWriteCommit_ends_message {b : BayIx} {p : PanelIx} {bank : Nat} {a : RowAcc} {d : BitVec 1024}
    (hrow : (s.panel (pkey b p)).rowCur = some (bank, a)) (hdata : a.data = some d) (t : Nat) {last : Bool} (hsrc : a.src = .message last) :
    ∃ u, exec (.rowWriteCommit t b p) s = .next u ∧ u.panels = ((s.tick t).rowWritten (pkey b p) bank a.row d).panels ∧
      if last then s.heard b → u.out = .bayMsg b (.panelDone p s.gen) :: s.out else u.out = s.out := by
  refine ⟨_, rowWriteCommit_message hrow hdata t hsrc, ?_⟩
  cases last
  · exact ⟨rfl, rfl⟩
  · refine ⟨toCtl_panels _ _ _, fun h => ?_⟩
    rw [if_pos rfl, toCtl_heard _ (heard_rowWritten s h t _ _ _ _)]
    rfl

/-! ### A read of a clean row (02 R59, R61; 04 R112) -/

/-- The witness columns of a clean row as a field. -/
theorem cellsOf_fld_witness (d : BitVec 1024) (a n : Nat) : fld (cellsOf d) (1024 + a) n = witnessOf d / 2 ^ a % 2 ^ n := by
  rw [fld, BitVec.extractLsb'_toNat, cellsOf_toNat, Nat.shiftRight_eq_div_pow, Nat.pow_add, ← Nat.div_div_eq_div_mul,
    Nat.add_mul_div_left _ _ (Nat.two_pow_pos 1024), Nat.div_eq_of_lt d.isLt, Nat.zero_add]

theorem cellsOf_extract_data (d : BitVec 1024) {lo n : Nat} (h : lo + n ≤ 1024) : (cellsOf d).extractLsb' lo n = d.extractLsb' lo n := by
  refine BitVec.eq_of_getLsbD_eq fun i hi => ?_
  rw [BitVec.getLsbD_extractLsb', BitVec.getLsbD_extractLsb', ← BitVec.testBit_toNat, cellsOf_data d (by omega)]

/-- No group of a clean row disagrees with the witness bits stored for it. -/
theorem groups_clean (d : BitVec 1024) : (List.range 16).foldr (fun g acc =>
    (if witnessOf d / 2 ^ (7 * g) % 128 = fld (cellsOf d) (1024 + 7 * g) 7 then 0 else 1) + 2 * acc) 0 = 0 := by
  simp only [cellsOf_fld_witness, Nat.reducePow, if_true, Nat.zero_add]
  rfl

/-- The three lines a read of a clean row gives. -/
theorem rowLines_clean (d : BitVec 1024) : rowLines (cellsOf d) 0 =
    [d.extractLsb' 0 512, d.extractLsb' 512 512, BitVec.ofNat 512 (witnessOf d)] := by
  rw [rowLines, cellsOf_extract_data d (by decide), cellsOf_extract_data d (by decide), cellsOf_fld_witness d 0, Nat.mul_zero, Nat.add_zero,
    Nat.pow_zero, Nat.div_one, Nat.mod_eq_of_lt (witnessOf_lt d)]

/-- A read of a clean row for a stroke hands on the row's lines and reports nothing. -/
theorem rowReadComplete_clean {b : BayIx} {p : PanelIx} {bank : Nat} {a : RowAcc} {r : Running} {d : BitVec 1024}
    (hrow : (s.panel (pkey b p)).rowCur = some (bank, a)) (hdata : a.data = none) (hsrc : a.src = .stroke)
    (hcur : (s.bay b).seq.cur = some r) (hclean : s.rowOf (pkey b p) bank a.row = cellsOf d) (t : Nat) :
    exec (.rowReadComplete t b p []) s = .next (((s.tick t).setPanel (pkey b p) { s.panel (pkey b p) with rowCur := none }).rowPartDone b p
      ([d.extractLsb' 0 512, d.extractLsb' 512 512, BitVec.ofNat 512 (witnessOf d)].zipIdx.map fun e =>
        { client := 4, line := stInLine r.word + e.2, data := e.1 })) := by
  have hclean' : (s.tick t).rowOf (pkey b p) bank a.row = cellsOf d := hclean
  have hextract : (cellsOf d).extractLsb' 0 1024 = d := (cellsOf_extract_data d (by decide)).trans BitVec.extractLsb'_eq_self
  simp only [exec_rowReadComplete, execRowReadComplete, State.panel_tick, State.bay_tick, State.bay_setPanel, hrow, hdata, hsrc, hcur, hclean',
    List.foldl_nil, hextract, groups_clean, rowLines_clean, if_true]

/-! ### Exact operations (02 R47, R49, R52) -/

theorem Panel.width_le (x : Panel) (bank : Nat) : x.width bank ≤ 8 := by
  have hlog : (if bank = 0 then x.wA else x.wB).toNat < 4 := BitVec.isLt _
  exact Nat.pow_le_pow_right (n := 2) (j := 3) (by decide) (by omega)

section
variable {s} {b p : Nat} {o : PanelOp} (hlegal : panelSegs o.w2 ≠ none) (hcurrent : o.w2.getLsbD 4 = false)
  (hexact : o.exactBands = BitVec.ofNat 4 (fld o.w2 7 4))
include hlegal hcurrent hexact

/-- An operation that sums currents in masked bands all of which it runs exactly. -/
theorem edgeOf_exact : (s.edgeOf b p o []).Exact (bitsOf o.exactBands 4) where
  current := hcurrent
  exact := fun _ hn => (List.mem_filter.1 hn).2
  ideal := rfl
  segs := by
    rw [State.edgeOf, panelSegs_current hcurrent hlegal, hexact]
    rfl

/-- Where nothing was accumulated before, an output is the dot product over the operation's bands. -/
theorem computed_exact (hfresh : o.w2.getLsbD 17 = false) {j : Nat} (hj : j < 1024 / (s.panel (pkey b p)).width o.bank) :
    mget 0 (s.computed b p o []).1 j = ((bitsOf o.exactBands 4).map fun n => ∑ i ∈ Finset.range 255,
      intOf (panelPlanes o.w2) (s.edgeOf b p o []).sgnIn (o.inp.getD (256 * n + i) 0) *
        cellWeight (s.edgeOf b p o []).w (s.edgeOf b p o []).sgnW ((s.edgeOf b p o []).rows (256 * n + i)) j).sum := by
  have hnum : (bitsOf o.exactBands 4).length ≤ 4 := (List.length_filter_le _ _).trans_eq List.length_range
  have hplanes : panelPlanes o.w2 ≤ 8 := BitVec.isLt _
  rw [State.computed, if_neg (Bool.eq_false_iff.1 hfresh), Edge.run_exact (edgeOf_exact hlegal hcurrent hexact) hnum (Panel.width_le _ _) hj
    (mget_clearAccs _ hj) _ hplanes]
  exact Edge.sum_partialSum (s.edgeOf b p o []) (bitsOf o.exactBands 4) j

end

/-! ### What completes (02 R53, R54, R67; 14 R394) -/

section
variable {s} {b : BayIx} {p : PanelIx} {o : PanelOp}

theorem computeOpComplete_eq (hop : (s.panel (pkey b p)).op = some o) (hc : o.compute = true) (hrun : o.started = true) (t : Nat)
    (devs : List Dev) (rf : List ResFault) :
    exec (.computeOpComplete t b p devs rf) s = .next ((s.tick t).completeCompute b p o devs rf) := by
  simp [exec_computeOpComplete, execComputeOpComplete, hop, hc, hrun]

/-- A stroke's skim ends: the panel's part with it. -/
theorem skimComplete_stroke (hop : (s.panel (pkey b p)).op = some o) (hc : o.compute = false) (hrun : o.started = true)
    (hskim : o.skimming = false) (t : Nat) (res : BitVec 8) : exec (.skimComplete t b p res) s =
      .next ((((s.tick t).skimEnds b p (o.w2.getLsbD 4) res).modPanel (pkey b p) fun x => { x with op := none }).panelPartDone b p) := by
  simp [exec_skimComplete, execSkimComplete, hop, hc, hrun, hskim]

/-- A catch-up skim ends: the operation it came before is next. -/
theorem skimComplete_catchUp (hop : (s.panel (pkey b p)).op = some o) (hskim : o.skimming = true) (t : Nat) (res : BitVec 8) :
    exec (.skimComplete t b p res) s = .next ((((s.tick t).skimEnds b p (o.w2.getLsbD 4) res).modPanel (pkey b p)
      fun x => { x with op := some { o with skimming := false } }).intrude 7) := by
  simp [exec_skimComplete, execSkimComplete, hop, hskim]

/-- The panel once a skim has ended and its operation is `op`. -/
theorem skimEnds_modPanel (s : State) {b p : Nat} {set : BitVec 2} (hset : (s.panel (pkey b p)).trimSet = some set) (time : Bool) (res : BitVec 8)
    (op : Option PanelOp) : ((s.skimEnds b p time res).modPanel (pkey b p) fun x => { x with op := op }).panel (pkey b p) =
      { s.skimmedPanel (pkey b p) set time res with op := op } := by
  rw [State.panel_modPanel, if_pos rfl, panel_congr (skimEnds_parts s b p time res hset).1, State.panel_setPanel, if_pos rfl]

/-- A skim that meets a ladder step that settles is an intrusion (14 R392). -/
theorem skimStarts_intr (s : State) (die : Nat) : if s.now < (mget ({} : Ladder) s.sense.ladders die).settled
    then (7, s.now) ∈ (s.skimStarts die).intr else (s.skimStarts die).intr = s.intr := by
  unfold State.skimStarts
  split
  · exact List.mem_append_right _ (List.mem_singleton_self _)
  · rfl

@[simp] theorem skimStarts_panels (s : State) (die : Nat) : (s.skimStarts die).panels = s.panels := by
  unfold State.skimStarts
  split <;> rfl

/-- The set a skim ended on. -/
theorem skimmedPanel_trims (s : State) (k : Nat) (set : BitVec 2) (time : Bool) (res : BitVec 8) :
    mget none (s.skimmedPanel k set time res).trims set.toNat = some ((s.trimOf k set.toNat).skimmed time res s.mtime) := by
  simp only [State.skimmedPanel, mget_mset_same]

theorem and_or_absorb {w : Nat} (x y : BitVec w) : x &&& (x ||| y) = x := by
  ext i hi
  cases h : x[i] <;> simp [h]

theorem satAdd_ge (x k lim : Nat) : min x lim ≤ satAdd x k lim := min_le_min_right _ (Nat.le_add_right x k)

end

/-! ### Registers (02 R58, R63, R70, R71) -/

/-- A panel-register write that touches one panel. -/
theorem next_modPanel (s : State) (t k : Nat) (f : Panel → Panel) : Next (.next ((s.tick t).modPanel k f)) fun u =>
    u.panel k = f (s.panel k) ∧ (∀ j, j ≠ k → u.panel j = s.panel j) ∧ u.bays = s.bays ∧ u.rtrs = s.rtrs ∧ u.snags = s.snags :=
  ⟨_, rfl, (State.panel_modPanel _ _ _ _).trans (if_pos rfl), fun _ hj => (State.panel_modPanel _ _ _ _).trans (if_neg hj), rfl, rfl, rfl⟩

/-- The bits of the saturation word that WIN_SEL names clear where the word written has a 1 (02 R71). -/
theorem clearWin_eq (x : Panel) (v : Word) (hsel : x.winSel.toNat < 0x24) : ∃ sats, x.clearWin v = { x with sats := sats } ∧
    ∀ i < 1136, sats.getLsbD i = (x.sats.getLsbD i && !(i / 32 == x.winSel.toNat && v.getLsbD (i % 32))) := by
  have hlo : (if x.winSel.toNat < 0x20 then 32 * x.winSel.toNat else 1024 + 32 * (x.winSel.toNat - 0x20)) = 32 * x.winSel.toNat := by
    split <;> omega
  refine ⟨x.sats &&& ~~~(BitVec.ofNat 1136 (v.toNat * 2 ^ (32 * x.winSel.toNat))), ?_, fun i hi => ?_⟩
  · rw [Panel.clearWin, hlo]
    exact if_pos hsel
  · have hbit : (v.toNat * 2 ^ (32 * x.winSel.toNat)).testBit i = (i / 32 == x.winSel.toNat && v.getLsbD (i % 32)) := by
      rw [Nat.testBit_mul_two_pow, BitVec.testBit_toNat]
      by_cases hword : i / 32 = x.winSel.toNat
      · simp [show 32 * x.winSel.toNat ≤ i by omega, show i - 32 * x.winSel.toNat = i % 32 by omega, hword]
      · by_cases hle : 32 * x.winSel.toNat ≤ i
        · simp [hword, BitVec.getLsbD_of_ge v (i - 32 * x.winSel.toNat) (by omega)]
        · simp [hword, hle]
    rw [BitVec.getLsbD_and, BitVec.getLsbD_not, BitVec.getLsbD_ofNat, hbit]
    simp [hi]

/-- What holds of the state a command leads to. -/
theorem next_of_eq {c : Host.Outcome State Fault Refusal} {u : State} {P : State → Prop} (h : c = .next u) (hu : P u) : Next c P := ⟨u, h, hu⟩

end Sys2Proof.Machine

namespace Sys2Proof

open Machine

/-- Settles O15: with the scratchpad part open the stroke goes on, so what ends a panel's part leaves the panel as that part does; the snags and
fault signals of a completion touch neither strokes nor scratchpads. -/
theorem panelOperationsStartAndComplete : Obligations.PanelOperationsStartAndComplete := by
  refine ⟨fun t b p o r s hop hwait hidle hcur => ?_, fun t b p o s hop => ⟨fun r devs hc hrun hskim hcur hsp => ?_,
    fun res set r hset hc hrun hskim hcur hsp => ?_, fun res set hset hskim => ?_⟩⟩
  · by_cases hw : (s.bay b).waking (panelAccesses (s.bay b).seq r.word) = true
    · rw [if_pos hw]
      exact panelOpStart_waking hop hcur t hw
    have hwake := Bool.eq_false_iff.2 hw
    rw [if_neg hw]
    refine ⟨fun set hband hc hseg hheld => ?_, fun set hband hc hseg hfree hdue => ?_, fun set hband hc hseg hfree hdue => ?_,
      fun set hband hc => ?_, fun hc hseg hsp => ?_, fun hband hlegal => panelOpStart_noBand hop hcur t hwait hidle hwake hlegal hband⟩
    · obtain ⟨a, hrow⟩ := hheld
      refine next_of_eq (panelOpStart_held hop hcur t hwait hidle hwake hband hc hseg hrow) ?_
      rw [State.panel_intrude, State.panel_setPanel, if_pos rfl]
      exact ⟨rfl, hop⟩
    · refine next_of_eq ((panelOpStart_free hop hcur t hwait hidle hwake hband hc hseg hfree).trans (congrArg _ (if_pos hdue))) ?_
      rw [State.panel_setPanel, if_pos rfl]
      exact ⟨rfl, rfl⟩
    · refine next_of_eq ((panelOpStart_free hop hcur t hwait hidle hwake hband hc hseg hfree).trans (congrArg _ (if_neg hdue))) ?_
      obtain ⟨inp, hpanel⟩ := startCompute_panel (s.tick t) b p o r set ((s.panel (pkey b p)).resolve (bankSel (fld o.w2 2 2)))
      rw [hpanel, if_pos rfl]
      refine ⟨rfl, ⟨_, rfl, rfl, rfl, rfl, rfl, rfl⟩, ?_, rfl, rfl, fun j hj => (hpanel j).trans (if_neg hj)⟩
      dsimp only [Panel.startedOn, PanelOp.lost]
      cases o.w2.getLsbD 14 <;> simp
    · refine next_of_eq (panelOpStart_skim hop hcur t hwait hidle hwake hband hc) ?_
      rw [panel_congr (skimStarts_panels _ _), State.panel_setPanel, if_pos rfl]
      exact ⟨rfl, rfl, skimStarts_intr ((s.tick t).setPanel _ _) (dieOf b)⟩
    · obtain ⟨hnone, herr, hpart⟩ := illegalPanelOp_open (s.tick t) (b := b) hcur hsp p o
      exact ⟨_, panelOpStart_illegal hop hcur t hwait hidle hwake hc hseg, hnone, herr, hpart⟩
  · obtain ⟨u, hu, he⟩ := completeCompute_open (s.tick t) (b := b) hcur hsp p o devs
    refine next_of_eq ((computeOpComplete_eq hop hc hrun t devs []).trans (congrArg _ he)) ?_
    obtain ⟨sat, mis, cap, hy⟩ := hu.panel
    have hcur' : (u.bay b).seq.cur = some r := (congrArg Seq.cur (hu.strokes b).1).trans hcur
    rw [cur_modCur u hcur', State.panel_modBay, hy, State.bay_modBay, if_pos rfl]
    refine ⟨rfl, rfl, rfl, rfl, rfl, rfl, ?_, satAdd_ge _ _ _, satAdd_ge _ _ _, satAdd_ge _ _ _, (hu.strokes b).2, hu.others⟩
    exact and_or_absorb _ _
  · refine next_of_eq (skimComplete_stroke hop hc hrun hskim t res) ?_
    have hcur' : ((((s.tick t).skimEnds b p (o.w2.getLsbD 4) res).modPanel (pkey b p) fun x => { x with op := none }).bay b).seq.cur = some r := by
      rw [State.bay_modPanel, bay_congr (skimEnds_parts (s.tick t) b p _ res hset).2]
      exact hcur
    rw [panelPartDone_open _ hcur' hsp, cur_modCur _ hcur', State.panel_modBay, skimEnds_modPanel (s.tick t) hset]
    exact ⟨rfl, rfl, rfl, rfl, _, skimmedPanel_trims _ _ _ _ _, rfl, rfl, Trim.skimmed_at _ _ _ _⟩
  · refine next_of_eq (skimComplete_catchUp hop hskim t res) ?_
    rw [State.panel_intrude, skimEnds_modPanel (s.tick t) hset]
    exact ⟨rfl, rfl, rfl, _, skimmedPanel_trims _ _ _ _ _, rfl⟩

/-- Settles O20: each write touches its own panel; the named word's bits are those from 32 times WIN_SEL on. -/
theorem panelRegistersClearAndSwitch : Obligations.PanelRegistersClearAndSwitch := by
  intro t b p v live s
  refine ⟨next_modPanel s t _ _, next_modPanel s t _ _, fun hsel => ?_, fun hat => ?_, fun hat => ?_⟩
  · obtain ⟨sats, hclear, hbits⟩ := clearWin_eq (s.panel (pkey b p)) v hsel
    refine ⟨sats, ?_, hbits⟩
    rw [← hclear]
    exact next_modPanel s t _ (·.clearWin v)
  · have := next_modPanel s t (pkey b p) fun x => { x with live := live }
    simpa [exec_pnlLiveWrite, execPnlLiveWrite, hat] using this
  · have := next_modPanel s t (pkey b p) fun x => { x with stg := { x.stg with live := some live } }
    simpa [exec_pnlLiveWrite, execPnlLiveWrite, hat] using this

/-- Settles O16: an exact band drives 255 rows at most, a count that a converter holds. -/
theorem exactBandsCountEveryProduct : Obligations.ExactBandsCountEveryProduct := by
  intro rows o witEn tol cnt k n col c hcur hband hcol
  refine ⟨?_, ?_, convertSeg_exact_effects rows hcur hband witEn tol cnt k c⟩
  · rw [convertSeg_exact rows hcur hband, exactPassed_getD _ _ hcol, List.countP_eq_length_filter]
  · rw [convertSeg_exact rows hcur hband]

/-- Settles O18: the counts of a group's columns and of its witness columns agree because those of each clean row do. -/
theorem exactWitnessAgreesWithCleanRows : Obligations.ExactWitnessAgreesWithCleanRows := by
  intro data o witEn tol cnt k n c hcur hband
  dsimp only
  rw [convertSeg_exact _ hcur hband]
  dsimp only
  split
  · have hfold : (List.range 16).foldl (fun c g => witnessGroup (exactCodes (fun q => (cellsOf (data q)).toNat)
        (drivenRows o.inp (256 * n) 256 k true)) true tol (exactCap k n) g c cnt) c = c :=
      List.foldlRecOn _ _ (motive := fun d => d = c) rfl fun d hd g hg => by
        rw [witnessGroup_clean data _ tol _ (List.mem_range.1 hg), hd]
    exact ⟨congrArg Conv.miss hfold, congrArg Conv.cap hfold⟩
  · exact ⟨rfl, rfl⟩

/-- Settles O17: plane by plane the operation adds the plane's weight times the sum of the weights of the rows driven, which 40 bits hold,
and a row's input is the sum of the weights of its planes. -/
theorem exactOperationComputesTheDotProduct : Obligations.ExactOperationComputesTheDotProduct := by
  intro t n g b p o r s hop hcomp hstart hskim hcur hsp hlegal hcurrent hfresh hexact hfmt _
  obtain ⟨u, hu, he⟩ := completeCompute_open (s.tick t) (b := b) hcur hsp p o []
  refine ⟨u.modBay b fun y => y.modCur fun r => { r with panels := r.panels.erase p }, ?_, fun j hj => ?_⟩
  · rw [← he]
    exact computeOpComplete_eq hop hcomp hstart t [] []
  · obtain ⟨sat, mis, cap, hy⟩ := hu.panel
    rw [State.panel_modBay, hy]
    refine (computed_exact (s := s) hlegal hcurrent hexact hfresh hj).trans ?_
    have hsgn : (s.edgeOf b p o []).sgnIn = g := by simp [State.edgeOf, hfmt]
    have hwidth : 0 < (s.panel (pkey b p)).width o.bank := Nat.two_pow_pos _
    rw [bitsOf, sum_map_filter]
    refine congrArg List.sum (List.map_congr_left fun band _ => ?_)
    rw [sum_map_range, hsgn]
    refine ite_congr rfl (fun _ => Finset.sum_congr rfl fun i _ => ?_) fun _ => rfl
    exact congrArg _ (cellWeight_eq hwidth _ _ j)

/-- Settles O19: a row commit's effects on cells and guard bits outlast whatever end of a stroke it brings; a clean row's witness bits are those
its data gives. -/
theorem rowPortStartsWritesAndReads : Obligations.RowPortStartsWritesAndReads := by
  intro t b p s
  refine ⟨fun a q hidle hq hwake => ?_, fun bank a d hrow hbank hlt hdata => ?_, fun bank a d hrow hdata hsrc => ?_,
    fun bank a r d hrow hdata hsrc hcur hsp hclean => ?_⟩
  · refine next_of_eq (rowAccessStart_front hidle hq hwake t) ?_
    split <;> rw [State.panel_setPanel, if_pos rfl]
  · obtain ⟨u, hu, hepoch, hstores⟩ := rowWriteCommit_stores hrow hdata t
    refine ⟨u, hu, ?_, fun bk row _ hrow' hne => ?_, fun bk n hbk hn => ?_⟩
    · rw [rowOf_commitRow s hepoch hstores hlt hlt, if_pos ⟨rfl, rfl⟩]
    · rw [rowOf_commitRow s hepoch hstores hlt hrow', if_neg (by simpa using hne)]
    · rw [← commitRow_guard _ hbank hlt d hbk hn]
      exact congrArg (BitVec.getLsbD · n) (hstores.guard bk)
  · rcases hsrc with ⟨last, hsrc⟩ | ⟨hsrc, r, hcur, hsp⟩
    · obtain ⟨u, hu, hpanels, hout⟩ := rowWriteCommit_ends_message s hrow hdata t hsrc
      refine ⟨u, hu, ?_, fun j hj => ?_, ?_⟩
      · rw [panel_congr hpanels, State.rowWritten, State.panel_setPanel, if_pos rfl]
      · rw [panel_congr hpanels, State.rowWritten, State.panel_setPanel, if_neg hj, State.panel_tick]
      · rw [hsrc]
        cases last <;> simpa using hout
    · have hopen := rowPartDone_open ((s.tick t).rowWritten (pkey b p) bank a.row d) (b := b) hcur hsp p []
      refine next_of_eq (rowWriteCommit_stroke hrow hdata t hsrc) ⟨?_, fun j hj => ?_, ?_⟩
      · rw [hopen, State.panel_modBay, State.rowWritten, State.panel_setPanel, if_pos rfl]
      · rw [hopen, State.panel_modBay, State.rowWritten, State.panel_setPanel, if_neg hj, State.panel_tick]
      · rw [hopen, hsrc]
        rfl
  · refine next_of_eq (rowReadComplete_clean s hrow hdata hsrc hcur hclean t) ?_
    have hcur' : (((s.tick t).setPanel (pkey b p) { s.panel (pkey b p) with rowCur := none }).bay b).seq.cur = some r := hcur
    rw [rowPartDone_open _ hcur' hsp]
    refine ⟨?_, rfl, _, cur_modCur _ hcur' _, rfl, ?_⟩
    · rw [State.panel_modBay, State.panel_setPanel, if_pos rfl]
    · simp

end Sys2Proof
end

section
/-! SUPPORT. Lines as numbers, integers as values, and rounding to nearest: what a tensor read from its lines holds, what writes of whole lines
store, and which integers an exact value narrows to (03 R72, R74, R92, R93; 04 R109). -/

namespace Sys2Proof.Machine

/-! ### Numbers in lines (03 R74, R92) -/

theorem extract_ofNat {w n : Nat} (a x : Nat) (h : a + n ≤ w) : (BitVec.ofNat w x).extractLsb' a n = BitVec.ofNat n (x / 2 ^ a) := by
  refine BitVec.eq_of_getLsbD_eq fun i hi => ?_
  have hw : a + i < w := by omega
  rw [BitVec.getLsbD_extractLsb', BitVec.getLsbD_ofNat, BitVec.getLsbD_ofNat, Nat.testBit_div_two_pow]
  simp [hi, hw, Nat.add_comm]

/-- A container of gathered lines lies in one line where `p` containers fill a line. -/
theorem slotOf_gather (rd : Nat → BitVec 512) (l : Nat) {c p n i : Nat} (hc : c * p = 512) (hi : i < p * n) :
    slotOf (gather rd l n) c i = fld (rd (l + i / p)) (c * (i % p)) c := by
  have hline := packed_digit (c := 512) (f := fun i => (rd (l + i)).toNat) n (fun _ _ => BitVec.isLt _) (i / p) (Nat.div_lt_of_lt_mul hi)
  have hbits : c * i = 512 * (i / p) + c * (i % p) := by
    rw [← hc, Nat.mul_assoc, ← Nat.mul_add, Nat.div_add_mod]
  have hp : 0 < p := Nat.pos_of_ne_zero fun h => by simp [h] at hc
  have hfit : c * (i % p) + c ≤ 512 := by
    rw [← hc, ← Nat.mul_succ]
    exact Nat.mul_le_mul_left c (Nat.mod_lt i hp)
  have hcut (x : Nat) : x % 2 ^ 512 / 2 ^ (c * (i % p)) % 2 ^ c = x / 2 ^ (c * (i % p)) % 2 ^ c := by
    simpa [BitVec.extractLsb'_toNat, Nat.shiftRight_eq_div_pow] using congrArg BitVec.toNat (extract_ofNat (w := 512) (c * (i % p)) x hfit)
  rw [slotOf, hbits, Nat.pow_add, ← Nat.div_div_eq_div_mul, ← hcut]
  simp only [gather, hline, fld, BitVec.extractLsb'_toNat, Nat.shiftRight_eq_div_pow]

theorem readTensor_eq (rd : Nat → BitVec 512) {f : Fmt} {p : Nat} (hf : f.isBx = false) (hp : f.bits * p = 512) (l v : Nat) :
    readTensor rd f l v = (List.range v).map fun i => f.readElem (fld (rd (l + i / p)) (f.bits * (i % p)) f.bits) := by
  have hread : readTensor rd f l v = (List.range v).map fun i => f.readElem (slotOf (gather rd l (f.elemLines v)) f.bits i) := by
    cases f with
    | bx w => exact absurd hf (by simp [Fmt.isBx])
    | _ => rfl
  rw [hread]
  refine List.map_congr_left fun i hi => ?_
  have hi := List.mem_range.1 hi
  have hlines : f.bits * v ≤ f.bits * (p * f.elemLines v) := by
    rw [← Nat.mul_assoc, hp, Fmt.elemLines, Nat.mul_comm f.bits]
    omega
  have hbits : 0 < f.bits := Nat.pos_of_ne_zero fun h => by simp [h] at hp
  rw [slotOf_gather rd l hp (lt_of_lt_of_le hi (Nat.le_of_mul_le_mul_left hlines hbits))]

theorem twos_eq_toInt {n : Nat} (v : BitVec n) : twos n v.toNat = v.toInt := by
  cases n with
  | zero => simp [twos, BitVec.of_length_zero]
  | succ n =>
    have hcond : 2 * v.toNat < 2 ^ (n + 1) ↔ v.toNat < 2 ^ n := by rw [Nat.pow_succ]; omega
    rw [twos, Nat.mod_eq_of_lt v.isLt, BitVec.toInt_eq_toNat_cond, Nat.add_sub_cancel]
    simp only [hcond]
    push_cast
    rfl

theorem readTensor_i32 (r : Running) (free l v : Nat) :
    readTensor (r.rd free) .i32 l v = (List.range v).map fun i => Num.ofInt (r.elem32 free l i).toInt := by
  rw [readTensor_eq (p := 16) _ rfl rfl]
  exact List.map_congr_left fun i _ => congrArg Num.ofInt (twos_eq_toInt (r.elem32 free l i))

theorem readTensor_f32 (r : Running) (free l v : Nat) :
    readTensor (r.rd free) .f32 l v = (List.range v).map fun i => fmt32.decode (r.elem32 free l i).toNat :=
  readTensor_eq (p := 16) _ rfl rfl l v

/-- 8-bit element `i` of a tensor at line `l`. -/
def Running.byteAt (r : Running) (free l i : Nat) : Nat := fld (r.rd free (l + i / 64)) (8 * (i % 64)) 8

theorem readTensor_int8 (r : Running) (free l v : Nat) (g : Bool) :
    readTensor (r.rd free) (.int 8 g) l v = (List.range v).map fun i => Num.ofInt (intOf 8 g (r.byteAt free l i)) := by
  rw [readTensor_eq (p := 64) _ rfl rfl]
  rfl

/-- Scale entry `i` of a table at line `l`, as its bits (03 R92). -/
def Running.scaleBits (r : Running) (free l i : Nat) : BitVec 64 := (r.rd free (l + i / 8)).extractLsb' (64 * (i % 8)) 64

theorem readScales_eq (r : Running) (free l n : Nat) :
    readScales (r.rd free) l n = (List.range n).map fun i => Scale.ofBits (r.scaleBits free l i) := by
  refine List.map_congr_left fun i hi => ?_
  have hi := List.mem_range.1 hi
  rw [slotOf_gather (p := 8) _ _ rfl (by omega)]
  exact congrArg Scale.ofBits (BitVec.ofNat_toNat ..|>.trans (BitVec.setWidth_eq _))

/-- A packed container (03 R74). -/
theorem packElems_digit {c : Nat} (fill : Nat) {xs : List Nat} {i v : Nat} (h : xs[i]? = some v) :
    packElems c fill xs / 2 ^ (c * i) % 2 ^ c = v % 2 ^ c := by
  induction xs generalizing i with
  | nil => simp at h
  | cons x xs ih =>
    rw [packElems, List.foldr_cons]
    cases i with
    | zero =>
      obtain rfl : x = v := by simpa using h
      simp [Nat.add_mul_mod_self_left]
    | succ i =>
      rw [Nat.mul_succ, Nat.add_comm (c * i), Nat.pow_add, ← Nat.div_div_eq_div_mul, Nat.add_mul_div_left _ _ (by positivity),
        Nat.div_eq_of_lt (Nat.mod_lt _ (by positivity)), Nat.zero_add]
      exact ih (by simpa using h)

theorem lineMask_full {n : Nat} (h : 64 ≤ n) : lineMask n = BitVec.allOnes 64 := by
  rw [lineMask, Nat.min_eq_right h]
  rfl

/-- Whole lines of 32-bit elements, as the writes store them (03 R74; 04 R109). -/
theorem stores32_writes {nw : Narrowed} {f : Fmt} (hbits : f.bits = 32) (hbx : f.isBx = false) {n : Nat} (hn : 16 ∣ n) {e : Nat → Nat}
    (helems : nw.elems = (List.range n).map e) (client l fill : Nat) :
    stores32 (nw.writes client f l fill) client l n fun i => BitVec.ofNat 32 (e i) := by
  obtain ⟨k, rfl⟩ := hn
  have hw : nw.writes client f l fill = splitWrites client l (64 * k) (packElems 32 fill nw.elems) := by
    rw [Narrowed.writes, hbits, hbx, helems, List.length_map, List.length_range, show (16 * k * 32 + 7) / 8 = 64 * k by omega]
    exact List.append_nil _
  rw [hw, splitWrites, show (64 * k + 63) / 64 = k by omega]
  refine ⟨by simp, fun i hi => ⟨_, List.getElem?_eq_some_iff.2 ⟨by simp; omega, List.getElem_map _⟩, rfl, by simp, ?_, ?_⟩⟩
  · exact lineMask_full (by simp; omega)
  · simp only [List.getElem_range]
    rw [extract_ofNat _ _ (by omega), Nat.div_div_eq_div_mul, ← Nat.pow_add, show 512 * (i / 16) + 32 * (i % 16) = 32 * i by omega]
    refine BitVec.eq_of_toNat_eq ?_
    rw [BitVec.toNat_ofNat, BitVec.toNat_ofNat, packElems_digit]
    simp [helems, hi]

/-! ### Integer values (03 R72, R92) -/

/-- The value is the integer `v`, and its exponent is 0; a zero may carry either sign. -/
def Num.IsInt (x : Num) (v : Int) : Prop := ∃ n m, x = .fin n m 0 ∧ signed n m = v

theorem signed_natAbs (x : Int) : signed (decide (x < 0)) x.natAbs = x := by
  by_cases h : x < 0
  · rw [signed, decide_eq_true h, if_pos rfl]
    omega
  · rw [signed, decide_eq_false h, if_neg Bool.false_ne_true]
    omega

theorem signed_not (n : Bool) (m : Nat) : signed (!n) m = -signed n m := by cases n <;> simp [signed]

theorem signed_mul (a b : Bool) (m n : Nat) : signed (a != b) (m * n) = signed a m * signed b n := by
  cases a <;> cases b <;> simp [signed]

theorem Num.isInt_ofInt (x : Int) : (Num.ofInt x).IsInt x := ⟨_, _, rfl, signed_natAbs x⟩

theorem Num.isInt_zero : (Num.fin false 0 0).IsInt 0 := ⟨_, _, rfl, rfl⟩

section
variable {x y : Num} {v w : Int} (hx : x.IsInt v) (hy : y.IsInt w)
include hx

theorem Num.IsInt.neg : x.neg.IsInt (-v) := by
  obtain ⟨n, m, rfl, rfl⟩ := hx
  exact ⟨!n, m, rfl, signed_not n m⟩

/-- The zero of an integer operation is +0 (03 R77). -/
theorem Num.IsInt.plusZero : x.plusZero = .ofInt v := by
  obtain ⟨n, m, rfl, rfl⟩ := hx
  cases m with
  | zero => cases n <;> rfl
  | succ m =>
    have habs : (signed n (m + 1)).natAbs = m + 1 := by cases n <;> simp only [signed] <;> omega
    have hneg : decide (signed n (m + 1) < 0) = n := by cases n <;> simp [signed] <;> omega
    rw [Num.ofInt, habs, hneg, Num.plusZero]
    simp

/-- An integer is on the grid of integers whatever the rounding. -/
theorem Num.IsInt.toRange (lo hi : Int) (r : Rnd) : x.toRange lo hi r = saturate v lo hi := by
  obtain ⟨n, m, rfl, rfl⟩ := hx
  simp [Num.toRange, roundGrid]

include hy

theorem Num.IsInt.add : (x.add y).IsInt (v + w) := by
  obtain ⟨a, m, rfl, rfl⟩ := hx
  obtain ⟨b, n, rfl, rfl⟩ := hy
  simp only [Num.add, min_self, sub_self, Int.toNat_zero, pow_zero, mul_one]
  split
  · rename_i hzero
    exact ⟨_, _, rfl, by rw [hzero, signed, Nat.cast_zero, neg_zero, ite_self]⟩
  · exact ⟨_, _, rfl, signed_natAbs _⟩

theorem Num.IsInt.mul : (x.mul y).IsInt (v * w) := by
  obtain ⟨a, m, rfl, rfl⟩ := hx
  obtain ⟨b, n, rfl, rfl⟩ := hy
  exact ⟨_, _, rfl, signed_mul a b m n⟩

theorem Num.IsInt.lt : x.lt y = decide (v < w) := by
  obtain ⟨a, m, rfl, rfl⟩ := hx
  obtain ⟨b, n, rfl, rfl⟩ := hy
  simp [Num.lt]

theorem Num.IsInt.maxLane : (maxLane true x y).IsInt (max v w) := by
  simp only [Machine.maxLane, if_true, hx.lt hy, decide_eq_true_eq]
  split
  · rwa [max_eq_right (by omega)]
  · rwa [max_eq_left (by omega)]

theorem Num.IsInt.minLane : (minLane true x y).IsInt (min v w) := by
  simp only [Machine.minLane, if_true, hy.lt hx, decide_eq_true_eq]
  split
  · rwa [min_eq_right (by omega)]
  · rwa [min_eq_left (by omega)]

end

/-! ### Saturation (03 R72) -/

theorem saturate_fst {lo hi : Int} (h : lo ≤ hi) (x : Int) : (saturate x lo hi).1 = max lo (min hi x) := by
  unfold saturate
  split
  · dsimp only
    omega
  · split
    all_goals
      dsimp only
      omega

theorem saturate_snd_isSome {lo hi : Int} (x : Int) : (saturate x lo hi).2.isSome = true ↔ x < lo ∨ hi < x := by
  unfold saturate
  split
  · exact iff_of_true rfl (.inl ‹_›)
  · split
    · exact iff_of_true rfl (.inr ‹_›)
    · exact iff_of_false Bool.false_ne_true (by omega)

/-- Saturation to a 32-bit integer. -/
abbrev saturate32 (x : Int) : Int × Option Bool := saturate x (-(2 ^ 31)) (2 ^ 31 - 1)

theorem saturate32_ne_none (x : Int) : ¬(saturate32 x).2 = none ↔ x < -(2 ^ 31) ∨ 2 ^ 31 ≤ x := by
  rw [← ne_eq, Option.ne_none_iff_isSome, saturate_snd_isSome]
  omega

/-- A saturated 32-bit integer's container. -/
theorem ofNat_clamp (x : Int) : BitVec.ofNat 32 ((saturate32 x).1 % 2 ^ 32).toNat = clamp32 x := by
  rw [saturate_fst (by decide), clamp32]
  refine BitVec.eq_of_toNat_eq ?_
  rw [BitVec.toNat_ofNat, BitVec.toNat_ofInt]
  omega

theorem satsOf_eq_nil {l : List (Option Bool)} : satsOf l = [] ↔ ∀ a ∈ l, a = none := by
  simp only [satsOf, List.filterMap_eq_nil_iff, Option.map_eq_none_iff]
  refine ⟨fun h a ha => ?_, fun h e he => h _ (List.fst_mem_of_mem_zipIdx he)⟩
  obtain ⟨i, hi, rfl⟩ := List.getElem_of_mem ha
  exact h (_, i) (List.mem_zipIdx_iff_getElem?.2 (List.getElem?_eq_getElem hi))

/-! ### Rounding to nearest (03 R92, R93) -/

/-- The nearest multiple of 2^d, an even one of two as near. -/
theorem roundShift_nearest (t : Int) (d : Nat) :
    2 * (t - roundShift t d .rne * 2 ^ d).natAbs ≤ ((2 : Int) ^ d).natAbs ∧
      (2 * (t - roundShift t d .rne * 2 ^ d).natAbs = ((2 : Int) ^ d).natAbs → roundShift t d .rne % 2 = 0) := by
  have hpos : (0 : Int) < 2 ^ d := by positivity
  have hdiv := Int.mul_ediv_add_emod t (2 ^ d)
  have hlo := Int.emod_nonneg t hpos.ne'
  have hhi := Int.emod_lt_of_pos t hpos
  have hone : d = 0 → (2 : Int) ^ d = 1 := fun h => by rw [h, pow_zero]
  unfold roundShift
  dsimp only
  generalize (2 : Int) ^ d = p at *
  generalize t / p = q at *
  rw [mul_comm] at hdiv
  split
  · rw [add_mul, one_mul]
    omega
  · omega

/-- The requantiser rounds its exact value once and saturates it (03 R92). -/
theorem Scale.toRange_apply (c : Scale) (x lo hi : Int) :
    (c.apply x).toRange lo hi .rne = saturate (roundShift ((x + c.bias) * c.mult) c.shift .rne) lo hi := by
  unfold Scale.apply Num.scaled Num.toRange roundGrid
  simp only [signed_natAbs]
  split
  · have hs : c.shift = 0 := by omega
    simp [hs, roundShift]
  · simp

end Sys2Proof.Machine
end

section
/-! SUPPORT. The vector unit: the operands of a lane operation, what it hands on, and the functions of 04 R120 within their bounds (03 R77, R92,
R103; 04 R117, R118, R120). -/

namespace Sys2Proof.Machine

/-! ### Saturations seen by a bay (03 R103; 04 R135, R136) -/

theorem bay_requantSat (s : State) (b : Nat) (te : BitVec 64) (off : Nat) (l : List (Nat × Bool)) : ∃ cnt, (s.requantSat b te off l).bay b =
    { s.bay b with reqSat := (s.bay b).reqSat || !l.isEmpty, reqSatCnt := cnt } := by
  cases l with
  | nil => exact ⟨(s.bay b).reqSatCnt, by simp [State.requantSat]⟩
  | cons e l => exact ⟨satAdd (s.bay b).reqSatCnt (e :: l).length 0xFFFFFFFF, by simp [State.requantSat, bay_stickyBay]⟩

theorem bay_accOverflow (s : State) (b panel : Nat) (l : List (Nat × Bool)) : ∃ cnt, (s.accOverflow b panel l).bay b =
    { s.bay b with accOvf := (s.bay b).accOvf || !l.isEmpty, accOvfCnt := cnt } := by
  cases l with
  | nil => exact ⟨(s.bay b).accOvfCnt, by simp [State.accOverflow]⟩
  | cons e l => exact ⟨satAdd (s.bay b).accOvfCnt (l.length + 1) 0xFFFF, by simp [State.accOverflow, bay_stickyBay]⟩

/-! ### The unit's part of a stroke (04 R115, R117; 05 R137) -/

section
variable {s : State} {b : Nat} {r : Running} (hcur : (s.bay b).seq.cur = some r) (hsp : r.sp = true)
include hcur hsp

theorem unitPartDone_open (ws : List SpWrite) :
    s.unitPartDone b ws = s.modBay b fun y => y.modCur fun r => { r with unit := false, writes := r.writes ++ ws } :=
  strokeCheck_modCur s hcur hsp

theorem unitPartDone_unitDone (ws : List SpWrite) : (s.unitPartDone b ws).unitDone b r ws := by
  rw [unitPartDone_open hcur hsp]
  exact cur_modCur s hcur _

theorem bay_unitPartDone (ws : List SpWrite) : (s.unitPartDone b ws).bay b =
    (s.bay b).modCur fun r => { r with unit := false, writes := r.writes ++ ws } := by
  rw [unitPartDone_open hcur hsp, State.bay_modBay, if_pos rfl]

end

/-- The values `vals` are narrowed to the destination of the operation `o`, whose part of the stroke then ends. -/
def State.narrowTo (s : State) (b client : Nat) (r : Running) (o : BitVec 128) (vals : List Num) : State :=
  let te := (s.bay b).seq.tensor (fld o 110 10)
  let n := narrow ((s.bay b).seq.roundCtx r.word) te 0 vals
  (s.requantSat b te 0 n.sats).unitPartDone b (n.writes client (teFmt te) (fld o 77 13) 0)

section
variable {s : State} {b unit code : Nat} {r : Running} {o : BitVec 128} (h : s.unitOpen b unit code r o)
include h

theorem openUnit_of_unitOpen : s.openUnit b unit code = some (r, o) := by
  obtain ⟨hcur, hunit, _, hst, rfl, hcode, hwake⟩ := h
  simp [State.openUnit, hcur, hunit, hst, hcode, hwake]

end

section
variable {s : State} {b code : Nat} {r : Running} {o : BitVec 128} (h : s.unitOpen b 1 code r o)
include h

theorem laneOp_eq (pr : VecArgs → ResAt → Option (BitVec 3)) (f : VecArgs → List Num) : s.laneOp b code [] pr f =
    let args := vecArgs (s.bay b) r s.freeVal o
    s.narrowTo b 2 r o (if args.int then (f args).map Num.plusZero
      else (f args).map (lane (teFmt ((s.bay b).seq.tensor (fld o 110 10)) == .f32))) := by
  rw [State.laneOp, openUnit_of_unitOpen h]
  rfl

end

theorem zipIdx_map_range {α : Type} (n : Nat) (g : Nat → α) : ((List.range n).map g).zipIdx = (List.range n).map fun i => (g i, i) :=
  List.ext_getElem (by simp) fun i _ _ => by simp

/-- A saturation among `n` elements of a 32-bit integer tensor. -/
theorem isEmpty_satsOf_saturate32 (n : Nat) (f : Nat → Int) :
    (!(satsOf ((List.range n).map fun i => (saturate32 (f i)).2)).isEmpty) = true ↔ ∃ i < n, f i < -(2 ^ 31) ∨ 2 ^ 31 ≤ f i := by
  rw [Bool.not_eq_true', List.isEmpty_eq_false_iff, Ne, satsOf_eq_nil]
  simp only [List.forall_mem_map, List.mem_range, not_forall, saturate32_ne_none, exists_prop]

/-- Integers, or values that round to integers, narrowed to a 32-bit integer tensor. -/
theorem narrow_i32 {c : RoundCtx} {te : BitVec 64} (hte : teFmt te = .i32) {n : Nat} {g : Nat → Num} {f : Nat → Int}
    (hg : ∀ i k, (g i).toRange (-(2 ^ 31)) (2 ^ 31 - 1) (c.mode (teDesc te) k) = saturate32 (f i)) :
    narrow c te 0 ((List.range n).map g) =
      { elems := (List.range n).map fun i => ((saturate32 (f i)).1 % 2 ^ 32).toNat
        sats := satsOf ((List.range n).map fun i => (saturate32 (f i)).2) } := by
  have hys : ((List.range n).map g).zipIdx.map (fun e => e.1.toRange (-(2 ^ 31)) (2 ^ 31 - 1) (c.mode (teDesc te) (fld te 32 32 + 0 + e.2))) =
      (List.range n).map fun i => saturate32 (f i) := by
    rw [zipIdx_map_range, List.map_map]
    exact List.map_congr_left fun i _ => hg i _
  rw [teFmt, teDesc] at hte
  rw [teDesc] at hys
  unfold narrow
  simp only [hte, hys, List.map_map]
  rfl

theorem narrow_f32 {c : RoundCtx} {te : BitVec 64} (hte : teFmt te = .f32) (hsr : descSr (teDesc te) = false) (n : Nat) (g : Nat → Num) :
    narrow c te 0 ((List.range n).map g) = { elems := (List.range n).map fun i => fmt32.encode (g i) .rne } := by
  rw [teFmt, teDesc] at hte
  rw [teDesc] at hsr
  unfold narrow RoundCtx.mode
  simp only [hte, hsr, zipIdx_map_range, List.map_map]
  rfl

section
variable {s : State} {b client : Nat} {r : Running} {o : BitVec 128} (hcur : (s.bay b).seq.cur = some r) (hsp : r.sp = true) {n : Nat} (hn : 16 ∣ n)
  {g : Nat → Num} {te : BitVec 64} (hdst : (s.bay b).seq.tensor (fld o 110 10) = te)
include hcur hsp hn hdst

/-- A 32-bit integer destination takes the saturated integers in whole lines, and any saturation sets REQ_SAT (03 R72, R103). -/
theorem narrowTo_i32 (hte : teFmt te = .i32) {f : Nat → Int} (hg : ∀ i k,
    (g i).toRange (-(2 ^ 31)) (2 ^ 31 - 1) (((s.bay b).seq.roundCtx r.word).mode (teDesc te) k) = saturate32 (f i)) :
    let u := s.narrowTo b client r o ((List.range n).map g)
    (∃ ws, u.unitDone b r ws ∧ stores32 ws client (fld o 77 13) n fun i => clamp32 (f i)) ∧
      ((u.bay b).reqSat = true ↔ (s.bay b).reqSat = true ∨ ∃ i < n, f i < -(2 ^ 31) ∨ 2 ^ 31 ≤ f i) ∧ (u.bay b).mmC = (s.bay b).mmC := by
  let sats := satsOf ((List.range n).map fun i => (saturate32 (f i)).2)
  obtain ⟨cnt, hsat⟩ := bay_requantSat s b te 0 sats
  have hcur' : ((s.requantSat b te 0 sats).bay b).seq.cur = some r := by
    rw [hsat]
    exact hcur
  intro u
  have hu : u = s.narrowTo b client r o ((List.range n).map g) := rfl
  rw [State.narrowTo, hdst, narrow_i32 hte hg, hte] at hu
  refine ⟨⟨_, hu ▸ unitPartDone_unitDone hcur' hsp _, ?_⟩, ?_, ?_⟩
  · simp only [← ofNat_clamp]
    exact stores32_writes rfl rfl hn rfl _ _ _
  · rw [hu, bay_unitPartDone hcur' hsp, hsat, ← isEmpty_satsOf_saturate32]
    exact Bool.or_eq_true_iff
  · rw [hu, bay_unitPartDone hcur' hsp, hsat]
    rfl

/-- A binary32 destination takes the values, each rounded once, in whole lines (03 R77). -/
theorem narrowTo_f32 (hte : teFmt te = .f32) (hsr : descSr (teDesc te) = false) :
    ∃ ws, (s.narrowTo b client r o ((List.range n).map g)).unitDone b r ws ∧ stores32 ws client (fld o 77 13) n fun i => bits32 (g i) := by
  rw [State.narrowTo, hdst, narrow_f32 hte hsr, hte]
  exact ⟨_, unitPartDone_unitDone hcur hsp _, stores32_writes rfl rfl hn rfl _ _ _⟩

end

/-! ### Lane operations (04 R117, R118) -/

theorem dvd_opLen (o : BitVec 128) : 16 ∣ opLen o := ⟨4 * (fld o 8 6 + 1), by rw [opLen]; ring⟩

/-- The operands of an operation on 32-bit integers. -/
def intArgs (r : Running) (free : Nat) (o : BitVec 128) : VecArgs where
  int := true
  a := (List.range (opLen o)).map fun i => .ofInt (r.elem32 free (fld o 32 13) i).toInt
  b := (List.range (opLen o)).map fun i => .ofInt (r.elem32 free (fld o 45 13) i).toInt

/-- A binary32 element as a lane takes it (04 R117). -/
def Running.float32 (r : Running) (free l i : Nat) : Num := (fmt32.decode (r.elem32 free l i).toNat).to32 .rne

/-- The operands of an operation on binary32 values. -/
def floatArgs (r : Running) (free : Nat) (o : BitVec 128) : VecArgs where
  int := false
  a := (List.range (opLen o)).map fun i => r.float32 free (fld o 32 13) i
  b := (List.range (opLen o)).map fun i => r.float32 free (fld o 45 13) i

theorem zip2_intArgs (f : Num → Num → Num) (r : Running) (free : Nat) (o : BitVec 128) : zip2 f (intArgs r free o) =
    (List.range (opLen o)).map fun i => f (.ofInt (r.elem32 free (fld o 32 13) i).toInt) (.ofInt (r.elem32 free (fld o 45 13) i).toInt) := by
  rw [zip2, intArgs, List.zipWith_map, List.zipWith_self]

/-- The operation code of a lane operation that integers may take (04 R117). -/
def integerCode (c : Nat) : Prop := ¬(c = 4 ∨ (0xA ≤ c ∧ c ≤ 0xE) ∨ c = 0x12)

section
variable {o : BitVec 128} (hkind : opBKind o = 0) {y : Bay}
include hkind

theorem vecArgs_i32 (hcode : integerCode (opCode o)) (ha : teFmt (y.seq.tensor (fld o 90 10)) = .i32)
    (hb : teFmt (y.seq.tensor (fld o 100 10)) = .i32) (r : Running) (free : Nat) : vecArgs y r free o = intArgs r free o := by
  have hint : vecInt y o = true := by
    unfold integerCode at hcode
    simp only [vecInt, hcode, ha, hb, hkind, Fmt.isInt, decide_false, Bool.not_false, Bool.or_true, Bool.and_self]
  simp only [vecArgs, hint, hkind, ha, hb, readTensor_i32, List.map_map]
  rfl

theorem vecArgs_f32 (ha : teFmt (y.seq.tensor (fld o 90 10)) = .f32) (hb : teFmt (y.seq.tensor (fld o 100 10)) = .f32) (r : Running)
    (free : Nat) : vecArgs y r free o = floatArgs r free o := by
  have hint : vecInt y o = false := by simp [vecInt, ha, Fmt.isInt]
  simp only [vecArgs, hint, hkind, ha, hb, readTensor_f32, List.map_map]
  rfl

end

section
variable {s : State} {b code : Nat} {r : Running} {o : BitVec 128} (h : s.unitOpen b 1 code r o) (hkind : opBKind o = 0)
include h hkind

/-- A lane operation on 32-bit integers stores the saturated lanes. -/
theorem laneOp_i32 (hcode : integerCode code) (ha : teFmt ((s.bay b).seq.tensor (fld o 90 10)) = .i32)
    (hb : teFmt ((s.bay b).seq.tensor (fld o 100 10)) = .i32) (hd : teFmt ((s.bay b).seq.tensor (fld o 110 10)) = .i32)
    (pr : VecArgs → ResAt → Option (BitVec 3)) {F : VecArgs → List Num} {g : Nat → Num} {f : Nat → Int}
    (hF : F (intArgs r s.freeVal o) = (List.range (opLen o)).map g) (hg : ∀ i, (g i).IsInt (f i)) :
    let u := s.laneOp b code [] pr F
    (∃ ws, u.unitDone b r ws ∧ stores32 ws 2 (fld o 77 13) (opLen o) fun i => clamp32 (f i)) ∧
      ((u.bay b).reqSat = true ↔ (s.bay b).reqSat = true ∨ ∃ i < opLen o, f i < -(2 ^ 31) ∨ 2 ^ 31 ≤ f i) := by
  have hvals := laneOp_eq h pr F
  obtain ⟨hcur, _, hsp, _, _, rfl, _⟩ := h
  rw [vecArgs_i32 hkind hcode ha hb] at hvals
  dsimp only at hvals
  rw [hF, intArgs, if_pos rfl, List.map_map] at hvals
  obtain ⟨hws, hsat, _⟩ := narrowTo_i32 (client := 2) hcur hsp (dvd_opLen o) rfl hd (g := fun i => (g i).plusZero) (f := f)
    fun i k => by rw [(hg i).plusZero, (Num.isInt_ofInt _).toRange]
  rw [hvals]
  exact ⟨hws, hsat⟩

/-- A lane operation on binary32 values stores the lanes, each rounded once. -/
theorem laneOp_f32 (ha : teFmt ((s.bay b).seq.tensor (fld o 90 10)) = .f32)
    (hb : teFmt ((s.bay b).seq.tensor (fld o 100 10)) = .f32) (hd : teFmt ((s.bay b).seq.tensor (fld o 110 10)) = .f32)
    (hsr : descSr (teDesc ((s.bay b).seq.tensor (fld o 110 10))) = false)
    (pr : VecArgs → ResAt → Option (BitVec 3)) {F : VecArgs → List Num} {g : Nat → Num}
    (hF : F (floatArgs r s.freeVal o) = (List.range (opLen o)).map g) :
    ∃ ws, (s.laneOp b code [] pr F).unitDone b r ws ∧ stores32 ws 2 (fld o 77 13) (opLen o) fun i => bits32 (g i) := by
  have hvals := laneOp_eq h pr F
  obtain ⟨hcur, _, hsp, _⟩ := h
  rw [vecArgs_f32 hkind ha hb] at hvals
  dsimp only at hvals
  rw [hF, floatArgs, if_neg Bool.false_ne_true, hd, List.map_map] at hvals
  rw [hvals]
  exact narrowTo_f32 hcur hsp (dvd_opLen o) rfl hd hsr

end

/-- The scale entry's value for `x`, rounded to the nearest integer (03 R92). -/
def requantised (e : BitVec 64) (x : Int) : Int :=
  let c := Scale.ofBits e
  roundShift ((x + c.bias) * c.mult) c.shift .rne

theorem toRange_apply_ofBits (e : BitVec 64) (x lo hi : Int) : ((Scale.ofBits e).apply x).toRange lo hi .rne = saturate (requantised e x) lo hi :=
  Scale.toRange_apply _ x lo hi

/-- A tensor without SR is rounded to nearest. -/
theorem RoundCtx.mode_rne (c : RoundCtx) {d : BitVec 32} (h : descSr d = false) (k : Nat) : c.mode d k = .rne := by simp [RoundCtx.mode, h]

/-- Requantised integers in a 32-bit integer destination without SR. -/
theorem narrowTo_requantised {s : State} {b client : Nat} {r : Running} {o : BitVec 128} (hcur : (s.bay b).seq.cur = some r) (hsp : r.sp = true)
    {n : Nat} (hn : 16 ∣ n) (hte : teFmt ((s.bay b).seq.tensor (fld o 110 10)) = .i32)
    (hsr : descSr (teDesc ((s.bay b).seq.tensor (fld o 110 10))) = false) (e : Nat → BitVec 64) (x : Nat → Int) :
    let u := s.narrowTo b client r o ((List.range n).map fun i => (Scale.ofBits (e i)).apply (x i))
    (∃ ws, u.unitDone b r ws ∧ stores32 ws client (fld o 77 13) n fun i => clamp32 (requantised (e i) (x i))) ∧
      ((u.bay b).reqSat = true ↔ (s.bay b).reqSat = true ∨
        ∃ i < n, requantised (e i) (x i) < -(2 ^ 31) ∨ 2 ^ 31 ≤ requantised (e i) (x i)) ∧ (u.bay b).mmC = (s.bay b).mmC :=
  narrowTo_i32 hcur hsp hn rfl hte fun i k => by rw [RoundCtx.mode_rne _ hsr, toRange_apply_ofBits]

theorem requant_eq {s : State} {b : BayIx} {r : Running} {o : BitVec 128} (h : s.unitOpen b 1 7 r o)
    (ha : teFmt ((s.bay b).seq.tensor (fld o 90 10)) = .i32) (t : Nat) : exec (.requant t b []) s =
    .next ((s.tick t).narrowTo b 2 r o ((List.range (opLen o)).map fun i =>
      (Scale.ofBits (r.scaleBits s.freeVal (fld o 64 13) i)).apply (r.elem32 s.freeVal (fld o 32 13) i).toInt)) := by
  have hints : readInts (r.rd s.freeVal) .i32 (fld o 32 13) (opLen o) =
      (List.range (opLen o)).map fun i => (r.elem32 s.freeVal (fld o 32 13) i).toInt := by
    rw [readInts, readTensor_i32, List.map_map]
    exact List.map_congr_left fun i _ => signed_natAbs _
  have hopen : (s.tick t).openUnit b 1 7 = some (r, o) := openUnit_of_unitOpen h
  have hfree : (s.tick t).freeVal = s.freeVal := rfl
  rw [exec_requant, execRequant]
  simp only [hopen, State.bay_tick, ha, hfree, hints, readScales_eq, List.zipWith_map, List.zipWith_self]
  rfl

/-! ### The functions of 04 R120 -/

/-- Some value with a 24-bit significand lies within a unit in the last place of any exact value. -/
theorem nearby_ne_nil {u : Nat} (hu : 0 < u) (neg : Bool) (m : Nat) (e : Int) : (nearby u neg m e).2 ≠ [] := by
  suffices h : ∃ k, k ∈ (nearby u neg m e).2 from let ⟨_, hk⟩ := h; List.ne_nil_of_mem hk
  unfold nearby
  dsimp only
  generalize (if m = 0 then (-149 : Int) else fmt32.grid m e) = g
  generalize signed neg m * 2 ^ (e - min g e).toNat = x
  have hunit : (0 : Int) < 2 ^ (g - min g e).toNat := by positivity
  generalize (2 : Int) ^ (g - min g e).toNat = unit at hunit ⊢
  have hdiv := Int.mul_ediv_add_emod x unit
  have hlo := Int.emod_nonneg x hunit.ne'
  have hhi := Int.emod_lt_of_pos x hunit
  have hulp : unit ≤ u * unit := le_mul_of_one_le_left hunit.le (by exact_mod_cast hu)
  generalize x / unit = q at hdiv ⊢
  have hq : (q + 1) * unit = unit * q + unit := by ring
  have hq' : q * unit = unit * q := mul_comm _ _
  have hin (j : Nat) (hj : j < 2) :
      q + j ∈ (List.range (2 * u + 3)).map fun i : Nat => q + (i : Int) - (u + 1 : Int) :=
    List.mem_map.2 ⟨u + 1 + j, List.mem_range.2 (by omega), by push_cast; ring⟩
  by_cases heven : q % 2 = 0
  · exact ⟨q, List.mem_filter.2 ⟨by simpa using hin 0 (by omega), decide_eq_true ⟨by omega, by omega, .inr heven⟩⟩⟩
  · exact ⟨q + 1, List.mem_filter.2 ⟨by simpa using hin 1 (by omega), decide_eq_true ⟨by omega, by omega, .inr (by omega)⟩⟩⟩

/-- The exact function of a finite value is finite. -/
theorem Elem.exact_fin (f : Elem) (n : Bool) (m : Nat) (e : Int) : ∃ n' m' e', f.exact (.fin n m e) = .fin n' m' e' := by
  cases f <;> exact ⟨_, _, _, rfl⟩

/-- A function's result for a finite value, RSQRT of a zero apart, lies within its bound. -/
theorem nearTo_apply (f : Elem) {n : Bool} {m : Nat} {e : Int} (h : f = .rsqrt → m ≠ 0) :
    nearTo f.ulps (bits32 (f.apply (.fin n m e))) (f.exact (.fin n m e)) := by
  obtain ⟨n', m', e', hexact⟩ := f.exact_fin n m e
  have hulps : 0 < f.ulps := by cases f <;> decide
  have hlen := List.length_pos_of_ne_nil (nearby_ne_nil hulps n' m' e')
  have happly : f.apply (.fin n m e) =
      let c := nearby f.ulps n' m' e'
      let k := c.2.getD (Config.elemPick f.code (Num.fin n m e).key.1 (Num.fin n m e).key.2 % c.2.length) 0
      .fin (if k = 0 then n' else k < 0) k.natAbs c.1 := by
    unfold Elem.apply
    split
    · rename_i hzero
      exact absurd (Num.fin.inj hzero).2.1 (h rfl)
    · rw [hexact]
    · rename_i hfin _
      exact absurd rfl (hfin n m e)
  refine ⟨n', m', e', _, hexact, ?_, congrArg bits32 happly⟩
  rw [List.getD_eq_getElem _ _ (Nat.mod_lt _ hlen)]
  exact List.getElem_mem _

/-- No value is beyond both bounds of EXP. -/
theorem ltRat_of_gtRat {x : Num} (h : gtRat x 8872 100 = true) : ltRat x (-10397) 100 = false := by
  cases x with
  | nan => rfl
  | inf n => simpa [gtRat, ltRat] using h
  | fin n m e =>
    have hpos : (0 : Int) < 2 ^ (-e).toNat := by positivity
    simp only [gtRat, ltRat] at h ⊢
    split at h
    · rw [if_pos ‹_›]
      simp only [decide_eq_true_eq, decide_eq_false_iff_not] at h ⊢
      omega
    · rw [if_neg ‹_›]
      simp only [decide_eq_true_eq, decide_eq_false_iff_not] at h ⊢
      omega

theorem bits32_nan : bits32 .nan = 0x7FC00000 := by decide

theorem bits32_inf (n : Bool) : bits32 (.inf n) = if n then 0xFF800000 else 0x7F800000 := by cases n <;> decide

/-- EXP where the manual states its result, and within its bound elsewhere. -/
theorem bits32_expNum (x : Num) : (x = .nan → bits32 (expNum x) = 0x7FC00000) ∧ (gtRat x 8872 100 = true → bits32 (expNum x) = 0x7F800000) ∧
    (ltRat x (-10397) 100 = true → bits32 (expNum x) = 0) ∧ ∀ n m e, x = .fin n m e → gtRat x 8872 100 = false →
      ltRat x (-10397) 100 = false → nearTo 2 (bits32 (expNum x)) (Elem.exp.exact x) := by
  refine ⟨?_, fun h => ?_, fun h => ?_, ?_⟩
  · rintro rfl
    exact bits32_nan
  · have hnan : x ≠ .nan := by rintro rfl; simp [gtRat] at h
    rw [expNum, if_neg hnan, if_pos h, bits32_inf]
    rfl
  · have hnan : x ≠ .nan := by rintro rfl; simp [ltRat] at h
    have hgt : ¬gtRat x 8872 100 = true := fun hgt => by simp [ltRat_of_gtRat hgt] at h
    rw [expNum, if_neg hnan, if_neg hgt, if_pos h]
    decide
  · rintro n m e rfl hgt hlt
    rw [expNum, if_neg (by simp), if_neg (by simp [hgt]), if_neg (by simp [hlt])]
    exact nearTo_apply .exp (by simp)

theorem bits32_recipNum (x : Num) : (x = .nan → bits32 (recipNum x) = 0x7FC00000) ∧
    (∀ n e, x = .fin n 0 e → bits32 (recipNum x) = if n then 0xFF800000 else 0x7F800000) ∧
    ∀ n m e, x = .fin n (m + 1) e → nearTo 2 (bits32 (recipNum x)) (Elem.recip.exact x) := by
  refine ⟨?_, ?_, ?_⟩
  · rintro rfl
    exact bits32_nan
  · rintro n e rfl
    exact bits32_inf n
  · rintro n m e rfl
    exact nearTo_apply .recip (by simp)

theorem bits32_rsqrtNum (x : Num) : (x = .nan ∨ x = .inf true → bits32 (rsqrtNum x) = 0x7FC00000) ∧
    (∀ m e, x = .fin true (m + 1) e → bits32 (rsqrtNum x) = 0x7FC00000) ∧
    ∀ m e, x = .fin false (m + 1) e → nearTo 2 (bits32 (rsqrtNum x)) (Elem.rsqrt.exact x) := by
  refine ⟨?_, ?_, ?_⟩
  · rintro (rfl | rfl) <;> exact bits32_nan
  · rintro m e rfl
    exact bits32_nan
  · rintro m e rfl
    exact nearTo_apply .rsqrt (by simp)

theorem bits32_geluNum (x : Num) : (x = .nan → bits32 (geluNum x) = 0x7FC00000) ∧
    ∀ n m e, x = .fin n m e → nearTo 4 (bits32 (geluNum x)) (Elem.gelu.exact x) := by
  refine ⟨?_, ?_⟩
  · rintro rfl
    exact bits32_nan
  · rintro n m e rfl
    exact nearTo_apply .gelu (by simp)

theorem bits32_siluNum (x : Num) : (x = .nan → bits32 (siluNum x) = 0x7FC00000) ∧
    ∀ n m e, x = .fin n m e → nearTo 4 (bits32 (siluNum x)) (Elem.silu.exact x) := by
  refine ⟨?_, ?_⟩
  · rintro rfl
    exact bits32_nan
  · rintro n m e rfl
    exact nearTo_apply .silu (by simp)

end Sys2Proof.Machine

namespace Sys2Proof

open Machine

/-- Settles O27: every lane's value is an integer, which narrowing saturates; a requantised value is rounded to the nearest integer first. -/
theorem integerVectorOperationsAreExact : Obligations.IntegerVectorOperationsAreExact := by
  intro t b code r o s h hkind q ha hb hd x y out
  have hlane {c : Instr} {pr : VecArgs → ResAt → Option (BitVec 3)} {F : VecArgs → List Machine.Num} {g : Nat → Machine.Num}
      {f : Nat → Int} (hcode : integerCode code) (hc : exec c s = .next ((s.tick t).laneOp b code [] pr F))
      (hF : F (intArgs r s.freeVal o) = (List.range (opLen o)).map g) (hg : ∀ i, (g i).IsInt (f i)) : out c f :=
    ⟨_, hc, laneOp_i32 (s := s.tick t) h hkind hcode ha hb hd pr hF hg⟩
  have hx (i : Nat) : (Num.ofInt (x i)).IsInt (x i) := Num.isInt_ofInt _
  have hy (i : Nat) : (Num.ofInt (y i)).IsInt (y i) := Num.isInt_ofInt _
  refine ⟨?_, ?_, ?_, ?_, ?_, ?_, ?_, ?_⟩
  · rintro rfl
    exact hlane (by simp [integerCode]) (exec_add s t b []) (zip2_intArgs _ r _ o) fun i => (hx i).add (hy i)
  · rintro rfl
    refine hlane (by simp [integerCode]) (exec_sub s t b []) (zip2_intArgs _ r _ o) fun i => ?_
    rw [Int.sub_eq_add_neg]
    exact (hx i).add (hy i).neg
  · rintro rfl
    exact hlane (by simp [integerCode]) (exec_mul s t b []) (zip2_intArgs _ r _ o) fun i => (hx i).mul (hy i)
  · rintro rfl
    exact hlane (by simp [integerCode]) (exec_max s t b) (zip2_intArgs _ r _ o) fun i => (hx i).maxLane (hy i)
  · rintro rfl
    exact hlane (by simp [integerCode]) (exec_min s t b) (zip2_intArgs _ r _ o) fun i => (hx i).minLane (hy i)
  · rintro rfl
    exact hlane (by simp [integerCode]) (exec_cvt s t b) rfl hx
  · rintro rfl
    exact hlane (by simp [integerCode]) (exec_relu s t b) List.map_map fun i => (hx i).maxLane Num.isInt_zero
  · rintro rfl hsr
    have hreq := requant_eq h ha t
    obtain ⟨hcur, _, hsp, _⟩ := h
    obtain ⟨hws, hsat, _⟩ := narrowTo_requantised (s := s.tick t) (client := 2) hcur hsp (dvd_opLen o) hd hsr
      (fun i => r.scaleBits s.freeVal (fld o 64 13) i) x
    exact ⟨_, ⟨_, hreq, hws, hsat⟩, fun i _ => roundShift_nearest _ _⟩

/-- Settles O28: each lane's value is encoded once, and a function's result is one of the values within its bound, of which there is one always. -/
theorem floatVectorOperationsRoundOnce : Obligations.FloatVectorOperationsRoundOnce := by
  intro t b code r o s h hkind q ha hb hd hsr value x y z out
  have hlane {c : Instr} {pr : VecArgs → ResAt → Option (BitVec 3)} {F : VecArgs → List Machine.Num} {g : Nat → Machine.Num}
      {P : Nat → BitVec 32 → Prop} (hc : exec c s = .next ((s.tick t).laneOp b code [] pr F))
      (hF : F (floatArgs r s.freeVal o) = (List.range (opLen o)).map g) (hg : ∀ i, P i (bits32 (g i))) : out c P := by
    obtain ⟨ws, hdone, hws⟩ := laneOp_f32 (s := s.tick t) h hkind ha hb hd hsr pr hF
    exact ⟨_, hc, ws, _, hdone, hws, fun i _ => hg i⟩
  -- With `out` opaque its property is read off the goal.
  clear_value out
  refine ⟨?_, ?_, ?_, ?_, ?_, ?_⟩
  · rintro rfl
    refine hlane (g := fun i => ((x i).mul (y i)).add (z i)) (exec_fma s t b []) ?_ fun i => rfl
    have hopen : (s.tick t).openUnit b 1 4 = some (r, o) := openUnit_of_unitOpen h
    have hfree : (s.tick t).freeVal = s.freeVal := rfl
    have hd' : teFmt ((s.bay b).seq.tensor (fld o 110 10)) = .f32 := hd
    simp only [hopen, State.bay_tick, hfree, hd', readTensor_f32, List.map_map, zip2, floatArgs, List.zipWith_map, List.zipWith_self]
    rfl
  · rintro rfl
    exact hlane (exec_exp s t b) List.map_map fun i => bits32_expNum (x i)
  · rintro rfl
    exact hlane (exec_recip s t b) List.map_map fun i => bits32_recipNum (x i)
  · rintro rfl
    exact hlane (exec_rsqrt s t b) List.map_map fun i => bits32_rsqrtNum (x i)
  · rintro rfl
    exact hlane (exec_gelu s t b) List.map_map fun i => bits32_geluNum (x i)
  · rintro rfl
    exact hlane (exec_silu s t b) List.map_map fun i => bits32_siluNum (x i)

end Sys2Proof
end

section
/-! SUPPORT. The matrix unit: loading B, exact products in C, and the drain (03 R92; 04 R122, R123). -/

namespace Sys2Proof.Machine

/-! ### Rows, columns and sums of integers -/

theorem matRow_map_range {n : Nat} (a : Nat → Num) {i : Nat} (h : 64 * i + 64 ≤ n) :
    matRow ((List.range n).map a) i = (List.range 64).map fun k => a (64 * i + k) :=
  List.ext_getElem (by simp [matRow]; omega) fun k _ _ => by simp [matRow]

theorem matCol_map {l : List Nat} (f : Nat → Num) {j : Nat} (h : 64 * 63 + j < l.length) :
    matCol (l.map f) j = (List.range 64).map fun k => f (l.getD (64 * k + j) 0) := by
  refine List.map_congr_left fun k hk => ?_
  have hk := List.mem_range.1 hk
  have hin : 64 * k + j < l.length := by omega
  simp [hin]

/-- A sum of integers, taken in order, is exact. -/
theorem Num.IsInt.foldl_add {x : Num} {v : Int} (hx : x.IsInt v) {g : Nat → Num} {f : Nat → Int} (hg : ∀ k, (g k).IsInt (f k)) (l : List Nat) :
    ((l.map g).foldl Num.add x).IsInt (v + (l.map f).sum) := by
  induction l generalizing x v with
  | nil => simpa using hx
  | cons k l ih =>
    rw [List.map_cons, List.foldl_cons, List.map_cons, List.sum_cons, ← add_assoc]
    exact ih (hx.add (hg k))

/-- A table of integers by element, its zeros left out. -/
def sparseTable (n : Nat) (v : Nat → Int) : SMap Int := ((List.range n).map fun e => (e, v e)).filter fun e => e.2 ≠ 0

theorem mget_sparseTable {n : Nat} (v : Nat → Int) {e : Nat} (he : e < n) : mget 0 (sparseTable n v) e = v e := by
  have key (l : List Nat) : mget 0 ((l.map fun e => (e, v e)).filter fun e => e.2 ≠ 0) e = if e ∈ l then v e else 0 := by
    induction l with
    | nil => rfl
    | cons a l ih =>
      by_cases hzero : v a = 0
      · rw [List.map_cons, List.filter_cons_of_neg (by simpa using hzero), ih]
        by_cases hae : e = a
        · simp [hae, hzero]
        · simp [hae]
      · rw [List.map_cons, List.filter_cons_of_pos (by simpa using hzero), mget, ih]
        by_cases hae : a = e
        · simp [hae]
        · simp [hae, Ne.symm hae]
  exact (key _).trans (if_pos (List.mem_range.2 he))

/-- The integer that a sum of products holds. -/
def Num.whole (x : Num) : Int :=
  match x with
  | .fin n m e => signed n m * 2 ^ e.toNat
  | _ => 0

theorem Num.IsInt.whole {x : Num} {v : Int} (h : x.IsInt v) : x.whole = v := by
  obtain ⟨n, m, rfl, rfl⟩ := h
  exact mul_one _

/-- C takes the values `c`, saturated, which ends the unit's part of the stroke (04 R123). -/
def State.storeC (s : State) (b : Nat) (c : List (Nat × Int × Option Bool)) : State :=
  ((s.modBay b fun y => { y with mmC := (c.map fun e => (e.1, e.2.1)).filter fun e => e.2 ≠ 0 }).accOverflow b 32
    (c.filterMap fun e => e.2.2.map fun h => (e.1, h))).unitPartDone b []

/-- The elements of C as they saturate to 32 bits. -/
def saturated (v : Nat → Int) : List (Nat × Int × Option Bool) := (List.range 4096).map fun e => (e, saturate32 (v e))

theorem isEmpty_overflows (v : Nat → Int) : (!((saturated v).filterMap fun e => e.2.2.map fun h => (e.1, h)).isEmpty) = true ↔
    ∃ e < 4096, v e < -(2 ^ 31) ∨ 2 ^ 31 ≤ v e := by
  rw [Bool.not_eq_true', List.isEmpty_eq_false_iff, Ne, List.filterMap_eq_nil_iff, saturated]
  simp only [List.forall_mem_map, Option.map_eq_none_iff, List.mem_range, not_forall, saturate32_ne_none, exists_prop]

/-- No check has failed. -/
theorem mmResidue_nil (s : State) (b op : Nat) (predicted : ResAt → Option (BitVec 3)) : s.mmResidue b op predicted [] = s := rfl

theorem storeC_eq {s : State} {b : Nat} {r : Running} (hcur : (s.bay b).seq.cur = some r) (hsp : r.sp = true)
    (c : List (Nat × Int × Option Bool)) : (s.storeC b c).unitDone b r [] ∧ ∃ cnt, (s.storeC b c).bay b =
      { (s.bay b).modCur fun r => { r with unit := false, writes := r.writes ++ [] } with
        mmC := (c.map fun e => (e.1, e.2.1)).filter fun e => e.2 ≠ 0
        accOvf := (s.bay b).accOvf || !(c.filterMap fun e => e.2.2.map fun h => (e.1, h)).isEmpty
        accOvfCnt := cnt } := by
  let s' := s.modBay b fun y => { y with mmC := (c.map fun e => (e.1, e.2.1)).filter fun e => e.2 ≠ 0 }
  let ovf := c.filterMap fun e => e.2.2.map fun h => (e.1, h)
  obtain ⟨cnt, hovf⟩ := bay_accOverflow s' b 32 ovf
  have hs' : s'.bay b = { s.bay b with mmC := (c.map fun e => (e.1, e.2.1)).filter fun e => e.2 ≠ 0 } := by
    rw [State.bay_modBay, if_pos rfl]
  rw [hs'] at hovf
  have hcur' : ((s'.accOverflow b 32 ovf).bay b).seq.cur = some r := by
    rw [hovf]
    exact hcur
  refine ⟨unitPartDone_unitDone hcur' hsp [], cnt, (bay_unitPartDone hcur' hsp []).trans ?_⟩
  rw [hovf]
  rfl

theorem storeC_saturated {s : State} {b : Nat} {r : Running} (hcur : (s.bay b).seq.cur = some r) (hsp : r.sp = true) (v : Nat → Int) :
    let u := s.storeC b (saturated v)
    u.unitDone b r [] ∧ (u.bay b).mmB = (s.bay b).mmB ∧
      (∀ e < 4096, mget 0 (u.bay b).mmC e = max (-(2 ^ 31)) (min (2 ^ 31 - 1) (v e))) ∧
      ((u.bay b).accOvf = true ↔ (s.bay b).accOvf = true ∨ ∃ e < 4096, v e < -(2 ^ 31) ∨ 2 ^ 31 ≤ v e) := by
  obtain ⟨hdone, cnt, hbay⟩ := storeC_eq hcur hsp (saturated v)
  refine ⟨hdone, ?_, fun e he => ?_, ?_⟩
  · rw [hbay, Bay.modCur]
  · rw [hbay, ← saturate_fst (by decide), ← mget_sparseTable (fun e => (saturate32 (v e)).1) he, sparseTable,
      saturated, List.map_map]
    dsimp only [Function.comp_def]
  · rw [hbay, ← isEmpty_overflows]
    simp only [Bool.or_eq_true]

/-- B takes the values `B`, of 8-bit integers, which ends the unit's part of the stroke (04 R122). -/
def State.loadB (s : State) (b : Nat) (B : List Nat) (g : Bool) : State :=
  (s.modBay b fun y => { y with mmB := B, mmFloat := false, mmSigned := g }).unitPartDone b []

theorem loadB_eq {s : State} {b : Nat} {r : Running} (hcur : (s.bay b).seq.cur = some r) (hsp : r.sp = true) (B : List Nat) (g : Bool) :
    let u := s.loadB b B g
    u.unitDone b r [] ∧ (u.bay b).mmB = B ∧ (u.bay b).mmFloat = false ∧ (u.bay b).mmSigned = g ∧ (u.bay b).mmC = (s.bay b).mmC := by
  let s' := s.modBay b fun y => { y with mmB := B, mmFloat := false, mmSigned := g }
  have hs' : s'.bay b = { s.bay b with mmB := B, mmFloat := false, mmSigned := g } := by rw [State.bay_modBay, if_pos rfl]
  have hcur' : (s'.bay b).seq.cur = some r := by
    rw [hs']
    exact hcur
  have hbay : (s.loadB b B g).bay b = _ := bay_unitPartDone hcur' hsp []
  rw [hs'] at hbay
  exact ⟨unitPartDone_unitDone hcur' hsp [], by rw [hbay]; rfl, by rw [hbay]; rfl, by rw [hbay]; rfl, by rw [hbay]; rfl⟩

/-- Element `e` of C after a multiplication of 8-bit operands, before it saturates (04 R123). -/
def Bay.product (y : Bay) (r : Running) (free : Nat) (o : BitVec 128) (g : Bool) (e : Nat) : Int :=
  (if o.getLsbD 24 then mget 0 y.mmC e else 0) + ((List.range 64).map fun k =>
    intOf 8 g (r.byteAt free (fld o 32 13) (64 * (e / 64) + k)) * intOf 8 y.mmSigned (y.mmB.getD (64 * k + e % 64) 0)).sum

/-- The sum that the unit forms for element `e`. -/
def Bay.productSum (y : Bay) (r : Running) (free : Nat) (o : BitVec 128) (g : Bool) (e : Nat) : Num :=
  (List.zipWith Num.mul (matRow (readTensor (r.rd free) (.int 8 g) (fld o 32 13) 4096) (e / 64))
    (((List.range 64).map (matCol (y.mmB.map (Fmt.int 8 y.mmSigned).readElem))).getD (e % 64) [])).foldl Num.add
    (if o.getLsbD 24 then .ofInt (mget 0 y.mmC e) else .fin false 0 0)

/-- The sum is exact (03 R92; 04 R123). -/
theorem Bay.productSum_isInt {y : Bay} (hlen : y.mmB.length = 4096) (r : Running) (free : Nat) (o : BitVec 128) (g : Bool) {e : Nat}
    (he : e < 4096) : (y.productSum r free o g e).IsInt (y.product r free o g e) := by
  have hcol : ((List.range 64).map (matCol (y.mmB.map (Fmt.int 8 y.mmSigned).readElem))).getD (e % 64) [] =
      (List.range 64).map fun k => Num.ofInt (intOf 8 y.mmSigned (y.mmB.getD (64 * k + e % 64) 0)) := by
    rw [List.getD_eq_getElem _ _ (by simp; omega), List.getElem_map, List.getElem_range, matCol_map _ (by omega)]
    rfl
  have hstart : (if o.getLsbD 24 then Num.ofInt (mget 0 y.mmC e) else .fin false 0 0).IsInt (if o.getLsbD 24 then mget 0 y.mmC e else 0) := by
    split
    · exact Num.isInt_ofInt _
    · exact Num.isInt_zero
  rw [productSum, readTensor_int8, matRow_map_range _ (by omega), hcol, List.zipWith_map, List.zipWith_self]
  exact hstart.foldl_add (fun k => (Num.isInt_ofInt _).mul (Num.isInt_ofInt _)) _

section
variable {s : State} {b : BayIx} {r : Running} {o : BitVec 128}

theorem mmLoadb_eq (h : s.unitOpen b 2 0x40 r o) {g : Bool} (hf : teFmt ((s.bay b).seq.tensor (fld o 90 10)) = .int 8 g) (t : Nat) :
    exec (.mmLoadb t b) s = .next ((s.tick t).loadB b ((List.range 4096).map fun i =>
      r.byteAt s.freeVal (fld o 32 13) (if o.getLsbD 23 then 64 * (i % 64) + i / 64 else i)) g) := by
  have hraw : ((List.range 4096).map fun i => slotOf (gather (r.rd s.freeVal) (fld o 32 13) 64) 8
      (if o.getLsbD 23 then 64 * (i % 64) + i / 64 else i)) =
      (List.range 4096).map fun i => r.byteAt s.freeVal (fld o 32 13) (if o.getLsbD 23 then 64 * (i % 64) + i / 64 else i) := by
    refine List.map_congr_left fun i hi => slotOf_gather (p := 64) _ _ rfl ?_
    have hi := List.mem_range.1 hi
    split <;> omega
  have hopen : (s.tick t).openUnit b 2 0x40 = some (r, o) := openUnit_of_unitOpen h
  have hfree : (s.tick t).freeVal = s.freeVal := rfl
  have hlines : (Fmt.int 8 g).elemLines 4096 = 64 := by simp [Fmt.elemLines, Fmt.bits]
  have hbits : (Fmt.int 8 g).bits = 8 := rfl
  have hfloat : (Fmt.int 8 g == Fmt.f16) = false := rfl
  rw [exec_mmLoadb, execMmLoadb]
  simp only [hopen, State.bay_tick, hf, hfree, hlines, hbits, hraw, hfloat, State.loadB]

theorem mmMul_eq (h : s.unitOpen b 2 0x41 r o) {g : Bool} (hf : teFmt ((s.bay b).seq.tensor (fld o 90 10)) = .int 8 g)
    (hint : (s.bay b).mmFloat = false) (hlen : (s.bay b).mmB.length = 4096) (t : Nat) :
    exec (.mmMul t b []) s = .next ((s.tick t).storeC b (saturated ((s.bay b).product r s.freeVal o g))) := by
  have hopen : (s.tick t).openUnit b 2 0x41 = some (r, o) := openUnit_of_unitOpen h
  have hfree : (s.tick t).freeVal = s.freeVal := rfl
  have hc : saturated ((s.bay b).product r s.freeVal o g) = saturated fun e => ((s.bay b).productSum r s.freeVal o g e).whole :=
    List.map_congr_left fun e he => by
      dsimp only
      rw [(Bay.productSum_isInt hlen r _ o g (List.mem_range.1 he)).whole]
  rw [exec_mmMul, execMmMul, hc]
  simp only [hopen, State.bay_tick, hf, hint, hfree, Bool.false_eq_true, if_false, State.storeC, saturated, Bay.productSum,
    State.modBay, mmResidue_nil]
  rfl

theorem mmDrain_eq (h : s.unitOpen b 2 0x42 r o) (hint : (s.bay b).mmFloat = false) (t : Nat) :
    exec (.mmDrain t b []) s = .next ((s.tick t).narrowTo b 3 r o ((List.range 4096).map fun e =>
      (Scale.ofBits (r.scaleBits s.freeVal (fld o 64 13) (e % 64))).apply (mget 0 (s.bay b).mmC e))) := by
  have hopen : (s.tick t).openUnit b 2 0x42 = some (r, o) := openUnit_of_unitOpen h
  have hfree : (s.tick t).freeVal = s.freeVal := rfl
  have hscale (e : Nat) : (readScales (r.rd s.freeVal) (fld o 64 13) 64).getD (e % 64) ⟨0, 0, 0⟩ =
      Scale.ofBits (r.scaleBits s.freeVal (fld o 64 13) (e % 64)) := by
    have he : e % 64 < 64 := Nat.mod_lt _ (by decide)
    simp [readScales_eq, he]
  rw [exec_mmDrain, execMmDrain]
  simp only [hopen, State.bay_tick, hint, hfree, hscale, Bool.false_eq_true, if_false]
  rfl

end

end Sys2Proof.Machine

namespace Sys2Proof

open Machine

/-- Settles O30: sums of integer products are exact, so each entry saturates the exact sum. -/
theorem matrixUnitMultipliesExactly : Obligations.MatrixUnitMultipliesExactly := by
  intro t n g b code r o s h y byte int8
  obtain ⟨hcur, _, hsp, _⟩ := id h
  refine ⟨?_, ?_, ?_⟩
  · rintro rfl hf
    obtain ⟨hdone, hB, hfloat, hsgn, hC⟩ := loadB_eq (s := s.tick t) hcur hsp ((List.range 4096).map fun i =>
      r.byteAt s.freeVal (fld o 32 13) (if o.getLsbD 23 then 64 * (i % 64) + i / 64 else i)) g
    refine ⟨_, mmLoadb_eq h hf t, hdone, by rw [hB, List.length_map, List.length_range], hfloat, hsgn, hC, fun i hi j hj => ?_⟩
    have hin : 64 * i + j < 4096 := by omega
    have hrow : (64 * i + j) / 64 = i := by omega
    have hcol : (64 * i + j) % 64 = j := by omega
    rw [hB, List.getD_eq_getElem _ _ (by simpa using hin), List.getElem_map, List.getElem_range, hrow, hcol]
    rfl
  · rintro rfl hf hint hlen entry
    obtain ⟨hdone, hB, hC, hovf⟩ := storeC_saturated (s := s.tick t) hcur hsp (y.product r s.freeVal o g)
    have hentry (i j : Nat) (hi : i < 64) (hj : j < 64) : y.product r s.freeVal o g (64 * i + j) = entry i j := by
      have hrow : (64 * i + j) / 64 = i := by omega
      have hcol : (64 * i + j) % 64 = j := by omega
      rw [Bay.product, hrow, hcol]
      rfl
    refine ⟨_, mmMul_eq h hf hint hlen t, hdone, hB, fun i hi j hj => ?_, hovf.trans (or_congr_right ⟨?_, ?_⟩)⟩
    · rw [hC _ (by omega), hentry i j hi hj]
    · rintro ⟨e, he, hout⟩
      refine ⟨e / 64, by omega, e % 64, by omega, ?_⟩
      rwa [← hentry _ _ (by omega) (by omega), Nat.div_add_mod]
    · rintro ⟨i, hi, j, hj, hout⟩
      exact ⟨64 * i + j, by omega, by rwa [hentry i j hi hj]⟩
  · rintro rfl hd hint hsr
    obtain ⟨hws, _, hC⟩ := narrowTo_requantised (s := s.tick t) (client := 3) hcur hsp (n := 4096) (by decide) hd hsr
      (fun e => r.scaleBits s.freeVal (fld o 64 13) (e % 64)) (mget 0 y.mmC)
    refine ⟨_, mmDrain_eq h hint t, _, hws, hC, fun e _ => ?_⟩
    have hentry : r.scaleBits s.freeVal (fld o 64 13) (e % 64) =
        (r.rd s.freeVal (fld o 64 13 + e % 64 / 8)).extractLsb' (64 * (e % 8)) 64 := by
      rw [Running.scaleBits, Nat.mod_mod_of_dvd e (by decide)]
    simp only [← hentry]
    exact roundShift_nearest _ _

end Sys2Proof
end

section
/-! SUPPORT. The parts of a stroke and its end: its scratchpad accesses, its drain, and what lands and sets with the last part (03 R89; 04 R109,
R110, R115, R125, R134; 05 R137, R147, R169). -/

namespace Sys2Proof.Machine

variable (s : State)

/-! ### The scratchpad part of a stroke (04 R110, R115) -/

/-- Accesses that find nothing amiss: each line exists, its segment was ON at the stroke's start, and what is read holds no error. -/
def CleanAccess (r : Running) (a : Access) : Prop :=
  a.line < 6144 ∧ r.segs.getLsbD (segOf a.line) = true ∧ (a.write = true ∨ (r.raw a.line).flips = 0)

/-- The bay once its stroke's scratchpad accesses are made: the conflicts are counted (04 R110). -/
def Bay.accessed (y : Bay) (acc : List Access) : Bay :=
  { y.modCur fun r => { r with sp := false } with conflicts := satAdd y.conflicts (conflictsOf acc) 0xFFFFFFFF }

theorem Bay.seq_accessed (y : Bay) (acc : List Access) :
    (y.accessed acc).seq = { y.seq with cur := y.seq.cur.map fun r => { r with sp := false } } := by simp only [Bay.accessed, Bay.modCur]

theorem Bay.strokeCnt_accessed (y : Bay) (acc : List Access) : (y.accessed acc).strokeCnt = y.strokeCnt := by
  simp only [Bay.accessed, Bay.modCur]

theorem Bay.sp_accessed (y : Bay) (acc : List Access) : (y.accessed acc).sp = y.sp := by simp only [Bay.accessed, Bay.modCur]

theorem Bay.flag_accessed (y : Bay) (acc : List Access) (f : Nat) : (y.accessed acc).flag f = y.flag f := by
  simp only [Bay.flag, Bay.accessed, Bay.modCur]

theorem Bay.line_accessed (y : Bay) (acc : List Access) (l : Nat) : (y.accessed acc).line l = y.line l := by rw [Bay.line, Bay.sp_accessed, Bay.line]

theorem Bay.lineOn_accessed (y : Bay) (acc : List Access) (l : Nat) : (y.accessed acc).lineOn l = y.lineOn l := by
  simp only [Bay.lineOn, Bay.accessed, Bay.modCur]

/-- What SCRATCHPAD_ACCESSES_COMPLETE reports of one access. -/
def State.accessReport (b : Nat) (r : Running) (free : Nat) (s : State) (a : Access) : State :=
  if a.line ≥ 6144 then s
  else if !r.segs.getLsbD (segOf a.line) then s.segError b (64 * a.line) a.client
  else if a.write then s
  else s.reportEcc b ((r.raw a.line).errs free) fun wd => 64 * a.line + 8 * wd

theorem accessReport_clean {r : Running} {a : Access} (h : CleanAccess r a) (b free : Nat) : s.accessReport b r free a = s := by
  obtain ⟨hline, hseg, hread⟩ := h
  unfold State.accessReport
  rw [if_neg (by omega), hseg, if_neg (by simp)]
  rcases hread with hwrite | hflips
  · rw [if_pos hwrite]
  · split
    · rfl
    · simp [Line.errs, hflips, State.reportEcc]

section
variable {s} {b : BayIx} {r : Running} (hcur : (s.bay b).seq.cur = some r) (hsp : r.sp = true) (t : Nat)
include hcur

theorem scratchpadAccessesComplete_waking (hwake : (s.bay b).waking (servedOrder (s.bay b).seq r.word (s.xferLink b)) = true) :
    exec (.scratchpadAccessesComplete t b) s = .next (s.tick t) := by
  have hlink : (s.tick t).xferLink b = s.xferLink b := rfl
  rw [exec_scratchpadAccessesComplete, execScratchpadAccessesComplete]
  simp only [State.bay_tick, hcur, hlink, hwake, Bool.or_true, if_true]

include hsp

theorem scratchpadAccessesComplete_eq (hwake : (s.bay b).waking (servedOrder (s.bay b).seq r.word (s.xferLink b)) = false)
    (hclean : ∀ a ∈ servedOrder (s.bay b).seq r.word (s.xferLink b), CleanAccess r a) :
    exec (.scratchpadAccessesComplete t b) s =
      .next (((s.tick t).modBay b fun y => y.accessed (servedOrder (s.bay b).seq r.word (s.xferLink b))).strokeCheck b) := by
  have hlink : (s.tick t).xferLink b = s.xferLink b := rfl
  have hreports (u : State) (free : Nat) : (servedOrder (s.bay b).seq r.word (s.xferLink b)).foldl (State.accessReport b r free) u = u :=
    List.foldlRecOn _ _ (motive := fun v => v = u) rfl fun v hv a ha => (accessReport_clean v (hclean a ha) b free).trans hv
  rw [exec_scratchpadAccessesComplete, execScratchpadAccessesComplete]
  simp only [State.bay_tick, hcur, hlink, hwake, hsp, Bool.or_false, Bool.not_true, Bool.false_eq_true, if_false]
  exact congrArg (fun u : State => Host.Outcome.next (u.strokeCheck b)) (hreports _ _)

end

/-- A stroke whose scratchpad part is open goes on. -/
theorem strokeCheck_open {s : State} {b : Nat} {r : Running} (hcur : (s.bay b).seq.cur = some r) (hsp : r.sp = true) : s.strokeCheck b = s := by
  unfold State.strokeCheck
  rw [hcur]
  exact if_neg (by simp [Running.complete_of_sp hsp])

/-! ### Drains (03 R89; 04 R115) -/

/-- What saturated in each drained panel (03 R103). -/
def State.requantSats (s : State) (b : Nat) (te : BitVec 64) (l : List (Nat × List (Nat × Bool))) : State :=
  l.foldl (fun s e => s.requantSat b te e.1 e.2) s

theorem requantSats_frame (b : Nat) (te : BitVec 64) (l : List (Nat × List (Nat × Bool))) :
    (s.requantSats b te l).SameStrokes s ∧ (s.requantSats b te l).panels = s.panels := by
  refine List.foldlRecOn l _ (motive := fun u : State => u.SameStrokes s ∧ u.panels = s.panels) ⟨.refl s, rfl⟩ fun u hu e _ => ?_
  obtain ⟨hstrokes, hpanels⟩ := hu
  rcases hsat : e.2 with _ | ⟨a, sats⟩
  · exact ⟨hstrokes, hpanels⟩
  · refine ⟨hstrokes.stickyBay b _ (fun y => ?_) _ _ _, (stickyBay_panels _ _ _ _ _ _ _).trans hpanels⟩
    exact ⟨rfl, rfl⟩

theorem requantSats_none (b : Nat) (te : BitVec 64) {l : List (Nat × List (Nat × Bool))} (h : l.all (fun e => e.2.isEmpty) = true) :
    s.requantSats b te l = s :=
  List.foldlRecOn l _ (motive := fun u => u = s) rfl fun u hu e he => by
    have hnone := List.isEmpty_iff.1 (List.all_eq_true.1 h e he)
    rw [hnone]
    exact hu

/-- The stroke after its drain, whose writes are `ws`. -/
def Running.drained (r : Running) (ws : List SpWrite) : Running :=
  { r with drain := none, writes := r.writes ++ ws, crc := if r.watch then some (auditCrc ws) else none }

section
variable {s} {b : BayIx} {r : Running} (hcur : (s.bay b).seq.cur = some r) {vals : List (Nat × List Int)} (hdrain : r.drain = some vals) (t : Nat)
include hcur hdrain

theorem drainComplete_waking (hwake : (s.bay b).waking (drainAccesses (s.bay b).seq r.word) = true) :
    exec (.drainComplete t b []) s = .next (s.tick t) := by
  rw [exec_drainComplete, execDrainComplete]
  simp only [State.bay_tick, hcur, hdrain, hwake, if_true]

theorem drainComplete_eq (hwake : (s.bay b).waking (drainAccesses (s.bay b).seq r.word) = false) :
    exec (.drainComplete t b []) s = .next (
      let d := drainAll (s.bay b).seq r.word (r.rd s.freeVal) vals
      (((s.tick t).modBay b fun y => y.modCur (·.drained d.1)).requantSats b ((s.bay b).seq.tensor (sw r.word 3 10 10)) d.2).strokeCheck b) := by
  have hfree : (s.tick t).freeVal = s.freeVal := rfl
  rw [exec_drainComplete, execDrainComplete]
  simp only [State.bay_tick, hcur, hdrain, hfree, hwake, Bool.false_eq_true, if_false]
  rfl

/-- A drain of a stroke whose scratchpad part is open leaves the scratchpad and the panels alone, and with no saturation the snags too. -/
theorem drainComplete_open (hsp : r.sp = true) (hwake : (s.bay b).waking (drainAccesses (s.bay b).seq r.word) = false) :
    let d := drainAll (s.bay b).seq r.word (r.rd s.freeVal) vals
    Next (exec (.drainComplete t b []) s) fun u =>
      (u.bay b).seq.cur = some (r.drained d.1) ∧ (u.bay b).sp = (s.bay b).sp ∧ u.panels = s.panels ∧
      (d.2.all (fun e => e.2.isEmpty) = true → (u.bay b).reqSat = (s.bay b).reqSat ∧ u.snags = s.snags) := by
  intro d
  obtain ⟨s1, hs1⟩ : ∃ s1, s1 = (s.tick t).modBay b fun y => y.modCur (·.drained d.1) := ⟨_, rfl⟩
  have hbay1 : s1.bay b = (s.bay b).modCur (·.drained d.1) := by rw [hs1, State.bay_modBay, if_pos rfl, State.bay_tick]
  have hcur1 : (s1.bay b).seq.cur = some (r.drained d.1) := by rw [hbay1, Bay.modCur, hcur]; rfl
  obtain ⟨hstrokes, hpanels⟩ := requantSats_frame s1 b ((s.bay b).seq.tensor (sw r.word 3 10 10)) d.2
  obtain ⟨hseq, hspad⟩ := hstrokes b
  have hcur2 := (congrArg Seq.cur hseq).trans hcur1
  refine ⟨_, (drainComplete_eq hcur hdrain t hwake).trans (congrArg _ ?_), hcur2, ?_, ?_, fun hnone => ?_⟩
  · dsimp only
    rw [← hs1]
    exact strokeCheck_open hcur2 hsp
  · rw [hspad, hbay1, Bay.modCur_sp]
  · rw [hpanels, hs1]
    rfl
  · rw [requantSats_none s1 b _ hnone, hbay1, hs1]
    exact ⟨rfl, rfl⟩

end

/-! ### The end of a stroke (04 R109, R125, R134; 05 R137, R169) -/

/-- The writes of a stroke land in client order (04 R109). -/
def Bay.landWrites (y : Bay) (ws : List SpWrite) (free : Nat) : Bay :=
  (List.range 8).foldl (fun y c => (ws.filter (·.client == c)).foldl (fun y x => y.writeLine x.line x.data x.mask x.flips free) y) y

theorem Bay.writeLine_eq (y : Bay) (l : Nat) (d : BitVec 512) (mask : BitVec 64) (flips : BitVec 576) (free : Nat) :
    y.writeLine l d mask flips free = { y with sp := (y.writeLine l d mask flips free).sp } := by
  unfold Bay.writeLine
  split <;> rfl

/-- Writes change the scratchpad only. -/
theorem Bay.landWrites_eq (y : Bay) (ws : List SpWrite) (free : Nat) : y.landWrites ws free = { y with sp := (y.landWrites ws free).sp } := by
  refine List.foldlRecOn _ _ (motive := fun z : Bay => z = { y with sp := z.sp }) rfl fun z hz c _ => ?_
  refine List.foldlRecOn _ _ (motive := fun z : Bay => z = { y with sp := z.sp }) hz fun z hz x _ => ?_
  rw [Bay.writeLine_eq, hz]

theorem Bay.landWrites_nil (y : Bay) (free : Nat) : y.landWrites [] free = y := rfl

theorem Bay.landWrites_singleton (y : Bay) {x : SpWrite} (hx : x.client < 8) (free : Nat) :
    y.landWrites [x] free = y.writeLine x.line x.data x.mask x.flips free := by
  obtain h | h | h | h | h | h | h | h : x.client = 0 ∨ x.client = 1 ∨ x.client = 2 ∨ x.client = 3 ∨ x.client = 4 ∨ x.client = 5 ∨
    x.client = 6 ∨ x.client = 7 := by omega
  all_goals simp [Bay.landWrites, List.range_succ, h]

/-- A write of a whole line of a segment that is ON (04 R113, R116). -/
theorem Bay.line_writeLine {y : Bay} {l : Nat} (hon : y.lineOn l = true) (d : BitVec 512) (flips : BitVec 576) (free k : Nat) :
    (y.writeLine l d (BitVec.allOnes 64) flips free).line k = if k = l then { data := d, flips := flips } else y.line k := by
  simp only [Bay.writeLine, hon, if_true, Bay.line, mget_mset]

theorem Bay.line_landWrites {y : Bay} {x : SpWrite} (hx : x.client < 8) (hmask : x.mask = BitVec.allOnes 64) (hon : y.lineOn x.line = true)
    (free k : Nat) : (y.landWrites [x] free).line k = if k = x.line then { data := x.data, flips := x.flips } else y.line k := by
  rw [Bay.landWrites_singleton y hx, hmask, Bay.line_writeLine hon]

theorem getLsbD_setBit (v : BitVec 256) {f i : Nat} (hi : i < 256) :
    (v ||| BitVec.ofNat 256 (2 ^ f)).getLsbD i = (v.getLsbD i || f == i) := by
  rw [BitVec.getLsbD_or, BitVec.getLsbD_ofNat, Nat.testBit_two_pow]
  simp [hi, Bool.beq_eq_decide_eq]

/-- Setting flags that are 0 sets them, and does nothing else (04 R125). -/
theorem setFlags_clear {b : Nat} {l : List Nat} (hnodup : l.Nodup) {s : State} (hclear : ∀ f ∈ l, f < 256 ∧ (s.bay b).flag f = false) :
    let u := l.foldl (fun s f => s.setFlag b f 0 0) s
    u.bay b = { s.bay b with flags := (u.bay b).flags } ∧ u.snags = s.snags ∧
      ∀ i < 256, (u.bay b).flag i = ((s.bay b).flag i || l.contains i) := by
  induction l generalizing s with
  | nil => exact ⟨rfl, rfl, fun i _ => by simp⟩
  | cons f l ih =>
    obtain ⟨hf, hl⟩ := List.nodup_cons.1 hnodup
    obtain ⟨⟨hlt, hoff⟩, hrest⟩ := List.forall_mem_cons.1 hclear
    have hset : s.setFlag b f 0 0 = s.modBay b fun y => { y with flags := y.flags ||| BitVec.ofNat 256 (2 ^ f) } := by
      simp [State.setFlag, hoff]
    have hbay : ((s.setFlag b f 0 0).bay b) = { s.bay b with flags := (s.bay b).flags ||| BitVec.ofNat 256 (2 ^ f) } := by
      rw [hset, State.bay_modBay, if_pos rfl]
    have hflag (i : Nat) (hi : i < 256) : ((s.setFlag b f 0 0).bay b).flag i = ((s.bay b).flag i || f == i) := by
      rw [hbay]
      exact getLsbD_setBit _ hi
    obtain ⟨hu, hsnags, hflags⟩ := ih hl (s := s.setFlag b f 0 0) fun g hg => by
      obtain ⟨hglt, hgoff⟩ := hrest g hg
      refine ⟨hglt, ?_⟩
      rw [hflag g hglt, hgoff]
      simpa using fun h : f = g => hf (h ▸ hg)
    refine ⟨?_, ?_, fun i hi => ?_⟩
    · rw [List.foldl_cons, hu, hbay]
    · rw [List.foldl_cons, hsnags, hset]
      rfl
    · rw [List.foldl_cons, hflags i hi, hflag i hi, List.contains_cons, Bool.or_assoc, Bool.beq_comm]

theorem bay_boundary (b : Nat) : (s.boundary b).bay b = { (s.bay b).applyStg with flipsDue := 0 } := by
  have hpanels (l : List Nat) (key : Nat → Nat) (f : Panel → Panel) (u : State) : (l.foldl (fun s k => s.modPanel (key k) f) u).bay b = u.bay b :=
    List.foldlRecOn l _ (motive := fun v : State => v.bay b = u.bay b) rfl fun v hv k _ => hv
  refine (hpanels _ (pkey b) _ _).trans ((hpanels _ id _ _).trans ?_)
  rw [State.bay_modBay, if_pos rfl]

theorem boundary_snags (b : Nat) : (s.boundary b).snags = s.snags :=
  (boundary_kept (L := [.bays, .panels]) (Kept.refl s) b (by decide)).frame .snags (by decide)

theorem skipAfter_snags (b begun : Nat) : (s.skipAfter b begun).snags = s.snags :=
  (skipAfter_kept (L := [.bays]) (Kept.refl s) b begun (by decide)).frame .snags (by decide)

/-- Skip mode keeps its own count and hold (14 R403). -/
theorem bay_skipAfter (b begun : Nat) : ∃ cnt hold till, (s.skipAfter b begun).bay b =
    { s.bay b with skipCnt := cnt, skipHold := hold, holdTill := till } := by
  unfold State.skipAfter
  dsimp only
  split
  · exact ⟨_, _, _, rfl⟩
  · rw [State.bay_modBay, if_pos rfl]
    split <;> exact ⟨_, _, _, rfl⟩

/-- The bay once the writes of its stroke `r` have landed, at time `now`. -/
def Bay.landed (y : Bay) (r : Running) (free now : Nat) : Bay :=
  let z := y.landWrites r.writes free
  { z with strokeCnt := (z.strokeCnt + 1) % 2 ^ 64, movedAt := now, seq := { z.seq with cur := none, served := 0 } }

section
variable {s} {b : Nat} {r : Running} (hcrc : r.crc = none) (hend : stEnd r.word = false) (hsegs : sw r.word 6 24 4 = 0)
include hcrc hend hsegs

theorem finishStroke_eq : s.finishStroke b r =
    ((((stSets r.word).foldl (fun s f => s.setFlag b f 0 0) (s.modBay b fun y => y.landed r s.freeVal s.now)).boundary b).skipAfter b
      r.begun).modBay b fun y => { y with seq := { y.seq with pc := y.seq.pc + 1 } } := by
  have hnone : bitsOf (BitVec.ofNat 4 0) 4 = [] := by decide
  unfold State.finishStroke
  simp only [hcrc, hend, hsegs, hnone, List.foldl_nil, Bool.false_eq_true, if_false]
  rfl

/-- The end of a stroke that neither ends its program nor changes a segment's mode, and whose flags are 0. -/
theorem finishStroke_bay {y : Bay} (hy : s.bay b = y) (hnodup : (stSets r.word).Nodup)
    (hclear : ∀ f ∈ stSets r.word, f < 256 ∧ y.flag f = false) :
    let u := s.finishStroke b r
    (u.bay b).seq = { y.seq with cur := none, served := 0, pc := y.seq.pc + 1 } ∧ (u.bay b).strokeCnt = (y.strokeCnt + 1) % 2 ^ 64 ∧
      (u.bay b).sp = (y.landWrites r.writes s.freeVal).sp ∧
      (∀ i < 256, (u.bay b).flag i = (y.flag i || (stSets r.word).contains i)) ∧ u.snags = s.snags := by
  subst hy
  let s1 := s.modBay b fun y => y.landed r s.freeVal s.now
  have h1 : s1.bay b = (s.bay b).landed r s.freeVal s.now := by rw [State.bay_modBay, if_pos rfl]
  rw [Bay.landed, Bay.landWrites_eq] at h1
  have hflag1 (f : Nat) : (s1.bay b).flag f = (s.bay b).flag f := by rw [h1]; rfl
  obtain ⟨h2, hsnags, hflags⟩ := setFlags_clear hnodup (s := s1) fun f hf => by
    rw [hflag1]
    exact hclear f hf
  obtain ⟨cnt, hold, till, h3⟩ := bay_skipAfter (((stSets r.word).foldl (fun s f => s.setFlag b f 0 0) s1).boundary b) b r.begun
  rw [bay_boundary, h2, h1] at h3
  have hu : (s.finishStroke b r).bay b = _ := (congrArg (State.bay · b) (finishStroke_eq hcrc hend hsegs)).trans (State.bay_modBay _ b b _)
  rw [if_pos rfl, h3] at hu
  refine ⟨by rw [hu]; rfl, by rw [hu]; rfl, by rw [hu]; rfl, fun i hi => ?_, ?_⟩
  · rw [← hflag1, ← hflags i hi, hu]
    rfl
  · rw [finishStroke_eq hcrc hend hsegs, State.modBay_snags, skipAfter_snags, boundary_snags, hsnags]
    rfl

end

end Sys2Proof.Machine

namespace Sys2Proof

open Machine

/-- Settles O22: with the last part done the stroke ends, and its flags, 0 until then, set one by one; a drain saturates or not, but the stroke,
whose scratchpad part is open, goes on. -/
theorem strokesEndWithTheirLastPart : Obligations.StrokesEndWithTheirLastPart := by
  intro t b r s hcur hsp y acc clean
  obtain ⟨s', hs'⟩ : ∃ s', s' = (s.tick t).modBay b fun y => y.accessed acc := ⟨_, rfl⟩
  have hbay' : s'.bay b = y.accessed acc := by rw [hs', State.bay_modBay, if_pos rfl, State.bay_tick]
  have hcur' : (s'.bay b).seq.cur = some { r with sp := false } := by rw [hbay', Bay.seq_accessed, hcur]; rfl
  have hmade (hclean : clean) : exec (.scratchpadAccessesComplete t b) s = .next (s'.strokeCheck b) := by
    rw [hs']
    refine scratchpadAccessesComplete_eq hcur hsp t (List.any_eq_false.2 fun a ha => ?_) fun a ha => ?_
    · obtain ⟨_, _, hwake, _⟩ := hclean a ha
      exact Bool.eq_false_iff.1 hwake
    · obtain ⟨hline, hseg, _, hread⟩ := hclean a ha
      exact ⟨hline, hseg, hread⟩
  refine ⟨fun hclean hopen => ?_, scratchpadAccessesComplete_waking hcur t, fun vals hdrain => drainComplete_waking hcur hdrain t,
    fun vals hdrain hwake => ?_, fun hclean hlast hcrc hend hsegs hsets hnodup => ?_⟩
  · have hgoes : s'.strokeCheck b = s' := by
      rw [State.strokeCheck, hcur']
      exact if_neg (by simp [hopen])
    refine ⟨s', (hmade hclean).trans (congrArg _ hgoes), ?_, by rw [hs']; rfl, by rw [hs']; rfl⟩
    rw [hbay', Bay.accessed, Bay.modCur, hcur]
    rfl
  · obtain ⟨u, hu, hcur2, hspad, hpanels, hnone⟩ := drainComplete_open hcur hdrain t hsp hwake
    refine ⟨u, hu, _, hcur2, rfl, rfl, ?_, rfl, rfl, rfl, rfl, hspad, hpanels, hnone⟩
    cases hw : r.watch <;> simp [Running.drained, hw]
  · have hends : s'.strokeCheck b = s'.finishStroke b { r with sp := false } := by
      rw [State.strokeCheck, hcur']
      exact if_pos hlast
    have hclear (f : Nat) (hf : f ∈ stSets r.word) : f < 256 ∧ (y.accessed acc).flag f = false := by
      have hoff := List.all_eq_true.1 hsets f hf
      rw [Bool.and_eq_true, decide_eq_true_eq, Bool.not_eq_true'] at hoff
      rw [Bay.flag_accessed]
      exact hoff
    obtain ⟨hseq, hcnt, hspad, hflags, hsnags⟩ := finishStroke_bay (r := { r with sp := false }) hcrc hend hsegs hbay' hnodup hclear
    rw [Bay.strokeCnt_accessed] at hcnt
    rw [Bay.seq_accessed] at hseq
    simp only [Bay.flag_accessed] at hflags
    refine ⟨_, (hmade hclean).trans (congrArg _ hends), by rw [hseq], hcnt, by rw [hseq], by rw [hseq], hflags, fun x hw hx hmask hon => ?_,
      fun hw => ?_, by rw [hsnags, hs']; rfl⟩
    · have hline (l : Nat) : ((s'.finishStroke b { r with sp := false }).bay b).line l =
          if l = x.line then { data := x.data, flips := x.flips } else y.line l := by
        have hland := Bay.line_landWrites hx hmask ((Bay.lineOn_accessed y acc _).trans hon) s'.freeVal l
        rw [Bay.line_accessed, ← hw] at hland
        exact (congrArg (mget ({} : Line) · l) hspad).trans hland
      exact ⟨by rw [hline, if_pos rfl], fun l hl => by rw [hline, if_neg hl]⟩
    · rw [hspad]
      dsimp only
      rw [hw, Bay.landWrites_nil, Bay.sp_accessed]

end Sys2Proof
end

section
/-! SUPPORT. Reductions: the scalar a reduction gives, and where it goes (04 R119, R121). -/

namespace Sys2Proof.Machine

/-! ### The value of a reduction (04 R119) -/

/-- The scalar that a reduction gives. -/
def reducedScalar (code : Nat) (v : VecArgs) : Scalar :=
  let x := reduceNum code v.int v.a
  if v.int then { float := false, bits := BitVec.ofInt 32 (match x with | .fin n m _ => (saturate32 (signed n m)).1 | _ => 0) }
  else { float := true, bits := bits32 x }

/-- The side on which an integer reduction saturates. -/
def reducedSat (code : Nat) (v : VecArgs) : Option Bool :=
  match reduceNum code v.int v.a with
  | .fin n m _ => if v.int then (saturate32 (signed n m)).2 else none
  | _ => none

theorem reducedScalar_int {code : Nat} {v : VecArgs} (hint : v.int = true) {w : Int} (hw : (reduceNum code true v.a).IsInt w) :
    reducedScalar code v = { float := false, bits := clamp32 w } := by
  obtain ⟨n, m, hfin, rfl⟩ := hw
  simp only [reducedScalar, hint, hfin, if_true, saturate_fst (lo := -(2 ^ 31)) (hi := 2 ^ 31 - 1) (by decide)]
  rfl

theorem reducedScalar_float {code : Nat} {v : VecArgs} (hint : v.int = false) :
    reducedScalar code v = { float := true, bits := bits32 (reduceNum code false v.a) } := by
  simp only [reducedScalar, hint, Bool.false_eq_true, if_false]

/-- A 32-bit integer does not saturate. -/
theorem clamp32_toInt (v : BitVec 32) : clamp32 v.toInt = v := by
  have hlo := BitVec.le_toInt v
  have hhi := BitVec.toInt_lt (x := v)
  rw [clamp32, min_eq_right (by omega), max_eq_right (by omega), BitVec.ofInt_toInt]

/-- The largest of integers is one of them, and none is larger. -/
theorem Num.IsInt.foldl_maxLane {x : Num} {v : Int} (hx : x.IsInt v) {g : Nat → Num} {f : Nat → Int} (hg : ∀ k, (g k).IsInt (f k)) (l : List Nat) :
    ∃ w, ((l.map g).foldl (Machine.maxLane true) x).IsInt w ∧ (w = v ∨ ∃ k ∈ l, w = f k) ∧ v ≤ w ∧ ∀ k ∈ l, f k ≤ w := by
  induction l generalizing x v with
  | nil => exact ⟨v, hx, .inl rfl, le_rfl, by simp⟩
  | cons k l ih =>
    obtain ⟨w, hw, hfrom, hv, hl⟩ := ih (hx.maxLane (hg k))
    obtain ⟨hv, hk⟩ := max_le_iff.1 hv
    refine ⟨w, hw, ?_, hv, List.forall_mem_cons.2 ⟨hk, hl⟩⟩
    rcases hfrom with hw | ⟨j, hj, hw⟩
    · rcases max_choice v (f k) with hmax | hmax
      · exact .inl (hw.trans hmax)
      · exact .inr ⟨k, .head _, hw.trans hmax⟩
    · exact .inr ⟨j, .tail _ hj, hw⟩

/-- The integers that a reduction takes. -/
def intValues (n : Nat) (v : Nat → Int) : List Num := (List.range n).map fun i => .ofInt (v i)

theorem reduceNum_sum (n : Nat) (v : Nat → Int) : (reduceNum 0x10 true (intValues n v)).IsInt ((List.range n).map v).sum := by
  rw [← zero_add ((List.range n).map v).sum]
  exact Num.isInt_zero.foldl_add (fun i => Num.isInt_ofInt (v i)) _

theorem reduceNum_max {n : Nat} (hn : 0 < n) (v : Nat → Int) :
    ∃ i < n, (reduceNum 0x11 true (intValues n v)).IsInt (v i) ∧ ∀ j < n, v j ≤ v i := by
  have hhead : (intValues n v).headD (.fin false 0 0) = .ofInt (v 0) := by
    obtain ⟨m, rfl⟩ := Nat.exists_eq_succ_of_ne_zero hn.ne'
    simp [intValues, List.range_succ_eq_map]
  have hfold : reduceNum 0x11 true (intValues n v) = (intValues n v).foldl (maxLane true) (.ofInt (v 0)) := by
    rw [← hhead]
    rfl
  obtain ⟨w, hw, hfrom, -, hmax⟩ := (Num.isInt_ofInt (v 0)).foldl_maxLane (fun i => Num.isInt_ofInt (v i)) (List.range n)
  obtain ⟨i, hi, rfl⟩ : ∃ i < n, w = v i := by
    rcases hfrom with rfl | ⟨i, hi, rfl⟩
    · exact ⟨0, hn, rfl⟩
    · exact ⟨i, List.mem_range.1 hi, rfl⟩
  exact ⟨i, hi, hfold ▸ hw, fun j hj => hmax j (List.mem_range.2 hj)⟩

/-! ### The operands of a reduction (04 R117) -/

section
variable {o : BitVec 128} {y : Bay}

theorem vecInt_reduction (hcode : opCode o = 0x10 ∨ opCode o = 0x11) (ha : teFmt (y.seq.tensor (fld o 90 10)) = .i32) : vecInt y o = true := by
  rcases hcode with hcode | hcode <;> simp [vecInt, hcode, ha, codeBinary, Fmt.isInt]

theorem vecArgs_reduction_i32 (hcode : opCode o = 0x10 ∨ opCode o = 0x11) (ha : teFmt (y.seq.tensor (fld o 90 10)) = .i32) (r : Running) (free : Nat) :
    (vecArgs y r free o).int = true ∧
      (vecArgs y r free o).a = intValues (opLen o) fun i => (r.elem32 free (fld o 32 13) i).toInt := by
  have hint := vecInt_reduction hcode ha
  simp only [vecArgs, hint, ha, readTensor_i32, List.map_map]
  exact ⟨trivial, rfl⟩

theorem vecArgs_reduction_f32 (ha : teFmt (y.seq.tensor (fld o 90 10)) = .f32) (r : Running) (free : Nat) :
    (vecArgs y r free o).int = false ∧ (vecArgs y r free o).a = (List.range (opLen o)).map (r.float32 free (fld o 32 13)) := by
  have hint : vecInt y o = false := by simp [vecInt, ha, Fmt.isInt]
  simp only [vecArgs, hint, ha, readTensor_f32, List.map_map]
  exact ⟨trivial, rfl⟩

end

/-! ### Where the value goes (04 R119, R121) -/

/-- The scalar register that the operation `o` names takes the value `c`. -/
def Bay.setScalar (y : Bay) (o : BitVec 128) (c : Scalar) : Bay := { y with sc := mset {} y.sc (fld o 19 3) c }

/-- The end of a reduction of value `c`: into its scalar register and, with DST_TENSOR, narrowed to element 0 of the destination. -/
def State.scalarTo (s : State) (b : Nat) (r : Running) (o : BitVec 128) (c : Scalar) : State :=
  let te := (s.bay b).seq.tensor (fld o 110 10)
  let n := narrow ((s.bay b).seq.roundCtx r.word) te 0 [c.num]
  let s := s.modBay b (·.setScalar o c)
  if o.getLsbD 22 then
    let s := s.requantSat b te 0 n.sats
    s.drawn.unitPartDone b (n.writes 2 (teFmt te) (fld o 77 13)
      (match teFmt te with | .int k _ => if (Fmt.int k false).bits < 8 then s.freeVal else 0 | .bx false => s.freeVal | _ => 0))
  else s.unitPartDone b []

section
variable {s : State} {b code : Nat} {r : Running} {o : BitVec 128}

/-- A reduction counts its saturation and then hands on its value. -/
theorem reduceOp_eq (h : s.unitOpen b 1 code r o) : ∃ te l, s.reduceOp b code [] =
    (s.requantSat b te 0 l).scalarTo b r o (reducedScalar code (vecArgs (s.bay b) r s.freeVal o)) := by
  let args := vecArgs (s.bay b) r s.freeVal o
  have hseq (te l) : ((s.requantSat b te 0 l).bay b).seq = (s.bay b).seq := by
    obtain ⟨cnt, hbay⟩ := bay_requantSat s b te 0 l
    rw [hbay]
  refine ⟨if o.getLsbD 22 then (s.bay b).seq.tensor (fld o 110 10) else 0, (reducedSat code args).toList.map (0, ·), ?_⟩
  rw [State.reduceOp, openUnit_of_unitOpen h, State.scalarTo, hseq]
  have hsat : (match reducedSat code args with
    | some h => s.requantSat b (if o.getLsbD 22 then (s.bay b).seq.tensor (fld o 110 10) else 0) 0 [(0, h)]
    | none => s) = s.requantSat b (if o.getLsbD 22 then (s.bay b).seq.tensor (fld o 110 10) else 0) 0 ((reducedSat code args).toList.map (0, ·)) := by
    cases reducedSat code args <;> rfl
  rw [← hsat]
  rfl

/-- One 32-bit element is one write of four bytes. -/
theorem writes_single {f : Fmt} (hbits : f.bits = 32) (hbx : f.isBx = false) (nw : Narrowed) {e : Nat} (helems : nw.elems = [e]) (client l : Nat) :
    nw.writes client f l 0 = [{ client := client, line := l, data := BitVec.ofNat 512 (e % 2 ^ 32), mask := 15 }] := by
  simp [Narrowed.writes, splitWrites, packElems, lineMask, hbits, hbx, helems]

section
variable (hcur : (s.bay b).seq.cur = some r) (hsp : r.sp = true) (c : Scalar)
include hcur hsp

theorem scalarTo_register (hreg : o.getLsbD 22 = false) :
    let u := s.scalarTo b r o c
    mget {} (u.bay b).sc (fld o 19 3) = c ∧ u.unitDone b r [] := by
  have hbay : (s.modBay b (·.setScalar o c)).bay b = (s.bay b).setScalar o c := by rw [State.bay_modBay, if_pos rfl]
  have hcur' : ((s.modBay b (·.setScalar o c)).bay b).seq.cur = some r := by rw [hbay]; exact hcur
  intro u
  have hu : u = (s.modBay b (·.setScalar o c)).unitPartDone b [] := if_neg (Bool.eq_false_iff.1 hreg)
  refine ⟨?_, hu ▸ unitPartDone_unitDone hcur' hsp []⟩
  rw [hu, bay_unitPartDone hcur' hsp, hbay]
  exact mget_mset_same _ _

theorem scalarTo_tensor (htensor : o.getLsbD 22 = true) (hte : teFmt ((s.bay b).seq.tensor (fld o 110 10)) = .i32) (hint : c.float = false) :
    let u := s.scalarTo b r o c
    mget {} (u.bay b).sc (fld o 19 3) = c ∧
      ∃ w, u.unitDone b r [w] ∧ w.line = fld o 77 13 ∧ w.mask = 15 ∧ w.data.extractLsb' 0 32 = c.bits := by
  let te := (s.bay b).seq.tensor (fld o 110 10)
  let sats := (narrow ((s.bay b).seq.roundCtx r.word) te 0 [c.num]).sats
  let e := ((saturate32 c.bits.toInt).1 % 2 ^ 32).toNat
  have helems : (narrow ((s.bay b).seq.roundCtx r.word) te 0 [c.num]).elems = [e] := by
    have hnum : [c.num] = (List.range 1).map fun _ => Num.ofInt c.bits.toInt := by simp [Scalar.num, hint]
    rw [hnum, narrow_i32 hte fun i k => (Num.isInt_ofInt _).toRange _ _ _]
    rfl
  obtain ⟨cnt, hsat⟩ := bay_requantSat (s.modBay b (·.setScalar o c)) b te 0 sats
  have hbay : (((s.modBay b (·.setScalar o c)).requantSat b te 0 sats).drawn.bay b).sc = ((s.bay b).setScalar o c).sc := by
    rw [State.bay_drawn, hsat, State.bay_modBay, if_pos rfl]
  have hcur' : (((s.modBay b (·.setScalar o c)).requantSat b te 0 sats).drawn.bay b).seq.cur = some r := by
    rw [State.bay_drawn, hsat, State.bay_modBay, if_pos rfl]
    exact hcur
  intro u
  have hu : u = ((s.modBay b (·.setScalar o c)).requantSat b te 0 sats).drawn.unitPartDone b
      [{ client := 2, line := fld o 77 13, data := BitVec.ofNat 512 (e % 2 ^ 32), mask := 15 }] := by
    rw [← writes_single (f := .i32) rfl rfl _ helems]
    simp only [u, State.scalarTo, htensor, if_true, hte]
    rfl
  refine ⟨?_, _, hu ▸ unitPartDone_unitDone hcur' hsp _, rfl, rfl, ?_⟩
  · rw [hu, bay_unitPartDone hcur' hsp]
    exact (congrArg (mget {} · _) hbay).trans (mget_mset_same _ _)
  · rw [extract_ofNat _ _ (by omega), pow_zero, Nat.div_one]
    exact (BitVec.eq_of_toNat_eq (by simp [e])).trans ((ofNat_clamp _).trans (clamp32_toInt _))

end

section
variable (h : s.unitOpen b 1 code r o)
include h

/-- Without DST_TENSOR a reduction fills its scalar register and writes nothing. -/
theorem reduceOp_register (hreg : o.getLsbD 22 = false) :
    let u := s.reduceOp b code []
    mget {} (u.bay b).sc (fld o 19 3) = reducedScalar code (vecArgs (s.bay b) r s.freeVal o) ∧ u.unitDone b r [] := by
  obtain ⟨te, l, heq⟩ := reduceOp_eq h
  obtain ⟨cnt, hbay⟩ := bay_requantSat s b te 0 l
  obtain ⟨hcur, _, hsp, _⟩ := h
  rw [heq]
  exact scalarTo_register (by rw [hbay]; exact hcur) hsp _ hreg

/-- With DST_TENSOR element 0 of a 32-bit integer destination takes the integer as well. -/
theorem reduceOp_tensor (htensor : o.getLsbD 22 = true) (hte : teFmt ((s.bay b).seq.tensor (fld o 110 10)) = .i32)
    (hint : (reducedScalar code (vecArgs (s.bay b) r s.freeVal o)).float = false) :
    let u := s.reduceOp b code []
    let c := reducedScalar code (vecArgs (s.bay b) r s.freeVal o)
    mget {} (u.bay b).sc (fld o 19 3) = c ∧
      ∃ w, u.unitDone b r [w] ∧ w.line = fld o 77 13 ∧ w.mask = 15 ∧ w.data.extractLsb' 0 32 = c.bits := by
  obtain ⟨te, l, heq⟩ := reduceOp_eq h
  obtain ⟨cnt, hbay⟩ := bay_requantSat s b te 0 l
  obtain ⟨hcur, _, hsp, _⟩ := h
  rw [heq]
  exact scalarTo_tensor (by rw [hbay]; exact hcur) hsp _ htensor (by rw [hbay]; exact hte) hint

end
end
end Sys2Proof.Machine

namespace Sys2Proof

open Machine

/-- Settles O29: an integer reduction's value is an integer, of a sum the exact one, and a 32-bit one passes saturation unchanged. -/
theorem reductionsFillAScalarRegister : Obligations.ReductionsFillAScalarRegister := by
  intro t b code r o s h q x sum res
  have hcode : opCode o = code := by
    obtain ⟨-, -, -, -, -, hcode, -⟩ := h
    exact hcode
  have hsum (hc : code = 0x10) (ha : teFmt (q.tensor (fld o 90 10)) = .i32) :
      reducedScalar code (vecArgs (s.bay b) r s.freeVal o) = { float := false, bits := clamp32 sum } := by
    obtain ⟨hint, hargs⟩ := vecArgs_reduction_i32 (.inl (hcode.trans hc)) ha r s.freeVal
    refine reducedScalar_int hint ?_
    rw [hargs, hc]
    exact reduceNum_sum _ _
  refine ⟨fun hc ha hreg => ?_, fun hc ha htensor hd => ?_, fun hc ha hreg => ?_, fun hc ha hreg => ?_⟩
  · obtain ⟨hres, hdone⟩ := reduceOp_register (s := s.tick t) h hreg
    subst hc
    exact ⟨_, exec_rsum s t b [], hres.trans (hsum rfl ha), hdone⟩
  · have hint := congrArg Scalar.float (hsum hc ha)
    obtain ⟨hres, w, hdone, hline, hmask, hdata⟩ := reduceOp_tensor (s := s.tick t) h htensor hd hint
    subst hc
    exact ⟨_, exec_rsum s t b [], hres.trans (hsum rfl ha), w, hdone, hline, hmask, hdata.trans (congrArg Scalar.bits (hsum rfl ha))⟩
  · obtain ⟨hres, hdone⟩ := reduceOp_register (s := s.tick t) h hreg
    obtain ⟨hint, hargs⟩ := vecArgs_reduction_i32 (.inr (hcode.trans hc)) ha r s.freeVal
    obtain ⟨i, hi, hmaxed, hmax⟩ := reduceNum_max (n := opLen o) (by rw [opLen]; omega) fun i => (x i).toInt
    have hscalar : reducedScalar code (vecArgs (s.bay b) r s.freeVal o) = { float := false, bits := x i } := by
      rw [← clamp32_toInt (x i)]
      refine reducedScalar_int hint ?_
      rw [hargs, hc]
      exact hmaxed
    have hres : mget {} (((s.tick t).reduceOp b code []).bay b).sc (fld o 19 3) = { float := false, bits := x i } := hres.trans hscalar
    subst hc
    refine ⟨_, exec_rmax s t b, congrArg Scalar.float hres, hdone, ⟨i, hi, congrArg Scalar.bits hres⟩, fun j hj => ?_⟩
    rw [congrArg Scalar.bits hres]
    exact hmax j hj
  · obtain ⟨hres, hdone⟩ := reduceOp_register (s := s.tick t) h hreg
    obtain ⟨hint, hargs⟩ := vecArgs_reduction_f32 ha r s.freeVal
    have hscalar := reducedScalar_float (code := code) hint
    rw [hargs, hc, reduceNum, if_neg (by decide), if_pos rfl, List.map_map] at hscalar
    subst hc
    exact ⟨_, exec_rsumsq s t b [], hres.trans hscalar, hdone⟩

end Sys2Proof
end

section
/-! SUPPORT. The start of a stroke: when it may start, what it clears and issues, and the halt of a bay that goes outside its allocation
(04 R108, R125–R127; 05 R137, R152). -/

namespace Sys2Proof.Machine

variable (s : State)

/-! ### The fault detector and BOUND_ERR (04 R127, R132) -/

theorem bay_closeWindow (b : Nat) : (s.closeWindow b).bay b = { s.bay b with det := none } := by
  unfold State.closeWindow
  split
  · rw [bay_congr (toCtl_bays _ _ _), State.bay_modBay, if_pos rfl]
  · rename_i hdet
    rw [← hdet]

/-- A signal changes the open gathering window only. -/
theorem bay_signalFault (b kind : Nat) (panel : Option Nat) : ∃ det, (s.signalFault b kind panel).bay b = { s.bay b with det := det } := by
  unfold State.signalFault
  dsimp only
  rw [State.bay_modBay, if_pos rfl]
  split
  · split
    · rw [bay_closeWindow]
      exact ⟨_, rfl⟩
    · exact ⟨_, rfl⟩
  · exact ⟨_, rfl⟩

/-- No stop is due where no plan is stopping (05 R142). -/
theorem settleStops_none (h : ∀ p ∈ s.plans, p.stopping = false) : s.settleStops = s :=
  List.foldlRecOn s.plans _ (motive := fun u => u = s) rfl fun u hu p hp => by
    rw [hu, h p hp]
    rfl

/-- BOUND_ERR halts the bay (04 R127). -/
theorem haltBay_halts {b : Nat} (kind idx : Nat) (hrun : (s.bay b).seq.stop = false) (hplans : ∀ p ∈ s.plans, p.stopping = false) :
    ((s.haltBay b kind idx).bay b).seq.halted = true ∧ ((s.haltBay b kind idx).bay b).boundErr = true := by
  obtain ⟨s1, hs1⟩ : ∃ s1, s1 = s.stickyBay b (s.bay b).boundErr (fun y => { y with boundErr := true }) 0x2012 2
    [kind, idx, 0, (s.bay b).strokeCnt] := ⟨_, rfl⟩
  have h1 : s1.bay b = { s.bay b with boundErr := true } := by rw [hs1, bay_stickyBay, if_pos rfl]
  have hplans1 : s1.plans = s.plans := by
    rw [hs1]
    exact (stickyBay_kept (L := .bays :: logged) (Kept.refl s) b _ (set := fun y => { y with boundErr := true }) (fun _ h => h) _ _ _
      (by decide)).frame .plans (by decide)
  let s2 := s1.modBay b fun y => { y with seq := { y.seq with halted := true } }
  have hhalt : s.haltBay b kind idx = (s2.signalFault b 3 none).settleLeaves.settleStops := by
    have hmod (f : Bay → Bay) (hf : f (s1.bay b) = { s1.bay b with seq := { (s1.bay b).seq with halted := true } }) : s1.modBay b f = s2 :=
      congrArg (s1.setBay b) hf
    unfold State.haltBay
    dsimp only
    rw [← hs1, hmod _ (by simp [h1, hrun])]
  have hplans2 : (s2.signalFault b 3 none).settleLeaves.plans = s.plans :=
    ((signalFault_kept (L := [.bays, .rtrs] ++ logged) (Kept.refl s2) b 3 none (by decide)).frame .plans (by decide)).trans hplans1
  obtain ⟨det, hbay⟩ := bay_signalFault s2 b 3 none
  have hbays : (s2.signalFault b 3 none).settleLeaves.bay b = { s2.bay b with det := det } := hbay
  rw [hhalt, settleStops_none _ (hplans2 ▸ hplans), hbays, State.bay_modBay, if_pos rfl, h1]
  exact ⟨rfl, rfl⟩

/-! ### What a start clears and issues (04 R125; 05 R137) -/

/-- The flags less those a stroke waits on. -/
def clearFlags (f : BitVec 256) (l : List Nat) : BitVec 256 := l.foldl (fun f i => f &&& ~~~(BitVec.ofNat 256 (2 ^ i))) f

theorem getLsbD_clearFlags (l : List Nat) (f : BitVec 256) {i : Nat} (hi : i < 256) :
    (clearFlags f l).getLsbD i = (f.getLsbD i && !l.contains i) := by
  induction l generalizing f with
  | nil => simp [clearFlags]
  | cons j l ih =>
    have hbit : (f &&& ~~~(BitVec.ofNat 256 (2 ^ j))).getLsbD i = (f.getLsbD i && !(i == j)) := by
      rw [BitVec.getLsbD_and, BitVec.getLsbD_not, BitVec.getLsbD_ofNat, Nat.testBit_two_pow]
      simp [hi, Bool.beq_eq_decide_eq, eq_comm]
    rw [clearFlags, List.foldl_cons]
    refine (ih _).trans ?_
    rw [hbit, List.contains_cons, Bool.not_or, Bool.and_assoc]

theorem panel_panelIssued (k : Nat) (o : PanelOp) (j : Nat) : ∃ held, (s.panelIssued k o).panel j =
    if j = k then { s.panel k with op := some o, wrHeld := held } else s.panel j := by
  unfold State.panelIssued
  dsimp only
  generalize (o.compute && _) = held
  refine ⟨(s.panel k).wrHeld || held, ?_⟩
  cases held
  all_goals exact State.panel_setPanel s k j _

/-- The panel has the operation `o` issued, and its cells are those of the state `s`. -/
def State.Issued (u s : State) (o : PanelOp) (k : Nat) : Prop := (u.panel k).op = some o ∧ (u.panel k).cells = (s.panel k).cells

/-- The operations issued to the panels `ps`, one after the other. -/
def State.issueAll (s : State) (b : Nat) (o : PanelOp) (ps : List Nat) : State := ps.foldl (fun s p => s.panelIssued (pkey b p) o) s

theorem issueAll_keeps {u s : State} {b k : Nat} {o : PanelOp} (h : u.Issued s o k) (ps : List Nat) : (u.issueAll b o ps).Issued s o k := by
  refine List.foldlRecOn ps _ (motive := fun v : State => v.Issued s o k) h fun v hv p _ => ?_
  obtain ⟨held, hpanel⟩ := panel_panelIssued v (pkey b p) o k
  unfold State.Issued
  rw [hpanel]
  split
  · subst k
    exact ⟨rfl, hv.2⟩
  · exact hv

theorem issueAll_issued (b : Nat) (o : PanelOp) {ps : List Nat} {p : Nat} (hp : p ∈ ps) {u : State} (hu : (u.panel (pkey b p)).cells = (s.panel (pkey b p)).cells) :
    (u.issueAll b o ps).Issued s o (pkey b p) := by
  induction ps generalizing u with
  | nil => exact absurd hp (List.not_mem_nil)
  | cons q ps ih =>
    obtain ⟨held, hpanel⟩ := panel_panelIssued u (pkey b q) o (pkey b p)
    rcases List.mem_cons.1 hp with rfl | hp
    · refine issueAll_keeps ?_ ps
      unfold State.Issued
      rw [hpanel, if_pos rfl]
      exact ⟨rfl, hu⟩
    · refine ih hp ?_
      rw [hpanel]
      split
      · rename_i hk
        rw [← hk]
        exact hu
      · exact hu

theorem issuePanels_bay (b : Nat) (w : BitVec 256) (r : Running) (c : Nat) : (s.issuePanels b w r).bay c = s.bay c :=
  bay_congr ((issuePanels_kept (L := [.panels, .intr]) (Kept.refl s) b w r (by decide)).frame .bays (by decide)) c

theorem issuePanels_ops {b : Nat} {w : BitVec 256} (hkind : stKind w = 1 ∨ stKind w = 2) (r : Running) : s.issuePanels b w r =
    s.issueAll b { w2 := w.extractLsb' 64 32, desc := teDesc ((s.bay b).seq.tensor (sw w 3 0 10)) } (stPanels w) := by
  rcases hkind with hkind | hkind
  all_goals
    unfold State.issuePanels
    rw [hkind]
    rfl

/-- The bay once its stroke `w` has consumed its wait flags, but for those set at this instant (04 R125, R126). -/
def Bay.consumed (y : Bay) (w : BitVec 256) : Bay :=
  { y with flags := clearFlags y.flags (stWaits w) ||| y.flagsKept, flagsKept := 0 }

/-- The bay once its stroke has started as `r` at time `now` (05 R137). -/
def Bay.started (y : Bay) (w : BitVec 256) (r : Running) (now : Nat) : Bay :=
  { y.consumed w with seq := { y.seq with cur := some { r with begun := now }, served := 0 } }

theorem Bay.flag_started (y : Bay) (w : BitVec 256) (r : Running) (now : Nat) {i : Nat} (hi : i < 256) :
    (y.started w r now).flag i = ((y.flag i && !(stWaits w).contains i) || y.flagsKept.getLsbD i) := by
  rw [Bay.flag, Bay.started, Bay.consumed, BitVec.getLsbD_or, getLsbD_clearFlags _ _ hi, Bay.flag]

/-- A start changes its bay, and then issues the stroke's panel operations and row accesses. -/
theorem startStroke_eq (b : Nat) (w : BitVec 256) (watch : Bool) : ∃ drain, ∃ u : State,
    let r := startParts (s.bay b).seq w (s.bay b).sp (s.bay b).segMask drain watch
    s.startStroke b w watch = u.issuePanels b w r ∧ u.bay b = (s.bay b).started w r s.now ∧ (∀ c, c ≠ b → u.bay c = s.bay c) ∧
      u.panels = s.panels := by
  let s1 := s.modBay b (·.consumed w)
  let r := startParts (s.bay b).seq w (s.bay b).sp (s.bay b).segMask (s1.capture b w) watch
  have h1 : s1.bay b = (s.bay b).consumed w := by rw [State.bay_modBay, if_pos rfl]
  refine ⟨s1.capture b w, s1.setBay b ((s.bay b).started w r s.now), ?_, ?_, fun c hc => ?_, rfl⟩
  · have hstart : s.startStroke b w watch =
        let y := s1.bay b
        let r := startParts y.seq w y.sp y.segMask (s1.capture b w) watch
        (s1.setBay b { y with seq := { y.seq with cur := some { r with begun := s.now }, served := 0 } }).issuePanels b w r := rfl
    rw [hstart, h1]
    rfl
  · rw [State.bay_setBay, if_pos rfl]
  · rw [State.bay_setBay, if_neg hc, State.bay_modBay, if_neg hc]

/-! ### STROKE_START (05 R137, R152; 04 R127) -/

/-- The stroke `w` is next at its boundary: it halts the bay, waits, is held, or starts. -/
def State.tryStroke (s : State) (b : Nat) (w : BitVec 256) (watch : Bool) : State :=
  match (s.bay b).outOfBounds w with
  | some (k, i) => s.haltBay b k i
  | none =>
    if !(stWaits w).all (s.bay b).flag then s
    else if (s.bay b).held w then s.intrude 4
    else s.startStroke b w watch

/-- An audit stroke apart, the stroke that is next starts as it stands. -/
theorem strokeStart_eq {s : State} {b : BayIx} {prog : Nat} {w : BitVec 256} (hprog : (s.bay b).seq.prog = some prog)
    (hrun : (s.bay b).seq.running = true) (hhalt : (s.bay b).seq.halted = false) (hcur : (s.bay b).seq.cur = none)
    (hskip : (s.bay b).skipHold = false) (hw : (s.bay b).seq.strokes[(s.bay b).seq.pc]? = some w) (haudit : stAudit w = false) (t : Nat) :
    ∃ watch, exec (.strokeStart t b []) s = .next (((s.tick t).modBay b id).tryStroke b w watch) := by
  have hbay : ((s.tick t).modBay b fun y => y.upset []).bay b = s.bay b := by
    rw [State.bay_modBay, if_pos rfl]
    rfl
  have hbay' : ((s.tick t).modBay b id).bay b = s.bay b := hbay
  refine ⟨(s.bay b).watches.any fun x => x.stroke == (s.bay b).seq.pc && x.gen == s.gen, ?_⟩
  rw [exec_strokeStart, execStrokeStart, State.tryStroke, hbay']
  simp only [hbay, hprog, hrun, hhalt, hcur, hskip, hw, haudit, Bool.not_true, Option.isSome_none, Bool.or_self, Bool.false_eq_true,
    if_false, Bool.false_and]
  rfl

end Sys2Proof.Machine

namespace Sys2Proof

open Machine

/-- Settles O21, by the case of STROKE_START: a halt sets HALTED and BOUND_ERR, a wait and a hold leave the bay as it is, and a start
changes its own bay and the panels it issues operations to. -/
theorem strokesStartOnTheirWaitFlags : Obligations.StrokesStartOnTheirWaitFlags := by
  intro t prog b w s y hprog hrun hhalt hcur hskip hw haudit
  obtain ⟨watch, hexec⟩ := strokeStart_eq hprog hrun hhalt hcur hskip hw haudit t
  obtain ⟨s', hs'⟩ : ∃ s', s' = (s.tick t).modBay b id := ⟨_, rfl⟩
  have hbay (c : Nat) : s'.bay c = s.bay c := by
    rw [hs', State.bay_modBay]
    split
    · subst c
      rfl
    · rfl
  have hbayb : s'.bay b = y := hbay b
  have hpanels : s'.panels = s.panels := by rw [hs']; rfl
  rw [← hs', State.tryStroke, hbayb] at hexec
  refine ⟨fun e hout hstop hplans => ?_, fun hout hwaits => ?_, fun hout hwaits hheld => ?_, fun hout hwaits hheld => ?_⟩
  all_goals rw [hout] at hexec
  · exact next_of_eq hexec (haltBay_halts s' _ _ (by rw [hbayb]; exact hstop) (by rw [hs']; exact hplans))
  · refine next_of_eq (hexec.trans (congrArg _ (if_pos (by rw [hwaits]; rfl)))) ⟨hbayb, hpanels, by rw [hs']; rfl⟩
  · rw [hwaits, hheld] at hexec
    refine next_of_eq hexec ⟨hbayb, hpanels, ?_⟩
    rw [hs']
    exact List.mem_append_right _ (List.mem_singleton.2 rfl)
  · rw [hwaits, hheld] at hexec
    obtain ⟨drain, v, heq, hv, hothers, hvpanels⟩ := startStroke_eq s' b w watch
    rw [hbayb] at heq hv
    refine next_of_eq (hexec.trans (congrArg _ heq)) ⟨?_, fun i hi => ?_, ?_, ?_, ?_, ?_, fun c hc => ?_, fun hkind p hp => ?_⟩
    · exact ⟨_, by rw [issuePanels_bay, hv]; rfl, rfl, rfl, rfl, rfl, rfl, rfl⟩
    · rw [issuePanels_bay, hv, Bay.flag_started _ _ _ _ hi]
    · rw [issuePanels_bay, hv]; rfl
    · rw [issuePanels_bay, hv]; rfl
    · rw [issuePanels_bay, hv]; rfl
    · rw [issuePanels_bay, hv]; rfl
    · rw [issuePanels_bay, hothers c hc, hbay]
    · rw [issuePanels_ops _ hkind]
      have hcells (k : Nat) : (v.panel k).cells = (s.panel k).cells := by rw [panel_congr (hvpanels.trans hpanels)]
      obtain ⟨hop, hsame⟩ := issueAll_issued s b { w2 := w.extractLsb' 64 32, desc := teDesc ((v.bay b).seq.tensor (sw w 3 0 10)) } hp (hcells _)
      exact ⟨_, hop, rfl, rfl, hsame⟩

end Sys2Proof
end

section
/-! SUPPORT. What reaches a bay by its router's local port: the gate, stale messages, and a firmware message in form (04 R130; 06 R189, R190, R428). -/

namespace Sys2Proof.Machine

variable (s : State)

/-! ### The local port (06 R189) -/

/-- The state once a line on this VC has come from outside the modelled mesh: the port it came by is noted. -/
def State.cameBy (s : State) (b vc : Nat) : State := s.modRtr b fun r => { r with localFrom := mset 4 r.localFrom vc 4 }

@[simp] theorem cameBy_localClosed (b vc : Nat) : (s.cameBy b vc).localClosed b = s.localClosed b := by
  simp only [State.localClosed, State.cameBy, State.rtr_modRtr, if_true]

/-- Every line of the message has kind 0, the stream and the generation, and comes on VC2 or VC3 (06 R428). -/
def InForm (stream : Nat) (g : BitVec 8) (ms : List MLine) : Prop :=
  ∀ m ∈ ms, hKind m.hdr = 0 ∧ hStream m.hdr = stream ∧ 2 ≤ hVc m.hdr ∧ hGen m.hdr = g

section
variable {s} {b : Nat} {m : MLine} (hfree : mget none (s.rtr b).localIn (hVc m.hdr) = none)
include hfree

theorem takeLocal_free : s.takeLocal b m = some (s.cameBy b (hVc m.hdr)) := by
  rw [State.takeLocal, hfree]
  rfl

variable (hopen : s.localClosed b = false)
include hopen

theorem localArrive_stale (hgen : hGen m.hdr ≠ s.gen) (src : Nat) :
    s.localArrive b src m = (s.cameBy b (hVc m.hdr)).dropStale b (hGen m.hdr) src := by
  have hgate : (s.cameBy b (hVc m.hdr)).localGate b src m.hdr = .error ((s.cameBy b (hVc m.hdr)).dropStale b (hGen m.hdr) src) := by
    rw [State.localGate, cameBy_localClosed, hopen, if_neg Bool.false_ne_true]
    exact if_pos hgen
  rw [State.localArrive, takeLocal_free hfree]
  simp only [hgate]

theorem localArrive_current (hgen : hGen m.hdr = s.gen) (hheld : s.heldInReset = false) {src : Nat} {u : State}
    (hline : (s.cameBy b (hVc m.hdr)).localLine b src m = some u) : s.localArrive b src m = u := by
  have hgate : (s.cameBy b (hVc m.hdr)).localGate b src m.hdr = .ok (s.cameBy b (hVc m.hdr)) := by
    rw [State.localGate, cameBy_localClosed, hopen, if_neg Bool.false_ne_true]
    exact if_neg (not_not.2 hgen)
  have hreset : (s.cameBy b (hVc m.hdr)).heldInReset = false := hheld
  rw [State.localArrive, takeLocal_free hfree]
  simp only [hgate, hreset, hline, Bool.false_eq_true, if_false, Option.getD_some]

theorem messageComes_eq (hheld : s.heldInReset = false) {stream : Nat} {g : BitVec 8} {ms : List MLine} (hform : InForm stream g (m :: ms)) (src : Nat) :
    s.messageComes b src stream (m :: ms) =
      if g ≠ s.gen then (m :: ms).foldl (fun s x => s.dropStale b (hGen x.hdr) src) (s.cameBy b (hVc m.hdr))
      else (s.cameBy b (hVc m.hdr)).fwMessage b stream (m :: ms) := by
  have hall : ((m :: ms).all fun x => hKind x.hdr == 0 && hStream x.hdr == stream && decide (2 ≤ hVc x.hdr)) = true :=
    List.all_eq_true.2 fun x hx => by
      obtain ⟨hkind, hstream, hvc, -⟩ := hform x hx
      simp [hkind, hstream, hvc]
  obtain ⟨-, -, -, hgen⟩ := hform m (.head _)
  have hnow : (s.cameBy b (hVc m.hdr)).gen = s.gen := rfl
  rw [State.messageComes, hall, hheld, takeLocal_free hfree]
  simp only [Bool.not_true, Bool.or_self, Bool.false_eq_true, if_false, cameBy_localClosed, hopen, hgen, hnow]

end

/-- A line that joins no firmware message is handled at the gate alone (06 R189). -/
theorem dataLineAccept_eq {s : State} {b : BayIx} {m : MLine} {t src : Nat} {u : State} (hu : (s.tick t).localArrive b src m = u)
    (hasm : (u.bay b).asm = (s.bay b).asm) : exec (.dataLineAccept t src b m) s = .next u := by
  rw [exec_dataLineAccept, execDataLineAccept]
  rw [hu]
  exact congrArg _ (if_pos (congrArg (mget [] · _) hasm))

/-! ### Stale messages (04 R130) -/

/-- Since `s` the bay has dropped `n` lines of generation `gen`: they are counted, and the first is logged if STALE_DROP was 0. -/
def State.Dropped (u s : State) (b n : Nat) (gen : BitVec 8) (src : Nat) : Prop :=
  u.bay b = { s.bay b with staleDrop := true, staleCnt := min ((s.bay b).staleCnt + n) 0xFFFF } ∧ (∀ d : Nat, d ≠ b → u.bay d = s.bay d) ∧
    u.panels = s.panels ∧
    if (s.bay b).staleDrop = false ∧ s.novkoUp = true then
      ∃ r, u.snags = r :: s.snags ∧ r.code = 0x2030 ∧ r.sev = 0 ∧ r.args.take 3 = [gen.toNat, s.gen.toNat, src]
    else u.snags = s.snags

/-- The bay's part of a drop. -/
def Bay.dropped (y : Bay) : Bay := { y with staleDrop := true, staleCnt := satAdd y.staleCnt 1 0xFFFF }

theorem dropStale_dropped (b : Nat) (gen : BitVec 8) (src : Nat) : (s.dropStale b gen src).Dropped s b 1 gen src := by
  have hbay (c : Nat) : (s.dropStale b gen src).bay c = if c = b then (s.bay b).dropped else s.bay c := bay_stickyBay s b _ _ _ _ _ c
  refine ⟨(hbay b).trans (if_pos rfl), fun d hd => (hbay d).trans (if_neg hd), stickyBay_panels _ _ _ _ _ _ _, ?_⟩
  by_cases hwas : (s.bay b).staleDrop = true
  · rw [if_neg (by simp [hwas]), State.dropStale, hwas]
    rfl
  · have hfirst := Bool.eq_false_iff.2 hwas
    have hsnag : s.dropStale b gen src = (s.modBay b Bay.dropped).snag 0x2030 0 (dieOf b) (bayOf b)
        [gen.toNat, s.gen.toNat, src, (s.bay b).strokeCnt] := by
      rw [State.dropStale, hfirst]
      rfl
    have hlogged := snag_logged (s.modBay b Bay.dropped) 0x2030 0 (dieOf b) (bayOf b) [gen.toNat, s.gen.toNat, src, (s.bay b).strokeCnt]
    rw [← hsnag] at hlogged
    simp only [hfirst, true_and]
    split
    · obtain ⟨r, hr, hcode, hsev, hargs⟩ := (if_pos ‹_›).mp hlogged
      exact ⟨r, hr, hcode, hsev, by rw [hargs]; rfl⟩
    · exact (if_neg ‹_›).mp hlogged

/-- A further drop is counted only. -/
theorem State.Dropped.again {s u : State} {b n : Nat} {gen : BitVec 8} {src : Nat} (h : u.Dropped s b n gen src) (g : BitVec 8) :
    (u.dropStale b g src).Dropped s b (n + 1) gen src := by
  obtain ⟨hbay, hothers, hpanels, hsnags⟩ := h
  have hdrop : u.dropStale b g src = u.modBay b Bay.dropped := by
    rw [State.dropStale, hbay]
    rfl
  rw [hdrop]
  refine ⟨?_, fun d hd => ?_, hpanels, hsnags⟩
  · rw [State.bay_modBay, if_pos rfl, hbay, Bay.dropped]
    simp only [satAdd]
    congr 1
    omega
  · rw [State.bay_modBay, if_neg hd, hothers d hd]

theorem State.Dropped.asm {s u : State} {b n : Nat} {gen : BitVec 8} {src : Nat} (h : u.Dropped s b n gen src) :
    (u.bay b).asm = (s.bay b).asm := by
  obtain ⟨hbay, -⟩ := h
  rw [hbay]

/-- Each line of a stale message of several lines counts (06 R189). -/
theorem dropStale_foldl (b : Nat) (g : BitVec 8) (src : Nat) (m : MLine) (hm : hGen m.hdr = g) (ms : List MLine) :
    ((m :: ms).foldl (fun s x => s.dropStale b (hGen x.hdr) src) s).Dropped s b (ms.length + 1) g src := by
  have key (ms : List MLine) {u : State} {n : Nat} (hu : u.Dropped s b n g src) :
      (ms.foldl (fun s x => s.dropStale b (hGen x.hdr) src) u).Dropped s b (ms.length + n) g src := by
    induction ms generalizing u n with
    | nil => simpa using hu
    | cons x ms ih =>
      rw [List.foldl_cons, List.length_cons, Nat.add_right_comm, Nat.add_assoc]
      exact ih (hu.again _)
  subst hm
  exact key ms (dropStale_dropped s b _ src)

theorem ctlGate_stale {b : Nat} (hopen : s.localClosed b = false) (hheld : s.heldInReset = false) {gen : BitVec 8} (hgen : gen ≠ s.gen) (src : Nat) :
    s.ctlGate b src gen = .error (s.dropStale b gen src) := by
  rw [State.ctlGate, hheld, hopen]
  simp only [Bool.false_eq_true, if_false]
  exact if_pos hgen

end Sys2Proof.Machine

namespace Sys2Proof

open Machine

/-- Settles O25: at the gate every line of another generation is dropped, and the drop touches nothing but its bay's count and the log. -/
theorem baysDropStaleMessages : Obligations.BaysDropStaleMessages := by
  intro t src layer stroke b g prog slots es h ms s hopen hheld y form dropped
  have hgated (hgen : hGen h.hdr ≠ s.gen) (hfree : mget none (s.rtr b).localIn (hVc h.hdr) = none) :
      ∃ u, (s.tick t).localArrive b src h = u ∧ u.Dropped s b 1 (hGen h.hdr) src :=
    ⟨_, localArrive_stale (s := s.tick t) hfree hopen hgen src, dropStale_dropped _ _ _ _⟩
  have hmessage (hgen : hGen h.hdr ≠ s.gen) (hfree : mget none (s.rtr b).localIn (hVc h.hdr) = none) {stream : Nat} {l : List MLine}
      (hform : form stream (h :: l)) {c : Instr} (hc : exec c s = .next ((s.tick t).messageComes b src stream (h :: l))) :
      dropped (l.length + 1) (hGen h.hdr) c := by
    have hcomes := messageComes_eq (s := s.tick t) hfree hopen hheld hform src
    exact next_of_eq (hc.trans (congrArg _ (hcomes.trans (if_pos hgen)))) (dropStale_foldl ((s.tick t).cameBy b (hVc h.hdr)) b _ src h rfl l)
  refine ⟨fun hgen hfree => ⟨⟨?_, fun hkind => ?_, fun hkind hlo hhi hvc => ?_⟩, fun hform => ?_, fun hform => ?_, fun hform => ?_,
    fun hform => ?_⟩, fun hgen c hc => ?_⟩
  · obtain ⟨u, hu, hdrop⟩ := hgated hgen hfree
    exact next_of_eq (dataLineAccept_eq hu hdrop.asm) hdrop
  · obtain ⟨u, hu, hdrop⟩ := hgated hgen hfree
    refine next_of_eq ?_ hdrop
    rw [exec_flagSetMessage, execFlagSetMessage, ← hu]
    exact congrArg _ (if_pos hkind)
  · obtain ⟨u, hu, hdrop⟩ := hgated hgen hfree
    refine next_of_eq ?_ hdrop
    rw [exec_mgmtQueuePush, execMgmtQueuePush, ← hu]
    exact congrArg _ (if_pos ⟨hkind, hlo, hhi, hvc⟩)
  · exact hmessage hgen hfree hform (exec_scratchpadWriteMessage s t src b _)
  · exact hmessage hgen hfree hform (exec_weightRow s t src b _)
  · exact hmessage hgen hfree hform (exec_scratchpadReadMessage s t src b h)
  · exact hmessage hgen hfree hform (exec_rowReadback s t src b h)
  · have hgate := ctlGate_stale (s.tick t) hopen hheld hgen src
    refine next_of_eq (u := (s.tick t).dropStale b g src) ?_ (dropStale_dropped (s.tick t) b g src)
    simp only [List.mem_cons, List.not_mem_nil, or_false] at hc
    rcases hc with rfl | rfl | rfl | rfl
    · rw [exec_stepRelease, execStepRelease]
      simp only [hgate]
    · rw [exec_swapArm, execSwapArm]
      simp only [hgate]
    · rw [exec_swapFlip, execSwapFlip]
      simp only [hgate]
    · rw [exec_auditArm, execAuditArm]
      simp only [hgate]

end Sys2Proof
end

section
/-! SUPPORT. What a bay does with the lines of the current generation: firmware messages queue, pushes and flag sets act on arrival, data lines
enter their ejection buffer, and queued accesses are served at a boundary (04 R111, R125, R126, R128, R129; 06 R189, R190, R428; 09 R265). -/

namespace Sys2Proof.Machine

variable (s : State)

/-! ### Management accesses at a boundary (04 R111) -/

/-- The bay idles at a boundary with nothing staged for it, and serves one access there. -/
def Bay.ServesOne (y : Bay) : Prop :=
  y.seq.cur = none ∧ y.seq.running = false ∧ y.flipsDue = 0 ∧ y.budgetStg = none ∧ y.autoIncStg = none ∧ y.spAddrStg = none ∧ y.budget = 1

/-- The bay once the access at the front of its queue, before `q`, is taken up. -/
def Bay.takeMgmt (y : Bay) (q : List Mgmt) : Bay := { y with mgmt := q, seq := { y.seq with served := y.seq.served + 1 } }

theorem bay_boundary_settled {b : Nat} (h : (s.bay b).ServesOne) : (s.boundary b).bay b = s.bay b := by
  obtain ⟨-, -, hflips, hbudget, hauto, haddr, -⟩ := h
  rw [bay_boundary, Bay.applyStg, hbudget, hauto, haddr]
  simp only [Option.getD_none]
  rw [← hflips, ← hbudget, ← hauto, ← haddr]

theorem Bay.ServesOne.budgetNow {y : Bay} (h : y.ServesOne) : y.startable = false ∧ y.budgetNow = 1 := by
  obtain ⟨-, hrun, -, -, -, -, hbudget⟩ := h
  have hidle : y.startable = false := by simp [Bay.startable, hrun]
  exact ⟨hidle, by simp [Bay.budgetNow, hidle, hbudget]⟩

theorem mgmtAccessServe_one {s : State} {b : BayIx} {m : Mgmt} {q : List Mgmt} (h : (s.bay b).ServesOne) (hmgmt : (s.bay b).mgmt = m :: q)
    (hwait : (s.bay b).mgmtWaits m = false) (t : Nat) :
    ∃ u : State, u.bay b = (s.bay b).takeMgmt q ∧ exec (.mgmtAccessServe t b) s = .next (u.serveMgmt b m) := by
  obtain ⟨hidle, hbudget⟩ := h.budgetNow
  obtain ⟨hcur, -⟩ := id h
  have hbay : ((s.tick t).boundary b).bay b = s.bay b := bay_boundary_settled (s.tick t) h
  have hat : ((s.tick t).bay b).atBoundary = true := by rw [State.bay_tick, Bay.atBoundary, hcur]; rfl
  refine ⟨((s.tick t).boundary b).modBay b fun y => y.takeMgmt q, by rw [State.bay_modBay, if_pos rfl, hbay], ?_⟩
  rw [exec_mgmtAccessServe, execMgmtAccessServe]
  simp only [hat, if_true, hbay, hidle, Bool.and_false, Bool.false_eq_true, if_false, hbudget]
  rw [State.serveUpTo, hbay, hmgmt]
  simp only [hwait, Bool.false_eq_true, if_false]
  rfl

/-- A line served to a segment that is ON is stored as it came (06 R177, R428). -/
theorem serveMgmt_write {b l : Nat} (hon : (s.bay b).lineOn l = true) (x : Line) :
    (s.serveMgmt b (.write l x)).bay b = { s.bay b with sp := mset {} (s.bay b).sp l x } := by
  have hline : 64 * l / 64 = l := by omega
  simp only [State.serveMgmt, hline, hon, if_true, State.bay_modBay, Bay.storeLine]

/-! ### Firmware messages in form (06 R428; 09 R265) -/

theorem writeMessage_two {b l : Nat} {h l0 l1 : MLine} (hl : headBytes h 0 2 = l) (hn : headBytes h 2 2 = 2) (hzero : headBytes h 4 60 = 0)
    (hfit : l + 2 ≤ 6144) : s.writeMessage b [h, l0, l1] = s.queueMgmt b [.head, .write l l0.line, .write (l + 1) l1.line] := by
  unfold State.writeMessage
  simp only [hl, hn, hzero]
  exact if_neg (by simp; omega)

theorem readMessage_two {b l : Nat} {h : MLine} (hl : headBytes h 0 2 = l) (hn : headBytes h 2 2 = 2) (hzero : headBytes h 4 4 = 0)
    (hpad : headBytes h 16 48 = 0) (hfit : l + 2 ≤ 6144) : s.readMessage b [h] = s.queueMgmt b [.head,
      .read l (BitVec.ofNat 64 (headBytes h 8 8)) false, .read (l + 1) (BitVec.ofNat 64 (headBytes h 8 8)) true] := by
  unfold State.readMessage
  simp only [hl, hn, hzero, hpad]
  exact if_neg (by simp; omega)

/-- The bank that a row message names. -/
def bankNamed (h : MLine) : BankSel := if headBytes h 1 1 = 0 then .a else .b

theorem rowMessage_inForm {b : Nat} {h : MLine} (hpanel : headBytes h 0 1 < 32) (hbank : headBytes h 1 1 < 2) (hrow : headBytes h 2 2 < 1024)
    (hzero : headBytes h 4 4 = 0) (hpad : headBytes h 16 48 = 0) : s.rowMessage b [h] = s.queueMgmt b [.rowRead (headBytes h 0 1)
      { bank := bankNamed h, row := headBytes h 2 2, data := none, src := .readback (BitVec.ofNat 64 (headBytes h 8 8)) }] := by
  unfold State.rowMessage
  exact if_neg (by simp [hzero, hpad]; omega)

theorem ofNat_append {n m : Nat} (x : BitVec n) (y : BitVec m) : BitVec.ofNat (n + m) (y.toNat + 2 ^ m * x.toNat) = x ++ y := by
  refine BitVec.eq_of_toNat_eq ?_
  rw [BitVec.toNat_append, BitVec.toNat_ofNat, ← Nat.shiftLeft_add_eq_or_of_lt y.isLt, Nat.shiftLeft_eq, Nat.mul_comm, Nat.add_comm]
  exact Nat.mod_eq_of_lt (by have := (x ++ y).isLt; rw [BitVec.toNat_append, ← Nat.shiftLeft_add_eq_or_of_lt y.isLt, Nat.shiftLeft_eq] at this; exact this)

theorem weightMessage_inForm {b : Nat} {h l0 l1 : MLine} (hpanel : headBytes h 0 1 < 32) (hbank : headBytes h 1 1 < 2)
    (hrow : headBytes h 2 2 < 1024) (hzero : headBytes h 4 60 = 0) (h0 : l0.line.flips = 0) (h1 : l1.line.flips = 0) :
    s.weightMessage b [h, l0, l1] = s.queueMgmt b [.head, .rowData, .rowWrite (headBytes h 0 1)
      { bank := bankNamed h, row := headBytes h 2 2, data := some (l1.line.data ++ l0.line.data), src := .message (headBytes h 2 2 == 1023) }] := by
  have hvalue (x : Line) (hx : x.flips = 0) : x.value s.freeVal = x.data := if_pos hx
  unfold State.weightMessage
  refine (if_neg (by simp [hzero]; omega)).trans ?_
  simp only [hvalue _ h0, hvalue _ h1]
  rw [ofNat_append (n := 512) (m := 512)]
  rfl

theorem bay_queueMgmt (b : Nat) (l : List Mgmt) : (s.queueMgmt b l).bay b = { s.bay b with mgmt := (s.bay b).mgmt ++ l } := by
  rw [State.queueMgmt, State.bay_modBay, if_pos rfl]

/-! ### Lines at the local port (06 R189) -/

section
variable {s} {b : Nat} {m : MLine} (src : Nat)

theorem localLine_flag (hkind : hKind m.hdr = 1) : ∃ from_ coord, s.localLine b src m = some (s.setFlag b (hStream m.hdr % 256) from_ coord) := by
  unfold State.localLine
  simp only [hkind, if_true]
  split <;> exact ⟨_, _, rfl⟩

theorem localLine_push (hkind : hKind m.hdr = 0) (hlo : 0xF00 ≤ hStream m.hdr) (hhi : hStream m.hdr < 0xF20) (hvc : 2 ≤ hVc m.hdr) :
    s.localLine b src m = some (s.mgmtPush b src m) := by
  unfold State.localLine
  simp [hkind, hlo, hhi, show ¬hVc m.hdr < 2 by omega]

theorem localLine_data (hkind : hKind m.hdr = 0) (hstream : hStream m.hdr < 0xF00)
    (hentry : (s.bay b).seq.receives (hStream m.hdr) (hVc m.hdr) = true) (hroom : (mget [] (s.bay b).eject (hVc m.hdr)).length < 8) :
    s.localLine b src m = some (s.modBay b fun y =>
      { y with eject := mset [] y.eject (hVc m.hdr) (mget [] (s.bay b).eject (hVc m.hdr) ++ [m]) }) := by
  unfold State.localLine
  have hlow : ¬0xF00 ≤ hStream m.hdr := by omega
  have hnone : ¬(hStream m.hdr = 0xF20 ∨ hStream m.hdr = 0xF21 ∨ hStream m.hdr = 0xFE0 ∨ hStream m.hdr = 0xFE1) := by omega
  simp [hkind, hlow, hnone, hentry, hroom]

end

/-- A set leaves its flag at 1, and one of a flag that is 1 already and that no start clears at this instant overruns (04 R125, R126). -/
theorem setFlag_flag {b f : Nat} (hf : f < 256) (from_ coord : Nat) : ((s.setFlag b f from_ coord).bay b).flag f = true ∧
    ((s.setFlag b f from_ coord).bay b).flagOvr = ((s.bay b).flagOvr || ((s.bay b).flag f && !s.clearsNow b f)) := by
  unfold State.setFlag
  dsimp only
  rcases hset : (s.bay b).flag f with _ | _
  · simp only [Bool.false_and, Bool.false_eq_true, if_false, State.bay_modBay, if_true, Bool.or_false, and_true]
    rw [Bay.flag, getLsbD_setBit _ hf]
    simp
  · rcases s.clearsNow b f with _ | _
    · simp only [Bool.true_and, Bool.false_eq_true, if_false, if_true, bay_stickyBay, Bool.not_false, Bool.or_true, and_true]
      exact hset
    · simp only [Bool.true_and, if_true, State.bay_modBay, Bool.not_true, Bool.or_false, and_true]
      exact hset

/-- The place of a management push: behind all that arrive with it but for later management pushes (04 R129). -/
theorem push?_mgmt {q : Queue} {now pops : Nat} (hroom : q.items.length < 16 + pops) (x : Line) : ∃ q', q.push? x .mgmt now pops = some q' ∧
    let n := q.items.length - if q.at_ = now then (q.fresh.filter (6 < ·)).length else 0
    q'.items = q.items.take n ++ x :: q.items.drop n := by
  refine ⟨_, if_pos hroom, ?_⟩
  dsimp only
  split <;> rfl

theorem Bay.queue_setQueue (y : Bay) (i : Nat) (q : Queue) (j : Nat) : (y.setQueue i q).queue j = if j = i then q else y.queue j :=
  mget_mset _ _ _ _ _

theorem mgmtPush_room {b i : Nat} {m : MLine} (hi : hStream m.hdr - 0xF00 = i) (hroom : ((s.bay b).queue i).items.length < 16) (src : Nat) :
    let q := (s.bay b).queue i
    let n := q.items.length - if q.at_ = s.now then (q.fresh.filter (6 < ·)).length else 0
    (((s.mgmtPush b src m).bay b).queue i).items = q.items.take n ++ m.line :: q.items.drop n ∧
      ∀ j, j ≠ i → ((s.mgmtPush b src m).bay b).queue j = (s.bay b).queue j := by
  obtain ⟨q', hpush, hitems⟩ := push?_mgmt (q := (s.bay b).queue i) (now := s.now) (pops := s.popsNow b i) (by omega) m.line
  have hbay : (s.mgmtPush b src m).bay b = (s.bay b).setQueue i q' := by
    unfold State.mgmtPush
    simp only [hi, hpush, State.bay_setBay, if_true]
  rw [hbay]
  exact ⟨by rw [Bay.queue_setQueue, if_pos rfl, hitems], fun j hj => by rw [Bay.queue_setQueue, if_neg hj]⟩

theorem mgmtPush_full {b i : Nat} {m : MLine} (hi : hStream m.hdr - 0xF00 = i) (hfull : 16 + s.popsNow b i ≤ ((s.bay b).queue i).items.length)
    (src : Nat) : ((s.mgmtPush b src m).bay b).queueOvr = true ∧ (((s.mgmtPush b src m).bay b).queue i).items = ((s.bay b).queue i).items := by
  have hpush : ((s.bay b).queue i).push? m.line .mgmt s.now (s.popsNow b i) = none := if_neg (by omega)
  have hbay : (s.mgmtPush b src m).bay b = { (s.bay b).setQueue i { (s.bay b).queue i with ovr := true } with queueOvr := true } := by
    unfold State.mgmtPush
    simp only [hi, hpush, bay_stickyBay, if_true]
  rw [hbay]
  refine ⟨rfl, ?_⟩
  show (mget ({} : Queue) (mset {} (s.bay b).queues i _) i).items = _
  rw [mget_mset_same]

end Sys2Proof.Machine

namespace Sys2Proof

open Machine

/-- Settles O24: a line of the current generation passes the gate and acts as its stream says; a queued access is served at a boundary. -/
theorem messagesReachTheBay : Obligations.MessagesReachTheBay := by
  intro t src b h l0 l1 s hopen hheld y form bank queued
  have hqueued {stream : Nat} {ms : List MLine} {c : Instr} {l : List Mgmt} (hfree : mget none (s.rtr b).localIn (hVc h.hdr) = none)
      (hform : form stream (h :: ms)) (hc : exec c s = .next ((s.tick t).messageComes b src stream (h :: ms)))
      (hmessage : ∀ u : State, u.fwMessage b stream (h :: ms) = u.queueMgmt b l) : queued c l := by
    have hcomes := messageComes_eq (s := s.tick t) hfree hopen hheld hform src
    exact next_of_eq (hc.trans (congrArg _ ((hcomes.trans (if_neg (not_not.2 rfl))).trans (hmessage _)))) (bay_queueMgmt _ b l)
  have harrive {u : State} (hfree : mget none (s.rtr b).localIn (hVc h.hdr) = none) (hgen : hGen h.hdr = s.gen)
      (hline : ((s.tick t).cameBy b (hVc h.hdr)).localLine b src h = some u) : (s.tick t).localArrive b src h = u :=
    localArrive_current (s := s.tick t) hfree hopen hgen hheld hline
  have hpush {i : Nat} (hfree : mget none (s.rtr b).localIn (hVc h.hdr) = none) (hi : i < 32) (hform : form (0xF00 + i) [h]) :
      exec (.mgmtQueuePush t src b h) s = .next (((s.tick t).cameBy b (hVc h.hdr)).mgmtPush b src h) ∧ hStream h.hdr - 0xF00 = i := by
    obtain ⟨hkind, hstream, hvc, hgen⟩ := hform h (.head _)
    have hlo : 0xF00 ≤ hStream h.hdr := by omega
    have hhi : hStream h.hdr < 0xF20 := by omega
    refine ⟨?_, by omega⟩
    rw [exec_mgmtQueuePush, execMgmtQueuePush, ← harrive hfree hgen (localLine_push src hkind hlo hhi hvc)]
    exact congrArg _ (if_pos ⟨hkind, hlo, hhi, hvc⟩)
  refine ⟨fun l x q hcur hrun hflips hbudget hauto haddr hone hmgmt hon hwake => ?_, fun hfree => ⟨fun l hform hl hn hzero hfit => ?_,
    fun l hform hl hn hzero hpad hfit => ?_, fun hform hpanel hbank hrow hzero hpad => ?_, fun hform hpanel hbank hrow hzero h0 h1 => ?_,
    fun i hi hform hroom => ?_, fun i hi hform hfull => ?_, fun hkind hflag hgen => ?_, fun hkind hstream hgen hentry hroom => ?_⟩⟩
  · obtain ⟨u, hu, hexec⟩ := mgmtAccessServe_one ⟨hcur, hrun, hflips, hbudget, hauto, haddr, hone⟩ hmgmt hwake t
    have hwritten := serveMgmt_write (s := u) (b := b) (l := l) (by rw [hu]; exact hon) x
    rw [hu] at hwritten
    refine next_of_eq hexec ?_
    rw [hwritten]
    exact ⟨rfl, mget_mset_same l x, fun k hk => mget_mset_other hk x⟩
  · exact hqueued hfree hform (exec_scratchpadWriteMessage s t src b _) fun u => writeMessage_two u hl hn hzero hfit
  · exact hqueued hfree hform (exec_scratchpadReadMessage s t src b h) fun u => readMessage_two u hl hn hzero hpad hfit
  · exact hqueued hfree hform (exec_rowReadback s t src b h) fun u => rowMessage_inForm u hpanel hbank hrow hzero hpad
  · exact hqueued hfree hform (exec_weightRow s t src b _) fun u => weightMessage_inForm u hpanel hbank hrow hzero h0 h1
  · obtain ⟨hexec, hnum⟩ := hpush hfree hi hform
    exact next_of_eq hexec (mgmtPush_room ((s.tick t).cameBy b (hVc h.hdr)) hnum hroom src)
  · obtain ⟨hexec, hnum⟩ := hpush hfree hi hform
    exact next_of_eq hexec (mgmtPush_full ((s.tick t).cameBy b (hVc h.hdr)) hnum hfull src)
  · obtain ⟨from_, coord, hline⟩ := localLine_flag (s := (s.tick t).cameBy b (hVc h.hdr)) (b := b) src hkind
    rw [Nat.mod_eq_of_lt hflag] at hline
    refine next_of_eq ?_ (setFlag_flag ((s.tick t).cameBy b (hVc h.hdr)) hflag from_ coord)
    rw [exec_flagSetMessage, execFlagSetMessage, ← harrive hfree hgen hline]
    exact congrArg _ (if_pos hkind)
  · have hline := localLine_data (s := (s.tick t).cameBy b (hVc h.hdr)) src hkind hstream hentry hroom
    refine next_of_eq (dataLineAccept_eq (harrive hfree hgen hline) ?_) ?_
    · rw [State.bay_modBay, if_pos rfl]
      rfl
    · rw [State.bay_modBay, if_pos rfl]
      exact mget_mset_same _ _

end Sys2Proof
end

section
/-! REFUTATIONS. Two statements that what happens within one instant contradicts (04 R125, R126, R128, R129). -/

namespace Sys2Proof
open Machine

/-- Refutes O23, at the overrun of a flag write: where a bay waits on flags 0 and 1 with flag 1 set, a write of 1s to both sets flag 0
first, and with that its last wait is satisfied; so the start that comes at this instant clears flag 1, whose set is kept and overruns
nothing. Before the write no start could clear flag 1, and the statement so has it overrun. -/
theorem not_baySegmentsAndRegisters : ¬ Obligations.BaySegmentsAndRegisters := by
  intro h
  let s : State :=
    { bays := [(0, { seq := { running := true, prog := some 0, strokes := [0x300] }, flags := 2 })], pending := [.strokeStart 0 0 []] }
  obtain ⟨-, -, -, -, -, -, ⟨u, hu, -, hovr⟩, -⟩ := h 0 0 0 3 none 0 s
  obtain rfl : (s.tick 0).writeFlags 0 0 3 = u := Host.Outcome.next.inj hu
  have hkept : (((s.tick 0).writeFlags 0 0 3).bay 0).flagOvr = false := by decide +kernel
  have hset : (3 : Word).getLsbD 1 = true ∧ (s.bay 0).flag 1 = true ∧ (s.tick 0).clearsNow 0 1 = false := by decide +kernel
  exact Bool.false_ne_true (hkept.symm.trans (hovr.2 (.inr ⟨1, by decide, hset⟩)))

/-- Refutes O31, at the place of pushed lines: two management pushes of this instant have been popped at it again, so the queue is empty
while it still counts two entries that a stroke's push goes before. Each line of a push of two is then put at the front, and the second
comes to stand before the first. -/
theorem not_transferRecordsMoveTheirLines : ¬ Obligations.TransferRecordsMoveTheirLines := by
  intro h
  let x : Xfer := { word := 2 + 2 ^ 12 }
  let r : Running := { word := 0, sp := true, snap := [(0, { data := 1 })], xfers := [x] }
  let s : State := { bays := [(0, { seq := { cur := some r }, queues := [(0, { fresh := [6, 6] })] })] }
  obtain ⟨-, hmoves⟩ := h 0 0 0 r x s rfl rfl rfl rfl (Nat.zero_le _)
  obtain ⟨-, -, hpush, -⟩ := hmoves (by decide +kernel)
  obtain ⟨u, hu, -, hinto⟩ := hpush (by decide +kernel)
  obtain ⟨v, hv, hitems⟩ : ∃ v, exec (.push 0 0 0) s = .next v ∧ ((v.bay 0).queue (xQueue x.word)).items = [{}, { data := 1 }] :=
    ⟨_, rfl, by decide +kernel⟩
  obtain rfl : v = u := Host.Outcome.next.inj (hv.symm.trans hu)
  have hdiffer : ([{}, { data := 1 }] : List Line) ≠ [{ data := 1 }, {}] := by decide +kernel
  exact hdiffer (hitems.symm.trans (hinto.trans (by decide +kernel)))

end Sys2Proof
end

section
/-! SUPPORT. What control messages do to their bay: releases, swap holds, LIVE at a boundary, and audit watches (05 R141; 09 R268; 13 R361). -/

namespace Sys2Proof.Machine

variable (s : State)

/-! ### The gate of a control message (06 R189) -/

theorem ctlGate_current {b : Nat} (hopen : s.localClosed b = false) (hheld : s.heldInReset = false) (src : Nat) :
    s.ctlGate b src s.gen = .ok s := by
  simp [State.ctlGate, hheld, hopen]

/-! ### Releases (05 R141) -/

/-- The bay once a release starts program `prog` at time `now`. -/
def Bay.begun (y : Bay) (now prog : Nat) (slots : List SlotEnt) : Bay :=
  { y with movedAt := now, seq := { y.seq with
    prog := some prog, pc := y.seq.entries.getD prog 0xFFFF, slots := slots, held := none, served := 0 } }

/-- A program with an entry starts there. -/
theorem beginProgram_used {b prog : Nat} (hentry : (s.bay b).seq.entries.getD prog 0xFFFF ≠ 0xFFFF) (slots : List SlotEnt) :
    s.beginProgram b prog slots = s.modBay b (·.begun s.now prog slots) := by
  have hpc : ((s.modBay b (·.begun s.now prog slots)).bay b).seq.pc = (s.bay b).seq.entries.getD prog 0xFFFF := by
    rw [State.bay_modBay, if_pos rfl, Bay.begun]
  exact if_neg (by rw [← hpc] at hentry; exact hentry)

/-! ### LIVE at a boundary (05 R172; 09 R268) -/

theorem pkey_inj {b p q : Nat} : pkey b p = pkey b q ↔ p = q := by
  unfold pkey
  omega

/-- One update of each panel with a key of the list: a panel that the update leaves as it is stays so. -/
theorem panel_foldl_modPanel_fixed {f : Panel → Panel} {k : Nat} (hfix : f (s.panel k) = s.panel k) (l : List Nat) :
    (l.foldl (fun s j => s.modPanel j f) s).panel k = s.panel k := by
  refine List.foldlRecOn l _ (motive := fun u : State => u.panel k = s.panel k) rfl fun u hu j _ => ?_
  rw [State.panel_modPanel]
  split
  · subst k
    rw [hu, hfix]
  · exact hu

/-- A list of different panels of a bay: each of them is updated once. -/
theorem panel_foldl_modPanel_pkey (f : Panel → Panel) (b p : Nat) {l : List Nat} (hl : l.Nodup) :
    (l.foldl (fun s q => s.modPanel (pkey b q) f) s).panel (pkey b p) = if p ∈ l then f (s.panel (pkey b p)) else s.panel (pkey b p) := by
  induction l generalizing s with
  | nil => rfl
  | cons q l ih =>
    obtain ⟨hq, hl⟩ := List.nodup_cons.1 hl
    rw [List.foldl_cons, ih _ hl, State.panel_modPanel]
    by_cases hpq : p = q
    · subst p
      simp [hq]
    · simp [hpq, pkey_inj]

theorem nodup_bitsOf {w : Nat} (v : BitVec w) (n : Nat) : (bitsOf v n).Nodup := List.nodup_range.filter _

theorem mem_bitsOf {w : Nat} {v : BitVec w} {n i : Nat} : i ∈ bitsOf v n ↔ i < n ∧ v.getLsbD i = true := by
  simp [bitsOf]

/-- At a boundary LIVE of a panel toggles where a flip of it is due; nothing else of it changes where no field waits. -/
theorem panel_boundary {b p : Nat} (hp : p < 32) (hstg : (s.panel (pkey b p)).stg = {}) : (s.boundary b).panel (pkey b p) =
    { s.panel (pkey b p) with live := (s.panel (pkey b p)).live ^^ (s.bay b).flipsDue.getLsbD p } := by
  have hwait : Panel.applyStg (s.panel (pkey b p)) = s.panel (pkey b p) := if_pos hstg
  have hkeys := panel_foldl_modPanel_fixed (s.modBay b fun y => { y.applyStg with flipsDue := 0 }) hwait (s.panelKeys b)
  refine (panel_foldl_modPanel_pkey _ (fun x => { x with live := !x.live }) b p (nodup_bitsOf (s.bay b).flipsDue 32)).trans ?_
  simp only [mem_bitsOf, hp, true_and]
  refine (congrArg (fun x : Panel => if (s.bay b).flipsDue.getLsbD p = true then { x with live := !x.live } else x) hkeys).trans ?_
  rcases (s.bay b).flipsDue.getLsbD p with _ | _
  · simp only [Bool.xor_false]; rfl
  · simp only [Bool.xor_true]; rfl

/-- Nothing waits for a boundary while a stroke is in flight. -/
theorem boundaryIf_busy {b : Nat} (h : (s.bay b).seq.cur.isSome = true) : s.boundaryIf b = s := by
  refine if_neg ?_
  rw [Bay.atBoundary, Option.isNone_eq_false_iff.2 h]
  exact Bool.false_ne_true

theorem boundaryIf_idle {b : Nat} (h : (s.bay b).seq.cur = none) : s.boundaryIf b = s.boundary b := by
  refine if_pos ?_
  rw [Bay.atBoundary, h]
  rfl

/-- A boundary, where there is one, leaves the swap holds alone. -/
theorem boundaryIf_holds (b : Nat) : ((s.boundaryIf b).bay b).holds = (s.bay b).holds := by
  unfold State.boundaryIf
  split
  · rw [bay_boundary]
    rfl
  · rfl

/-- The bay with the flips of the layer's panels due, and the layer's hold cleared (09 R268). -/
def Bay.flipLayer (y : Bay) (layer : Nat) : Bay :=
  { y with flipsDue := y.flipsDue ^^^ mget 0 y.holds layer, holds := mset 0 y.holds layer 0 }

/-! ### What a control message of the current generation does -/

section
variable {s} {b : BayIx} (hopen : s.localClosed b = false) (hheld : s.heldInReset = false) (t src : Nat)
include hopen hheld

theorem stepRelease_idle (hidle : (s.bay b).seq.running = false) (prog : Fin 16) (slots : List SlotEnt) :
    exec (.stepRelease t src b s.gen prog slots) s = .next (s.tick t) := by
  have hgate : (s.tick t).ctlGate b src s.gen = .ok (s.tick t) := ctlGate_current (s.tick t) hopen hheld src
  rw [exec_stepRelease, execStepRelease]
  simp [hgate, hidle]

section
variable (hrun : (s.bay b).seq.running = true) (hhalt : (s.bay b).seq.halted = false) (prog : Fin 16) (slots : List SlotEnt)
include hrun hhalt

/-- A bay that waits for a release starts the program at its entry. -/
theorem stepRelease_begins (hprog : (s.bay b).seq.prog = none) (hentry : (s.bay b).seq.entries.getD prog 0xFFFF ≠ 0xFFFF) :
    exec (.stepRelease t src b s.gen prog slots) s = .next ((s.tick t).modBay b (·.begun (s.tick t).now prog slots)) := by
  have hgate : (s.tick t).ctlGate b src s.gen = .ok (s.tick t) := ctlGate_current (s.tick t) hopen hheld src
  rw [exec_stepRelease, execStepRelease, ← beginProgram_used (s.tick t) hentry]
  simp [hgate, hrun, hhalt, hprog]

/-- A release is held behind the program that runs. -/
theorem stepRelease_held {p : Nat} (hprog : (s.bay b).seq.prog = some p) (hnone : (s.bay b).seq.held = none) :
    exec (.stepRelease t src b s.gen prog slots) s =
      .next ((s.tick t).modBay b fun y => { y with seq := { y.seq with held := some (prog.val, slots, s.gen) } }) := by
  have hgate : (s.tick t).ctlGate b src s.gen = .ok (s.tick t) := ctlGate_current (s.tick t) hopen hheld src
  rw [exec_stepRelease, execStepRelease]
  simp [hgate, hrun, hhalt, hprog, hnone]

/-- A further release is discarded. -/
theorem stepRelease_discarded {p : Nat} {q : Nat × List SlotEnt × BitVec 8} (hprog : (s.bay b).seq.prog = some p)
    (hheldRelease : (s.bay b).seq.held = some q) : exec (.stepRelease t src b s.gen prog slots) s =
      .next ((s.tick t).snagBay b 0x2071 2 [q.1, prog, s.gen.toNat, (s.bay b).strokeCnt]) := by
  have hgate : (s.tick t).ctlGate b src s.gen = .ok (s.tick t) := ctlGate_current (s.tick t) hopen hheld src
  rw [exec_stepRelease, execStepRelease]
  simp [hgate, hrun, hhalt, hprog, hheldRelease]

end

theorem swapArm_current (ents : List (Nat × BitVec 32)) : exec (.swapArm t src b s.gen ents) s =
    .next ((s.tick t).modBay b fun y => { y with holds := ents.foldl (fun m e => mset 0 m e.1 e.2) y.holds }) := by
  have hgate : (s.tick t).ctlGate b src s.gen = .ok (s.tick t) := ctlGate_current (s.tick t) hopen hheld src
  rw [exec_swapArm, execSwapArm]
  simp only [hgate]

theorem swapFlip_current (layer : Nat) :
    exec (.swapFlip t src b s.gen layer) s = .next (((s.tick t).modBay b (·.flipLayer layer)).boundaryIf b) := by
  have hgate : (s.tick t).ctlGate b src s.gen = .ok (s.tick t) := ctlGate_current (s.tick t) hopen hheld src
  rw [exec_swapFlip, execSwapFlip]
  simp only [hgate]
  rfl

theorem auditArm_current (stroke : Nat) : exec (.auditArm t src b s.gen stroke) s = .next ((s.tick t).modBay b fun y =>
    if y.watches.length < 16 then { y with watches := y.watches ++ [{ stroke := stroke, gen := s.gen }] } else y) := by
  have hgate : (s.tick t).ctlGate b src s.gen = .ok (s.tick t) := ctlGate_current (s.tick t) hopen hheld src
  rw [exec_auditArm, execAuditArm]
  simp only [hgate]

end

end Sys2Proof.Machine

namespace Sys2Proof

open Machine

/-- Settles O26: past the gate, each control message is an update of its bay; a flip is taken at once where the bay is at a boundary. -/
theorem controlMessagesActOnTheBay : Obligations.ControlMessagesActOnTheBay := by
  intro t src layer stroke b prog slots e s hopen hheld y release
  refine ⟨fun hrun hhalt => ⟨fun hprog hentry => ?_, fun p hprog hnone => ?_, fun p q hprog hsome hnovko => ?_⟩,
    fun hidle => stepRelease_idle hopen hheld t src hidle prog slots, ?_, ?_, ?_⟩
  · refine next_of_eq (stepRelease_begins hopen hheld t src hrun hhalt prog slots hprog hentry) ?_
    rw [State.bay_modBay, if_pos rfl]
    exact ⟨rfl, rfl, rfl, rfl⟩
  · refine next_of_eq (stepRelease_held hopen hheld t src hrun hhalt prog slots hprog hnone) ?_
    rw [State.bay_modBay, if_pos rfl]
    rfl
  · exact next_of_eq (stepRelease_discarded hopen hheld t src hrun hhalt prog slots hprog hsome)
      ⟨snag_bay _ _ _ _ _ _ _, _, snag_snags (s.tick t) hnovko _ _ _ _ _, rfl, rfl⟩
  · refine next_of_eq (swapArm_current hopen hheld t src [e]) ?_
    rw [State.bay_modBay, if_pos rfl]
    exact ⟨mget_mset_same e.1 e.2, fun k hk => mget_mset_other hk e.2⟩
  · have hbay : ((s.tick t).modBay b (·.flipLayer layer)).bay b = y.flipLayer layer := (State.bay_modBay _ _ _ _).trans (if_pos rfl)
    refine next_of_eq (swapFlip_current hopen hheld t src layer) ⟨?_, fun hbusy => ?_, fun hidle hdue => ?_⟩
    · rw [boundaryIf_holds, hbay]
      exact mget_mset_same layer 0
    · rw [boundaryIf_busy _ (by rw [hbay]; exact hbusy), hbay]
      exact ⟨rfl, rfl⟩
    · rw [boundaryIf_idle _ (by rw [hbay]; exact hidle), bay_boundary]
      refine ⟨rfl, fun p hp hstg => ?_⟩
      have hflips : (y.flipLayer layer).flipsDue = mget 0 y.holds layer :=
        (congrArg (· ^^^ mget 0 y.holds layer) hdue).trans BitVec.zero_xor
      rw [panel_boundary ((s.tick t).modBay b (·.flipLayer layer)) hp hstg, hbay, hflips]
      rfl
  · refine next_of_eq (auditArm_current hopen hheld t src stroke) ?_
    rw [State.bay_modBay, if_pos rfl]
    exact apply_ite Bay.watches _ _ _

end Sys2Proof
end

section
/-! SUPPORT. The mailbox: taking a command that is due, completing one, and completing those that wait (11 R306–R311). -/

namespace Sys2Proof.Machine

variable (s : State)

/-! ### Completing a command (11 R306, R310) -/

/-- The slot once the command numbered `id`, if it holds that one, completes with this status, detail and result. -/
def Slot.completed (x : Slot) (id status detail : Nat) (result : List Byte) : Slot :=
  match x.cmd with
  | some c =>
    if c.id = id then
      { x with
        cmd := none
        comp := some { op := c.op, status := status, detail := if status = stRefused ∨ status = stFault then detail else 0,
                       tag := c.tag, result := result, seq := c.seq } }
    else x
  | none => x

theorem slot_of_key {fn slot f g : Nat} (h : slotKey fn slot = slotKey f g) : s.slot fn slot = s.slot f g :=
  congrArg (mget ({} : Slot) s.host.slots) h

theorem slot_setSlot (f g : Nat) (x : Slot) (fn slot : Nat) :
    (s.setSlot f g x).slot fn slot = if slotKey fn slot = slotKey f g then x else s.slot fn slot := mget_mset _ _ _ _ _

theorem slot_raise (f vec fn slot : Nat) : (s.raise f vec).slot fn slot = s.slot fn slot := slot_of_settled (raise_settled s f vec) fn slot

theorem slot_congr {s u : State} (h : u.host = s.host) (fn slot : Nat) : u.slot fn slot = s.slot fn slot :=
  slot_of_settled (congrArg HostIf.settled h) fn slot

section
variable (status detail : Nat) (result : List Byte)

/-- A completion writes its own slot pair only. -/
theorem slot_complete (f g id fn slot : Nat) : (s.complete f g id status detail result).slot fn slot =
    if slotKey fn slot = slotKey f g then (s.slot f g).completed id status detail result else s.slot fn slot := by
  have hstays (x : Slot) (hx : x = s.slot f g) : s.slot fn slot = if slotKey fn slot = slotKey f g then x else s.slot fn slot := by
    split
    · rw [hx, slot_of_key s ‹_›]
    · rfl
  unfold State.complete
  dsimp only
  split
  · rename_i c hc
    split
    · rename_i hid
      have hdone : (s.slot f g).completed id status detail result = { s.slot f g with
          cmd := none
          comp := some { op := c.op, status := status, detail := if status = stRefused ∨ status = stFault then detail else 0,
                         tag := c.tag, result := result, seq := c.seq } } := by
        simp only [Slot.completed, hc, hid, if_true]
      rw [hdone]
      split
      · rw [slot_raise, slot_setSlot]
      · rw [slot_setSlot]
    · rename_i hid
      exact hstays _ (by simp only [Slot.completed, hc, hid, if_false])
  · rename_i hc
    exact hstays _ (by simp only [Slot.completed, hc])

/-- The host interface but for what taking and completing commands changes. -/
def HostIf.unmailed (h : HostIf) : HostIf := { h with slots := [], order := [], msixPend := [] }

theorem unmailed_of_settled {h k : HostIf} (e : h.settled = k.settled) : h.unmailed = k.unmailed :=
  congrArg (fun x : HostIf => { x with slots := [], order := [] }) e

@[simp] theorem complete_unmailed (f g id : Nat) : (s.complete f g id status detail result).host.unmailed = s.host.unmailed := by
  unfold State.complete
  dsimp only
  split
  · split
    · split
      · exact (unmailed_of_settled (raise_settled _ _ _)).trans rfl
      · rfl
    · rfl
  · rfl

/-! ### Completing those that wait -/

theorem completed_free {x : Slot} (h : x.cmd = none) (id : Nat) : x.completed id status detail result = x := by
  simp only [Slot.completed, h]

theorem completed_cmd {x : Slot} {c : Cmd} (h : x.cmd = some c) : (x.completed c.id status detail result).cmd = none := by
  simp only [Slot.completed, h, if_true]

theorem completed_other {x : Slot} {c : Cmd} (h : x.cmd = some c) {id : Nat} (hid : c.id ≠ id) :
    x.completed id status detail result = x := by
  simp only [Slot.completed, h, hid, if_false]

theorem slot_foldl_complete_free {fn slot : Nat} (l : List Wait) (h : (s.slot fn slot).cmd = none) :
    (l.foldl (fun s w => s.complete w.fn w.slot w.id status detail result) s).slot fn slot = s.slot fn slot := by
  refine List.foldlRecOn l _ (motive := fun u : State => u.slot fn slot = s.slot fn slot) rfl fun u hu w _ => ?_
  rw [slot_complete]
  split
  · rename_i hkey
    rw [← slot_of_key u hkey, hu, completed_free _ _ _ h]
  · exact hu

/-- Of completions one after another, the first of the slot's command counts. -/
theorem slot_foldl_complete {w : Wait} {c : Cmd} {l : List Wait} (hw : w ∈ l) (hc : (s.slot w.fn w.slot).cmd = some c) (hid : c.id = w.id) :
    (l.foldl (fun s w => s.complete w.fn w.slot w.id status detail result) s).slot w.fn w.slot =
      (s.slot w.fn w.slot).completed c.id status detail result := by
  induction l generalizing s with
  | nil => exact absurd hw List.not_mem_nil
  | cons v l ih =>
    have hfirst := slot_complete s status detail result v.fn v.slot v.id w.fn w.slot
    rw [List.foldl_cons]
    by_cases hv : slotKey w.fn w.slot = slotKey v.fn v.slot ∧ c.id = v.id
    · obtain ⟨hkey, hcid⟩ := hv
      rw [if_pos hkey, ← slot_of_key s hkey] at hfirst
      rw [slot_foldl_complete_free _ _ _ _ l (by rw [hfirst, ← hcid]; exact completed_cmd _ _ _ hc), hfirst, hcid]
    · have hstays : (s.complete v.fn v.slot v.id status detail result).slot w.fn w.slot = s.slot w.fn w.slot := by
        rw [hfirst]
        split
        · rename_i hkey
          rw [← slot_of_key s hkey]
          exact completed_other _ _ _ hc fun h => hv ⟨hkey, h⟩
        · rfl
      have hmem : w ∈ l := by
        rcases List.mem_cons.1 hw with rfl | h
        · exact absurd ⟨rfl, hid⟩ hv
        · exact h
      rw [ih _ hmem (by rw [hstays]; exact hc), hstays]

theorem completeWaits_waits (P : WaitKind → Bool) :
    (s.completeWaits P status detail result).host.waits = s.host.waits.filter fun w => !P w.kind := by
  refine congrArg HostIf.waits (List.foldlRecOn (s.host.waits.filter fun w => P w.kind) _
    (motive := fun u : State => u.host.unmailed = (s.modHost fun h => { h with waits := h.waits.filter fun w => !P w.kind }).host.unmailed)
    rfl fun u hu w _ => ?_)
  rw [complete_unmailed, hu]

/-- A command that waits for this completes. -/
theorem slot_completeWaits {P : WaitKind → Bool} {w : Wait} {c : Cmd} (hw : w ∈ s.host.waits) (hP : P w.kind = true)
    (hc : (s.slot w.fn w.slot).cmd = some c) (hid : c.id = w.id) :
    (s.completeWaits P status detail result).slot w.fn w.slot = (s.slot w.fn w.slot).completed c.id status detail result :=
  slot_foldl_complete (s.modHost fun h => { h with waits := h.waits.filter fun w => !P w.kind }) status detail result
    (List.mem_filter.2 ⟨hw, hP⟩) hc hid

end

/-! ### Taking a command (11 R307, R309) -/

theorem goesOn_congr {s u : State} {fn slot : Nat} {c : Cmd} (hslot : u.slot fn slot = s.slot fn slot) (h : s.goesOn fn slot c) :
    u.goesOn fn slot c := by
  rw [State.goesOn, hslot]
  exact h

/-- Once its command completes, a slot that had one under way answers it. -/
theorem answered_of_completed {s u : State} {fn slot status detail : Nat} {result : List Byte} {c : Cmd} (h : s.goesOn fn slot c)
    (hu : u.slot fn slot = (s.slot fn slot).completed c.id status detail result) :
    u.answered fn slot c status (if status = stRefused ∨ status = stFault then detail else 0) result := by
  obtain ⟨hcmd, hlast⟩ := h
  unfold State.answered
  rw [hu]
  simp only [Slot.completed, hcmd, if_true, hlast, and_self]

theorem complete_answered {fn slot : Nat} {c : Cmd} (h : s.goesOn fn slot c) (status detail : Nat) (result : List Byte) :
    (s.complete fn slot c.id status detail result).answered fn slot c status
      (if status = stRefused ∨ status = stFault then detail else 0) result :=
  answered_of_completed h ((slot_complete s status detail result fn slot c.id fn slot).trans (if_pos rfl))

theorem taking_goesOn (fn slot : Nat) (c : Cmd) : (s.taking fn slot c).goesOn fn slot c := by
  have hslot := slot_setSlot (s.modHost fun h => { h with order := h.order.filter (· != (fn, slot)) }) fn slot
    { s.slot fn slot with last := c.seq, cmd := some { c with taken := true } } fn slot
  rw [if_pos rfl] at hslot
  unfold State.goesOn
  rw [State.taking]
  exact ⟨congrArg Slot.cmd hslot, congrArg Slot.last hslot⟩

/-- A command is posted only where its slot holds one that is not taken. -/
theorem posted_cmd {s : State} {fn slot : Nat} {c : Cmd} (h : s.posted fn slot = some c) : (s.slot fn slot).cmd = some c ∧ c.taken = false := by
  unfold State.posted at h
  split at h
  · split at h
    · rename_i d hd
      split at h
      · exact nomatch h
      · cases h
        exact ⟨hd, Bool.eq_false_iff.2 ‹_›⟩
    · exact nomatch h
  · exact nomatch h

/-- Taking commands with a reserved opcode leaves a command under way alone. -/
theorem takeReserved_goesOn {fn slot : Nat} {c : Cmd} (n : Nat) {s : State} (h : s.goesOn fn slot c) : (s.takeReserved n).goesOn fn slot c := by
  induction n generalizing s with
  | zero => exact h
  | succ n ih =>
    unfold State.takeReserved
    split
    · rename_i f g _
      split
      · rename_i d hd
        split
        · exact h
        · obtain ⟨hcmd, htaken⟩ := posted_cmd hd
          have hkey : slotKey fn slot ≠ slotKey f g := fun hkey => by
            obtain ⟨hgoes, -⟩ := h
            rw [slot_of_key s hkey, hcmd] at hgoes
            cases hgoes
            exact nomatch htaken
          refine ih (goesOn_congr ?_ h)
          rw [slot_complete, if_neg hkey, State.taking, slot_setSlot, if_neg hkey]
          rfl
      · exact h
    · exact h

theorem takeReserved_unmailed (n : Nat) (s : State) : (s.takeReserved n).host.unmailed = s.host.unmailed := by
  induction n generalizing s with
  | zero => rfl
  | succ n ih =>
    unfold State.takeReserved
    split
    · split
      · split
        · rfl
        · rw [ih, complete_unmailed]
          rfl
      · rfl
    · rfl

/-- `u` is `s` at time `t` once the command of a slot has been taken as `c`. -/
structure State.Took (u s : State) (t fn slot : Nat) (c : Cmd) : Prop where
  kept : Kept [.host, .out] (s.tick t) u
  goes : u.goesOn fn slot c
  host : u.host.unmailed = s.host.unmailed

theorem take_took (t fn slot : Nat) (c : Cmd) : ((s.tick t).take fn slot c).Took s t fn slot c :=
  ⟨take_kept (.refl _) fn slot c (by decide), takeReserved_goesOn _ (taking_goesOn (s.tick t) fn slot c), takeReserved_unmailed _ _⟩

/-- What the mailbox engine may change by itself. -/
def mailbox : List Field := [.now, .host, .out]

/-- A state that differs in the clock, the host interface and the outputs only. -/
theorem Kept.mailbox_eq {s u : State} (h : Kept mailbox s u) : u = { s with now := u.now, host := u.host, out := u.out } := by
  have hs (f : Field) (hf : f ∉ mailbox) : f.same s u := h.frame f hf
  obtain ⟨⟩ := u
  simp only [State.mk.injEq, true_and]
  exact ⟨hs .part (by decide), hs .epoch (by decide), hs .leftOff (by decide), hs .free (by decide),
    hs .mode (by decide), hs .gen (by decide), hs .pwr (by decide), hs .boot (by decide), hs .flash (by decide), hs .nvm (by decide),
    hs .store (by decide), hs .sense (by decide), hs .panels (by decide), hs .bays (by decide), hs .rtrs (by decide), hs .edgeQ (by decide),
    hs .ctx0 (by decide), hs .ctx1 (by decide), hs .pages (by decide), hs .prefixes (by decide), hs .plans (by decide), hs .reqs (by decide),
    hs .weights (by decide), hs .fab (by decide), hs .keep (by decide), hs .snap (by decide), hs .resil (by decide), hs .intr (by decide),
    hs .snags (by decide), hs .snagNext (by decide), hs .pending (by decide)⟩

section
variable {s} {u : State} {t fn slot : Nat} {c : Cmd} (h : u.Took s t fn slot c)
include h

/-- Taking a command changes the clock, the host interface and the outputs only. -/
theorem State.Took.mailbox : Kept mailbox s u := (tick_kept (.refl s) t (by decide)).trans (h.kept.mono (by decide))

theorem State.Took.waits : u.host.waits = s.host.waits := by
  have hwaits := congrArg HostIf.waits h.host
  exact hwaits

theorem State.Took.expert (f : Nat) : u.expert f = s.expert f := by
  have hexpert := congrArg (fun x : HostIf => f == 0 || mget false x.expert f) h.host
  exact hexpert

theorem State.Took.mode : u.mode = s.mode := h.kept.frame .mode (by decide)

theorem State.Took.plans : u.plans = s.plans := h.kept.frame .plans (by decide)

theorem State.Took.now : u.now = max s.now t := h.kept.frame .now (by decide)

theorem State.Took.plan (id : Nat) : u.plan id = s.plan id := by rw [State.plan, State.plan, h.plans]

end

/-- The state once the work of a taken command has ended in this way. -/
def Done.finish (fn slot : Nat) (c : Cmd) : Done → State
  | .comp s status detail result => s.complete fn slot c.id status detail result
  | .waits s => s

/-- The checks of R311 pass in this module state. -/
theorem preCheck_passed {s u : State} {m : MailRow} {c : Cmd} (hown : m.own = false) (h : s.checkFails m c = none) (hmode : u.mode = s.mode)
    (hexpert : ∀ f, u.expert f = s.expert f) : u.preCheck m.fn c m.row (m.args c) = none ∧ s.mode ∈ m.row.states := by
  unfold State.checkFails at h
  unfold State.preCheck
  rw [hmode, hexpert]
  split at h
  · exact nomatch h
  rename_i hform
  split at h
  · rename_i hyes
    exact absurd (hown.symm.trans hyes) Bool.false_ne_true
  split at h
  · exact nomatch h
  rename_i hwithdrawn
  split at h
  · exact nomatch h
  rename_i hpf
  split at h
  · exact nomatch h
  rename_i hlevel
  split at h
  · exact nomatch h
  rename_i hbusy
  split at h
  · exact nomatch h
  rename_i hstates
  have hmem := not_not.1 hstates
  refine ⟨?_, hmem⟩
  rw [if_neg (by simpa [or_assoc] using hform), if_neg hwithdrawn, if_neg hpf, if_neg (by simpa using hlevel), if_neg hbusy, if_neg hstates]

/-- A command that is due and passes its checks is taken, and its own work is done. -/
theorem runCmd_due {s : State} {i : Instr} {fn slot op : Nat} {form args : Cmd → Bool} {row : CmdRow} {c : Cmd}
    (hm : i.mailbox = some { fn, slot, op, form, row, args }) (hdue : s.due i fn slot c) (t : Nat) :
    s.mode ∈ row.states ∧ ∃ u, u.Took s t fn slot c ∧
      ∀ body, (s.tick t).runCmd fn slot op form row args body = (body u c).finish fn slot c := by
  obtain ⟨m, ⟨hm', hposted, hop, hform⟩, hcheck, -, -⟩ := hdue
  obtain rfl := Option.some.inj (hm.symm.trans hm')
  have htook := take_took s t fn slot c
  obtain ⟨hpass, hmode⟩ := preCheck_passed (u := (s.tick t).take fn slot c) rfl hcheck htook.mode htook.expert
  have hposted : (s.tick t).posted fn slot = some c := hposted
  dsimp only at hop hform hpass hmode
  refine ⟨hmode, _, htook, fun body => ?_⟩
  unfold State.runCmd
  simp only [hposted, hop, hform, and_self, if_true, hpass]
  cases body ((s.tick t).take fn slot c) c <;> rfl

end Sys2Proof.Machine
end

section
/-! SUPPORT. The loaded plans: starting one, stopping it and unloading it (05 R142, R162; 08 R254; 10 R293). -/

namespace Sys2Proof.Machine

variable (s : State)

/-! ### Plans by id -/

theorem plan_id {s : State} {id : Nat} {p : Loaded} (h : s.plan id = some p) : p.img.id = id := by
  simpa using List.find?_some h

/-- An update of the plans of an id, which keeps the id, is one of the plan found there. -/
theorem plan_modPlan {id : Nat} {f : Loaded → Loaded} (hf : ∀ q, q.img.id = id → (f q).img.id = id) :
    (s.modPlan id f).plan id = (s.plan id).map f := by
  unfold State.plan State.modPlan
  dsimp only
  induction s.plans with
  | nil => rfl
  | cons q l ih =>
    by_cases hq : q.img.id = id
    · simp [hq, hf q hq]
    · simp [hq, ih]

theorem plan_congr {s u : State} (h : u.plans = s.plans) (id : Nat) : u.plan id = s.plan id := by rw [State.plan, State.plan, h]

theorem heldByOther_modPlan {id : Nat} {f : Loaded → Loaded} (hf : ∀ q, q.img.id = id → (f q).img.id = id) (b : Nat) :
    (s.modPlan id f).heldByOther id b = s.heldByOther id b := by
  unfold State.heldByOther State.modPlan
  rw [List.any_map]
  refine congrArg s.plans.any (funext fun q => ?_)
  by_cases hq : q.img.id = id
  · simp [hq, hf q hq]
  · simp [hq]

theorem heldByOther_congr {s u : State} (h : u.plans = s.plans) (id b : Nat) : u.heldByOther id b = s.heldByOther id b := by
  rw [State.heldByOther, State.heldByOther, h]

theorem bays_of_placement {p q : Loaded} (himg : q.img = p.img) (hplacement : q.placement = p.placement) : q.bays = p.bays := by
  rw [Loaded.bays, Loaded.bays, himg, hplacement]

/-- Every loaded plan has the property. -/
def State.AllPlans (s : State) (Q : Loaded → Prop) : Prop := ∀ q ∈ s.plans, Q q

section
variable {s} {Q : Loaded → Prop}

theorem State.AllPlans.kept (h : s.AllPlans Q) {u : State} {L : List Field} (hk : Kept L s u) (hL : .plans ∉ L) : u.AllPlans Q := by
  have hplans : u.plans = s.plans := hk.frame .plans hL
  rw [State.AllPlans, hplans]
  exact h

theorem State.AllPlans.modPlan (h : s.AllPlans Q) {id : Nat} {f : Loaded → Loaded} (hf : ∀ q, q.img.id = id → Q q → Q (f q)) :
    (s.modPlan id f).AllPlans Q := fun q hq => by
  obtain ⟨p, hp, rfl⟩ := List.mem_map.1 hq
  split
  · exact hf p ‹_› (h p hp)
  · exact h p hp

/-- An update brings a property about for the plans of its id. -/
theorem allPlans_modPlan {id : Nat} {f : Loaded → Loaded} (hf : ∀ q, Q (f q)) : (s.modPlan id f).AllPlans fun q => q.img.id = id → Q q :=
  fun q hq hid => by
    obtain ⟨x, -, rfl⟩ := List.mem_map.1 hq
    by_cases hx : x.img.id = id
    · rw [if_pos hx]
      exact hf x
    · rw [if_neg hx] at hid
      exact absurd hid hx

theorem State.AllPlans.foldl {α : Type} (h : s.AllPlans Q) {f : State → α → State} (l : List α)
    (hf : ∀ (u : State) (a : α), u.AllPlans Q → (f u a).AllPlans Q) : (l.foldl f s).AllPlans Q :=
  List.foldlRecOn l f (motive := fun u : State => u.AllPlans Q) h fun u hu a _ => hf u a hu

end

/-! ### Before a start (05 R162; 10 R285) -/


section
variable {s} {u : State} (h : Kept mailbox s u)
include h

theorem plans_mailbox : u.plans = s.plans := h.frame .plans (by decide)

theorem store_mailbox : u.store = s.store := h.frame .store (by decide)

theorem weights_mailbox : u.weights = s.weights := h.frame .weights (by decide)

theorem bankRec_mailbox (k bank : Nat) : u.bankRec k bank = s.bankRec k bank := by rw [State.bankRec, State.bankRec, weights_mailbox h]

theorem liveBank_mailbox (k : Nat) : u.liveBank k = s.liveBank k := by
  rw [State.liveBank, State.liveBank, panel_congr (h.frame .panels (by decide))]

theorem fillRec_mailbox (k : Nat) : u.fillRec k = s.fillRec k := by
  simp only [State.fillRec, bankRec_mailbox h, liveBank_mailbox h, weights_mailbox h, store_mailbox h]

theorem planLayout_mailbox (p : Loaded) : u.planLayout p = s.planLayout p := by
  have hlive (k : Nat) : u.bankRec k (u.liveBank k) = s.bankRec k (s.liveBank k) := by rw [bankRec_mailbox h, liveBank_mailbox h]
  unfold State.planLayout
  simp only [hlive, store_mailbox h, weights_mailbox h]

theorem fenced_mailbox (b : Nat) : u.fenced b = s.fenced b := by
  rw [h.mailbox_eq]
  rfl

theorem heldByOther_mailbox (id b : Nat) : u.heldByOther id b = s.heldByOther id b := heldByOther_congr (plans_mailbox h) id b

theorem budgetBad_mailbox (l : List Nat) (n : Nat) : u.budgetBad l n = s.budgetBad l n := by
  rw [h.mailbox_eq]
  rfl

theorem choose_mailbox (p : Loaded) : u.choose p u.fenced = s.choose p s.fenced := by
  have hfenced : u.fenced = s.fenced := funext (fenced_mailbox h)
  have hok (f : FencePl) : u.fenceOk p f = s.fenceOk p f := by
    simp only [State.fenceOk, plans_mailbox h, heldByOther_mailbox h, budgetBad_mailbox h, fillRec_mailbox h]
  simp only [State.choose, hfenced, hok]

/-- Whether PLAN_START is refused does not depend on the mailbox. -/
theorem startRefused_mailbox (p : Loaded) (session : Nat) (peers : List Nat) : u.startRefused p session peers = s.startRefused p session peers := by
  unfold State.startRefused
  have hheld (q : Loaded) : (q.bays.any fun e => u.heldByOther p.img.id e.bay) = q.bays.any fun e => s.heldByOther p.img.id e.bay :=
    congrArg q.bays.any (funext fun e => heldByOther_mailbox h p.img.id e.bay)
  simp only [planLayout_mailbox h, choose_mailbox h, hheld]
  rw [h.mailbox_eq]
  rfl

end

/-- Where PLAN_START is not refused, no other plan holds a bay of the placement the plan takes (05 R162). -/
theorem bays_free_of_not_refused {s : State} {p : Loaded} {session : Nat} {peers : List Nat} (h : s.startRefused p session peers = false)
    {q : Loaded} (himg : q.img = p.img) (hplacement : q.placement = (s.choose p s.fenced).join) :
    (q.bays.any fun e => s.heldByOther p.img.id e.bay) = false := by
  simp only [State.startRefused, Bool.or_eq_false_iff] at h
  obtain ⟨⟨⟨⟨⟨⟨-, hplacement'⟩, -⟩, -⟩, -⟩, -⟩, -⟩ := h
  split at hplacement'
  · exact nomatch hplacement'
  · rename_i x hx
    rw [hx] at hplacement
    rw [bays_of_placement (p := { p with placement := x }) himg hplacement]
    exact (Bool.or_eq_false_iff.1 hplacement').1

/-! ### The resources of a plan that starts (05 R162; 10 R285) -/

/-- The plan once PLAN_START has given it its resources. -/
def State.assigned (s : State) (p : Loaded) (session : Nat) (peers : List Nat) : Loaded :=
  { p with
    placement := (s.choose p s.fenced).join, detour := (s.detourFor p (s.choose p s.fenced).join).join, session := session, peers := peers,
    heard := [], map := if p.img.usesCtx then p.map.or s.freeMap else none,
    spillBase := if p.map.isSome then p.spillBase else (s.findLpns p.owner p.img.layout.spill).getD 0,
    streamIds := if p.streamIds.isEmpty then s.freeStreams.take p.img.streams.length else p.streamIds,
    wlayout := (s.planLayout p).getD 0, starting := true, startedAt := s.now }

section
variable (p : Loaded) (session : Nat) (peers : List Nat)

/-- The owner has its record in the CMMs, if the plan uses context memory (07 R207). -/
def State.tableFor (s : State) (p : Loaded) : State := if p.img.usesCtx then s.openTable p.owner else s

theorem tableFor_kept : Kept [.ctx0, .ctx1] s (s.tableFor p) :=
  Kept.ite (fun _ => openTable_kept (.refl s) _ (by decide)) fun _ => .refl s

theorem assign_plans : (s.assign p session peers).plans = ((s.tableFor p).modPlan p.img.id fun _ => s.assigned p session peers).plans := rfl

theorem assign_plan {s : State} {p : Loaded} (h : s.plan p.img.id = some p) :
    (s.assign p session peers).plan p.img.id = some (s.assigned p session peers) := by
  have htable : (s.tableFor p).plans = s.plans := (tableFor_kept s p).frame .plans (by decide)
  rw [plan_congr (assign_plans s p session peers), plan_modPlan (id := p.img.id) (f := fun _ => s.assigned p session peers) _ fun _ _ => rfl, plan_congr htable, h]
  rfl

theorem assign_heldByOther (b : Nat) : (s.assign p session peers).heldByOther p.img.id b = s.heldByOther p.img.id b := by
  have htable : (s.tableFor p).plans = s.plans := (tableFor_kept s p).frame .plans (by decide)
  rw [heldByOther_congr (assign_plans s p session peers), heldByOther_modPlan (id := p.img.id) (f := fun _ => s.assigned p session peers) _ fun _ _ => rfl, heldByOther_congr htable]

theorem assign_moduleAddr : (s.assign p session peers).moduleAddr = s.moduleAddr := by
  have htable := congrArg Fabric.addr ((tableFor_kept s p).frame .fab (by decide))
  exact htable

theorem assign_host : (s.assign p session peers).host = s.host := by
  have htable := (tableFor_kept s p).frame .host (by decide)
  exact htable

end

/-! ### Notices to the peers (10 R293) -/

/-- The message waits to be framed, and those that did still do. -/
theorem sendFab_queued (dst session vc : Nat) (m : FabMsg) : (∃ x ∈ (s.sendFab dst session vc m).fab.mgmtQ, x.1 = dst) ∧
    ∀ x ∈ s.fab.mgmtQ, x ∈ (s.sendFab dst session vc m).fab.mgmtQ := by
  unfold State.sendFab
  dsimp only
  rw [State.emit_fab]
  split
  · refine ⟨⟨_, List.mem_append_right _ (.head _), rfl⟩, fun x hx => ?_⟩
    obtain ⟨r, hr⟩ := List.takeWhile_prefix (l := s.fab.mgmtQ) fun e => e.2.2.2.notice
    generalize s.fab.mgmtQ.takeWhile (fun e => e.2.2.2.notice) = front at hr
    rw [← hr] at hx ⊢
    rw [List.drop_left]
    exact List.mem_append.2 ((List.mem_append.1 hx).imp_right (List.mem_cons_of_mem _))
  · exact ⟨⟨_, List.mem_append_right _ (.head _), rfl⟩, fun x hx => List.mem_append_left _ hx⟩

/-- Each peer's notice waits to be framed. -/
theorem noticePlan_queued (p : Loaded) {a : Nat} (ha : a ∈ s.othersOf p) : ∃ x ∈ (s.noticePlan p).fab.mgmtQ, x.1 = a := by
  obtain ⟨l, r, hsplit⟩ := List.append_of_mem ha
  rw [State.noticePlan, hsplit, List.foldl_append, List.foldl_cons]
  obtain ⟨⟨x, hx, hdst⟩, -⟩ := sendFab_queued (l.foldl _ s) a p.session 2 (.genNotice p.img.id (l.foldl _ s).mode.num (l.foldl _ s).gen)
  refine ⟨x, List.foldlRecOn r _ (motive := fun u : State => x ∈ u.fab.mgmtQ) hx fun u hu b _ => ?_, hdst⟩
  exact (sendFab_queued u b p.session 2 _).2 x hu

/-! ### A start (05 R142, R162; 09 R271; 10 R293) -/

/-- A spread plan waits for the notices of its peers. -/
theorem tryStart2_waits {s : State} {id : Nat} {q : Loaded} (h : s.plan id = some q) (hheard : q.heard = []) (hothers : s.othersOf q ≠ []) :
    s.tryStart2 id = s := by
  have hwait : ((s.othersOf q).all fun a => (mget none q.heard a).isSome) = false := by
    obtain ⟨a, ha⟩ := List.exists_mem_of_ne_nil _ hothers
    rw [List.all_eq_false]
    exact ⟨a, ha, by rw [hheard]; exact Bool.false_ne_true⟩
  unfold State.tryStart2
  simp only [h, hwait, Bool.and_false, Bool.false_eq_true, and_false, if_false]

/-- A plan with no peer starts at once. -/
theorem tryStart2_starts {s : State} {id : Nat} {q : Loaded} (h : s.plan id = some q) (hmode : s.mode = .ready ∨ s.mode = .serving)
    (hstarting : q.starting = true) (hothers : s.othersOf q = []) (hfree : (q.bays.any fun e => s.heldByOther id e.bay) = false) :
    s.tryStart2 id = s.finishStart id := by
  unfold State.tryStart2
  simp only [h, hmode, hstarting, hothers, hfree, List.all_nil, Bool.and_self, and_self, if_true, Bool.false_eq_true, if_false]

/-- A fill while no select is in progress. -/
theorem fill_idle {u : State} (hk : Kept [.panels, .bays, .weights] s u) (hsel : u.weights.sel = none) (x : Nat × Nat) :
    Kept [.panels, .bays, .weights] s (u.fill x) ∧ (u.fill x).weights.sel = none := by
  have htake : u.takeBack x.1 = u := by
    unfold State.takeBack
    rw [hsel]
  unfold State.fill
  split
  · rw [htake]
    lift_lets
    intro _ b v
    have hv : Kept [.panels, .bays, .weights] s v := modPanel_kept hk _ (fun _ hx => Panel.commitRows_canonical hx _ _ _) (by decide)
    have hvsel : v.weights.sel = none := hsel
    clear_value v
    have hformat (w : Nat) (sgn : Bool) : Kept [.panels, .bays] v (v.setFormat x.1 b w sgn) := setFormat_kept (.refl v) _ _ _ _ (by decide)
    refine ⟨setBank_kept (hv.trans ((hformat _ _).mono (by decide))) _ _ _ (by decide), ?_⟩
    exact (congrArg Weights.sel ((hformat _ _).frame .weights (by decide))).trans hvsel
  · exact ⟨hk, hsel⟩

theorem makeFills_idle {u : State} (hk : Kept [.panels, .bays, .weights] s u) (hsel : u.weights.sel = none) (p : Loaded) :
    Kept [.panels, .bays, .weights] s (u.makeFills p) := by
  unfold State.makeFills
  split
  · exact (List.foldlRecOn _ _ (motive := fun v : State => Kept [.panels, .bays, .weights] s v ∧ v.weights.sel = none) ⟨hk, hsel⟩
      fun v hv x _ => fill_idle s hv.1 hv.2 x).1
  · exact hk

/-- What a start leaves of each bay of the plan (05 R142). -/
structure Bay.Runs (y : Bay) : Prop where
  running : y.seq.running = true
  alloc : y.allocValid = true
  strokes : y.strokeCnt = 0
  halted : y.seq.halted = false

theorem loadBay_runs (p : Loaded) (e : PBay) (y : Bay) : (p.loadBay e y).Runs := ⟨rfl, rfl, rfl, rfl⟩

theorem Bay.Runs.initSegs {y : Bay} (h : y.Runs) (e : PBay) : (e.initSegs y).Runs := by
  refine List.foldlRecOn (List.range 4) _ (motive := Bay.Runs) h fun z hz g _ => ?_
  obtain ⟨hrun, halloc, hcnt, hhalt⟩ := hz
  unfold Bay.enterSeg
  dsimp only
  split <;> exact ⟨hrun, halloc, hcnt, hhalt⟩

section
variable {Q : Bay → Prop} {f : PBay → Bay → Bay}

/-- Updates that keep a property of a bay. -/
theorem bay_foldl_modBay_keep (hf : ∀ e y, Q y → Q (f e y)) {b : Nat} (h : Q (s.bay b)) (l : List PBay) :
    Q ((l.foldl (fun s e => s.modBay e.bay (f e)) s).bay b) := by
  refine List.foldlRecOn l _ (motive := fun u : State => Q (u.bay b)) h fun u hu e _ => ?_
  rw [State.bay_modBay]
  split
  · rename_i hb
    exact hf e _ (hb ▸ hu)
  · exact hu

/-- Updates each of which brings the property about. -/
theorem bay_foldl_modBay (hf : ∀ e y, Q (f e y)) {e : PBay} {l : List PBay} (he : e ∈ l) :
    Q ((l.foldl (fun s e => s.modBay e.bay (f e)) s).bay e.bay) := by
  obtain ⟨l, r, rfl⟩ := List.append_of_mem he
  rw [List.foldl_append, List.foldl_cons]
  refine bay_foldl_modBay_keep _ (fun e y _ => hf e y) ?_ r
  rw [State.bay_modBay, if_pos rfl]
  exact hf e _

end

/-- A bay of the plan at the start: its stores written, its segments at SEG_INIT. -/
theorem loadBays_runs {s u : State} {q : Loaded} (hu : u = q.live.foldl (fun s e => s.modBay e.bay e.initSegs) (s.loadBays q)) :
    ∀ e ∈ q.live, (u.bay e.bay).Runs := fun e he => by
  rw [hu]
  exact bay_foldl_modBay_keep _ (Q := Bay.Runs) (fun e y hy => hy.initSegs e) (bay_foldl_modBay s (loadBay_runs q) he) _

theorem noticeAll_host : s.noticeAll.host = s.host := (noticeAll_kept (L := [.fab, .out]) (.refl s) (by decide)).frame .host (by decide)

theorem setMode_settled (m : Mode) : (s.setMode m).host.settled = s.host.settled := by
  unfold State.setMode
  split
  · rfl
  · rw [noticeAll_host]
    refine List.foldlRecOn _ _ (motive := fun u : State => u.host.settled = s.host.settled) rfl fun u hu fn _ => ?_
    rw [raise_settled, hu]

theorem setMode_mode (m : Mode) : (s.setMode m).mode = m := by
  unfold State.setMode
  split
  · assumption
  · refine ((noticeAll_kept (L := [.fab, .out]) (.refl _) (by decide)).frame .mode (by decide)).trans ?_
    refine List.foldlRecOn _ _ (motive := fun u : State => u.mode = m) rfl fun u hu fn _ => ?_
    exact ((raise_kept (L := [.host, .out]) (.refl u) fn 5 (by decide)).frame .mode (by decide)).trans hu

/-- A change of the module state from a state of the compute service to the other. -/
theorem setMode_compute_kept {m : Mode} (h : s.mode = .ready ∨ s.mode = .serving) (hm : m = .ready ∨ m = .serving) :
    Kept [.mode, .fab, .host, .out] s (s.setMode m) := by
  by_cases heq : s.mode = m
  · rw [State.setMode, if_pos heq]
    exact .refl s
  · refine setMode_kept (.refl s) ?_ ?_ ?_ (by decide)
    all_goals rcases h with h | h <;> rcases hm with rfl | rfl <;> simp_all [Mode.next]

theorem noteSuspended_settled (was : Bool) (id : Nat) : (s.noteSuspended was id).host.settled = s.host.settled := by
  unfold State.noteSuspended
  split
  · split
    · exact snag_settled _ _ _ _ _ _
    · rfl
  · rfl

/-- The plan as it starts: its bays, its peers and the session are those PLAN_START gave it. -/
structure Loaded.StartedFrom (z q : Loaded) : Prop where
  started : z.started = true
  starting : z.starting = false
  stopping : z.stopping = false
  session : z.session = q.session
  peers : z.peers = q.peers
  img : z.img = q.img

/-- What the start of a plan comes to before its command completes (05 R142). -/
structure State.PlanRuns (u s : State) (id : Nat) (q : Loaded) : Prop where
  mode : u.mode = .serving
  host : u.host.settled = s.host.settled
  plan : ∃ z, u.plan id = some z ∧ z.StartedFrom q ∧ ∀ e ∈ z.live, (u.bay e.bay).Runs

theorem finishStart_runs {s : State} {id : Nat} {q : Loaded} (h : s.plan id = some q) (hsel : s.weights.sel = none)
    (hmode : s.mode = .ready ∨ s.mode = .serving) : ∃ (u : State) (P : WaitKind → Bool), P (.planStart id) = true ∧
      u.PlanRuns s id q ∧ s.finishStart id = u.completeWaits P stOk 0 [] := by
  unfold State.finishStart
  rw [h]
  dsimp only
  generalize hz : ({ q with starting := false, started := true, stopping := false, unloading := false, pos := 0, stepNo := 0, step := none, rerun := none, slots := [], closed := _, lateAt := none, folded := 0, peerResident := [], recs := [] } : Loaded) = z
  have hstarted : z.StartedFrom q := by subst hz; exact ⟨rfl, rfl, rfl, rfl, rfl, rfl⟩
  clear hz
  have hplan : (s.modPlan id fun _ => z).plan id = some z := by
    rw [plan_modPlan _ fun _ _ => by rw [hstarted.img]; exact plan_id h, h]
    rfl
  generalize hu1 : ((s.modPlan id fun _ => z).makeFills z).loadTrees z = u1
  have hk1 : Kept [.panels, .bays, .weights, .rtrs] (s.modPlan id fun _ => z) u1 := by
    rw [← hu1]
    exact loadTrees_kept (L := [.panels, .bays, .weights, .rtrs]) ((makeFills_idle _ (u := s.modPlan id fun _ => z) (.refl _) hsel z).mono (by decide)) z (by decide)
  generalize hu2 : z.live.foldl (fun s e => s.modBay e.bay e.initSegs) (u1.loadBays z) = u2
  have hk2 : Kept [.panels, .bays, .weights, .rtrs] (s.modPlan id fun _ => z) u2 := by
    rw [← hu2]
    exact foldl_kept (fun _ e g => modBay_kept g _ (fun _ hy => initSegs_canonical hy e) (by decide)) (loadBays_kept hk1 z (by decide))
  have hk3 : Kept [.host, .snags, .snagNext, .out] u2 (u2.noteSuspended false id) := noteSuspended_kept (.refl u2) false id (by decide)
  have hmode3 : (u2.noteSuspended false id).mode = s.mode := (hk3.frame .mode (by decide)).trans (hk2.frame .mode (by decide))
  have hk4 := setMode_compute_kept (u2.noteSuspended false id) (m := .serving) (by rw [hmode3]; exact hmode) (.inr rfl)
  refine ⟨(u2.noteSuspended false id).setMode .serving, _, ?_, ⟨setMode_mode _ _, ?_, z, ?_, hstarted, fun e he => ?_⟩, rfl⟩
  · exact beq_self_eq_true id
  · rw [setMode_settled, noteSuspended_settled]
    exact congrArg HostIf.settled (hk2.frame .host (by decide))
  · rw [plan_congr (hk4.frame .plans (by decide)), plan_congr (hk3.frame .plans (by decide)), plan_congr (hk2.frame .plans (by decide)), hplan]
  · rw [bay_congr (hk4.frame .bays (by decide)), bay_congr (hk3.frame .bays (by decide))]
    exact loadBays_runs hu2.symm e he

/-! ### PLAN_START (05 R142, R162; 11 R314) -/

theorem complete_plans (fn slot id status detail : Nat) (result : List Byte) :
    (s.complete fn slot id status detail result).plans = s.plans :=
  (complete_kept (L := [.host, .out]) (.refl s) fn slot id status detail result (by decide)).frame .plans (by decide)

/-- The modules of the peer map that a PLAN_START carries. -/
def Cmd.peerMap (c : Cmd) : List Nat := (List.range (c.arg 10 2)).map fun i => c.arg (16 + 2 * i) 2

/-- The module state and the plan once PLAN_START has taken it on and told its peers. -/
def State.takenOn (s : State) (fn slot : Nat) (c : Cmd) (p : Loaded) : State :=
  ((s.wait fn slot c.id (.planStart p.img.id)).assign p (c.arg 8 2) c.peerMap).noticePlan
    ((s.wait fn slot c.id (.planStart p.img.id)).assigned p (c.arg 8 2) c.peerMap)

section
variable {s} {t fn slot : Nat} {c : Cmd} {p : Loaded}

/-- A command that is taken and completes at once, its work done in `v`. -/
theorem completed_answered {u v : State} (h : u.Took s t fn slot c) (hhost : v.host = u.host) (status : Nat) :
    (v.complete fn slot c.id status 0 []).answered fn slot c status 0 [] := by
  have hanswered := complete_answered v (goesOn_congr (slot_congr hhost fn slot) h.goes) status 0 []
  rwa [ite_self] at hanswered

theorem planStart_unknown (hdue : s.due (.planStart t fn slot) fn slot c) (hplan : s.plan (c.arg 0 8) = none) :
    ∃ u : State, u.Took s t fn slot c ∧ exec (.planStart t fn slot) s = .next (u.complete fn slot c.id stBadArg 0 []) := by
  obtain ⟨-, u, hu, hrun⟩ := runCmd_due rfl hdue t
  refine ⟨u, hu, ?_⟩
  rw [exec_planStart, execPlanStart, hrun]
  simp only [hu.plan, hplan, Done.finish]

section
variable (hdue : s.due (.planStart t fn slot) fn slot c) (hplan : s.plan (c.arg 0 8) = some p) (hone : c.arg 10 2 ≠ 1)
  (hmax : c.arg 10 2 ≤ 2000)
include hdue hplan hone hmax

theorem planStart_refused (hrefused : s.startRefused p (c.arg 8 2) c.peerMap = true) :
    ∃ u : State, u.Took s t fn slot c ∧ exec (.planStart t fn slot) s = .next (u.complete fn slot c.id stRefused 0 []) := by
  obtain ⟨-, u, hu, hrun⟩ := runCmd_due rfl hdue t
  refine ⟨u, hu, ?_⟩
  have hrefused : u.startRefused p (c.arg 8 2) c.peerMap = true := (startRefused_mailbox hu.mailbox p _ _).trans hrefused
  rw [exec_planStart, execPlanStart, hrun]
  simp only [hu.plan, hplan, hone, Nat.not_lt.2 hmax, or_self, if_false]
  rw [← Cmd.peerMap, if_pos hrefused, Done.finish]

theorem planStart_takenOn (hstarts : s.startRefused p (c.arg 8 2) c.peerMap = false) : s.mode ∈ modesCompute ∧
    ∃ u : State, u.Took s t fn slot c ∧ exec (.planStart t fn slot) s = .next ((u.takenOn fn slot c p).tryStart2 p.img.id) := by
  obtain ⟨hmode, u, hu, hrun⟩ := runCmd_due rfl hdue t
  refine ⟨hmode, u, hu, ?_⟩
  have hstarts : u.startRefused p (c.arg 8 2) c.peerMap = false := (startRefused_mailbox hu.mailbox p _ _).trans hstarts
  have hid := plan_id hplan
  have hplan : u.plan (c.arg 0 8) = some p := (hu.plan _).trans hplan
  have hassigned := assign_plan (s := u.wait fn slot c.id (.planStart p.img.id)) (c.arg 8 2) c.peerMap (hid ▸ hplan)
  rw [exec_planStart, execPlanStart, hrun]
  simp only [hplan, hone, Nat.not_lt.2 hmax, or_self, if_false]
  rw [← Cmd.peerMap, hstarts, if_neg Bool.false_ne_true, Done.finish]
  simp only [hassigned]
  rfl

end

end

theorem noticePlan_moduleAddr (p : Loaded) : (s.noticePlan p).moduleAddr = s.moduleAddr := by
  unfold State.noticePlan
  refine List.foldlRecOn _ _ (motive := fun u : State => u.moduleAddr = s.moduleAddr) rfl fun u hu a _ => ?_
  rw [← hu]
  rfl

/-- The wait of a PLAN_START. -/
def State.startWait (s : State) (fn slot : Nat) (c : Cmd) (p : Loaded) : Wait :=
  { id := c.id, fn := fn, slot := slot, kind := .planStart p.img.id, since := s.now }

section
variable {s} (fn slot : Nat) (c : Cmd) {p : Loaded}

theorem takenOn_notices : Kept [.fab, .out] ((s.wait fn slot c.id (.planStart p.img.id)).assign p (c.arg 8 2) c.peerMap)
    (s.takenOn fn slot c p) := noticePlan_kept (.refl _) _ (by decide)

theorem takenOn_kept : Kept [.ctx0, .ctx1, .plans, .fab, .host, .out] s (s.takenOn fn slot c p) :=
  (assign_kept (wait_kept (.refl s) _ _ _ _ (by decide)) p _ _ (by decide)).trans ((takenOn_notices fn slot c).mono (by decide))

theorem takenOn_plan (hplan : s.plan p.img.id = some p) : (s.takenOn fn slot c p).plan p.img.id =
    some ((s.wait fn slot c.id (.planStart p.img.id)).assigned p (c.arg 8 2) c.peerMap) :=
  (plan_congr ((takenOn_notices fn slot c).frame .plans (by decide)) _).trans
    (assign_plan (s := s.wait fn slot c.id (.planStart p.img.id)) _ _ hplan)

theorem takenOn_heldByOther (b : Nat) : (s.takenOn fn slot c p).heldByOther p.img.id b = s.heldByOther p.img.id b :=
  (heldByOther_congr ((takenOn_notices fn slot c).frame .plans (by decide)) _ b).trans (assign_heldByOther _ p _ _ b)

theorem takenOn_moduleAddr : (s.takenOn fn slot c p).moduleAddr = s.moduleAddr :=
  (noticePlan_moduleAddr _ _).trans (assign_moduleAddr _ p _ _)

theorem takenOn_host : (s.takenOn fn slot c p).host = { s.host with waits := s.host.waits ++ [s.startWait fn slot c p] } :=
  ((takenOn_notices fn slot c).frame .host (by decide)).trans (assign_host _ p _ _)

/-- Which other modules the plan has, once it has its peer map. -/
theorem takenOn_othersOf : (s.takenOn fn slot c p).othersOf ((s.wait fn slot c.id (.planStart p.img.id)).assigned p (c.arg 8 2) c.peerMap) =
    (c.peerMap.filter (· != s.moduleAddr)).dedup := by
  rw [State.othersOf, takenOn_moduleAddr]
  rfl

end

section
variable {s} {t fn slot : Nat} {c : Cmd} {p : Loaded} (hdue : s.due (.planStart t fn slot) fn slot c) (hplan : s.plan (c.arg 0 8) = some p)
  (hone : c.arg 10 2 ≠ 1) (hmax : c.arg 10 2 ≤ 2000) (hstarts : s.startRefused p (c.arg 8 2) c.peerMap = false)
include hdue hplan hone hmax hstarts

/-- PLAN_START of a plan with no peer: it runs, and the command is answered. -/
theorem planStart_alone (hothers : c.peerMap.filter (· != s.moduleAddr) = []) (hsel : s.weights.sel = none) :
    ∃ (q : Loaded) (v w : State) (P : WaitKind → Bool), w.PlanRuns v p.img.id q ∧ q.peers = c.peerMap ∧ q.session = c.arg 8 2 ∧
      q.img = p.img ∧ exec (.planStart t fn slot) s = .next (w.completeWaits P stOk 0 []) ∧
      (w.completeWaits P stOk 0 []).answered fn slot c stOk 0 [] := by
  obtain ⟨hmode, u, hu, hexec⟩ := planStart_takenOn hdue hplan hone hmax hstarts
  have hid := plan_id hplan
  have hplan : u.plan p.img.id = some p := by rw [hu.plan, hid, hplan]
  have haddr : u.moduleAddr = s.moduleAddr := congrArg Fabric.addr (hu.kept.frame .fab (by decide))
  have hk := takenOn_kept (s := u) (p := p) fn slot c
  have hmode : (u.takenOn fn slot c p).mode = .ready ∨ (u.takenOn fn slot c p).mode = .serving := by
    rw [hk.frame .mode (by decide), hu.mode]
    simpa [modesCompute] using hmode
  have hsel : (u.takenOn fn slot c p).weights.sel = none := by
    rw [hk.frame .weights (by decide), weights_mailbox hu.mailbox, hsel]
  have hnone : (u.takenOn fn slot c p).othersOf ((u.wait fn slot c.id (.planStart p.img.id)).assigned p (c.arg 8 2) c.peerMap) = [] := by
    rw [takenOn_othersOf, haddr, hothers, List.dedup_nil]
  have hfree := bays_free_of_not_refused hstarts (q := (u.wait fn slot c.id (.planStart p.img.id)).assigned p (c.arg 8 2) c.peerMap)
    rfl (congrArg Option.join (choose_mailbox (wait_kept hu.mailbox _ _ _ _ (by decide)) p))
  have hheld (b : Nat) : (u.takenOn fn slot c p).heldByOther p.img.id b = s.heldByOther p.img.id b := by
    rw [takenOn_heldByOther, heldByOther_mailbox hu.mailbox]
  simp only [← hheld] at hfree
  rw [tryStart2_starts (takenOn_plan fn slot c hplan) hmode rfl hnone hfree] at hexec
  obtain ⟨w, P, hP, hw, hfinish⟩ := finishStart_runs (takenOn_plan fn slot c hplan) hsel hmode
  have hhost := takenOn_host (s := u) (p := p) fn slot c
  have hwait : u.startWait fn slot c p ∈ w.host.waits := by
    have hwaits := congrArg HostIf.waits hw.host
    have hlast : u.startWait fn slot c p ∈ (u.takenOn fn slot c p).host.waits := by
      rw [hhost]
      exact List.mem_append_right _ (.head _)
    exact hwaits ▸ hlast
  have hslot : w.slot fn slot = u.slot fn slot := by
    rw [slot_of_settled hw.host, State.slot, hhost]
    rfl
  have hgoes : w.goesOn fn slot c := goesOn_congr hslot hu.goes
  obtain ⟨hcmd, -⟩ := id hgoes
  have hdone := slot_completeWaits w stOk 0 [] hwait hP hcmd rfl
  exact ⟨_, _, w, P, hw, rfl, rfl, rfl, hexec.trans (congrArg _ hfinish), answered_of_completed hgoes hdone⟩

/-- PLAN_START of a spread plan: its peers are told, and it waits for their notices. -/
theorem planStart_spread (hothers : c.peerMap.filter (· != s.moduleAddr) ≠ []) : ∃ (u : State) (q : Loaded), u.goesOn fn slot c ∧ u.mode = s.mode ∧
    u.bays = s.bays ∧ u.plan p.img.id = some q ∧ q.starting = true ∧ q.startedAt = max s.now t ∧
      (∀ a ∈ c.peerMap.filter (· != s.moduleAddr), ∃ x ∈ u.fab.mgmtQ, x.1 = a) ∧ exec (.planStart t fn slot) s = .next u := by
  obtain ⟨-, u, hu, hexec⟩ := planStart_takenOn hdue hplan hone hmax hstarts
  have hid := plan_id hplan
  have hplan : u.plan p.img.id = some p := by rw [hu.plan, hid, hplan]
  have haddr : u.moduleAddr = s.moduleAddr := congrArg Fabric.addr (hu.kept.frame .fab (by decide))
  have hk := takenOn_kept (s := u) (p := p) fn slot c
  have hpeers := takenOn_othersOf (s := u) (p := p) fn slot c
  rw [haddr] at hpeers
  have hsome : (c.peerMap.filter (· != s.moduleAddr)).dedup ≠ [] := fun h => hothers ((List.dedup_eq_nil _).1 h)
  rw [tryStart2_waits (takenOn_plan fn slot c hplan) rfl (by rw [hpeers]; exact hsome)] at hexec
  refine ⟨_, _, goesOn_congr ?_ hu.goes, (hk.frame .mode (by decide)).trans hu.mode,
    (hk.frame .bays (by decide)).trans (hu.kept.frame .bays (by decide)), takenOn_plan fn slot c hplan, rfl, hu.now, fun a ha => ?_, hexec⟩
  · rw [State.slot, takenOn_host]
    rfl
  · refine noticePlan_queued _ _ ?_
    rw [State.othersOf, assign_moduleAddr]
    rw [← haddr] at ha
    exact List.mem_dedup.2 ha

end

/-! ### Requests of a plan that end (08 R254) -/

theorem giveOuts_snd (r : Req) (l : Layout) : ∃ given first, (s.giveOuts r l).2 = { r with given := given, tFirst := first } := by
  unfold State.giveOuts
  dsimp only
  split
  · exact ⟨r.given, r.tFirst, rfl⟩
  · exact ⟨_, _, rfl⟩

/-- A request that retires, its outputs delivered where its reason asks for them (08 R246). -/
def State.delivered (s : State) (p : Loaded) (r : Req) (reason : Nat) : State × Req :=
  if r.delivers reason then s.giveOuts r p.img.layout else (s, r)

/-- What of its context a request keeps at its end (08 R245): the handle, 0 for nothing. -/
def State.prefixKept (s : State) (p : Loaded) (r : Req) (reason : Nat) : State × Nat := if reason ≤ 4 then s.keepAtEnd p r else (s, 0)

/-- The record of a request that retires is written and counted (08 R249; 11 R318). -/
def State.recorded (s : State) (r : Req) (status reason handle : Nat) : State :=
  (if s.mayWrite r.fn then (s.hostWrite r.fn r.outAddr (r.record status reason s.gen.toNat handle s.mtime)).raise r.fn 4 else s).countFn r.fn
    (0x100 + 16 * status + reason)

theorem retire_eq (p : Loaded) (r : Req) (status reason : Nat) : s.retire p r status reason =
    let g := s.delivered p r reason
    let k := g.1.prefixKept p g.2 reason
    ((k.1.recorded g.2 status reason k.2).tellRetired p g.2 k.2).dropReq g.2 := rfl

/-- What the end of a request changes besides the requests and what the plans are to tell their peers. -/
def retiring : List Field := [.free, .ctx0, .ctx1, .pages, .prefixes, .host, .keep, .snags, .snagNext, .out]

theorem delivered_kept (p : Loaded) (r : Req) (reason : Nat) : Kept [.out] s (s.delivered p r reason).1 :=
  Kept.ite_fst (fun _ => giveOuts_kept (.refl s) _ _ (by decide)) fun _ => .refl s

/-- Deliveries change of a request what has been given and when. -/
theorem delivered_snd (p : Loaded) (r : Req) (reason : Nat) :
    ∃ given first, (s.delivered p r reason).2 = { r with given := given, tFirst := first } := by
  unfold State.delivered
  split
  · exact giveOuts_snd s r _
  · exact ⟨r.given, r.tFirst, rfl⟩

theorem prefixKept_kept (p : Loaded) (r : Req) (reason : Nat) : Kept retiring s (s.prefixKept p r reason).1 :=
  Kept.ite_fst (fun _ => keepAtEnd_kept (.refl s) _ _ (by decide)) fun _ => .refl s

theorem recorded_kept (r : Req) (status reason handle : Nat) : Kept [.host, .out] s (s.recorded r status reason handle) :=
  countFn_kept (Kept.ite (fun _ => raise_kept (hostWrite_kept (.refl s) _ _ _ (by decide)) _ _ (by decide)) fun _ => .refl s) _ _ (by decide)

/-- A request that ends is dropped; what is dropped and told is that of its function, number and slot. -/
theorem endReq_eq (p : Loaded) (r : Req) (status reason : Nat) : ∃ (v : State) (q : Req) (h : Nat), Kept retiring s v ∧ q.fn = r.fn ∧ q.id = r.id ∧
    s.endReq p r status reason = (v.tellRetired p q h).dropReq q := by
  unfold State.endReq
  split
  · exact ⟨s, r, 0, .refl s, rfl, rfl, rfl⟩
  · obtain ⟨given, first, hq⟩ := delivered_snd s p r reason
    refine ⟨_, _, _, ?_, ?_, ?_, retire_eq s p r status reason⟩
    · exact (((delivered_kept s p r reason).mono (by decide)).trans (prefixKept_kept _ _ _ _)).trans
        ((recorded_kept _ _ _ _ _).mono (by decide))
    · rw [hq]
    · rw [hq]

theorem endReq_reqs (p : Loaded) (r : Req) (status reason : Nat) :
    (s.endReq p r status reason).reqs = s.reqs.filter fun q => !(q.fn == r.fn && q.id == r.id) := by
  obtain ⟨v, q, h, hk, hfn, hid, heq⟩ := endReq_eq s p r status reason
  have hreqs : (v.tellRetired p q h).reqs = s.reqs :=
    ((tellRetired_kept (L := [.plans]) (.refl v) p q h (by decide)).frame .reqs (by decide)).trans (hk.frame .reqs (by decide))
  rw [heq, State.dropReq, hreqs, hfn, hid]

section
variable {s} {Q : Loaded → Prop}

theorem State.AllPlans.endReq (h : s.AllPlans Q) (hrecs : ∀ q recs, Q q → Q { q with recs := recs }) (p : Loaded) (r : Req)
    (status reason : Nat) : (s.endReq p r status reason).AllPlans Q := by
  obtain ⟨v, q, handle, hk, -, -, heq⟩ := endReq_eq s p r status reason
  have hv : v.AllPlans Q := h.kept hk (by decide)
  have htold : (v.tellRetired p q handle).AllPlans Q := by
    unfold State.tellRetired
    split
    · split
      · exact hv
      · exact hv.modPlan fun x _ hx => hrecs x _ hx
    · exact hv
  rw [heq]
  exact htold

theorem State.AllPlans.sweep (h : s.AllPlans Q) (hslots : ∀ q slots, Q q → Q { q with slots := slots }) (id : Nat) :
    (s.sweep id).AllPlans Q := by
  unfold State.sweep
  split
  · refine h.foldl _ fun u e hu => ?_
    split
    · split
      · exact hu
      · exact (hu.kept (closeSeq_kept (.refl u) _ _ (by decide)) (by decide : Field.plans ∉ [Field.ctx0, .ctx1, .pages])).modPlan fun x _ hx => hslots x _ hx
    · exact hu
  · exact h

theorem State.AllPlans.endRequests (h : s.AllPlans Q) (hrecs : ∀ q recs, Q q → Q { q with recs := recs })
    (hslots : ∀ q slots, Q q → Q { q with slots := slots }) (p : Loaded) (status reason : Nat) : (s.endRequests p status reason).AllPlans Q :=
  (h.foldl _ fun _ r hu => hu.endReq hrecs p r status reason).sweep hslots _

end

/-- No request of the plan is left (08 R254). -/
theorem endRequests_reqs (p : Loaded) (status reason : Nat) : ∀ r ∈ (s.endRequests p status reason).reqs, r.plan ≠ p.img.id := by
  have hleft (l : List Req) (u : State) (r : Req) (hr : r ∈ (l.foldl (fun s r => s.endReq p r status reason) u).reqs) : r ∈ u.reqs ∧ r ∉ l := by
    induction l generalizing u with
    | nil => exact ⟨hr, List.not_mem_nil⟩
    | cons q l ih =>
      obtain ⟨hmem, hl⟩ := ih _ hr
      rw [endReq_reqs, List.mem_filter] at hmem
      obtain ⟨hu, hne⟩ := hmem
      refine ⟨hu, fun h => ?_⟩
      rcases List.mem_cons.1 h with rfl | h
      · simp at hne
      · exact hl h
  intro r hr hplan
  rw [State.endRequests, (sweep_kept (L := [.ctx0, .ctx1, .pages, .plans]) (.refl _) _ (by decide)).frame .reqs (by decide)] at hr
  obtain ⟨hmem, hnot⟩ := hleft _ s r hr
  exact hnot (List.mem_filter.2 ⟨hmem, by simpa using hplan⟩)

/-! ### Plans that leave the set of started plans (05 R142) -/

/-- The select in progress and the start-up sets to come are the same. -/
def State.SameSelects (u s : State) : Prop := u.weights.sel = s.weights.sel ∧ u.weights.startQ = s.weights.startQ

theorem State.SameSelects.kept {s u v : State} (h : u.SameSelects s) {L : List Field} (hk : Kept L u v) (hL : .weights ∉ L) : v.SameSelects s := by
  have hw : v.weights = u.weights := hk.frame .weights hL
  rw [State.SameSelects, hw]
  exact h

theorem State.SameSelects.trans {s u v : State} (h : v.SameSelects u) (g : u.SameSelects s) : v.SameSelects s :=
  ⟨h.1.trans g.1, h.2.trans g.2⟩

theorem setBank_sameSelects (k bank : Nat) (r : BankRec) : (s.setBank k bank r).SameSelects s := ⟨rfl, rfl⟩

theorem endPlacement_sameSelects (p : Loaded) : (s.endPlacement p).SameSelects s := by
  unfold State.endPlacement
  split
  · exact List.foldlRecOn _ _ (motive := fun u : State => u.SameSelects s) ⟨rfl, rfl⟩ fun u hu x _ => (setBank_sameSelects u _ _ _).trans hu
  · exact ⟨rfl, rfl⟩

/-- Unloading frees what the plan held, and then it is gone. -/
theorem unloadPlan_plans (p : Loaded) : (s.unloadPlan p).plans = s.plans.filter fun q => q.img.id != p.img.id := by
  unfold State.unloadPlan
  lift_lets
  intro s1
  have h1 : s1.plans = s.plans := (foldl_kept (L := [.bays]) (fun _ _ h => Kept.ite (fun _ => h) fun _ =>
    modBay_kept h _ (fun _ hy => Bay.invalidate_canonical hy) (by decide)) (.refl s)).frame .plans (by decide)
  clear_value s1
  intro s2
  have h2 : s2.plans = s1.plans := (foldl_kept (L := [.rtrs]) (fun _ _ h => modRtr_kept h _ _ (by decide)) (.refl s1)).frame .plans (by decide)
  clear_value s2
  intro _ s3
  have h3 : s3.plans = s2.plans := rfl
  clear_value s3
  dsimp only
  split
  · refine congrArg (List.filter _) (((freeLpns_kept (L := [.ctx0, .ctx1, .pages]) (.refl _) _ _ _ (by decide)).frame .plans (by decide)).trans ?_)
    exact Eq.trans rfl (h3.trans (h2.trans h1))
  · exact congrArg (List.filter _) (h3.trans (h2.trans h1))

/-- A plan out of the set of started plans. -/
def Loaded.stopped (q : Loaded) : Loaded :=
  { q with started := false, stopping := false, step := none, rerun := none, closed := [], slots := [] }

section
variable {s} {Q : Loaded → Prop} (hstopped : ∀ q, Q q → Q q.stopped)
include hstopped

/-- Stops leave of the plans those that were there, some of them out of the set of started plans. -/
theorem State.AllPlans.leaveStarted (h : s.AllPlans Q) (p : Loaded) : (s.leaveStarted p).AllPlans Q := by
  unfold State.leaveStarted
  lift_lets
  intro s1 s2
  have h2 : s2.AllPlans Q := (h.kept (endPlacement_kept (L := [.weights]) (.refl s) p (by decide)) (by decide)).modPlan fun q _ hq => hstopped q hq
  clear_value s2
  intro s3
  have h3 : s3.AllPlans Q := by
    change (if _ then _ else _ : State).AllPlans Q
    split
    · intro q hq
      rw [unloadPlan_plans] at hq
      exact h2 q (List.mem_filter.1 hq).1
    · exact h2
  clear_value s3
  intro s4
  have h4 : s4.AllPlans Q := h3.kept (completeWaits_kept (L := [.host, .out]) (.refl s3) _ _ _ _ (by decide)) (by decide)
  clear_value s4
  split
  · rename_i hm
    exact h4.kept (setMode_compute_kept s4 (.inr hm.1) (.inl rfl)) (by decide)
  · exact h4

theorem State.AllPlans.settleStops (h : s.AllPlans Q) : s.settleStops.AllPlans Q := by
  unfold State.settleStops
  refine h.foldl _ fun u p hu => ?_
  split
  · exact hu.leaveStarted hstopped p
  · exact hu

end

theorem leaveStarted_sameSelects (p : Loaded) : (s.leaveStarted p).SameSelects s := by
  unfold State.leaveStarted
  lift_lets
  intro s1 s2
  have h2 : s2.SameSelects s := endPlacement_sameSelects s p
  clear_value s2
  intro s3
  have h3 : s3.SameSelects s := by
    change (if _ then _ else _ : State).SameSelects s
    split
    · exact h2.kept (unloadPlan_kept (L := [.bays, .rtrs, .ctx0, .ctx1, .pages, .plans, .fab]) (.refl s2) _ (by decide)) (by decide)
    · exact h2
  clear_value s3
  intro s4
  have h4 : s4.SameSelects s := h3.kept (completeWaits_kept (L := [.host, .out]) (.refl s3) _ _ _ _ (by decide)) (by decide)
  clear_value s4
  split
  · rename_i hm
    exact h4.kept (setMode_compute_kept s4 (.inr hm.1) (.inl rfl)) (by decide)
  · exact h4

theorem settleStops_sameSelects : s.settleStops.SameSelects s := by
  unfold State.settleStops
  refine List.foldlRecOn _ _ (motive := fun u : State => u.SameSelects s) ⟨rfl, rfl⟩ fun u hu p _ => ?_
  split
  · exact (leaveStarted_sameSelects u p).trans hu
  · exact hu

/-! ### PLAN_STOP and PLAN_UNLOAD (05 R142; 08 R254) -/

theorem pumpStarts_idle {s : State} (h : s.weights.startQ = []) : s.pumpStarts = s := by
  simp [State.pumpStarts, h]

/-- A started plan that no swap waits for is stopped: its requests end, and it is stopping until its bays have stopped. -/
theorem stopPlan_eq {s : State} {p : Loaded} (hstarted : p.started = true) (hstopping : p.stopping = false) (hsel : s.weights.sel = none)
    (status reason : Nat) : ∃ u v : State, Kept [.ctx0, .ctx1, .pages] (s.endRequests p status reason) u ∧
      Kept [.bays] (u.modPlan p.img.id fun q => { q with stopping := true, step := none, rerun := none, recs := [] }) v ∧
        s.stopPlan p status reason = v.settleStops := by
  have hk := endRequests_kept (L := [.free, .ctx0, .ctx1, .pages, .prefixes, .plans, .reqs, .host, .keep, .snags, .snagNext, .out]) (.refl s)
    p status reason (by decide)
  unfold State.stopPlan
  rw [hstarted, hstopping, if_neg (by decide)]
  lift_lets
  intro s1 s2 s3 s4
  have h2 : Kept [.ctx0, .ctx1, .pages] s1 s2 := foldl_kept (fun _ _ h => closeSeq_kept h _ _ (by decide)) (.refl s1)
  have hsel2 : s2.weights.sel = none := by
    rw [h2.frame .weights (by decide), hk.frame .weights (by decide), hsel]
  have h3 : s3 = s2 := if_neg (by rw [State.swapDue, hsel2]; exact Bool.false_ne_true)
  refine ⟨s2, _, h2, ?_, rfl⟩
  rw [← h3]
  exact foldl_kept (fun _ _ h => modBay_kept h _ (fun _ hy => by rw [Bay.askStop_sp]; exact hy) (by decide)) (.refl _)

section
variable {s} {p : Loaded} (hstarted : p.started = true) (hstopping : p.stopping = false) (hsel : s.weights.sel = none)
  (hstart : s.weights.startQ = [])
include hstarted hstopping hsel

theorem stopPlan_reqs (status reason : Nat) : ∀ r ∈ (s.stopPlan p status reason).reqs, r.plan ≠ p.img.id := by
  obtain ⟨u, v, hu, hv, heq⟩ := stopPlan_eq hstarted hstopping hsel status reason
  have hsettle := settleStops_kept (L := [.mode, .bays, .rtrs, .ctx0, .ctx1, .pages, .plans, .weights, .fab, .host, .out]) (.refl v) (by decide)
  have hreqs : (s.stopPlan p status reason).reqs = (s.endRequests p status reason).reqs := by
    rw [heq, hsettle.frame .reqs (by decide), hv.frame .reqs (by decide)]
    exact hu.frame .reqs (by decide)
  rw [hreqs]
  exact endRequests_reqs s p status reason

theorem stopPlan_sameSelects (status reason : Nat) : (s.stopPlan p status reason).SameSelects s := by
  obtain ⟨u, v, hu, hv, heq⟩ := stopPlan_eq hstarted hstopping hsel status reason
  have hk := endRequests_kept (L := [.free, .ctx0, .ctx1, .pages, .prefixes, .plans, .reqs, .host, .keep, .snags, .snagNext, .out]) (.refl s)
    p status reason (by decide)
  have hself : s.SameSelects s := ⟨rfl, rfl⟩
  have hmarked := ((hself.kept hk (by decide)).kept hu (by decide)).kept (modPlan_kept (L := [.plans]) (.refl u) p.img.id
    (fun q => { q with stopping := true, step := none, rerun := none, recs := [] }) (by decide)) (by decide)
  rw [heq]
  exact (settleStops_sameSelects v).trans (hmarked.kept hv (by decide))

/-- The plan stops until it leaves the set of started plans. -/
theorem stopPlan_stopping (status reason : Nat) :
    (s.stopPlan p status reason).AllPlans fun q => q.img.id = p.img.id → q.stopping = true ∨ q.started = false := by
  obtain ⟨u, v, -, hv, heq⟩ := stopPlan_eq hstarted hstopping hsel status reason
  have hmarked : (u.modPlan p.img.id fun q => { q with stopping := true, step := none, rerun := none, recs := [] }).AllPlans
      fun q => q.img.id = p.img.id → q.stopping = true ∨ q.started = false := allPlans_modPlan fun _ => .inl rfl
  rw [heq]
  exact (hmarked.kept hv (by decide)).settleStops fun _ _ _ => .inr rfl

/-- A property of plans that no stop takes away. -/
theorem State.AllPlans.stopPlan {Q : Loaded → Prop} (h : s.AllPlans Q) (hrecs : ∀ q recs, Q q → Q { q with recs := recs })
    (hslots : ∀ q slots, Q q → Q { q with slots := slots })
    (hstops : ∀ q, Q q → Q { q with stopping := true, step := none, rerun := none, recs := [] }) (hstopped : ∀ q, Q q → Q q.stopped)
    (status reason : Nat) : (s.stopPlan p status reason).AllPlans Q := by
  obtain ⟨u, v, hu, hv, heq⟩ := stopPlan_eq hstarted hstopping hsel status reason
  have hended : u.AllPlans Q := (h.endRequests hrecs hslots p status reason).kept hu (by decide)
  rw [heq]
  exact ((hended.modPlan fun q _ hq => hstops q hq).kept hv (by decide)).settleStops hstopped

end

section
variable {s} {t fn slot : Nat} {c : Cmd} {p : Loaded}

theorem planStop_unknown (hdue : s.due (.planStop t fn slot) fn slot c) (hplan : s.plan (c.arg 0 8) = none) :
    ∃ u : State, u.Took s t fn slot c ∧ exec (.planStop t fn slot) s = .next (u.complete fn slot c.id stBadArg 0 []) := by
  obtain ⟨-, u, hu, hrun⟩ := runCmd_due rfl hdue t
  refine ⟨u, hu, ?_⟩
  rw [exec_planStop, execPlanStop, hrun]
  simp only [hu.plan, hplan, Done.finish]

theorem planStop_idle (hdue : s.due (.planStop t fn slot) fn slot c) (hplan : s.plan (c.arg 0 8) = some p) (hstarted : p.started = false) :
    ∃ u : State, u.Took s t fn slot c ∧ exec (.planStop t fn slot) s = .next (u.complete fn slot c.id stOk 0 []) := by
  obtain ⟨-, u, hu, hrun⟩ := runCmd_due rfl hdue t
  refine ⟨u, hu, ?_⟩
  rw [exec_planStop, execPlanStop, hrun]
  simp only [hu.plan, hplan, hstarted, Bool.false_eq_true, if_false, Done.finish]

theorem planUnload_unknown (hdue : s.due (.planUnload t fn slot) fn slot c) (hplan : s.plan (c.arg 0 8) = none) :
    ∃ u : State, u.Took s t fn slot c ∧ exec (.planUnload t fn slot) s = .next (u.complete fn slot c.id stBadArg 0 []) := by
  obtain ⟨-, u, hu, hrun⟩ := runCmd_due rfl hdue t
  refine ⟨u, hu, ?_⟩
  rw [exec_planUnload, execPlanUnload, hrun]
  simp only [hu.plan, hplan, Done.finish]

theorem planUnload_busy (hdue : s.due (.planUnload t fn slot) fn slot c) (hplan : s.plan (c.arg 0 8) = some p) (hstarting : p.starting = true) :
    ∃ u : State, u.Took s t fn slot c ∧ exec (.planUnload t fn slot) s = .next (u.complete fn slot c.id stBusy 0 []) := by
  obtain ⟨-, u, hu, hrun⟩ := runCmd_due rfl hdue t
  refine ⟨u, hu, ?_⟩
  rw [exec_planUnload, execPlanUnload, hrun]
  simp only [hu.plan, hplan, hstarting, if_true, Done.finish]

theorem planUnload_idle (hdue : s.due (.planUnload t fn slot) fn slot c) (hplan : s.plan (c.arg 0 8) = some p) (hstarting : p.starting = false)
    (hstarted : p.started = false) : ∃ u : State, u.Took s t fn slot c ∧
      exec (.planUnload t fn slot) s = .next ((u.unloadPlan p).complete fn slot c.id stOk 0 []) := by
  obtain ⟨-, u, hu, hrun⟩ := runCmd_due rfl hdue t
  refine ⟨u, hu, ?_⟩
  rw [exec_planUnload, execPlanUnload, hrun]
  simp only [hu.plan, hplan, hstarting, hstarted, Bool.false_eq_true, if_false, Done.finish]

section
variable (hplan : s.plan (c.arg 0 8) = some p) (hstarted : p.started = true) (hstopping : p.stopping = false) (hsel : s.weights.sel = none)
  (hstart : s.weights.startQ = [])
include hplan hstarted hstopping hsel hstart

theorem planStop_stops (hdue : s.due (.planStop t fn slot) fn slot c) : ∃ u : State, u.weights.sel = none ∧
    exec (.planStop t fn slot) s = .next (u.stopPlan p stStale 6).settleStops := by
  obtain ⟨-, u, hu, hrun⟩ := runCmd_due rfl hdue t
  have hweights : (u.wait fn slot c.id (.planStop p.img.id)).weights = s.weights := weights_mailbox (wait_kept hu.mailbox _ _ _ _ (by decide))
  have hsel : (u.wait fn slot c.id (.planStop p.img.id)).weights.sel = none := by rw [hweights, hsel]
  refine ⟨u.wait fn slot c.id (.planStop p.img.id), hsel, ?_⟩
  rw [exec_planStop, execPlanStop, hrun]
  simp only [hu.plan, hplan, hstarted, if_true, Done.finish]
  refine congrArg _ (pumpStarts_idle ?_)
  obtain ⟨-, hqueue⟩ := (settleStops_sameSelects _).trans (stopPlan_sameSelects hstarted hstopping hsel stStale 6)
  rw [hqueue, hweights, hstart]

theorem planUnload_stops (hdue : s.due (.planUnload t fn slot) fn slot c) (hstarting : p.starting = false) : ∃ u : State,
    (u.AllPlans fun q => q.img.id = p.img.id → q.unloading = true) ∧ u.weights.sel = none ∧
      exec (.planUnload t fn slot) s = .next (u.stopPlan p stStale 6) := by
  obtain ⟨-, u, hu, hrun⟩ := runCmd_due rfl hdue t
  have hweights : (u.wait fn slot c.id (.planUnload p.img.id)).weights = s.weights := weights_mailbox (wait_kept hu.mailbox _ _ _ _ (by decide))
  have hsel : (u.wait fn slot c.id (.planUnload p.img.id)).weights.sel = none := by rw [hweights, hsel]
  refine ⟨(u.wait fn slot c.id (.planUnload p.img.id)).modPlan p.img.id fun q => { q with unloading := true },
    allPlans_modPlan fun _ => rfl, hsel, ?_⟩
  rw [exec_planUnload, execPlanUnload, hrun]
  simp only [hu.plan, hplan, hstarting, hstarted, hstopping, State.stopUnload, Bool.false_eq_true, if_true, if_false, Done.finish]
  refine congrArg _ (pumpStarts_idle ?_)
  obtain ⟨-, hqueue⟩ := stopPlan_sameSelects (s := (u.wait fn slot c.id (.planUnload p.img.id)).modPlan p.img.id fun q => { q with unloading := true })
    hstarted hstopping hsel stStale 6
  rw [hqueue]
  exact (congrArg Weights.startQ hweights).trans hstart

end

end

/-! ### PLAN_START_PEER_TIMEOUT (10 R293) -/

/-- PEER_TIMEOUT has passed: the plan no longer starts, and its PLAN_START is refused. -/
theorem planStartPeerTimeout_refuses {s : State} {t : Nat} {p : Loaded} (hplan : s.plan p.img.id = some p) (hstarting : p.starting = true)
    (hlate : p.startedAt + 1000000000 * max 1 s.fab.peerTimeout.toNat ≤ max s.now t) : ∃ (u : State) (P : WaitKind → Bool),
      u.host = s.host ∧ u.plan p.img.id = some { p with starting := false } ∧ P (.planStart p.img.id) = true ∧
        exec (.planStartPeerTimeout t p.img.id) s = .next (u.completeWaits P stRefused 0 []) := by
  have hplan : (s.tick t).plan p.img.id = some p := hplan
  have hmarked : ((s.tick t).modPlan p.img.id fun q => { q with starting := false }).plan p.img.id = some { p with starting := false } := by
    rw [plan_modPlan (s.tick t) (f := fun q => { q with starting := false }) fun _ h => h, hplan]
    rfl
  rw [exec_planStartPeerTimeout, execPlanStartPeerTimeout]
  simp only [hplan, hstarting, State.tick_fab, State.tick_now, hlate, decide_true, Bool.and_self, if_true]
  refine ⟨(s.tick t).modPlan p.img.id fun q => { q with starting := false }, _, rfl, hmarked, ?_, rfl⟩
  exact beq_self_eq_true p.img.id

end Sys2Proof.Machine

namespace Sys2Proof

open Machine

/-- Settles O50: every command is taken and does its own work; a start runs the plan or waits for its peers, and a stop ends the requests. -/
theorem plansStartStopAndUnload : Obligations.PlansStartStopAndUnload := by
  intro t fn slot p c s start stop unload peers others id
  have hcompletes {i : Instr} {u : State} {status : Nat} (hu : u.Took s t fn slot c)
      (hi : exec i s = .next (u.complete fn slot c.id status 0 [])) :
      Next (exec i s) fun u => u.answered fn slot c status 0 [] ∧ u.plans = s.plans :=
    next_of_eq hi ⟨completed_answered hu rfl status, (complete_plans u _ _ _ _ _ _).trans hu.plans⟩
  refine ⟨fun hnone i hi hdue => ?_, fun hplan => ⟨fun hdue hone hmax => ⟨fun hrefused => ?_, fun hstarts hothers hsel => ?_, fun hstarts hothers => ?_⟩,
    fun hdue => ⟨fun hidle => ?_, fun hstarted hstopping hsel hstart => ?_⟩,
    fun hdue => ⟨fun hstarting => ?_, fun hstarting hidle => ?_, fun hstarting hstarted hstopping hsel hstart => ?_⟩⟩,
    fun hplan hstarting hlate => ?_⟩
  · simp only [List.mem_cons, List.not_mem_nil, or_false] at hi
    rcases hi with rfl | rfl | rfl
    · obtain ⟨u, hu, hexec⟩ := planStart_unknown hdue hnone
      exact hcompletes hu hexec
    · obtain ⟨u, hu, hexec⟩ := planStop_unknown hdue hnone
      exact hcompletes hu hexec
    · obtain ⟨u, hu, hexec⟩ := planUnload_unknown hdue hnone
      exact hcompletes hu hexec
  · obtain ⟨u, hu, hexec⟩ := planStart_refused hdue hplan hone hmax hrefused
    exact hcompletes hu hexec
  · obtain ⟨q, v, w, P, hw, hpeers, hsession, himg, hexec, hanswered⟩ := planStart_alone hdue hplan hone hmax hstarts hothers hsel
    obtain ⟨hmode, -, z, hz, hfrom, hbays⟩ := hw
    have hk := completeWaits_kept (L := [.host, .out]) (.refl w) P stOk 0 [] (by decide)
    refine next_of_eq hexec ⟨hanswered, (hk.frame .mode (by decide)).trans hmode, z, (plan_congr (hk.frame .plans (by decide)) _).trans hz,
      hfrom.started, hfrom.starting, hfrom.stopping, hfrom.session.trans hsession, hfrom.peers.trans hpeers, hfrom.img.trans himg,
      fun e he => ?_⟩
    obtain ⟨hrun, halloc, hcnt, hhalt⟩ := hbays e he
    rw [bay_congr (hk.frame .bays (by decide))]
    exact ⟨hrun, halloc, hcnt, hhalt⟩
  · obtain ⟨u, q, hgoes, hmode, hbays, hq, hstarting, hat, hqueued, hexec⟩ := planStart_spread hdue hplan hone hmax hstarts hothers
    exact next_of_eq hexec ⟨hgoes, hmode, hbays, ⟨q, hq, hstarting, hat⟩, hqueued⟩
  · obtain ⟨u, hu, hexec⟩ := planStop_idle hdue hplan hidle
    exact hcompletes hu hexec
  · obtain ⟨u, husel, hexec⟩ := planStop_stops hplan hstarted hstopping hsel hstart hdue
    have hk := settleStops_kept (L := [.mode, .bays, .rtrs, .ctx0, .ctx1, .pages, .plans, .weights, .fab, .host, .out])
      (.refl (u.stopPlan p stStale 6)) (by decide)
    refine next_of_eq hexec ⟨?_, (stopPlan_stopping hstarted hstopping husel stStale 6).settleStops fun _ _ _ => .inr rfl⟩
    rw [hk.frame .reqs (by decide)]
    exact stopPlan_reqs hstarted hstopping husel stStale 6
  · obtain ⟨u, hu, hexec⟩ := planUnload_busy hdue hplan hstarting
    exact hcompletes hu hexec
  · obtain ⟨u, hu, hexec⟩ := planUnload_idle hdue hplan hstarting hidle
    have hhost := (unloadPlan_kept (L := [.bays, .rtrs, .ctx0, .ctx1, .pages, .plans, .fab]) (.refl u) p (by decide)).frame .host (by decide)
    refine next_of_eq hexec ⟨completed_answered hu hhost stOk, ?_⟩
    rw [complete_plans, unloadPlan_plans, hu.plans]
  · obtain ⟨u, hmarked, husel, hexec⟩ := planUnload_stops hplan hstarted hstopping hsel hstart hdue hstarting
    exact next_of_eq hexec ⟨stopPlan_reqs hstarted hstopping husel stStale 6, State.AllPlans.stopPlan hstarted hstopping husel hmarked
      (fun _ _ h => h) (fun _ _ h => h) (fun _ h => h) (fun _ h => h) stStale 6⟩
  · obtain ⟨u, P, hhost, hmarked, hP, hexec⟩ := planStartPeerTimeout_refuses hplan hstarting hlate
    have hk := completeWaits_kept (L := [.host, .out]) (.refl u) P stRefused 0 [] (by decide)
    refine next_of_eq hexec ⟨⟨_, (plan_congr (hk.frame .plans (by decide)) _).trans hmarked, rfl, rfl⟩,
      fun w hw hkind => ⟨fun hin => ?_, fun d hd hid => ?_⟩⟩
    · rw [completeWaits_waits] at hin
      obtain ⟨-, hout⟩ := List.mem_filter.1 hin
      rw [hkind, hP] at hout
      exact nomatch hout
    · rw [← slot_congr hhost] at hd
      rw [slot_completeWaits u stRefused 0 [] (hhost ▸ hw) (by rw [hkind, hP]) hd hid]
      exact completed_cmd _ _ _ hd

end Sys2Proof
end

section
/-! SUPPORT. Batch steps: Novko's messages to the bays, the step monitor and results (05 R169; 06 R186, R196; 08 R239, R242). -/

namespace Sys2Proof.Machine

variable (s : State)

/-! ### Novko's messages to the bays (06 R186, R196, R427) -/

/-- The mesh stands as it did: the same homes, rails and generation, and the same routers fenced and links down. -/
structure State.SameMesh (u s : State) : Prop where
  boot : u.boot = s.boot
  pwr : u.pwr = s.pwr
  gen : u.gen = s.gen
  fenced : ∀ b, (u.rtr b).hardFenced = (s.rtr b).hardFenced
  down : ∀ b, (u.rtr b).linkDown = (s.rtr b).linkDown

theorem State.SameMesh.refl : s.SameMesh s := ⟨rfl, rfl, rfl, fun _ => rfl, fun _ => rfl⟩

section
variable {s} {u v : State}

theorem State.SameMesh.trans (h : v.SameMesh u) (g : u.SameMesh s) : v.SameMesh s :=
  ⟨h.boot.trans g.boot, h.pwr.trans g.pwr, h.gen.trans g.gen, fun b => (h.fenced b).trans (g.fenced b), fun b => (h.down b).trans (g.down b)⟩

theorem Kept.sameMesh {L : List Field} (h : Kept L s u) (hL : ∀ f ∈ [Field.boot, .pwr, .gen, .rtrs], f ∉ L := by decide) : u.SameMesh s := by
  have hrtr (b : Nat) : u.rtr b = s.rtr b := congrArg (mget ({} : Router) · b) (h.frame .rtrs (hL _ (by decide)))
  exact ⟨h.frame .boot (hL _ (by decide)), h.frame .pwr (hL _ (by decide)), h.frame .gen (hL _ (by decide)),
    fun b => by rw [hrtr], fun b => by rw [hrtr]⟩

section
variable (h : u.SameMesh s)
include h

theorem State.SameMesh.rtrFenced (b : Nat) : u.rtrFenced b = s.rtrFenced b := h.fenced b

theorem State.SameMesh.linkDown (b p : Nat) : u.linkDown b p = s.linkDown b p := by
  simp only [State.linkDown, h.down]

theorem State.SameMesh.homeOf (b : Nat) : u.homeOf b = s.homeOf b := by rw [State.homeOf, State.homeOf, h.boot]

theorem State.SameMesh.sinkOn (l : List (Nat × Nat)) : u.sinkOn l = s.sinkOn l := by
  have hsink (b p : Nat) : u.isSink b p = s.isSink b p := by
    simp only [State.isSink, State.edgeLost, h.rtrFenced, h.linkDown, h.pwr]
  induction l with
  | nil => rfl
  | cons e l ih => simp only [State.sinkOn, h.rtrFenced, hsink, ih]

theorem State.SameMesh.told {b vc : Nat} (ht : s.told b vc) : u.told b vc := by
  obtain ⟨x, l, hhome, hup, hwalk, hsink⟩ := ht
  refine ⟨x, l, (h.homeOf b).trans hhome, ?_, by rw [h.gen]; exact hwalk, (h.sinkOn l).trans hsink⟩
  rw [State.attachUp, h.rtrFenced, h.linkDown]
  exact hup

end

end

theorem sinkLine_sameMesh (b p : Nat) (h : BitVec 64) : (s.sinkLine b p h).SameMesh s := by
  have hmod : (s.modRtr b fun r => { r with sinkDrop := true, sinkCnt := satAdd r.sinkCnt 1 0xFFFF }).SameMesh s := by
    refine ⟨rfl, rfl, rfl, fun c => ?_, fun c => ?_⟩
    all_goals
      rw [State.rtr_modRtr]
      split
      · rename_i hc
        rw [hc]
      · rfl
  unfold State.sinkLine State.stickyRtr
  dsimp only
  split
  · exact hmod
  · exact (snagBay_kept (L := [.host, .snags, .snagNext, .out]) (.refl _) _ _ _ _ (by decide)).sameMesh.trans hmod

theorem foldl_sameMesh {α : Type} {f : State → α → State} (hf : ∀ u a, (f u a).SameMesh u) (l : List α) : (l.foldl f s).SameMesh s :=
  List.foldlRecOn l f (motive := fun u : State => u.SameMesh s) (.refl s) fun u hu a _ => (hf u a).trans hu

/-- Lines that are lost on the way leave the mesh as it stands. -/
theorem toBay_sameMesh (b : Nat) (m : NovkoMsg) : (s.toBay b m).SameMesh s := by
  have hedge (u : State) (b p : Nat) (h : BitVec 64) : (u.edgeSink b p h).SameMesh u := by
    unfold State.edgeSink
    split
    · exact sinkLine_sameMesh u b p h
    · exact .refl u
  unfold State.toBay
  split
  · exact .refl s
  · dsimp only
    split
    · exact foldl_sameMesh s (fun u _ => hedge u _ _ _) _
    · unfold State.sendAlong
      split
      · rename_i d hd
        split at hd
        · cases hd
          exact .refl s
        · split at hd
          · cases hd
            exact foldl_sameMesh s (fun u _ => sinkLine_sameMesh u _ _ _) _
          · exact nomatch hd
      · rename_i d hd
        split at hd
        · exact nomatch hd
        · split at hd
          · exact nomatch hd
          · cases hd
            exact (emit_kept (L := [.out]) (.refl s) _ (by decide)).sameMesh

/-- A message for a bay with nothing in its way leaves CTL. -/
theorem toBay_told {s : State} {b : Nat} {m : NovkoMsg} (h : s.told b m.vc) : s.toBay b m = s.emit (.novko b m) := by
  obtain ⟨x, l, hhome, hup, hwalk, hsink⟩ := h
  rw [State.attachUp, Bool.and_eq_true, Bool.not_eq_true', Bool.not_eq_true'] at hup
  obtain ⟨hfenced, hdown⟩ := hup
  unfold State.toBay
  simp only [hhome, hfenced, hdown, Bool.or_self, Bool.false_eq_true, if_false, State.sendAlong, hwalk, hsink]

theorem mem_emit (o : Output) : o ∈ (s.emit o).out := List.mem_cons_self

/-- Of messages to several bays, the one for a bay with nothing in its way leaves CTL. -/
theorem foldl_toBay_told {α : Type} {s : State} (bay : α → Nat) (m : State → α → NovkoMsg) (hm : ∀ u v : State, u.gen = v.gen → m u = m v)
    {l : List α} {a : α} (ha : a ∈ l) (h : s.told (bay a) (m s a).vc) :
    .novko (bay a) (m s a) ∈ (l.foldl (fun s a => s.toBay (bay a) (m s a)) s).out := by
  obtain ⟨l, r, rfl⟩ := List.append_of_mem ha
  rw [List.foldl_append, List.foldl_cons]
  have hfront : (l.foldl (fun s a => s.toBay (bay a) (m s a)) s).SameMesh s := foldl_sameMesh s (fun u a => toBay_sameMesh u _ _) l
  have hmsg := congrFun (hm _ _ hfront.gen) a
  rw [hmsg, toBay_told (hfront.told h)]
  refine List.foldlRecOn r _ (motive := fun u : State => .novko (bay a) (m s a) ∈ u.out) (mem_emit _ _)
    fun u hu b _ => ?_
  exact (toBay_kept (L := [.rtrs, .host, .snags, .snagNext, .out]) (.refl u) _ _ (by decide)).out.mem hu

/-! ### The step monitor (05 R169; 08 R239, R242) -/

/-- The plan with its step in flight. -/
def Loaded.withStep (p : Loaded) (run : StepRun) : Loaded := { p with step := some run }

section
variable {s} {id : Nat} {p : Loaded} {run : StepRun}

/-- An update of the step in flight. -/
theorem plan_modStep (h : s.plan id = some p) (hstep : p.step = some run) (f : StepRun → StepRun) :
    (s.modPlan id fun q => { q with step := q.step.map f }).plan id = some (p.withStep (f run)) := by
  rw [plan_modPlan s (f := fun q => { q with step := q.step.map f }) fun _ h => h, h, Option.map_some, hstep]
  rfl

section
variable (h : s.plan id = some p) (hstep : p.step = some run)
include h hstep

/-- A step that waits for an anchor bay has not completed. -/
theorem stepCheck_waits (hwait : run.waiting ≠ []) : s.stepCheck id = s := by
  unfold State.stepCheck
  simp only [h, hstep, bne_iff_ne.2 hwait, Bool.or_true, Bool.true_or, if_true]

/-- A step of this module's has completed once the last anchor bay and the last result have come. -/
theorem stepCheck_completes (hdone : run.doneAt = none) (hwait : run.waiting = []) (hpeers : run.peers = []) (hanswered : run.answered = true)
    (hpeer : p.img.layout.peer = false) (hanchor : p.live.any (·.anchor run.prog) = true) :
    s.stepCheck id = s.modPlan id fun q => { q with step := q.step.map fun r => { r with doneAt := some s.now } } := by
  unfold State.stepCheck
  simp [h, hstep, hdone, hwait, hpeers, hanswered, hpeer, hanchor]

theorem measure_uncertified (hcert : p.img.cert = none) (ns : Nat) :
    s.measure id ns = s.modPlan id fun q => { q with step := q.step.map fun r => { r with measured := ns } } := by
  unfold State.measure
  simp only [plan_modStep h hstep, Loaded.withStep, hcert]

end

/-- A search for the one element with a property. -/
theorem find?_unique {α : Type} {f : α → Bool} {l : List α} {a : α} (ha : a ∈ l) (hf : f a = true) (huniq : ∀ b ∈ l, f b = true → b = a) :
    l.find? f = some a := by
  obtain ⟨b, hb⟩ := Option.isSome_iff_exists.1 (List.find?_isSome.2 ⟨a, ha, hf⟩)
  rw [hb, huniq b (List.mem_of_find?_eq_some hb) (List.find?_some hb)]

/-- A notice of another generation does nothing. -/
theorem stepDoneNotice_stale {t : Nat} {b : BayIx} {gen : BitVec 8} (h : gen ≠ s.gen) : exec (.stepDoneNotice t b gen) s = .next (s.tick t) := by
  rw [exec_stepDoneNotice, execStepDoneNotice]
  simp only [State.tick_gen, ne_eq, h, not_false_eq_true, if_true]

section
variable {t : Nat} {b : BayIx} (h : s.plan p.img.id = some p) (hstep : p.step = some run)
  (huniq : ∀ q ∈ s.plans, q.step.isSome = true → q = p)
include h hstep huniq

/-- A notice from an anchor bay is counted; with the last one the duration is known. -/
theorem stepDoneNotice_counted (hin : b.val ∈ run.waiting) : exec (.stepDoneNotice t b s.gen) s =
    let u := (s.tick t).modPlan p.img.id fun q => { q with step := q.step.map fun r => { r with waiting := r.waiting.filter (· != b.val) } }
    .next ((if run.waiting.all (· == b.val) then u.measure p.img.id (max s.now t - run.released) else u).stepCheck p.img.id) := by
  have hmem : p ∈ (s.tick t).plans := List.mem_of_find?_eq_some h
  rw [exec_stepDoneNotice, execStepDoneNotice]
  simp only [State.tick_gen, ne_eq, not_true_eq_false, if_false]
  rw [find?_unique hmem ?_ ?_]
  · simp only [hstep]
    rfl
  · simpa only [hstep, List.contains_iff_mem] using hin
  · intro q hq hhit
    refine huniq q hq ?_
    rcases hq' : q.step with _ | r
    · rw [hq'] at hhit
      exact nomatch hhit
    · rfl

end

/-- The anchor bays a step still waits for once bay `b` has reported. -/
theorem stepDoneNotice_waits {t : Nat} {b : BayIx} (h : s.plan p.img.id = some p) (hstep : p.step = some run)
    (huniq : ∀ q ∈ s.plans, q.step.isSome = true → q = p) (hin : b.val ∈ run.waiting) (hmore : run.waiting.any (· ≠ b.val) = true) :
    ∃ u : State, u.plan p.img.id = some (p.withStep { run with waiting := run.waiting.filter (· != b.val) }) ∧ u.reqs = s.reqs ∧
      exec (.stepDoneNotice t b s.gen) s = .next u := by
  have hcounted := stepDoneNotice_counted (t := t) h hstep huniq hin
  have hplan := plan_modStep (s := s.tick t) h hstep fun r => { r with waiting := r.waiting.filter (· != b.val) }
  obtain ⟨a, ha, hne⟩ := List.any_eq_true.1 hmore
  have hall : run.waiting.all (· == b.val) = false := List.all_eq_false.2 ⟨a, ha, by simpa using hne⟩
  have hleft : run.waiting.filter (· != b.val) ≠ [] := List.ne_nil_of_mem (List.mem_filter.2 ⟨ha, by simpa using hne⟩)
  simp only [hall, Bool.false_eq_true, if_false] at hcounted
  rw [stepCheck_waits hplan rfl hleft] at hcounted
  exact ⟨_, hplan, rfl, hcounted⟩

/-- The last anchor bay's notice, where every result has come. -/
theorem stepDoneNotice_completes {t : Nat} {b : BayIx} (h : s.plan p.img.id = some p) (hstep : p.step = some run)
    (huniq : ∀ q ∈ s.plans, q.step.isSome = true → q = p) (hdone : run.doneAt = none) (hwait : run.waiting = [b.val]) (hpeers : run.peers = [])
    (hanswered : run.answered = true) (hpeer : p.img.layout.peer = false) (hcert : p.img.cert = none)
    (hanchor : p.live.any (·.anchor run.prog) = true) : ∃ (u : State) (x : StepRun), u.plan p.img.id = some (p.withStep x) ∧ x.waiting = [] ∧
      x.doneAt = some (max s.now t) ∧ x.measured = max s.now t - run.released ∧ exec (.stepDoneNotice t b s.gen) s = .next u := by
  have hcounted := stepDoneNotice_counted (t := t) h hstep huniq (b := b) (by rw [hwait]; exact List.mem_singleton_self _)
  have hplan := plan_modStep (s := s.tick t) h hstep fun r => { r with waiting := r.waiting.filter (· != b.val) }
  have hall : run.waiting.all (· == b.val) = true := by simp [hwait]
  have hnone : run.waiting.filter (· != b.val) = [] := by simp [hwait]
  simp only [hall, if_true] at hcounted
  rw [measure_uncertified hplan rfl hcert] at hcounted
  have hmeasured := plan_modStep hplan rfl fun r => { r with measured := max s.now t - run.released }
  rw [hnone] at hmeasured
  rw [stepCheck_completes hmeasured rfl hdone rfl hpeers hanswered hpeer hanchor] at hcounted
  exact ⟨_, _, plan_modStep hmeasured rfl fun r => { r with doneAt := some (max s.now t) }, rfl, rfl, rfl, hcounted⟩

/-! ### Results (08 R242) -/

section
variable {t : Nat} {m : MLine} {ls : List MLine} (h : s.plan p.img.id = some p) (hstep : p.step = some run)
  (huniq : ∀ q ∈ s.plans, q.step.isSome = true → q = p) (hstarted : p.started = true)
  (hstream : p.img.layout.stream = hStream m.hdr) (hkind : hKind m.hdr = 0) (hvc : hVc m.hdr = 1) (hgen : hGen m.hdr = s.gen)
  (hqueue : ∀ l < 4, mget [] s.edgeQ (64 * 19 + l) = [])
include hqueue

/-- A message from outside the modelled mesh finds nothing waiting at CTL. -/
theorem takeCtl_free : (s.tick t).takeCtl (m :: ls) = some (s.tick t) := by
  have h0 := hqueue 0 (by decide)
  have h1 := hqueue 1 (by decide)
  have h2 := hqueue 2 (by decide)
  have h3 := hqueue 3 (by decide)
  simp [State.takeCtl, h0, h1, h2, h3]

include h hstep huniq hstarted hstream hkind hvc hgen

/-- The result of a slot that waits for one fills it. -/
theorem resultMessage_fills (hvalid : (run.slots.getD (fld (m.line.value s.freeVal) 0 8) {}).valid = true)
    (hempty : mget none run.results (fld (m.line.value s.freeVal) 0 8) = none) (hdone : run.doneAt = none) : exec (.resultMessage t (m :: ls)) s =
      .next (((s.tick t).modPlan p.img.id fun q => { q with step := q.step.map fun r =>
        { r with results := mset none r.results (fld (m.line.value s.freeVal) 0 8) (some (parseResult p.img.layout s.freeVal m ls)) } }).stepCheck
          p.img.id) := by
  have hmem : p ∈ (s.tick t).plans := List.mem_of_find?_eq_some h
  have hfree : (s.tick t).freeVal = s.freeVal := rfl
  rw [exec_resultMessage]
  unfold execResultMessage
  dsimp only
  rw [takeCtl_free hqueue]
  simp only [hkind, hvc, hgen, State.tick_gen, ne_eq, not_true_eq_false, or_self, if_false, hfree]
  rw [find?_unique hmem ?_ ?_]
  · simp only [hstarted, hstream, hstep, hvalid, hempty, hdone, BEq.rfl, Option.isNone_none, Bool.and_self]
  · intro q hq hhit
    refine huniq q hq ?_
    rcases hq' : q.step with _ | r
    · rw [hq', Bool.and_false] at hhit
      exact nomatch hhit
    · rfl

/-- The result of a slot that is not VALID is discarded. -/
theorem resultMessage_discarded (hinvalid : (run.slots.getD (fld (m.line.value s.freeVal) 0 8) {}).valid = false) :
    exec (.resultMessage t (m :: ls)) s = .next (s.tick t) := by
  have hfree : (s.tick t).freeVal = s.freeVal := rfl
  rw [exec_resultMessage]
  unfold execResultMessage
  dsimp only
  rw [takeCtl_free hqueue]
  simp only [hkind, hvc, hgen, State.tick_gen, ne_eq, not_true_eq_false, or_self, if_false, hfree]
  rw [List.find?_eq_none.2 ?_]
  intro q hq hhit
  rcases hq' : q.step with _ | r
  · rw [hq', Bool.and_false] at hhit
    exact nomatch hhit
  · obtain rfl := huniq q hq (by rw [hq']; rfl)
    simp only [hstep, hinvalid, Bool.false_and, Bool.and_false, Bool.false_eq_true] at hhit

end

end

end Sys2Proof.Machine
end

section
/-! SUPPORT. A scheduling point of a plan with one slot and one request (08 R238–R241, R247). -/

namespace Sys2Proof.Machine

variable {s u : State} {p q : Loaded} {r : Req} {k : Nat}

/-! ### A plan with nothing in flight and nothing placed -/

/-- Plan `p` alone is loaded, on this module only and without context memory; its one slot is free, no step is in flight and no select is in progress. -/
structure State.Idle (s : State) (p : Loaded) : Prop where
  plans : s.plans = [p]
  sel : s.weights.sel = none
  peer : p.img.layout.peer = false
  peers : p.peers = []
  slotOf : p.img.layout.slots = [(false, false)]
  slots : p.slots = []
  closed : p.closed = []
  map : p.map = none
  step : p.step = none

theorem State.Idle.of_same (h : s.Idle p) (hplans : u.plans = s.plans) (hweights : u.weights = s.weights) : u.Idle p :=
  { h with plans := hplans.trans h.plans, sel := hweights ▸ h.sel }

theorem plan_singleton (h : s.plans = [p]) : s.plan p.img.id = some p := by
  rw [State.plan, h]
  exact List.find?_cons_of_pos (beq_self_eq_true _)

theorem othersOf_alone (h : p.peers = []) : s.othersOf p = [] := by
  rw [State.othersOf, h]
  rfl

theorem draining_unselected (h : s.weights.sel = none) : s.draining p = false := by simp only [State.draining, h]

theorem drainIdle_unselected (h : s.weights.sel = none) : s.drainIdle p = s := by
  simp only [State.drainIdle, draining_unselected h, Bool.false_and, Bool.false_eq_true, if_false]

section
variable (h : s.Idle p)
include h

theorem State.Idle.inSlot (i : Nat) : s.inSlot p i = none := by simp only [State.inSlot, h.slots, mget]

theorem State.Idle.testPlaced (i : Nat) : s.testPlaced p i = s := by simp only [State.testPlaced, h.inSlot]

theorem State.Idle.slotList : p.slotList = [0] := by
  rw [Loaded.slotList, h.slotOf]
  rfl

/-- What is delivered at the point is the end of pending requests whose time is over. -/
theorem State.Idle.deliverAll : s.deliverAll p = (s.reqs.filter fun r => r.plan == p.img.id && r.slot.isNone).foldl
    (fun s r => if r.removed then s.removeReq p r else if s.passed r then s.retire p r stLate 4 else s) s := by
  unfold State.deliverAll
  rw [h.slotList, h.step]
  simp [h.testPlaced]

theorem State.Idle.stepClosed : s.modPlan p.img.id (fun q => { q with step := none }) = s := by
  have hp : ({ p with step := none } : Loaded) = p := by rw [← h.step]
  rw [State.modPlan, h.plans, List.map_singleton, if_pos rfl, hp, ← h.plans]

theorem State.Idle.sweep : s.sweep p.img.id = s := by
  rw [State.sweep, plan_singleton h.plans]
  dsimp only
  rw [h.slots, List.foldl_nil]

/-- With no request in a slot no step is launched. -/
theorem State.Idle.launch (drained : Bool) : s.launch p.img.id drained = s := by
  have hnone : s.nextProg p = none := by
    rw [State.nextProg, Option.map_eq_none_iff, List.find?_eq_none]
    simp [h.inSlot]
  simp only [State.launch, plan_singleton h.plans, hnone]

end

/-- The point places a request in the slot and launches a step. -/
theorem schedule_idle (h : s.Idle p) (hd : (s.deliverAll p).Idle p) : s.schedule p = ((s.deliverAll p).place p 0).launch p.img.id false := by
  unfold State.schedule
  rw [h.step]
  dsimp only
  rw [hd.stepClosed, hd.sweep, plan_singleton hd.plans]
  dsimp only
  rw [draining_unselected hd.sel, drainIdle_unselected hd.sel, hd.slotList]
  simp only [Bool.false_and, Bool.false_eq_true, if_false, List.foldl_cons, List.foldl_nil, plan_singleton hd.plans]

/-- A started plan on a serving module with no step in flight has its scheduling point at once. -/
theorem pointDue_idle (h : s.Idle p) (hserving : s.mode = .serving) (hstarted : p.started = true) (hstopping : p.stopping = false)
    (hrerun : p.rerun = none) : s.pointDue p = true := by
  unfold State.pointDue
  simp [hserving, hstarted, hstopping, h.peer, hrerun, h.step]

/-! ### Placement -/

/-- The request `r` of plan `p` waits, in class 1 and with no kept context to start from. -/
structure Req.Waits (r : Req) (p : Loaded) : Prop where
  plan : r.plan = p.img.id
  slot : r.slot = none
  cls : r.cls = 1
  removed : r.removed = false
  handle : r.handle = 0

/-- The request placed in slot 0. -/
def Req.placed (r : Req) : Req := { r with slot := some 0 }

/-- The plan with a request in slot 0. -/
def Loaded.placed (p : Loaded) (r : Req) : Loaded := { p with slots := mset none p.slots 0 (some (r.fn, r.id)) }

@[simp] theorem Req.placed_seed : r.placed.seed = r.seed := rfl

@[simp] theorem Loaded.placed_img : (p.placed r).img = p.img := rfl

theorem deliverAll_inTime (h : s.Idle p) (hreqs : s.reqs = [r]) (hr : r.Waits p) (htime : s.passed r = false) : s.deliverAll p = s := by
  rw [h.deliverAll, hreqs]
  simp [hr.plan, hr.slot, hr.removed, htime]

theorem deliverAll_late (h : s.Idle p) (hreqs : s.reqs = [r]) (hr : r.Waits p) (htime : s.passed r = true) :
    s.deliverAll p = s.retire p r stLate 4 := by
  rw [h.deliverAll, hreqs]
  simp [hr.plan, hr.slot, hr.removed, htime]

theorem place_none (h : s.Idle p) (hreqs : s.reqs = []) : s.place p 0 = s := by
  simp [State.place, h.slots, h.closed, mget, State.nextFor, hreqs]

theorem openSeq_contextless (h : p.map = none) (slot tenant lpn cls : Nat) (seed : BitVec 64) (use : Bool) (pre : Option Prefix) (start : Option Nat) :
    s.openSeq p slot tenant lpn cls seed use pre start = s := by
  unfold State.openSeq
  simp only [h]

/-- The state with this plan and this request alone. -/
def State.only (s : State) (p : Loaded) (r : Req) : State := { s with reqs := [r], plans := [p] }

theorem place_waiting (h : s.Idle p) (hreqs : s.reqs = [r]) (hr : r.Waits p) : s.place p 0 = s.only (p.placed r) r.placed := by
  have hnext : s.nextFor p 0 = some r := by
    simp [State.nextFor, hreqs, hr.plan, hr.slot, hr.cls, Layout.resC0, h.slotOf]
  have hfree : ((mget none p.slots 0).isSome || p.closed.contains 0) = false := by
    rw [h.slots, h.closed]
    rfl
  unfold State.place
  rw [hnext, hfree]
  dsimp only
  rw [openSeq_contextless h.map, if_pos (othersOf_alone h.peers)]
  simp [State.modReq, State.modPlan, hreqs, h.plans, Req.placed, Loaded.placed, State.only]

/-! ### The release of a step (08 R240, R241) -/

/-- The step that a plan of this module's only has in flight once it is released: what it waits for, and the pairs armed for it. -/
def State.launched (s : State) (p : Loaded) (run : StepRun) : StepRun :=
  { prog := run.prog, slots := run.slots, no := run.no, order := run.order, released := s.now, peers := [],
    arms := s.armed p run.prog run.no ((run.arms.filter (·.again)).map (·.pair)), swap := false,
    waiting := ((p.live.filter fun e => e.entries.getD run.prog 0xFFFF != 0xFFFF).filter (·.anchor run.prog)).map (·.bay) }

/-- The messages of a step: the audit's, the inputs, and the releases. -/
def State.stepSent (s : State) (p : Loaded) (run : StepRun) : State :=
  (p.live.filter fun e => e.entries.getD run.prog 0xFFFF != 0xFFFF).foldl
    (fun s e => s.toBay e.bay (.release s.gen run.prog run.slots)) ((s.sendArms (s.launched p run).arms).sendInputs p (s.launched p run))

/-- The plan with a step released, the next of its numbers. -/
def Loaded.released (q : Loaded) (run : StepRun) : Loaded := { q with step := some run, rerun := none, stepNo := q.stepNo + 1, recs := [] }

/-- With no select in progress and no other module in the plan, a step is its messages and its record. -/
theorem sendStep_alone (hsel : s.weights.sel = none) (hpeer : p.img.layout.peer = false) (hpeers : p.peers = []) (run : StepRun) (drained : Bool) :
    s.sendStep p run false drained = (s.stepSent p run).modPlan p.img.id (·.released (s.launched p run)) := by
  have hdue : s.swapDue p = false := by simp only [State.swapDue, hsel]
  unfold State.sendStep
  simp only [hdue, hsel, hpeer, othersOf_alone hpeers, Bool.false_and, Bool.or_self, Bool.false_eq_true, if_false, State.sendOrders, List.foldl_nil]
  rfl

/-- The messages of a step change neither the plans nor the requests. -/
theorem stepSent_kept (run : StepRun) : Kept [.rtrs, .host, .snags, .snagNext, .out] s (s.stepSent p run) :=
  foldl_kept (fun _ _ hu => toBay_kept hu _ _ (by decide)) (sendInputs_kept (sendArms_kept (.refl s) _ (by decide)) _ _ (by decide))

/-- Every bay with a stroke in the program gets its release. -/
theorem release_sent (run : StepRun) {e : PBay} (he : e ∈ p.live) (hentry : e.entries.getD run.prog 0xFFFF ≠ 0xFFFF) (htold : s.told e.bay 2) :
    .novko e.bay (.release s.gen run.prog run.slots) ∈ (s.stepSent p run).out := by
  have hmesh : ((s.sendArms (s.launched p run).arms).sendInputs p (s.launched p run)).SameMesh s := by
    refine State.SameMesh.trans (foldl_sameMesh _ (fun u e => ?_) _) (foldl_sameMesh s (fun u a => ?_) _)
    · split
      · exact foldl_sameMesh u (fun v m => toBay_sameMesh v _ _) _
      · exact .refl u
    · exact (toBay_sameMesh _ _ _).trans (toBay_sameMesh u _ _)
  have hin : e ∈ p.live.filter fun e => e.entries.getD run.prog 0xFFFF != 0xFFFF := List.mem_filter.2 ⟨he, bne_iff_ne.2 hentry⟩
  have hsent := foldl_toBay_told (·.bay) (fun s _ => .release s.gen run.prog run.slots) (fun u v huv => by rw [huv]) hin (hmesh.told htold)
  rw [hmesh.gen] at hsent
  exact hsent

/-- The slot table of the request in the prompt phase in slot 0. -/
def Req.firstSlot (r : Req) : SlotEnt := { seed := r.seed, pos := BitVec.ofNat 32 (r.base + r.sent), valid := true }

theorem inSlot_placed : (s.only q r.placed).inSlot (p.placed r) 0 = some r.placed := by
  simp [State.only, State.inSlot, Loaded.placed, mget_mset_same, State.req, Req.placed]

theorem takes_placed {g : Prog} (hrole : g.role = 1) (hsent : r.sent < r.prompt) : g.takes r.placed = true := by
  rw [Prog.takes, if_pos hrole]
  exact decide_eq_true hsent

section
variable (hrole : (p.img.layout.progs.getD k {}).role = 1) (hsent : r.sent < r.prompt)
include hrole hsent

theorem prog_takes_placed : (p.img.layout.progs[k]?.getD {}).takes r.placed = true := by
  rw [← List.getD_eq_getElem?_getD]
  exact takes_placed hrole hsent

theorem nextProg_placed (h : s.Idle p) (hcycle : p.img.layout.cycle = [k]) : (s.only (p.placed r) r.placed).nextProg (p.placed r) = some (0, k) := by
  have hlist : (p.placed r).slotList = [0] := h.slotList
  have hlen : (p.placed r).img.layout.cycle = [k] := hcycle
  unfold State.nextProg
  rw [hlen, hlist]
  simp [inSlot_placed, prog_takes_placed hrole hsent, Nat.mod_one]

theorem slotTable_placed (h : s.Idle p) : (s.only (p.placed r) r.placed).slotTable (p.placed r) k = [r.firstSlot] := by
  have hslots : (p.placed r).img.layout.slots = [(false, false)] := h.slotOf
  have hpos : (s.only (p.placed r) r.placed).basePos (p.placed r) 0 r.placed = r.base + r.sent := if_pos hsent
  unfold State.slotTable
  rw [hslots]
  simp [inSlot_placed, prog_takes_placed hrole hsent, hpos, Req.firstSlot]

end

/-- The state from which the step of the placed request is sent. -/
def State.launching (s : State) (p : Loaded) (r : Req) : State := s.only { p.placed r with pos := 0 } r.placed

/-- The first step of the request placed, of program `k`. -/
def Loaded.firstStep (p : Loaded) (k : Nat) (r : Req) : StepRun := { prog := k, slots := [r.firstSlot], no := p.stepNo }

/-- A request placed in the prompt phase is launched with the one program of the cycle. -/
theorem launch_placed (h : s.Idle p) (hcycle : p.img.layout.cycle = [k]) (hrole : (p.img.layout.progs.getD k {}).role = 1)
    (hsent : r.sent < r.prompt) : (s.only (p.placed r) r.placed).launch p.img.id false =
      (s.launching p r).sendStep (p.placed r) (p.firstStep k r) false false := by
  have hplan : (s.only (p.placed r) r.placed).plan p.img.id = some (p.placed r) := plan_singleton (p := p.placed r) rfl
  have hmod : (s.only (p.placed r) r.placed).modPlan p.img.id (fun q => { q with pos := 0 }) = s.launching p r := by
    simp [State.modPlan, State.only, Loaded.placed, State.launching]
  rw [State.launch, hplan]
  dsimp only
  rw [nextProg_placed hrole hsent h hcycle]
  dsimp only
  rw [slotTable_placed hrole hsent h, hmod]
  rfl

/-- The step of the placed request is in flight in the plan once its messages are sent. -/
theorem sendStep_placed (h : s.Idle p) (run : StepRun) : (s.launching p r).sendStep (p.placed r) run false false =
    ((s.launching p r).stepSent (p.placed r) run).modPlan p.img.id
      (·.released ((s.launching p r).launched (p.placed r) run)) := by
  have hsel : (s.launching p r).weights.sel = none := h.sel
  have hpeer : (p.placed r).img.layout.peer = false := h.peer
  have hpeers : (p.placed r).peers = [] := h.peers
  rw [sendStep_alone hsel hpeer hpeers, Loaded.placed_img]

end Sys2Proof.Machine
end

section
/-! SUPPORT. Steps and scheduling points settled (05 R169; 08 R238–R242, R247, R249). -/

namespace Sys2Proof.Machine

variable {s u : State} {p : Loaded} {r : Req} {k t : Nat}

/-! ### A request retired late (08 R246, R247, R249) -/

theorem leNat_append_replicate (bs : List Byte) (n : Nat) : leNat (bs ++ List.replicate n 0) = leNat bs := by
  induction bs with
  | nil => induction n with
    | zero => rfl
    | succ n ih => simpa [List.replicate_succ, leNat] using ih
  | cons b bs ih => rw [List.cons_append, leNat, ih, leNat]

theorem leNat_leBytes (n x : Nat) : leNat (leBytes n x) = x % 256 ^ n := by
  induction n generalizing x with
  | zero => simp [leBytes, leNat, Nat.mod_one]
  | succ n ih =>
    rw [leBytes, leNat, ih, BitVec.toNat_ofNat, pow_succ' 256, Nat.mod_mul]

/-- A field of a byte string that stands `o` bytes in. -/
theorem natAt_field {a c : List Byte} {o : Nat} (ha : a.length = o) (n x : Nat) : natAt (a ++ (leBytes n x ++ c)) o n = x % 256 ^ n := by
  unfold natAt bytesAt
  rw [List.drop_left' ha, List.take_left' (length_leBytes n x), leNat_append_replicate, leNat_leBytes]

section
variable (r) (status reason gen handle now : Nat)

theorem record_id : natAt (r.record status reason gen handle now) 0 4 = r.id % 2 ^ 32 := by
  simp only [Req.record, List.append_assoc]
  exact natAt_field (a := []) rfl 4 r.id

theorem record_status : natAt (r.record status reason gen handle now) 4 1 = status % 256 := by
  simp only [Req.record, List.append_assoc]
  exact natAt_field (length_leBytes 4 r.id) 1 status

theorem record_reason : natAt (r.record status reason gen handle now) 5 1 = reason % 256 := by
  simp only [Req.record, List.append_assoc]
  rw [← List.append_assoc (leBytes 4 r.id)]
  exact natAt_field (by simp) 1 reason

end

/-- The record of a request that retires is written where its function may write host memory. -/
theorem recorded_written (hwrite : s.mayWrite r.fn = true) (status reason handle : Nat) :
    .hostWrite r.fn r.outAddr (r.record status reason s.gen.toNat handle s.mtime) (s.streamOf r.fn) ∈ (s.recorded r status reason handle).out := by
  unfold State.recorded
  rw [if_pos hwrite, State.hostWrite, if_pos hwrite]
  exact (countFn_kept (L := [.host, .out]) (raise_kept (.refl _) _ _ (by decide)) _ _ (by decide)).out.mem (mem_emit _ _)

/-- A request that waits and retires is dropped; its record has been written. -/
theorem retire_waiting (hslot : r.slot = none) (status reason : Nat) :
    ∃ g : State × Req, ∃ f x, Kept [.out] s g.1 ∧ g.2 = { r with given := f, tFirst := x } ∧ s.retire p r status reason = (g.1.recorded g.2 status reason 0).dropReq r := by
  obtain ⟨given, first, hg⟩ := delivered_snd s p r reason
  refine ⟨s.delivered p r reason, given, first, delivered_kept s p r reason, hg, ?_⟩
  have hkeep : (s.delivered p r reason).1.prefixKept p (s.delivered p r reason).2 reason = ((s.delivered p r reason).1, 0) := by
    unfold State.prefixKept State.keepAtEnd
    rw [hg]
    dsimp only
    rw [hslot]
    exact ite_self _
  rw [retire_eq]
  dsimp only
  rw [hkeep]
  unfold State.tellRetired
  rw [hg]
  dsimp only
  rw [hslot]
  rfl

/-! ### The scheduling point (08 R239) -/

theorem schedulingPoint_notDue (h : s.plan p.img.id = some p) (hdue : (s.tick t).pointDue p = false) :
    exec (.schedulingPoint t p.img.id) s = .next (s.tick t) := by
  have hplan : (s.tick t).plan p.img.id = some p := h
  rw [exec_schedulingPoint, execSchedulingPoint]
  simp only [hplan, hdue, Bool.false_eq_true, if_false]

theorem schedulingPoint_due (h : s.plan p.img.id = some p) (hdue : (s.tick t).pointDue p = true) (hu : (s.tick t).schedule p = u)
    (hstarts : u.weights.startQ = []) : exec (.schedulingPoint t p.img.id) s = .next u := by
  have hplan : (s.tick t).plan p.img.id = some p := h
  rw [exec_schedulingPoint, execSchedulingPoint]
  simp only [hplan, hdue, if_true, hu, pumpStarts_idle hstarts]

theorem deadlineExpiry_reaches {fn id d : Nat} (h : s.req fn id = some r) (hdeadline : r.deadline = some d) :
    exec (.deadlineExpiry t fn id) s = .next { s with now := max (max s.now t) (s.leftOff + d) } := by
  have hreq : (s.tick t).req fn id = some r := h
  rw [exec_deadlineExpiry, execDeadlineExpiry]
  simp only [hreq, hdeadline]
  rfl

section
variable (h : s.Idle p) (hreqs : s.reqs = [r]) (hr : r.Waits p)
include h hreqs hr

/-- A pending request whose time is over ends, with status LATE and reason 4. -/
theorem schedule_late (htime : s.passed r = true) : (s.schedule p).reqs = [] ∧ (s.schedule p).Idle p ∧ (s.schedule p).weights = s.weights ∧
    (s.mayWrite r.fn = true → ∃ record, .hostWrite r.fn r.outAddr record (s.streamOf r.fn) ∈ (s.schedule p).out ∧
      natAt record 0 4 = r.id % 2 ^ 32 ∧ natAt record 4 1 = 1 ∧ natAt record 5 1 = 4) := by
  obtain ⟨⟨v, q⟩, given, first, hkept, rfl, hretire⟩ := retire_waiting (p := p) (s := s) hr.slot stLate 4
  have hrecorded := recorded_kept v { r with given := given, tFirst := first } stLate 4 0
  have hend : s.deliverAll p = (v.recorded { r with given := given, tFirst := first } stLate 4 0).dropReq r :=
    (deliverAll_late h hreqs hr htime).trans hretire
  have hall : Kept [.host, .out] s (v.recorded { r with given := given, tFirst := first } stLate 4 0) := (hkept.mono (by decide)).trans hrecorded
  have hempty : (s.deliverAll p).reqs = [] := by
    have hsame : (v.recorded { r with given := given, tFirst := first } stLate 4 0).reqs = [r] := (hall.frame .reqs (by decide)).trans hreqs
    rw [hend, State.dropReq]
    simp [hsame]
  have hweights : (s.deliverAll p).weights = s.weights := by
    rw [hend]
    exact hall.frame .weights (by decide)
  have hidle : (s.deliverAll p).Idle p := h.of_same (by rw [hend]; exact hall.frame .plans (by decide)) hweights
  have hpoint : s.schedule p = s.deliverAll p := by rw [schedule_idle h hidle, place_none hidle hempty, hidle.launch]
  rw [hpoint]
  refine ⟨hempty, hidle, hweights, fun hwrite => ?_⟩
  have hhost : v.host = s.host := hkept.frame .host (by decide)
  have hkeep : v.keep = s.keep := hkept.frame .keep (by decide)
  have hstream : v.streamOf r.fn = s.streamOf r.fn := by rw [State.streamOf, State.streamOf, hkeep]
  have hmay : v.mayWrite r.fn = true := by rwa [State.mayWrite, hhost]
  rw [hend, ← hstream]
  exact ⟨_, recorded_written (r := { r with given := given, tFirst := first }) hmay stLate 4 0,
    record_id _ _ _ _ _ _, record_status _ _ _ _ _ _, record_reason _ _ _ _ _ _⟩

/-- A pending request in the prompt phase is placed, and its first step is launched. -/
theorem schedule_places (htime : s.passed r = false) (hcycle : p.img.layout.cycle = [k]) (hrole : (p.img.layout.progs.getD k {}).role = 1)
    (hsent : r.sent < r.prompt) : s.schedule p = ((s.launching p r).stepSent (p.placed r) (p.firstStep k r)).modPlan p.img.id
      (·.released ((s.launching p r).launched (p.placed r) (p.firstStep k r))) := by
  have hdeliver := deliverAll_inTime h hreqs hr htime
  have hpoint := schedule_idle h (hdeliver.symm ▸ h)
  rwa [hdeliver, place_waiting h hreqs hr, launch_placed h hcycle hrole hsent, sendStep_placed h] at hpoint

/-- After the point the request is in its slot and its step in flight; the starts of other weight sets stand as they did. -/
theorem schedule_launched (htime : s.passed r = false) (hcycle : p.img.layout.cycle = [k]) (hrole : (p.img.layout.progs.getD k {}).role = 1)
    (hsent : r.sent < r.prompt) : (s.schedule p).reqs = [r.placed] ∧ (s.schedule p).weights = s.weights ∧
      (s.schedule p).plan p.img.id = some (({ p.placed r with pos := 0 } : Loaded).released ((s.launching p r).launched (p.placed r) (p.firstStep k r))) ∧
      (s.schedule p).out = ((s.launching p r).stepSent (p.placed r) (p.firstStep k r)).out := by
  have hkept := stepSent_kept (s := s.launching p r) (p := p.placed r) (p.firstStep k r)
  have hplans : ((s.launching p r).stepSent (p.placed r) (p.firstStep k r)).plans = [{ p.placed r with pos := 0 }] := hkept.frame .plans (by decide)
  rw [schedule_places h hreqs hr htime hcycle hrole hsent]
  refine ⟨hkept.frame .reqs (by decide), hkept.frame .weights (by decide), ?_, rfl⟩
  have hplan : ((s.launching p r).stepSent (p.placed r) (p.firstStep k r)).plan p.img.id = some { p.placed r with pos := 0 } :=
    plan_singleton (p := { p.placed r with pos := 0 }) hplans
  rw [plan_modPlan _ (f := (·.released _)) fun _ h => h, hplan]
  rfl

end

end Sys2Proof.Machine

namespace Sys2Proof
open Machine

/-- Settles O52: the point of a plan with one request and one slot is worked out to the end, deliveries first, then placement, then the release. -/
theorem stepsAndSchedulingPoints : Obligations.StepsAndSchedulingPoints := by
  unfold Obligations.StepsAndSchedulingPoints
  intro t fn k b gen p r run g m ls s
  refine ⟨fun hgen => ?_, fun h hstep huniq hdone => ⟨fun hin hmore => ?_, fun hwait hpeers hanswered hpeer hcert hanchor => ?_,
    fun hstarted hstream hkind hvc hgen hflips hqueue hwait => ⟨fun hvalid hempty => ?_, fun hinvalid => ?_⟩⟩, schedulingPoint_notDue, ?_,
    fun d => deadlineExpiry_reaches⟩
  · exact stepDoneNotice_stale hgen
  · obtain ⟨u, hplan, hreqs, hexec⟩ := stepDoneNotice_waits (t := t) h hstep huniq hin hmore
    have hfilter : run.waiting.filter (· != b.val) = run.waiting.filter (· ≠ b.val) := List.filter_congr fun _ _ => by simp [bne, beq_eq_decide]
    rw [hfilter] at hplan
    exact next_of_eq hexec ⟨_, hplan, rfl, hreqs⟩
  · obtain ⟨u, x, hplan, hnone, hat, hmeasured, hexec⟩ :=
      stepDoneNotice_completes (t := t) h hstep huniq hdone hwait hpeers hanswered hpeer hcert hanchor
    exact next_of_eq hexec ⟨_, x, hplan, rfl, hnone, hat, hmeasured⟩
  · have hvalue : m.line.value s.freeVal = m.line.data := if_pos hflips
    have hfills := resultMessage_fills (t := t) (ls := ls) h hstep huniq hstarted hstream hkind hvc hgen hqueue (hvalue ▸ hvalid) (hvalue ▸ hempty) hdone
    have hplan := plan_modStep (s := s.tick t) h hstep fun r =>
      { r with results := mset none r.results (fld (m.line.value s.freeVal) 0 8) (some (parseResult p.img.layout s.freeVal m ls)) }
    rw [stepCheck_waits hplan rfl hwait] at hfills
    rw [hvalue] at hplan hfills
    refine next_of_eq hfills ⟨_, _, _, hplan, rfl, rfl, hdone, ?_⟩
    simp only [parseResult, hvalue]
    exact ⟨trivial, trivial, fun htensor => by simp only [htensor, Bool.false_eq_true, if_false]⟩
  · have hvalue : m.line.value s.freeVal = m.line.data := if_pos hflips
    exact next_of_eq (resultMessage_discarded (t := t) (ls := ls) h hstep huniq hstarted hstream hkind hvc hgen hqueue (hvalue ▸ hinvalid)) rfl
  · intro hserving hplans hstarted hstopping hpeer hrerun hstep hslots hmap hpeers hclosed hsel hstarts hslotOf hcycle hprog hrole hreqs hplan hslot hcls
      hremoved hhandle hsent
    subst hprog
    have hidle : (s.tick t).Idle p := ⟨hplans, hsel, hpeer, hpeers, hslotOf, hslots, hclosed, hmap, hstep⟩
    have hwaits : r.Waits p := ⟨hplan, hslot, hcls, hremoved, hhandle⟩
    have hdue := pointDue_idle hidle hserving hstarted hstopping hrerun
    refine ⟨fun hdeadline => ?_, fun d hdeadline hd => ?_⟩
    · have htime : (s.tick t).passed r = false := by simp only [State.passed, hdeadline]
      obtain ⟨hplaced, hweights, hlaunched, hout⟩ := schedule_launched hidle hreqs hwaits htime hcycle hrole hsent
      have hnamed : mget none (p.placed r).slots 0 = some (r.fn, r.id) := mget_mset_same (m := p.slots) 0 (some (r.fn, r.id))
      have hmesh : ((s.tick t).launching p r).SameMesh s := ⟨rfl, rfl, rfl, fun _ => rfl, fun _ => rfl⟩
      refine next_of_eq (schedulingPoint_due (plan_singleton hplans) hdue rfl (hweights ▸ hstarts))
        ⟨hplaced, _, _, hlaunched, rfl, rfl, rfl, rfl, hnamed, rfl, rfl, rfl, fun e he hentry htold => ?_⟩
      rw [hout]
      exact release_sent (p := p.placed r) (p.firstStep k r) he hentry (hmesh.told htold)
    · have htime : (s.tick t).passed r = true := by simp only [State.passed, hdeadline, hd, decide_true]
      obtain ⟨hempty, hend, hweights, hrecord⟩ := schedule_late hidle hreqs hwaits htime
      refine next_of_eq (schedulingPoint_due (plan_singleton hplans) hdue rfl (hweights ▸ hstarts)) ⟨hempty, ⟨p, plan_singleton hend.plans, hend.step⟩, ?_⟩
      intro hmaster hup
      exact hrecord (Bool.and_eq_true _ _ ▸ ⟨hmaster, hup⟩)

end Sys2Proof
end

section
/-! SUPPORT. The fields of link headers (06 R178, R184). -/

namespace Sys2Proof.Machine

/-! ### Fields of a word (06 R178) -/

theorem fld_lt {w : Nat} (v : BitVec w) (lo n : Nat) : fld v lo n < 2 ^ n := BitVec.isLt _

theorem fld_or {w : Nat} (u v : BitVec w) (lo n : Nat) : fld (u ||| v) lo n = fld u lo n ||| fld v lo n := by
  rw [fld, BitVec.extractLsb'_or, BitVec.toNat_or]
  rfl

/-- A bit is the field of width 1 at its place. -/
theorem getLsbD_eq_fld {w : Nat} (v : BitVec w) (i : Nat) : v.getLsbD i = decide (fld v i 1 = 1) := by
  have hbit := BitVec.getLsbD_extractLsb' i 1 v 0
  rw [decide_eq_true Nat.one_pos, Bool.true_and, Nat.add_zero] at hbit
  rw [← hbit, fld, BitVec.getLsbD, Nat.testBit_zero, Nat.mod_eq_of_lt (BitVec.isLt _)]

section
variable {v at_ lo n : Nat} (hfit : lo + n ≤ 64)
include hfit

theorem fld_placed : fld (BitVec.ofNat 64 (v * 2 ^ at_)) lo n = v * 2 ^ at_ / 2 ^ lo % 2 ^ n := by
  rw [fld, extract_ofNat _ _ hfit, BitVec.toNat_ofNat]

/-- A value placed at a field is read from it. -/
theorem fld_placed_here (hv : v < 2 ^ n) : fld (BitVec.ofNat 64 (v * 2 ^ lo)) lo n = v := by
  rw [fld_placed hfit, Nat.mul_div_cancel _ (by positivity), Nat.mod_eq_of_lt hv]

/-- A value placed above a field leaves it 0. -/
theorem fld_placed_above (habove : lo + n ≤ at_) : fld (BitVec.ofNat 64 (v * 2 ^ at_)) lo n = 0 := by
  obtain ⟨d, rfl⟩ := Nat.exists_eq_add_of_le habove
  rw [fld_placed hfit, Nat.add_assoc, Nat.pow_add, Nat.mul_left_comm, Nat.mul_div_cancel_left _ (by positivity), Nat.pow_add,
    Nat.mul_left_comm, Nat.mul_mod_right]

/-- A value placed below a field that it does not reach leaves it 0. -/
theorem fld_placed_below (hbelow : at_ ≤ lo) (hv : v < 2 ^ (lo - at_)) : fld (BitVec.ofNat 64 (v * 2 ^ at_)) lo n = 0 := by
  have hlt : v * 2 ^ at_ < 2 ^ lo := by
    calc v * 2 ^ at_ < 2 ^ (lo - at_) * 2 ^ at_ := Nat.mul_lt_mul_of_pos_right hv (by positivity)
      _ = 2 ^ lo := by rw [← Nat.pow_add, Nat.sub_add_cancel hbelow]
  rw [fld_placed hfit, Nat.div_eq_of_lt hlt, Nat.zero_mod]

end

end Sys2Proof.Machine

namespace Sys2Proof

open Machine

/-- Settles O32: each field of the header reads the value placed there, and 0 from the values placed above and below it. -/
theorem headersCarryTheRouteEntry : Obligations.HeadersCarryTheRouteEntry := by
  unfold Obligations.HeadersCarryTheRouteEntry
  intro route vc kind stream gen last hvc hkind hstream htype
  have hgen := gen.isLt
  have hlast : (if last then 1 else 0) < 2 := by split <;> omega
  have horder := fld_lt route 2 1
  have hwp := fld_lt route 3 1
  have hdx := fld_lt route 4 5
  have hdy := fld_lt route 9 6
  have hexit := fld_lt route 15 3
  have hwx := fld_lt route 18 5
  have hwy := fld_lt route 23 6
  have hunit := fld_lt route 49 8
  have hgenField (h : BitVec 64) : hGen h = gen ↔ fld h 34 8 = gen.toNat := BitVec.toNat_inj.symm
  simp (disch := omega) only [hgenField, hVc, hKind, hStream, hLast, hMcast, hWpr, hOrder, hWp, hDx, hDy, hExit, hWx, hWy, hUnit,
    getLsbD_eq_fld, mkHdr, if_neg htype, fld_or, fld_placed_here, fld_placed_above, fld_placed_below, Nat.or_zero, Nat.zero_or,
    Nat.mod_eq_of_lt hstream]
  cases last <;> simp

end Sys2Proof
end

section
/-! SUPPORT. The places of the mesh and the steps of a unicast line (00 R4; 06 R176, R181, R183). -/

namespace Sys2Proof.Machine

/-! ### Places of the mesh (00 R4; 06 R176, R181) -/

theorem meshX_lt (b : Nat) : meshX b < 32 := by unfold meshX bayOf; omega

theorem meshY_lt {b : Nat} (hb : b < 1152) : meshY b < 36 := by unfold meshY bayOf dieOf; omega

section
variable {x y : Nat} (hx : x < 32)
include hx

theorem meshX_bayAt : meshX (bayAt x y) = x := by unfold meshX dieOf bayOf bayAt; omega

theorem meshY_bayAt : meshY (bayAt x y) = y := by unfold meshY dieOf bayOf bayAt; omega

theorem bayAt_lt (hy : y < 36) : bayAt x y < 1152 := by unfold bayAt; omega

/-- The router at a place of the mesh. -/
theorem router_bayAt (hy : y < 36) : ∃ c, Nbr.router (bayAt x y) = .router c ∧ c < 1152 ∧ meshX c = x ∧ meshY c = y :=
  ⟨_, rfl, bayAt_lt hx hy, meshX_bayAt hx, meshY_bayAt hx⟩

end

section
variable {b : Nat} (hb : b < 1152)
include hb

theorem nbr_north (h : meshY b ≠ 0) : ∃ c, nbr b 0 = .router c ∧ c < 1152 ∧ meshX c = meshX b ∧ meshY c = meshY b - 1 := by
  have hy := meshY_lt hb
  rw [nbr, if_neg h]
  exact router_bayAt (meshX_lt b) (by omega)

theorem nbr_east (h : meshX b ≠ 31) : ∃ c, nbr b 1 = .router c ∧ c < 1152 ∧ meshX c = meshX b + 1 ∧ meshY c = meshY b := by
  have hx := meshX_lt b
  rw [nbr, if_neg h]
  exact router_bayAt (by omega) (meshY_lt hb)

theorem nbr_south (h : meshY b ≠ 35) : ∃ c, nbr b 2 = .router c ∧ c < 1152 ∧ meshX c = meshX b ∧ meshY c = meshY b + 1 := by
  have hy := meshY_lt hb
  rw [nbr, if_neg h]
  exact router_bayAt (meshX_lt b) (by omega)

theorem nbr_west (h : meshX b ≠ 0) : ∃ c, nbr b 3 = .router c ∧ c < 1152 ∧ meshX c = meshX b - 1 ∧ meshY c = meshY b := by
  have hx := meshX_lt b
  rw [nbr, if_neg h]
  exact router_bayAt (by omega) (meshY_lt hb)

end

/-- No router faces itself. -/
theorem nbr_ne_self {b c p : Nat} (hb : b < 1152) (h : nbr b p = .router c) : c ≠ b := by
  rintro rfl
  have hx := meshX_lt c
  have hy := meshY_lt hb
  have helse {x y : Nat} (hlt : x < 32) (hne : x ≠ meshX c ∨ y ≠ meshY c) : Nbr.router (bayAt x y) ≠ .router c := fun heq => by
    have hbay := Nbr.router.inj heq
    have hplace : meshX c = x ∧ meshY c = y := by
      rw [← hbay]
      exact ⟨meshX_bayAt hlt, meshY_bayAt hlt⟩
    omega
  unfold nbr at h
  dsimp only at h
  split at h
  case h_1 =>
    split at h
    · exact nomatch h
    · exact helse hx (by omega) h
  case h_2 =>
    split at h
    · exact nomatch h
    · exact helse (by omega) (by omega) h
  case h_3 =>
    split at h
    · split at h <;> exact nomatch h
    · exact helse hx (by omega) h
  case h_4 =>
    split at h
    · exact nomatch h
    · exact helse (by omega) (by omega) h
  case h_5 => exact nomatch h

/-! ### The waypoint's mark (06 R183) -/

section
variable (b : Nat) (h : BitVec 64)

/-- The mark sets WPR, bit 8, and nothing else. -/
theorem getLsbD_markWaypoint {i : Nat} (hi : i ≠ 8) : (markWaypoint b h).getLsbD i = h.getLsbD i := by
  unfold markWaypoint
  split
  · have hmark : (0x100 : BitVec 64).getLsbD i = false := by
      rw [show (0x100 : BitVec 64) = BitVec.twoPow 64 8 from rfl, BitVec.getLsbD_twoPow, Bool.and_eq_false_iff]
      exact .inr (decide_eq_false fun e => hi e.symm)
    rw [BitVec.getLsbD_or, hmark, Bool.or_false]
  · rfl

/-- A field that WPR does not lie in is kept by the mark. -/
theorem fld_markWaypoint {lo n : Nat} (hout : lo + n ≤ 8 ∨ 9 ≤ lo) : fld (markWaypoint b h) lo n = fld h lo n := by
  refine congrArg BitVec.toNat (BitVec.eq_of_getLsbD_eq fun i hi => ?_)
  rw [BitVec.getLsbD_extractLsb', BitVec.getLsbD_extractLsb', getLsbD_markWaypoint b h (by omega)]

@[simp] theorem hWp_markWaypoint : hWp (markWaypoint b h) = hWp h := getLsbD_markWaypoint b h (by decide)
@[simp] theorem hOrder_markWaypoint : hOrder (markWaypoint b h) = hOrder h := getLsbD_markWaypoint b h (by decide)
@[simp] theorem hDx_markWaypoint : hDx (markWaypoint b h) = hDx h := fld_markWaypoint b h (by decide)
@[simp] theorem hDy_markWaypoint : hDy (markWaypoint b h) = hDy h := fld_markWaypoint b h (by decide)
@[simp] theorem hWx_markWaypoint : hWx (markWaypoint b h) = hWx h := fld_markWaypoint b h (by decide)
@[simp] theorem hWy_markWaypoint : hWy (markWaypoint b h) = hWy h := fld_markWaypoint b h (by decide)
@[simp] theorem hExit_markWaypoint : hExit (markWaypoint b h) = hExit h := fld_markWaypoint b h (by decide)

variable {h} (hcast : hMcast h = false)
include hcast

/-- WPR is 1 once the line has been at its waypoint. -/
theorem hWpr_markWaypoint :
    hWpr (markWaypoint b h) = true ↔ hWpr h = true ∨ hWp h = true ∧ meshX b = hWx h ∧ meshY b = hWy h := by
  have hset : hWpr (h ||| 0x100) = true := by
    rw [hWpr, BitVec.getLsbD_or]
    exact Bool.or_true _
  unfold markWaypoint
  rw [hcast]
  split
  · rename_i hhere
    simp only [Bool.not_false, Bool.true_and, Bool.and_eq_true, beq_iff_eq] at hhere
    obtain ⟨⟨⟨hwp, -⟩, hx⟩, hy⟩ := hhere
    exact iff_of_true hset (.inr ⟨hwp, hx, hy⟩)
  · rename_i haway
    refine ⟨.inl, fun hor => hor.elim id fun ⟨hwp, hx, hy⟩ => ?_⟩
    by_contra hwpr
    exact haway (by simp [hwp, hx, hy, hwpr])

end

/-! ### The step of a unicast line (06 R183) -/

section
variable (b : Nat) (h : BitVec 64)

/-- The x of the place a line at router `b` makes for: its waypoint's until it has been there, then its destination's. -/
def targetX : Nat := if hWp h = true ∧ hWpr (markWaypoint b h) = false then hWx h else hDx h

/-- The y of that place. -/
def targetY : Nat := if hWp h = true ∧ hWpr (markWaypoint b h) = false then hWy h else hDy h

theorem targetX_lt : targetX b h < 32 := by
  unfold targetX
  split
  · exact fld_lt h 23 5
  · exact fld_lt h 9 5

/-- The step of a line: out at the target, else along x or y, by ORDER. -/
theorem routePort_markWaypoint : routePort b (markWaypoint b h) =
    if meshX b = targetX b h ∧ meshY b = targetY b h then exitPort (hExit h)
    else if (if hOrder h then meshY b = targetY b h else meshX b ≠ targetX b h) then (if meshX b < targetX b h then 1 else 3)
    else if meshY b < targetY b h then 2 else 0 := by
  have hto : (hWp h && !hWpr (markWaypoint b h)) = true ↔ hWp h = true ∧ hWpr (markWaypoint b h) = false := by simp
  simp only [routePort, hWp_markWaypoint, hOrder_markWaypoint, hDx_markWaypoint, hDy_markWaypoint, hWx_markWaypoint, hWy_markWaypoint,
    hExit_markWaypoint, hto]
  rw [← targetX, ← targetY]
  cases hOrder h
  · by_cases hx : meshX b = targetX b h <;> simp [hx]
  · rfl

/-- A line that has its waypoint before it is not there: at its target it has arrived. -/
theorem target_arrived (hcast : hMcast h = false) (hx : meshX b = targetX b h) (hy : meshY b = targetY b h) :
    targetX b h = hDx h ∧ targetY b h = hDy h := by
  have hthere : ¬(hWp h = true ∧ hWpr (markWaypoint b h) = false) := fun hto => by
    rw [targetX, if_pos hto] at hx
    rw [targetY, if_pos hto] at hy
    have hmarked := (hWpr_markWaypoint b hcast).2 (.inr ⟨hto.1, hx, hy⟩)
    exact Bool.false_ne_true (hto.2.symm.trans hmarked)
  exact ⟨if_neg hthere, if_neg hthere⟩

end

/-- The router beyond port `p` is one hop nearer to the place (tx, ty), in the direction of the port. -/
def Nearer (b p tx ty : Nat) : Prop :=
  ∃ c, nbr b p = .router c ∧ c < 1152 ∧
    ((meshX c : Int) - tx).natAbs + ((meshY c : Int) - ty).natAbs + 1 = ((meshX b : Int) - tx).natAbs + ((meshY b : Int) - ty).natAbs ∧
    (p = 0 → meshX c = meshX b ∧ meshY c + 1 = meshY b) ∧ (p = 1 → meshX c = meshX b + 1 ∧ meshY c = meshY b) ∧
    (p = 2 → meshX c = meshX b ∧ meshY c = meshY b + 1) ∧ (p = 3 → meshX c + 1 = meshX b ∧ meshY c = meshY b)

section
variable {b tx ty : Nat} (hb : b < 1152)
include hb

theorem nearer_alongX (htx : tx < 32) (hne : meshX b ≠ tx) : Nearer b (if meshX b < tx then 1 else 3) tx ty := by
  split
  · obtain ⟨c, hc, hlt, hx, hy⟩ := nbr_east hb (by omega)
    exact ⟨c, hc, hlt, by omega, by omega⟩
  · obtain ⟨c, hc, hlt, hx, hy⟩ := nbr_west hb (by omega)
    exact ⟨c, hc, hlt, by omega, by omega⟩

theorem nearer_alongY (hty : ty ≤ 35) (hne : meshY b ≠ ty) : Nearer b (if meshY b < ty then 2 else 0) tx ty := by
  split
  · obtain ⟨c, hc, hlt, hx, hy⟩ := nbr_south hb (by omega)
    exact ⟨c, hc, hlt, by omega, by omega⟩
  · obtain ⟨c, hc, hlt, hx, hy⟩ := nbr_north hb (by omega)
    exact ⟨c, hc, hlt, by omega, by omega⟩

end

end Sys2Proof.Machine

namespace Sys2Proof

open Machine

/-- Settles O33: the mark sets WPR only, and the step that follows it is along x or along y towards the target, where the next router lies. -/
theorem routersTakeTheUnicastSteps : Obligations.RoutersTakeTheUnicastSteps := by
  unfold Obligations.RoutersTakeTheUnicastSteps
  intro b h hcast x y m p tx ty dist
  have hp : p = _ := routePort_markWaypoint b h
  have hout (s : State) : s.outPorts b h = BitVec.ofNat 5 (2 ^ p) := if_neg (by simp [hcast])
  refine ⟨fun i _ hi => getLsbD_markWaypoint b h hi, hWpr_markWaypoint b hcast, hout, fun hx hy => ?_, fun haway => ?_⟩
  · obtain ⟨hdx, hdy⟩ := target_arrived b h hcast hx hy
    rw [hp, if_pos ⟨hx, hy⟩]
    exact ⟨hdx, hdy, fun hzero => if_pos hzero, fun hone _ => if_neg (by omega)⟩
  · rw [if_neg (show ¬(meshX b = targetX b h ∧ meshY b = targetY b h) from haway)] at hp
    refine ⟨fun horder hne => ?_, fun horder heq => ?_, fun horder hne => ?_, fun horder heq => ?_, fun hty => ?_⟩
    · rw [hp, horder]
      exact if_pos hne
    · rw [hp, horder]
      exact if_neg (not_not.2 heq)
    · rw [hp, horder]
      exact if_neg hne
    · rw [hp, horder]
      exact if_pos heq
    · show Nearer b p tx ty
      rw [hp]
      by_cases halong : if hOrder h then meshY b = targetY b h else meshX b ≠ targetX b h
      · rw [if_pos halong]
        refine nearer_alongX b.isLt (targetX_lt b h) fun hx => ?_
        cases horder : hOrder h
        · simp only [horder] at halong
          exact halong hx
        · simp only [horder] at halong
          exact haway ⟨hx, halong⟩
      · rw [if_neg halong]
        refine nearer_alongY b.isLt hty fun hy => ?_
        cases horder : hOrder h
        · simp only [horder] at halong
          exact halong fun hx => haway ⟨hx, hy⟩
        · simp only [horder] at halong
          exact halong hy

end Sys2Proof
end

section
/-! SUPPORT. Routers that close, and fences while no plan is loaded (06 R179, R194, R195, R199, R200; 13 R355, R373, R375). -/

namespace Sys2Proof.Machine

variable (s : State)

/-! ### Snags and the routers' status bits (00 R15; 06 R199) -/

theorem snag_snags_suffix (code sev die unit : Nat) (args : List Nat) : s.snags <:+ (s.snag code sev die unit args).snags :=
  snag_induction s (P := fun u => s.snags <:+ u.snags) code sev die unit args (fun _ => List.suffix_refl _) (fun _ => List.suffix_cons _ _)
    fun u fn vec hu => (raise_snags u fn vec).symm ▸ hu

@[simp] theorem rtr_snag (code sev die unit : Nat) (args : List Nat) (b : Nat) : (s.snag code sev die unit args).rtr b = s.rtr b :=
  congrArg (mget ({} : Router) · b) (snag_same s code sev die unit args (f := .rtrs) (by decide))

theorem snagBay_snags_suffix (b code sev : Nat) (args : List Nat) : s.snags <:+ (s.snagBay b code sev args).snags :=
  snag_snags_suffix s code sev (dieOf b) (bayOf b) args

@[simp] theorem rtr_snagBay (b code sev : Nat) (args : List Nat) (c : Nat) : (s.snagBay b code sev args).rtr c = s.rtr c :=
  rtr_snag s code sev (dieOf b) (bayOf b) args c

theorem rtr_stickyRtr (b : Nat) (was : Bool) (set : Router → Router) (code sev : Nat) (args : List Nat) (c : Nat) :
    (s.stickyRtr b was set code sev args).rtr c = if c = b then set (s.rtr b) else s.rtr c := by
  rw [← State.rtr_modRtr]
  cases was
  · exact rtr_snagBay (s.modRtr b set) b code sev args c
  · rfl

@[simp] theorem stickyRtr_now (b : Nat) (was : Bool) (set : Router → Router) (code sev : Nat) (args : List Nat) :
    (s.stickyRtr b was set code sev args).now = s.now :=
  (stickyRtr_kept (L := .rtrs :: logged) (.refl s) b was set code sev args (by decide)).frame .now (by decide)

/-- A status bit that was 0 is logged, while Novko runs. -/
theorem stickyRtr_snags (hup : s.novkoUp = true) {was : Bool} (hwas : was = false) (b : Nat) (set : Router → Router) (code sev : Nat)
    (args : List Nat) : (s.stickyRtr b was set code sev args).snags = s.snagRecord code sev (dieOf b) (bayOf b) args :: s.snags := by
  subst hwas
  exact snag_snags (s.modRtr b set) hup code sev (dieOf b) (bayOf b) args

/-- A one joined to a word sets its bit. -/
theorem getLsbD_or_onehot {w i : Nat} (hi : i < w) (v : BitVec w) : (v ||| BitVec.ofNat w (2 ^ i)).getLsbD i = true := by
  rw [BitVec.getLsbD_or, BitVec.getLsbD_ofNat, Nat.testBit_two_pow_self, decide_eq_true hi]
  exact Bool.or_true _

/-! ### Fences while no plan is loaded (13 R373, R375) -/

theorem rtr_setLocalClose (b : Nat) (v : Bool) (c : Nat) :
    (s.setLocalClose b v).rtr c = if c = b then (if (s.rtr b).hardFenced then s.rtr b else { s.rtr b with localClose := v }) else s.rtr c :=
  State.rtr_modRtr s b c _

/-- Closing the local ports of fenced bays leaves a hard-fenced router as it is (06 R194). -/
theorem rtr_applyFences {b : Nat} (h : (s.rtr b).hardFenced = true) : s.applyFences.rtr b = s.rtr b := by
  refine List.foldlRecOn s.resil.newFences _ (motive := fun u : State => u.rtr b = s.rtr b) rfl fun u hu e _ => ?_
  rw [rtr_setLocalClose]
  split
  · rename_i hb
    rw [← hb, hu, if_pos h]
  · exact hu

theorem applyFences_fences : s.applyFences.resil.fences = s.resil.fences := by
  have hclosed : (s.resil.newFences.foldl (fun s e => s.setLocalClose e.1 true) s).resil = s.resil :=
    (foldl_kept (L := [.rtrs]) (fun _ _ h => setLocalClose_kept h _ _ (by decide)) (.refl s)).frame .resil (by decide)
  exact congrArg (·.fences) hclosed

theorem applyFences_snags : s.applyFences.snags = s.snags :=
  (applyFences_kept (L := [.rtrs, .resil]) (.refl s) (by decide)).frame .snags (by decide)

/-- The marks of bays that become fenced (13 R373). -/
def State.marked (l : List Nat) (cause : Nat) : State :=
  let l := l.dedup.filter fun b => mget 0 s.resil.fences b == 0
  s.modResil fun x => { x with
    fences := l.foldl (fun m b => mset 0 m b (cause + 1)) x.fences, newFences := x.newFences ++ l.map fun b => (b, cause),
    fencedNow := x.fencedNow + l.length }

theorem marked_fences {l : List Nat} {b : Nat} (hb : b ∈ l) (hfree : mget 0 s.resil.fences b = 0) (cause : Nat) :
    mget 0 (s.marked l cause).resil.fences b = cause + 1 :=
  (mget_foldl_mset (v := fun _ => cause + 1) _ _ b).trans
    (if_pos (List.mem_filter.2 ⟨List.mem_dedup.2 hb, by rw [hfree]; rfl⟩))

section
variable {s} (hplans : s.plans = [])
include hplans

theorem fenceOne_unplanned (b cause : Nat) : s.fenceOne b cause = s.snagBay b 0x2081 2 [cause, 0xFFFF, 0] := by
  simp [State.fenceOne, State.running, hplans]

theorem hardPlans_unplanned : s.hardPlans = s := by simp [State.hardPlans, State.running, hplans]

theorem checkCompute_unplanned : s.checkCompute = s := by simp [State.checkCompute, State.running, hplans]

/-- With no plan loaded a fence marks its bays, logs them, and closes their ports. -/
theorem fenceBays_unplanned (l : List Nat) (cause : Nat) :
    ∃ u, Kept logged (s.marked l cause) u ∧ s.snags <:+ u.snags ∧ s.fenceBays l cause = if u.mode = .recovering then u else u.applyFences := by
  let bays := l.dedup.filter fun b => mget 0 s.resil.fences b == 0
  let u := bays.foldl (fun s b => s.fenceOne b cause) (s.marked l cause)
  obtain ⟨hkept, hsnags⟩ : Kept logged (s.marked l cause) u ∧ s.snags <:+ u.snags := by
    refine List.foldlRecOn bays _ (motive := fun u : State => Kept logged (s.marked l cause) u ∧ s.snags <:+ u.snags)
      ⟨.refl _, List.suffix_refl _⟩ fun u hu b _ => ?_
    obtain ⟨hkept, hsnags⟩ := hu
    rw [fenceOne_unplanned ((hkept.frame .plans (by decide)).trans hplans)]
    exact ⟨snagBay_kept hkept _ _ _ _ (by decide), hsnags.trans (snagBay_snags_suffix _ _ _ _ _)⟩
  refine ⟨u, hkept, hsnags, ?_⟩
  have hnone : u.plans = [] := (hkept.frame .plans (by decide)).trans hplans
  show (if u.hardPlans.checkCompute.mode = .recovering then u.hardPlans.checkCompute else u.hardPlans.checkCompute.applyFences) = _
  rw [hardPlans_unplanned hnone, checkCompute_unplanned hnone]

theorem fenceBays_unplanned_kept (l : List Nat) (cause : Nat) : Kept ([.rtrs, .resil] ++ logged) s (s.fenceBays l cause) := by
  obtain ⟨u, hkept, -, heq⟩ := fenceBays_unplanned hplans l cause
  have hmarked : Kept ([.rtrs, .resil] ++ logged) s (s.marked l cause) := by
    unfold State.marked
    exact modResil_kept (.refl s) _ (by decide)
  have hu : Kept ([.rtrs, .resil] ++ logged) s u := hmarked.trans (hkept.mono (by decide))
  rw [heq]
  exact .ite (fun _ => hu) fun _ => applyFences_kept hu (by decide)

theorem fenceBays_unplanned_fences {l : List Nat} {b : Nat} (hb : b ∈ l) (hfree : mget 0 s.resil.fences b = 0) (cause : Nat) :
    mget 0 (s.fenceBays l cause).resil.fences b = cause + 1 := by
  obtain ⟨u, hkept, -, heq⟩ := fenceBays_unplanned hplans l cause
  have hresil : u.resil = (s.marked l cause).resil := hkept.frame .resil (by decide)
  have hfences : (s.fenceBays l cause).resil.fences = u.resil.fences := by
    rw [heq]
    split
    · rfl
    · exact applyFences_fences u
  rw [hfences, hresil, marked_fences s hb hfree]

theorem fenceBays_unplanned_rtr {b : Nat} (hfenced : (s.rtr b).hardFenced = true) (l : List Nat) (cause : Nat) :
    (s.fenceBays l cause).rtr b = s.rtr b := by
  obtain ⟨u, hkept, -, heq⟩ := fenceBays_unplanned hplans l cause
  have hrtr : u.rtr b = s.rtr b := congrArg (mget ({} : Router) · b) (hkept.frame .rtrs (by decide))
  rw [heq]
  split
  · exact hrtr
  · rw [rtr_applyFences u (by rw [hrtr, hfenced]), hrtr]

theorem fenceBays_unplanned_snags (l : List Nat) (cause : Nat) : s.snags <:+ (s.fenceBays l cause).snags := by
  obtain ⟨u, -, hsnags, heq⟩ := fenceBays_unplanned hplans l cause
  rw [heq]
  split
  · exact hsnags
  · rwa [applyFences_snags]

end

/-! ### Hard fences (06 R195; 13 R355) -/

/-- A router that is hard-fenced: closed, with nothing in it (06 R195). -/
def Router.shut (r : Router) : Router :=
  { r with hardFenced := true, bufs := [], lock := [], localIn := [], localFrom := [], replay := [], held := [] }

section
variable {s} {b : Nat}

theorem hardFence_eq (hopen : s.rtrFenced b = false) (cause arg : Nat) :
    s.hardFence b cause arg = (s.modRtr b Router.shut).snagBay b 0x3010 2 [cause, arg] := if_neg (by simp [hopen])

variable (hplans : s.plans = []) (hmode : s.mode = .ready) (hcores : s.resil.coresUp ≠ 0)
include hmode hcores

theorem novkoUp_of_ready : s.novkoUp = true := by
  rw [State.novkoUp, hmode, bne_iff_ne.2 hcores]
  rfl

include hplans

/-- In READY with no plan loaded, the detector of row 11 fences its bays at once (13 R355, R356). -/
theorem hardFound_unplanned (l : List Nat) : ∃ v : State, v.plans = [] ∧ v.rtrs = s.rtrs ∧ v.resil.fences = s.resil.fences ∧
    v.snags = s.snags ∧ s.hardFound l = v.fenceBays l 3 := by
  refine ⟨s.modResil fun x => { x with redig := x.redig || false, degraded := (x.degraded ++ []).dedup }, hplans, rfl, rfl, rfl, ?_⟩
  simp [State.hardFound, State.detected, State.inFlight, hplans, hmode, novkoUp_of_ready hmode hcores]

/-- The detector then fences the bay of a hard-fenced router with cause 3, leaves the router as it is, and loses no snag. -/
theorem hardFound_fences (hfenced : (s.rtr b).hardFenced = true) :
    (s.hardFound [b]).rtr b = s.rtr b ∧ (mget 0 s.resil.fences b = 0 → mget 0 (s.hardFound [b]).resil.fences b = 4) ∧
      s.snags <:+ (s.hardFound [b]).snags := by
  obtain ⟨v, hnone, hrtrs, hfences, hsnags, heq⟩ := hardFound_unplanned hplans hmode hcores [b]
  have hrtr : v.rtr b = s.rtr b := congrArg (mget ({} : Router) · b) hrtrs
  rw [heq, ← hrtr, ← hfences, ← hsnags]
  exact ⟨fenceBays_unplanned_rtr hnone (hrtr ▸ hfenced) _ _,
    fun hfree => fenceBays_unplanned_fences hnone (List.mem_singleton_self b) hfree 3, fenceBays_unplanned_snags hnone _ _⟩

/-- A hard fence in READY with no plan loaded: the router is shut, its bay fenced with cause 3, and no snag is lost. -/
theorem hardFence_hardFound (hopen : s.rtrFenced b = false) (cause arg : Nat) :
    let u := (s.hardFence b cause arg).hardFound [b]
    u.rtr b = (s.rtr b).shut ∧ (mget 0 s.resil.fences b = 0 → mget 0 u.resil.fences b = 4) ∧ s.snags <:+ u.snags := by
  have hkept : Kept ([.rtrs] ++ logged) s (s.hardFence b cause arg) := hardFence_kept (.refl s) b cause arg (by decide)
  have hrtr : (s.hardFence b cause arg).rtr b = (s.rtr b).shut := by
    rw [hardFence_eq hopen, rtr_snagBay, State.rtr_modRtr, if_pos rfl]
  have hsnags : s.snags <:+ (s.hardFence b cause arg).snags := by
    rw [hardFence_eq hopen]
    exact snagBay_snags_suffix (s.modRtr b Router.shut) b 0x3010 2 [cause, arg]
  have hresil : (s.hardFence b cause arg).resil = s.resil := hkept.frame .resil (by decide)
  have hplans' := (hkept.frame .plans (by decide)).trans hplans
  have hmode' := (hkept.frame .mode (by decide)).trans hmode
  generalize s.hardFence b cause arg = v at *
  obtain ⟨hsame, hfences, hlog⟩ := hardFound_fences (s := v) hplans' hmode' (hresil ▸ hcores) (by rw [hrtr]; rfl)
  exact ⟨hsame.trans hrtr, fun hfree => hfences (hresil ▸ hfree), hsnags.trans hlog⟩

end

/-! ### Failed handshakes (06 R179, R182) -/

theorem linkUp_open {b p : Nat} (h : s.linkUp b p = true) : s.rtrFenced b = false ∧ (s.rtr b).linkDown.getLsbD p = false := by
  simp only [State.linkUp, State.linkDown, Bool.and_eq_true, Bool.not_eq_true', Bool.or_eq_false_iff] at h
  obtain ⟨⟨⟨⟨-, hopen⟩, hdown, -⟩, -⟩, -⟩ := h
  exact ⟨hopen, hdown⟩

/-- A failed handshake to be sent again, the `n`th in a row, is counted at its router, and is an intrusion (06 R179, R200; 05 R171). -/
def State.countRetry (s : State) (b port n : Nat) : State :=
  let cnt := satAdd (mget 0 (s.rtr b).retry port) 1 255
  (s.stickyRtr b (s.rtr b).retrySeen
    (fun r => { r with retrySeen := true, fails := mset 0 r.fails port n, retry := mset 0 r.retry port cnt })
    0x3001 0 [port, cnt, if portD2d b port then 1 else 0]).intrude 5

theorem rtr_countRetry (b port n : Nat) : (s.countRetry b port n).rtr b =
    { s.rtr b with
      retrySeen := true, fails := mset 0 (s.rtr b).fails port n,
      retry := mset 0 (s.rtr b).retry port (satAdd (mget 0 (s.rtr b).retry port) 1 255) } :=
  (rtr_stickyRtr s b _ _ _ _ _ b).trans (if_pos rfl)

theorem countRetry_intr (b port n : Nat) : (5, s.now) ∈ (s.countRetry b port n).intr := by
  refine List.mem_append_right _ (List.mem_singleton.2 ?_)
  rw [stickyRtr_now]

/-- The far end has its line to send again (06 R179). -/
def State.sendAgain (s : State) (b port : Nat) : State :=
  match nbr b port with
  | .router c =>
    match s.pickLine c (opposite port) with
    | some (i, v, _) => s.modRtr c fun q => { q with replay := mset none q.replay (opposite port) (some (4 * i + v)) }
    | none => s
  | _ => s

/-- The `n`th failed handshake in a row takes the link down (06 R179, R199). -/
def State.takeDown (s : State) (b port far n : Nat) : State :=
  s.stickyRtr b ((s.rtr b).linkDown.getLsbD port)
    (fun r => { r with linkDown := r.linkDown ||| BitVec.ofNat 4 (2 ^ port), fails := mset 0 r.fails port n })
    0x3002 2 [port, if portD2d b port then 1 else 0, far, n]

section
variable {s} {b : BayIx} {port : Fin 4} (hup : s.linkUp b port = true) (t : Nat)
include hup

theorem linkUp_tick : ¬(!(s.tick t).linkUp b port) = true := by
  rw [show (s.tick t).linkUp b port = true from hup]
  decide

theorem linkCrcFail_retries (hmore : mget 0 (s.rtr b).fails port < (s.rtr b).retryLimit.toNat) :
    exec (.linkCrcFail t b port) s =
      .next (((s.tick t).countRetry b port (mget 0 (s.rtr b).fails port + 1)).sendAgain b port) := by
  rw [exec_linkCrcFail, execLinkCrcFail]
  refine congrArg _ ((if_neg (linkUp_tick hup t)).trans (if_pos ?_))
  exact hmore

theorem linkCrcFail_down (hlast : (s.rtr b).retryLimit.toNat ≤ mget 0 (s.rtr b).fails port) {c : Nat} (hc : nbr b port = .router c) :
    exec (.linkCrcFail t b port) s =
      .next ((((s.tick t).takeDown b port (256 * meshX c + meshY c) (mget 0 (s.rtr b).fails port + 1)).hardFence b 0 port).hardFound [b.val]) := by
  rw [exec_linkCrcFail, execLinkCrcFail]
  refine congrArg _ ((if_neg (linkUp_tick hup t)).trans ((if_neg ?_).trans ?_))
  · exact Nat.not_le.2 (Nat.lt_succ_of_le hlast)
  · simp only [hc]
    rfl

end

theorem rtr_sendAgain {b : Nat} (hb : b < 1152) (port : Nat) : (s.sendAgain b port).rtr b = s.rtr b := by
  unfold State.sendAgain
  split
  · rename_i c hc
    split
    · exact (State.rtr_modRtr s c b _).trans (if_neg (nbr_ne_self hb hc).symm)
    · rfl
  · rfl

theorem sendAgain_intr (b port : Nat) : (s.sendAgain b port).intr = s.intr := by
  unfold State.sendAgain
  split
  · split
    · rfl
    · rfl
  · rfl

end Sys2Proof.Machine

namespace Sys2Proof

open Machine

/-- Settles O35: a failed handshake is counted or ends in the hard fence that a write of the register makes, and with no plan loaded the
fence of the bay leaves its hard-fenced router alone. -/
theorem routersCloseAndHardFence : Obligations.RoutersCloseAndHardFence := by
  unfold Obligations.RoutersCloseAndHardFence
  intro t b port v s x fenced
  refine ⟨next_of_eq rfl ?_, next_of_eq rfl ?_, fun hopen hplans hmode hcores => ?_, fun hup hmore => ?_,
    fun c hup hlast hc hplans hmode hcores => ?_⟩
  · exact (rtr_setLocalClose (s.tick t) b v b).trans (if_pos rfl)
  · exact (State.rtr_modRtr (s.tick t) b b _).trans (if_pos rfl)
  · have hopen' : (s.tick t).rtrFenced b = false := hopen
    obtain ⟨hrtr, hfences, -⟩ := hardFence_hardFound (s := s.tick t) hplans hmode hcores hopen' 2 0
    have hexec : exec (.rtrHardFenceWrite t b) s = .next (((s.tick t).hardFence b 2 0).hardFound [b.val]) :=
      congrArg _ (if_neg (by simp [hopen']))
    refine next_of_eq hexec ⟨?_, ?_, hfences⟩
    · rw [hrtr]
      rfl
    · rw [hrtr]
      rfl
  · refine next_of_eq (linkCrcFail_retries hup t hmore) ?_
    rw [rtr_sendAgain _ b.isLt, rtr_countRetry, sendAgain_intr]
    refine ⟨rfl, ?_, ?_, rfl, countRetry_intr (s.tick t) b port _⟩
    · rw [mget_mset_same]
    · rw [mget_mset_same]
      rfl
  · obtain ⟨hopen, hlinkUp⟩ := linkUp_open s hup
    let far := 256 * meshX c + meshY c
    let n := mget 0 x.fails port + 1
    let d := (s.tick t).takeDown b port far n
    have hkept : Kept (.rtrs :: logged) (s.tick t) d := stickyRtr_kept (.refl _) _ _ _ _ _ _ (by decide)
    have hresil : d.resil = s.resil := hkept.frame .resil (by decide)
    have hdown : d.rtr b = { x with linkDown := x.linkDown ||| BitVec.ofNat 4 (2 ^ port.val), fails := mset 0 x.fails port n } :=
      (rtr_stickyRtr (s.tick t) b _ _ _ _ _ b).trans (if_pos rfl)
    have hlogged : d.snags = _ := stickyRtr_snags (s.tick t) (novkoUp_of_ready hmode hcores) hlinkUp b _ _ _ _
    obtain ⟨hrtr, -, hlog⟩ := hardFence_hardFound (s := d) ((hkept.frame .plans (by decide)).trans hplans)
      ((hkept.frame .mode (by decide)).trans hmode) (hresil ▸ hcores) (by rw [State.rtrFenced, hdown]; exact hopen) 0 port
    refine next_of_eq (linkCrcFail_down hup t hlast hc) ⟨?_, ?_, _, hlog.mem (hlogged ▸ List.mem_cons_self), rfl, rfl⟩
    · rw [hrtr, hdown]
      exact getLsbD_or_onehot port.isLt _
    · rw [hrtr]
      rfl

end Sys2Proof
end

section
/-! SUPPORT. Links and stacks that end their training, and the entry to READY (06 R182; 07 R231; 14 R393; 15 R419, R421). -/

namespace Sys2Proof.Machine

variable (s : State)

/-! ### Links that fail their training (06 R182) -/

/-- A link that has failed its training is down at port `p` of router `c` (06 R182, R199). -/
def State.untrained (c p far : Nat) : State :=
  s.stickyRtr c ((s.rtr c).linkDown.getLsbD p) (fun r => { r with linkDown := r.linkDown ||| BitVec.ofNat 4 (2 ^ p) }) 0x3002 2 [p, 1, far, 0]

theorem rtr_untrained (c p far d : Nat) : (s.untrained c p far).rtr d =
    if d = c then { s.rtr c with linkDown := (s.rtr c).linkDown ||| BitVec.ofNat 4 (2 ^ p) } else s.rtr d := rtr_stickyRtr s c _ _ _ _ _ d

theorem untrained_boot (c p far : Nat) : (s.untrained c p far).boot = s.boot :=
  (stickyRtr_kept (L := .rtrs :: logged) (.refl s) c _ _ _ _ _ (by decide)).frame .boot (by decide)

theorem untrained_down (c far : Nat) {p : Nat} (hp : p < 4) : ((s.untrained c p far).rtr c).linkDown.getLsbD p = true := by
  rw [rtr_untrained, if_pos rfl]
  exact getLsbD_or_onehot hp _

/-- A link that is down stays down. -/
theorem untrained_keeps_down {d q : Nat} (h : (s.rtr d).linkDown.getLsbD q = true) (c p far : Nat) :
    ((s.untrained c p far).rtr d).linkDown.getLsbD q = true := by
  rw [rtr_untrained]
  split
  · rename_i hdc
    rw [← hdc, BitVec.getLsbD_or, h, Bool.true_or]
  · exact h

/-- The outcome of a link's training is recorded (06 R182, R200). -/
def State.linkTrained (b port outcome : Nat) : State :=
  s.modBoot fun x => { x with d2d := mset 0 x.d2d (linkKey b port) outcome }

theorem linkTrained_d2d (b port outcome : Nat) : mget 0 (s.linkTrained b port outcome).boot.d2d (linkKey b port) = outcome :=
  mget_mset_same (d := 0) (m := s.boot.d2d) _ _

section
variable {s} {b : BayIx} {port : Fin 4} (hup : s.pwr.stage2Up = true) (hd2d : portD2d b port = true)
  (hfirst : mget 0 s.boot.d2d (linkKey b port) = 0) (t : Nat)
include hup hd2d hfirst

theorem d2dLinkTrainingDone_due : ¬(!portD2d b port || !(s.tick t).pwr.stage2Up || mget 0 (s.tick t).boot.d2d (linkKey b port) != 0) = true := by
  simp [hup, hd2d, hfirst]

theorem d2dLinkTrainingDone_trains :
    exec (.d2dLinkTrainingDone t b port true) s = .next ((s.tick t).linkTrained b port 1) := by
  rw [exec_d2dLinkTrainingDone, execD2dLinkTrainingDone]
  exact congrArg _ (if_neg (d2dLinkTrainingDone_due hup hd2d hfirst t))

/-- A link that fails is down at this end, and at the far end where a router is. -/
theorem d2dLinkTrainingDone_fails : Next (exec (.d2dLinkTrainingDone t b port false) s) fun u =>
    mget 0 u.boot.d2d (linkKey b port) = 2 ∧ (u.rtr b).linkDown.getLsbD port = true ∧
      ∀ c, nbr b port = .router c → (u.rtr c).linkDown.getLsbD (opposite port) = true := by
  let v := (s.tick t).linkTrained b port 2
  have hd2d2 : mget 0 v.boot.d2d (linkKey b port) = 2 := linkTrained_d2d (s.tick t) b port 2
  rw [exec_d2dLinkTrainingDone, execD2dLinkTrainingDone]
  refine next_of_eq (congrArg _ (if_neg (d2dLinkTrainingDone_due hup hd2d hfirst t))) ?_
  dsimp only
  rw [if_neg Bool.false_ne_true]
  cases hnbr : nbr b port with
  | router c =>
    let w := v.untrained b port (256 * meshX c + meshY c)
    let far := 256 * meshX b + meshY b
    have hboot : (w.untrained c (opposite port) far).boot = v.boot := (untrained_boot _ _ _ _).trans (untrained_boot _ _ _ _)
    refine ⟨?_, untrained_keeps_down w (untrained_down v b _ port.isLt) c (opposite port) far, fun c' hc => ?_⟩
    · exact (congrArg (fun x : Boot => mget 0 x.d2d (linkKey b port)) hboot).trans hd2d2
    · obtain rfl := Nbr.router.inj hc
      exact untrained_down w c far (Nat.mod_lt _ (by decide))
  | _ =>
    refine ⟨?_, untrained_down v b 0xFFFF port.isLt, fun c hc => nomatch hc⟩
    exact (congrArg (fun x : Boot => mget 0 x.d2d (linkKey b port)) (untrained_boot v b port 0xFFFF)).trans hd2d2

end

/-- A stack that trains is recorded as up (07 R231). -/
theorem hbmStackTrainingDone_trains {stack : Fin 12} (hup : s.pwr.stage2Up = true) (hfirst : s.boot.hbmEnded.getLsbD stack = false) (t : Nat) :
    exec (.hbmStackTrainingDone t stack true) s = .next ((s.tick t).modBoot fun x =>
      { x with hbmEnded := x.hbmEnded ||| BitVec.ofNat 12 (2 ^ stack.val), hbmUp := x.hbmUp ||| BitVec.ofNat 12 (2 ^ stack.val) }) := by
  rw [exec_hbmStackTrainingDone, execHbmStackTrainingDone]
  exact congrArg _ (if_neg (by rw [State.tick_pwr, State.tick_boot, hup, hfirst]; decide))

/-! ### The entry to READY (15 R419, R421) -/

theorem loadHomes_startFences : s.loadHomes.boot.startFences = s.boot.startFences := by
  unfold State.loadHomes
  split
  · rfl
  · rfl

theorem pumpStarts_same {f : Field} (hf : f ∉ [Field.panels, .bays, .rtrs, .weights, .host, .snags, .snagNext, .out]) :
    f.same s s.pumpStarts := (pumpStarts_kept (.refl s) (by decide)).frame f hf

/-- Fences while no plan is loaded, and the next start weight set: the module state and what start-up has left stay as they are. -/
theorem fenceBays_pumpStarts {s : State} (hplans : s.plans = []) (l : List Nat) (cause : Nat) :
    (s.fenceBays l cause).pumpStarts.mode = s.mode ∧ (s.fenceBays l cause).pumpStarts.boot = s.boot ∧
      ∀ b ∈ l, mget 0 s.resil.fences b = 0 → mget 0 (s.fenceBays l cause).pumpStarts.resil.fences b = cause + 1 := by
  have hkept := fenceBays_unplanned_kept hplans l cause
  have hmode : (s.fenceBays l cause).mode = s.mode := hkept.frame .mode (by decide)
  have hboot : (s.fenceBays l cause).boot = s.boot := hkept.frame .boot (by decide)
  have hmode' := pumpStarts_same (s.fenceBays l cause) (f := .mode) (by decide)
  have hboot' := pumpStarts_same (s.fenceBays l cause) (f := .boot) (by decide)
  have hresil : (s.fenceBays l cause).pumpStarts.resil = (s.fenceBays l cause).resil :=
    pumpStarts_same (s.fenceBays l cause) (f := .resil) (by decide)
  rw [hresil]
  exact ⟨hmode'.trans hmode, hboot'.trans hboot, fun b hb hfree => fenceBays_unplanned_fences hplans hb hfree cause⟩

/-- Start fences of a module with no plan take effect with cause 4, and nothing is left to start (15 R421). -/
theorem startUp_unplanned {s : State} (hplans : s.plans = []) :
    s.startUp.mode = s.mode ∧ s.startUp.boot = { s.boot with startFences := [], startSets := [] } ∧
      ∀ b ∈ s.boot.startFences, mget 0 s.resil.fences b = 0 → mget 0 s.startUp.resil.fences b = 5 := by
  let v : State := { s with
    boot := { s.boot with startFences := [], startSets := [] },
    weights := { s.weights with startQ := s.weights.startQ ++ s.boot.startSets } }
  have heq : s.startUp = (v.fenceBays s.boot.startFences 4).pumpStarts := rfl
  have hstart := fenceBays_pumpStarts (s := v) hplans s.boot.startFences 4
  rw [← heq] at hstart
  exact hstart

/-- The state on entry to READY, before what start-up has left to start. -/
def State.entered : State := (s.setMode .ready).loadHomes

theorem entered_unplanned {s : State} (hmode : s.mode = .awaitingCoords) :
    s.entered.mode = .ready ∧ s.entered.plans = s.plans ∧ s.entered.resil = s.resil ∧ s.entered.boot.startFences = s.boot.startFences := by
  have hset : Kept [.mode, .fab, .host, .out] s (s.setMode .ready) :=
    setMode_kept (.refl s) (by rw [hmode]; decide) (by decide) (by decide) (by decide)
  have hready := setMode_mode s .ready
  have hplans : (s.setMode .ready).plans = s.plans := hset.frame .plans (by decide)
  have hresil : (s.setMode .ready).resil = s.resil := hset.frame .resil (by decide)
  have hboot : (s.setMode .ready).boot = s.boot := hset.frame .boot (by decide)
  rw [State.entered, ← hplans, ← hresil, ← hboot]
  generalize s.setMode .ready = u at *
  have hhomes : Kept [.boot] u u.loadHomes := loadHomes_kept (.refl u) (by decide)
  exact ⟨(hhomes.frame .mode (by decide)).trans hready, hhomes.frame .plans (by decide), hhomes.frame .resil (by decide),
    loadHomes_startFences u⟩

theorem readyDue_mode {s : State} (h : s.readyDue = true) : s.mode = .awaitingCoords := by
  simp only [State.readyDue, Bool.and_eq_true] at h
  obtain ⟨⟨⟨⟨⟨⟨⟨hmode, -⟩, -⟩, -⟩, -⟩, -⟩, -⟩, -⟩ := h
  exact eq_of_beq hmode

theorem readyEntry_due {s : State} {t : Nat} (h : (s.tick t).readyDue = true) :
    exec (.readyEntry t) s = .next (s.tick t).entered.startUp := by
  rw [exec_readyEntry, execReadyEntry]
  exact congrArg Host.Outcome.next (if_pos h)

end Sys2Proof.Machine

namespace Sys2Proof

open Machine

/-- Settles O10: each end of training writes its record, and READY is entered with the start fences set and nothing left to start. -/
theorem trainingAndCalibrationLeadToReady : Obligations.TrainingAndCalibrationLeadToReady := by
  unfold Obligations.TrainingAndCalibrationLeadToReady
  refine ⟨fun t b port stack s hup => ⟨fun hd2d hfirst => ⟨?_, d2dLinkTrainingDone_fails hup hd2d hfirst t⟩, fun hfirst => ?_⟩,
    fun t res exc lad s => ⟨fun hgroups hfirst => ?_, fun hdue hplans => ?_, fun hdue => ?_⟩⟩
  · exact next_of_eq (d2dLinkTrainingDone_trains hup hd2d hfirst t) ⟨linkTrained_d2d (s.tick t) b port 1, rfl⟩
  · exact next_of_eq (hbmStackTrainingDone_trains s hup hfirst t)
      ⟨getLsbD_or_onehot stack.isLt _, getLsbD_or_onehot stack.isLt _, rfl, rfl⟩
  · rw [exec_startupCalibrationDone, execStartupCalibrationDone]
    exact next_of_eq (congrArg _ (if_pos ⟨hgroups, by rw [State.tick_sense, hfirst]; rfl⟩)) ⟨_, rfl, rfl, rfl⟩
  · obtain ⟨hmode, hsame, hresil, hfences⟩ := entered_unplanned (readyDue_mode hdue)
    obtain ⟨hmode', hboot, hfenced⟩ := startUp_unplanned (hsame.trans hplans)
    refine next_of_eq (readyEntry_due hdue) ⟨hmode'.trans hmode, ?_, ?_, fun b hb hfree => ?_⟩
    · exact congrArg Boot.startFences hboot
    · exact congrArg Boot.startSets hboot
    · exact hfenced b (hfences ▸ hb) (hresil ▸ hfree)
  · exact congrArg _ (if_neg (by simp [hdue]))

end Sys2Proof
end

section
/-! REFUTATION. A line sent again at an output that its head line no longer goes to (06 R179, R185, R188). -/

namespace Sys2Proof

open Machine

/-- Refutes O34, at the output's lock. A mark that a line is to be sent again at an output names a buffer, and it outlives its line where that
is dropped as malformed, as a multicast is whose tree was unloaded. Here output 1 has such a mark, and the buffer's head is by now a line for
the local port, the first of its message. Output 1 picks it, and it moves to the local port, whose lock it takes; output 1 is left free, where
the statement has it held by the line's input. -/
theorem not_linesMoveToTheNextRouter : ¬ Obligations.LinesMoveToTheNextRouter := by
  intro h
  let m : MLine := { hdr := 0, line := {} }
  let s : State := { pwr := { rails := [(32, .up)] }, rtrs := [(0, { bufs := [(16, [(0, m)])], replay := [(1, some 16)] })] }
  have hheads (i v : Nat) (e : Nat × MLine) (he : e ∈ ((s.rtr 0).buf i v).head?) : s.badHeader 0 e.2.hdr = false := by
    have hbuf : (s.rtr 0).buf i v = if 16 = 4 * i + v then [(0, m)] else [] := rfl
    rw [hbuf] at he
    split at he
    · obtain rfl : (0, m) = e := Option.some.inj he
      decide +kernel
    · exact nomatch he
  obtain ⟨-, hmoves⟩ := h 0 0 1 s rfl (by decide +kernel) hheads
  obtain ⟨u, hu, -, hlock, -⟩ := hmoves 4 0 false 0 m [] (by decide +kernel) rfl (by decide) (by decide) (by decide)
  obtain ⟨v, hv, hfree⟩ : ∃ v, exec (.lineForward 0 0 1) s = .next v ∧ mget none (v.rtr 0).lock 4 = none := ⟨_, rfl, by decide +kernel⟩
  obtain rfl : v = u := Host.Outcome.next.inj (hv.symm.trans hu)
  rw [if_neg (by decide)] at hlock
  exact nomatch hfree.symm.trans hlock

end Sys2Proof
end

section
/-! SUPPORT. Context dies: what an update of a die, a status bit and a reply change, and where a reply goes (06 R178, R187; 07 R219, R232). -/

namespace Sys2Proof.Machine

variable (s : State) (k : Nat)

/-! ### Updates of a die (07 R232) -/

@[simp] theorem ctx_tick (t : Nat) : (s.tick t).ctx k = s.ctx k := rfl

@[simp] theorem ctx_setCtx (c : CtxDie) : (s.setCtx k c).ctx k = c := by
  unfold State.ctx State.setCtx
  split <;> rfl

@[simp] theorem ctx_modCtx (f : CtxDie → CtxDie) : (s.modCtx k f).ctx k = f (s.ctx k) := ctx_setCtx s k _

/-- An update of a die changes no other part of the state. -/
theorem modCtx_same (f : CtxDie → CtxDie) {x : Field} (hx : x ∉ [Field.ctx0, .ctx1]) : x.same s (s.modCtx k f) := by
  unfold State.modCtx State.setCtx
  cases x
  case ctx0 | ctx1 => exact absurd (by decide) hx
  all_goals split <;> rfl

theorem ctx_of_same {u : State} (h0 : Field.ctx0.same s u) (h1 : Field.ctx1.same s u) : u.ctx k = s.ctx k := by
  unfold State.ctx
  rw [h0, h1]

@[simp] theorem ctx_snag (code sev die unit : Nat) (args : List Nat) : (s.snag code sev die unit args).ctx k = s.ctx k :=
  ctx_of_same s k (snag_same s code sev die unit args (by decide)) (snag_same s code sev die unit args (by decide))

@[simp] theorem ctx_raise (fn vec : Nat) : (s.raise fn vec).ctx k = s.ctx k :=
  have hkept := raise_kept (L := [.host, .out]) (.refl s) fn vec (by decide)
  ctx_of_same s k (hkept.frame .ctx0 (by decide)) (hkept.frame .ctx1 (by decide))

@[simp] theorem ctx_stickyCtx (was : Bool) (set : CtxDie → CtxDie) (code sev unit : Nat) (args : List Nat) :
    (s.stickyCtx k was set code sev unit args).ctx k = set (s.ctx k) := by
  cases was
  · exact (ctx_snag (s.modCtx k set) k code sev (17 + k) unit args).trans (ctx_modCtx s k set)
  · exact ctx_modCtx s k set

/-- A status bit changes its die and the log only. -/
theorem stickyCtx_same (was : Bool) (set : CtxDie → CtxDie) (code sev unit : Nat) (args : List Nat) {x : Field}
    (hx : x ∉ [Field.ctx0, .ctx1] ++ logged) : x.same s (s.stickyCtx k was set code sev unit args) := by
  obtain ⟨hdie, hlog⟩ := not_or.1 (mt List.mem_append.2 hx)
  have hmod := modCtx_same s k set hdie
  cases was
  · exact Field.same_trans hmod (snag_same (s.modCtx k set) code sev (17 + k) unit args hlog)
  · exact hmod

/-! ### Lines offered at a port (06 R179, R187, R196) -/

/-- The lines on a VC at a port of a router: those in its buffer, then those that wait for room there. -/
def State.portLines (b p vc : Nat) : List MLine := ((s.rtr b).buf p vc).map (·.2) ++ mget [] (s.rtr b).held (4 * p + vc)

/-- The port of a router takes lines: the router is not fenced and the link is not down. -/
def State.portOpen (b p : Nat) : Prop := s.rtrFenced b = false ∧ s.linkDown b p = false

variable {s} in
/-- Whether a port takes lines depends on the fences and the links that are down only. -/
theorem State.portOpen.congr {b p : Nat} (h : s.portOpen b p) {u : State}
    (hu : ∀ c, (u.rtr c).hardFenced = (s.rtr c).hardFenced ∧ (u.rtr c).linkDown = (s.rtr c).linkDown) : u.portOpen b p := by
  obtain ⟨hfence, hdown⟩ := h
  refine ⟨(hu b).1.trans hfence, Eq.trans ?_ hdown⟩
  unfold State.linkDown
  rw [(hu b).2]
  cases nbr b p with
  | router c => dsimp only; rw [(hu c).2]
  | _ => rfl

theorem modRtr_links {b : Nat} {f : Router → Router} (hf : ∀ x, (f x).hardFenced = x.hardFenced ∧ (f x).linkDown = x.linkDown) (c : Nat) :
    ((s.modRtr b f).rtr c).hardFenced = (s.rtr c).hardFenced ∧ ((s.modRtr b f).rtr c).linkDown = (s.rtr c).linkDown := by
  rw [State.rtr_modRtr]
  split
  · exact ‹c = b› ▸ hf _
  · exact ⟨rfl, rfl⟩

theorem offer_links (b p : Nat) (m : MLine) (c : Nat) :
    ((s.offer b p m).rtr c).hardFenced = (s.rtr c).hardFenced ∧ ((s.offer b p m).rtr c).linkDown = (s.rtr c).linkDown := by
  unfold State.offer State.enqueue
  dsimp only
  split
  all_goals
    refine modRtr_links s (fun _ => ?_) c
    exact ⟨rfl, rfl⟩

/-- A line offered comes behind those already there. -/
theorem portLines_offer (b p : Nat) (m : MLine) :
    (s.offer b p m).portLines b p (hVc m.hdr) = s.portLines b p (hVc m.hdr) ++ [m] := by
  unfold State.offer State.enqueue State.portLines Router.buf
  dsimp only
  split
  · rename_i hroom
    simp [State.rtr_modRtr, mget_mset_same, hroom.2]
  · simp [State.rtr_modRtr, mget_mset_same]

variable {s} {b p vc : Nat}

theorem edgeInject_open (h : s.portOpen b p) (m : MLine) :
    s.edgeInject b p m = (s.modRtr b fun r => { r with fails := mset 0 r.fails p 0 }).offer b p m :=
  if_neg (by simp [h.1, h.2])

theorem State.portOpen.edgeInject (h : s.portOpen b p) (m : MLine) : (s.edgeInject b p m).portOpen b p := by
  rw [edgeInject_open h]
  refine (h.congr fun c => modRtr_links s (fun _ => ?_) c).congr (offer_links _ b p m)
  exact ⟨rfl, rfl⟩

theorem portLines_edgeInject (h : s.portOpen b p) (m : MLine) :
    (s.edgeInject b p m).portLines b p (hVc m.hdr) = s.portLines b p (hVc m.hdr) ++ [m] := by
  rw [edgeInject_open h, portLines_offer]
  simp [State.portLines, State.rtr_modRtr, Router.buf]

/-- The lines of a message come behind those already at the port, in order. -/
theorem portLines_foldl_edgeInject {ms : List MLine} (hvc : ∀ m ∈ ms, hVc m.hdr = vc) (h : s.portOpen b p) :
    (ms.foldl (fun u m => u.edgeInject b p m) s).portLines b p vc = s.portLines b p vc ++ ms := by
  induction ms generalizing s with
  | nil => simp
  | cons m ms ih =>
    obtain ⟨rfl, hvc⟩ := List.forall_mem_cons.1 hvc
    rw [List.foldl_cons, ih hvc (h.edgeInject m), portLines_edgeInject h, List.append_assoc, List.singleton_append]

/-! ### Replies (07 R219) -/

theorem hVc_mkHdr (route : BitVec 64) {vc : Nat} (hvc : vc < 4) (stream : Nat) (gen : BitVec 8) (last : Bool) :
    hVc (mkHdr route vc 0 stream gen last) = vc := by
  unfold mkHdr hVc
  dsimp only
  by_cases htype : rtType route = 1
  · simp (disch := omega) only [if_pos htype, fld_or, fld_placed_here, fld_placed_above, Nat.or_zero]
  · simp (disch := omega) only [if_neg htype, fld_or, fld_placed_here, fld_placed_above, Nat.or_zero]

/-- The status line of a reply. -/
def statusLine (status commit err : Nat) : Line := { data := BitVec.ofNat 512 (status + 2 ^ 32 * (commit % 2 ^ 32) + 2 ^ 64 * (err % 2 ^ 32)) }

theorem statusLine_fields {status : Nat} (h : status < 2 ^ 32) (commit err : Nat) :
    fld (statusLine status commit err).data 0 32 = status ∧ fld (statusLine status commit err).data 32 32 = commit % 2 ^ 32 ∧
      fld (statusLine status commit err).data 64 32 = err % 2 ^ 32 := by
  simp only [statusLine, fld, extract_ofNat _ _ (show 0 + 32 ≤ 512 by decide), extract_ofNat _ _ (show 32 + 32 ≤ 512 by decide),
    extract_ofNat _ _ (show 64 + 32 ≤ 512 by decide), BitVec.toNat_ofNat]
  omega

/-- The lines of a reply as they go out. -/
def CtxReq.replyMsg (r : CtxReq) (ls : List Line) : List MLine :=
  ls.zipIdx.map fun e => { hdr := mkHdr (r.hdr.extractLsb' 224 64) r.vc 0 (fld (r.hdr.extractLsb' 224 64) 37 12) r.gen (e.2 + 1 == ls.length),
                           line := e.1 }

@[simp] theorem length_replyMsg (r : CtxReq) (ls : List Line) : (r.replyMsg ls).length = ls.length := by simp [CtxReq.replyMsg]

@[simp] theorem replyMsg_lines (r : CtxReq) (ls : List Line) : (r.replyMsg ls).map (·.line) = ls := by
  simp [CtxReq.replyMsg, List.map_map, Function.comp_def]

theorem ctxReply_eq (r : CtxReq) (status commit err : Nat) (data : List Line) :
    s.ctxReply k r status commit err data = (r.replyMsg (statusLine status commit err :: data)).foldl
      (fun u m => u.edgeInject (ctxLink k r.link).1 (ctxLink k r.link).2 m) s := by
  rw [CtxReq.replyMsg, List.foldl_map]
  rfl

variable (s) in
/-- The attach link of a request takes its reply. -/
def State.replyOpen (r : CtxReq) : Prop := r.vc < 4 ∧ s.portOpen (ctxLink k r.link).1 (ctxLink k r.link).2

variable {k} {r : CtxReq}

/-- A reply's lines come to stand at the request's attach link, behind those already there. -/
theorem repliesAt_ctxReply {u : State} (hrtrs : u.rtrs = s.rtrs) (hopen : s.replyOpen k r) (status commit err : Nat) (data : List Line) :
    (u.ctxReply k r status commit err data).repliesAt k r = s.repliesAt k r ++ r.replyMsg (statusLine status commit err :: data) := by
  obtain ⟨hvc, hport⟩ := hopen
  have hrtr (c : Nat) : u.rtr c = s.rtr c := congrArg (mget ({} : Router) · c) hrtrs
  have hlines : u.repliesAt k r = s.repliesAt k r := by simp only [State.repliesAt, hrtr]
  rw [ctxReply_eq, ← hlines]
  refine portLines_foldl_edgeInject (fun m hm => ?_) (hport.congr fun c => by rw [hrtr]; exact ⟨rfl, rfl⟩)
  obtain ⟨e, -, rfl⟩ := List.mem_map.1 hm
  exact hVc_mkHdr _ hvc _ _ _

theorem replied_ctxReply {u : State} (hrtrs : u.rtrs = s.rtrs) (hopen : s.replyOpen k r) {status : Nat} (hst : status < 2 ^ 32)
    (commit err : Nat) (data : List Line) :
    (u.ctxReply k r status commit err data).replied s k r status commit err data.length := by
  obtain ⟨hstatus, hcommit, herr⟩ := statusLine_fields hst commit err
  exact ⟨_, _, repliesAt_ctxReply hrtrs hopen status commit err data, by simp, hstatus, hcommit, herr⟩

/-- A reply fills buffers of the routers and changes no die. -/
theorem ctxReply_same (u : State) (r : CtxReq) (status commit err : Nat) (data : List Line) {x : Field} (hx : x ∉ .rtrs :: logged) :
    x.same u (u.ctxReply k r status commit err data) :=
  (ctxReply_kept (L := .rtrs :: logged) (.refl u) k r status commit err data (by decide)).frame x hx

@[simp] theorem ctx_ctxReply (u : State) (r : CtxReq) (status commit err : Nat) (data : List Line) :
    (u.ctxReply k r status commit err data).ctx k = u.ctx k :=
  ctx_of_same u k (ctxReply_same u r status commit err data (by decide)) (ctxReply_same u r status commit err data (by decide))

@[simp] theorem ctx_ctxFail (u : State) (r : CtxReq) (status commit err : Nat) : (u.ctxFail k r status commit err).ctx k = u.ctx k :=
  ctx_ctxReply u r status commit err _

theorem replied_ctxFail {u : State} (hrtrs : u.rtrs = s.rtrs) (hlines : u.replyLines k r = s.replyLines k r) (hopen : s.replyOpen k r)
    {status : Nat} (hst : status < 2 ^ 32) (commit err : Nat) :
    (u.ctxFail k r status commit err).replied s k r status commit err (s.replyLines k r) := by
  have hreplied := replied_ctxReply hrtrs hopen hst commit err (List.replicate (s.replyLines k r) {})
  rw [List.length_replicate] at hreplied
  rwa [State.ctxFail, hlines]

end Sys2Proof.Machine
end

section
/-! SUPPORT. Context dies: arriving requests, refreshes, starvation and register writes (07 R206, R217–R220, R229, R233). -/

namespace Sys2Proof.Machine

/-! ### Rounds of the channels (07 R227, R228) -/

/-- A die apart from what its channels' rounds and its queues change. -/
def CtxDie.still (c : CtxDie) : CtxDie := { c with chans := [], queues := [], preempt := 0 }

@[simp] theorem still_arbitrate (c : CtxDie) (now : Nat) : (c.arbitrate now).still = c.still :=
  List.foldlRecOn (motive := fun d : CtxDie => d.still = c.still) _ _ rfl fun _ hd _ _ => hd

theorem arbitrate_maxPostpone (c : CtxDie) (now : Nat) : (c.arbitrate now).maxPostpone = c.maxPostpone :=
  (congrArg CtxDie.maxPostpone (still_arbitrate c now) :)

theorem chan_mset (c : CtxDie) (key : Nat) (x : Chan) (j : Nat) :
    ({ c with chans := mset {} c.chans key x } : CtxDie).chan j = if j = key then x else c.chan j :=
  mget_mset ({} : Chan) c.chans key x j

@[simp] theorem wake_due (x : Chan) (now : Nat) : (x.wake now).due = x.due := by
  unfold Chan.wake
  split <;> rfl

variable (s : State)

/-- Die `k` with its channels' rounds up to now played, at a later time. -/
@[simp] theorem ctx_arbitrate_tick (k t : Nat) : ((s.tick t).arbitrate k).ctx k = (s.ctx k).arbitrate (max s.now t) := ctx_modCtx _ k _

theorem arbitrate_same (k : Nat) {x : Field} (hx : x ∉ [Field.ctx0, .ctx1]) : x.same s (s.arbitrate k) := modCtx_same s k _ hx

theorem stackUp_arbitrate (k st : Nat) : (s.arbitrate k).stackUp k st = s.stackUp k st := by
  have hboot : (s.arbitrate k).boot = s.boot := arbitrate_same s k (x := .boot) (by decide)
  have hdie : ((s.arbitrate k).ctx k).still = (s.ctx k).still := (congrArg CtxDie.still (ctx_modCtx s k _)).trans (still_arbitrate _ _)
  have hout : ((s.arbitrate k).ctx k).stackOut = (s.ctx k).stackOut := (congrArg CtxDie.stackOut hdie :)
  have hlost : ((s.arbitrate k).ctx k).lost = (s.ctx k).lost := (congrArg CtxDie.lost hdie :)
  rw [State.stackUp, hboot, hout, hlost, ← State.stackUp]

theorem tRefi_arbitrate (k : Nat) : (s.arbitrate k).tRefi k = s.tRefi k := by
  have hsense : (s.arbitrate k).sense = s.sense := arbitrate_same s k (x := .sense) (by decide)
  unfold State.tRefi State.sensor
  rw [hsense]

/-! ### Refresh and starvation (07 R206, R229) -/

variable (t : Nat) (k : Fin 2) (stack : Fin 6) (ch : Fin 32)

/-- A refresh of a channel falls due: its stack is in service, and tREFI has passed since the last one. -/
def State.refreshIsDue (k stack key : Nat) : Prop :=
  s.stackUp k stack = true ∧ ∀ a, ((s.ctx k).chan key).refAt = some a → a + s.tRefi k ≤ s.now

theorem refreshIsDue_arbitrate_tick (key : Nat) : ((s.tick t).arbitrate k).refreshIsDue k stack key ↔
    s.stackUp k stack = true ∧ ∀ a, (((s.ctx k).arbitrate (max s.now t)).chan key).refAt = some a → a + s.tRefi k ≤ max s.now t := by
  have hnow : ((s.tick t).arbitrate k).now = max s.now t := arbitrate_same (s.tick t) k (x := .now) (by decide)
  rw [State.refreshIsDue, stackUp_arbitrate, tRefi_arbitrate, ctx_arbitrate_tick, hnow]
  rfl

/-- One more refresh of a channel waits, up to the limit. -/
def CtxDie.refreshWaits (c : CtxDie) (key now : Nat) : CtxDie :=
  let x := (c.chan key).wake now
  { c with chans := mset {} c.chans key { x with due := min c.maxPostpone (x.due + 1), refAt := some now } }

variable {s t k stack ch} in
theorem refreshDue_due {v : State} (hv : (s.tick t).arbitrate k = v) (h : v.refreshIsDue k stack (32 * stack.val + ch)) :
    exec (.refreshDue t k stack ch) s = .next (v.modCtx k fun c => c.refreshWaits (32 * stack.val + ch) v.now) := by
  obtain ⟨hup, hat⟩ := h
  rw [exec_refreshDue, execRefreshDue, hv]
  refine congrArg _ (if_neg ?_)
  cases hr : ((v.ctx k).chan (32 * stack.val + ch)).refAt with
  | none => simp [hup]
  | some a => simp [hup, hat a hr]

variable {s t k stack ch} in
theorem refreshDue_undue {v : State} (hv : (s.tick t).arbitrate k = v) (h : ¬v.refreshIsDue k stack (32 * stack.val + ch)) :
    exec (.refreshDue t k stack ch) s = .next v := by
  rw [exec_refreshDue, execRefreshDue, hv]
  refine congrArg _ (if_pos ?_)
  cases hr : ((v.ctx k).chan (32 * stack.val + ch)).refAt with
  | none => simpa [State.refreshIsDue, hr] using h
  | some a => simpa [State.refreshIsDue, hr, imp_iff_not_or] using h


/-- A forced refresh of a channel. -/
def CtxDie.refreshForced (c : CtxDie) (key : Nat) : CtxDie :=
  let x := c.chan key
  { c with chans := mset {} c.chans key { x with due := x.due - 1, refresh := x.refresh + 28 } }

variable {s t k stack ch} in
theorem forcedRefresh_due {v : State} (hv : (s.tick t).arbitrate k = v)
    (h : (v.ctx k).maxPostpone ≤ ((v.ctx k).chan (32 * stack.val + ch)).due) :
    exec (.forcedRefresh t k stack ch) s = .next ((v.modCtx k fun c => c.refreshForced (32 * stack.val + ch)).intrude 6) := by
  rw [exec_forcedRefresh, execForcedRefresh, hv]
  exact congrArg _ (if_pos h)

/-- A starved requester is counted and, if it is the first, captured. -/
def CtxDie.starves (c : CtxDie) (key w : Nat) (x : Nat × Nat × Nat) : CtxDie :=
  { c with arbStarve := true, cap := some (c.cap.getD x), starve := satAdd c.starve 1 0xFFFFFFFF, capLast := c.cap.getD x,
           chans := mset {} c.chans key { c.chan key with starved := (c.chan key).starved.erase w } }

variable {s t k stack ch} in
theorem arbStarve_starved {v : State} (hv : (s.tick t).arbitrate k = v) {req : Fin 18} {level : Fin 3}
    (h : ((v.ctx k).chan (32 * stack.val + ch)).starved.contains (4 * req.val + level) = true) :
    Next (exec (.arbStarve t k stack ch req level) s) fun u =>
      u.ctx k = (v.ctx k).starves (32 * stack.val + ch) (4 * req.val + level) (level.val, stack.val, ch.val) ∧ u.intr = v.intr := by
  rw [exec_arbStarve, execArbStarve, hv]
  let w := v.stickyCtx k (v.ctx k).arbStarve
    (fun _ => (v.ctx k).starves (32 * stack.val + ch) (4 * req.val + level) (level.val, stack.val, ch.val)) 0x4020 1
    (if req.val = 17 then 18 else req.val) [ch, req, level, (v.ctx k).starveRounds.toNat]
  have hctx : w.ctx k = (v.ctx k).starves (32 * stack.val + ch) (4 * req.val + level) (level.val, stack.val, ch.val) := ctx_stickyCtx ..
  have hintr : w.intr = v.intr := stickyCtx_same (x := .intr) _ _ _ _ _ _ _ _ (by decide)
  refine next_of_eq (u := if (v.ctx k).starveIrq then w.pfIrq (8 + k) else w) (congrArg _ (if_neg (by rw [h]; decide))) ?_
  split
  · exact ⟨(ctx_raise ..).trans hctx, ((raise_kept (L := [.host, .out]) (.refl w) 0 (8 + k) (by decide)).frame .intr (by decide)).trans hintr⟩
  · exact ⟨hctx, hintr⟩

/-- A page written to CTX_POOL_PUSH joins the ring if the die may use it; else a permission error is recorded (07 R233). -/
theorem ctx_poolPush (ppn : Nat) : (s.poolPush k ppn).ctx k =
    { s.ctx k with poolPush := BitVec.ofNat 24 ppn, ring := if ppnUsable k ppn then (s.ctx k).ring ++ [ppn] else (s.ctx k).ring,
                   permErr := (s.ctx k).permErr || !ppnUsable k ppn } := by
  unfold State.poolPush
  dsimp only
  split
  · rename_i h
    simp [h]
  · rename_i h
    simp [h]

/-! ### Arriving requests (07 R201, R217–R220) -/

variable {s t k} {link : Fin 36} {m : MLine} {ls : List MLine}

/-- The request of a message at an attach link. -/
def arrived (link : Nat) (m : MLine) (ls : List MLine) : CtxReq :=
  { link := link, vc := hVc m.hdr, gen := hGen m.hdr, unit := hUnit m.hdr, hdr := m.line.data, lines := ls.map (·.line) }

theorem takeEdge_of_empty {die link : Nat} (h : mget [] s.edgeQ (64 * die + link) = []) (m : MLine) (ls : List MLine) :
    s.takeEdge die link (m :: ls) = some s := by
  simp [State.takeEdge, h]

/-- A request of an old generation is counted and logged (07 R220). -/
def State.dropStaleReq (s : State) (k : Nat) (r : CtxReq) : State :=
  s.stickyCtx k (s.ctx k).staleDrop (fun c => { c with staleDrop := true, stale := satAdd c.stale 1 0xFFFFFFFF })
    0x4001 0 r.fn [r.gen.toNat, s.gen.toNat, r.link, r.unit]

/-- A request out of form is logged and answered BAD_REQ (07 R217, R219). -/
def State.refuseReq (s : State) (k : Nat) (r : CtxReq) : State :=
  (s.stickyCtx k (s.ctx k).badReq (fun c => { c with badReq := true }) 0x4033 2 r.fn [r.f 0 8, r.f 8 8, r.link, r.unit]).ctxFail k r 5 0 0

/-- The form of a request's reply depends on the maps, the sequences and the plans only. -/
theorem replyLines_congr {u : State} {k : Nat} (hmaps : (u.ctx k).maps = (s.ctx k).maps) (hseqs : (u.ctx k).seqs = (s.ctx k).seqs)
    (hplans : u.plans = s.plans) (r : CtxReq) : u.replyLines k r = s.replyLines k r := by
  unfold State.replyLines State.reqShape State.mapOf State.seqOf State.planOfMap
  rw [hmaps, hseqs, hplans]

/-- A status bit leaves it as it is. -/
theorem replyLines_stickyCtx (s : State) (k : Nat) (r : CtxReq) (was : Bool) {set : CtxDie → CtxDie} (hmaps : (set (s.ctx k)).maps = (s.ctx k).maps)
    (hseqs : (set (s.ctx k)).seqs = (s.ctx k).seqs) (code sev unit : Nat) (args : List Nat) :
    (s.stickyCtx k was set code sev unit args).replyLines k r = s.replyLines k r := by
  refine replyLines_congr ?_ ?_ (stickyCtx_same (x := .plans) _ _ _ _ _ _ _ _ (by decide)) r
  · rw [ctx_stickyCtx, hmaps]
  · rw [ctx_stickyCtx, hseqs]

theorem replied_refuseReq {k : Nat} {r : CtxReq} (hopen : s.replyOpen k r) : (s.refuseReq k r).replied s k r 5 0 0 (s.replyLines k r) :=
  replied_ctxFail (stickyCtx_same (x := .rtrs) _ _ _ _ _ _ _ _ (by decide)) (replyLines_stickyCtx _ _ _ _ rfl rfl _ _ _ _) hopen (by decide) 0 0

theorem ctx_refuseReq (k : Nat) (r : CtxReq) : (s.refuseReq k r).ctx k = { s.ctx k with badReq := true } :=
  (ctx_ctxFail ..).trans (ctx_stickyCtx ..)

/-- A request joins its unit's queue (07 R218). -/
def CtxDie.queueReq (c : CtxDie) (r : CtxReq) : CtxDie :=
  { c with queues := mset [] c.queues (4 * r.fn + r.vc) (c.queue r.fn r.vc ++ [r]) }

section
variable (hedge : mget [] s.edgeQ (64 * (17 + k.val) + link) = []) (hflips : m.line.flips = 0) (hserv : s.ctxInService k = true)
  (hkind : hKind m.hdr = 0) (hfn : (arrived link m ls).fn < 19) (t)
include hedge hflips hserv hkind hfn

/-- A message that finds its link free is dropped, refused, held or queued by its generation, its form and its unit's queue. -/
theorem contextRequestArrival_eq : exec (.contextRequestArrival t k link (m :: ls)) s = .next (
    let r := arrived link m ls
    if hGen m.hdr ≠ s.gen then (s.tick t).dropStaleReq k r
    else if (!r.placed || !r.reservedOk || !s.ctxShapeOk k r) = true then (s.tick t).refuseReq k r
    else if (if r.fn = 18 then 16 else 4) ≤ ((s.ctx k).queue r.fn r.vc).length then s.tick t
    else (s.tick t).modCtx k fun c => c.queueReq r) := by
  have htake : (s.tick t).takeEdge (17 + k) link (m :: ls) = some (s.tick t) := takeEdge_of_empty (s := s.tick t) hedge m ls
  have hvalue : m.line.value (s.tick t).freeVal = m.line.data := if_pos hflips
  rw [exec_contextRequestArrival]
  unfold execContextRequestArrival
  dsimp only
  rw [htake]
  dsimp only
  rw [hvalue]
  exact congrArg _ ((if_neg (by exact fun h => by simp [show (s.tick t).ctxInService k = true from hserv] at h)).trans (if_neg (not_or.2 ⟨hfn.not_ge, not_not.2 hkind⟩)))

end
end Sys2Proof.Machine

namespace Sys2Proof

open Machine

/-- Settles O36: an arriving message is dropped, refused or queued by its generation, its form and its queue; each of the other commands is one
update of its die, after the rounds of its channels where they show. -/
theorem contextDieTakesRequestsAndRegisterWrites : Obligations.ContextDieTakesRequestsAndRegisterWrites := by
  unfold Obligations.ContextDieTakesRequestsAndRegisterWrites
  intro t k link stack ch req level v m ls s c d key r
  obtain ⟨w, hw⟩ : ∃ w, (s.tick t).arbitrate k = w := ⟨_, rfl⟩
  have hdie : w.ctx k = d := hw ▸ ctx_arbitrate_tick s k t
  have hnow : w.now = max s.now t := hw ▸ arbitrate_same (s.tick t) k (x := .now) (by decide)
  have hdue := refreshIsDue_arbitrate_tick s t k stack key
  rw [hw] at hdue
  refine ⟨fun hedge hflips hserv hkind hfn => ?_, ?_, fun hlimit => ?_, fun hstarved => ?_, ?_, ?_, ?_⟩
  · have harrival := contextRequestArrival_eq t hedge hflips hserv hkind hfn
    refine ⟨fun hgen hplaced hreserved hshape hroom => ?_, fun hgen => ?_, fun hgen hform hfence hdown => ?_⟩
    · have hform : ¬(!r.placed || !r.reservedOk || !s.ctxShapeOk k r) = true := by rw [hplaced, hreserved, hshape]; decide
      refine next_of_eq (harrival.trans (congrArg _ ((if_neg (not_not.2 hgen)).trans ((if_neg hform).trans (if_neg hroom.not_ge))))) ?_
      rw [ctx_modCtx]
      exact ⟨mget_mset_same _ _, rfl, modCtx_same (s.tick t) k _ (x := .snags) (by decide)⟩
    · refine next_of_eq (harrival.trans (congrArg _ (if_pos hgen))) ?_
      rw [State.dropStaleReq, ctx_stickyCtx]
      exact ⟨rfl, rfl, rfl, stickyCtx_same (x := .rtrs) _ _ _ _ _ _ _ _ (by decide)⟩
    · have hform : (!r.placed || !r.reservedOk || !s.ctxShapeOk k r) = true := by
        rw [← Bool.not_and, ← Bool.not_and, hform]; rfl
      refine next_of_eq (harrival.trans (congrArg _ ((if_neg (not_not.2 hgen)).trans (if_pos hform)))) ?_
      have hopen : (s.tick t).replyOpen k r := ⟨fld_lt m.hdr 0 2, hfence, hdown⟩
      rw [ctx_refuseReq]
      exact ⟨rfl, rfl, replied_refuseReq hopen⟩
  · by_cases hgo : w.refreshIsDue k stack key
    · refine next_of_eq (refreshDue_due hw hgo) ?_
      rw [ctx_modCtx, if_pos (hdue.1 hgo), hdie, hnow]
      simp only [CtxDie.refreshWaits, chan_mset, wake_due]
      exact ⟨fun j hj => if_neg hj, by simp [key, d, arbitrate_maxPostpone], by simp [key]⟩
    · refine next_of_eq (refreshDue_undue hw hgo) ?_
      rw [if_neg (mt hdue.2 hgo), hdie]
      exact ⟨fun _ _ => rfl, rfl⟩
  · have hmost : (w.ctx k).maxPostpone ≤ ((w.ctx k).chan key).due := by rwa [hdie, arbitrate_maxPostpone]
    refine next_of_eq (forcedRefresh_due hw hmost) ?_
    have hforced : ((w.modCtx k fun c => c.refreshForced key).intrude 6).ctx k = d.refreshForced key :=
      (ctx_modCtx w k fun c => c.refreshForced key).trans (congrArg (CtxDie.refreshForced · key) hdie)
    rw [hforced]
    simp only [CtxDie.refreshForced, chan_mset]
    refine ⟨fun j hj => if_neg hj, by simp, by simp, ?_⟩
    rw [State.intrude_intr, modCtx_same w k _ (x := .now) (by decide), hnow]
    exact List.mem_append_right _ (List.mem_singleton_self _)
  · have hfind : ((w.ctx k).chan key).starved.contains (4 * req.val + level) = true := by rwa [hdie]
    obtain ⟨u, hu, hctx, hintr⟩ := arbStarve_starved hw hfind
    refine next_of_eq hu ?_
    rw [hctx, hdie, hintr, ← hw, arbitrate_same (s.tick t) k (x := .intr) (by decide)]
    have hstill : d.still = c.still := still_arbitrate c _
    have hstarve : d.starve = c.starve := (congrArg CtxDie.starve hstill :)
    have hcap : d.cap = c.cap := (congrArg CtxDie.cap hstill :)
    refine ⟨rfl, ?_, ?_, rfl, ?_⟩
    · exact congrArg (satAdd · 1 0xFFFFFFFF) hstarve
    · exact congrArg (fun x : Option _ => some (x.getD _)) hcap
    · exact (chan_mset ..).trans (if_pos rfl)
  · rw [exec_ctxPoolPush, execCtxPoolPush]
    refine next_of_eq rfl ?_
    rw [ctx_poolPush]
    have hword : BitVec.ofNat 24 (fld v 0 24) = v.extractLsb' 0 24 := by rw [fld, BitVec.ofNat_toNat, BitVec.setWidth_eq]
    refine ⟨hword, ?_⟩
    by_cases husable : ppnUsable k (fld v 0 24) = true
    · simp [husable, c]
    · simp [husable, c]
  · rw [exec_ctxCntClr, execCtxCntClr, hw]
    refine next_of_eq rfl ?_
    rw [ctx_modCtx, hdie]
  · rw [exec_ctxStarveCapClear, execCtxStarveCapClear]
    exact next_of_eq rfl (ctx_modCtx ..)

end Sys2Proof
end

section
/-! SUPPORT. Context dies: what a request finds when it starts, translation, and reads of lines without errors (07 R205–R208, R216, R218, R219). -/

namespace Sys2Proof.Machine

/-! ### States that a request's own work finds the same -/

/-- A die apart from what its channels' rounds, its queues and the writes of requests change. -/
def CtxDie.roster (c : CtxDie) : CtxDie := { c.still with mem := [], ring := [] }

/-- Parts that a request's writes leave as they are: tables of sequences, maps and tenants, and what is in service. -/
structure State.SameRoster (u s : State) (k : Nat) : Prop where
  rtrs : u.rtrs = s.rtrs
  boot : u.boot = s.boot
  free : u.free = s.free
  plans : u.plans = s.plans
  die : (u.ctx k).roster = (s.ctx k).roster

/-- What is stored on die `k` is the same too. -/
structure State.SameStore (u s : State) (k : Nat) : Prop where
  rtrs : u.rtrs = s.rtrs
  boot : u.boot = s.boot
  free : u.free = s.free
  plans : u.plans = s.plans
  pages : u.pages = s.pages
  die : (u.ctx k).still = (s.ctx k).still

section
variable {s u v : State} {k : Nat}

theorem State.SameRoster.refl (s : State) (k : Nat) : s.SameRoster s k := ⟨rfl, rfl, rfl, rfl, rfl⟩

theorem State.SameRoster.trans (h : u.SameRoster v k) (g : v.SameRoster s k) : u.SameRoster s k :=
  ⟨h.rtrs.trans g.rtrs, h.boot.trans g.boot, h.free.trans g.free, h.plans.trans g.plans, h.die.trans g.die⟩

theorem State.SameStore.trans (h : u.SameStore v k) (g : v.SameStore s k) : u.SameStore s k :=
  ⟨h.rtrs.trans g.rtrs, h.boot.trans g.boot, h.free.trans g.free, h.plans.trans g.plans, h.pages.trans g.pages, h.die.trans g.die⟩

theorem State.SameStore.roster (h : u.SameStore s k) : u.SameRoster s k :=
  ⟨h.rtrs, h.boot, h.free, h.plans, (congrArg CtxDie.roster h.die :)⟩

theorem mem_of_still {c d : CtxDie} (h : c.still = d.still) : c.mem = d.mem := (congrArg CtxDie.mem h :)

theorem State.SameStore.mem (h : u.SameStore s k) : (u.ctx k).mem = (s.ctx k).mem := mem_of_still h.die

theorem State.SameStore.ring (h : u.SameStore s k) : (u.ctx k).ring = (s.ctx k).ring := (congrArg CtxDie.ring h.die :)

theorem State.SameRoster.seqs (h : u.SameRoster s k) : (u.ctx k).seqs = (s.ctx k).seqs := (congrArg CtxDie.seqs h.die :)

theorem State.SameRoster.maps (h : u.SameRoster s k) : (u.ctx k).maps = (s.ctx k).maps := (congrArg CtxDie.maps h.die :)

theorem State.SameRoster.tenants (h : u.SameRoster s k) : (u.ctx k).tenants = (s.ctx k).tenants := (congrArg CtxDie.tenants h.die :)

theorem modCtx_sameRoster (s : State) (k : Nat) {f : CtxDie → CtxDie} (hf : (f (s.ctx k)).roster = (s.ctx k).roster) : (s.modCtx k f).SameRoster s k where
  rtrs := modCtx_same s k f (x := .rtrs) (by decide)
  boot := modCtx_same s k f (x := .boot) (by decide)
  free := modCtx_same s k f (x := .free) (by decide)
  plans := modCtx_same s k f (x := .plans) (by decide)
  die := by rw [ctx_modCtx, hf]

theorem modCtx_sameStore (s : State) (k : Nat) {f : CtxDie → CtxDie} (hf : (f (s.ctx k)).still = (s.ctx k).still) : (s.modCtx k f).SameStore s k where
  rtrs := modCtx_same s k f (x := .rtrs) (by decide)
  boot := modCtx_same s k f (x := .boot) (by decide)
  free := modCtx_same s k f (x := .free) (by decide)
  plans := modCtx_same s k f (x := .plans) (by decide)
  pages := modCtx_same s k f (x := .pages) (by decide)
  die := by rw [ctx_modCtx, hf]

theorem tick_sameStore (s : State) (t k : Nat) : (s.tick t).SameStore s k := ⟨rfl, rfl, rfl, rfl, rfl, rfl⟩

@[simp] theorem still_issue (c : CtxDie) (now req level : Nat) (iss keys : List Nat) : (c.issue now req level iss keys).still = c.still :=
  List.foldlRecOn (motive := fun d : CtxDie => d.still = c.still) _ _ rfl fun _ hd _ _ => hd

theorem issue_sameStore (s : State) (k : Nat) (r : CtxReq) (keys : List Nat) : (s.issue k r keys).SameStore s k :=
  modCtx_sameStore s k (still_issue ..)

/-! ### Tables and translation (07 R207, R208, R216) -/

variable (r : CtxReq)

theorem State.SameRoster.mapOf (h : u.SameRoster s k) : u.mapOf k r = s.mapOf k r := by
  rw [State.mapOf, h.maps, ← State.mapOf]

theorem State.SameRoster.seqOf (h : u.SameRoster s k) (q : Nat) : u.seqOf k q = s.seqOf k q := by
  rw [State.seqOf, h.seqs, ← State.seqOf]

theorem State.SameRoster.stackUp (h : u.SameRoster s k) (st : Nat) : u.stackUp k st = s.stackUp k st := by
  have hout : (u.ctx k).stackOut = (s.ctx k).stackOut := (congrArg CtxDie.stackOut h.die :)
  have hlost : (u.ctx k).lost = (s.ctx k).lost := (congrArg CtxDie.lost h.die :)
  rw [State.stackUp, h.boot, hout, hlost, ← State.stackUp]

theorem State.SameRoster.replyLines (h : u.SameRoster s k) : u.replyLines k r = s.replyLines k r := replyLines_congr h.maps h.seqs h.plans r

theorem State.SameRoster.pteKey (h : u.SameRoster s k) (tenant lpn : Nat) : u.pteKey k tenant lpn = s.pteKey k tenant lpn := by
  rw [State.pteKey, h.tenants, ← State.pteKey]

theorem State.SameRoster.tableAt (h : u.SameRoster s k) (key : Nat) : u.tableAt k key = s.tableAt k key := by
  rw [State.tableAt, h.tenants, ← State.tableAt]

theorem State.SameRoster.pteKeys (h : u.SameRoster s k) (tenant : Nat) (lpns : List Nat) : u.pteKeys k tenant lpns = s.pteKeys k tenant lpns := by
  rw [State.pteKeys, funext (h.pteKey tenant), ← State.pteKeys]

theorem State.SameStore.pte (h : u.SameStore s k) (tenant lpn : Nat) : u.pte tenant lpn = s.pte tenant lpn := by
  rw [State.pte, h.pages, ← State.pte]

theorem State.SameStore.fwLine (h : u.SameStore s k) (key : Nat) : u.fwLine k key = s.fwLine k key := by
  unfold State.fwLine
  rw [h.mem, h.roster.tableAt]
  simp only [h.pte]

theorem State.SameStore.readPte (h : u.SameStore s k) (tenant lpn : Nat) : u.readPte k tenant lpn = s.readPte k tenant lpn := by
  have hfree : u.freeVal = s.freeVal := congrArg Config.freeNat h.free
  unfold State.readPte
  simp only [h.roster.pteKey, h.fwLine, h.pte, hfree]

theorem State.SameStore.translate (h : u.SameStore s k) (tenant lpn : Nat) (write : Bool) :
    u.translate k tenant lpn write = s.translate k tenant lpn write := by
  unfold State.translate
  simp only [h.roster.tenants, h.readPte, h.roster.stackUp]

theorem State.SameStore.transPos (h : u.SameStore s k) (q : SeqEnt) (p : Nat) (write : Bool) :
    u.transPos k q r p write = s.transPos k q r p write := by
  unfold State.transPos
  rw [h.translate]

theorem State.SameStore.firstPerm (h : u.SameStore s k) (q : SeqEnt) (ps : List Nat) (write : Bool) :
    u.firstPerm k q r ps write = s.firstPerm k q r ps write := by
  unfold State.firstPerm
  simp only [h.transPos]

/-! ### Lines without errors (07 R205) -/

/-- No line of the die has a changed bit. -/
def CtxDie.clean (c : CtxDie) : Prop := ∀ x ∈ c.mem, x.2.flips = 0

variable {r}

theorem CtxDie.clean.flips {c : CtxDie} (h : c.clean) (key : Nat) : (mget {} c.mem key).flips = 0 :=
  mget_all (P := fun x : Line => x.flips = 0) h rfl key

theorem CtxDie.clean.of_mem {c d : CtxDie} (h : c.clean) (hmem : d.mem = c.mem) : d.clean := fun x hx => h x (hmem ▸ hx)

theorem CtxDie.clean.mset {c : CtxDie} (h : c.clean) {x : Line} (hx : x.flips = 0) (key : Nat) : ∀ e ∈ mset {} c.mem key x, e.2.flips = 0 :=
  mset_all (P := fun x : Line => x.flips = 0) h hx key

theorem handOn_of_flips {x : Line} (h : x.flips = 0) : x.handOn = x := if_pos h

theorem value_of_flips {x : Line} (h : x.flips = 0) (free : Nat) : x.value free = x.data := if_pos h

theorem errs_of_flips {x : Line} (h : x.flips = 0) (free : Nat) : x.errs free = [] := if_pos h

/-- The lines of page tables have no changed bits either. -/
theorem CtxDie.clean.fwLine (h : (s.ctx k).clean) (key : Nat) : (s.fwLine k key).flips = 0 := by
  unfold State.fwLine
  dsimp only
  split
  · exact h.flips key
  · exact h.flips key

theorem CtxDie.clean.readPte (h : (s.ctx k).clean) (tenant lpn : Nat) : s.readPte k tenant lpn = s.pte tenant lpn := by
  unfold State.readPte
  split
  · exact if_pos (h.fwLine _)
  · rfl

/-- Reads of lines without errors report nothing. -/
theorem CtxDie.clean.readLines (h : (s.ctx k).clean) (r : CtxReq) (keys : List Nat) : s.readLines k r keys = (s.issue k r keys, []) := by
  unfold State.readLines
  refine List.foldlRecOn (motive := fun a : State × List Nat => a = (s.issue k r keys, [])) _ _ rfl fun a ha key _ => ?_
  have hflips : (mget {} (a.1.ctx k).mem key).flips = 0 := by
    rw [ha, (issue_sameStore s k r keys).mem]
    exact h.flips key
  rw [errs_of_flips hflips]
  exact ha

/-- A request that reads lines without errors is answered OK. -/
theorem CtxDie.clean.readReply (h : (s.ctx k).clean) (r : CtxReq) (commit : Nat) (parts : List (Nat × List Nat)) (data : List Line) :
    s.readReply k r commit parts data = (s.issue k r (parts.flatMap (·.2))).ctxReply k r 0 commit 0 data := by
  have hnone : (parts.find? fun e => e.2.any ([] : List Nat).contains) = none := by simp
  rw [State.readReply, h.readLines, hnone]

/-- A reply leaves what is stored on the die as it is. -/
theorem still_ctxReply (u : State) (k : Nat) (r : CtxReq) (status commit err : Nat) (data : List Line) :
    ((u.ctxReply k r status commit err data).ctx k).still = (u.ctx k).still := congrArg _ (ctx_ctxReply ..)

theorem CtxDie.clean.still_readReply (h : (s.ctx k).clean) (r : CtxReq) (commit : Nat) (parts : List (Nat × List Nat)) (data : List Line) :
    ((s.readReply k r commit parts data).ctx k).still = (s.ctx k).still := by
  rw [h.readReply, still_ctxReply]
  exact (issue_sameStore s k r _).die

theorem CtxDie.clean.replied_readReply (h : (u.ctx k).clean) (hsame : u.SameRoster s k) (hopen : s.replyOpen k r) (commit : Nat)
    (parts : List (Nat × List Nat)) (data : List Line) :
    (u.readReply k r commit parts data).replied s k r 0 commit 0 data.length := by
  rw [h.readReply]
  exact replied_ctxReply ((issue_sameStore u k r _).rtrs.trans hsame.rtrs) hopen (by decide) commit 0 data

/-! ### Starting a request (07 R216, R218) -/

/-- The state in which a unit's next request does its work. -/
def State.taken (s : State) (t k : Nat) (r : CtxReq) : State :=
  (((s.tick t).arbitrate k).modCtx k fun c => c.upset []).modCtx k fun c => c.popReq r

theorem taken_sameStore (s : State) (t k : Nat) (r : CtxReq) : (s.taken t k r).SameStore s k := by
  refine (modCtx_sameStore _ k rfl).trans ((modCtx_sameStore _ k rfl).trans ((modCtx_sameStore _ k ?_).trans (tick_sameStore s t k)))
  exact still_arbitrate ..

theorem ctxInService_modCtx (s : State) (k : Nat) {f : CtxDie → CtxDie} (hf : (f (s.ctx k)).still = (s.ctx k).still) :
    (s.modCtx k f).ctxInService k = s.ctxInService k := by
  have hsame := modCtx_sameStore s k hf
  have hlost : ((s.modCtx k f).ctx k).lost = (s.ctx k).lost := (congrArg CtxDie.lost hsame.die :)
  have hpwr : (s.modCtx k f).pwr = s.pwr := modCtx_same s k f (x := .pwr) (by decide)
  rw [State.ctxInService, hlost, hpwr, hsame.boot, funext hsame.roster.stackUp, ← State.ctxInService]

@[simp] theorem queues_arbitrate (c : CtxDie) (now : Nat) : (c.arbitrate now).queues = c.queues :=
  List.foldlRecOn (motive := fun d : CtxDie => d.queues = c.queues) _ _ rfl fun _ hd _ _ => hd

theorem nextReq_congr {c d : CtxDie} (h : c.queues = d.queues) (unit : Nat) (fw : Bool) : c.nextReq unit fw = d.nextReq unit fw := by
  unfold CtxDie.nextReq CtxDie.queue
  rw [h]

/-- The request as it runs: with the rounds at which its transfers reach their channels. -/
def CtxReq.started (r : CtxReq) (iss : List Nat) : CtxReq := { r with iss := iss }

section
variable (s u : State) (k : Nat) (r : CtxReq) (iss : List Nat)

@[simp] theorem started_f (o n : Nat) : (r.started iss).f o n = r.f o n := rfl
@[simp] theorem started_g : (r.started iss).g = r.g := rfl
@[simp] theorem started_vis : (r.started iss).vis = r.vis := rfl
@[simp] theorem started_pos : (r.started iss).pos = r.pos := rfl
@[simp] theorem started_count : (r.started iss).count = r.count := rfl
@[simp] theorem started_lines : (r.started iss).lines = r.lines := rfl
@[simp] theorem started_bytes (free : Nat) : (r.started iss).bytes free = r.bytes free := rfl
@[simp] theorem mapOf_started : s.mapOf k (r.started iss) = s.mapOf k r := rfl
@[simp] theorem replyLines_started : s.replyLines k (r.started iss) = s.replyLines k r := rfl
@[simp] theorem transPos_started (q : SeqEnt) (p : Nat) (write : Bool) : s.transPos k q (r.started iss) p write = s.transPos k q r p write := rfl
@[simp] theorem firstPerm_started (q : SeqEnt) (ps : List Nat) (write : Bool) :
    s.firstPerm k q (r.started iss) ps write = s.firstPerm k q r ps write := rfl
@[simp] theorem posLpn_started (q : SeqEnt) (p : Nat) : posLpn q (r.started iss) p = posLpn q r p := rfl
@[simp] theorem spillArea_started : s.spillArea (r.started iss) = s.spillArea r := rfl
@[simp] theorem fwLegal_started : fwLegal k (r.started iss) = fwLegal k r := rfl
@[simp] theorem replied_started (status commit err n : Nat) :
    u.replied s k (r.started iss) status commit err n = u.replied s k r status commit err n := rfl

end

theorem State.replyOpen.started (h : s.replyOpen k r) (iss : List Nat) : s.replyOpen k (r.started iss) := h

/-- A unit runs its next request where the operation is its own. -/
theorem runUnit_nextOp {unit op : Nat} (h : s.nextOp k unit op r) (t : Nat) (iss : List Nat) (f : State → CtxReq → State) :
    (s.tick t).runUnit k unit op iss [] f = f (s.taken t k r) (r.started iss) := by
  obtain ⟨hnext, hop, -, hserv, -⟩ := h
  let v := (s.tick t).arbitrate k
  have hqueues : ((v.modCtx k fun c => c.upset []).ctx k).queues = (s.ctx k).queues := by
    rw [ctx_modCtx]
    exact (congrArg CtxDie.queues (ctx_arbitrate_tick s k t)).trans (queues_arbitrate ..)
  have hserv' : (v.modCtx k fun c => c.upset []).ctxInService k = true :=
    (ctxInService_modCtx v k rfl).trans ((ctxInService_modCtx (s.tick t) k (still_arbitrate ..)).trans hserv)
  unfold State.runUnit
  dsimp only
  rw [nextReq_congr hqueues, hnext]
  exact if_pos ⟨hop, hserv'⟩

theorem State.nextOp.replyOpen {unit op : Nat} (h : s.nextOp k unit op r) : s.replyOpen k r := by
  obtain ⟨-, -, hvc, -, hfence, hdown⟩ := h
  exact ⟨hvc, hfence, hdown⟩

/-- A request on a sequence in order goes on to its own work. -/
theorem withSeq_valid {f : Nat → SeqEnt → State} (hvalid : (s.mapOf k r).valid = true) (hfault : (s.seqOf k (s.mapOf k r).seq).fault = false) :
    s.withSeq k r f = f (s.mapOf k r).seq (s.seqOf k (s.mapOf k r).seq) := by
  simp [State.withSeq, hvalid, hfault]

/-- A read of a die without errors, on what its unit's next request finds, is answered OK and leaves the memory as it is. -/
theorem taken_readReply {unit op : Nat} (h : s.nextOp k unit op r) (hclean : (s.ctx k).clean) (t : Nat) (iss : List Nat) (commit : Nat)
    (parts : List (Nat × List Nat)) {data : List Line} {n : Nat} (hlen : data.length = n) :
    ((s.taken t k r).readReply k (r.started iss) commit parts data).replied s k r 0 commit 0 n ∧
      (((s.taken t k r).readReply k (r.started iss) commit parts data).ctx k).mem = (s.ctx k).mem := by
  have hsame := taken_sameStore s t k r
  have hclean' : ((s.taken t k r).ctx k).clean := hclean.of_mem hsame.mem
  subst hlen
  exact ⟨hclean'.replied_readReply hsame.roster (h.replyOpen.started iss) commit parts data,
    (mem_of_still (hclean'.still_readReply ..)).trans hsame.mem⟩

/-! ### Requests refused (07 R212, R219, R232) -/

theorem replied_ctxPerm (hsame : u.SameRoster s k) (hopen : s.replyOpen k r) (seq place reason commit err : Nat) :
    (u.ctxPerm k r seq place reason commit err).replied s k r 2 commit err (s.replyLines k r) :=
  replied_ctxFail ((stickyCtx_same (x := .rtrs) _ _ _ _ _ _ _ _ (by decide)).trans hsame.rtrs)
    ((replyLines_stickyCtx _ _ _ _ rfl rfl _ _ _ _).trans (hsame.replyLines r)) hopen (by decide) commit err

theorem ctx_ctxPerm (u : State) (k : Nat) (r : CtxReq) (seq place reason commit err : Nat) :
    (u.ctxPerm k r seq place reason commit err).ctx k = { u.ctx k with permErr := true } :=
  (ctx_ctxFail ..).trans (ctx_stickyCtx ..)

theorem replied_ctxWindow (hsame : u.SameRoster s k) (hopen : s.replyOpen k r) (seq pos commit : Nat) :
    (u.ctxWindow k r seq pos commit).replied s k r 1 commit pos (s.replyLines k r) :=
  replied_ctxFail ((stickyCtx_same (x := .rtrs) _ _ _ _ _ _ _ _ (by decide)).trans hsame.rtrs)
    ((replyLines_stickyCtx _ _ _ _ rfl rfl _ _ _ _).trans (hsame.replyLines r)) hopen (by decide) commit pos

theorem ctx_ctxWindow (u : State) (k : Nat) (r : CtxReq) (seq pos commit : Nat) :
    (u.ctxWindow k r seq pos commit).ctx k = { u.ctx k with windowErr := true } :=
  (ctx_ctxFail ..).trans (ctx_stickyCtx ..)

end
end Sys2Proof.Machine
end

section
/-! SUPPORT. Context dies: bytes written to a page and read back (07 R205, R209, R222). -/

namespace Sys2Proof.Machine

/-! ### Bytes and the numbers they spell (00 R7) -/

theorem fld_eq {w : Nat} (v : BitVec w) (lo n : Nat) : fld v lo n = v.toNat / 2 ^ lo % 2 ^ n := by
  rw [fld, BitVec.extractLsb'_toNat, Nat.shiftRight_eq_div_pow]

/-- The bytes of a word from byte `o` on spell the field there. -/
theorem leNat_map_range_extract {w : Nat} (v : BitVec w) (o n : Nat) :
    leNat ((List.range n).map fun i => v.extractLsb' (8 * (o + i)) 8) = fld v (8 * o) (8 * n) := by
  induction n generalizing o with
  | zero => simp [leNat, fld_eq, Nat.mod_one]
  | succ n ih =>
    have hshift : ((List.range n).map fun i => v.extractLsb' (8 * (o + (i + 1))) 8) = (List.range n).map fun i => v.extractLsb' (8 * (o + 1 + i)) 8 :=
      List.map_congr_left fun i _ => by rw [Nat.add_right_comm, Nat.add_assoc]
    have hpow : 2 ^ (8 * (n + 1)) = 256 * 2 ^ (8 * n) := by rw [Nat.mul_succ, Nat.pow_add, Nat.mul_comm]
    rw [List.range_succ_eq_map, List.map_cons, List.map_map, leNat]
    simp only [Function.comp_def, Nat.succ_eq_add_one]
    rw [hshift, ih, ← fld, fld_eq, fld_eq, fld_eq, hpow, Nat.mod_mul, Nat.add_zero, Nat.mul_succ, Nat.pow_add, Nat.div_div_eq_div_mul]
    rfl

theorem leNat_append (a b : List Byte) : leNat (a ++ b) = leNat a + 256 ^ a.length * leNat b := by
  induction a with
  | nil => simp [leNat]
  | cons x a ih => rw [List.cons_append, leNat, leNat, ih, List.length_cons, Nat.pow_succ]; ring

/-- Words of eight bytes put together spell what the bytes spell. -/
theorem foldr_words_leNat (bs : List Byte) (n k : Nat) (h : 8 * (k + n) ≤ bs.length) :
    ((List.range n).map fun w => leNat ((bs.drop (8 * (k + w))).take 8)).foldr (fun e acc => e + 2 ^ 64 * acc) 0 =
      leNat ((bs.drop (8 * k)).take (8 * n)) := by
  induction n generalizing k with
  | zero => simp [leNat]
  | succ n ih =>
    have hlen : ((bs.drop (8 * k)).take 8).length = 8 := by rw [List.length_take, List.length_drop]; omega
    have hshift : ((List.range n).map fun w => leNat ((bs.drop (8 * (k + (w + 1)))).take 8)) =
        (List.range n).map fun w => leNat ((bs.drop (8 * (k + 1 + w))).take 8) :=
      List.map_congr_left fun w _ => by rw [Nat.add_right_comm, Nat.add_assoc]
    have htake : (bs.drop (8 * k)).take (8 * (n + 1)) = (bs.drop (8 * k)).take 8 ++ (bs.drop (8 * (k + 1))).take (8 * n) := by
      rw [Nat.mul_succ, Nat.add_comm, List.take_add, List.drop_drop, Nat.mul_succ]
    rw [List.range_succ_eq_map, List.map_cons, List.map_map, List.foldr_cons, htake, leNat_append, hlen, ← ih (k + 1) (by omega), ← hshift]
    rfl

/-- The byte at place `j` of the bytes a number spells. -/
theorem ofNat_leNat_div {bs : List Byte} {j : Nat} (h : j < bs.length) : BitVec.ofNat 8 (leNat bs / 2 ^ (8 * j)) = bs[j] := by
  induction bs generalizing j with
  | nil => exact absurd h (Nat.not_lt_zero j)
  | cons b bs ih =>
    cases j with
    | zero =>
      apply BitVec.eq_of_toNat_eq
      have hb := b.isLt
      rw [leNat, BitVec.toNat_ofNat, List.getElem_cons_zero]
      omega
    | succ j =>
      have hdiv : leNat (b :: bs) / 2 ^ (8 * (j + 1)) = leNat bs / 2 ^ (8 * j) := by
        have hb := b.isLt
        rw [Nat.mul_succ, Nat.add_comm, Nat.pow_add, ← Nat.div_div_eq_div_mul, leNat]
        congr 1
        omega
      rw [hdiv, List.getElem_cons_succ]
      exact ih (Nat.lt_of_succ_lt_succ h)

theorem leBytes_toNat {w : Nat} (v : BitVec w) (o n : Nat) :
    leBytes n (v.toNat / 2 ^ (8 * o)) = (List.range n).map fun i => v.extractLsb' (8 * (o + i)) 8 := by
  induction n generalizing o with
  | zero => rfl
  | succ n ih =>
    have hbyte : BitVec.ofNat 8 (v.toNat / 2 ^ (8 * o)) = v.extractLsb' (8 * (o + 0)) 8 := by
      apply BitVec.eq_of_toNat_eq
      rw [Nat.add_zero, BitVec.toNat_ofNat, ← fld, fld_eq]
    have hrest : v.toNat / 2 ^ (8 * o) / 256 = v.toNat / 2 ^ (8 * (o + 1)) := by
      rw [Nat.div_div_eq_div_mul, Nat.mul_succ 8 o, Nat.pow_add]
    rw [leBytes, hrest, ih, List.range_succ_eq_map, List.map_cons, List.map_map, hbyte]
    refine congrArg (_ :: ·) (List.map_congr_left fun i _ => ?_)
    rw [Function.comp_apply, Nat.succ_eq_add_one, Nat.add_right_comm, Nat.add_assoc]

/-! ### Cells and lines without errors (07 R205) -/

/-- The byte of a cell as it stands in its line. -/
def cellByte (e : Cell) : Byte := e.1.data.extractLsb' (8 * e.2) 8

/-- No cell is of a line with changed bits. -/
def cleanCells (cs : List Cell) : Prop := ∀ e ∈ cs, e.1.flips = 0

theorem wordErr_of_flips {x : Line} (h : x.flips = 0) (w free : Nat) : x.wordErr w free = 0 := by
  simp [Line.wordErr, Line.wordFlips, h]

theorem packWord_clean {cs : List Cell} (h : cleanCells cs) (free : Nat) : packWord free cs = (leNat (cs.map cellByte), 0, 0) := by
  cases cs with
  | nil => rfl
  | cons e l =>
    obtain ⟨x, o⟩ := e
    have hx : x.flips = 0 := h (x, o) (List.mem_cons_self ..)
    unfold packWord
    dsimp only
    split
    · rename_i hwhole
      rw [hwhole.2, List.map_map, hx]
      have hword := leNat_map_range_extract x.data o 8
      refine Prod.ext hword.symm (Prod.ext ?_ ?_) <;> simp [fld]
    · have hvalue : ((x, o) :: l).map (fun e => (e.1.value free).extractLsb' (8 * e.2) 8) = ((x, o) :: l).map cellByte :=
        List.map_congr_left fun e he => by rw [value_of_flips (h e he), cellByte]
      have herr : ¬(((x, o) :: l).any fun e => e.1.wordErr (e.2 / 8) free == 2) = true := by
        rw [List.any_eq_true]
        rintro ⟨e, he, htwo⟩
        rw [wordErr_of_flips (h e he)] at htwo
        exact absurd htwo (by decide)
      rw [hvalue, if_neg herr]

theorem cleanCells.sublist {cs ds : List Cell} (h : cleanCells cs) (hs : ∀ e ∈ ds, e ∈ cs) : cleanCells ds := fun e he => h e (hs e he)

theorem foldr_zero {α : Type} (c : Nat) (l : List α) : l.foldr (fun _ acc => 0 + c * acc) 0 = 0 := by
  induction l with
  | nil => rfl
  | cons x l ih => rw [List.foldr_cons, ih, Nat.mul_zero]

/-- A line of 64 cells without errors holds their bytes. -/
theorem packLine_clean {cs : List Cell} (h : cleanCells cs) (hlen : cs.length = 64) (free : Nat) :
    packLine free cs = { data := BitVec.ofNat 512 (leNat (cs.map cellByte)) } := by
  have hwords : ((List.range 8).map fun w => packWord free ((cs.drop (8 * w)).take 8)) =
      (List.range 8).map fun w => (leNat (((cs.map cellByte).drop (8 * w)).take 8), 0, 0) :=
    List.map_congr_left fun w _ => by
      rw [packWord_clean (h.sublist fun e he => List.mem_of_mem_drop (List.mem_of_mem_take he)), List.map_take, List.map_drop]
  have hdata := foldr_words_leNat (cs.map cellByte) 8 0 (by rw [List.length_map, hlen])
  simp only [Nat.zero_add, Nat.mul_zero, List.drop_zero] at hdata
  rw [List.take_of_length_le (by rw [List.length_map, hlen])] at hdata
  rw [List.foldr_map] at hdata
  unfold packLine
  dsimp only
  rw [hwords]
  simp only [List.foldr_map]
  rw [hdata, foldr_zero, foldr_zero, Nat.mul_zero]
  rfl

theorem cellByte_packLine {cs : List Cell} (h : cleanCells cs) (hlen : cs.length = 64) (free : Nat) {j : Nat} (hj : j < 64) :
    cellByte (packLine free cs, j) = cellByte (cs[j]'(by omega)) := by
  rw [packLine_clean h hlen, cellByte, extract_ofNat _ _ (by omega), ofNat_leNat_div (by simpa [hlen] using hj), List.getElem_map]

theorem lineCells_clean {x : Line} (h : x.flips = 0) : cleanCells (lineCells x) := by
  intro e he
  obtain ⟨i, -, rfl⟩ := List.mem_map.1 he
  exact h

/-- The cells a run leaves in a line: its own where it reaches, the old ones elsewhere. -/
def runCell (old : Line) (r : Nat × Nat) (cs : List Cell) (a : Nat) : Cell :=
  if r.1 ≤ a ∧ a < r.1 + r.2 then cs.getD (a - r.1) ({}, 0) else (old, a % 64)

theorem runCell_clean {old : Line} (hold : old.flips = 0) {cs : List Cell} (hcs : cleanCells cs) (r : Nat × Nat) (a : Nat) :
    (runCell old r cs a).1.flips = 0 := by
  unfold runCell
  split
  · rw [List.getD_eq_getElem?_getD]
    cases hget : cs[a - r.1]? with
    | none => rfl
    | some e => exact hcs e (List.mem_of_getElem? hget)
  · exact hold

theorem runLine_eq (free : Nat) (old : Line) (r : Nat × Nat) (cs : List Cell) (ln : Nat) :
    runLine free old r cs ln = packLine free ((List.range 64).map fun j => runCell old r cs (64 * ln + j)) := by
  refine congrArg (packLine free) (List.map_congr_left fun j hj => ?_)
  have hj : j < 64 := List.mem_range.1 hj
  have hmod : (64 * ln + j) % 64 = j := by omega
  have hold : (lineCells old).getD j ({}, 0) = (old, j) := by
    rw [lineCells, List.getD_eq_getElem _ _ (by rwa [List.length_map, List.length_range]), List.getElem_map, List.getElem_range]
  rw [hold, runCell, hmod]

section
variable {old : Line} (hold : old.flips = 0) {cs : List Cell} (hcs : cleanCells cs) (r : Nat × Nat) (free : Nat)
include hold hcs

theorem runCells_clean (ln : Nat) : cleanCells ((List.range 64).map fun j => runCell old r cs (64 * ln + j)) := by
  intro e he
  obtain ⟨j, -, rfl⟩ := List.mem_map.1 he
  exact runCell_clean hold hcs r _

theorem runLine_flips (ln : Nat) : (runLine free old r cs ln).flips = 0 := by
  rw [runLine_eq, packLine_clean (runCells_clean hold hcs r ln) (by simp)]

theorem cellByte_runLine (a : Nat) : cellByte (runLine free old r cs (a / 64), a % 64) = cellByte (runCell old r cs a) := by
  have hlt : a % 64 < 64 := Nat.mod_lt _ (by decide)
  rw [runLine_eq, cellByte_packLine (runCells_clean hold hcs r _) (by simp) free hlt]
  rw [List.getElem_map, List.getElem_range, Nat.div_add_mod]

end

/-! ### Runs of bytes in a page (07 R209) -/

/-- A byte of a page as it stands in memory. -/
def CtxDie.pageByte (c : CtxDie) (p o : Nat) : Byte := cellByte (mget {} c.mem (lineKey p (o / 64)), o % 64)

theorem CtxDie.clean.byte {c : CtxDie} (h : c.clean) (free p o : Nat) : c.byte free p o = c.pageByte p o := by
  rw [CtxDie.byte, value_of_flips (h.flips _)]
  rfl

theorem lineKey_inj {p i j : Nat} (h : lineKey p i = lineKey p j) : i = j := Nat.add_left_cancel h

/-- One line of a run is written. -/
def CtxDie.writeRunLine (c : CtxDie) (free p : Nat) (r : Nat × Nat) (cs : List Cell) (ln : Nat) : CtxDie :=
  { c with mem := mset {} c.mem (lineKey p ln) (runLine free (mget {} c.mem (lineKey p ln)) r cs ln) }

/-- The first `n` lines of a run are written. -/
def CtxDie.writeRunLines (c : CtxDie) (free p : Nat) (r : Nat × Nat) (cs : List Cell) (n : Nat) : CtxDie :=
  (List.range n).foldl (fun c i => c.writeRunLine free p r cs (r.1 / 64 + i)) c

/-- The number of lines a run lies in. -/
def runLines (r : Nat × Nat) : Nat := (r.1 + r.2 + 63) / 64 - r.1 / 64

theorem writeRuns_cons (c : CtxDie) (free p : Nat) (r : Nat × Nat) (l : List (Nat × Nat)) (cs : List Cell) :
    c.writeRuns free p (r :: l) cs = (c.writeRunLines free p r cs (runLines r)).writeRuns free p l (cs.drop r.2) := rfl

theorem writeRunLines_succ (c : CtxDie) (free p : Nat) (r : Nat × Nat) (cs : List Cell) (n : Nat) :
    c.writeRunLines free p r cs (n + 1) = (c.writeRunLines free p r cs n).writeRunLine free p r cs (r.1 / 64 + n) := by
  rw [CtxDie.writeRunLines, List.range_succ, List.foldl_append]
  rfl

theorem writeRunLines_line (c : CtxDie) (free p : Nat) (r : Nat × Nat) (cs : List Cell) (n ln : Nat) :
    mget {} (c.writeRunLines free p r cs n).mem (lineKey p ln) =
      if r.1 / 64 ≤ ln ∧ ln < r.1 / 64 + n then runLine free (mget {} c.mem (lineKey p ln)) r cs ln else mget {} c.mem (lineKey p ln) := by
  induction n with
  | zero => exact (if_neg (by omega)).symm
  | succ n ih =>
    rw [writeRunLines_succ, CtxDie.writeRunLine, mget_mset]
    by_cases hln : ln = r.1 / 64 + n
    · subst hln
      rw [if_pos rfl, ih, if_neg (by omega), if_pos (by omega)]
    · rw [if_neg (mt lineKey_inj hln), ih]
      exact if_congr (by omega) rfl rfl

section
variable {c : CtxDie} (h : c.clean) {cs : List Cell} (hcs : cleanCells cs) (free p : Nat)
include h hcs

theorem clean_writeRunLine (r : Nat × Nat) (ln : Nat) : (c.writeRunLine free p r cs ln).clean := by
  have hline := runLine_flips (h.flips (lineKey p ln)) hcs r free ln
  unfold CtxDie.clean CtxDie.writeRunLine
  dsimp only
  generalize runLine free (mget {} c.mem (lineKey p ln)) r cs ln = x at *
  exact h.mset hline (lineKey p ln)

theorem clean_writeRunLines (r : Nat × Nat) (n : Nat) : (c.writeRunLines free p r cs n).clean := by
  induction n with
  | zero => exact h
  | succ n ih =>
    rw [writeRunLines_succ]
    exact clean_writeRunLine ih hcs free p r _

theorem clean_writeRuns (l : List (Nat × Nat)) : (c.writeRuns free p l cs).clean := by
  induction l generalizing c cs with
  | nil => exact h
  | cons r l ih => exact ih (clean_writeRunLines h hcs free p r _) (hcs.sublist fun e he => List.mem_of_mem_drop he)

/-- A run written holds the cells' bytes and leaves every other byte of the page. -/
theorem pageByte_writeRunLines (r : Nat × Nat) (o : Nat) : (c.writeRunLines free p r cs (runLines r)).pageByte p o =
    if r.1 ≤ o ∧ o < r.1 + r.2 then cellByte (cs.getD (o - r.1) ({}, 0)) else c.pageByte p o := by
  unfold CtxDie.pageByte
  rw [writeRunLines_line]
  have hcell := cellByte_runLine (h.flips (lineKey p (o / 64))) hcs r free o
  unfold runCell at hcell
  split
  · rw [hcell]
    split <;> rfl
  · rename_i hout
    rw [if_neg]
    unfold runLines at hout
    omega

theorem pageByte_writeRuns_outside (l : List (Nat × Nat)) {o : Nat} (ho : ∀ r ∈ l, ¬(r.1 ≤ o ∧ o < r.1 + r.2)) :
    (c.writeRuns free p l cs).pageByte p o = c.pageByte p o := by
  induction l generalizing c cs with
  | nil => rfl
  | cons r l ih =>
    obtain ⟨hr, hl⟩ := List.forall_mem_cons.1 ho
    rw [writeRuns_cons, ih (clean_writeRunLines h hcs free p r _) (hcs.sublist fun e he => List.mem_of_mem_drop he) hl,
      pageByte_writeRunLines h hcs, if_neg hr]

omit hcs in
theorem runBytes_clean (l : List (Nat × Nat)) :
    c.runBytes free p l = l.flatMap fun r => (List.range r.2).map fun i => c.pageByte p (r.1 + i) := by
  simp only [CtxDie.runBytes, h.byte]

/-- Runs that follow each other read back as they were written. -/
theorem runBytes_writeRuns {l : List (Nat × Nat)} (hl : l.Pairwise fun a b => a.1 + a.2 ≤ b.1) (hlen : cs.length = (l.map (·.2)).sum) :
    (c.writeRuns free p l cs).runBytes free p l = cs.map cellByte := by
  induction l generalizing c cs with
  | nil =>
    obtain rfl : cs = [] := List.eq_nil_of_length_eq_zero hlen
    rfl
  | cons r l ih =>
    rw [List.map_cons, List.sum_cons] at hlen
    obtain ⟨hafter, hl⟩ := List.pairwise_cons.1 hl
    have hclean := clean_writeRunLines h hcs free p r (runLines r)
    have hdrop : cleanCells (cs.drop r.2) := hcs.sublist fun e he => List.mem_of_mem_drop he
    have hrest := ih hclean hdrop hl (by rw [List.length_drop]; omega)
    rw [runBytes_clean (clean_writeRuns hclean hdrop free p l)] at hrest
    rw [writeRuns_cons, runBytes_clean (clean_writeRuns hclean hdrop free p l), List.flatMap_cons, hrest, ← List.take_append_drop r.2 (cs.map cellByte),
      ← List.map_drop]
    refine congrArg (· ++ _) (List.ext_getElem (by simp; omega) fun i hi _ => ?_)
    have hi : i < r.2 := by simpa using hi
    have hin : r.1 ≤ r.1 + i ∧ r.1 + i < r.1 + r.2 := by omega
    have hout (r' : Nat × Nat) (hr : r' ∈ l) : ¬(r'.1 ≤ r.1 + i ∧ r.1 + i < r'.1 + r'.2) := by
      have := hafter r' hr
      omega
    rw [List.getElem_map, List.getElem_range, pageByte_writeRuns_outside hclean hdrop free p l hout, pageByte_writeRunLines h hcs, if_pos hin,
      List.getElem_take, List.getElem_map, Nat.add_sub_cancel_left, List.getD_eq_getElem _ _ (by omega)]

end

/-- The bytes of a request's data lines are those of their cells. -/
theorem bytes_clean {r : CtxReq} (hlines : ∀ x ∈ r.lines, x.flips = 0) (free : Nat) : r.bytes free = (r.lines.flatMap lineCells).map cellByte := by
  unfold CtxReq.bytes
  rw [List.map_flatMap]
  refine List.flatMap_congr fun x hx => ?_
  have hbytes := leBytes_toNat x.data 0 64
  rw [Nat.mul_zero, Nat.pow_zero, Nat.div_one] at hbytes
  rw [value_of_flips (hlines x hx), hbytes, lineCells, List.map_map]
  exact List.map_congr_left fun i _ => by rw [Nat.zero_add]; rfl

theorem runBytes_congr {c d : CtxDie} (h : c.mem = d.mem) (free p : Nat) (l : List (Nat × Nat)) : c.runBytes free p l = d.runBytes free p l := by
  unfold CtxDie.runBytes CtxDie.byte
  rw [h]

/-! ### The place of a position (07 R209) -/

variable {q : SeqEnt} (hformat : q.format < 3) (hdsel : q.dsel < 3)
include hformat hdsel

omit hformat in
theorem headDim_cases : headDim q.dsel = 64 ∨ headDim q.dsel = 128 ∨ headDim q.dsel = 256 := by
  unfold headDim
  interval_cases q.dsel <;> simp

/-- K and V of a position fill its bytes. -/
theorem sum_posRuns (t : Nat) : ((posRuns q.format (headDim q.dsel) t).map (·.2)).sum = posBytes q.format (headDim q.dsel) := by
  unfold posRuns halfRuns posBytes
  obtain hd | hd | hd := headDim_cases hdsel <;> interval_cases q.format <;> simp [hd]

/-- The runs of a position follow each other in its page. -/
theorem posRuns_ordered (p : Nat) : (posRuns q.format (headDim q.dsel) (p % q.per)).Pairwise fun a b => a.1 + a.2 ≤ b.1 := by
  have hlt : p % q.per < q.per := Nat.mod_lt _ (by
    unfold SeqEnt.per posPerPage
    obtain hd | hd | hd := headDim_cases hdsel <;> interval_cases q.format <;> simp [hd])
  generalize p % q.per = t at *
  unfold SeqEnt.per posPerPage at hlt
  unfold posRuns halfRuns
  obtain hd | hd | hd := headDim_cases hdsel <;> interval_cases q.format <;> simp [hd] at hlt ⊢ <;> omega

end Sys2Proof.Machine
end

section
/-! SUPPORT. Context dies: requests on a sequence (07 R208–R213, R216, R219–R223). -/

namespace Sys2Proof.Machine

variable {s u v w : State} {k : Nat} {r : CtxReq} {q : SeqEnt} {iss : List Nat}

/-! ### Starting on a sequence (07 R216) -/

/-- A request on a sequence in order does its own work on what it finds. -/
theorem runUnit_withSeq {unit op : Nat} (h : s.nextOp k unit op r) (hvalid : (s.mapOf k r).valid = true) (hq : s.seqOf k (s.mapOf k r).seq = q)
    (hfault : q.fault = false) (t : Nat) (f : State → CtxReq → Nat → SeqEnt → State) :
    (s.tick t).runUnit k unit op iss [] (fun s r => s.withSeq k r (f s r)) = f (s.taken t k r) (r.started iss) (s.mapOf k r).seq q := by
  have hsame := (taken_sameStore s t k r).roster
  have hmap : (s.taken t k r).mapOf k (r.started iss) = s.mapOf k r := hsame.mapOf r
  have hseq : (s.taken t k r).seqOf k (s.mapOf k r).seq = q := (hsame.seqOf _).trans hq
  rw [runUnit_nextOp h, withSeq_valid (by rw [hmap, hvalid]) (by rw [hmap, hseq, hfault]), hmap, hseq]

/-! ### The pages of positions (07 R207, R208, R210) -/

theorem translate_page {tenant lpn ppn : Nat} {write : Bool} (h : s.translate k tenant lpn write = .page ppn) :
    pteValid (s.readPte k tenant lpn) = true ∧ ptePpn (s.readPte k tenant lpn) = ppn ∧ ppnUsable k ppn = true ∧
      s.stackUp k (ppnStack ppn) = true := by
  unfold State.translate at h
  dsimp only at h
  split_ifs at h with hlen hmapped husable hwrite hup
  cases h
  simp only [Bool.not_eq_true'] at hmapped husable hup
  exact ⟨by simpa using hmapped, rfl, by simpa using husable, by simpa using hup⟩

/-- A page that is mapped and gives no permission error is on a stack in service. -/
theorem stackUp_of_not_perm {tenant lpn : Nat} {write : Bool} (h : ∀ x, s.translate k tenant lpn write ≠ .perm x)
    (hvalid : pteValid (s.readPte k tenant lpn) = true) : s.stackUp k (ppnStack (ptePpn (s.readPte k tenant lpn))) = true := by
  cases htrans : s.translate k tenant lpn write with
  | page ppn =>
    obtain ⟨-, rfl, -, hup⟩ := translate_page htrans
    exact hup
  | perm x => exact absurd htrans (h x)
  | unmapped =>
    unfold State.translate at htrans
    dsimp only at htrans
    split_ifs at htrans with hlen hmapped husable hwrite hup
    rw [hvalid] at hmapped
    exact absurd hmapped (by decide)

theorem transPos_translate {p : Nat} {write : Bool} (h : ∀ x, s.transPos k q r p write ≠ .perm x) :
    s.transPos k q r p write = s.translate k q.tenant (posLpn q r p) write := by
  unfold State.transPos at *
  split
  · rename_i hout
    rw [if_pos hout] at h
    exact absurd rfl (h 0)
  · rfl

theorem firstPerm_none {ps : List Nat} {write : Bool} (h : s.firstPerm k q r ps write = none) {p : Nat} (hp : p ∈ ps) (x : Nat) :
    s.transPos k q r p write ≠ .perm x := by
  intro hperm
  have hnone := List.findSome?_eq_none_iff.1 h p hp
  rw [hperm] at hnone
  exact nomatch hnone

/-! ### Entries that a request writes (07 R210) -/

theorem clearFlips_zero (mask : BitVec 64) : clearFlips 0 mask = 0 := by
  have hbit (i : Nat) : (0 : BitVec 576).getLsbD i = false := BitVec.getLsbD_zero
  unfold clearFlips
  simp only [hbit, Bool.false_and, Bool.false_eq_true, if_false, foldr_zero]
  rfl

theorem modCtx_id (s : State) (k : Nat) : s.modCtx k id = s := by
  unfold State.modCtx State.setCtx State.ctx
  split <;> rfl

/-- The CMM's write of an entry keeps a die without errors so, and changes nothing but its lines. -/
theorem cmmPte_clean (h : (s.ctx k).clean) (tenant lpn : Nat) (e : BitVec 32) :
    ∃ f : CtxDie → CtxDie, s.cmmPte k tenant lpn e = (s.modCtx k f).setPte tenant lpn e ∧ (f (s.ctx k)).clean ∧
      (f (s.ctx k)).roster = (s.ctx k).roster ∧ (f (s.ctx k)).ring = (s.ctx k).ring := by
  unfold State.cmmPte
  cases s.pteKey k tenant lpn with
  | none => exact ⟨id, by rw [modCtx_id], h, rfl, rfl⟩
  | some key =>
    refine ⟨_, rfl, h.mset ?_ key, rfl, rfl⟩
    dsimp only
    rw [h.flips, clearFlips_zero]

theorem setPte_sameRoster (s : State) (tenant lpn : Nat) (e : BitVec 32) (k : Nat) : (s.setPte tenant lpn e).SameRoster s k :=
  ⟨rfl, rfl, rfl, rfl, rfl⟩

theorem pte_setPte (s : State) (tenant l : Nat) (e : BitVec 32) (j : Nat) :
    (s.setPte tenant l e).pte tenant j = if j = l then e else s.pte tenant j :=
  (mget_mset 0 s.pages _ e _).trans (if_congr Nat.add_left_cancel_iff rfl rfl)

theorem pte_modCtx (s : State) (k : Nat) (f : CtxDie → CtxDie) (tenant l : Nat) : (s.modCtx k f).pte tenant l = s.pte tenant l := by
  rw [State.pte, modCtx_same s k f (x := .pages) (by decide), ← State.pte]

/-- A new entry names its page. -/
theorem ppnStack_mkPte (p : Nat) : ppnStack (ptePpn (mkPte p false)) = ppnStack p := by
  unfold ppnStack ptePpn mkPte
  rw [fld_eq, BitVec.toNat_ofNat]
  norm_num
  omega

/-! ### Positions that can be written (07 R210, R212) -/

/-- The positions `ps` of a sequence can be written: no line has an error, the ring holds `n` pages, and these and the pages mapped there are
on stacks in service. -/
structure State.Roomy (s : State) (k : Nat) (q : SeqEnt) (r : CtxReq) (ps : List Nat) (n : Nat) : Prop where
  clean : (s.ctx k).clean
  ring : n ≤ (s.ctx k).ring.length
  fresh : ∀ p ∈ (s.ctx k).ring, s.stackUp k (ppnStack p) = true
  mapped : ∀ p ∈ ps, pteValid (s.pte q.tenant (posLpn q r p)) = true → s.stackUp k (ppnStack (ptePpn (s.pte q.tenant (posLpn q r p)))) = true

variable {ps : List Nat} {n p : Nat}

/-- Positions that give no permission error can be written where the ring holds enough pages. -/
theorem roomy_of_firstPerm (hclean : (s.ctx k).clean) (hperm : s.firstPerm k q r ps true = none) (hring : n ≤ (s.ctx k).ring.length)
    (hfresh : ∀ p ∈ (s.ctx k).ring, s.stackUp k (ppnStack p) = true) : s.Roomy k q r ps n := by
  refine ⟨hclean, hring, hfresh, fun p hp hvalid => ?_⟩
  have hnot := firstPerm_none hperm hp
  have htrans (x : Nat) : s.translate k q.tenant (posLpn q r p) true ≠ .perm x := transPos_translate hnot ▸ hnot x
  have hup := stackUp_of_not_perm htrans
  rw [hclean.readPte] at hup
  exact hup hvalid

theorem State.SameStore.roomy (h : u.SameStore s k) (hroom : s.Roomy k q r ps n) : u.Roomy k q r ps n := by
  refine ⟨hroom.clean.of_mem h.mem, h.ring ▸ hroom.ring, fun p hp => ?_, fun p hp hvalid => ?_⟩
  · exact (h.roster.stackUp _).trans (hroom.fresh p (h.ring ▸ hp))
  · rw [h.pte] at hvalid ⊢
    exact (h.roster.stackUp _).trans (hroom.mapped p hp hvalid)

/-- A page for a position is at hand, mapped or from the ring. -/
theorem State.Roomy.pageFor (h : s.Roomy k q r ps (n + 1)) (hp : p ∈ ps) : ∃ u ppn, s.pageFor k q.tenant (posLpn q r p) = some (u, ppn) ∧
    u.stackUp k (ppnStack ppn) = true ∧ u.Roomy k q r ps n ∧ u.SameRoster s k := by
  obtain ⟨hclean, hring, hfresh, hmapped⟩ := h
  unfold State.pageFor
  dsimp only
  rw [hclean.readPte]
  by_cases hvalid : pteValid (s.pte q.tenant (posLpn q r p)) = true
  · exact ⟨s, _, if_pos hvalid, hmapped p hp hvalid, ⟨hclean, by omega, hfresh, hmapped⟩, .refl s k⟩
  · rw [if_neg hvalid]
    cases hpages : (s.ctx k).ring with
    | nil => rw [hpages] at hring; exact absurd hring (Nat.not_succ_le_zero n)
    | cons ppn l =>
      let v := s.modCtx k fun c => { c with ring := l }
      have hvctx : v.ctx k = { s.ctx k with ring := l } := ctx_modCtx ..
      obtain ⟨f, hf, hfclean, hfroster, hfring⟩ := cmmPte_clean (s := v) (k := k) (by rw [hvctx]; exact hclean) q.tenant (posLpn q r p) (mkPte ppn false)
      let u := (v.modCtx k f).setPte q.tenant (posLpn q r p) (mkPte ppn false)
      have huctx : u.ctx k = f (v.ctx k) := ctx_modCtx v k f
      have hsame : u.SameRoster s k := (setPte_sameRoster ..).trans ((modCtx_sameRoster v k hfroster).trans (modCtx_sameRoster s k rfl))
      have hup := hfresh ppn (hpages ▸ List.mem_cons_self ..)
      refine ⟨u, ppn, by rw [State.allocPage, hpages]; exact congrArg (fun x => some (x, ppn)) hf, by rwa [hsame.stackUp], ⟨?_, ?_, ?_, ?_⟩, hsame⟩
      · rwa [huctx]
      · rw [huctx, hfring, hvctx]
        rw [hpages] at hring
        exact Nat.le_of_succ_le_succ hring
      · intro p' hp'
        rw [huctx, hfring, hvctx] at hp'
        rw [hsame.stackUp]
        exact hfresh p' (hpages ▸ List.mem_cons_of_mem ppn hp')
      · intro p' hp' hvalid'
        rw [hsame.stackUp]
        rw [pte_setPte] at hvalid' ⊢
        split
        · rwa [ppnStack_mkPte]
        · rename_i hne
          rw [if_neg hne] at hvalid'
          rw [pte_modCtx, pte_modCtx] at hvalid' ⊢
          exact hmapped p' hp' hvalid'

/-! ### Writing positions (07 R210, R222) -/

/-- A die apart from its lines. -/
def CtxDie.emptied (c : CtxDie) : CtxDie := { c with mem := [] }

theorem emptied_mem (c : CtxDie) (m : SMap Line) : ({ c with mem := m } : CtxDie).emptied = c.emptied := rfl

theorem emptied_writeRunLines (c : CtxDie) (free p : Nat) (r : Nat × Nat) (cs : List Cell) (n : Nat) :
    (c.writeRunLines free p r cs n).emptied = c.emptied := by
  induction n with
  | zero => rfl
  | succ n ih =>
    rw [writeRunLines_succ, CtxDie.writeRunLine, emptied_mem, ih]

theorem emptied_writeRuns (c : CtxDie) (free p : Nat) (l : List (Nat × Nat)) (cs : List Cell) : (c.writeRuns free p l cs).emptied = c.emptied := by
  induction l generalizing c cs with
  | nil => rfl
  | cons r l ih => rw [writeRuns_cons, ih, emptied_writeRunLines]

/-- Bytes written to a page leave the die's tables and ring as they are. -/
theorem writeRuns_sameRoster (s : State) (k free p : Nat) (l : List (Nat × Nat)) (cs : List Cell) :
    (s.modCtx k fun c => c.writeRuns free p l cs).SameRoster s k :=
  modCtx_sameRoster s k (congrArg CtxDie.roster (emptied_writeRuns (s.ctx k) free p l cs) :)

theorem ring_writeRuns (c : CtxDie) (free p : Nat) (l : List (Nat × Nat)) (cs : List Cell) : (c.writeRuns free p l cs).ring = c.ring :=
  (congrArg CtxDie.ring (emptied_writeRuns c free p l cs) :)

theorem State.Roomy.writeRuns (h : s.Roomy k q r ps n) (free ppn : Nat) (l : List (Nat × Nat)) {cs : List Cell} (hcs : cleanCells cs) :
    (s.modCtx k fun c => c.writeRuns free ppn l cs).Roomy k q r ps n := by
  have hsame := writeRuns_sameRoster s k free ppn l cs
  refine ⟨?_, ?_, ?_, ?_⟩
  · rw [ctx_modCtx]
    exact clean_writeRuns h.clean hcs free ppn l
  · rw [ctx_modCtx, ring_writeRuns]
    exact h.ring
  · rw [ctx_modCtx, ring_writeRuns]
    exact fun p hp => (hsame.stackUp _).trans (h.fresh p hp)
  · intro p hp
    rw [pte_modCtx, hsame.stackUp]
    exact h.mapped p hp

/-- Where there is room all positions are written. -/
theorem State.Roomy.writePositions {l : List (List Cell)} (hl : ∀ b ∈ l, cleanCells b) (seq : Nat) {p : Nat}
    (hps : ∀ i < l.length, p + i ∈ ps) (h : s.Roomy k q r ps l.length) :
    ∃ w, s.writePositions k seq q r p l = (w, none) ∧ (w.ctx k).clean ∧ w.SameRoster s k := by
  induction l generalizing s p with
  | nil => exact ⟨s, rfl, h.clean, .refl s k⟩
  | cons b l ih =>
    obtain ⟨hb, hl⟩ := List.forall_mem_cons.1 hl
    obtain ⟨u, ppn, hpage, hup, hroom, hsame⟩ := h.pageFor (hps 0 (Nat.succ_pos _))
    have hnext (i : Nat) (hi : i < l.length) : p + 1 + i ∈ ps := by
      have hmem := hps (i + 1) (Nat.succ_lt_succ hi)
      rwa [← Nat.add_assoc, Nat.add_right_comm] at hmem
    obtain ⟨w, hw, hclean, hsame'⟩ := ih hl hnext (hroom.writeRuns u.freeVal ppn (posRuns q.format (headDim q.dsel) (p % q.per)) hb)
    refine ⟨w, ?_, hclean, hsame'.trans ((writeRuns_sameRoster ..).trans hsame)⟩
    have hpage' : s.pageFor k q.tenant (posLpn q r p) = some (u, ppn) := hpage
    rw [State.writePositions, hpage']
    dsimp only
    rw [hup]
    exact hw

/-- A position whose page is mapped is written there. -/
theorem writePositions_mapped {ppn : Nat} (h : s.transPos k q r p true = .page ppn) (seq : Nat) (b : List Cell) :
    s.writePositions k seq q r p [b] =
      (s.modCtx k fun c => c.writeRuns s.freeVal ppn (posRuns q.format (headDim q.dsel) (p % q.per)) b, none) := by
  have hnot (x : Nat) : s.transPos k q r p true ≠ .perm x := fun hx => nomatch h.symm.trans hx
  obtain ⟨hmapped, hppn, -, hup⟩ := translate_page ((transPos_translate hnot).symm.trans h)
  have hpage : s.pageFor k q.tenant (posLpn q r p) = some (s, ppn) := by
    rw [State.pageFor, hppn]
    exact if_pos hmapped
  rw [State.writePositions, hpage]
  dsimp only
  rw [hup]
  rfl

end Sys2Proof.Machine
end

section
/-! SUPPORT. Context dies: the length of replies, and the outcomes of requests on a sequence (07 R212, R213, R219, R221–R223). -/

namespace Sys2Proof.Machine

variable {s : State} {k : Nat} {r : CtxReq} {q : SeqEnt}

/-! ### Lengths (07 R219, R221) -/

@[simp] theorem length_bytesLines (bs : List Byte) : (bytesLines bs).length = (bs.length + 63) / 64 := by simp [bytesLines]

@[simp] theorem length_packLines (free : Nat) (cs : List Cell) : (packLines free cs).length = (cs.length + 63) / 64 := by simp [packLines]

@[simp] theorem length_runCells (c : CtxDie) (p : Nat) (l : List (Nat × Nat)) : (c.runCells p l).length = (l.map (·.2)).sum := by
  simp [CtxDie.runCells, List.length_flatMap]

theorem length_flatMap_const {α β : Type} {f : α → List β} {n : Nat} {l : List α} (h : ∀ a ∈ l, (f a).length = n) :
    (l.flatMap f).length = l.length * n := by
  rw [List.length_flatMap, List.map_congr_left h, List.map_const', List.sum_replicate, smul_eq_mul]

theorem length_posKV (s : State) (k : Nat) (q : SeqEnt) (r : CtxReq) (p : Nat) : (s.posKV k q r p).2.length = headDim q.dsel := by
  unfold State.posKV
  dsimp only
  split <;> simp [halfNums]

theorem length_block_acc {x : Soft} {d : Nat} {l : List (Num × List Num)} (hx : x.acc.length = d) (hl : ∀ e ∈ l, e.2.length = d) :
    (x.block l).acc.length = d := by
  unfold Soft.block
  refine List.foldlRecOn (motive := fun y : Soft => y.acc.length = d) _ _ (by simpa using hx) fun y hy e he => ?_
  simp [hy, hl e he]

theorem length_softBlocks_acc {d : Nat} (n : Nat) {x : Soft} {l : List (Num × List Num)} (hx : x.acc.length = d) (hl : ∀ e ∈ l, e.2.length = d) :
    (softBlocks n x l).acc.length = d := by
  induction n generalizing x l with
  | zero => exact hx
  | succ n ih =>
    unfold softBlocks
    split
    · exact hx
    · exact ih (length_block_acc hx fun e he => hl e (List.mem_of_mem_take he)) fun e he => hl e (List.mem_of_mem_drop he)

/-- The output of a query head has an element for each of its values. -/
theorem length_attendHead (qv : List Num) (scale : Num) {kv : List (List Num × List Num)} {d : Nat} (h : ∀ e ∈ kv, e.2.length = d) :
    (attendHead qv scale kv d).length = d := by
  unfold attendHead
  rw [List.length_map]
  refine length_softBlocks_acc _ (by simp) fun e he => ?_
  obtain ⟨a, ha, rfl⟩ := List.mem_map.1 he
  exact h a ha

/-! ### Reads (07 R212, R221, R223) -/

section
variable {t : Nat} {k : Fin 2} {r : CtxReq} {iss : List Nat} (hclean : (s.ctx k).clean) (hvalid : (s.mapOf k r).valid = true)
  (hq : s.seqOf k (s.mapOf k r).seq = q) (hfault : q.fault = false)

section
include hclean hvalid hq hfault

theorem attend_answers {e : Fin 16} (h : s.nextOp k e 0x01 r) (hvis : r.vis ≤ q.window)
    (hreads : s.firstPerm k q r (List.range (q.commit + r.vis)) false = none) : Next (exec (.attend t k e iss []) s) fun u =>
      u.replied s k r 0 q.commit 0 ((r.g * headDim q.dsel * (if r.f 40 1 = 1 then 4 else 2) + 63) / 64) ∧ (u.ctx k).mem = (s.ctx k).mem := by
  rw [exec_attend, execAttend]
  refine next_of_eq (congrArg _ (runUnit_withSeq h hvalid hq hfault t _)) ?_
  simp only [started_vis, firstPerm_started, (taken_sameStore s t k r).firstPerm, hreads, if_neg (Nat.not_lt.2 hvis)]
  refine taken_readReply h hclean t iss _ _ ?_
  rw [length_bytesLines, length_flatMap_const (n := if r.f 40 1 = 1 then 4 else 2) fun x _ => ?_]
  · rw [length_flatMap_const (n := headDim q.dsel) fun g _ => length_attendHead _ _ fun e he => ?_]
    · rw [List.length_range]
      rfl
    · obtain ⟨p, -, rfl⟩ := List.mem_map.1 he
      exact length_posKV ..
  · rw [started_f]
    split <;> exact length_leBytes ..

theorem kvRead_answers (hformat : q.format < 3) (hdsel : q.dsel < 3) (h : s.nextOp k 16 0x10 r) (hvis : r.vis ≤ q.window)
    (hin : r.pos + r.count ≤ q.commit + r.vis) (hreads : s.firstPerm k q r ((List.range r.count).map (r.pos + ·)) false = none) :
    Next (exec (.kvRead t k iss []) s) fun u =>
      u.replied s k r 0 q.commit 0 ((r.count * posBytes q.format (headDim q.dsel) + 63) / 64) ∧ (u.ctx k).mem = (s.ctx k).mem := by
  rw [exec_kvRead, execKvRead]
  refine next_of_eq (congrArg _ (runUnit_withSeq h hvalid hq hfault t _)) ?_
  have hshown : ¬q.window < (r.started iss).vis := Nat.not_lt.2 hvis
  have hseen : (((List.range (r.started iss).count).map ((r.started iss).pos + ·)).find? fun p => decide (q.commit + (r.started iss).vis ≤ p)) =
      none := by
    refine List.find?_eq_none.2 fun p hp => ?_
    obtain ⟨i, hi, rfl⟩ := List.mem_map.1 hp
    have hi : i < r.count := List.mem_range.1 hi
    have hlt : ¬q.commit + r.vis ≤ r.pos + i := by omega
    exact fun hge => hlt (of_decide_eq_true hge)
  have hperm : (s.taken t k r).firstPerm k q (r.started iss) ((List.range (r.started iss).count).map ((r.started iss).pos + ·)) false = none :=
    ((taken_sameStore s t k r).firstPerm ..).trans hreads
  dsimp only
  rw [if_neg hshown, hseen]
  dsimp only
  rw [hperm]
  refine taken_readReply h hclean t iss _ _ ?_
  rw [length_packLines, length_flatMap_const (n := posBytes q.format (headDim q.dsel)) fun p _ => ?_]
  · rw [List.length_map, List.length_range, started_count]
  · split
    · rw [length_runCells, sum_posRuns hformat hdsel]
    · exact List.length_replicate

end

/-- A slot that is not valid is answered PERM (07 R216). -/
theorem kvRead_invalid (h : s.nextOp k 16 0x10 r) (hinvalid : (s.mapOf k r).valid = false) :
    Next (exec (.kvRead t k iss []) s) fun u =>
      u.replied s k r 2 0 0 (s.replyLines k r) ∧ (u.ctx k).permErr = true ∧ (u.ctx k).mem = (s.ctx k).mem := by
  rw [exec_kvRead, execKvRead]
  refine next_of_eq (congrArg _ (runUnit_nextOp h t iss _)) ?_
  have hsame := taken_sameStore s t k r
  have hmap : (s.taken t k r).mapOf k (r.started iss) = s.mapOf k r := hsame.roster.mapOf r
  simp only [State.withSeq, hmap, hinvalid, Bool.not_false, if_true]
  refine ⟨replied_ctxPerm hsame.roster (h.replyOpen.started iss) _ _ _ _ _, ?_, ?_⟩
  · rw [ctx_ctxPerm]
  · rw [ctx_ctxPerm]
    exact hsame.mem

/-! ### Commits (07 R213) -/

/-- A commit changes the sequence's entry only. -/
def CtxDie.setSeq (c : CtxDie) (i : Nat) (q : SeqEnt) : CtxDie := { c with seqs := mset {} c.seqs i q }

include hvalid hq hfault in
theorem commitSet_answers (h : s.nextOp k 17 0x03 r) :
    Next (exec (.commitSet t k) s) fun u =>
      if q.commit ≤ r.pos ∧ r.pos ≤ q.commit + q.window then
        u.replied s k r 0 r.pos 0 0 ∧ u.seqOf k (s.mapOf k r).seq = { q with commit := r.pos } ∧ ∀ j, j ≠ (s.mapOf k r).seq → u.seqOf k j = s.seqOf k j
      else u.replied s k r 1 q.commit r.pos 0 ∧ (u.ctx k).seqs = (s.ctx k).seqs ∧ (u.ctx k).windowErr = true := by
  rw [exec_commitSet, execCommitSet]
  refine next_of_eq (congrArg _ (runUnit_withSeq h hvalid hq hfault t _)) ?_
  have hsame := (taken_sameStore s t k r).roster
  have hopen := h.replyOpen.started []
  generalize s.taken t k r = v at *
  by_cases heq : (r.started []).pos = q.commit
  · have hin : q.commit ≤ r.pos ∧ r.pos ≤ q.commit + q.window := by rw [started_pos] at heq; omega
    rw [if_pos heq, if_pos hin]
    have hsame' (j : Nat) : (v.ctxReply k (r.started []) 0 q.commit 0 []).seqOf k j = s.seqOf k j := by
      rw [State.seqOf, ctx_ctxReply, hsame.seqs]
      rfl
    rw [show r.pos = q.commit from heq]
    exact ⟨replied_ctxReply hsame.rtrs hopen (by decide) _ _ _, (hsame' _).trans hq, fun j _ => hsame' j⟩
  · by_cases hnext : q.commit < (r.started []).pos ∧ (r.started []).pos ≤ q.commit + q.window
    · have hin : q.commit ≤ r.pos ∧ r.pos ≤ q.commit + q.window := ⟨hnext.1.le, hnext.2⟩
      rw [if_neg heq, if_pos hnext, if_pos hin]
      refine ⟨replied_ctxReply ((modCtx_same v k _ (x := .rtrs) (by decide)).trans hsame.rtrs) hopen (by decide) _ _ _, ?_, fun j hj => ?_⟩
      · rw [State.seqOf, ctx_ctxReply, ctx_modCtx]
        exact mget_mset_same _ _
      · rw [State.seqOf, ctx_ctxReply, ctx_modCtx]
        refine (mget_mset_other hj _).trans ?_
        rw [hsame.seqs]
        rfl
    · have hout : ¬(q.commit ≤ r.pos ∧ r.pos ≤ q.commit + q.window) := by rw [started_pos] at heq hnext; omega
      rw [if_neg heq, if_neg hnext, if_neg hout]
      have hop : r.op = 3 := h.2.1
      have hlines : s.replyLines k r = 0 := by
        rw [State.replyLines, hop]
        rfl
      refine ⟨hlines ▸ replied_ctxWindow hsame hopen _ _ _, ?_, ?_⟩
      · rw [ctx_ctxWindow]
        exact hsame.seqs
      · rw [ctx_ctxWindow]

/-! ### Writes (07 R210, R212, R222) -/

/-- Positions inside the window, permitted and written are answered OK. -/
theorem kvStore_written {v w : State} {seq : Nat} {bs : List (List Cell)}
    (hwindow : ∀ p ∈ (List.range bs.length).map (r.pos + ·), q.commit ≤ p ∧ p < q.commit + q.window)
    (hperm : v.firstPerm k q r ((List.range bs.length).map (r.pos + ·)) true = none) (hwrite : v.writePositions k seq q r r.pos bs = (w, none)) :
    ∃ keys parts, v.kvStore k r seq q bs = (w.issue k r keys).readReply k r q.commit parts [] := by
  have hin : (((List.range bs.length).map (r.pos + ·)).find? fun p => !decide (q.commit ≤ p ∧ p < q.commit + q.window)) = none :=
    List.find?_eq_none.2 fun p hp => by simpa using hwindow p hp
  unfold State.kvStore
  dsimp only
  rw [hin]
  dsimp only
  rw [hperm]
  dsimp only
  rw [hwrite]
  exact ⟨_, _, rfl⟩

/-- What follows the writes of a request: the answer OK. -/
theorem kvStore_answers {v w : State} {seq : Nat} {bs : List (List Cell)} (hsame : w.SameRoster s k) (hclean : (w.ctx k).clean)
    (hopen : s.replyOpen k r)
    (hwindow : ∀ p ∈ (List.range bs.length).map (r.pos + ·), q.commit ≤ p ∧ p < q.commit + q.window)
    (hperm : v.firstPerm k q r ((List.range bs.length).map (r.pos + ·)) true = none) (hwrite : v.writePositions k seq q r r.pos bs = (w, none)) :
    (v.kvStore k r seq q bs).replied s k r 0 q.commit 0 0 ∧ ((v.kvStore k r seq q bs).ctx k).still = (w.ctx k).still := by
  obtain ⟨keys, parts, hstore⟩ := kvStore_written hwindow hperm hwrite
  have hissue := issue_sameStore w k r keys
  have hclean' : ((w.issue k r keys).ctx k).clean := hclean.of_mem hissue.mem
  rw [hstore]
  exact ⟨hclean'.replied_readReply (hissue.roster.trans hsame) hopen q.commit parts [], (hclean'.still_readReply ..).trans hissue.die⟩

theorem bytesCells_clean (bs : List Byte) : cleanCells (bytesCells bs) := by
  intro e he
  obtain ⟨x, hx, he⟩ := List.mem_flatMap.1 (List.mem_of_mem_take he)
  obtain ⟨i, -, rfl⟩ := List.mem_map.1 hx
  exact lineCells_clean rfl e he

/-- The first cells of a request's data lines. -/
def CtxReq.firstCells (r : CtxReq) (n : Nat) : List Cell := (r.lines.flatMap lineCells).take n

theorem firstCells_clean {r : CtxReq} (hlines : ∀ x ∈ r.lines, x.flips = 0) (n : Nat) : cleanCells (r.firstCells n) := by
  intro e he
  obtain ⟨x, hx, he⟩ := List.mem_flatMap.1 (List.mem_of_mem_take he)
  exact lineCells_clean (hlines x hx) e he

theorem firstCells_bytes {r : CtxReq} (hlines : ∀ x ∈ r.lines, x.flips = 0) (n free : Nat) :
    (r.firstCells n).map cellByte = (r.bytes free).take n := by
  rw [bytes_clean hlines, CtxReq.firstCells, List.map_take]

theorem length_firstCells {r : CtxReq} {n : Nat} (hlen : r.lines.length = (n + 63) / 64) : (r.firstCells n).length = n := by
  have hall : (r.lines.flatMap lineCells).length = r.lines.length * 64 := length_flatMap_const fun x _ => by simp [lineCells]
  rw [CtxReq.firstCells, List.length_take, hall, hlen]
  omega

include hclean hvalid hq hfault

theorem append_answers {e : Fin 16} (h : s.nextOp k e 0x02 r)
    (hwindow : ∀ p ∈ (List.range r.g).map (r.pos + ·), q.commit ≤ p ∧ p < q.commit + q.window)
    (hperm : s.firstPerm k q r ((List.range r.g).map (r.pos + ·)) true = none) (hring : r.g ≤ (s.ctx k).ring.length)
    (hfresh : ∀ p ∈ (s.ctx k).ring, s.stackUp k (ppnStack p) = true) :
    Next (exec (.append t k e iss []) s) fun u => u.replied s k r 0 q.commit 0 0 ∧ (u.ctx k).seqs = (s.ctx k).seqs := by
  rw [exec_append, execAppend]
  refine next_of_eq (congrArg _ (runUnit_withSeq h hvalid hq hfault t _)) ?_
  have hsame := taken_sameStore s t k r
  have hopen := h.replyOpen.started iss
  generalize s.taken t k r = v at *
  dsimp only
  generalize hbs : (List.range (r.started iss).g).map _ = bs
  have hlen : bs.length = r.g := by rw [← hbs, List.length_map, List.length_range, started_g]
  have hcells : ∀ b ∈ bs, cleanCells b := by
    intro b hb
    obtain ⟨i, -, rfl⟩ := List.mem_map.1 (hbs ▸ hb)
    exact bytesCells_clean _
  rw [← hlen] at hwindow hperm hring
  have hroom := hsame.roomy (roomy_of_firstPerm (r := r.started iss) hclean hperm hring hfresh)
  obtain ⟨w, hwrite, hclean', hsame'⟩ := hroom.writePositions hcells (s.mapOf k r).seq
    (p := (r.started iss).pos) fun i hi => List.mem_map.2 ⟨i, List.mem_range.2 hi, rfl⟩
  have hans := kvStore_answers (r := r.started iss) (hsame'.trans hsame.roster) hclean' hopen hwindow ((hsame.firstPerm ..).trans hperm) hwrite
  exact ⟨hans.1, (congrArg CtxDie.seqs hans.2 :).trans (hsame'.trans hsame.roster).seqs⟩

theorem kvWrite_answers {ppn : Nat} (hformat : q.format < 3) (hdsel : q.dsel < 3) (hlines : ∀ x ∈ r.lines, x.flips = 0) (h : s.nextOp k 16 0x11 r)
    (hcount : r.count = 1) (hwindow : ∀ p ∈ [r.pos], q.commit ≤ p ∧ p < q.commit + q.window) (hperm : s.firstPerm k q r [r.pos] true = none)
    (hpage : s.transPos k q r r.pos true = .page ppn) (hlen : r.lines.length = (posBytes q.format (headDim q.dsel) + 63) / 64) :
    Next (exec (.kvWrite t k iss []) s) fun u => u.replied s k r 0 q.commit 0 0 ∧
      (u.ctx k).runBytes s.freeVal ppn (posRuns q.format (headDim q.dsel) (r.pos % q.per)) =
        (r.bytes s.freeVal).take (posBytes q.format (headDim q.dsel)) := by
  rw [exec_kvWrite, execKvWrite]
  refine next_of_eq (congrArg _ (runUnit_withSeq h hvalid hq hfault t _)) ?_
  have hsame := taken_sameStore s t k r
  have hopen := h.replyOpen.started iss
  have hclean' : ((s.taken t k r).ctx k).clean := hclean.of_mem hsame.mem
  have hfree : (s.taken t k r).freeVal = s.freeVal := congrArg Config.freeNat hsame.free
  generalize s.taken t k r = v at *
  dsimp only
  generalize hn : posBytes q.format (headDim q.dsel) = n at *
  have hbs : ((List.range (r.started iss).count).map fun i => (((r.started iss).lines.flatMap lineCells).drop (n * i)).take n) = [r.firstCells n] := by
    rw [started_count, hcount]
    rfl
  rw [hbs]
  have hwrite := writePositions_mapped (r := r.started iss) ((hsame.transPos r q r.pos true).trans hpage) (s.mapOf k r).seq (r.firstCells n)
  have hcells := firstCells_clean hlines n
  generalize hruns : posRuns q.format (headDim q.dsel) (r.pos % q.per) = runs at *
  have hsum : (runs.map (·.2)).sum = n := by rw [← hruns, sum_posRuns hformat hdsel, hn]
  have hordered : runs.Pairwise fun a b => a.1 + a.2 ≤ b.1 := hruns ▸ posRuns_ordered hformat hdsel r.pos
  obtain ⟨hreplied, hstill⟩ := kvStore_answers (r := r.started iss) (bs := [r.firstCells n]) ((writeRuns_sameRoster ..).trans hsame.roster)
    (by rw [ctx_modCtx]; exact clean_writeRuns hclean' hcells _ _ _) hopen hwindow ((hsame.firstPerm ..).trans hperm) hwrite
  refine ⟨hreplied, ?_⟩
  rw [runBytes_congr (mem_of_still hstill), ctx_modCtx, hfree, runBytes_writeRuns hclean' hcells s.freeVal ppn hordered, firstCells_bytes hlines]
  rw [length_firstCells hlen, hsum]

end
end Sys2Proof.Machine

namespace Sys2Proof

open Machine

/-- Settles O37: no line read has an error, so that every request in order is answered OK; the runs of a position follow each other in its page,
so that each byte written is read back. -/
theorem sequenceRequestsReadWriteAndCommit : Obligations.SequenceRequestsReadWriteAndCommit := by
  unfold Obligations.SequenceRequestsReadWriteAndCommit
  intro t iss k e r s hclean hlines m q ok reads inWindow
  refine ⟨fun h hok hvis hreads => ?_, fun h hok hin hring hfresh => ?_, fun h hok => ?_, fun h hok hvis hin hreads => ?_,
    fun ppn h hok hcount hin hpage hlen => ?_, fun h hinvalid => ?_⟩
  · obtain ⟨hvalid, -, hfault, -⟩ := hok
    exact attend_answers hclean hvalid rfl hfault h hvis hreads
  · obtain ⟨hvalid, -, hfault, -⟩ := hok
    obtain ⟨hwindow, hperm⟩ := hin
    exact append_answers hclean hvalid rfl hfault h hwindow hperm hring hfresh
  · obtain ⟨hvalid, -, hfault, -⟩ := hok
    exact commitSet_answers hvalid rfl hfault h
  · obtain ⟨hvalid, -, hfault, hformat, hdsel, -⟩ := hok
    exact kvRead_answers hclean hvalid rfl hfault hformat hdsel h hvis hin hreads
  · obtain ⟨hvalid, -, hfault, hformat, hdsel, -⟩ := hok
    obtain ⟨hwindow, hperm⟩ := hin
    exact kvWrite_answers hclean hvalid rfl hfault hformat hdsel hlines h hcount hwindow hperm hpage hlen
  · exact kvRead_invalid h hinvalid

end Sys2Proof
end

section
/-! REFUTATION. A page copied from a memory that lists one of its lines twice (07 R217). -/

namespace Sys2Proof.Machine

variable {s u : State} {k : Fin 2} {r : CtxReq}

theorem State.SameRoster.pageLegal (h : u.SameRoster s k) (p : Nat) : u.pageLegal k p = s.pageLegal k p := by
  rw [State.pageLegal, h.stackUp, ← State.pageLegal]

/-- A page copied from a die without errors has none. -/
theorem clean_copyPage {c : CtxDie} (h : c.clean) (dst src : Nat) : (c.copyPage dst src).clean := by
  have hlines (l : List (Nat × Line)) (hl : ∀ e ∈ l, e.2.flips = 0) (m : SMap Line) (hm : ∀ e ∈ m, e.2.flips = 0) :
      ∀ e ∈ l.foldl (fun m e => mset {} m (lineKey dst e.1) e.2) m, e.2.flips = 0 := by
    induction l generalizing m with
    | nil => exact hm
    | cons e l ih =>
      obtain ⟨he, hl⟩ := List.forall_mem_cons.1 hl
      exact ih hl _ (mset_all (P := fun x : Line => x.flips = 0) hm he _)
  refine hlines _ (fun e he => ?_) _ fun e he => h e (List.mem_filter.1 he).1
  obtain ⟨x, hx, rfl⟩ := List.mem_map.1 he
  have hflips := h x (List.mem_filter.1 hx).1
  dsimp only
  rw [handOn_of_flips hflips, hflips]

/-- What a page copied leaves in the memory hangs on the memory alone. -/
theorem copyPage_mem_congr {c d : CtxDie} (h : c.mem = d.mem) (dst src : Nat) : (c.copyPage dst src).mem = (d.copyPage dst src).mem := by
  simp only [CtxDie.copyPage, CtxDie.zeroPage, h]

/-- A page op copies its page and is answered; nothing else of the memory changes. -/
theorem pageCopy_mem (h : s.nextOp k 18 0x31 r) (hclean : (s.ctx k).clean) (hdst : s.pageLegal k (r.f 41 5 / 65536) = none)
    (hsrc : s.pageLegal k (r.f 46 5 / 65536) = none) (t : Nat) (iss : List Nat) : Next (exec (.pageCopy t k iss []) s) fun u =>
      (u.ctx k).mem = ((s.ctx k).copyPage (r.f 41 5 / 65536) (r.f 46 5 / 65536)).mem := by
  rw [exec_pageCopy, execPageCopy]
  refine next_of_eq (congrArg _ (runUnit_nextOp h t iss _)) ?_
  have hsame := taken_sameStore s t k r
  have hdst' := (hsame.roster.pageLegal _).trans hdst
  have hsrc' := (hsame.roster.pageLegal _).trans hsrc
  have hclean' : ((s.taken t k r).ctx k).clean := hclean.of_mem hsame.mem
  generalize s.taken t k r = v at *
  dsimp only
  rw [started_f, started_f, hdst', hsrc']
  rw [mem_of_still (CtxDie.clean.still_readReply ?_ ..)]
  · rw [(issue_sameStore ..).mem, ctx_modCtx]
    exact copyPage_mem_congr hsame.mem ..
  · refine CtxDie.clean.of_mem ?_ (issue_sameStore ..).mem
    rw [ctx_modCtx]
    exact clean_copyPage hclean' _ _

/-! ### A memory that lists a line twice -/

/-- The request waiting in the counterexample: page 32768 becomes a copy of page 32769. -/
def doubledReq : CtxReq := copyReq 32768 32769

/-- Context die 0 up, its copy request queued, the source page's first line listed as 1 and again as 2. -/
def doubledState : State where
  pwr := { rails := [(66, .up)] }
  boot := { hbmUp := 1, d2d := [(4 * bayAt 0 0 + 3, 1)] }
  ctx0 := { queues := [(75, [doubledReq])], mem := [(32769 * 1024, { data := 1 }), (32769 * 1024, { data := 2 })] }

theorem doubledState_clean : (doubledState.ctx (0 : Fin 2)).clean := by
  unfold CtxDie.clean
  decide +kernel

theorem doubledState_nextOp : doubledState.nextOp (0 : Fin 2) 18 0x31 doubledReq := by
  unfold State.nextOp
  decide +kernel

theorem doubledReq_pages : doubledReq.f 41 5 / 65536 = 32768 ∧ doubledReq.f 46 5 / 65536 = 32769 := by
  decide +kernel

theorem doubledState_pageLegal : doubledState.pageLegal (0 : Fin 2) 32768 = none ∧ doubledState.pageLegal (0 : Fin 2) 32769 = none := by
  decide +kernel

/-- The copied line ends as the second entry; the source reads as the first. -/
theorem doubledState_copyPage :
    mget {} ((doubledState.ctx (0 : Fin 2)).copyPage 32768 32769).mem (lineKey 32768 0) ≠
      mget ({} : Line) (doubledState.ctx (0 : Fin 2)).mem (lineKey 32769 0) := by
  decide +kernel

end Sys2Proof.Machine

namespace Sys2Proof

open Machine

/-- Refutes O38: a page copied does not read as its source where the memory lists a line twice. The source's first line stands as 1 and again
as 2: a read takes the first entry, and the copy, which writes entry after entry, ends with the last (07 R217). No step leads to such a memory,
since the invariant keeps each line once (`CtxDie.copyPage_canonical`); the statement takes any memory without errors. -/
theorem not_memoryRequestsMoveLinesAndPages : ¬ Obligations.MemoryRequestsMoveLinesAndPages := by
  unfold Obligations.MemoryRequestsMoveLinesAndPages
  intro h
  obtain ⟨hdst, hsrc⟩ := doubledReq_pages
  obtain ⟨hdstLegal, hsrcLegal⟩ := doubledState_pageLegal
  obtain ⟨-, -, hpages⟩ := h 0 [] 0 doubledReq doubledState doubledState_clean
  rw [← hdst] at hdstLegal
  rw [← hsrc] at hsrcLegal
  obtain ⟨u, hu, -, hlines⟩ := (hpages hdstLegal).2 doubledState_nextOp hsrcLegal (by rw [hdst, hsrc]; decide)
  obtain ⟨v, hv, hmem⟩ := pageCopy_mem doubledState_nextOp doubledState_clean hdstLegal hsrcLegal 0 []
  obtain rfl : u = v := Host.Outcome.next.inj (hu.symm.trans hv)
  have hcopied := hlines (lineKey 32768 0)
  dsimp only at hcopied
  rw [hmem, hdst, hsrc, if_pos (by decide)] at hcopied
  exact doubledState_copyPage hcopied

end Sys2Proof
end

section
/-! SUPPORT. Resets of functions while every loaded plan has a step in flight: what is cleared and what stays (08 R236, R254; 11 R302, R303). -/

namespace Sys2Proof.Machine

variable {s u v : State} {fn : Nat} {l m : List Nat}

/-! ### What the reset of a function leaves as it is -/

/-- The plan but for which requests its slots name. -/
def Loaded.bare (p : Loaded) : Loaded := { p with slots := [] }

/-- The host interface but for what a function reset clears. -/
def HostIf.unreset (h : HostIf) : HostIf :=
  { h with slots := [], order := [], lastReq := [], busMaster := [], unmasked := [], msixPend := [], msix := [] }

theorem unreset_of_settled {h k : HostIf} (e : h.settled = k.settled) : h.unreset = k.unreset := (congrArg HostIf.unreset e :)

@[simp] theorem cleared_cleared (x : Slot) : x.cleared.cleared = x.cleared := by simp [Slot.cleared, Function.comp_def]

theorem slotKey_inj {f g i j : Nat} (hi : i < 4) (hj : j < 4) : slotKey f i = slotKey g j ↔ f = g ∧ i = j := by
  unfold slotKey
  omega

/-- `u` is `s` after resets of the functions `l`: their slots are cleared and their requests removed; other slots, the plans, prefixes and the
rest of the host interface are as they were. -/
structure State.Resets (u s : State) (l : List Nat) : Prop where
  slot : ∀ f, ∀ i < 4, u.slot f i = if f ∈ l then (s.slot f i).cleared else s.slot f i
  host : u.host.unreset = s.host.unreset
  bare : u.plans.map Loaded.bare = s.plans.map Loaded.bare
  prefixes : u.prefixes = s.prefixes
  mode : u.mode = s.mode
  reqs : ∀ r ∈ u.reqs, ∃ q ∈ s.reqs, r.fn = q.fn ∧ (r.fn ∈ l ∨ q.removed = true → r.removed = true)
  snags : s.snags <:+ u.snags

theorem State.Resets.refl (s : State) : s.Resets s [] :=
  ⟨fun _ _ _ => (if_neg List.not_mem_nil).symm, rfl, rfl, rfl, rfl,
    fun r hr => ⟨r, hr, rfl, fun h => h.resolve_left List.not_mem_nil⟩, List.suffix_refl _⟩

section
variable (h : u.Resets s l)
include h

theorem State.Resets.slot_in {f i : Nat} (hf : f ∈ l) (hi : i < 4) : u.slot f i = (s.slot f i).cleared := (h.slot f i hi).trans (if_pos hf)

theorem State.Resets.slot_out {f i : Nat} (hf : f ∉ l) (hi : i < 4) : u.slot f i = s.slot f i := (h.slot f i hi).trans (if_neg hf)

theorem State.Resets.removed {r : Req} (hr : r ∈ u.reqs) (hfn : r.fn ∈ l) : r.removed = true := by
  obtain ⟨q, -, -, hremoved⟩ := h.reqs r hr
  exact hremoved (.inl hfn)

theorem State.Resets.expert : u.host.expert = s.host.expert := (congrArg HostIf.expert h.host :)

theorem State.Resets.numVfs : u.host.numVfs = s.host.numVfs := (congrArg HostIf.numVfs h.host :)

theorem State.Resets.waits : u.host.waits = s.host.waits := (congrArg HostIf.waits h.host :)

theorem State.Resets.linkUp : u.host.linkUp = s.host.linkUp := (congrArg HostIf.linkUp h.host :)

theorem State.Resets.perst : u.host.perst = s.host.perst := (congrArg HostIf.perst h.host :)

end

/-! ### Slots cleared one by one -/

/-- The function's slots `l` cleared, each as `x` holds it. -/
def State.clearSlots (s : State) (fn : Nat) (x : Nat → Slot) (l : List Nat) : State :=
  (l.map fun i => (i, x i)).foldl (fun s e => s.setSlot fn e.1 e.2.cleared) s

theorem clearSlots_eq (s : State) (fn : Nat) (x : Nat → Slot) (l : List Nat) :
    ∃ slots, s.clearSlots fn x l = { s with host := { s.host with slots := slots } } := by
  refine List.foldlRecOn _ _ (motive := fun u : State => ∃ slots, u = { s with host := { s.host with slots := slots } }) ⟨_, rfl⟩ ?_
  rintro _ ⟨slots, rfl⟩ e -
  exact ⟨mset {} slots (slotKey fn e.1) e.2.cleared, rfl⟩

theorem slot_clearSlots (s : State) (fn : Nat) (x : Nat → Slot) {l : List Nat} (hl : ∀ i ∈ l, i < 4) (g : Nat) {j : Nat} (hj : j < 4) :
    (s.clearSlots fn x l).slot g j = if g = fn ∧ j ∈ l then (x j).cleared else s.slot g j := by
  induction l generalizing s with
  | nil => simp [State.clearSlots]
  | cons i l ih =>
    obtain ⟨hi, hl⟩ := List.forall_mem_cons.1 hl
    refine (ih (s.setSlot fn i (x i).cleared) hl).trans ?_
    simp only [slot_setSlot, slotKey_inj hj hi, List.mem_cons]
    by_cases hg : g = fn
    · by_cases hji : j = i <;> simp [hg, hji]
    · simp [hg]

/-- The state once the function's slots, interrupts and numbering are cleared. -/
def State.cleared (s : State) (fn : Nat) : State :=
  (s.clearSlots fn (s.slot fn) (List.range 4)).modHost fun h => { h with
    lastReq := mset 0 h.lastReq fn 0, order := h.order.filter fun e => e.1 != fn, busMaster := mset false h.busMaster fn false,
    unmasked := h.unmasked.filter fun e => e.1 / 64 != fn, msixPend := h.msixPend.filter fun e => e.1 / 64 != fn,
    msix := h.msix.filter fun e => e.1 / 2048 != fn }

theorem slot_cleared (s : State) (fn g : Nat) {i : Nat} (hi : i < 4) :
    (s.cleared fn).slot g i = if g = fn then (s.slot g i).cleared else s.slot g i := by
  refine (slot_clearSlots s fn (s.slot fn) (fun _ h => List.mem_range.1 h) g hi).trans ?_
  by_cases hg : g = fn <;> simp [hg, hi]

/-- What clearing leaves of the host interface, and the function's own entries. -/
structure HostIf.Cleared (h k : HostIf) (fn : Nat) : Prop where
  unreset : h.unreset = k.unreset
  order : h.order = k.order.filter fun e => e.1 != fn
  lastReq : mget 0 h.lastReq fn = 0

theorem HostIf.Cleared.of_settled {h k j : HostIf} (hc : h.Cleared k fn) (e : j.settled = h.settled) : j.Cleared k fn :=
  ⟨(unreset_of_settled e).trans hc.unreset, (congrArg HostIf.order e :).trans hc.order, (congrArg (mget 0 ·.lastReq fn) e :).trans hc.lastReq⟩

/-- Clearing changes the host interface only. -/
theorem cleared_host (s : State) (fn : Nat) : (∃ h : HostIf, s.cleared fn = { s with host := h }) ∧ (s.cleared fn).host.Cleared s.host fn := by
  obtain ⟨slots, hs⟩ := clearSlots_eq s fn (s.slot fn) (List.range 4)
  unfold State.cleared
  rw [hs]
  exact ⟨⟨_, rfl⟩, rfl, rfl, mget_mset_same fn 0⟩

/-! ### Requests removed -/

/-- The function's requests are marked, under numbers that no REQ_ID has (08 R236, R254). -/
def State.renumbered (s : State) (fn : Nat) : State :=
  { s with
    reqs := s.reqs.map fun r => if r.fn = fn then { r with id := r.id + 2 ^ 32, removed := true } else r
    plans := s.plans.map fun p => { p with slots := p.slots.map fun e => (e.1, match e.2 with
      | some (f, i) => some (f, if f = fn then i + 2 ^ 32 else i)
      | none => none) } }

theorem renumbered_bare (s : State) (fn : Nat) : (s.renumbered fn).plans.map Loaded.bare = s.plans.map Loaded.bare := by
  unfold State.renumbered
  simp only [List.map_map]
  rfl

/-- Every loaded plan has a step in flight, so that none comes to a scheduling point at once. -/
def State.Stepping (s : State) : Prop := s.AllPlans fun p => p.step.isSome = true

theorem State.Stepping.of_bare (h : s.Stepping) (hbare : u.plans.map Loaded.bare = s.plans.map Loaded.bare) : u.Stepping := fun p hp => by
  have hmem := List.mem_map_of_mem (f := Loaded.bare) hp
  rw [hbare] at hmem
  obtain ⟨q, hq, heq⟩ := List.mem_map.1 hmem
  have hstep : q.step = p.step := (congrArg Loaded.step heq :)
  exact (congrArg Option.isSome hstep).symm.trans (h q hq)

/-- No plan is idle, so nothing is scheduled and the requests are marked only. -/
theorem removeRequests_stepping (h : s.Stepping) (fn : Nat) : s.removeRequests fn = s.renumbered fn := by
  have hstep : (s.renumbered fn).Stepping := h.of_bare (renumbered_bare s fn)
  refine List.foldlRecOn _ _ (motive := fun u : State => u = s.renumbered fn) rfl ?_
  rintro _ rfl i -
  split
  · rename_i p hp
    have hsome : p.step.isSome = true := hstep p (List.mem_of_find?_eq_some hp)
    rw [if_neg (by simp [Option.isNone_eq_false_iff.2 hsome])]
  · rfl

/-! ### A function reset -/

theorem closeHost_settled (s : State) (fn cause : Nat) : (s.closeHost fn cause).host.settled = s.host.settled := by
  unfold State.closeHost
  split
  · rfl
  · exact snag_settled _ _ _ _ _ _

theorem snag_suffix (s : State) (code sev die unit : Nat) (args : List Nat) : s.snags <:+ (s.snag code sev die unit args).snags :=
  snag_induction s (P := fun u => s.snags <:+ u.snags) code sev die unit args (fun _ => List.suffix_refl _) (fun _ => List.suffix_cons _ _)
    fun u fn vec hu => by rwa [raise_snags]

theorem closeHost_suffix (s : State) (fn cause : Nat) : s.snags <:+ (s.closeHost fn cause).snags := by
  unfold State.closeHost
  split
  · exact List.suffix_refl _
  · exact snag_suffix (s.modKeep _) _ _ _ _ _

theorem closeHost_session (s : State) (fn cause : Nat) : (s.closeHost fn cause).hostSession fn = none := by
  unfold State.closeHost
  split
  · assumption
  · rw [State.hostSession, snag_keep]
    exact mget_mset_same (m := s.keep.hostSess) fn none

/-- The commands of a function that its reset abandons (log 152). -/
def State.abandonedOf (s : State) (fn : Nat) : Nat := ((List.range 4).filter fun i => (s.slot fn i).cmd.isSome).length

/-- The requests of a function that its reset removes. -/
def State.removedOf (s : State) (fn : Nat) : Nat := (s.reqs.filter fun r => r.fn == fn && !r.removed).length

/-- The function's session closed, after its slots and requests. -/
def State.released (s : State) (fn cause : Nat) : State := ((s.cleared fn).renumbered fn).closeHost fn (if cause = 2 then 2 else 1)

theorem cleared_bare (s : State) (fn : Nat) : (s.cleared fn).plans.map Loaded.bare = s.plans.map Loaded.bare := by
  obtain ⟨⟨h, hs⟩, -⟩ := cleared_host s fn
  rw [hs]

theorem resetFunction_stepping (h : s.Stepping) (fn cause : Nat) :
    s.resetFunction fn cause = (s.released fn cause).snagFn fn 0x6030 0 [cause, s.abandonedOf fn, s.removedOf fn] := by
  have hbusy : (((List.range 4).map fun i => (i, s.slot fn i)).filter fun e => e.2.cmd.isSome).length = s.abandonedOf fn := by
    rw [List.filter_map, List.length_map]
    rfl
  have hmark := removeRequests_stepping (h.of_bare (cleared_bare s fn)) fn
  unfold State.released
  rw [← hmark, ← hbusy]
  rfl

section
variable (h : s.Stepping) (fn cause : Nat)
include h

/-- After the marking of the requests a function reset touches the Keep and the log. -/
theorem resetFunction_marked : Kept ([.keep] ++ logged) ((s.cleared fn).renumbered fn) (s.resetFunction fn cause) := by
  rw [resetFunction_stepping h]
  exact snagFn_kept (closeHost_kept (.refl _) fn _ (by decide)) _ _ _ _ (by decide)

theorem resetFunction_settled : (s.resetFunction fn cause).host.settled = (s.cleared fn).host.settled := by
  rw [resetFunction_stepping h]
  exact (snag_settled _ _ _ _ _ _).trans (closeHost_settled _ _ _)

theorem resetFunction_host : (s.resetFunction fn cause).host.Cleared s.host fn := by
  obtain ⟨-, hcleared⟩ := cleared_host s fn
  exact hcleared.of_settled (resetFunction_settled h fn cause)

theorem resetFunction_reqs : (s.resetFunction fn cause).reqs =
    s.reqs.map fun r => if r.fn = fn then { r with id := r.id + 2 ^ 32, removed := true } else r := by
  obtain ⟨⟨x, hs⟩, -⟩ := cleared_host s fn
  rw [(resetFunction_marked h fn cause).frame .reqs (by decide), hs]
  rfl

theorem resetFunction_bare : (s.resetFunction fn cause).plans.map Loaded.bare = s.plans.map Loaded.bare := by
  rw [(resetFunction_marked h fn cause).frame .plans (by decide), renumbered_bare, cleared_bare]

theorem resetFunction_session : (s.resetFunction fn cause).hostSession fn = none := by
  rw [resetFunction_stepping h, State.snagFn, State.hostSession, snag_keep]
  exact closeHost_session _ _ _

/-- The record of the reset is the newest in the log (11 R324). -/
theorem resetFunction_logs (hup : s.novkoUp = true) : ∃ r l, (s.resetFunction fn cause).snags = r :: l ∧ r.code = 0x6030 ∧
    r.args = [cause, s.abandonedOf fn, s.removedOf fn, 0] := by
  obtain ⟨⟨x, hs⟩, -⟩ := cleared_host s fn
  have hclose := closeHost_kept (L := [.keep] ++ logged) (.refl ((s.cleared fn).renumbered fn)) fn (if cause = 2 then 2 else 1) (by decide)
  have hup : (s.released fn cause).novkoUp = true := by
    unfold State.released State.novkoUp
    rw [hclose.frame .mode (by decide), hclose.frame .resil (by decide), hs]
    exact hup
  rw [resetFunction_stepping h, State.snagFn, snag_snags _ hup]
  exact ⟨_, _, rfl, rfl, rfl⟩

theorem resetFunction_resets : (s.resetFunction fn cause).Resets s [fn] := by
  obtain ⟨⟨x, hs⟩, -⟩ := cleared_host s fn
  have hmarked := resetFunction_marked h fn cause
  refine ⟨fun f i hi => ?_, (resetFunction_host h fn cause).unreset, resetFunction_bare h fn cause, ?_, ?_, fun r hr => ?_, ?_⟩
  · rw [slot_of_settled (resetFunction_settled h fn cause), slot_cleared s fn f hi]
    simp
  · rw [hmarked.frame .prefixes (by decide), hs]
    rfl
  · rw [hmarked.frame .mode (by decide), hs]
    rfl
  · rw [resetFunction_reqs h] at hr
    obtain ⟨q, hq, rfl⟩ := List.mem_map.1 hr
    refine ⟨q, hq, ?_⟩
    by_cases hfn : q.fn = fn <;> simp [hfn]
  · have hmark : s.snags = ((s.cleared fn).renumbered fn).snags := by
      rw [hs]
      rfl
    rw [resetFunction_stepping h, hmark]
    exact (closeHost_suffix _ _ _).trans (snag_suffix _ _ _ _ _ _)

end

theorem State.Resets.stepping (h : u.Resets s l) (hs : s.Stepping) : u.Stepping := hs.of_bare h.bare

/-- Resets after resets. -/
theorem State.Resets.trans (h : u.Resets v m) (g : v.Resets s l) : u.Resets s (l ++ m) := by
  refine ⟨fun f i hi => ?_, h.host.trans g.host, h.bare.trans g.bare, h.prefixes.trans g.prefixes, h.mode.trans g.mode, fun r hr => ?_,
    g.snags.trans h.snags⟩
  · rw [h.slot f i hi, g.slot f i hi]
    by_cases hl : f ∈ l <;> by_cases hm : f ∈ m <;> simp [hl, hm]
  · obtain ⟨q, hq, hfn, hlast⟩ := h.reqs r hr
    obtain ⟨p, hp, hfn', hfirst⟩ := g.reqs q hq
    refine ⟨p, hp, hfn.trans hfn', fun hremoved => hlast ?_⟩
    rw [List.mem_append, or_right_comm] at hremoved
    exact hremoved.symm.imp_right fun h => hfirst (hfn ▸ h)

/-- Functions reset one after another. -/
theorem foldl_resetFunction (hs : s.Stepping) (l : List Nat) (cause : Nat) : (l.foldl (fun s fn => s.resetFunction fn cause) s).Resets s l := by
  induction l generalizing s with
  | nil => exact .refl s
  | cons fn l ih =>
    have hfirst := resetFunction_resets hs fn cause
    exact (ih (hfirst.stepping hs)).trans hfirst

end Sys2Proof.Machine
end

section
/-! SUPPORT. The events of the endpoint: function level reset, D3hot, endpoint reset, VF disable, the link and its interrupts, settled (08 R236, R254; 11
R302, R303, R320, R322). -/

namespace Sys2Proof.Machine

variable {s u : State} {fn t : Nat} {l : List Nat}

/-! ### The commands of the endpoint -/

section
variable (hup : s.endpointUp = true) (t : Nat)
include hup

theorem functionLevelReset_eq (hfn : s.fnExists fn = true) : exec (.functionLevelReset t fn) s = .next ((s.tick t).resetFunction fn 0) := by
  rw [exec_functionLevelReset, execFunctionLevelReset]
  simp only [tick_endpointUp, tick_fnExists, hup, hfn, Bool.and_self, if_true]

theorem d3hotEntry_eq (hfn : s.fnExists fn = true) : exec (.d3hotEntry t fn) s = .next ((s.tick t).resetFunction fn 1) := by
  rw [exec_d3hotEntry, execD3hotEntry]
  simp only [tick_endpointUp, tick_fnExists, hup, hfn, Bool.and_self, if_true]

theorem vfDisable_eq : exec (.vfDisable t) s = .next (s.tick t).disableVfs := by
  rw [exec_vfDisable, execVfDisable]
  simp only [tick_endpointUp, hup, if_true]

theorem pcieLinkUp_eq (hdown : s.host.linkUp = false) (speed : Fin 7) : exec (.pcieLinkUp t speed) s =
    .next { s.tick t with host := { s.host with linkUp := true, speed := speed } } := by
  rw [exec_pcieLinkUp, execPcieLinkUp]
  simp only [tick_endpointUp, hup, State.tick_host, hdown, Bool.not_false, Bool.and_self, if_true]
  rfl

end

/-! ### The endpoint reset (11 R302) -/

/-- The link is down, and the reset is logged where PERST_N was not yet recorded (11 R302, R324). -/
def State.linkLost (s : State) (linkLoss : Bool) : State :=
  let v := s.modHost fun h => { h with linkUp := false, speed := 0, perst := true }
  if s.host.perst then v else v.snagFn 0 0x6031 1 [atBit linkLoss 0]

theorem endpointReset_eq (hup : s.endpointUp = true) (t : Nat) (linkLoss : Bool) : exec (.endpointReset t linkLoss) s =
    .next ((List.range (s.host.numVfs + 1)).foldl (fun s fn => s.resetFunction fn 3) ((s.tick t).linkLost linkLoss)) := by
  have hnum : ((s.tick t).linkLost linkLoss).host.numVfs = s.host.numVfs := by
    unfold State.linkLost
    split
    · rfl
    · exact (congrArg HostIf.numVfs (snag_settled _ _ _ _ _ _) :)
  rw [exec_endpointReset, execEndpointReset]
  simp only [tick_endpointUp, hup, if_true]
  rw [← hnum]
  rfl

theorem linkLost_kept (s : State) (linkLoss : Bool) : Kept logged s (s.linkLost linkLoss) := by
  have hdown : Kept logged s (s.modHost fun h => { h with linkUp := false, speed := 0, perst := true }) :=
    modHost_kept (.refl s) (fun _ h => h) (by decide)
  exact Kept.ite (fun _ => hdown) fun _ => snagFn_kept hdown _ _ _ _ (by decide)

theorem linkLost_settled (s : State) (linkLoss : Bool) :
    (s.linkLost linkLoss).host.settled = { s.host with linkUp := false, speed := 0, perst := true : HostIf }.settled := by
  unfold State.linkLost
  split
  · rfl
  · exact snag_settled _ _ _ _ _ _

theorem linkLost_logs (hup : s.novkoUp = true) (hperst : s.host.perst = false) (linkLoss : Bool) :
    ∃ r ∈ (s.linkLost linkLoss).snags, r.code = 0x6031 ∧ r.args = [if linkLoss then 1 else 0, 0, 0, 0] := by
  have hup : (s.modHost fun h => { h with linkUp := false, speed := 0, perst := true }).novkoUp = true := hup
  unfold State.linkLost
  simp only [hperst, Bool.false_eq_true, if_false]
  rw [State.snagFn, snag_snags _ hup]
  exact ⟨_, .head _, rfl, rfl⟩

/-! ### VF disable (11 R303, R320) -/

/-- The prefixes among `l` that are a VF's are dropped. -/
def State.dropVfPrefixes (s : State) (l : SMap (Option Prefix)) : State :=
  l.foldl (fun s e => match e.2 with
    | some p => if 1 ≤ p.tenant then s.dropPrefix e.1 p else s
    | none => s) s

/-- The VFs of `l` lose their expert level. -/
def State.dropExperts (s : State) (l : List Nat) : State := l.foldl (fun s fn => s.setExpert fn false 1) s

theorem dropPrefix_prefixes (s : State) (i : Nat) (p : Prefix) : (s.dropPrefix i p).prefixes = mset none s.prefixes i none := by
  have hfree := foldl_kept (L := [.ctx0, .ctx1]) (l := p.pages.map (·.2.2) ++ p.copies.map (·.2))
    (fun s x h => freePage_kept h x (by decide)) (.refl { s with prefixes := mset none s.prefixes i none })
  exact hfree.frame .prefixes (by decide)

/-- What is dropped goes, and nothing comes in its place. -/
theorem dropVfPrefixes_prefixes (s : State) (l : SMap (Option Prefix)) : ∀ e ∈ (s.dropVfPrefixes l).prefixes,
    e ∈ s.prefixes ∧ ∀ p, e.2 = some p → e ∈ l → p.tenant = 0 := by
  induction l generalizing s with
  | nil => exact fun e he => ⟨he, fun _ _ h => absurd h List.not_mem_nil⟩
  | cons a l ih =>
    intro e he
    obtain ⟨hin, hlast⟩ := ih _ e he
    obtain ⟨i, o⟩ := a
    have hhead : e ∈ s.prefixes ∧ ∀ p, e.2 = some p → e = (i, o) → p.tenant = 0 := by
      cases o with
      | none => exact ⟨hin, fun p hp he => by simp [he] at hp⟩
      | some q =>
        dsimp only at hin
        split at hin
        · rw [dropPrefix_prefixes] at hin
          obtain ⟨hin, hne⟩ := List.mem_filter.1 hin
          exact ⟨hin, fun p _ he => by simp [he] at hne⟩
        · rename_i htenant
          exact ⟨hin, fun p hp he => by
            rw [he] at hp
            obtain rfl := Option.some.inj hp
            omega⟩
    obtain ⟨hin, hfirst⟩ := hhead
    exact ⟨hin, fun p hp hmem => (List.mem_cons.1 hmem).elim (hfirst p hp) (hlast p hp)⟩

theorem dropVfPrefixes_kept (s : State) (l : SMap (Option Prefix)) : Kept [.ctx0, .ctx1, .prefixes] s (s.dropVfPrefixes l) :=
  foldl_kept (fun u e h => by
    split
    · exact Kept.ite (fun _ => dropPrefix_kept h _ _ (by decide)) fun _ => h
    · exact h) (.refl s)

theorem dropExperts_kept (s : State) (l : List Nat) : Kept logged s (s.dropExperts l) :=
  foldl_kept (fun _ _ h => setExpert_kept h _ _ _ (by decide)) (.refl s)

theorem setExpert_settled (s : State) (fn : Nat) (v : Bool) (cause : Nat) :
    ∃ x, (∀ f, mget false x f = if f = fn then v else mget false s.host.expert f) ∧
    (s.setExpert fn v cause).host.settled = { s.host with expert := x : HostIf }.settled := by
  unfold State.setExpert
  split
  · rename_i h
    refine ⟨s.host.expert, fun f => ?_, rfl⟩
    split
    · rename_i hf
      rw [hf, h]
    · rfl
  · exact ⟨mset false s.host.expert fn v, fun f => mget_mset _ _ _ _ _, snag_settled _ _ _ _ _ _⟩

/-- Levels dropped are those of the functions named; the rest of the host interface stands but for pending interrupts. -/
theorem dropExperts_settled (s : State) (l : List Nat) : ∃ x, (∀ f, mget false x f = if f ∈ l then false else mget false s.host.expert f) ∧
    (s.dropExperts l).host.settled = { s.host with expert := x : HostIf }.settled := by
  induction l generalizing s with
  | nil => exact ⟨s.host.expert, fun _ => (if_neg List.not_mem_nil).symm, rfl⟩
  | cons fn l ih =>
    obtain ⟨x, hx, hfirst⟩ := setExpert_settled s fn false 1
    obtain ⟨y, hy, hlast⟩ := ih (s.setExpert fn false 1)
    have hexpert : (s.setExpert fn false 1).host.expert = x := (congrArg HostIf.expert hfirst :)
    refine ⟨y, fun f => ?_, hlast.trans (congrArg (fun h : HostIf => { h with expert := y }) hfirst :)⟩
    rw [hy, hexpert, hx]
    by_cases hf : f = fn <;> by_cases hl : f ∈ l <;> simp [hf, hl]

/-- The VFs that VF Enable and NumVFs cover. -/
def State.vfs (s : State) : List Nat := (List.range s.host.numVfs).map (· + 1)

theorem mem_vfs {f : Nat} : f ∈ s.vfs ↔ 1 ≤ f ∧ f ≤ s.host.numVfs := by
  simp only [State.vfs, List.mem_map, List.mem_range]
  exact ⟨by rintro ⟨i, hi, rfl⟩; omega, fun h => ⟨f - 1, by omega⟩⟩

/-- What VF disable leaves: every VF reset, without prefixes and expert level. -/
structure State.VfsGone (u s : State) : Prop where
  slot : ∀ f, ∀ i < 4, u.slot f i = if f ∈ s.vfs then (s.slot f i).cleared else s.slot f i
  expert : ∀ f ∈ s.vfs, u.expert f = false
  numVfs : u.host.numVfs = 0
  prefixes : ∀ i p, mget none u.prefixes i = some p → p.tenant = 0
  bare : u.plans.map Loaded.bare = s.plans.map Loaded.bare
  mode : u.mode = s.mode

theorem disableVfs_gone (hs : s.Stepping) : s.disableVfs.VfsGone s := by
  have hreset := foldl_resetFunction hs s.vfs 2
  generalize hv : s.vfs.foldl (fun s fn => s.resetFunction fn 2) s = v at hreset
  have hend : s.disableVfs = ((v.dropVfPrefixes v.prefixes).dropExperts s.vfs).modHost fun h => { h with numVfs := 0 } := by
    rw [← hv]
    rfl
  have hdropped := dropVfPrefixes_kept v v.prefixes
  have hexperts := dropExperts_kept (v.dropVfPrefixes v.prefixes) s.vfs
  obtain ⟨x, hx, hhost⟩ := dropExperts_settled (v.dropVfPrefixes v.prefixes) s.vfs
  rw [hdropped.frame .host (by decide)] at hhost
  rw [hend]
  refine ⟨fun f i hi => ?_, fun f hf => ?_, rfl, fun i p hp => ?_, ?_, ?_⟩
  · rw [← hreset.slot f i hi]
    exact (congrArg (fun h : HostIf => mget ({} : Slot) h.slots (slotKey f i)) hhost :)
  · have hnone : (f == 0) = false := by
      obtain ⟨hpos, -⟩ := mem_vfs.1 hf
      exact beq_false_of_ne (by omega)
    have hlevel : mget false ((v.dropVfPrefixes v.prefixes).dropExperts s.vfs).host.expert f = mget false x f :=
      (congrArg (fun h : HostIf => mget false h.expert f) hhost :)
    exact (Bool.or_eq_false_iff.2 ⟨hnone, hlevel.trans ((hx f).trans (if_pos hf))⟩ :)
  · have hp : mget none (v.dropVfPrefixes v.prefixes).prefixes i = some p := by
      rw [← hexperts.frame .prefixes (by decide)]
      exact hp
    rcases mget_mem (d := none) (v.dropVfPrefixes v.prefixes).prefixes i with hmem | hnone
    · obtain ⟨hin, htenant⟩ := dropVfPrefixes_prefixes v v.prefixes _ hmem
      exact htenant p hp hin
    · rw [hp] at hnone
      exact nomatch hnone
  · rw [← hreset.bare, ← hdropped.frame .plans (by decide), ← hexperts.frame .plans (by decide)]
    rfl
  · rw [← hreset.mode, ← hdropped.frame .mode (by decide), ← hexperts.frame .mode (by decide)]
    rfl

/-! ### Interrupts (11 R322) -/

/-- The vector's message has gone out and is no longer pending. -/
def State.Sent (s : State) (fn v : Nat) : Prop := .irq fn v ∈ s.out ∧ mget false s.host.msixPend (64 * fn + v) = false

/-- A message may go out and is pending. -/
def State.Sendable (s : State) (fn v : Nat) : Prop := mget false s.host.unmasked (64 * fn + v) = true ∧ mget false s.host.busMaster fn = true ∧
  s.host.linkUp = true ∧ mget false s.host.msixPend (64 * fn + v) = true

/-- The message of a vector goes out. -/
def State.sendVec (s : State) (fn v : Nat) : State :=
  (s.modHost fun h => { h with msixPend := mset false h.msixPend (64 * fn + v) false }).emit (.irq fn v)

/-- The message of a vector goes out if it is pending and may. -/
def State.sendIfPending (fn : Nat) (s : State) (v : Nat) : State :=
  if mget false s.host.msixPend (64 * fn + v) && mget false s.host.unmasked (64 * fn + v) && mget false s.host.busMaster fn && s.host.linkUp then
    s.sendVec fn v
  else s

theorem sendPending_eq (s : State) (fn : Nat) : s.sendPending fn = (List.range (if fn = 0 then 64 else 8)).foldl (State.sendIfPending fn) s := rfl

theorem pend_sendVec (s : State) (fn v w : Nat) : mget false (s.sendVec fn w).host.msixPend (64 * fn + v) =
    if v = w then false else mget false s.host.msixPend (64 * fn + v) :=
  (mget_mset false s.host.msixPend (64 * fn + w) false (64 * fn + v)).trans (if_congr (by omega) rfl rfl)

theorem sendIfPending_sends {v : Nat} (h : s.Sendable fn v) : (State.sendIfPending fn s v).Sent fn v := by
  obtain ⟨hunmasked, hmaster, hlink, hpend⟩ := h
  unfold State.sendIfPending
  simp only [hunmasked, hmaster, hlink, hpend, Bool.and_self, if_true]
  exact ⟨mem_emit _ _, (pend_sendVec s fn v v).trans (if_pos rfl)⟩

/-- A message that has gone out stays so. -/
theorem sendIfPending_sent {v : Nat} (h : s.Sent fn v) (w : Nat) : (State.sendIfPending fn s w).Sent fn v := by
  unfold State.sendIfPending
  split
  · obtain ⟨hout, hpend⟩ := h
    exact ⟨List.mem_cons_of_mem _ hout, by rw [pend_sendVec, hpend, ite_self]⟩
  · exact h

/-- Another vector's message leaves this one to be sent. -/
theorem sendIfPending_other {v w : Nat} (h : s.Sendable fn v) (hw : v ≠ w) : (State.sendIfPending fn s w).Sendable fn v := by
  unfold State.sendIfPending
  split
  · obtain ⟨hunmasked, hmaster, hlink, hpend⟩ := h
    exact ⟨hunmasked, hmaster, hlink, by rw [pend_sendVec, if_neg hw, hpend]⟩
  · exact h

theorem foldl_sendIfPending_sent {v : Nat} (h : s.Sent fn v) (l : List Nat) : (l.foldl (State.sendIfPending fn) s).Sent fn v :=
  List.foldlRecOn l _ (motive := fun u : State => u.Sent fn v) h fun _ hu w _ => sendIfPending_sent hu w

/-- Of vectors taken in turn, each message that may go out does. -/
theorem foldl_sendIfPending {v : Nat} (h : s.Sendable fn v) {l : List Nat} (hv : v ∈ l) : (l.foldl (State.sendIfPending fn) s).Sent fn v := by
  induction l generalizing s with
  | nil => exact absurd hv List.not_mem_nil
  | cons w l ih =>
    by_cases hw : v = w
    · subst hw
      exact foldl_sendIfPending_sent (sendIfPending_sends h) l
    · exact ih (sendIfPending_other h hw) ((List.mem_cons.1 hv).resolve_left hw)

/-- A function that may not write host memory sends nothing. -/
theorem sendPending_idle (h : ¬(mget false s.host.busMaster fn = true ∧ s.host.linkUp = true)) : s.sendPending fn = s := by
  rw [sendPending_eq]
  refine List.foldlRecOn _ _ (motive := fun u : State => u = s) rfl ?_
  rintro _ rfl v -
  exact if_neg fun hall => h (by simp only [Bool.and_eq_true] at hall; exact ⟨hall.1.2, hall.2⟩)

/-- The vector's mask bit is cleared. -/
def State.unmask (s : State) (fn v : Nat) : State := s.modHost fun h => { h with unmasked := mset false h.unmasked (64 * fn + v) true }

theorem msixVectorUnmask_eq (hup : s.endpointUp = true) (hfn : s.fnExists fn = true) {v : Nat} (hv : v < if fn = 0 then 64 else 8) (t : Nat) :
    exec (.msixVectorUnmask t fn v) s = .next (((s.tick t).unmask fn v).sendPending fn) := by
  rw [exec_msixVectorUnmask, execMsixVectorUnmask]
  simp only [tick_endpointUp, hup, if_true, State.setMask, tick_fnExists, hfn, hv, decide_true, Bool.and_self, Bool.not_false]
  rfl

theorem unmask_unmasked (s : State) (fn v : Nat) : mget false ((s.unmask fn v).sendPending fn).host.unmasked (64 * fn + v) = true :=
  (congrArg (fun h : HostIf => mget false h.unmasked (64 * fn + v)) (sendPending_settled (s.unmask fn v) fn) :).trans (mget_mset_same _ true)

theorem unmask_sends {v : Nat} (hv : v < if fn = 0 then 64 else 8) (hpend : mget false s.host.msixPend (64 * fn + v) = true)
    (hmaster : mget false s.host.busMaster fn = true) (hlink : s.host.linkUp = true) : ((s.unmask fn v).sendPending fn).Sent fn v := by
  rw [sendPending_eq]
  exact foldl_sendIfPending (s := s.unmask fn v) ⟨mget_mset_same _ true, hmaster, hlink, hpend⟩ (List.mem_range.2 hv)

end Sys2Proof.Machine

namespace Sys2Proof

open Machine

/-- Settles O46: with a step of every plan in flight a reset schedules nothing, so that it clears the function's own entries and marks its requests;
resets of several functions add up, and a pending message goes out when its vector's turn comes. -/
theorem functionsResetAlone : Obligations.FunctionsResetAlone := by
  unfold Obligations.FunctionsResetAlone
  intro t fn linkLoss speed s hup freed bare
  have hfreed {u v : State} {l : List Nat} (hslot : ∀ f, ∀ i < 4, u.slot f i = if f ∈ l then (v.slot f i).cleared else v.slot f i)
      (hv : ∀ f i, v.slot f i = s.slot f i) {f : Nat} (hf : f ∈ l) : freed u f := fun i hi => by
    rw [hslot f i hi, if_pos hf, hv]
    exact ⟨rfl, rfl, rfl⟩
  refine ⟨fun hnovko hfn hstep => ?_, fun hstep => ?_, fun hstep => ?_, fun hdown => ?_, fun v hfn hv hpend => ?_⟩
  · have hstep : (s.tick t).Stepping := hstep
    intro e he
    have hexec : exec e.1 s = .next ((s.tick t).resetFunction fn e.2) := by
      simp only [List.mem_cons, List.not_mem_nil, or_false] at he
      rcases he with rfl | rfl
      · exact functionLevelReset_eq hup t hfn
      · exact d3hotEntry_eq hup t hfn
    have h := resetFunction_resets hstep fn e.2
    have hhost := resetFunction_host hstep fn e.2
    exact next_of_eq hexec ⟨hfreed h.slot (fun _ _ => rfl) (List.mem_singleton.2 rfl),
      fun g hg i hi => h.slot_out (by simpa using hg) hi, hhost.order, h.waits, resetFunction_reqs hstep fn e.2, hhost.lastReq,
      resetFunction_session hstep fn e.2, h.bare, h.prefixes, h.expert, h.mode, resetFunction_logs hstep fn e.2 hnovko⟩
  · have hlost := linkLost_kept (s.tick t) linkLoss
    have hhost := linkLost_settled (s.tick t) linkLoss
    have hstep : ((s.tick t).linkLost linkLoss).Stepping := (State.AllPlans.kept (s := s.tick t) hstep hlost (by decide) :)
    have h := foldl_resetFunction hstep (List.range (s.host.numVfs + 1)) 3
    refine next_of_eq (endpointReset_eq hup t linkLoss) ⟨fun f hf => hfreed h.slot ?_ (List.mem_range.2 (by omega)), ?_, ?_, ?_, ?_, ?_, ?_, ?_⟩
    · exact fun f i => (congrArg (fun h : HostIf => mget ({} : Slot) h.slots (slotKey f i)) hhost :)
    · exact h.linkUp.trans (congrArg HostIf.linkUp hhost :)
    · exact h.perst.trans (congrArg HostIf.perst hhost :)
    · exact h.numVfs.trans (congrArg HostIf.numVfs hhost :)
    · exact h.mode.trans (hlost.frame .mode (by decide))
    · exact h.bare.trans (congrArg (List.map Loaded.bare) (hlost.frame .plans (by decide)) :)
    · exact fun r hr hfn => h.removed hr (List.mem_range.2 (by omega))
    · intro hnovko hperst
      obtain ⟨r, hr, hrecord⟩ := linkLost_logs (s := s.tick t) hnovko hperst linkLoss
      exact ⟨r, h.snags.mem hr, hrecord⟩
  · have h := disableVfs_gone (s := s.tick t) hstep
    refine next_of_eq (vfDisable_eq hup t) ⟨fun f hpos hf => ?_, fun i hi => ?_, h.numVfs, h.prefixes, h.bare, h.mode⟩
    · have hmem : f ∈ (s.tick t).vfs := mem_vfs.2 ⟨hpos, hf⟩
      exact ⟨hfreed h.slot (fun _ _ => rfl) hmem, h.expert f hmem⟩
    · exact (h.slot 0 i hi).trans (if_neg fun hmem => by simp [mem_vfs] at hmem)
  · exact pcieLinkUp_eq hup t hdown speed
  · refine next_of_eq (msixVectorUnmask_eq hup hfn hv t) ⟨unmask_unmasked _ _ _, ?_⟩
    split
    · rename_i hmay
      obtain ⟨hmaster, hlink⟩ := hmay
      exact unmask_sends (s := s.tick t) hv hpend hmaster hlink
    · rename_i hmay
      rw [sendPending_idle (s := (s.tick t).unmask fn v) hmay]
      exact ⟨rfl, hpend⟩

end Sys2Proof
end

section
/-! SUPPORT. Requests and prefixes: the command slots are left alone as requests end and prefixes are kept, and which entry of the prefixes'
table a PREFIX_KEEP makes (07 R214, R215; 08 R245, R246, R254; 11 R310). -/

namespace Sys2Proof.Machine

variable {s u v : State}

/-! ### Command slots that the work of a command leaves alone -/

theorem slots_of_settled (h : u.host.settled = s.host.settled) : u.host.slots = s.host.slots := (congrArg HostIf.slots h :)

theorem slot_of_slots (h : u.host.slots = s.host.slots) (fn slot : Nat) : u.slot fn slot = s.slot fn slot := congrArg (mget ({} : Slot) · (slotKey fn slot)) h

/-- A command that is taken and completes at once, its work in `v` having left the slots alone. -/
theorem worked_answered {t fn slot : Nat} {c : Cmd} (h : u.Took s t fn slot c) (hslots : v.host.slots = u.host.slots) (status detail : Nat)
    (result : List Byte) : (v.complete fn slot c.id status detail result).answered fn slot c status
      (if status = stRefused ∨ status = stFault then detail else 0) result :=
  complete_answered v (goesOn_congr (slot_of_slots hslots fn slot) h.goes) status detail result

/-- A completion touches the host interface and the outputs only. -/
theorem complete_same (s : State) (fn slot id status detail : Nat) (result : List Byte) {f : Field} (hf : f ∉ [Field.host, .out]) :
    f.same s (s.complete fn slot id status detail result) :=
  (complete_kept (L := [.host, .out]) (.refl s) fn slot id status detail result (by decide)).frame f hf

theorem complete_req (s : State) (fn slot id status detail : Nat) (result : List Byte) (f i : Nat) :
    (s.complete fn slot id status detail result).req f i = s.req f i := by
  rw [State.req, complete_same (f := .reqs) s fn slot id status detail result (by decide), ← State.req]

section
variable {t fn slot : Nat} {c : Cmd} (h : u.Took s t fn slot c)
include h

theorem State.Took.reqs : u.reqs = s.reqs := h.mailbox.frame .reqs (by decide)

theorem State.Took.req (f i : Nat) : u.req f i = s.req f i := by rw [State.req, State.req, h.reqs]

theorem State.Took.prefixes : u.prefixes = s.prefixes := h.mailbox.frame .prefixes (by decide)

theorem State.Took.prefixOf (f i : Nat) : u.prefixOf f i = s.prefixOf f i := by rw [State.prefixOf, State.prefixOf, h.prefixes]

theorem State.Took.keep : u.keep = s.keep := h.mailbox.frame .keep (by decide)

theorem State.Took.streamOf (f : Nat) : u.streamOf f = s.streamOf f := by rw [State.streamOf, State.streamOf, h.keep]

theorem State.Took.ctx (k : Nat) : u.ctx k = s.ctx k := ctx_of_same s k (h.mailbox.frame .ctx0 (by decide)) (h.mailbox.frame .ctx1 (by decide))

theorem State.Took.mtime : u.mtime = (s.tick t).mtime := by
  rw [State.mtime, h.now, h.mailbox.frame .leftOff (by decide)]
  rfl

theorem State.Took.busMaster : u.host.busMaster = s.host.busMaster := (congrArg HostIf.busMaster h.host :)

theorem State.Took.lastReq : u.host.lastReq = s.host.lastReq := (congrArg HostIf.lastReq h.host :)

theorem State.Took.mayWrite (f : Nat) : u.mayWrite f = s.mayWrite f :=
  (congrArg (fun x : HostIf => mget false x.busMaster f && x.linkUp) h.host :)

theorem State.Took.othersOf (p : Loaded) : u.othersOf p = s.othersOf p := by
  rw [State.othersOf, State.othersOf, State.moduleAddr, State.moduleAddr, h.mailbox.frame .fab (by decide)]

theorem State.Took.slotSeq (p : Loaded) (i : Nat) : u.slotSeq p i = s.slotSeq p i := by
  unfold State.slotSeq
  simp only [h.ctx]

theorem State.Took.submitCheck (f : Nat) (d : Cmd) : u.submitCheck f d = s.submitCheck f d := by
  rw [h.mailbox.mailbox_eq]
  rfl

end

/-! ### Pages copied as positions are kept (07 R205, R214) -/

theorem readLines_settled (s : State) (k : Nat) (r : CtxReq) (keys : List Nat) : (s.readLines k r keys).1.host.settled = s.host.settled := by
  have hmod (v : State) (f : CtxDie → CtxDie) : (v.modCtx k f).host.settled = v.host.settled :=
    congrArg HostIf.settled (modCtx_same v k f (x := .host) (by decide))
  unfold State.readLines
  refine List.foldlRecOn (motive := fun a : State × List Nat => a.1.host.settled = s.host.settled) _ _ (hmod s _) fun a ha key _ => ?_
  dsimp only
  split
  · dsimp only
    split
    · rw [hmod, ha]
    · rw [snag_settled, hmod, ha]
  · split
    · exact ha
    · rw [hmod, ha]

/-- Reads of lines leave the free ring alone. -/
theorem readLines_ring (s : State) (k : Nat) (r : CtxReq) (keys : List Nat) : ((s.readLines k r keys).1.ctx k).ring = (s.ctx k).ring := by
  unfold State.readLines
  refine List.foldlRecOn (motive := fun a : State × List Nat => (a.1.ctx k).ring = (s.ctx k).ring) _ _ (issue_sameStore s k r _).ring fun a ha key _ => ?_
  dsimp only
  split
  · dsimp only
    split
    · rw [ctx_modCtx, ← ha]
    · rw [ctx_snag, ctx_modCtx, ← ha]
  · split
    · exact ha
    · rw [ctx_modCtx, ← ha]

/-- The state once one page of die `k` has been copied to the page `p` taken from the ring. -/
def State.copied (s : State) (k p src : Nat) (ring : List Nat) : State :=
  (((s.modCtx k fun c => { c with ring := ring }).readLines k (copyReq p src) ((s.ctx k).pageListed src)).1).modCtx k fun c => c.copyPage p src

theorem copied_ring (s : State) (k p src : Nat) (ring : List Nat) : ((s.copied k p src ring).ctx k).ring = ring := by
  unfold State.copied
  rw [ctx_modCtx]
  refine (readLines_ring ..).trans ?_
  rw [ctx_modCtx]

theorem copied_settled (s : State) (k p src : Nat) (ring : List Nat) : (s.copied k p src ring).host.settled = s.host.settled := by
  unfold State.copied
  rw [modCtx_same _ k _ (x := .host) (by decide), readLines_settled, modCtx_same _ k _ (x := .host) (by decide)]

theorem copyOut_cons (s : State) (k i src : Nat) (l : List (Nat × Nat)) {p : Nat} {ring : List Nat} (h : (s.ctx k).ring = p :: ring) :
    s.copyOut k ((i, src) :: l) = ((s.copied k p src ring).copyOut k l).map fun x => (x.1, (i, p) :: x.2) := by
  rw [State.copyOut]
  simp only [h]
  unfold State.copied
  split
  · rename_i hcopy
    rw [hcopy]
    rfl
  · rename_i hcopy
    rw [hcopy]
    rfl

/-- Copies are made where the free ring holds a page for each. -/
theorem copyOut_isSome (s : State) (k : Nat) (l : List (Nat × Nat)) : (s.copyOut k l).isSome = decide (l.length ≤ (s.ctx k).ring.length) := by
  induction l generalizing s with
  | nil => simp [State.copyOut]
  | cons a l ih =>
    cases hring : (s.ctx k).ring with
    | nil => simp [State.copyOut, hring]
    | cons p ring => simp [copyOut_cons s k a.1 a.2 l hring, ih, copied_ring]

theorem copyOut_settled (l : List (Nat × Nat)) {s : State} {k : Nat} {x : State × List (Nat × Nat)} (h : s.copyOut k l = some x) :
    x.1.host.settled = s.host.settled := by
  induction l generalizing s x with
  | nil => rw [← Option.some.inj h]
  | cons a l ih =>
    cases hring : (s.ctx k).ring with
    | nil => simp [State.copyOut, hring] at h
    | cons p ring =>
      rw [copyOut_cons s k a.1 a.2 l hring, Option.map_eq_some_iff] at h
      obtain ⟨y, hy, rfl⟩ := h
      exact (ih hy).trans (copied_settled s k p a.2 ring)

/-! ### Prefixes kept and dropped (07 R214, R215) -/

theorem freeIndex_spec {m : SMap (Option Prefix)} {n idx : Nat} (h : ((List.range n).find? fun i => (mget none m i).isNone) = some idx) :
    idx < n ∧ mget none m idx = none :=
  ⟨List.mem_range.1 (List.mem_of_find?_eq_some h), Option.isNone_iff_eq_none.1 (List.find?_some (p := fun i => (mget none m i).isNone) h)⟩

/-- From `s` to `v` the first `n` positions of sequence `seq` on die `k` are kept as entry `idx`, which was free, under the handle `h`. -/
structure State.KeptPrefix (s v : State) (k seq n idx h : Nat) (x : Prefix) : Prop where
  free : mget none s.prefixes idx = none
  prefixes : v.prefixes = mset none s.prefixes idx (some x)
  index : h % 65536 = idx
  count : x.n = n
  die : x.die = k
  tenant : x.tenant = (s.seqOf k seq).tenant
  settled : v.host.settled = s.host.settled

theorem keepPrefix_some {k seq n h : Nat} {lead : Option Nat} (hkeep : s.keepPrefix k seq n lead = some (v, h)) :
    ∃ idx x, s.KeptPrefix v k seq n idx h x := by
  unfold State.keepPrefix at hkeep
  extract_lets q per at_ whole part at hkeep
  split at hkeep
  · nomatch hkeep
  · rename_i idx hidx
    obtain ⟨hlt, hfree⟩ := freeIndex_spec hidx
    split at hkeep
    · nomatch hkeep
    · rename_i w copies hcopies
      extract_lets z at hkeep
      have hcopied := copyOut_kept (L := logged ++ [.ctx0, .ctx1]) k _ (by decide) (.refl s) _ hcopies
      have hmapped : Kept [.pages] w z := foldl_kept (fun _ _ g => setPte_kept g _ _ _ (by decide)) (.refl w)
      have hprefixes : z.prefixes = s.prefixes := (hmapped.frame .prefixes (by decide)).trans (hcopied.frame .prefixes (by decide))
      have hhost : z.host.settled = s.host.settled :=
        (congrArg HostIf.settled (hmapped.frame .host (by decide))).trans (copyOut_settled _ hcopies)
      cases hkeep
      refine ⟨idx, _, {
        free := hfree, prefixes := congrArg (mset none · idx (some _)) hprefixes, index := ?_,
        count := ?_, die := ?_, tenant := ?_, settled := hhost }⟩
      · omega
      · rfl
      · rfl
      · rfl

/-- Whether positions can be kept rests on the table of prefixes and the free ring, not on the mailbox. -/
theorem keepPrefix_isSome_mailbox (h : Kept mailbox s u) (k seq n : Nat) (lead : Option Nat) :
    (u.keepPrefix k seq n lead).isSome = (s.keepPrefix k seq n lead).isSome := by
  have hctx : u.ctx k = s.ctx k := ctx_of_same s k (h.frame .ctx0 (by decide)) (h.frame .ctx1 (by decide))
  have hpte : u.pte = s.pte := by
    funext tenant lpn
    rw [State.pte, State.pte, h.frame .pages (by decide)]
  have hcopies (l : List (Nat × Nat)) : (u.copyOut k l).isSome = (s.copyOut k l).isSome := by rw [copyOut_isSome, copyOut_isSome, hctx]
  have hprefixes : u.prefixes = s.prefixes := h.frame .prefixes (by decide)
  unfold State.keepPrefix
  simp only [hctx, hpte, hprefixes]
  generalize ((List.range 65536).find? fun i => (mget none s.prefixes i).isNone) = o
  cases o with
  | none => rfl
  | some idx =>
    dsimp only
    split
    · rename_i hu
      have hnone := (congrArg Option.isSome hu).symm.trans (hcopies _)
      split
      · rfl
      · rename_i hs
        exact hnone.trans (congrArg Option.isSome hs)
    · rename_i hu
      have hsome := (congrArg Option.isSome hu).symm.trans (hcopies _)
      split
      · rename_i hs
        exact hsome.trans (congrArg Option.isSome hs)
      · rfl

/-! ### Requests that end (08 R245, R246, R249, R254) -/

theorem keepAtEnd_settled (s : State) (p : Loaded) (r : Req) : (s.keepAtEnd p r).1.host.settled = s.host.settled := by
  unfold State.keepAtEnd
  split
  · split
    · lift_lets
      intro c n
      split
      · rfl
      · split
        · rename_i x hx
          obtain ⟨idx, y, hy⟩ := keepPrefix_some (v := x.1) (h := x.2) hx
          exact hy.settled
        · rfl
    · rfl
  · rfl

theorem recorded_slots (s : State) (r : Req) (status reason handle : Nat) : (s.recorded r status reason handle).host.slots = s.host.slots := by
  unfold State.recorded
  split
  · refine (slots_of_settled (raise_settled _ _ _)).trans ?_
    exact congrArg HostIf.slots ((hostWrite_kept (L := [.out]) (.refl s) _ _ _ (by decide)).frame .host (by decide))
  · rfl

theorem retire_slots (s : State) (p : Loaded) (r : Req) (status reason : Nat) : (s.retire p r status reason).host.slots = s.host.slots := by
  have hdelivered : (s.delivered p r reason).1.host = s.host := (delivered_kept s p r reason).frame .host (by decide)
  have hkept (v : State) (q : Req) : (v.prefixKept p q reason).1.host.slots = v.host.slots := by
    unfold State.prefixKept
    split
    · exact slots_of_settled (keepAtEnd_settled v p q)
    · rfl
  have htold (v : State) (q : Req) (h : Nat) : (v.tellRetired p q h).host = v.host :=
    (tellRetired_kept (L := [.plans]) (.refl v) p q h (by decide)).frame .host (by decide)
  rw [retire_eq]
  refine (congrArg HostIf.slots (htold _ _ _)).trans ?_
  rw [recorded_slots, hkept, hdelivered]

theorem endReq_slots (s : State) (p : Loaded) (r : Req) (status reason : Nat) : (s.endReq p r status reason).host.slots = s.host.slots := by
  unfold State.endReq
  split
  · exact congrArg HostIf.slots ((removeReq_kept (L := [.plans, .reqs]) (.refl s) p r (by decide)).frame .host (by decide))
  · exact retire_slots s p r status reason

/-- The end of a plan's requests leaves every command slot alone. -/
theorem endRequests_slots (s : State) (p : Loaded) (status reason : Nat) : (s.endRequests p status reason).host.slots = s.host.slots := by
  unfold State.endRequests
  refine (congrArg HostIf.slots ((sweep_kept (L := [.ctx0, .ctx1, .pages, .plans]) (.refl _) _ (by decide)).frame .host (by decide))).trans ?_
  exact List.foldlRecOn _ _ (motive := fun u : State => u.host.slots = s.host.slots) rfl fun u hu r _ => (endReq_slots u p r status reason).trans hu

end Sys2Proof.Machine
end

section
/-! SUPPORT. SUBMIT, CANCEL, PREFIX_KEEP and PREFIX_DROP, settled (07 R214, R215; 08 R234–R236, R250; 11 R305, R317). -/

namespace Sys2Proof.Machine

variable {s u : State} {t fn slot : Nat} {c : Cmd} {p : Loaded} {r : Req}

/-! ### SUBMIT (08 R234–R236) -/

/-- A command that is due and whose own checks take the place of steps 2 to 7 of R311 is taken, and its own work is done. -/
theorem runOwn_due {i : Instr} {op : Nat} {form args : Cmd → Bool} {row : CmdRow} (hm : i.mailbox = some { fn, slot, op, form, row, args, own := true })
    (hrow : row.expert = false) (hdue : s.due i fn slot c) (t : Nat) : ∃ u, u.Took s t fn slot c ∧
      ∀ body, (s.tick t).runOwn fn slot op form args body = (body u c).finish fn slot c := by
  obtain ⟨m, ⟨hm', hposted, hop, hform⟩, hcheck, -, -⟩ := hdue
  obtain rfl := Option.some.inj (hm.symm.trans hm')
  have hposted : (s.tick t).posted fn slot = some c := hposted
  have hpass : (!c.headerOk || !args c || c.expert) = false := by
    unfold State.checkFails at hcheck
    split at hcheck
    · exact nomatch hcheck
    · rename_i hgood
      simpa [hrow, and_assoc] using hgood
  refine ⟨_, take_took s t fn slot c, fun body => ?_⟩
  dsimp only at hop hform
  unfold State.runOwn
  simp only [hposted, hop, hform, and_self, if_true, hpass, Bool.false_eq_true, if_false]
  cases body ((s.tick t).take fn slot c) c <;> rfl

/-- A check of SUBMIT that fails never answers FAULT. -/
theorem submitCheck_status {st d : Nat} (h : s.submitCheck fn c = .error (st, d)) : st ≠ stFault := by
  have hne : ∀ {x y : Nat}, x ≠ stFault → (Except.error (x, y) : Except (Nat × Nat) (Loaded × Nat)) = .error (st, d) → st ≠ stFault := by
    intro x y hx h
    cases h
    exact hx
  unfold State.submitCheck at h
  split at h
  · exact hne (by decide) h
  split at h
  · exact hne (by decide) h
  extract_lets n c0 bound dl at h
  clear_value bound
  split at h
  · exact hne (by decide) h
  split at h
  · exact hne (by decide) h
  split at h
  · exact hne (by decide) h
  split at h
  · exact hne (by decide) h
  split at h
  · exact hne (by decide) h
  · exact nomatch h

/-- A request as SUBMIT accepts it (08 R234, R236), with this seed. -/
structure Req.Accepted (q : Req) (s : State) (f : Nat) (c : Cmd) (p : Loaded) (b : List Byte) (x : Nat) : Prop where
  seed : q.seed = BitVec.ofNat 64 x
  given : c.arg 61 1 / 4 % 2 = 0 → x = c.arg 8 8
  id : q.id = nextReqId (mget 0 s.host.lastReq f)
  fn : q.fn = f
  plan : q.plan = p.img.id
  slot : q.slot = none
  cls : q.cls = c.arg 60 1
  outAddr : q.outAddr = c.arg 32 8
  outLen : q.outLen = c.arg 44 4
  maxTok : q.maxTok = c.arg 52 4
  keepN : q.keepN = c.arg 56 4
  tag : q.tag = c.arg 62 2
  input : q.input = bytesAt b 0 (c.arg 40 4)
  prompt : q.prompt = c.arg 40 4 / p.img.layout.inBytes
  tAccept : q.tAccept = s.mtime
  handle : q.handle = c.arg 16 8
  deadline : q.deadline = if c.arg 48 4 = 0 then none else some (s.mtime + 1000 * c.arg 48 4)

/-- The seed of a request: the descriptor's, or drawn (08 R234; 12 R350). -/
def State.drawSeed (s : State) (c : Cmd) : State × Nat := if c.desc 61 1 / 4 % 2 == 1 then s.random 64 else (s, c.desc 8 8)

theorem drawSeed_kept (s : State) (c : Cmd) : Kept [.free, .keep] s (s.drawSeed c).1 :=
  Kept.ite_fst (fun _ => random_kept (.refl s) 64 (by decide)) fun _ => .refl s

theorem drawSeed_given (s : State) (h : c.arg 61 1 / 4 % 2 = 0) : (s.drawSeed c).2 = c.arg 8 8 := by
  unfold State.drawSeed
  rw [if_neg (by simpa [Cmd.desc] using h)]
  rfl

/-- Acceptance adds the request, counts it and answers its id, bound and seed (08 R236). -/
theorem accept_accepts (s : State) (fn : Nat) (c : Cmd) (p : Loaded) (w : Nat) (input : List Byte) : ∃ q seed, q.Accepted s fn c p input seed ∧
    (s.accept fn c p w input).1.reqs = s.reqs ++ [q] ∧
    (s.accept fn c p w input).2 = leBytes 4 q.id ++ leBytes 4 ((w + 999999) / 1000000) ++ leBytes 8 seed ∧
    mget 0 (s.accept fn c p w input).1.host.lastReq fn = q.id ∧ (s.accept fn c p w input).1.host.slots = s.host.slots := by
  have hdrawn := drawSeed_kept s c
  have hgiven := drawSeed_given (c := c) s
  have hhost : (s.drawSeed c).1.host = s.host := hdrawn.frame .host (by decide)
  have hreqs : (s.drawSeed c).1.reqs = s.reqs := hdrawn.frame .reqs (by decide)
  have htime : (s.drawSeed c).1.mtime = s.mtime := by
    rw [State.mtime, hdrawn.frame .now (by decide), hdrawn.frame .leftOff (by decide), ← State.mtime]
  unfold State.accept
  extract_lets l fl drawn h
  have hpair : (if drawn then s.random 64 else (s, c.desc 8 8)) = s.drawSeed c := rfl
  rw [hpair]
  generalize s.drawSeed c = d at hgiven hhost hreqs htime
  obtain ⟨v, seed⟩ := d
  dsimp only at hgiven hhost hreqs htime
  refine ⟨_, seed, ⟨rfl, hgiven, ?_, rfl, rfl, rfl, rfl, rfl, rfl, rfl, rfl, rfl, rfl, rfl, ?_, rfl, ?_⟩, (congrArg (· ++ [_]) hreqs :), rfl,
    mget_mset_same fn _, (congrArg HostIf.slots hhost :)⟩
  · rw [← hhost]
  · exact htime
  · rw [← htime]
    rfl

section
variable {b : List Byte} {w : Nat} (hdue : s.due (.submit t fn slot (.bytes b)) fn slot c)
include hdue

theorem submit_fails {st d : Nat} (hcheck : s.submitCheck fn c = .error (st, d)) : ∃ u : State, u.Took s t fn slot c ∧
    exec (.submit t fn slot (.bytes b)) s = .next (u.complete fn slot c.id st d []) := by
  obtain ⟨u, hu, hrun⟩ := runOwn_due rfl rfl hdue t
  refine ⟨u, hu, ?_⟩
  rw [exec_submit, execSubmit, hrun]
  simp only [hu.submitCheck, hcheck, Done.finish]

section
variable (hcheck : s.submitCheck fn c = .ok (p, w)) (hentropy : s.keep.entropyOk = true)
include hcheck hentropy

/-- Without Bus Master Enable the input cannot be read (11 R305). -/
theorem submit_unread (hmaster : mget false s.host.busMaster fn = false) : ∃ u : State, u.Took s t fn slot c ∧
    exec (.submit t fn slot (.bytes b)) s = .next (u.complete fn slot c.id stRefused 0 []) := by
  obtain ⟨u, hu, hrun⟩ := runOwn_due rfl rfl hdue t
  refine ⟨u, hu, ?_⟩
  rw [exec_submit, execSubmit, hrun]
  simp only [hu.submitCheck, hcheck, hu.keep, hentropy, Bool.not_true, Bool.and_false, Bool.false_eq_true, if_false, State.dmaRead, hu.busMaster,
    hmaster, Done.finish]

variable (hmaster : mget false s.host.busMaster fn = true) (hplan : s.plan p.img.id = some p)
include hmaster hplan

/-- A plan that stops ends the request it accepts (log 123). -/
theorem submit_stopping (hstopping : p.stopping = true) : ∃ u : State, u.Took s t fn slot c ∧ exec (.submit t fn slot (.bytes b)) s =
    .next (((u.accept fn c p w b).1.endRequests p stStale 6).complete fn slot c.id stOk 0 (u.accept fn c p w b).2) := by
  obtain ⟨u, hu, hrun⟩ := runOwn_due rfl rfl hdue t
  refine ⟨u, hu, ?_⟩
  have hplan : (u.accept fn c p w b).1.plan p.img.id = some p := by
    rw [plan_congr ((accept_kept (L := [.free, .reqs, .host, .keep]) (.refl u) fn c p w b (by decide)).frame .plans (by decide)), hu.plan, hplan]
  rw [exec_submit, execSubmit, hrun]
  simp only [hu.submitCheck, hcheck, hu.keep, hentropy, Bool.not_true, Bool.and_false, Bool.false_eq_true, if_false, State.dmaRead, hu.busMaster,
    hmaster, if_true, fetchBytes, hplan, hstopping, Done.finish]

/-- While a step of the plan is in flight the request waits for the next scheduling point. -/
theorem submit_waits (hstopping : p.stopping = false) (hstep : p.step.isSome = true) : ∃ u : State, u.Took s t fn slot c ∧
    exec (.submit t fn slot (.bytes b)) s = .next ((u.accept fn c p w b).1.complete fn slot c.id stOk 0 (u.accept fn c p w b).2) := by
  obtain ⟨u, hu, hrun⟩ := runOwn_due rfl rfl hdue t
  refine ⟨u, hu, ?_⟩
  have hplan : (u.accept fn c p w b).1.plan p.img.id = some p := by
    rw [plan_congr ((accept_kept (L := [.free, .reqs, .host, .keep]) (.refl u) fn c p w b (by decide)).frame .plans (by decide)), hu.plan, hplan]
  rw [exec_submit, execSubmit, hrun]
  simp only [hu.submitCheck, hcheck, hu.keep, hentropy, Bool.not_true, Bool.and_false, Bool.false_eq_true, if_false, State.dmaRead, hu.busMaster,
    hmaster, if_true, fetchBytes, hplan, hstopping, Option.isNone_eq_false_iff.2 hstep, Bool.false_and, Done.finish]

end

end

/-! ### CANCEL (08 R250) -/

/-- The request with its CANCEL pending. -/
def Req.cancelled (r : Req) : Req := { r with cancel := true }

section
variable (hdue : s.due (.cancel t fn slot) fn slot c)
include hdue

theorem cancel_unknown (hreq : s.req fn (c.arg 0 4) = none) : ∃ u : State, u.Took s t fn slot c ∧
    exec (.cancel t fn slot) s = .next (u.complete fn slot c.id stBadArg 0 []) := by
  obtain ⟨-, u, hu, hrun⟩ := runCmd_due rfl hdue t
  refine ⟨u, hu, ?_⟩
  rw [exec_cancel, execCancel, hrun]
  simp only [hu.req, hreq, Done.finish]

variable (hreq : s.req fn (c.arg 0 4) = some r) (hremoved : r.removed = false)
include hreq hremoved

theorem cancel_pending (hslot : r.slot = none) (hplan : s.plan r.plan = some p) : ∃ u : State, u.Took s t fn slot c ∧
    exec (.cancel t fn slot) s = .next ((u.retire p r stOk 3).complete fn slot c.id stOk 0 []) := by
  obtain ⟨-, u, hu, hrun⟩ := runCmd_due rfl hdue t
  refine ⟨u, hu, ?_⟩
  rw [exec_cancel, execCancel, hrun]
  simp only [hu.req, hreq, hremoved, Bool.false_eq_true, if_false, hslot, hu.plan, hplan, Done.finish]

/-- A CANCEL of a placed request waits for the next scheduling point. -/
theorem cancel_placed (hslot : r.slot.isSome = true) : ∃ u : State, u.Took s t fn slot c ∧
    exec (.cancel t fn slot) s = .next ((u.modReq fn r.id Req.cancelled).complete fn slot c.id stOk 0 []) := by
  obtain ⟨-, u, hu, hrun⟩ := runCmd_due rfl hdue t
  obtain ⟨i, hi⟩ := Option.isSome_iff_exists.1 hslot
  refine ⟨u, hu, ?_⟩
  rw [exec_cancel, execCancel, hrun]
  simp only [hu.req, hreq, hremoved, Bool.false_eq_true, if_false, hi, Done.finish]
  rfl

end

theorem req_spec {f i : Nat} (h : s.req f i = some r) : r.fn = f ∧ r.id = i := by
  simpa using List.find?_some h

theorem req_dropReq (s : State) (r : Req) : (s.dropReq r).req r.fn r.id = none := by
  rw [State.req, List.find?_eq_none]
  intro q hq hmatch
  obtain ⟨-, hout⟩ := List.mem_filter.1 hq
  rw [hmatch] at hout
  exact nomatch hout

/-- An update of the request of a number, which keeps the number, is one of the request found there. -/
theorem req_modReq {f i : Nat} {g : Req → Req} (hg : ∀ q, (g q).fn = q.fn ∧ (g q).id = q.id) : (s.modReq f i g).req f i = (s.req f i).map g := by
  unfold State.req State.modReq
  dsimp only
  induction s.reqs with
  | nil => rfl
  | cons q l ih =>
    obtain ⟨hfn, hid⟩ := hg q
    by_cases hq : q.fn = f ∧ q.id = i
    · simp [hq, hfn, hid]
    · simp only [List.map_cons, if_neg hq]
      rw [List.find?_cons_of_neg (by simpa using hq), List.find?_cons_of_neg (by simpa using hq), ih]

/-- The record of a request that ends before it is placed names it, with the status and reason of its end (08 R249). -/
theorem retire_record (hslot : r.slot = none) (hmay : s.mayWrite r.fn = true) (status reason : Nat) :
    ∃ record, .hostWrite r.fn r.outAddr record (s.streamOf r.fn) ∈ (s.retire p r status reason).out ∧
      natAt record 0 4 = r.id % 2 ^ 32 ∧ natAt record 4 1 = status % 256 ∧ natAt record 5 1 = reason % 256 := by
  obtain ⟨⟨v, q⟩, given, first, hkept, rfl, hretire⟩ := retire_waiting (p := p) (s := s) hslot status reason
  have hhost : v.host = s.host := hkept.frame .host (by decide)
  have hkeep : v.keep = s.keep := hkept.frame .keep (by decide)
  have hstream : v.streamOf r.fn = s.streamOf r.fn := by rw [State.streamOf, State.streamOf, hkeep]
  have hmay : v.mayWrite r.fn = true := by rwa [State.mayWrite, hhost]
  rw [hretire, ← hstream]
  exact ⟨_, recorded_written (r := { r with given := given, tFirst := first }) hmay status reason 0,
    record_id _ _ _ _ _ _, record_status _ _ _ _ _ _, record_reason _ _ _ _ _ _⟩

theorem retire_req (s : State) (p : Loaded) (r : Req) (status reason : Nat) : (s.retire p r status reason).req r.fn r.id = none := by
  obtain ⟨given, first, hq⟩ := delivered_snd s p r reason
  rw [retire_eq]
  dsimp only
  rw [hq]
  exact req_dropReq _ { r with given := given, tFirst := first }

/-! ### PREFIX_KEEP and PREFIX_DROP (07 R214, R215; 11 R317) -/

section
variable (hdue : s.due (.prefixKeep t fn slot) fn slot c)
include hdue

theorem prefixKeep_unknown (hreq : s.req fn (c.arg 0 4) = none) : ∃ u : State, u.Took s t fn slot c ∧
    exec (.prefixKeep t fn slot) s = .next (u.complete fn slot c.id stBadArg 0 []) := by
  obtain ⟨-, u, hu, hrun⟩ := runCmd_due rfl hdue t
  refine ⟨u, hu, ?_⟩
  rw [exec_prefixKeep, execPrefixKeep, hrun]
  simp only [hu.req, hreq, Done.finish]

section
variable {i : Nat} (hreq : s.req fn (c.arg 0 4) = some r) (hremoved : r.removed = false) (hslot : r.slot = some i) (hplan : s.plan r.plan = some p)
include hreq hremoved hslot hplan

theorem prefixKeep_spread (hothers : s.othersOf p ≠ []) : ∃ u : State, u.Took s t fn slot c ∧
    exec (.prefixKeep t fn slot) s = .next (u.complete fn slot c.id stRefused 0 []) := by
  obtain ⟨-, u, hu, hrun⟩ := runCmd_due rfl hdue t
  refine ⟨u, hu, ?_⟩
  rw [exec_prefixKeep, execPrefixKeep, hrun]
  simp only [hu.req, hreq, hslot, hu.plan, hplan, hremoved, Bool.false_eq_true, if_false, hu.othersOf, hothers, not_false_eq_true, ne_eq, if_true,
    Done.finish]

variable {k q n : Nat} (hothers : s.othersOf p = []) (hseq : s.slotSeq p i = some (k, q))
  (hn : n = if c.arg 4 4 = 0 then (s.seqOf k q).commit else c.arg 4 4) (hentropy : s.keep.entropyOk = true)
include hothers hseq hn

/-- A count that is 0 or goes beyond what is committed. -/
theorem prefixKeep_miscounts (hbad : n = 0 ∨ (s.seqOf k q).commit < n) : ∃ u : State, u.Took s t fn slot c ∧
    exec (.prefixKeep t fn slot) s = .next (u.complete fn slot c.id stBadArg 0 []) := by
  obtain ⟨-, u, hu, hrun⟩ := runCmd_due rfl hdue t
  have hentry : mget ({} : SeqEnt) (s.ctx k).seqs q = s.seqOf k q := rfl
  refine ⟨u, hu, ?_⟩
  rw [exec_prefixKeep, execPrefixKeep, hrun]
  simp only [hu.req, hreq, hslot, hu.plan, hplan, hremoved, Bool.false_eq_true, if_false, hu.othersOf, hothers, ne_eq, not_true_eq_false, hu.slotSeq,
    hseq, hu.ctx, hentry, ← hn, hbad, if_true, Done.finish]

include hentropy

/-- A count within what is committed: the positions are kept, or the table or the ring has no room. -/
theorem prefixKeep_tries (hpos : 0 < n) (hle : n ≤ (s.seqOf k q).commit) : ∃ u : State, u.Took s t fn slot c ∧
    (u.keepPrefix k q n none = none → exec (.prefixKeep t fn slot) s = .next (u.complete fn slot c.id stRefused 0 [])) ∧
    ∀ v h, u.keepPrefix k q n none = some (v, h) → exec (.prefixKeep t fn slot) s = .next (v.complete fn slot c.id stOk 0 (leBytes 8 h)) := by
  obtain ⟨-, u, hu, hrun⟩ := runCmd_due rfl hdue t
  have hentry : mget ({} : SeqEnt) (s.ctx k).seqs q = s.seqOf k q := rfl
  have hgood : ¬(n = 0 ∨ (s.seqOf k q).commit < n) := by omega
  refine ⟨u, hu, ?_⟩
  rw [exec_prefixKeep, execPrefixKeep, hrun]
  simp only [hu.req, hreq, hslot, hu.plan, hplan, hremoved, Bool.false_eq_true, if_false, hu.othersOf, hothers, ne_eq, not_true_eq_false, hu.slotSeq,
    hseq, hu.ctx, hentry, ← hn, hgood, hu.keep, hentropy, Bool.not_true]
  exact ⟨fun hnone => by rw [hnone]; rfl, fun v h hsome => by rw [hsome]; rfl⟩

end

end

section
variable (hdue : s.due (.prefixDrop t fn slot) fn slot c)
include hdue

theorem prefixDrop_unknown (hprefix : s.prefixOf fn (c.arg 0 8) = none) : ∃ u : State, u.Took s t fn slot c ∧
    exec (.prefixDrop t fn slot) s = .next (u.complete fn slot c.id stBadArg 0 []) := by
  obtain ⟨-, u, hu, hrun⟩ := runCmd_due rfl hdue t
  refine ⟨u, hu, ?_⟩
  rw [exec_prefixDrop, execPrefixDrop, hrun]
  simp only [hu.prefixOf, hprefix, Done.finish]

theorem prefixDrop_drops {i : Nat} {x : Prefix} (hprefix : s.prefixOf fn (c.arg 0 8) = some (i, x)) : ∃ u : State, u.Took s t fn slot c ∧
    exec (.prefixDrop t fn slot) s = .next ((u.dropPrefix i x).complete fn slot c.id stOk 0 []) := by
  obtain ⟨-, u, hu, hrun⟩ := runCmd_due rfl hdue t
  refine ⟨u, hu, ?_⟩
  rw [exec_prefixDrop, execPrefixDrop, hrun]
  simp only [hu.prefixOf, hprefix, Done.finish]

end

end Sys2Proof.Machine

namespace Sys2Proof

open Machine

/-- Settles O51: every command is taken and does its own work, which leaves the command slots alone; whether positions can be kept rests on the
table of prefixes and the free ring, which taking a command does not touch. -/
theorem requestsAreAcceptedCancelledAndKept : Obligations.RequestsAreAcceptedCancelledAndKept := by
  unfold Obligations.RequestsAreAcceptedCancelledAndKept
  intro t fn slot b p r c s submit cancel keep drop
  refine ⟨fun hdue => ⟨fun st d hcheck => ?_, fun w hcheck hplan hstopping hentropy hmaster => ?_, fun w hcheck hplan hstopping hstep hentropy =>
      ⟨fun hmaster => ?_, fun hmaster => ?_⟩⟩,
    fun hdue => ⟨fun hreq => ?_, fun hreq hremoved => ⟨fun hslot hplan => ?_, fun hslot => ?_⟩⟩,
    fun hdue => ⟨fun i hreq hremoved hslot hplan => ⟨fun hothers => ?_, fun k q n hothers hseq hn hentropy => ⟨fun hbad => ?_, fun hpos hle =>
      ⟨fun hnone => ?_, fun hsome => ?_⟩⟩⟩, fun hreq => ?_⟩,
    fun hdue => ⟨fun hprefix => ?_, fun i x hprefix => ?_⟩⟩
  · obtain ⟨u, hu, hexec⟩ := submit_fails hdue hcheck
    have hanswered := worked_answered hu rfl st d []
    simp only [submitCheck_status hcheck, or_false] at hanswered
    exact next_of_eq hexec ⟨hanswered, (complete_same (f := .reqs) u _ _ _ _ _ _ (by decide)).trans hu.reqs⟩
  · obtain ⟨u, hu, hexec⟩ := submit_stopping hdue hcheck hentropy hmaster hplan hstopping
    obtain ⟨-, -, -, -, -, -, hslots⟩ := accept_accepts u fn c p w b
    refine next_of_eq hexec ⟨⟨_, worked_answered hu ((endRequests_slots _ p stStale 6).trans hslots) stOk 0 _⟩, ?_⟩
    rw [complete_same (f := .reqs) _ _ _ _ _ _ _ (by decide)]
    exact endRequests_reqs _ p stStale 6
  · obtain ⟨u, hu, hexec⟩ := submit_unread hdue hcheck hentropy hmaster
    exact next_of_eq hexec ⟨worked_answered hu rfl stRefused 0 [], (complete_same (f := .reqs) u _ _ _ _ _ _ (by decide)).trans hu.reqs⟩
  · obtain ⟨u, hu, hexec⟩ := submit_waits hdue hcheck hentropy hmaster hplan hstopping hstep
    obtain ⟨q, seed, hq, hreqs, hresult, hlast, hslots⟩ := accept_accepts u fn c p w b
    have hlast' : mget 0 ((u.accept fn c p w b).1.complete fn slot c.id stOk 0 (u.accept fn c p w b).2).host.lastReq fn = q.id :=
      (congrArg (fun x : HostIf => mget 0 x.lastReq fn) (complete_unmailed _ _ _ _ _ _ _) :).trans hlast
    refine next_of_eq hexec ⟨q, seed, ?_, hresult ▸ worked_answered hu hslots stOk 0 _, hq.seed, hq.given, hlast', ?_, hq.fn, hq.plan, hq.slot, hq.cls,
      hq.outAddr, hq.outLen, hq.maxTok, hq.keepN, hq.tag, hq.input, hq.prompt, hu.mtime ▸ hq.tAccept, hq.handle, hu.mtime ▸ hq.deadline⟩
    · rw [complete_same (f := .reqs) _ _ _ _ _ _ _ (by decide), hreqs, hu.reqs]
    · rw [hq.id, hu.lastReq]
      rfl
  · obtain ⟨u, hu, hexec⟩ := cancel_unknown hdue hreq
    exact next_of_eq hexec ⟨completed_answered hu rfl stBadArg, (complete_same (f := .reqs) u _ _ _ _ _ _ (by decide)).trans hu.reqs⟩
  · obtain ⟨u, hu, hexec⟩ := cancel_pending hdue hreq hremoved hslot hplan
    obtain ⟨rfl, hid⟩ := req_spec hreq
    refine next_of_eq hexec ⟨worked_answered hu (retire_slots u p r stOk 3) stOk 0 [], ?_, fun hmaster hlink => ?_⟩
    · rw [complete_req, ← hid]
      exact retire_req u p r stOk 3
    · have hmay : u.mayWrite r.fn = true := (hu.mayWrite r.fn).trans (Bool.and_eq_true_iff.2 ⟨hmaster, hlink⟩)
      obtain ⟨record, hwritten, hrecord⟩ := retire_record (p := p) hslot hmay stOk 3
      rw [hu.streamOf] at hwritten
      exact ⟨record, (complete_kept (L := [.host, .out]) (.refl _) _ _ _ _ _ _ (by decide)).out.mem hwritten, hrecord⟩
  · obtain ⟨u, hu, hexec⟩ := cancel_placed hdue hreq hremoved hslot
    obtain ⟨-, hid⟩ := req_spec hreq
    refine next_of_eq hexec ⟨completed_answered (v := u.modReq fn r.id Req.cancelled) hu rfl stOk, ?_,
      (complete_same (f := .plans) _ _ _ _ _ _ _ (by decide)).trans hu.plans⟩
    rw [← hid] at hreq ⊢
    rw [complete_req, req_modReq (g := Req.cancelled) fun _ => ⟨rfl, rfl⟩, hu.req, hreq]
    rfl
  · obtain ⟨u, hu, hexec⟩ := prefixKeep_spread hdue hreq hremoved hslot hplan hothers
    exact next_of_eq hexec ⟨completed_answered hu rfl stRefused, (complete_same (f := .prefixes) u _ _ _ _ _ _ (by decide)).trans hu.prefixes⟩
  · obtain ⟨u, hu, hexec⟩ := prefixKeep_miscounts hdue hreq hremoved hslot hplan hothers hseq hn hbad
    exact next_of_eq hexec ⟨completed_answered hu rfl stBadArg, (complete_same (f := .prefixes) u _ _ _ _ _ _ (by decide)).trans hu.prefixes⟩
  · obtain ⟨u, hu, hrefused, -⟩ := prefixKeep_tries hdue hreq hremoved hslot hplan hothers hseq hn hentropy hpos hle
    have hfull : u.keepPrefix k q n none = none := by
      rw [← Option.isNone_iff_eq_none, ← Option.not_isSome, keepPrefix_isSome_mailbox hu.mailbox, hnone]
      rfl
    exact next_of_eq (hrefused hfull) ⟨completed_answered hu rfl stRefused,
      (complete_same (f := .prefixes) u _ _ _ _ _ _ (by decide)).trans hu.prefixes⟩
  · obtain ⟨u, hu, -, hkept⟩ := prefixKeep_tries hdue hreq hremoved hslot hplan hothers hseq hn hentropy hpos hle
    have hroom : (u.keepPrefix k q n none).isSome = true := by
      rw [keepPrefix_isSome_mailbox hu.mailbox]
      exact Option.isSome_iff_ne_none.2 hsome
    obtain ⟨⟨v, h⟩, hv⟩ := Option.isSome_iff_exists.1 hroom
    obtain ⟨idx, x, hx⟩ := keepPrefix_some hv
    have hprefixes (j : Nat) : mget none (v.complete fn slot c.id stOk 0 (leBytes 8 h)).prefixes j =
        if j = h % 65536 then some x else mget none s.prefixes j := by
      rw [complete_same (f := .prefixes) v _ _ _ _ _ _ (by decide), hx.prefixes, hx.index, hu.prefixes, mget_mset]
    refine next_of_eq (hkept v h hv) ⟨h, x, worked_answered hu (slots_of_settled hx.settled) stOk 0 _, ?_, ?_,
      hx.count, hx.die, ?_, fun j hj => ?_⟩
    · rw [hx.index, ← hu.prefixes]
      exact hx.free
    · rw [hprefixes, if_pos rfl]
    · rw [hx.tenant, State.seqOf, hu.ctx, ← State.seqOf]
    · rw [hprefixes, if_neg hj]
  · obtain ⟨u, hu, hexec⟩ := prefixKeep_unknown hdue hreq
    exact next_of_eq hexec ⟨completed_answered hu rfl stBadArg, (complete_same (f := .prefixes) u _ _ _ _ _ _ (by decide)).trans hu.prefixes⟩
  · obtain ⟨u, hu, hexec⟩ := prefixDrop_unknown hdue hprefix
    exact next_of_eq hexec ⟨completed_answered hu rfl stBadArg, (complete_same (f := .prefixes) u _ _ _ _ _ _ (by decide)).trans hu.prefixes⟩
  · obtain ⟨u, hu, hexec⟩ := prefixDrop_drops hdue hprefix
    have hhost : (u.dropPrefix i x).host = u.host := (dropPrefix_kept (L := [.ctx0, .ctx1, .prefixes]) (.refl u) i x (by decide)).frame .host (by decide)
    refine next_of_eq hexec ⟨completed_answered hu hhost stOk, fun j => ?_⟩
    rw [complete_same (f := .prefixes) _ _ _ _ _ _ _ (by decide), dropPrefix_prefixes, hu.prefixes, mget_mset]

end Sys2Proof
end

section
/-! SUPPORT. The weight library's store: the directory after an update, how WEIGHTS_INSTALL passes its checks, and how an install or an erase ends
(09 R257, R261–R263, R274). -/

namespace Sys2Proof.Machine

/-! ### The directory (09 R257) -/

/-- A directory update is in force at once: the copy written is the newer one. -/
theorem dir_update (x : Store) (f : SMap (Option DirEnt) → SMap (Option DirEnt)) : (x.update f).dir = f x.dir := by
  unfold Store.update
  dsimp only
  split
  · have hfirst : ¬max x.seq0 x.seq1 + 1 < x.seq1 := by omega
    simp [Store.dir, Store.second, hfirst]
  · have hsecond : x.seq0 < max x.seq0 x.seq1 + 1 := by omega
    simp [Store.dir, Store.second, hsecond]

/-- The entries are read from the directory in force. -/
theorem entry_congr {x y : Store} {j : Nat} (h : mget none x.dir j = mget none y.dir j) : x.entry j = y.entry j := by
  rw [Store.entry, Store.entry, h]

theorem entry_free {x : Store} {i : Nat} (h : mget none x.dir i = none) : x.entry i = none := by
  rw [Store.entry, h]

theorem freeEntry_free {x : Store} {i : Nat} (h : x.freeEntry = some i) : mget none x.dir i = none := by
  simpa using List.find?_some h

/-- The store once entry `i` holds this. -/
def Store.put (x : Store) (i : Nat) (e : Option DirEnt) : Store := x.update fun d => mset none d i e

theorem dir_put (x : Store) (i : Nat) (e : Option DirEnt) (j : Nat) :
    mget none (x.put i e).dir j = if j = i then e else mget none x.dir j := by
  rw [Store.put, dir_update, mget_mset]

theorem entry_put_other (x : Store) {i j : Nat} (h : j ≠ i) (e : Option DirEnt) : (x.put i e).entry j = x.entry j :=
  entry_congr ((dir_put x i e j).trans (if_neg h))

/-- Only an entry in STATE 2 is a stored set. -/
theorem entry_put_stored (x : Store) (i : Nat) {e : DirEnt} (h : e.st = 2) : (x.put i (some e)).entry i = some e := by
  rw [Store.entry, dir_put, if_pos rfl]
  exact if_pos h

theorem entry_put_none (x : Store) (i j : Nat) : (x.put i none).entry j = if j = i then none else x.entry j := by
  split
  · rename_i h
    exact entry_free ((dir_put x i none j).trans (if_pos h))
  · exact entry_put_other x ‹_› none

/-- An entry that was free, written and freed again leaves the stored sets as they were. -/
theorem entry_put_free {x : Store} {i : Nat} (h : x.freeEntry = some i) (e : Option DirEnt) (j : Nat) :
    ((x.put i e).put i none).entry j = x.entry j := by
  rw [entry_put_none]
  split
  · rename_i hj
    rw [hj, entry_free (freeEntry_free h)]
  · exact entry_put_other x ‹_› e

/-! ### Taking a WEIGHTS_INSTALL (09 R261) -/

variable {s u v : State} {t fn slot : Nat} {c : Cmd}

/-- A command is taken only while Novko runs. -/
theorem posted_novkoUp (h : s.posted fn slot = some c) : s.novkoUp = true := by
  unfold State.posted at h
  split at h
  · rename_i hup
    simp only [State.mailboxUp, Mode.management, Bool.and_eq_true] at hup
    simp only [State.novkoUp, Bool.and_eq_true]
    tauto
  · exact nomatch h

theorem due_novkoUp {i : Instr} (h : s.due i fn slot c) : s.novkoUp = true := by
  obtain ⟨m, ⟨-, hposted, -, -⟩, -, -, -⟩ := h
  exact posted_novkoUp hposted

section
variable (h : u.Took s t fn slot c)
include h

theorem State.Took.weights : u.weights = s.weights := h.mailbox.frame .weights (by decide)

theorem State.Took.store : u.store = s.store := h.mailbox.frame .store (by decide)

theorem State.Took.snags : u.snags = s.snags := h.mailbox.frame .snags (by decide)

theorem State.Took.authOk (a : Auth) (action : Nat) : u.authOk a action = (s.tick t).authOk a action := by
  rw [h.mailbox.mailbox_eq, h.now]
  rfl

end

/-- A taken command that is refused at once does nothing else. -/
theorem State.Took.refuses (h : u.Took s t fn slot c) (status detail : Nat) (hstatus : status ≠ stFault) :
    let x := u.complete fn slot c.id status detail []
    x.answered fn slot c status (if status = stRefused then detail else 0) [] ∧ x.weights = s.weights ∧ x.store = s.store := by
  have hanswered := worked_answered h rfl status detail []
  simp only [hstatus, or_false] at hanswered
  exact ⟨hanswered, (complete_same (f := .weights) u _ _ _ _ _ _ (by decide)).trans h.weights,
    (complete_same (f := .store) u _ _ _ _ _ _ (by decide)).trans h.store⟩

/-- READY, from the PF, with no other store operation in progress (09 R261, checks 1 to 4). -/
def State.installable (s : State) (fn : Nat) : Prop := s.mode = .ready ∧ fn = 0 ∧ s.weights.sel = none ∧ s.weights.startQ = []

/-- A form of WEIGHTS_INSTALL, by its SUBOP (11 R312, R314). -/
def installRow (fn slot : Nat) (form : Nat → Bool) : MailRow :=
  { fn, slot, op := 0x20, form := fun c => form (c.arg 0 1), row := { pf := true, states := [] },
    args := (·.onlyArgs [(0, 1), (2, 2), (8, 24)]), own := true }

/-- NONCE takes SUBOP 0 and, to refuse them, the reserved ones. -/
theorem mailbox_installNonce : (Instr.weightsInstallNonce t fn slot).mailbox = some (installRow fn slot fun k => k == 0 || decide (2 < k)) := by
  have hform (k : Nat) : (k != 1 && k != 2) = (k == 0 || decide (2 < k)) := by
    rw [Bool.eq_iff_iff]
    simp
    omega
  simp only [Instr.mailbox, installRow, hform]

section
variable {i : Instr} {form : Nat → Bool} (hm : i.mailbox = some (installRow fn slot form)) (hdue : s.due i fn slot c)
include hm hdue

/-- The first of checks 1 to 4 that fails gives the answer, and nothing else is done. -/
theorem installCmd_refused (hnot : ¬s.installable fn) (spare : Cmd → Bool) (body : State → Cmd → Done) :
    let u := (s.tick t).installCmd fn slot form spare body
    let busy := s.mode = .recovering ∨ s.weights.sel.isSome = true ∨ s.weights.startQ ≠ []
    u.answered fn slot c (if s.mode = .withdrawn then 8 else if fn ≠ 0 then 4 else if busy then 5 else 2)
      (if s.mode ≠ .withdrawn ∧ fn = 0 ∧ ¬busy then 4 else 0) [] ∧ u.weights = s.weights ∧ u.store = s.store := by
  obtain ⟨v, hv, hrun⟩ := runOwn_due hm rfl hdue t
  dsimp only
  rw [State.installCmd, hrun]
  simp only [hv.mode, hv.weights]
  by_cases hwithdrawn : s.mode = .withdrawn
  · simp only [hwithdrawn, if_true, ne_eq, not_true_eq_false, false_and, if_false]
    exact hv.refuses stWithdrawn 0 (by decide)
  by_cases hfn : fn = 0
  · by_cases hbusy : s.mode = .recovering ∨ s.weights.sel.isSome = true ∨ s.weights.startQ ≠ []
    · simp only [hwithdrawn, hfn, hbusy, if_true, if_false, not_true_eq_false, and_false, ne_eq]
      exact hfn ▸ hv.refuses stBusy 0 (by decide)
    · have hready : s.mode ≠ .ready := fun hmode => hnot ⟨hmode, hfn, by simpa [hmode] using hbusy⟩
      simp only [hwithdrawn, hfn, hbusy, hready, if_true, if_false, not_false_eq_true, not_true_eq_false, and_self, ne_eq]
      exact hfn ▸ hv.refuses stRefused 4 (by decide)
  · simp only [hwithdrawn, hfn, if_true, if_false, not_false_eq_true, false_and, and_false, ne_eq]
    exact hv.refuses stNotPerm 0 (by decide)

theorem due_subop : form (c.arg 0 1) = true := by
  obtain ⟨m, ⟨hm', -, -, hform⟩, -, -, -⟩ := hdue
  obtain rfl := Option.some.inj (hm.symm.trans hm')
  exact hform

/-- Past its checks the sub-operation does its own work. -/
theorem installCmd_runs (hready : s.installable fn) (hsub : c.arg 0 1 ≤ 2) : ∃ u : State, u.Took s t fn slot c ∧
    ∀ spare body, spare c = true → (s.tick t).installCmd fn slot form spare body = (body u c).finish fn slot c := by
  obtain ⟨hmode, rfl, hsel, hstart⟩ := hready
  obtain ⟨u, hu, hrun⟩ := runOwn_due hm rfl hdue t
  refine ⟨u, hu, fun spare body hspare => ?_⟩
  rw [State.installCmd, hrun]
  simp [hu.mode, hu.weights, hmode, hsel, hstart, Nat.not_lt.2 hsub, hspare]

end

/-! ### How an install or an erase ends (09 R263, R274) -/

theorem snagCtl_slots (s : State) (code sev : Nat) (args : List Nat) : (s.snagCtl code sev args).host.slots = s.host.slots :=
  slots_of_settled (snag_settled s code sev 19 0x7FF args)

/-- An install or an erase has failed check `n`: its nonce is used up, the snag says which check it was, and the stored sets are the same. -/
def State.installFailed (u s : State) (fn slot : Nat) (c : Cmd) (status n : Nat) : Prop :=
  u.answered fn slot c status (if status = 2 ∨ status = 7 then 0x92020000 + n else 0) [] ∧ u.weights.nonce = none ∧
    (∃ r, u.snags = r :: s.snags ∧ r.code = 0x9202 ∧ r.args.head? = some n) ∧ ∀ j, u.store.entry j = s.store.entry j

/-- Work of a taken WEIGHTS_INSTALL that has touched the weight library and the store only, with its nonce used up. -/
structure State.Installing (v u : State) : Prop where
  kept : Kept [.store, .weights] u v
  nonce : v.weights.nonce = none

theorem State.Installing.slots (hv : v.Installing u) : v.host.slots = u.host.slots := congrArg HostIf.slots (hv.kept.frame .host (by decide))

section
variable (hu : u.Took s t fn slot c) (hv : v.Installing u)
include hu hv

theorem State.Installing.novkoUp : v.novkoUp = s.novkoUp := by
  unfold State.novkoUp
  rw [hv.kept.frame .mode (by decide), hv.kept.frame .resil (by decide), hu.mailbox.frame .mode (by decide), hu.mailbox.frame .resil (by decide)]

theorem State.Installing.snags : v.snags = s.snags := (hv.kept.frame .snags (by decide)).trans hu.snags

/-- The work ends with nothing but a snag logged since. -/
theorem State.Installing.ends {w : State} (hw : Kept logged v w) (hslots : w.host.slots = v.host.slots) (status detail : Nat) (result : List Byte) :
    let x := w.complete fn slot c.id status detail result
    x.answered fn slot c status (if status = stRefused ∨ status = stFault then detail else 0) result ∧ x.weights.nonce = none ∧ x.store = v.store := by
  refine ⟨worked_answered hu (hslots.trans hv.slots) status detail result, ?_, ?_⟩
  · rw [complete_same (f := .weights) _ _ _ _ _ _ _ (by decide), hw.frame .weights (by decide), hv.nonce]
  · rw [complete_same (f := .store) _ _ _ _ _ _ _ (by decide), hw.frame .store (by decide)]

theorem installFails_failed (hup : s.novkoUp = true) (hentries : ∀ j, v.store.entry j = s.store.entry j) (status n idx : Nat) :
    ((v.installFails status n idx).finish fn slot c).installFailed s fn slot c status n := by
  have hlogged : (v.snagCtl 0x9202 1 [n, idx]).snags = v.snagRecord 0x9202 1 19 0x7FF [n, idx] :: v.snags :=
    snag_snags v ((hv.novkoUp hu).trans hup) _ _ _ _ _
  obtain ⟨hanswered, hnonce, hstore⟩ := hv.ends hu (snagCtl_kept (.refl v) 0x9202 1 [n, idx] (by decide)) (snagCtl_slots v _ _ _)
    status (0x92020000 + n) []
  refine ⟨hanswered, hnonce, ⟨v.snagRecord 0x9202 1 19 0x7FF [n, idx], ?_, rfl, rfl⟩, fun j => ?_⟩
  · rw [State.installFails, Done.finish, complete_same (f := .snags) _ _ _ _ _ _ _ (by decide), hlogged, hv.snags hu]
  · rw [State.installFails, Done.finish, hstore, hentries]

end

end Sys2Proof.Machine
end

section
/-! SUPPORT. WEIGHTS_INSTALL: nonces, images written and sets erased (09 R261–R263, R274). -/

namespace Sys2Proof.Machine

variable {s u v : State} {t fn slot : Nat} {c : Cmd}

/-! ### NONCE (09 R261) -/

/-- The nonce is drawn, kept with the time and handed out. -/
def State.nonceDrawn (s : State) : State := (s.random 256).1.modWeights fun w => { w with nonce := some (BitVec.ofNat 256 (s.random 256).2, s.now) }

theorem nonceDrawn_host (s : State) : s.nonceDrawn.host = s.host := rfl

theorem nonceDrawn_weights (s : State) :
    s.nonceDrawn.weights = { s.weights with nonce := some (BitVec.ofNat 256 (s.random 256).2, s.now) } := rfl

theorem installNonce_draws (hdue : s.due (.weightsInstallNonce t fn slot) fn slot c) (hready : s.installable fn) (hsub : c.arg 0 1 = 0)
    (hindex : c.arg 2 2 = 0) (hspare : c.arg 8 24 = 0) (hentropy : s.keep.entropyOk = true) : ∃ u : State, u.Took s t fn slot c ∧
    exec (.weightsInstallNonce t fn slot) s = .next (u.nonceDrawn.complete fn slot c.id stOk 0 (leBytes 32 (u.random 256).2)) := by
  obtain ⟨u, hu, hrun⟩ := installCmd_runs mailbox_installNonce hdue hready (by omega)
  refine ⟨u, hu, ?_⟩
  rw [exec_weightsInstallNonce, execWeightsInstallNonce, hrun _ _ (by simp [hindex, hspare])]
  simp only [hu.keep, hentropy, Bool.not_true, Bool.false_eq_true, if_false]
  rfl

theorem installNonceExpiry_expires {n : BitVec 256 × Nat} (h : s.weights.nonce = some n) : Next (exec (.installNonceExpiry t) s) fun u =>
    u.weights.nonce = if n.2 + 60000000000 ≤ max s.now t then none else some n := by
  refine ⟨_, rfl, ?_⟩
  have htick : (s.tick t).weights.nonce = some n := h
  have hnow : (s.tick t).now = max s.now t := rfl
  simp only [htick, hnow]
  split
  · rfl
  · exact htick

/-! ### WRITE (09 R263) -/

/-- The authorisation object has been checked: the nonce is used up (09 R261). -/
def State.nonceUsed (s : State) : State := s.modWeights fun w => { w with nonce := none }

theorem nonceUsed_installing (u : State) : u.nonceUsed.Installing u := ⟨modWeights_kept (.refl u) _ (by decide), rfl⟩

/-- The store as the sub-operation leaves it. -/
theorem State.Installing.withStore (h : v.Installing u) (x : Store) : State.Installing { v with store := x } u :=
  ⟨Kept.same h.kept (changed (a := [.store]) (by decide)), h.nonce⟩

/-- What a read error has left is taken note of (09 R256). -/
def State.errorTaken (s : State) : State := s.modWeights fun w => { w with checkErr := false }

theorem State.Installing.errorTaken (h : v.Installing u) : v.errorTaken.Installing u :=
  ⟨modWeights_kept h.kept _ (by decide), h.nonce⟩

/-- The header of an image is in order (09 R263 check 2). -/
def imgFormed (g : WImage) : Prop :=
  g.magic = 0x54455357 ∧ g.format = 1 ∧ g.rsv = 0 ∧ 0 < g.nPanels ∧ g.nPanels ≤ 36864 ∧ g.slice < g.slices

theorem imgFormed_iff (g : WImage) : imgFormed g ↔ ¬(g.magic ≠ 0x54455357 ∨ g.format ≠ 1 ∨
    (decide (g.rsv ≠ 0) || g.nPanels == 0 || decide (36864 < g.nPanels) || decide (g.slices ≤ g.slice)) = true) := by
  unfold imgFormed
  generalize g.rsv = r
  simp only [ne_eq, not_or, not_not, Bool.or_eq_true, decide_eq_true_eq, beq_iff_eq, not_lt, not_le, Nat.pos_iff_ne_zero, and_assoc]

section
variable {a : Auth} {g : WImage}

/-- The directory entry of an image is written. -/
def State.written (s : State) (g : WImage) (st first key i seq : Nat) : State :=
  { s with store := s.store.put i (some (dirEntOf g st first key seq)) }

/-- The entry is free again. -/
def State.entryFreed (s : State) (i : Nat) : State := { s with store := s.store.put i none }

/-- The image stands in its run. -/
def State.placed (s : State) (g : WImage) (first : Nat) : State :=
  { s with store := { s.store with lib := mset none s.store.lib first (some g) } }

/-- An install has ended well (09 R263 step 6). -/
def State.installed (s : State) (a : Auth) (g : WImage) (first i : Nat) : State :=
  let v := s.written g 1 first a.key i 0
  (v.written g 2 first a.key i (max v.store.seq0 v.store.seq1 + 1)).placed g first

section
variable (s : State) (a : Auth) (g : WImage) (first i : Nat)

theorem installed_entry : ∃ seq, (s.installed a g first i).store.entry i = some (dirEntOf g 2 first a.key seq) :=
  ⟨_, entry_put_stored _ i rfl⟩

theorem installed_image : (s.installed a g first i).store.image i = g := by
  obtain ⟨seq, hentry⟩ := installed_entry s a g first i
  have hlib : mget none (s.installed a g first i).store.lib first = some g := mget_mset_same first (some g)
  rw [Store.image, hentry, dirEntOf]
  dsimp only
  rw [hlib, Option.getD_some]

theorem installed_other {j : Nat} (h : j ≠ i) : (s.installed a g first i).store.entry j = s.store.entry j :=
  (entry_put_other (s.store.put i _) h _).trans (entry_put_other s.store h _)

end

/-- An install has ended after it had taken an entry, which it frees again. -/
def State.abandoned (s : State) (a : Auth) (g : WImage) (first i : Nat) : State := (s.written g 1 first a.key i 0).entryFreed i

theorem State.Installing.abandoned (h : v.Installing u) (first i : Nat) : (v.abandoned a g first i).Installing u :=
  (h.withStore _).withStore _

theorem State.Installing.installed (h : v.Installing u) (first i : Nat) : (v.installed a g first i).Installing u :=
  ((h.withStore _).withStore _).withStore _

theorem abandoned_entries {i : Nat} (hentry : s.store.freeEntry = some i) (first j : Nat) :
    (s.abandoned a g first i).store.entry j = s.store.entry j := entry_put_free hentry _ j

theorem installWrite_malformed (h : ¬imgFormed g) : s.installWrite a g = s.errorTaken.installFails stBadArg 2 0xFFFF := by
  rw [imgFormed_iff, not_not] at h
  exact if_pos h

section
variable (hform : imgFormed g)
include hform

theorem installWrite_repeated (h : (s.store.byDigest g.setDigest).isSome = true) :
    s.installWrite a g = s.errorTaken.installFails stBadArg 3 0xFFFF :=
  (if_neg ((imgFormed_iff g).1 hform)).trans (if_pos h)

variable (hnew : s.store.byDigest g.setDigest = none)
include hnew

theorem installWrite_unplaced (h : s.store.firstFit (imgBlocks g) = none ∨ s.store.freeEntry = none) :
    s.installWrite a g = s.errorTaken.installFails stRefused 4 0xFFFF := by
  rw [State.installWrite, if_neg ((imgFormed_iff g).1 hform)]
  simp only [State.modWeights_store, hnew, Option.isSome_none, Bool.false_eq_true, if_false]
  split
  · rename_i first i hfirst hentry
    simp [hfirst, hentry] at h
  · rfl

section
variable {first i : Nat} (hfirst : s.store.firstFit (imgBlocks g) = some first) (hentry : s.store.freeEntry = some i)
include hfirst hentry

theorem installWrite_disordered (h : imgRecordsOk g = false) :
    s.installWrite a g = (s.errorTaken.abandoned a g first i).installFails stBadArg 4 i := by
  rw [State.installWrite, if_neg ((imgFormed_iff g).1 hform)]
  simp only [State.modWeights_store, hnew, Option.isSome_none, Bool.false_eq_true, if_false, hfirst, hentry, h, Bool.not_false, if_true]
  rfl

variable (hrecords : imgRecordsOk g = true)
include hrecords

theorem installWrite_mismatched (h : ¬(imgDigestsOk g = true ∧ g.setDigest = a.setDigest ∧ s.weights.checkErr = false)) :
    s.installWrite a g = (s.errorTaken.abandoned a g first i).installFails stFault 5 i := by
  have hbad : (s.weights.checkErr || !imgDigestsOk g || g.setDigest != a.setDigest) = true := by
    by_contra hgood
    simp only [Bool.or_eq_true, Bool.not_eq_true', bne_iff_ne, ne_eq, not_or, not_not, Bool.not_eq_true, Bool.not_eq_false] at hgood
    exact h ⟨hgood.1.2, hgood.2, hgood.1.1⟩
  rw [State.installWrite, if_neg ((imgFormed_iff g).1 hform)]
  simp only [State.modWeights_store, hnew, Option.isSome_none, Bool.false_eq_true, if_false, hfirst, hentry, hrecords, Bool.not_true, hbad, if_true]
  rfl

theorem installWrite_installs (hdigests : imgDigestsOk g = true) (hset : g.setDigest = a.setDigest) (hread : s.weights.checkErr = false) :
    s.installWrite a g = .comp ((s.errorTaken.installed a g first i).snagCtl 0x9201 0 [i, first, imgBlocks g, fld g.setDigest 0 64]) stOk 0
      (leBytes 2 i) := by
  have hgood : (s.weights.checkErr || !imgDigestsOk g || g.setDigest != a.setDigest) = false := by simp [hdigests, hset, hread]
  rw [State.installWrite, if_neg ((imgFormed_iff g).1 hform)]
  simp only [State.modWeights_store, hnew, Option.isSome_none, Bool.false_eq_true, if_false, hfirst, hentry, hrecords, Bool.not_true, hgood]
  rfl

end

end

section
variable {x : Fetch WImage} (hdue : s.due (.weightsInstallWrite t fn slot (.got a) x) fn slot c) (hready : s.installable fn)
  (hmaster : mget false s.host.busMaster fn = true) (hindex : c.arg 2 2 = 0)
include hdue hready hmaster hindex

/-- The authorisation object is read and checked, which uses the nonce up, before the image is read. -/
theorem installWrite_reads : ∃ u : State, u.Took s t fn slot c ∧ mget false u.host.busMaster fn = true ∧ ∀ y,
    exec (.weightsInstallWrite t fn slot (.got a) y) s = .next (Done.finish fn slot c
      (if u.authOk a 1 then u.nonceUsed.dmaRead fn c (c.arg 8 8) y fun s g => s.installWrite a g else u.nonceUsed.installFails stNotPerm 1 0xFFFF)) := by
  have hsub : c.arg 0 1 = 1 := by simpa using due_subop (form := (· == 1)) rfl hdue
  obtain ⟨u, hu, hrun⟩ := installCmd_runs (form := (· == 1)) rfl hdue hready (by omega)
  refine ⟨u, hu, by rw [hu.busMaster]; exact hmaster, fun y => ?_⟩
  rw [exec_weightsInstallWrite, execWeightsInstallWrite, hrun _ _ (by simp [hindex])]
  simp only [State.dmaRead, hu.busMaster, hmaster, if_true]
  cases u.authOk a 1
  · rfl
  · simp only [Bool.not_true, Bool.false_eq_true, if_false, if_true]
    rfl

/-- An object that does not verify ends the install before the image is read. -/
theorem installWrite_unauthorised (hauth : (s.tick t).authOk a 1 = false) (y : Fetch WImage) : ∃ u v : State, u.Took s t fn slot c ∧
    v.Installing u ∧ v.store = s.store ∧ exec (.weightsInstallWrite t fn slot (.got a) y) s = .next ((v.installFails stNotPerm 1 0xFFFF).finish fn slot c) := by
  obtain ⟨u, hu, -, hexec⟩ := installWrite_reads hdue hready hmaster hindex
  rw [← hu.authOk] at hauth
  exact ⟨u, u.nonceUsed, hu, nonceUsed_installing u, hu.store, (hexec y).trans (by simp only [hauth, Bool.false_eq_true, if_false])⟩

/-- Past its check the object has left nothing but the nonce behind, and the image is read. -/
theorem installWrite_authorised (hauth : (s.tick t).authOk a 1 = true) : ∃ u v : State, u.Took s t fn slot c ∧ v.Installing u ∧ v.store = s.store ∧
    v.weights.checkErr = s.weights.checkErr ∧ exec (.weightsInstallWrite t fn slot (.got a) (.got g)) s = .next ((v.installWrite a g).finish fn slot c) := by
  obtain ⟨u, hu, hmaster, hexec⟩ := installWrite_reads hdue hready hmaster hindex
  have hread : mget false u.nonceUsed.host.busMaster fn = true := hmaster
  rw [← hu.authOk] at hauth
  exact ⟨u, u.nonceUsed, hu, nonceUsed_installing u, hu.store, (congrArg Weights.checkErr hu.weights :),
    (hexec _).trans (by simp only [hauth, if_true, State.dmaRead, hread])⟩

end

/-! ### ERASE (09 R263) -/

/-- The entry of a set and its run are free (09 R263). -/
def State.erased (s : State) (i first : Nat) : State :=
  let v := s.modWeights fun w => { w with measured := mset none w.measured i none }
  { v with store := { s.store.put i none with lib := mset none (s.store.put i none).lib first none } }

theorem State.Installing.erased (h : v.Installing u) (i first : Nat) : (v.erased i first).Installing u :=
  State.Installing.withStore (v := v.modWeights fun w => { w with measured := mset none w.measured i none })
    ⟨modWeights_kept h.kept _ (by decide), h.nonce⟩ _

/-- A set is live or resident on a panel. -/
def Weights.held (w : Weights) (d : BitVec 512) : Bool := w.banks.any fun b => b.2.set == d && (b.2.st == .live || b.2.st == .resident)

section
variable (hdue : s.due (.weightsInstallErase t fn slot (.got a)) fn slot c) (hready : s.installable fn)
  (hmaster : mget false s.host.busMaster fn = true) (hspare : c.arg 8 16 = 0)
include hdue hready hmaster hspare

theorem installErase_unstored (hentry : s.store.entry (c.arg 2 2) = none) : ∃ u v : State, u.Took s t fn slot c ∧ v.Installing u ∧ v.store = s.store ∧
    exec (.weightsInstallErase t fn slot (.got a)) s = .next ((v.installFails stBadArg 2 (c.arg 2 2)).finish fn slot c) := by
  have hsub : c.arg 0 1 = 2 := by simpa using due_subop (form := (· == 2)) rfl hdue
  obtain ⟨u, hu, hrun⟩ := installCmd_runs (form := (· == 2)) rfl hdue hready (by omega)
  refine ⟨u, u.nonceUsed, hu, nonceUsed_installing u, hu.store, ?_⟩
  rw [exec_weightsInstallErase, execWeightsInstallErase, hrun _ _ (by simp [hspare])]
  simp only [State.dmaRead, hu.busMaster, hmaster, if_true, State.modWeights_store, hu.store, hentry]
  rfl

theorem installErase_stored {e : DirEnt} (hentry : s.store.entry (c.arg 2 2) = some e) : ∃ u v : State, u.Took s t fn slot c ∧ v.Installing u ∧
    v.store = s.store ∧ exec (.weightsInstallErase t fn slot (.got a)) s = .next (Done.finish fn slot c
      (if (s.tick t).authOk a 2 = true ∧ a.dirIndex = c.arg 2 2 ∧ a.setDigest = e.setDigest then
        if s.weights.held e.setDigest then v.installFails stRefused 4 (c.arg 2 2) else .comp (v.erased (c.arg 2 2) e.first) stOk 0 []
      else v.installFails stNotPerm 1 (c.arg 2 2))) := by
  have hsub : c.arg 0 1 = 2 := by simpa using due_subop (form := (· == 2)) rfl hdue
  obtain ⟨u, hu, hrun⟩ := installCmd_runs (form := (· == 2)) rfl hdue hready (by omega)
  refine ⟨u, u.nonceUsed, hu, nonceUsed_installing u, hu.store, ?_⟩
  have hentry : u.store.entry (c.arg 2 2) = some e := by rw [hu.store, hentry]
  have hchecks : (!(s.tick t).authOk a 2 || a.dirIndex != c.arg 2 2 || a.setDigest != e.setDigest) = true ↔
      ¬((s.tick t).authOk a 2 = true ∧ a.dirIndex = c.arg 2 2 ∧ a.setDigest = e.setDigest) := by
    simp only [Bool.or_eq_true, Bool.not_eq_true', bne_iff_ne, ne_eq, not_and_or, Bool.not_eq_true, or_assoc]
  rw [exec_weightsInstallErase, execWeightsInstallErase, hrun _ _ (by simp [hspare]), ← hu.weights]
  simp only [State.dmaRead, hu.busMaster, hmaster, if_true, State.modWeights_store, hentry, hu.authOk, hchecks, ite_not]
  rfl

end

end

/-! ### Sets stored and erased -/

/-- An install that passes every check stores the set (09 R263 step 6). -/
theorem installWrite_done {a : Auth} {g : WImage} {first i : Nat} (hu : u.Took s t fn slot c) (hv : v.Installing u) (hform : imgFormed g)
    (hnew : v.store.byDigest g.setDigest = none) (hfirst : v.store.firstFit (imgBlocks g) = some first) (hentry : v.store.freeEntry = some i)
    (hrecords : imgRecordsOk g = true) (hgood : imgDigestsOk g = true ∧ g.setDigest = a.setDigest ∧ v.weights.checkErr = false) :
    let x := (v.installWrite a g).finish fn slot c
    x.answered fn slot c 0 0 (leBytes 2 i) ∧ x.weights.nonce = none ∧ x.store.image i = g ∧
      (∃ e, x.store.entry i = some e ∧ e.setDigest = g.setDigest ∧ e.first = first ∧ e.blocks = imgBlocks g ∧ e.key = a.key ∧ e.layout = g.layoutDigest) ∧
      ∀ j, j ≠ i → x.store.entry j = v.store.entry j := by
  obtain ⟨hdigests, hset, hread⟩ := hgood
  obtain ⟨hanswered, hnonce, hstore⟩ := (hv.errorTaken.installed (a := a) (g := g) first i).ends hu
    (snagCtl_kept (.refl _) 0x9201 0 [i, first, imgBlocks g, fld g.setDigest 0 64] (by decide)) (snagCtl_slots _ _ _ _) stOk 0 (leBytes 2 i)
  obtain ⟨seq, hstored⟩ := installed_entry v.errorTaken a g first i
  rw [installWrite_installs hform hnew hfirst hentry hrecords hdigests hset hread, Done.finish]
  refine ⟨hanswered, hnonce, ?_⟩
  rw [hstore, installed_image]
  exact ⟨rfl, ⟨_, hstored, rfl, rfl, rfl, rfl, rfl⟩, fun j hj => installed_other v.errorTaken a g first i hj⟩

/-- An erase that passes every check frees the entry. -/
theorem erased_done (hu : u.Took s t fn slot c) (hv : v.Installing u) (i first : Nat) :
    let x := (v.erased i first).complete fn slot c.id stOk 0 []
    x.answered fn slot c 0 0 [] ∧ x.weights.nonce = none ∧ ∀ j, x.store.entry j = if j = i then none else v.store.entry j := by
  obtain ⟨hanswered, hnonce, hstore⟩ := (hv.erased i first).ends hu (.refl _) rfl stOk 0 []
  refine ⟨hanswered, hnonce, fun j => ?_⟩
  rw [hstore]
  exact entry_put_none v.store i j

end Sys2Proof.Machine
end

section
/-! SUPPORT. How a select ends without OK, and the errors of the store (09 R255–R263, R266, R270, R274). -/

namespace Sys2Proof.Machine

variable {s u v : State} {t fn slot : Nat} {c : Cmd}

/-! ### How a select ends without OK (09 R266, R270) -/

/-- A bank that holds the set LOADING or RESIDENT returns to EMPTY. -/
def State.emptyBack (s : State) (d : BitVec 512) (k : Nat) : State :=
  let b := s.backBank k
  let r := s.bankRec k b
  if r.set = d ∧ (r.st = .loading ∨ r.st = .resident) then s.setBank k b {} else s

/-- The set a select covers its panels with. -/
def State.setOf (s : State) (x : Select) : BitVec 512 := (s.store.image x.idx).setDigest

/-- The select's back banks return to EMPTY. -/
def State.emptied (s : State) (x : Select) : State :=
  (if x.swapping then x.toFlip else x.cover).foldl (fun u k => u.emptyBack (s.setOf x) k) s

theorem emptied_kept (s : State) (x : Select) : Kept [.weights] s (s.emptied x) :=
  foldl_kept (fun _ _ h => Kept.ite (fun _ => setBank_kept h _ _ _ (by decide)) fun _ => h) (.refl s)

theorem emptied_weights (s : State) (x : Select) : ∃ banks, (s.emptied x).weights = { s.weights with banks := banks } := by
  refine List.foldlRecOn _ _ (motive := fun u : State => ∃ banks, u.weights = { s.weights with banks := banks }) ⟨_, rfl⟩ fun u hu k _ => ?_
  obtain ⟨banks, hu⟩ := hu
  unfold State.emptyBack
  dsimp only
  split
  · exact ⟨mset {} u.weights.banks _ {}, by rw [State.setBank, hu]⟩
  · exact ⟨banks, hu⟩

/-- The select in progress is over, what else is kept of the weight library are new bank records, and no snag is taken back. -/
def State.SelectOver (u s : State) : Prop := (∃ banks, u.weights = { s.weights with banks := banks, sel := none }) ∧ s.snags <:+ u.snags

theorem State.SelectOver.sel (h : u.SelectOver s) : u.weights.sel = none := by
  obtain ⟨⟨banks, hu⟩, -⟩ := h
  rw [hu]

theorem endSelect_over {x : Select} (h : s.weights.sel = some x) (status detail cause : Nat) : (s.endSelect status detail cause).SelectOver s := by
  have heq : s.endSelect status detail cause = ((s.emptied x).snagCtl 0x9212 1 [x.idx, cause, x.load.length - x.left.length, 0]).clearSel.completeWaits
      WaitKind.isSelect status detail [] := by
    unfold State.endSelect
    rw [h]
    rfl
  have hends (v : State) : Kept [.host, .out] v.clearSel (v.clearSel.completeWaits WaitKind.isSelect status detail []) :=
    completeWaits_kept (.refl _) _ _ _ _ (by decide)
  obtain ⟨banks, hbanks⟩ := emptied_weights s x
  rw [heq]
  refine ⟨⟨banks, ?_⟩, ?_⟩
  · have hlogged : ((s.emptied x).snagCtl 0x9212 1 [x.idx, cause, x.load.length - x.left.length, 0]).weights = (s.emptied x).weights :=
      snag_same _ _ _ _ _ _ (f := .weights) (by decide)
    rw [(hends _).frame .weights (by decide), State.clearSel, hlogged, hbanks]
  · have hsnags : (s.emptied x).snags = s.snags := (emptied_kept s x).frame .snags (by decide)
    rw [(hends _).frame .snags (by decide), ← hsnags]
    exact snag_snags_suffix _ _ _ _ _ _

theorem State.SelectOver.pumped (h : u.SelectOver s) (hstart : s.weights.startQ = []) : u.pumpStarts = u := by
  obtain ⟨⟨banks, hu⟩, -⟩ := h
  exact pumpStarts_idle (by rw [hu]; exact hstart)

/-! ### Errors of the store (09 R256, R270, R274) -/

/-- A select whose rows are still on their way. -/
def Select.loading (x : Select) : Bool := !x.swapping && x.left != []

/-- With no fence fill under way, the store is being read for a select that loads (09 R275). -/
theorem loadBusy_select (hstage : s.resil.stage ≠ 2) : s.loadBusy = s.weights.sel.any Select.loading := by
  unfold State.loadBusy
  cases s.weights.sel <;> simp [hstage, Select.loading]

/-- A load in progress ends; without one nothing is done. -/
theorem loadFails_ends (hstart : s.weights.startQ = []) (hstage : s.resil.stage ≠ 2) (detail : Nat) : (∃ banks, (s.loadFails detail).weights =
    { s.weights with banks := banks, sel := if s.loadBusy = true then none else s.weights.sel }) ∧ s.snags <:+ (s.loadFails detail).snags := by
  have hbusy := loadBusy_select hstage
  unfold State.loadFails
  cases hsel : s.weights.sel with
  | none =>
    rw [hsel] at hbusy
    refine ⟨⟨s.weights.banks, ?_⟩, List.suffix_refl _⟩
    simp only [hbusy, ite_self, ← hsel]
  | some x =>
    rw [hsel, Option.any_some] at hbusy
    dsimp only
    split
    · rename_i hidle
      have hidle : x.loading = false := by rw [Select.loading, ← Bool.not_eq_true', Bool.not_and, Bool.not_not, bne, Bool.not_not]; exact hidle
      refine ⟨⟨s.weights.banks, ?_⟩, List.suffix_refl _⟩
      simp only [hbusy, hidle, Bool.false_eq_true, if_false, ← hsel]
    · rename_i hloads
      have hloads : x.loading = true := by simpa [Select.loading] using hloads
      have hover := endSelect_over hsel stFault detail 2
      rw [hover.pumped hstart, hbusy, if_pos hloads]
      exact hover

/-- An uncorrectable read has been seen and logged (09 R256). -/
def State.readErrorSeen (s : State) (dev block op : Nat) : State :=
  (s.modWeights fun w => { w with uncorr := true }).snagCtl 0x9220 2 [dev, block, op]

section
variable (s) (dev block op : Nat)

theorem readErrorSeen_weights : (s.readErrorSeen dev block op).weights = { s.weights with uncorr := true } :=
  snag_same (s.modWeights fun w => { w with uncorr := true }) _ _ _ _ _ (f := .weights) (by decide)

theorem readErrorSeen_resil : (s.readErrorSeen dev block op).resil = s.resil :=
  snag_same (s.modWeights fun w => { w with uncorr := true }) _ _ _ _ _ (f := .resil) (by decide)

theorem readErrorSeen_logs (hup : s.novkoUp = true) : ∃ r ∈ (s.readErrorSeen dev block op).snags, r.code = 0x9220 ∧ r.args = [dev, block, op, 0] := by
  have hlogged := snag_snags (s.modWeights fun w => { w with uncorr := true }) hup 0x9220 2 19 0x7FF [dev, block, op]
  exact ⟨_, hlogged ▸ List.mem_cons_self, rfl, rfl⟩

end

section
variable (hpower : s.pwr.stage1Up = true) (hstart : s.weights.startQ = []) (hstage : s.resil.stage ≠ 2)
include hpower hstart hstage

theorem storeReadError_held (hup : s.novkoUp = true) (dev : Fin 16) (block op : Nat) : Next (exec (.storeReadError t dev block op) s) fun u =>
    u.weights.uncorr = true ∧ u.weights.checkErr = (op == 2 || s.weights.checkErr) ∧
      (∃ r ∈ u.snags, r.code = 0x9220 ∧ r.args = [dev.val, block, op, 0]) ∧
      u.weights.sel = if op = 0 ∧ s.loadBusy = true then none else s.weights.sel := by
  have hweights := readErrorSeen_weights (s.tick t) dev block op
  have hresil := readErrorSeen_resil (s.tick t) dev block op
  obtain ⟨r, hr, hlogged⟩ := readErrorSeen_logs (s.tick t) dev block op hup
  have hexec : exec (.storeReadError t dev block op) s = .next (
      if op = 0 then ((s.tick t).readErrorSeen dev block op).loadFails 0x92200000
      else if op = 2 then ((s.tick t).readErrorSeen dev block op).modWeights fun w => { w with checkErr := true }
      else (s.tick t).readErrorSeen dev block op) := by
    have hfills : ¬(op = 1 ∧ ((s.tick t).readErrorSeen dev block op).resil.stage = 2) := fun h => hstage (hresil ▸ h.2)
    rw [State.readErrorSeen] at hfills
    rw [exec_storeReadError, execStoreReadError]
    simp only [State.tick_pwr, hpower, Bool.not_true, Bool.false_eq_true, if_false, hfills]
    rfl
  generalize (s.tick t).readErrorSeen dev block op = v at hweights hresil hr hexec
  refine next_of_eq hexec ?_
  have hbusy : v.loadBusy = s.loadBusy := by
    rw [loadBusy_select hstage, loadBusy_select (by rw [hresil]; exact hstage), hweights]
    rfl
  split
  · rename_i hop
    obtain ⟨⟨banks, hends⟩, hsuffix⟩ := loadFails_ends (s := v) (by rw [hweights]; exact hstart) (by rw [hresil]; exact hstage) 0x92200000
    rw [hends, hweights, hbusy]
    exact ⟨rfl, by rw [hop]; rfl, ⟨r, hsuffix.mem hr, hlogged⟩, by simp only [hop, true_and]; rfl⟩
  · rename_i hop
    split
    · rename_i hcheck
      exact ⟨by rw [State.modWeights_weights, hweights], by rw [hcheck]; rfl, ⟨r, hr, hlogged⟩,
        by rw [State.modWeights_weights, hweights, if_neg (by simp [hop])]; rfl⟩
    · rename_i hcheck
      exact ⟨by rw [hweights], by rw [hweights, beq_false_of_ne hcheck]; rfl, ⟨r, hr, hlogged⟩, by rw [hweights, if_neg (by simp [hop])]; rfl⟩

theorem storeDeviceFail_held (dev : Fin 16) : Next (exec (.storeDeviceFail t dev) s) fun u => u.weights.devFail = true ∧
    u.weights.devBad = s.weights.devBad ||| BitVec.ofNat 16 (2 ^ dev.val) ∧ u.weights.sel = if s.loadBusy = true then none else s.weights.sel := by
  obtain ⟨⟨banks, hends⟩, -⟩ := loadFails_ends (s := (s.tick t).modWeights fun w => { w with
    devBad := w.devBad ||| BitVec.ofNat 16 (2 ^ dev.val), devFail := true }) hstart hstage 0x92120000
  have hexec : exec (.storeDeviceFail t dev) s = .next (((s.tick t).modWeights fun w => { w with
      devBad := w.devBad ||| BitVec.ofNat 16 (2 ^ dev.val), devFail := true }).loadFails 0x92120000) := by
    rw [exec_storeDeviceFail, execStoreDeviceFail]
    simp only [State.tick_pwr, hpower, Bool.not_true, Bool.false_eq_true, if_false]
  refine next_of_eq hexec ?_
  rw [hends]
  exact ⟨rfl, rfl, rfl⟩

end

end Sys2Proof.Machine
end

section
/-! SUPPORT. The weight library's installs and erases settled (09 R255–R263, R274). -/

namespace Sys2Proof

open Machine

/-- Settles O53: an install or an erase reads its object and, if that verifies, its image, and each check that fails ends it with the stored sets as they were;
an entry written is in force once its directory update is, and what a load's failure ends is the select alone. -/
theorem weightSetsAreInstalledAndErased : Obligations.WeightSetsAreInstalledAndErased := by
  unfold Obligations.WeightSetsAreInstalledAndErased
  intro t fn slot a g dev block op c s nonce write erase fails ready
  have hfails {i : Instr} {u v : State} {st n idx : Nat} (hup : s.novkoUp = true) (hu : u.Took s t fn slot c) (hv : v.Installing u)
      (hentries : ∀ j, v.store.entry j = s.store.entry j) (hexec : exec i s = .next ((v.installFails st n idx).finish fn slot c)) : fails i st n :=
    next_of_eq hexec (installFails_failed hu hv hup hentries st n idx)
  have hopen (h : ready) : s.installable fn ∧ mget false s.host.busMaster fn = true := by
    obtain ⟨hmode, hfn, hsel, hstart, hmaster⟩ := h
    exact ⟨⟨hmode, hfn, hsel, hstart⟩, hmaster⟩
  refine ⟨fun i hi hdue hnot => ?_, fun hdue hready hsub hindex hspare hentropy => ?_, fun n => installNonceExpiry_expires,
    fun hdue hready hindex => ?_, fun hdue hready hspare => ?_, fun hpower hup hstart hstage =>
      ⟨storeReadError_held hpower hstart hstage hup dev block op, storeDeviceFail_held hpower hstart hstage dev⟩⟩
  · simp only [List.mem_cons, List.not_mem_nil, or_false] at hi
    obtain rfl | rfl | rfl := hi
    · rw [exec_weightsInstallNonce, execWeightsInstallNonce]
      exact ⟨_, rfl, installCmd_refused mailbox_installNonce hdue hnot _ _⟩
    · rw [exec_weightsInstallWrite, execWeightsInstallWrite]
      exact ⟨_, rfl, installCmd_refused (form := (· == 1)) rfl hdue hnot _ _⟩
    · rw [exec_weightsInstallErase, execWeightsInstallErase]
      exact ⟨_, rfl, installCmd_refused (form := (· == 2)) rfl hdue hnot _ _⟩
  · obtain ⟨u, hu, hexec⟩ := installNonce_draws hdue (hopen hready).1 hsub hindex hspare hentropy
    refine next_of_eq hexec ⟨(u.random 256).2, worked_answered hu (congrArg HostIf.slots (nonceDrawn_host u)) stOk 0 _, ?_⟩
    rw [complete_same (f := .weights) _ _ _ _ _ _ _ (by decide), nonceDrawn_weights, hu.now, hu.weights]
  · obtain ⟨hready, hmaster⟩ := hopen hready
    have hup := due_novkoUp hdue
    intro form
    split
    · rename_i hauth
      obtain ⟨u, v, hu, hv, hstore, hcheck, hexec⟩ := installWrite_authorised (g := g) hdue hready hmaster hindex hauth
      have hdone {d : Done} (h : v.installWrite a g = d) : exec write s = .next (d.finish fn slot c) := h ▸ hexec
      have hsame (j : Nat) : v.store.entry j = s.store.entry j := by rw [hstore]
      have hfreed {i : Nat} (hentry : v.store.freeEntry = some i) (first j : Nat) : (v.errorTaken.abandoned a g first i).store.entry j = s.store.entry j :=
        (abandoned_entries (s := v.errorTaken) hentry first j).trans (hsame j)
      rw [← hstore, ← hcheck]
      refine ⟨fun hbad => ?_, fun hform hstored => ?_, fun hform hnew => ⟨fun hfull => ?_, fun first i hfirst hentry =>
        ⟨fun hrecords => ?_, fun hrecords => ?_⟩⟩⟩
      · exact hfails hup hu hv.errorTaken hsame (hdone (installWrite_malformed hbad))
      · exact hfails hup hu hv.errorTaken hsame (hdone (installWrite_repeated hform hstored))
      · exact hfails hup hu hv.errorTaken hsame (hdone (installWrite_unplaced hform hnew hfull))
      · exact hfails hup hu (hv.errorTaken.abandoned first i) (hfreed hentry first)
          (hdone (installWrite_disordered hform hnew hfirst hentry hrecords))
      · split
        · exact next_of_eq hexec (installWrite_done hu hv hform hnew hfirst hentry hrecords ‹_›)
        · exact hfails hup hu (hv.errorTaken.abandoned first i) (hfreed hentry first)
            (hdone (installWrite_mismatched hform hnew hfirst hentry hrecords ‹_›))
    · intro x
      obtain ⟨u, v, hu, hv, hstore, hexec⟩ := installWrite_unauthorised hdue hready hmaster hindex (Bool.eq_false_iff.2 ‹_›) x
      exact hfails hup hu hv (fun j => by rw [hstore]) hexec
  · obtain ⟨hready, hmaster⟩ := hopen hready
    have hup := due_novkoUp hdue
    intro i
    refine ⟨fun hentry => ?_, fun e hentry => ?_⟩
    · obtain ⟨u, v, hu, hv, hstore, hexec⟩ := installErase_unstored hdue hready hmaster hspare hentry
      exact hfails hup hu hv (fun j => by rw [hstore]) hexec
    · obtain ⟨u, v, hu, hv, hstore, hexec⟩ := installErase_stored hdue hready hmaster hspare hentry
      intro held
      have hsame (j : Nat) : v.store.entry j = s.store.entry j := by rw [hstore]
      split
      · rename_i hchecks
        rw [if_pos (by exact hchecks)] at hexec
        refine ⟨fun hheld => ?_, fun hheld => ?_⟩
        · rw [if_pos (by exact hheld)] at hexec
          exact hfails hup hu hv hsame hexec
        · rw [if_neg (by exact Bool.eq_false_iff.1 hheld), Done.finish] at hexec
          rw [← hstore]
          exact next_of_eq hexec (erased_done hu hv i e.first)
      · rw [if_neg (by exact ‹¬_›)] at hexec
        exact hfails hup hu hv hsame hexec

end Sys2Proof
end

section
/-! SUPPORT. WEIGHTS_SELECT: its checks, the banks it loads and the rows it sends (09 R264, R265). -/

namespace Sys2Proof.Machine

variable {s u v : State} {t fn slot : Nat} {c : Cmd}

/-! ### What a message to a bay leaves alone (06 R196) -/

/-- A property that lines lost on the way and outputs keep holds after a message to a bay. -/
theorem toBay_induction {P : State → Prop} (hsink : ∀ u b p h, P u → P (u.sinkLine b p h)) (hemit : ∀ u o, P u → P (u.emit o)) (h : P s)
    (b : Nat) (m : NovkoMsg) : P (s.toBay b m) := by
  have hlost (f : State → State) (hf : ∀ u, P u → P (f u)) (n : Nat) : P ((List.range n).foldl (fun u _ => f u) s) :=
    List.foldlRecOn _ _ h fun u hu _ _ => hf u hu
  unfold State.toBay
  split
  · exact h
  · rename_i x _
    dsimp only
    split
    · refine hlost _ (fun u hu => ?_) _
      unfold State.edgeSink
      split
      · exact hsink _ _ _ _ hu
      · exact hu
    · cases hwalk : walk 256 (ctlRouter x.att) (novkoHdr x.down m.vc s.gen) with
      | none =>
        simp only [State.sendAlong, hwalk]
        exact h
      | some l =>
        cases hsinks : s.sinkOn l with
        | none =>
          simp only [State.sendAlong, hwalk, hsinks]
          exact hemit _ _ h
        | some e =>
          simp only [State.sendAlong, hwalk, hsinks]
          exact hlost _ (fun u hu => hsink u _ _ _ hu) _

theorem toBay_slots (s : State) (b : Nat) (m : NovkoMsg) : (s.toBay b m).host.slots = s.host.slots := by
  refine toBay_induction (P := fun u => u.host.slots = s.host.slots) (fun u b p h hu => ?_) (fun u o hu => hu) rfl b m
  unfold State.sinkLine State.stickyRtr
  dsimp only
  split
  · exact hu
  · exact (slots_of_settled (snag_settled _ _ _ _ _ _)).trans hu

/-! ### The checks (09 R264) -/

section
variable (h : Kept mailbox s u)
include h

theorem barrierOk_mailbox (e : PBay) (i : Nat) (run : Option (Nat × Bool)) (l : List (BitVec 256)) :
    u.barrierOk e i run l = s.barrierOk e i run l := by
  induction l generalizing i run with
  | nil => rfl
  | cons w l ih => simp only [State.barrierOk, ih, bankRec_mailbox h, liveBank_mailbox h]

theorem holdsLive_mailbox (k : Nat) (d : BitVec 512) : u.holdsLive k d = s.holdsLive k d := by
  rw [State.holdsLive, State.holdsLive, bankRec_mailbox h, liveBank_mailbox h]

theorem selectBlocked_mailbox (img : WImage) (switch : Bool) : u.selectBlocked img switch = s.selectBlocked img switch := by
  simp only [State.selectBlocked, plans_mailbox h, holdsLive_mailbox h, barrierOk_mailbox h]

end

section
variable (hdue : s.due (.weightsSelect t fn slot) fn slot c)
include hdue

/-- The checks in order, and the select once they have passed. -/
theorem weightsSelect_checks : ∃ v : State, v.Took s t fn slot c ∧ exec (.weightsSelect t fn slot) s = .next (Done.finish fn slot c
    (if s.mode = .withdrawn then .comp v stWithdrawn 0 []
    else if fn ≠ 0 then .comp v stNotPerm 0 []
    else if s.store.entry (c.arg 0 2) = none ∨ 4 ≤ c.arg 2 1 then .comp v stBadArg 0 []
    else if s.weights.sel.isSome = true ∨ s.weights.startQ ≠ [] then .comp v stBusy 0 []
    else if s.selectBlocked (s.store.image (c.arg 0 2)) (c.arg 2 1 / 2 % 2 == 1) = true then .comp v stRefused 5 []
    else if s.mode ∉ modesSession then .comp v stRefused 0 []
    else .waits ((v.wait fn slot c.id .select).beginSelect (c.arg 0 2) (c.arg 2 1 % 2 == 1) (c.arg 2 1 / 2 % 2 == 1) (some c.id)).pumpStarts)) := by
  obtain ⟨v, hv, hrun⟩ := runOwn_due rfl rfl hdue t
  refine ⟨v, hv, ?_⟩
  rw [exec_weightsSelect, execWeightsSelect, hrun]
  simp only [hv.mode, hv.weights, hv.store, selectBlocked_mailbox hv.mailbox, Option.isNone_iff_eq_none]

/-- The first check that fails gives the answer, and nothing else is done. -/
theorem weightsSelect_refused :
    let i := c.arg 0 2
    let o := c.arg 2 1
    let blocked := s.selectBlocked (s.store.image i) (o / 2 % 2 == 1) = true
    let busy := s.weights.sel.isSome = true ∨ s.weights.startQ ≠ []
    s.mode = .withdrawn ∨ fn ≠ 0 ∨ s.store.entry i = none ∨ 4 ≤ o ∨ busy ∨ blocked ∨ s.mode ∉ modesSession →
    Next (exec (.weightsSelect t fn slot) s) fun u =>
      u.answered fn slot c (if s.mode = .withdrawn then 8 else if fn ≠ 0 then 4 else if s.store.entry i = none ∨ 4 ≤ o then 3 else if busy then 5 else 2)
        (if s.mode ≠ .withdrawn ∧ fn = 0 ∧ s.store.entry i ≠ none ∧ o < 4 ∧ ¬busy ∧ blocked then 5 else 0) [] ∧ u.weights = s.weights := by
  intro i o blocked busy hfails
  obtain ⟨v, hv, hexec⟩ := weightsSelect_checks hdue
  have hends (status detail : Nat) (hstatus : status ≠ stFault) : (v.complete fn slot c.id status detail []).answered fn slot c status
      (if status = stRefused then detail else 0) [] ∧ (v.complete fn slot c.id status detail []).weights = s.weights :=
    (hv.refuses status detail hstatus).imp_right And.left
  by_cases hwithdrawn : s.mode = .withdrawn
  · rw [if_pos hwithdrawn] at hexec ⊢
    rw [if_neg (fun ⟨h, _⟩ => h hwithdrawn)]
    exact next_of_eq hexec (hends stWithdrawn 0 (by decide))
  rw [if_neg hwithdrawn] at hexec ⊢
  by_cases hfn : fn ≠ 0
  · rw [if_pos hfn] at hexec ⊢
    rw [if_neg (fun ⟨_, h, _⟩ => hfn h)]
    exact next_of_eq hexec (hends stNotPerm 0 (by decide))
  rw [if_neg hfn] at hexec ⊢
  by_cases hargs : s.store.entry i = none ∨ 4 ≤ o
  · rw [if_pos hargs] at hexec ⊢
    rw [if_neg (fun ⟨_, _, hentry, ho, _⟩ => hargs.elim hentry (Nat.not_le.2 ho))]
    exact next_of_eq hexec (hends stBadArg 0 (by decide))
  rw [if_neg hargs] at hexec ⊢
  by_cases hbusy : busy
  · rw [if_pos hbusy] at hexec ⊢
    rw [if_neg (fun ⟨_, _, _, _, h, _⟩ => h hbusy)]
    exact next_of_eq hexec (hends stBusy 0 (by decide))
  rw [if_neg hbusy] at hexec ⊢
  by_cases hblocked : blocked
  · rw [if_pos hblocked] at hexec
    rw [if_pos ⟨hwithdrawn, not_not.1 hfn, fun h => hargs (.inl h), Nat.not_le.1 fun h => hargs (.inr h), hbusy, hblocked⟩]
    exact next_of_eq hexec (hends stRefused 5 (by decide))
  · have hmode : s.mode ∉ modesSession := by tauto
    rw [if_neg hblocked, if_pos hmode] at hexec
    rw [if_neg (fun ⟨_, _, _, _, _, h⟩ => hblocked h)]
    exact next_of_eq hexec (hends stRefused 0 (by decide))

theorem weightsSelect_begins (hfn : fn = 0) (hentry : s.store.entry (c.arg 0 2) ≠ none) (hoptions : c.arg 2 1 < 4)
    (hidle : ¬(s.weights.sel.isSome = true ∨ s.weights.startQ ≠ [])) (hfree : s.selectBlocked (s.store.image (c.arg 0 2)) (c.arg 2 1 / 2 % 2 == 1) = false)
    (hmode : s.mode ∈ modesSession) : ∃ v : State, v.Took s t fn slot c ∧ exec (.weightsSelect t fn slot) s =
      .next ((v.wait fn slot c.id .select).beginSelect (c.arg 0 2) (c.arg 2 1 % 2 == 1) (c.arg 2 1 / 2 % 2 == 1) (some c.id)).pumpStarts := by
  obtain ⟨v, hv, hexec⟩ := weightsSelect_checks hdue
  have hup : s.mode ≠ .withdrawn := fun h => by simp [h, modesSession] at hmode
  rw [if_neg hup, if_neg (not_not.2 hfn), if_neg (not_or.2 ⟨hentry, Nat.not_le.2 hoptions⟩), if_neg hidle, if_neg (Bool.eq_false_iff.1 hfree),
    if_neg (not_not.2 hmode)] at hexec
  exact ⟨v, hv, hexec⟩

end

/-! ### How a select begins (09 R264, R265) -/

/-- The panels that a set covers and on which it is not live. -/
def State.selectFlips (s : State) (img : WImage) : List Nat := (img.records.map recKey).filter fun k => !s.holdsLive k img.setDigest

/-- Of these, the panels to load. -/
def State.selectLoads (s : State) (img : WImage) : List Nat := (s.selectFlips img).filter fun k => !s.holdsBack k img.setDigest

theorem selectFlips_mailbox (h : Kept mailbox s u) (img : WImage) : u.selectFlips img = s.selectFlips img := by
  simp only [State.selectFlips, holdsLive_mailbox h]

theorem selectLoads_mailbox (h : Kept mailbox s u) (img : WImage) : u.selectLoads img = s.selectLoads img := by
  rw [State.selectLoads, State.selectLoads, selectFlips_mailbox h, h.mailbox_eq]
  rfl

/-- A set that is live wherever it goes is selected at once. -/
theorem beginSelect_live {idx : Nat} {loadOnly switch : Bool} {cmd : Option Nat} (h : s.selectFlips (s.store.image idx) = []) :
    s.beginSelect idx loadOnly switch cmd = s.completeWaits WaitKind.isSelect stOk 0 [] := if_pos h

/-- The select that begins with this set. -/
def State.newSelect (s : State) (idx : Nat) (loadOnly switch : Bool) (cmd : Option Nat) : Select :=
  let img := s.store.image idx
  { idx, loadOnly, switch, cmd, cover := img.records.map recKey, load := s.selectLoads img, left := s.selectLoads img,
    flips := if loadOnly then [] else s.selectFlips img }

/-- The back bank of a record's panel takes the record's format and is LOADING. -/
def State.takeBank (img : WImage) (load : List Nat) (s : State) (r : PanelRec) : State :=
  if load.contains (recKey r) then
    (s.setFormat (recKey r) (s.backBank (recKey r)) r.width r.sgn).setBank (recKey r) (s.backBank (recKey r)) (recBank r img .loading)
  else s

/-- The select is in progress, and the back banks it loads are LOADING. -/
def State.banksTaken (s : State) (x : Select) : State :=
  let img := s.store.image x.idx
  img.records.foldl (State.takeBank img x.load) { s with weights := { s.weights with sel := some x } }

theorem beginSelect_loads {idx : Nat} {loadOnly switch : Bool} {cmd : Option Nat} (hload : s.selectLoads (s.store.image idx) ≠ [])
    (hdevices : s.weights.devBad = 0) : s.beginSelect idx loadOnly switch cmd =
      let v := s.banksTaken (s.newSelect idx loadOnly switch cmd)
      if v.mode = .recovering then v else v.sendRows (s.selectLoads (s.store.image idx)) := by
  have hflips : s.selectFlips (s.store.image idx) ≠ [] := fun h => hload (by rw [State.selectLoads, h]; rfl)
  exact (if_neg hflips).trans ((if_neg hload).trans (if_neg (not_not.2 hdevices)))

theorem takeBank_kept (img : WImage) (load : List Nat) (s : State) (r : PanelRec) : Kept [.panels, .bays, .weights] s (State.takeBank img load s r) :=
  Kept.ite (fun _ => setBank_kept (setFormat_kept (.refl s) _ _ _ _ (by decide)) _ _ _ (by decide)) fun _ => .refl s

theorem takeBank_sameSelects (img : WImage) (load : List Nat) (s : State) (r : PanelRec) : (State.takeBank img load s r).SameSelects s := by
  unfold State.takeBank
  split
  · exact (setBank_sameSelects _ _ _ _).trans (State.SameSelects.kept ⟨rfl, rfl⟩ (setFormat_kept (L := [.panels, .bays]) (.refl s) _ _ _ _ (by decide))
      (by decide))
  · exact ⟨rfl, rfl⟩

section
variable (s) (x : Select)

theorem banksTaken_kept : Kept [.panels, .bays, .weights] s (s.banksTaken x) :=
  foldl_kept (fun _ _ h => h.trans (takeBank_kept _ _ _ _)) (Kept.same (.refl s) (changed (a := [.weights]) (by decide)))

theorem banksTaken_selects : (s.banksTaken x).weights.sel = some x ∧ (s.banksTaken x).weights.startQ = s.weights.startQ :=
  List.foldlRecOn _ _ (motive := fun u : State => u.SameSelects { s with weights := { s.weights with sel := some x } }) ⟨rfl, rfl⟩
    fun u hu r _ => (takeBank_sameSelects _ _ u r).trans hu

end

/-! ### Rows sent (09 R265) -/

/-- A record's rows are sent if its panel is one of these. -/
def State.sendRecord (l : List Nat) (s : State) (r : PanelRec) : State :=
  if l.contains (recKey r) then s.toBay (recKey r / 32) (.weightRows s.gen r.panel (s.backBank (recKey r)) r.rows) else s

theorem sendRecord_kept (l : List Nat) (s : State) (r : PanelRec) : Kept [.rtrs, .host, .snags, .snagNext, .out] s (s.sendRecord l r) :=
  Kept.ite (fun _ => toBay_kept (.refl s) _ _ (by decide)) fun _ => .refl s

theorem sendRecord_slots (l : List Nat) (s : State) (r : PanelRec) : (s.sendRecord l r).host.slots = s.host.slots := by
  unfold State.sendRecord
  split
  · exact toBay_slots s _ _
  · rfl

theorem sendRecord_sameMesh (l : List Nat) (s : State) (r : PanelRec) : (s.sendRecord l r).SameMesh s := by
  unfold State.sendRecord
  split
  · exact toBay_sameMesh s _ _
  · exact .refl s

/-- The rows of a panel to load leave CTL for a bay with nothing in their way. -/
theorem sendRecord_sends {l : List Nat} {r : PanelRec} (hl : recKey r ∈ l) (htold : s.told (recKey r / 32) 3) :
    .novko (recKey r / 32) (.weightRows s.gen r.panel (s.backBank (recKey r)) r.rows) ∈ (s.sendRecord l r).out := by
  have hsent := toBay_told (m := .weightRows s.gen r.panel (s.backBank (recKey r)) r.rows) htold
  rw [State.sendRecord, if_pos (List.contains_iff_mem.2 hl), hsent]
  exact mem_emit s _

section
variable {x : Select} (h : s.weights.sel = some x)
include h

theorem sendRows_eq (l : List Nat) : s.sendRows l = (s.store.image x.idx).records.foldl (State.sendRecord l) s := by
  unfold State.sendRows
  rw [h]
  rfl

theorem sendRows_slots (l : List Nat) : (s.sendRows l).host.slots = s.host.slots := by
  rw [sendRows_eq h]
  exact List.foldlRecOn _ _ (motive := fun u : State => u.host.slots = s.host.slots) rfl fun u hu r _ => (sendRecord_slots l u r).trans hu

theorem sendRows_sends {l : List Nat} {r : PanelRec} (hr : r ∈ (s.store.image x.idx).records) (hl : recKey r ∈ l) (htold : s.told (recKey r / 32) 3) :
    ∃ bank, .novko (recKey r / 32) (.weightRows s.gen r.panel bank r.rows) ∈ (s.sendRows l).out := by
  obtain ⟨front, back, hsplit⟩ := List.append_of_mem hr
  have hmesh : (front.foldl (State.sendRecord l) s).SameMesh s := foldl_sameMesh s (sendRecord_sameMesh l) front
  have hsent := sendRecord_sends hl (hmesh.told htold)
  have hlater : Kept [.rtrs, .host, .snags, .snagNext, .out] ((front.foldl (State.sendRecord l) s).sendRecord l r)
      (back.foldl (State.sendRecord l) ((front.foldl (State.sendRecord l) s).sendRecord l r)) :=
    foldl_kept (fun _ _ hu => hu.trans (sendRecord_kept l _ _)) (.refl _)
  rw [sendRows_eq h, hsplit, List.foldl_append, List.foldl_cons]
  rw [hmesh.gen] at hsent
  exact ⟨_, hlater.out.mem hsent⟩

end

end Sys2Proof.Machine
end

section
/-! SUPPORT. Panels that have loaded, and banks read back (09 R265, R266, R273). -/

namespace Sys2Proof.Machine

variable {s u v : State} {t fn slot : Nat} {c : Cmd}

/-! ### A load's end (09 R266) -/

theorem completeWaits_none {P : WaitKind → Bool} (h : ∀ w ∈ s.host.waits, P w.kind = false) (status detail : Nat) (result : List Byte) :
    s.completeWaits P status detail result = s := by
  have hnone : (s.host.waits.filter fun w => P w.kind) = [] := List.filter_eq_nil_iff.2 fun w hw => Bool.eq_false_iff.1 (h w hw)
  have hall : (s.host.waits.filter fun w => !P w.kind) = s.host.waits := List.filter_eq_self.2 fun w hw => by rw [h w hw]; rfl
  unfold State.completeWaits
  simp only [hnone, List.foldl_nil, State.modHost, hall]

/-- A select that did not swap and that no command waits for is over. -/
theorem finishSelect_quiet {x : Select} (h : s.weights.sel = some x) (hswap : x.swapping = false)
    (hwaits : ∀ w ∈ s.host.waits, w.kind.isSelect = false) : s.finishSelect = s.clearSel := by
  unfold State.finishSelect
  simp only [h, hswap, Bool.false_eq_true, if_false]
  exact completeWaits_none (s := s.clearSel) hwaits stOk 0 []

/-- The back bank of a panel that has loaded is RESIDENT. -/
def State.settleBank (d : BitVec 512) (s : State) (k : Nat) : State :=
  let b := s.backBank k
  let r := s.bankRec k b
  if r.set = d then s.setBank k b { r with st := .resident } else s

/-- The banks of a load are RESIDENT. -/
def State.settled (s : State) (x : Select) : State := x.load.foldl (State.settleBank (s.setOf x)) s

theorem settled_kept (s : State) (x : Select) : Kept [.weights] s (s.settled x) :=
  foldl_kept (fun _ _ h => Kept.ite (fun _ => setBank_kept h _ _ _ (by decide)) fun _ => h) (.refl s)

theorem settled_sameSelects (s : State) (x : Select) : (s.settled x).SameSelects s := by
  refine List.foldlRecOn _ _ (motive := fun u : State => u.SameSelects s) ⟨rfl, rfl⟩ fun u hu k _ => ?_
  unfold State.settleBank
  dsimp only
  split
  · exact (setBank_sameSelects u _ _ _).trans hu
  · exact hu

/-- A load-only select that no command waits for ends with its last panel. -/
theorem loadDone_loadOnly {x : Select} (h : s.weights.sel = some x) (hload : x.loadOnly = true) (hswap : x.swapping = false)
    (hwaits : ∀ w ∈ s.host.waits, w.kind.isSelect = false) : s.loadDone = (s.settled x).clearSel := by
  have hhost : (s.settled x).host = s.host := (settled_kept s x).frame .host (by decide)
  have hends : s.loadDone = (s.settled x).finishSelect := by
    unfold State.loadDone
    simp only [h, hload, if_true]
    rfl
  rw [hends, finishSelect_quiet ((settled_sameSelects s x).1.trans h) hswap (by rw [hhost]; exact hwaits)]

/-- A digest that does not match ends the select, with a snag that says where (09 R266, R274). -/
theorem loadMismatch_ends {x : Select} (h : s.weights.sel = some x) (hstart : s.weights.startQ = []) (idx where_ : Nat) :
    (s.loadMismatch idx where_).weights.sel = none ∧
      (s.novkoUp = true → ∃ r ∈ (s.loadMismatch idx where_).snags, r.code = 0x9211 ∧ r.args = [idx, where_, 0, 0]) := by
  have hweights : (s.snagCtl 0x9211 2 [idx, where_]).weights = s.weights := snag_same s _ _ _ _ _ (f := .weights) (by decide)
  have hover := endSelect_over (s := s.snagCtl 0x9211 2 [idx, where_]) (by rw [hweights]; exact h) stFault 0x92110000 2
  unfold State.loadMismatch
  rw [hover.pumped (by rw [hweights]; exact hstart)]
  refine ⟨hover.sel, fun hup => ⟨s.snagRecord 0x9211 2 19 0x7FF [idx, where_], hover.2.mem ?_, rfl, rfl⟩⟩
  have hlogged : (s.snagCtl 0x9211 2 [idx, where_]).snags = _ := snag_snags s hup 0x9211 2 19 0x7FF [idx, where_]
  rw [hlogged]
  exact List.mem_cons_self

/-! ### Panels done (09 R265, R266) -/

section
variable {b : BayIx} {p : PanelIx} {x : Select} (h : s.weights.sel = some x)
include h

theorem panelDoneNotice_stale {gen : BitVec 8} (hgen : gen ≠ s.gen) : exec (.panelDoneNotice t b p gen) s = .next (s.tick t) := by
  rw [exec_panelDoneNotice, execPanelDoneNotice]
  simp only [State.tick_weights, h, State.tick_gen, hgen, ne_eq, not_false_eq_true, true_or, if_true]

variable (hswap : x.swapping = false) (hleft : pkey b p ∈ x.left)
include hswap hleft

/-- The select once the panel has left its list. -/
def Select.without (x : Select) (k : Nat) : Select := { x with left := x.left.filter (· != k) }

/-- The panel's record is held against its digest. -/
theorem panelDoneNotice_mismatch (hbad : imgPanelOk (s.store.image x.idx) (pkey b p) = false) :
    exec (.panelDoneNotice t b p s.gen) s = .next ((s.tick t).loadMismatch x.idx (pkey b p)) := by
  rw [exec_panelDoneNotice, execPanelDoneNotice]
  simp only [State.tick_weights, h, State.tick_gen, ne_eq, not_true_eq_false, hswap, Bool.false_eq_true, List.contains_iff_mem, hleft, or_self,
    if_false, State.tick_store, hbad, Bool.not_false, if_true]

theorem panelDoneNotice_match (hgood : imgPanelOk (s.store.image x.idx) (pkey b p) = true) :
    exec (.panelDoneNotice t b p s.gen) s = .next (
      let v := (s.tick t).modSel fun x => x.without (pkey b p)
      if x.left.all (· == pkey b p) = true then
        if (s.store.entry x.idx).any (fun e => imgSet (s.store.image x.idx) == e.setDigest) = true then v.loadDone.pumpStarts
        else v.loadMismatch x.idx 0xFFFF
      else v) := by
  rw [exec_panelDoneNotice, execPanelDoneNotice]
  simp only [State.tick_weights, h, State.tick_gen, ne_eq, not_true_eq_false, hswap, Bool.false_eq_true, List.contains_iff_mem, hleft, or_self,
    if_false, State.tick_store, hgood, Bool.not_true]
  rfl

end

/-! ### Banks read back (09 R273; 02 R59) -/

/-- What a digest of the panels' banks rests on is the same, and so are the command slots. -/
structure State.SameBanks (u s : State) : Prop where
  weights : u.weights = s.weights
  epoch : u.epoch = s.epoch
  cells : ∀ k, (u.panel k).cells = (s.panel k).cells
  slots : u.host.slots = s.host.slots

theorem State.SameBanks.trans (h : v.SameBanks u) (g : u.SameBanks s) : v.SameBanks s :=
  ⟨h.weights.trans g.weights, h.epoch.trans g.epoch, fun k => (h.cells k).trans (g.cells k), h.slots.trans g.slots⟩

theorem State.SameBanks.bankDiffers (h : u.SameBanks s) (k bank : Nat) : u.bankDiffers k bank = s.bankDiffers k bank := by
  have hrow (i : Nat) : u.rowOf k bank i = s.rowOf k bank i := by rw [State.rowOf, State.rowOf, h.cells, h.epoch]
  have hrec : u.bankRec k bank = s.bankRec k bank := by rw [State.bankRec, State.bankRec, h.weights]
  simp only [State.bankDiffers, State.panelDigest, hrow, hrec]

theorem snagBay_slots (s : State) (b code sev : Nat) (args : List Nat) : (s.snagBay b code sev args).host.slots = s.host.slots :=
  slots_of_settled (snag_settled s code sev _ _ args)

theorem witnessStored_sameBanks (s : State) (b p : Nat) : (s.witnessStored b p).SameBanks s := by
  have hkept := witnessStored_kept (L := [.host, .resil, .snags, .snagNext, .out]) (.refl s) b p (by decide)
  refine ⟨hkept.frame .weights (by decide), hkept.frame .epoch (by decide), fun k => ?_, ?_⟩
  · rw [panel_congr (hkept.frame .panels (by decide)) k]
  · unfold State.witnessStored
    split
    · rfl
    · unfold State.strike
      dsimp only
      split
      · exact slots_of_settled (snag_settled _ _ _ _ _ _)
      · exact slots_of_settled (snag_settled _ _ _ _ _ _)

theorem stickyPanel_sameBanks (s : State) (b p : Nat) (was : Bool) {set : Panel → Panel} (hset : ∀ x, (set x).cells = x.cells) (code sev : Nat)
    (args : List Nat) : (s.stickyPanel b p was set code sev args).SameBanks s := by
  have hkept := stickyPanel_kept (L := [.panels, .host, .snags, .snagNext, .out]) (.refl s) b p was (set := set) (fun x h => by rw [hset]; exact h) code sev args (by decide)
  refine ⟨hkept.frame .weights (by decide), hkept.frame .epoch (by decide), fun k => ?_, ?_⟩
  · rw [panel_stickyPanel]
    split
    · rename_i hk
      rw [hset, hk]
    · rfl
  · cases was
    · exact snagBay_slots _ _ _ _ _
    · rfl

theorem readBank_sameBanks (s : State) (k bank : Nat) : (s.readBank k bank).SameBanks s := by
  unfold State.readBank
  split
  · exact (witnessStored_sameBanks _ _ _).trans (stickyPanel_sameBanks s _ _ _ (set := fun x => { x with witStoreErr := true }) (fun _ => rfl) _ _ _)
  · exact ⟨rfl, rfl, fun _ => rfl, rfl⟩

/-- Reading banks back updates MEASURED after the rows are read. -/
theorem readBanks_measured (s : State) (back : Bool) : ∃ m, (s.readBanks back).1 =
    ((s.heldBanks back).foldl (fun s e => s.readBank e.1 e.2) s).modWeights fun w => { w with measured := m } := ⟨_, rfl⟩

/-- Banks read back keep their records, and the panels that differ are told by the digests as they were. -/
theorem readBanks_reads (s : State) (back : Bool) : (s.readBanks back).1.weights.banks = s.weights.banks ∧
    (s.readBanks back).1.host.slots = s.host.slots ∧
    (s.readBanks back).2 = ((s.heldBanks back).filter fun e => s.bankDiffers e.1 e.2).map (·.1) := by
  have hread : ((s.heldBanks back).foldl (fun s e => s.readBank e.1 e.2) s).SameBanks s :=
    List.foldlRecOn _ _ (motive := fun u : State => u.SameBanks s) ⟨rfl, rfl, fun _ => rfl, rfl⟩ fun u hu e _ => (readBank_sameBanks u _ _).trans hu
  obtain ⟨m, hm⟩ := readBanks_measured s back
  rw [hm]
  have hbanks := congrArg Weights.banks hread.weights
  refine ⟨hbanks, hread.slots, ?_⟩
  have hdiffer := funext fun e : Nat × Nat => State.SameBanks.bankDiffers hread e.1 e.2
  exact congrArg (fun f => ((s.heldBanks back).filter f).map (·.1)) hdiffer

theorem heldBanks_mailbox (h : Kept mailbox s u) (back : Bool) : u.heldBanks back = s.heldBanks back := by
  rw [h.mailbox_eq]
  rfl

theorem bankDiffers_mailbox (h : Kept mailbox s u) (k bank : Nat) : u.bankDiffers k bank = s.bankDiffers k bank := by
  rw [h.mailbox_eq]
  rfl

section
variable (hdue : s.due (.weightsDigest t fn slot) fn slot c) (hbank : c.arg 0 1 ≤ 1)
include hdue hbank

theorem weightsDigest_busy (hbusy : (s.weights.sel.isSome = true ∨ s.weights.startQ ≠ []) ∨ s.resil.stage = 3) : ∃ u : State, u.Took s t fn slot c ∧
    exec (.weightsDigest t fn slot) s = .next (u.complete fn slot c.id stBusy 0 []) := by
  obtain ⟨-, u, hu, hrun⟩ := runCmd_due rfl hdue t
  have hresil : u.resil = s.resil := hu.mailbox.frame .resil (by decide)
  refine ⟨u, hu, ?_⟩
  rw [exec_weightsDigest, execWeightsDigest, hrun]
  simp only [Nat.not_lt.2 hbank, if_false, hu.weights, hresil, ← or_assoc, hbusy, if_true, Done.finish]

theorem weightsDigest_reads (hidle : ¬(s.weights.sel.isSome = true ∨ s.weights.startQ ≠ [])) (hstage : s.resil.stage ≠ 3) :
    Next (exec (.weightsDigest t fn slot) s) fun u =>
      let bad := (s.heldBanks (c.arg 0 1 == 1)).filter fun e => s.bankDiffers e.1 e.2
      u.answered fn slot c (if bad = [] then 0 else 7) (if bad = [] then 0 else 0x92300000) (leBytes 4 bad.length) ∧
        u.weights.banks = s.weights.banks := by
  obtain ⟨-, u, hu, hrun⟩ := runCmd_due rfl hdue t
  have hresil : u.resil = s.resil := hu.mailbox.frame .resil (by decide)
  obtain ⟨hbanks, hslots, hdiffer⟩ := readBanks_reads u (c.arg 0 1 == 1)
  rw [hu.weights] at hbanks
  simp only [heldBanks_mailbox hu.mailbox, bankDiffers_mailbox hu.mailbox] at hdiffer
  rw [exec_weightsDigest, execWeightsDigest, hrun]
  simp only [Nat.not_lt.2 hbank, if_false, hu.weights, hresil, ← or_assoc, hidle, hstage, or_self]
  have hlen : ((u.readBanks (c.arg 0 1 == 1)).2.mergeSort (· ≤ ·)).length = _ := List.length_mergeSort _
  rw [hdiffer, List.length_map] at hlen
  rw [hdiffer]
  generalize ((s.heldBanks (c.arg 0 1 == 1)).filter fun e => s.bankDiffers e.1 e.2) = bad at hlen ⊢
  split
  next hsorted =>
    rw [hsorted] at hlen
    obtain rfl : bad = [] := List.length_eq_zero_iff.1 hlen.symm
    exact next_of_eq rfl ⟨worked_answered hu hslots stOk 0 _, (congrArg Weights.banks (complete_same _ _ _ _ _ _ _ (f := .weights) (by decide))).trans hbanks⟩
  next k l hsorted =>
    rw [hsorted] at hlen
    have hbad : bad ≠ [] := fun h => by rw [h] at hlen; exact absurd hlen (Nat.succ_ne_zero _)
    have hsnag := congrArg Weights.banks (snag_same (u.readBanks (c.arg 0 1 == 1)).1 0x9230 2 19 0x7FF [c.arg 0 1, k, l.length + 1] (f := .weights) (by decide))
    simp only [hbad, if_false, ← hlen]
    exact next_of_eq rfl ⟨worked_answered hu ((snagCtl_slots _ _ _ _).trans hslots) stFault 0x92300000 _,
      (congrArg Weights.banks (complete_same _ _ _ _ _ _ _ (f := .weights) (by decide))).trans (hsnag.trans hbanks)⟩

end

end Sys2Proof.Machine
end

section
/-! SUPPORT. Selects that begin and panels that have loaded, and the select and digest of weight sets settled (09 R264–R266, R273). -/

namespace Sys2Proof.Machine

variable {s u v : State} {t fn slot : Nat} {c : Cmd}

theorem WaitKind.isSelect_eq_false {k : WaitKind} (h : k ≠ .select) : k.isSelect = false := by
  cases k with
  | select => exact absurd rfl h
  | _ => rfl

theorem took_wait (hv : v.Took s t fn slot c) (id : Nat) (k : WaitKind) : Kept mailbox s (v.wait fn slot id k) :=
  wait_kept hv.mailbox fn slot id k (by decide)

/-! ### Selects that begin (09 R264, R265) -/

/-- The rows of the panels to load leave CTL once the banks are taken. -/
theorem banksTaken_sends {x : Select} {l : List Nat} {r : PanelRec} (hr : r ∈ (s.store.image x.idx).records) (hl : recKey r ∈ l)
    (htold : s.told (recKey r / 32) 3) :
    ∃ bank, .novko (recKey r / 32) (.weightRows s.gen r.panel bank r.rows) ∈ ((s.banksTaken x).sendRows l).out := by
  have hmesh : (s.banksTaken x).SameMesh s := (banksTaken_kept s x).sameMesh
  have hstore : (s.banksTaken x).store = s.store := (banksTaken_kept s x).frame .store (by decide)
  rw [← hmesh.gen]
  exact sendRows_sends (banksTaken_selects s x).1 (by rw [hstore]; exact hr) hl (hmesh.told htold)

section
variable (hv : v.Took s t fn slot c) (hidle : ¬(s.weights.sel.isSome = true ∨ s.weights.startQ ≠ []))
include hv hidle

/-- A set that is live on every panel it covers answers its command at once. -/
theorem beginSelect_answers (hflips : s.selectFlips (s.store.image (c.arg 0 2)) = []) (loadOnly switch : Bool) :
    let u := ((v.wait fn slot c.id .select).beginSelect (c.arg 0 2) loadOnly switch (some c.id)).pumpStarts
    u.answered fn slot c 0 0 [] ∧ u.weights.sel = none := by
  obtain ⟨hsel, hstart⟩ := not_or.1 hidle
  have hwait : Kept mailbox s (v.wait fn slot c.id .select) := took_wait hv _ _
  have hstore : (v.wait fn slot c.id .select).store = s.store := hwait.frame .store (by decide)
  have hweights : ((v.wait fn slot c.id .select).completeWaits WaitKind.isSelect stOk 0 []).weights = s.weights :=
    (completeWaits_kept hwait _ _ _ _ (by decide)).frame .weights (by decide)
  have hslot := slot_completeWaits (s := v.wait fn slot c.id .select) (P := WaitKind.isSelect) (status := stOk) (detail := 0) (result := [])
    (w := { id := c.id, fn, slot, kind := .select, since := v.now }) (List.mem_append_right _ (List.mem_singleton.2 rfl)) rfl hv.goes.1 rfl
  rw [beginSelect_live (by rw [hstore, selectFlips_mailbox hwait]; exact hflips), pumpStarts_idle (by rw [hweights]; exact not_not.1 hstart)]
  dsimp only
  rw [hweights]
  exact ⟨answered_of_completed (s := v.wait fn slot c.id .select) hv.goes hslot, Option.not_isSome_iff_eq_none.1 hsel⟩

/-- With panels to load, the command waits for the select, and outside a recovery their rows are sent. -/
theorem beginSelect_begun (hload : s.selectLoads (s.store.image (c.arg 0 2)) ≠ []) (hdevices : s.weights.devBad = 0) (loadOnly switch : Bool) :
    let u := ((v.wait fn slot c.id .select).beginSelect (c.arg 0 2) loadOnly switch (some c.id)).pumpStarts
    let left := s.selectLoads (s.store.image (c.arg 0 2))
    u.goesOn fn slot c ∧
      (∃ x, u.weights.sel = some x ∧ x.idx = c.arg 0 2 ∧ x.loadOnly = loadOnly ∧ x.switch = switch ∧ x.left = left ∧ x.load = left) ∧
      (s.mode ≠ .recovering → ∀ r ∈ (s.store.image (c.arg 0 2)).records, recKey r ∈ left → s.told (recKey r / 32) 3 →
        ∃ bank, .novko (recKey r / 32) (.weightRows s.gen r.panel bank r.rows) ∈ u.out) := by
  have hwait : Kept mailbox s (v.wait fn slot c.id .select) := took_wait hv _ _
  have hgoes : (v.wait fn slot c.id .select).goesOn fn slot c := hv.goes
  have hmesh : (v.wait fn slot c.id .select).SameMesh s := hwait.sameMesh
  generalize v.wait fn slot c.id .select = w at hwait hgoes hmesh
  have hstore : w.store = s.store := hwait.frame .store (by decide)
  have hweights : w.weights = s.weights := hwait.frame .weights (by decide)
  have hloads : w.selectLoads (s.store.image (c.arg 0 2)) = s.selectLoads (s.store.image (c.arg 0 2)) := selectLoads_mailbox hwait _
  have hbegun := beginSelect_loads (s := w) (idx := c.arg 0 2) (loadOnly := loadOnly) (switch := switch) (cmd := some c.id)
    (by rw [hstore, hloads]; exact hload) (by rw [hweights]; exact hdevices)
  have hleft : (w.newSelect (c.arg 0 2) loadOnly switch (some c.id)).left = s.selectLoads (s.store.image (c.arg 0 2)) := by
    rw [← hloads, ← hstore]
    rfl
  have hsends {l : List Nat} {r : PanelRec} (hr : r ∈ (s.store.image (c.arg 0 2)).records) (hl : recKey r ∈ l) (htold : s.told (recKey r / 32) 3) :=
    banksTaken_sends (x := w.newSelect (c.arg 0 2) loadOnly switch (some c.id)) (by rw [hstore]; exact hr) hl (hmesh.told htold)
  have hselect : ∃ x, some (w.newSelect (c.arg 0 2) loadOnly switch (some c.id)) = some x ∧ x.idx = c.arg 0 2 ∧ x.loadOnly = loadOnly ∧
    x.switch = switch ∧ x.left = s.selectLoads (s.store.image (c.arg 0 2)) ∧ x.load = s.selectLoads (s.store.image (c.arg 0 2)) :=
    ⟨_, rfl, rfl, rfl, rfl, hleft, hleft⟩
  generalize w.newSelect (c.arg 0 2) loadOnly switch (some c.id) = x at hbegun hsends hselect
  have htaken := banksTaken_kept w x
  obtain ⟨hsel, hstart⟩ := banksTaken_selects w x
  rw [hweights, not_not.1 (not_or.1 hidle).2] at hstart
  have hmode : (w.banksTaken x).mode = s.mode := (htaken.frame .mode (by decide)).trans (hwait.frame .mode (by decide))
  have hslots : (w.banksTaken x).host.slots = w.host.slots := congrArg HostIf.slots (htaken.frame .host (by decide))
  rw [hbegun]
  dsimp only
  split
  · rename_i hrecovering
    rw [hmode] at hrecovering
    rw [pumpStarts_idle hstart, hsel]
    exact ⟨goesOn_congr (slot_of_slots hslots fn slot) hgoes, hselect, fun h => absurd hrecovering h⟩
  · have hsent : ((w.banksTaken x).sendRows (w.selectLoads (w.store.image (c.arg 0 2)))).weights = (w.banksTaken x).weights :=
      (sendRows_kept (L := [.rtrs, .host, .snags, .snagNext, .out]) (.refl _) _ (by decide)).frame .weights (by decide)
    rw [pumpStarts_idle (by rw [hsent]; exact hstart), hsent, hsel, hstore, hloads]
    refine ⟨goesOn_congr (slot_of_slots ((sendRows_slots hsel _).trans hslots) fn slot) hgoes, hselect, fun _ r hr hl htold => ?_⟩
    rw [← hmesh.gen]
    exact hsends hr hl htold

end

/-! ### Panels that have loaded (09 R265, R266) -/

theorem without_left (x : Select) (k : Nat) : (x.without k).left = x.left.filter (· ≠ k) :=
  List.filter_congr fun _ _ => by rw [bne, beq_eq_decide, decide_not]

section
variable {b : BayIx} {p : PanelIx} {x : Select} (h : s.weights.sel = some x) (hswap : x.swapping = false) (hleft : pkey b p ∈ x.left)
  (hstart : s.weights.startQ = [])
include h hswap hleft hstart

theorem panelDoneNotice_faults (hbad : imgPanelOk (s.store.image x.idx) (pkey b p) = false) :
    Next (exec (.panelDoneNotice t b p s.gen) s) fun u => u.weights.sel = none ∧
      (s.novkoUp = true → ∃ r ∈ u.snags, r.code = 0x9211 ∧ r.args = [x.idx, pkey b p, 0, 0]) :=
  next_of_eq (panelDoneNotice_mismatch h hswap hleft hbad) (loadMismatch_ends (s := s.tick t) h hstart _ _)

variable (hgood : imgPanelOk (s.store.image x.idx) (pkey b p) = true)
include hgood

omit hstart in
/-- A panel among others leaves the list. -/
theorem panelDoneNotice_leaves (hothers : x.left.any (· ≠ pkey b p) = true) : Next (exec (.panelDoneNotice t b p s.gen) s) fun u =>
    u.weights = { s.weights with sel := some { x with left := x.left.filter (· ≠ pkey b p) } } := by
  have hall : x.left.all (· == pkey b p) = false := by
    obtain ⟨k, hk, hne⟩ := List.any_eq_true.1 hothers
    exact List.all_eq_false.2 ⟨k, hk, by simpa using hne⟩
  have hnotice := panelDoneNotice_match (t := t) h hswap hleft hgood
  rw [hall] at hnotice
  rw [← without_left]
  exact next_of_eq hnotice (by simp [State.modSel, h, Select.without])

variable (hlast : x.left = [pkey b p])
include hlast

omit hstart in
/-- The last panel: the set's own digest is held against the entry's. -/
theorem panelDoneNotice_last : exec (.panelDoneNotice t b p s.gen) s = .next (
    let v := (s.tick t).modSel fun x => x.without (pkey b p)
    if (s.store.entry x.idx).any (fun e => imgSet (s.store.image x.idx) == e.setDigest) = true then v.loadDone.pumpStarts
    else v.loadMismatch x.idx 0xFFFF) := by
  have hall : x.left.all (· == pkey b p) = true := by simp [hlast]
  rw [panelDoneNotice_match (t := t) h hswap hleft hgood, hall]
  rfl

/-- A set whose own digest matches ends its load-only select without a word to any command that does not wait for it. -/
theorem panelDoneNotice_ends (hload : x.loadOnly = true) (hwaits : ∀ w ∈ s.host.waits, w.kind ≠ .select)
    (hset : (s.store.entry x.idx).any (fun e => imgSet (s.store.image x.idx) == e.setDigest) = true) :
    Next (exec (.panelDoneNotice t b p s.gen) s) fun u => u.weights.sel = none ∧ u.host = s.host := by
  have hnotice := panelDoneNotice_last (t := t) h hswap hleft hgood hlast
  set v := (s.tick t).modSel fun x => x.without (pkey b p) with hv
  have hsel : v.weights.sel = some (x.without (pkey b p)) := by simp [hv, State.modSel, h]
  have hdone := loadDone_loadOnly (s := v) hsel hload hswap fun w hw => WaitKind.isSelect_eq_false (hwaits w hw)
  have hquiet : v.loadDone.weights.startQ = [] := by
    rw [hdone]
    exact (settled_sameSelects v _).2.trans hstart
  refine next_of_eq (hnotice.trans (congrArg Host.Outcome.next ((if_pos hset).trans (pumpStarts_idle hquiet)))) ?_
  rw [hdone]
  exact ⟨rfl, (settled_kept v _).frame .host (by decide)⟩

/-- A set whose own digest does not match ends its select with FAULT. -/
theorem panelDoneNotice_faultsSet (hset : ¬(s.store.entry x.idx).any (fun e => imgSet (s.store.image x.idx) == e.setDigest) = true) :
    Next (exec (.panelDoneNotice t b p s.gen) s) fun u => u.weights.sel = none ∧
      (s.novkoUp = true → ∃ r ∈ u.snags, r.code = 0x9211 ∧ r.args = [x.idx, 0xFFFF, 0, 0]) := by
  have hsel : ((s.tick t).modSel fun x => x.without (pkey b p)).weights.sel = some (x.without (pkey b p)) := by simp [State.modSel, h]
  exact next_of_eq ((panelDoneNotice_last (t := t) h hswap hleft hgood hlast).trans (congrArg Host.Outcome.next (if_neg hset)))
    (loadMismatch_ends hsel hstart _ _)

end

end Sys2Proof.Machine

namespace Sys2Proof

open Machine

/-- Settles O54: the checks of a select are made in the order of its answers; a set that is live wherever it goes completes its command, and otherwise the rows that a
panel lacks leave CTL for its bay. A panel that has loaded leaves the list or ends the select, and banks read back are held against their records. -/
theorem weightSetsAreSelectedAndReadBack : Obligations.WeightSetsAreSelectedAndReadBack := by
  unfold Obligations.WeightSetsAreSelectedAndReadBack
  intro t fn slot b p c s select digest i o img flips left busy
  refine ⟨fun hdue => ⟨weightsSelect_refused hdue, fun hfn hentry ho hidle hfree hmode => ?_⟩, fun x gen h => ⟨panelDoneNotice_stale h, fun hswap hleft hstart => ?_⟩,
    fun hdue hbank => ⟨fun hbusy => ?_, fun hidle hstage => weightsDigest_reads hdue hbank hidle hstage⟩⟩
  · obtain ⟨v, hv, hexec⟩ := weightsSelect_begins hdue hfn hentry ho hidle hfree hmode
    exact ⟨fun hflips => next_of_eq hexec (beginSelect_answers hv hidle hflips _ _),
      fun hload hdevices => next_of_eq hexec (beginSelect_begun hv hidle hload hdevices _ _)⟩
  · intro wrong
    split
    · rename_i hgood
      refine ⟨panelDoneNotice_leaves h hswap hleft hgood, fun hlast hload hwaits => ?_⟩
      split
      · exact panelDoneNotice_ends h hswap hleft hstart hgood hlast hload hwaits ‹_›
      · exact panelDoneNotice_faultsSet h hswap hleft hstart hgood hlast ‹_›
    · exact panelDoneNotice_faults h hswap hleft hstart (Bool.eq_false_iff.2 ‹_›)
  · obtain ⟨u, hu, hexec⟩ := weightsDigest_busy hdue hbank hbusy
    exact next_of_eq hexec ⟨completed_answered hu rfl stBusy, (complete_same _ _ _ _ _ _ _ (f := .weights) (by decide)).trans hu.weights⟩

end Sys2Proof
end
